-- ==== Sys2Proof/Word.lean ====
section
/-!
DEFINITION. The words the UN8170's spec counts in: bytes, 32-bit register words and 64-bit Accord instants (R4, R49).
-/
namespace Sys2Proof

/-- A register word (R4). -/
abbrev Word := BitVec 32

/-- One byte of memory. -/
abbrev Byte := BitVec 8

/-- An Accord instant: ATB nanoseconds modulo 2^64 (R49). -/
abbrev Instant := BitVec 64

end Sys2Proof
end

