-- ==== Sys2Proof/Syntax.lean ====
section
/-!
DEFINITION. The commands of the block: one constructor for each row of the spec's command table, with the command's
operands. A master is numbered 0-63 for the sequencer cores, 64 for the management core, 65 for the host port, 66 for IST
and 67 for an engine; measured and analogue quantities are operands.
-/
namespace Sys2Proof

/-- The commands. -/
inductive Instr where
  /-- REGISTER_WRITE: A write to a register field that has no behaviour of its own sets or ignores the field as its type states. (R3) -/
  | registerWrite (m : Fin 67) (a : BitVec 36) (size : Fin 4) (v : BitVec 64)
  /-- RC_FIELD_READ: A read of an RC field returns its value and then clears it. (R3) -/
  | rcFieldRead (m : Fin 67) (a : BitVec 36)
  /-- WINDOW_LOCK_SET: Writing WINDOW_LOCK.LOCK with 1 makes every RWL field of the window read only until a covering reset. (R7) -/
  | windowLockSet (m : Fin 67) (w : Fin 20)
  /-- EXPERT_UNLOCK_WRITE: A write to EXPERT_UNLOCK advances, completes or breaks the 0x5A/0xA5 unlock sequence, or relocks with 0x00. (R8) -/
  | expertUnlockWrite (m : Fin 67) (w : Fin 20) (v : Word)
  /-- CAL_USER_WRITE: A write to an X_USER field writes through to the MRAM user page and recomputes X_EFF with clamping. (R16) -/
  | calUserWrite (m : Fin 67) (p : Fin 3) (i : Fin 7) (v : Word)
  /-- ADD: ALU ADD writes rs + rt to rd and sets CY to the carry out. (R61) -/
  | add (n : Fin 65)
  /-- SUB: ALU SUB writes rs − rt to rd and sets CY on unsigned borrow. (R61) -/
  | sub (n : Fin 65)
  /-- AND: ALU AND writes the bitwise AND of rs and rt to rd. (R61) -/
  | and (n : Fin 65)
  /-- OR: ALU OR writes the bitwise OR of rs and rt to rd. (R61) -/
  | or (n : Fin 65)
  /-- XOR: ALU XOR writes the bitwise XOR of rs and rt to rd. (R61) -/
  | xor (n : Fin 65)
  /-- ANDN: ALU ANDN writes rs AND NOT rt to rd. (R61) -/
  | andn (n : Fin 65)
  /-- SHL: ALU SHL shifts rs left by rt[4:0] into rd. (R61) -/
  | shl (n : Fin 65)
  /-- SHR: ALU SHR shifts rs right logically by rt[4:0] into rd. (R61) -/
  | shr (n : Fin 65)
  /-- SAR: ALU SAR shifts rs right arithmetically by rt[4:0] into rd. (R61) -/
  | sar (n : Fin 65)
  /-- ROR: ALU ROR rotates rs right by rt[4:0] into rd. (R61) -/
  | ror (n : Fin 65)
  /-- ADDC: ALU ADDC writes rs + rt + CY to rd and sets CY to the carry out. (R61) -/
  | addc (n : Fin 65)
  /-- SUBB: ALU SUBB writes rs − rt − CY to rd and sets CY on borrow. (R61) -/
  | subb (n : Fin 65)
  /-- MUL: ALU MUL writes the low 32 bits of rs × rt to rd. (R61) -/
  | mul (n : Fin 65)
  /-- MULH: ALU MULH writes the high 32 bits of the signed product to rd. (R61) -/
  | mulh (n : Fin 65)
  /-- MULHU: ALU MULHU writes the high 32 bits of the unsigned product to rd. (R61) -/
  | mulhu (n : Fin 65)
  /-- MIN: ALU MIN writes the signed minimum of rs and rt to rd. (R61) -/
  | min (n : Fin 65)
  /-- MAX: ALU MAX writes the signed maximum of rs and rt to rd. (R61) -/
  | max (n : Fin 65)
  /-- MINU: ALU MINU writes the unsigned minimum of rs and rt to rd. (R61) -/
  | minu (n : Fin 65)
  /-- MAXU: ALU MAXU writes the unsigned maximum of rs and rt to rd. (R61) -/
  | maxu (n : Fin 65)
  /-- CLZ: ALU CLZ writes the count of leading zeros of rs to rd. (R61) -/
  | clz (n : Fin 65)
  /-- POPC: ALU POPC writes the number of 1 bits of rs to rd. (R61) -/
  | popc (n : Fin 65)
  /-- BSWAP: ALU BSWAP writes rs with its bytes reversed to rd. (R61) -/
  | bswap (n : Fin 65)
  /-- ADDI: ADDI writes rs plus the sign-extended immediate to rd. (R62) -/
  | addi (n : Fin 65)
  /-- ANDI: ANDI writes rs AND the zero-extended immediate to rd. (R62) -/
  | andi (n : Fin 65)
  /-- ORI: ORI writes rs OR the zero-extended immediate to rd. (R62) -/
  | ori (n : Fin 65)
  /-- XORI: XORI writes rs XOR the zero-extended immediate to rd. (R62) -/
  | xori (n : Fin 65)
  /-- SHIFTI: SHIFTI shifts or rotates rs by an immediate amount of the selected kind into rd. (R62) -/
  | shifti (n : Fin 65)
  /-- LUI: LUI writes imm18 shifted left by 14 to rd. (R62) -/
  | lui (n : Fin 65)
  /-- BFX: BFX extracts a bit field of rs into rd. (R62) -/
  | bfx (n : Fin 65)
  /-- BFI: BFI inserts the low bits of rs into a bit field of rd. (R62) -/
  | bfi (n : Fin 65)
  /-- CMP: CMP evaluates a condition on two registers and combines it into a predicate. (R63) -/
  | cmp (n : Fin 65)
  /-- CMPI: CMPI evaluates a condition on a register and a sign-extended immediate and combines it into a predicate. (R63) -/
  | cmpi (n : Fin 65)
  /-- TCMP: TCMP compares two Accord instants by their signed difference into a predicate. (R63) -/
  | tcmp (n : Fin 65)
  /-- PLOG: PLOG sets a predicate from a logical function of two predicates. (R64) -/
  | plog (n : Fin 65)
  /-- MFS: MFS copies a special register into a general register, faulting on reserved or privileged numbers. (R50) -/
  | mfs (n : Fin 65)
  /-- MTS: MTS writes a general register into a writable special register, faulting on reserved or read-only numbers. (R50) -/
  | mts (n : Fin 65)
  /-- LDB: LDB loads a sign-extended byte from L space. (R65) -/
  | ldb (n : Fin 65)
  /-- LDBU: LDBU loads a zero-extended byte from L space. (R65) -/
  | ldbu (n : Fin 65)
  /-- LDH: LDH loads a sign-extended halfword from L space. (R65) -/
  | ldh (n : Fin 65)
  /-- LDHU: LDHU loads a zero-extended halfword from L space. (R65) -/
  | ldhu (n : Fin 65)
  /-- LDW: LDW loads a word from L space. (R65) -/
  | ldw (n : Fin 65)
  /-- STB: STB stores the low byte of rd to L space. (R65) -/
  | stb (n : Fin 65)
  /-- STH: STH stores the low halfword of rd to L space. (R65) -/
  | sth (n : Fin 65)
  /-- STW: STW stores rd to L space. (R65) -/
  | stw (n : Fin 65)
  /-- LDT: LDT loads a 64-bit Accord instant from L space into a t register. (R65) -/
  | ldt (n : Fin 65)
  /-- STT: STT stores a t register to L space. (R65) -/
  | stt (n : Fin 65)
  /-- LDF: LDF issues a fabric read of F space and stalls the core until the value returns. (R54) -/
  | ldf (n : Fin 65)
  /-- LDF_RETURN: The value or bus error of an LDF arrives, loading rd, faulting FBUS or setting STATUS.BE. (R54) -/
  | ldfReturn (n : Fin 65)
  /-- STF: STF posts a write to F space. (R54) -/
  | stf (n : Fin 65)
  /-- STF_BUS_ERROR: The error response to a posted STF reaches the core and sets STATUS.BE. (R54) -/
  | stfBusError (n : Fin 65)
  /-- AMO_SWAP: AMO SWAP writes rt to an L word and returns the old value in one bank operation. (R65) -/
  | amoSwap (n : Fin 65)
  /-- AMO_ADD: AMO ADD adds rt to an L word and returns the old value. (R65) -/
  | amoAdd (n : Fin 65)
  /-- AMO_OR: AMO OR ORs rt into an L word and returns the old value. (R65) -/
  | amoOr (n : Fin 65)
  /-- AMO_CAS: AMO CAS writes rt to an L word if it equals rd and returns the old value. (R65) -/
  | amoCas (n : Fin 65)
  /-- XCOPY_COPY: XCOPY COPY moves memory from source to destination on the management core. (R84) -/
  | xcopyCopy (n : Fin 65)
  /-- XCOPY_COPYCRC: XCOPY COPYCRC moves memory and folds the bytes into XCRC. (R84) -/
  | xcopyCopycrc (n : Fin 65)
  /-- XCOPY_CRC: XCOPY CRC reads memory and folds the bytes into XCRC. (R84) -/
  | xcopyCrc (n : Fin 65)
  /-- XCOPY_FILL: XCOPY FILL writes a repeated pattern over the destination. (R84) -/
  | xcopyFill (n : Fin 65)
  /-- BR: BR branches PC-relative. (R66) -/
  | br (n : Fin 65)
  /-- JAL: JAL jumps PC-relative and writes the link. (R66) -/
  | jal (n : Fin 65)
  /-- JALR: JALR jumps to a register target and writes the link. (R66) -/
  | jalr (n : Fin 65)
  /-- DONE: DONE ends the handler and returns the core to dispatch. (R66) -/
  | done (n : Fin 65)
  /-- EVCTL: EVCTL sets or clears EN or PEND of the binding slots selected by rs. (R80) -/
  | evctl (n : Fin 65)
  /-- FENCE: FENCE stalls the core until every write and P-class operation it issued has completed. (R55) -/
  | fence (n : Fin 65)
  /-- FENCE_COMPLETE: The last outstanding write of a fencing core completes and the core resumes. (R55) -/
  | fenceComplete (n : Fin 65)
  /-- BRK: BRK raises the BREAK fault. (R66) -/
  | brk (n : Fin 65)
  /-- TRAP: TRAP raises the TRAP fault recording a code. (R66) -/
  | trap (n : Fin 65)
  /-- ERET: ERET restores PRED and STATUS, clears INFAULT and resumes the management core at FPC. (R72) -/
  | eret (n : Fin 65)
  /-- TNOW: TNOW reads the cluster's ATB replica into a t register. (R67) -/
  | tnow (n : Fin 65)
  /-- TADD: TADD adds a shifted sign-extended register to an instant. (R67) -/
  | tadd (n : Fin 65)
  /-- TADDI: TADDI adds a sign-extended immediate to an instant. (R67) -/
  | taddi (n : Fin 65)
  /-- TDIFF: TDIFF writes the clamped shifted difference of two instants to rd, setting SAT on clamping. (R67) -/
  | tdiff (n : Fin 65)
  /-- TMV: TMV moves a half of a t register to or from a general register. (R67) -/
  | tmv (n : Fin 65)
  /-- HANDLER_WDOG: HLEFT reaches 0 and the core faults WDOG. (R81) -/
  | handlerWdog (n : Fin 65)
  /-- DISPATCH: An IDLE core with a pending enabled slot dispatches the lowest such handler. (R75) -/
  | dispatch (n : Fin 65)
  /-- DOORBELL_WRITE: A write to DOORBELL fires the named doorbells into every slot bound to them. (R73) -/
  | doorbellWrite (n : Fin 65) (v : Word)
  /-- BIND_WRITE: A write to BIND_k rebinds a slot, clearing PEND on a source change or refusing it with BADBIND. (R79) -/
  | bindWrite (n : Fin 65) (k : Fin 16) (v : Word)
  /-- CORE_START: CORE_CTL.START releases a HELD core, marking it if START_AT is armed, or resumes a HALTED core. (R90) -/
  | coreStart (n : Fin 64)
  /-- CORE_HALT: CORE_CTL.HALT halts an idle core at once or a running core at its next DONE. (R86) -/
  | coreHalt (n : Fin 64)
  /-- CORE_KILL: CORE_CTL.KILL abandons the running handler and halts the core. (R86) -/
  | coreKill (n : Fin 64)
  /-- CORE_RESET: CORE_CTL.RESET returns a HELD or HALTED core to reset values and cancels its comparators and timers. (R111) -/
  | coreReset (n : Fin 64)
  /-- START_ARM: START_CTL.ARM arms the release of marked cores at START_AT, or releases at once and sets LATE. (R90) -/
  | startArm
  /-- START_RELEASE: At START_AT every marked core leaves HELD together and runs its INIT handler or goes IDLE. (R90) -/
  | startRelease
  /-- XSEG_INIT_WRITE: A write to XSEG_INIT sets a HELD core's XSEG special register. (R89) -/
  | xsegInitWrite (n : Fin 64) (v : Word)
  /-- TWAIT: TWAIT stalls the core until its replica reaches an instant, or reports LATE at once. (R107) -/
  | twait (n : Fin 65)
  /-- TWAIT_EXPIRE: The awaited instant arrives and the waiting core resumes. (R107) -/
  | twaitExpire (n : Fin 65)
  /-- TARM: TARM arms a core timer at an instant, latching at once if it has passed. (R108) -/
  | tarm (n : Fin 65)
  /-- TARM_DISARM: TARM with DISARM cancels a core timer. (R108) -/
  | tarmDisarm (n : Fin 65)
  /-- CORE_TIMER_EXPIRE: A core timer's instant arrives and latches every slot bound to it. (R108) -/
  | coreTimerExpire (n : Fin 65) (i : Fin 4)
  /-- TRIG_ARM: TRIG ARM claims a PROGRAM comparator and arms it with an action word. (R109) -/
  | trigArm (n : Fin 65)
  /-- TRIG_CANCEL: TRIG CANCEL frees an unfired comparator armed by the same core, or reports FIRED. (R110) -/
  | trigCancel (n : Fin 65)
  /-- PUSH: PUSH appends a descriptor to a ring, posted or with WAIT. (R115) -/
  | push (n : Fin 65)
  /-- POP: POP removes a ring's head descriptor into an L block, or returns the idle item. (R114) -/
  | pop (n : Fin 65)
  /-- Q_RESPONSE: The response to a Q-class device operation arrives, writing rd, DRES, DSTAT and DLAT and resuming the core. (R96) -/
  | qResponse (n : Fin 65)
  /-- ASYNC_ERROR_RESPONSE: An error met by a P-class operation at its target returns and updates DERR and STATUS.BE. (R100) -/
  | asyncErrorResponse (n : Fin 65)
  /-- LOOKUP_EUI64: LOOKUP sub 0 searches the node table for an EUI-64 and sets the entry's HIT. (R119) -/
  | lookupEui64 (n : Fin 65)
  /-- LOOKUP_SHORT: LOOKUP sub 1 searches the node table for a PAN ID and short address. (R119) -/
  | lookupShort (n : Fin 65)
  /-- LEARN: LEARN presents a learn block to the key's bank learn queue. (R120) -/
  | learn (n : Fin 65)
  /-- KFETCH: KFETCH makes a referenced key ready, deriving and caching a node key on a miss. (R122) -/
  | kfetch (n : Fin 65)
  /-- SEAL: SEAL submits an encrypt-and-authenticate job to the cipher job queue. (R123) -/
  | seal (n : Fin 65)
  /-- OPEN: OPEN submits a verify-and-decrypt job to the cipher job queue. (R123) -/
  | openJob (n : Fin 65)
  /-- TXAT: TXAT stages a transmission on a voice after profile, duty and power checks and arms its trigger. (R125) -/
  | txat (n : Fin 65)
  /-- LISTEN: LISTEN commits a set-aside lane to a listen window. (R127) -/
  | listen (n : Fin 65)
  /-- CALUPD_ADD: CALUPD ADD enters a node in the calendar with a first wake and interval. (R130) -/
  | calupdAdd (n : Fin 65)
  /-- CALUPD_REMOVE: CALUPD REMOVE removes a node from the calendar. (R130) -/
  | calupdRemove (n : Fin 65)
  /-- CALUPD_MOVE: CALUPD MOVE replaces a node's next expected wake. (R130) -/
  | calupdMove (n : Fin 65)
  /-- CALUPD_INTERVAL: CALUPD INTERVAL replaces a node's interval. (R130) -/
  | calupdInterval (n : Fin 65)
  /-- MACREQ_DLCOUNT: MACREQ DLCOUNT returns the number of frames on a node's downlink ring. (R128) -/
  | macreqDlcount (n : Fin 65)
  /-- MACREQ_ACK: MACREQ ACK builds, seals and stages the acknowledgement to a measured poll and refiles the node's wake. (R235) -/
  | macreqAck (n : Fin 65)
  /-- MACREQ_DLQUEUE: MACREQ DLQUEUE appends a DLMAC descriptor to a node's downlink ring. (R246) -/
  | macreqDlqueue (n : Fin 65)
  /-- MACREQ_SEARCH: MACREQ SEARCH puts a node into SEARCH. (R128) -/
  | macreqSearch (n : Fin 65)
  /-- BUF_ALLOC: BUF ALLOC takes one Flacon buffer from the named class. (R118) -/
  | bufAlloc (n : Fin 65)
  /-- BUF_FREE: BUF FREE returns the chain headed by a buffer to Flacon. (R118) -/
  | bufFree (n : Fin 65)
  /-- PORT_ENABLE: Writing PORT_CTL.EN with 1 enables an RF port and requests its start calibration. (R144) -/
  | portEnable (p : Fin 3)
  /-- PORT_DISABLE: Writing PORT_CTL.EN with 0 flushes staged transmissions and drains the port's lanes. (R172) -/
  | portDisable (p : Fin 3)
  /-- CAL_REQ: PORT_CTL.CAL_REQ requests a command calibration of a port. (R144) -/
  | calReq (p : Fin 3)
  /-- CAL_FORCE: FE_EXP.CAL_FORCE starts a port calibration at once without deferral. (R148) -/
  | calForce (p : Fin 3)
  /-- CALIBRATION_START: A deferred calibration starts at the first instant no staged transmission overlaps its guard. (R145) -/
  | calibrationStart (p : Fin 3)
  /-- CAL_FORCED: A calibration deferred for CAL_MAXDEFER becomes forced and is scheduled at the earliest free instant. (R147) -/
  | calForced (p : Fin 3)
  /-- CALIBRATION_COMPLETE: A port calibration ends, updating CAL_INFO and READY or recording a failure, and raising EV_FE_CALDONE. (R143) -/
  | calibrationComplete (p : Fin 3) (locks : Bool) (rej : BitVec 8)
  /-- CAL_RETRY: A failed calibration is repeated 10 ms later, and a second failure leaves the port not READY. (R151) -/
  | calRetry (p : Fin 3)
  /-- TEMP_SAMPLE: Every 10 ms a port's sensor is sampled, requesting calibration or folding back on temperature. (R161) -/
  | tempSample (p : Fin 3) (raw : BitVec 10)
  /-- SYNTH_LOCK_LOSS: A synthesiser losing lock stops the port's transmission and starts a calibration. (R149) -/
  | synthLockLoss (p : Fin 3)
  /-- TX_LATE_DROP: A voice waiting for lock past its tolerance drops the transmission with TX_LATE. (R150) -/
  | txLateDrop (v : Fin 12) (j : Fin 4)
  /-- LOAD_MEASUREMENT: The antenna-load monitor takes an 8 µs measurement, classifying faults and folding back or auto-clearing. (R158) -/
  | loadMeasurement (p : Fin 3) (rl : Int) (phase : BitVec 8)
  /-- LOAD_CLR: Writing LOAD_CTL.CLR clears a load fold-back. (R160) -/
  | loadClr (p : Fin 3)
  /-- ANT_SEL_WRITE: A write of ANT.SEL drives the antenna-select pins at once or defers them. (R156) -/
  | antSelWrite (p : Fin 3) (v : BitVec 2)
  /-- ANT_SEL_APPLY: A deferred ANT.SEL value reaches the pins PA_LAG after the last transmission ends. (R156) -/
  | antSelApply (p : Fin 3)
  /-- PA_EN_ASSERT: FE asserts PA_EN PA_LEAD before a staged transmission's first chip. (R155) -/
  | paEnAssert (p : Fin 3)
  /-- PA_EN_RELEASE: PA_EN returns inactive PA_LAG after a transmission's last chip. (R153) -/
  | paEnRelease (p : Fin 3)
  /-- PROFILE_INSTALL: INSTALL_CTL.START begins checking and writing a region profile into a slot. (R165) -/
  | profileInstall
  /-- INSTALL_COMPLETE: A profile install ends with its readback check, setting DONE and RESULT. (R165) -/
  | installComplete
  /-- SLOT_LOCK_WRITE: Writing SLOT_LOCK locks valid profile slots for good. (R166) -/
  | slotLockWrite (v : BitVec 8)
  /-- SWITCH_ARM: SWITCH_CTL.ARM arms a region switch or refuses it with ERR. (R169) -/
  | switchArm
  /-- SWITCH_CANCEL: SWITCH_CTL.CANCEL disarms a switch before SWITCH_AT. (R169) -/
  | switchCancel
  /-- SWITCH_ARMED: An accepted switch sets ARMED and re-checks or withdraws stagings against the new profile. (R170) -/
  | switchArmed
  /-- REGION_SWITCH: At SWITCH_AT the new profile takes force and retuning ports start calibrations. (R171) -/
  | regionSwitch
  /-- AGC_STEP_DOWN: The AGC steps down when the ADC peak exceeds −1 dBFS on 4 samples. (R138) -/
  | agcStepDown (p : Fin 3)
  /-- AGC_STEP_UP: The AGC steps up after 10 ms below −20 dBFS with no frame held. (R138) -/
  | agcStepUp (p : Fin 3)
  /-- STREAM_ENABLE: Writing a stream's EN with 1 enables it or records a STREAM_ERR refusal. (R189) -/
  | streamEnable (p : Fin 3) (k : Fin 32) (chan : BitVec 7) (mode : BitVec 4)
  /-- STREAM_DISABLE: Writing a stream's EN with 0 releases its searching lanes and lets receiving lanes finish. (R190) -/
  | streamDisable (p : Fin 3) (k : Fin 32) (chan : BitVec 7) (mode : BitVec 4)
  /-- LANE_ATTACH: A port's allocator attaches a FREE lane as a stream's searcher. (R193) -/
  | laneAttach (p : Fin 3)
  /-- PREAMBLE_DETECT: A searcher detects a preamble and accepts or refuses it under capture rules. (R202) -/
  | preambleDetect (n : Fin 96) (peak : Int)
  /-- CAPTURE_PREEMPT: A lane's background detector finds a stronger preamble and preempts or counts a miss. (R203) -/
  | capturePreempt (n : Fin 96) (peak : Int)
  /-- SFD_DETECT: A lane finds the SFD, stamps its instant and takes a Flacon buffer. (R208) -/
  | sfdDetect (n : Fin 96) (raw : Nat) (power : Int)
  /-- SFD_TIMEOUT: A lane in SYNC with no SFD within SFD_TIMEOUT releases itself and counts FALSE_DET. (R195) -/
  | sfdTimeout (n : Fin 96)
  /-- PHR_DECODE: A lane checks the PHR and abandons the frame on an error. (R196) -/
  | phrDecode (n : Fin 96) (phr : BitVec 16)
  /-- UNIT_REPORT: A lane reports a decoded PSDU byte, writing it to the chain and handing header bytes to FWD. (R638) -/
  | unitReport (n : Fin 96) (b : BitVec 8)
  /-- FRAME_END: After the last FCS byte a lane writes the record and queues the descriptor, or abandons on bad FCS. (R198) -/
  | frameEnd (n : Fin 96) (rho : Fin 65537) (evm : Nat) (cfo : Int) (snr : Int)
  /-- OUTQ_RELEASE: A lane held in DONE finds room in its output queue and hands its frame on. (R198) -/
  | outqRelease (n : Fin 96)
  /-- OUTQ_STALL: A lane's output queue full for 100 µs raises EV_BB_OUTQSTALL. (R216) -/
  | outqStall (n : Fin 96)
  /-- RX_BLANK_START: Blanking of a port's receiver pauses searchers and abandons frames in SYNC or RECEIVE. (R199) -/
  | rxBlankStart (p : Fin 3)
  /-- RX_BLANK_END: The end of blanking resumes the paused searchers. (R199) -/
  | rxBlankEnd (p : Fin 3)
  /-- SAMPLE_PARITY_ERROR: A parity error in a stream bank aborts the stream's frames and raises EV_BB_PARITY. (R191) -/
  | sampleParityError (p : Fin 3) (k : Fin 32)
  /-- LANE_CHECK_FAIL: A lane's internal check fails and the lane goes OFF until reset. (R216) -/
  | laneCheckFail (n : Fin 96)
  /-- LISTEN_WINDOW_OPEN: A listen window's comparator fires and its lane starts searching. (R201) -/
  | listenWindowOpen (n : Fin 96)
  /-- LISTEN_WINDOW_CLOSE: A listen window closes and writes its COMPLETION when opened by LISTEN. (R201) -/
  | listenWindowClose (n : Fin 96)
  /-- VOICE_TRIGGER: A voice trigger fires and the voice assesses the channel, applies the budget and launches. (R211) -/
  | voiceTrigger (v : Fin 12) (j : Fin 4) (power : Int)
  /-- TX_END: A staged transmission ends and the voice writes its COMPLETION on CRING. (R214) -/
  | txEnd (v : Fin 12) (j : Fin 4)
  /-- MAC_ENABLE: Writing MAC_CTL.EN with 1 resumes calendar processing from the present slot. (R251) -/
  | macEnable
  /-- MAC_DISABLE: Writing MAC_CTL.EN with 0 stops calendar processing and flushes staged MAC transmissions. (R251) -/
  | macDisable
  /-- NODE_ALLOC: NODE_OP ALLOC initialises a FREE node record as IDLE. (R228) -/
  | nodeAlloc (i : Fin 131072)
  /-- NODE_RELEASE: NODE_OP RELEASE removes a node's calendar entry, frees its downlink chains and cache key, and frees it. (R228) -/
  | nodeRelease (i : Fin 131072)
  /-- NODE_FLUSH: NODE_OP FLUSH writes a node's cached MAC half back to DRAM. (R228) -/
  | nodeFlush (i : Fin 131072)
  /-- NODE_LOAD: NODE_OP LOAD copies a node's MAC half into NODE_VIEW. (R228) -/
  | nodeLoad (i : Fin 131072)
  /-- SLOT_PROCESS: MAC processes a calendar slot's entries LEAD_SLOTS ahead, committing lanes and staging beacons. (R237) -/
  | slotProcess
  /-- OVERFLOW_MIGRATE: Every 2^16 slots MAC moves due overflow entries onto the wheel. (R237) -/
  | overflowMigrate
  /-- AUTH_FRAME: MAC handles an authenticated frame from a managed node, measuring its arrival and updating the record. (R230) -/
  | authFrame
  /-- WAKE_DECISION: At E + g + T_TAIL a wake is decided heard or missed, widening or moving the node to SEARCH. (R233) -/
  | wakeDecision (i : Fin 131072)
  /-- ALT_WAKE_EXPIRE: An alternate wake reaching its decision unheard is withdrawn without a miss. (R236) -/
  | altWakeExpire (i : Fin 131072)
  /-- ACK_COMPLETION: An acknowledgement's voice completion confirms or restores the node's anchor and starts downlink delivery. (R236) -/
  | ackCompletion
  /-- RECOVERY_BEACON: At each RV_PERIOD MAC sends a recovery beacon and opens contention slots. (R240) -/
  | recoveryBeacon (p : Fin 3)
  /-- PARENT_BEACON: An authenticated parent beacon is tracked and its time handed to ACC. (R244) -/
  | parentBeacon
  /-- PARENT_BEACON_MISS: An expected parent beacon not heard counts missed, and a third miss declares the parent LOST. (R244) -/
  | parentBeaconMiss
  /-- TAG_ACK: A tag's acknowledgement of a downlink frame frees the frame and sends the next. (R247) -/
  | tagAck
  /-- DL_ACK_TIMEOUT: No tag acknowledgement by the deadline fails the head frame and counts DL_RETRY or drops it. (R247) -/
  | dlAckTimeout (i : Fin 131072)
  /-- DL_FRAME_COMPLETION: A downlink frame's voice completion ends a NOACK delivery or fails the burst. (R247) -/
  | dlFrameCompletion
  /-- RECORD_ERROR: A DRAM error reading a node record puts the node in SEARCH and raises EV_MAC_RECERR. (R252) -/
  | recordError (i : Fin 131072)
  /-- FWD_DECISION: FWD parses the MAC header, looks up both keys, classes the frame and enqueues its result. (R264) -/
  | fwdDecision (n : Fin 96) (ns : BitVec 16)
  /-- LEARN_COMMIT: A queued learn commits at its bank as an insert, refresh, pin, move, replacement or refusal. (R267) -/
  | learnCommit (bank : Fin 16)
  /-- HOLD_SWEEP: The background pass clears HOLD on old entries and checks parity every 64 ms. (R268) -/
  | holdSweep
  /-- AGE_VISIT: The sweeper visits an entry, clearing HIT, setting STRIKE or issuing a removal. (R271) -/
  | ageVisit (bank : Fin 16)
  /-- AGE_REMOVAL: A conditional removal clears VALID if GEN and HIT still match. (R271) -/
  | ageRemoval (bank : Fin 16)
  /-- HASH_SEED_WRITE: A write to HASH_SEED takes effect only while FWD is disabled and empty, otherwise setting SEEDREJ. (R259) -/
  | hashSeedWrite (v : Word)
  /-- TABLE_DELETE: TABLE_OP DELETE removes the entry of TKEY. (R274) -/
  | tableDelete (kind : Bool)
  /-- TABLE_UNPIN: TABLE_OP UNPIN clears MANAGED of the entry of TKEY. (R274) -/
  | tableUnpin (kind : Bool)
  /-- FLUSH_GROUP: TABLE_OP FLUSH_GROUP removes every unmanaged entry of a limit group. (R274) -/
  | flushGroup
  /-- FLUSH_PORT: TABLE_OP FLUSH_PORT removes every unmanaged entry of a port. (R274) -/
  | flushPort
  /-- PAYSEL_DELIVERY: FWD receives an opened frame back and delivers it by its first payload byte. (R263) -/
  | payselDelivery
  /-- FLOOD_JOB: The Atomiser takes a FLOOD job, tests Sillage, decrements hops, seals and stages its targets. (R280) -/
  | floodJob
  /-- FLOOD_RETRY: A flood target refused BUSY is staged again 1 ms later. (R281) -/
  | floodRetry
  /-- ADAPT_UPWARD: The adaptation block processes an opened 6LoWPAN frame by mesh header, BC0, fragment or IPHC. (R283) -/
  | adaptUpward
  /-- REASM_TIMEOUT: A reassembly context incomplete after REASM_TIMEOUT is discarded. (R284) -/
  | reasmTimeout
  /-- ADAPT_DOWNWARD: The adaptation block compresses, fragments and queues a downward IPv6 packet. (R286) -/
  | adaptDownward
  /-- FWD_ENABLE: Writing FWD_CTL.EN with 1 enables forwarding. (R288) -/
  | fwdEnable
  /-- FWD_DISABLE: Writing FWD_CTL.EN with 0 drops frames, discards learns and reassembly and drains jobs. (R288) -/
  | fwdDisable
  /-- LINK_DATA_WRITE: A write to LINK_DATA changes a buffer's NEXT, LAST and FILL or is refused. (R294) -/
  | linkDataWrite (m : Fin 67) (v : Word)
  /-- SCHEDULER_MOVE: An enabled scheduler moves the chosen member's head descriptor to DST. (R308) -/
  | schedulerMove (k : Fin 8)
  /-- LATENCY_SAMPLE: Every LTB millisecond the sampler records occupancy and sojourn of enabled rings. (R312) -/
  | latencySample
  /-- RECLAIM_COMPLETE: The reclaim scan after a ring reset ends and pushes are accepted again. (R305) -/
  | reclaimComplete (n : Fin 64)
  /-- RING_ENABLE: Writing RING_CTL.EN with 1 enables a ring. (R315) -/
  | ringEnable (n : Fin 64)
  /-- RING_DISABLE: Writing RING_CTL.EN with 0 refuses pushes until the ring drains. (R315) -/
  | ringDisable (n : Fin 64)
  /-- RING_FLUSH: RING_CTL.FLUSH removes every descriptor, reclaims held chains and sets DRAINED. (R315) -/
  | ringFlush (n : Fin 64)
  /-- SCHEDULER_ENABLE: Writing SCH_CTL.EN with 1 resumes a scheduler. (R316) -/
  | schedulerEnable (k : Fin 8)
  /-- SCHEDULER_DISABLE: Writing SCH_CTL.EN with 0 stops a scheduler after its move in progress. (R316) -/
  | schedulerDisable (k : Fin 8)
  /-- RX_JOB: The cipher engine pops a CRYRX descriptor and places it in a receive context or discards it. (R325) -/
  | rxJob
  /-- WHOLE_LANE_DISPATCH: A free lane takes the next whole-lane job by MAC priority then round robin. (R324) -/
  | wholeLaneDispatch
  /-- KEY_LOAD: A key load at KEY binds EPOCHs, checks orphans and returns material or a refusal. (R368) -/
  | keyLoad
  /-- RX_JOB_FINISH: After good FCS a receive job verifies, checks the counter, learns, writes plaintext and delivers. (R341) -/
  | rxJobFinish (cl : Fin 24) (a : Fin 16)
  /-- FC_CEILING_COMPLETE: A frame-counter ceiling write to MRAM completes and waiting draws proceed. (R334) -/
  | fcCeilingComplete (k : Fin 4096)
  /-- CIPHER_JOB_END: A whole-lane cipher job ends with its status and completion. (R346) -/
  | cipherJobEnd (cl : Fin 24)
  /-- LANE_PARITY_ERROR: A hold-buffer or key-register parity error abandons the job and takes the lane out of service. (R347) -/
  | laneParityError (cl : Fin 24) (a : Fin 16)
  /-- CRY_ENABLE: Writing CRY_CTL.EN with 1 enables the cipher engine. (R348) -/
  | cryEnable
  /-- CRY_DISABLE: Writing CRY_CTL.EN with 0 completes running jobs and flushes queued ones. (R348) -/
  | cryDisable
  /-- KEY_GENERATE: KEY_OP GENERATE creates a level-1 slot from the random bit generator. (R367) -/
  | keyGenerate (k : Fin 4096)
  /-- KEY_IMPORT: KEY_OP IMPORT writes KEY_DATA into a level-1 slot. (R367) -/
  | keyImport (m : Fin 67) (k : Fin 4096)
  /-- KEY_UNWRAP: KEY_OP UNWRAP installs an AES-KW wrapped key under a transport slot. (R373) -/
  | keyUnwrap (k : Fin 4096)
  /-- KEY_DERIVE: KEY_OP DERIVE derives a child slot from a parent. (R367) -/
  | keyDerive (k : Fin 4096)
  /-- KEY_ERASE: KEY_OP ERASE empties a slot, revokes bound jobs and commits the empty record. (R370) -/
  | keyErase (k : Fin 4096)
  /-- KEY_EXPORT: KEY_OP EXPORT writes a slot's material wrapped under a transport key. (R373) -/
  | keyExport (k : Fin 4096)
  /-- KEY_EXPORT_NODE: KEY_OP EXPORT_NODE writes a node key wrapped under a transport key. (R373) -/
  | keyExportNode (k : Fin 4096)
  /-- KEY_ATTEST: KEY_OP ATTEST writes a signed attestation statement for a slot. (R375) -/
  | keyAttest (k : Fin 4096)
  /-- KEY_OP_END: A key operation ends with its RESULT, clearing KEY_DATA and raising its event. (R366) -/
  | keyOpEnd
  /-- ROOT_GEN: ROOT_CTL.GEN programs a fresh device root into fuses in FACTORY. (R358) -/
  | rootGen (good : Bool)
  /-- KEY_STORE_LOAD: At start KEY loads every slot from its live MRAM copy and sets READY. (R357) -/
  | keyStoreLoad
  /-- NMAP_WRITE: A write to NMAP_DATA sets a node's group slot and removes its cache entry, or is refused. (R361) -/
  | nmapWrite (m : Fin 67) (v : Word)
  /-- NODE_KEY_DERIVE: A derivation engine derives a missed node key after MAC returns the record. (R364) -/
  | nodeKeyDerive (e : Fin 4)
  /-- RNG_FAIL: A failed health test disables the random bit generator until reset. (R360) -/
  | rngFail
  /-- KEY_PARITY_ERROR: A parity error in the working store, cache or node map is reloaded, missed or cleared. (R376) -/
  | keyParityError (kind : Fin 3) (x : Fin 131072)
  /-- KEY_ENABLE: Writing KEY_CTL.EN with 1 enables key loads. (R377) -/
  | keyEnable
  /-- KEY_DISABLE: Writing KEY_CTL.EN with 0 refuses later loads while derivations complete. (R377) -/
  | keyDisable
  /-- TIME_NS_READ: A read of TIME_NS captures ATB into the master's banked registers. (R383) -/
  | timeNsRead (m : Fin 67)
  /-- LTB_LO_READ: A read of LTB_LO captures LTB_HI for the master. (R383) -/
  | ltbLoRead (m : Fin 67)
  /-- RTC_WRITE: ACC_CTL.RTC_WRITE requests the calendar be set at the next ATB second. (R388) -/
  | rtcWrite
  /-- RTC_WRITE_EXECUTE: At the next whole ATB second ACC issues the calendar SET and clears RTC_PEND. (R388) -/
  | rtcWriteExecute
  /-- SOURCE_CHANGE: A write of ACC_CTL.SRC changes what steers ATB. (R389) -/
  | sourceChange (src : Fin 8)
  /-- HOLD_WRITE: Writing ACC_CTL.HOLD or FORCE_HOLD with 1 enters holdover. (R397) -/
  | holdWrite (force : Bool)
  /-- RATE_WRITE: A write of RATE_HI applies RATE when the source and state allow. (R390) -/
  | rateWrite (hi : Word)
  /-- STEP: STEP_CTL.GO steps ATB and every replica and fires passed comparators. (R391) -/
  | step (abs : Bool)
  /-- SLEW_START: A write of SLEW_NS starts a slew. (R393) -/
  | slewStart (v : Word)
  /-- SLEW_COMPLETE: SLEW_LEFT reaches 0 and the slew ends. (R393) -/
  | slewComplete
  /-- SERVO_MEASUREMENT: The servo acts on a parent or PPS measurement by state. (R395) -/
  | servoMeasurement
  /-- SOFT_TIMEOUT: No RATE write for SOFT_TIMEOUT seconds enters holdover. (R390) -/
  | softTimeout
  /-- HOLD_ERR_UPDATE: Every 1 ms in holdover HOLD_ERR is recomputed and HOLD_LIMIT checked. (R397) -/
  | holdErrUpdate
  /-- REPLICA_CHECK: Every 1 ms ACC corrects each ATB replica and raises a fault on a large difference. (R385) -/
  | replicaCheck (i : BitVec 16) (large : Bool)
  /-- COMPARATOR_FIRE: A comparator's instant arrives and its action takes place. (R407) -/
  | comparatorFire (i : Fin 512)
  /-- COMPARATOR_ECC_ERROR: A double error frees a comparator without firing and raises EV_ACC_FAULT. (R409) -/
  | comparatorEccError (i : Fin 512)
  /-- PPS_IN_EDGE: An active PPS_IN edge is stamped, handed to the servo and raises EV_ACC_PPS. (R410) -/
  | ppsInEdge (t : Nat)
  /-- PPS_IN_LOSS: No PPS_IN edge for 1.5 s sets LOSS. (R410) -/
  | ppsInLoss
  /-- PPS_OUT_END: PPS_OUT returns inactive OUT_WIDTH after its edge. (R411) -/
  | ppsOutEnd
  /-- NOW_SUBSEC_READ: A read of NOW_SUBSEC captures the calendar and ELAPSED for the master. (R416) -/
  | nowSubsecRead (m : Fin 67)
  /-- RTC_SET: RTC_CTL.SET checks the staged calendar fields and accepts or refuses. (R417) -/
  | rtcSet
  /-- RTC_SET_LOAD: An accepted SET loads the calendar at the next CK_RTC edge and clears OSF. (R417) -/
  | rtcSetLoad
  /-- TRIM_WINDOW: A 2^20-cycle trim window ends and the trim takes up TRIM_EFF. (R419) -/
  | trimWindow
  /-- CALENDAR_SECOND: At each calendar second boundary RTC_ATB is recorded and the calendar advances. (R421) -/
  | calendarSecond
  /-- ALARM_ARM: Writing ALM_CTL.ARM with 1 arms or re-arms an alarm. (R426) -/
  | alarmArm (k : Fin 4)
  /-- ALARM_DISARM: Writing ALM_CTL.ARM with 0 disarms an alarm. (R426) -/
  | alarmDisarm (k : Fin 4)
  /-- ALARM_FIRE: An alarm reaches its target, sets FIRED and raises EV_RTC_ALARM. (R427) -/
  | alarmFire
  /-- ALARM_CLEAR: Writing FIRED with 1 clears FIRED, SKIPPED and MISSED. (R427) -/
  | alarmClear (k : Fin 4)
  /-- SUPPLY_SWITCH_VBAT: PD_BKP switches to VBAT when VDD_IO18 falls below 1.58 V. (R422) -/
  | supplySwitchVbat (reversed : Bool)
  /-- SUPPLY_SWITCH_MAIN: PD_BKP returns to main when VDD_IO18 reaches 1.66 V. (R422) -/
  | supplySwitchMain
  /-- RTC_LOCKOUT: VDD_IO18 falling below 1.62 V locks out the RTC interface. (R423) -/
  | rtcLockout
  /-- RTC_LOCKOUT_RELEASE: The RTC lockout ends when VDD_IO18 is up and the PD_AON reset is released. (R423) -/
  | rtcLockoutRelease
  /-- OSC_STOP: Four missing CK_RTC cycles set OSF. (R424) -/
  | oscStop
  /-- BKP_POWER_UP: PD_BKP gaining power from nothing sets OSF and zeroes ELAPSED and scratch. (R424) -/
  | bkpPowerUp
  /-- VBAT_SAMPLE: Every 10 s the VBAT monitor samples and sets LOW, ABSENT or REVERSED latches. (R433) -/
  | vbatSample (mv : Int)
  /-- VOTE_WRITE: A write to PD_VOTE sets or clears the master's vote, waking a stopped domain. (R440) -/
  | voteWrite (m : Fin 67) (d : Fin 21) (v : BitVec 6)
  /-- DRYDOWN_GO: DD_CTL.GO starts Drydown or refuses it. (R443) -/
  | drydownGo
  /-- DRYDOWN_TURN: At a domain's turn Drydown checks votes and busy, then isolates and powers it off. (R444) -/
  | drydownTurn
  /-- DRYDOWN_BUSY_TIMEOUT: A domain still busy after 200 µs refuses and Drydown rolls back. (R444) -/
  | drydownBusyTimeout
  /-- ENTRY_WINDOW_END: The 6-cycle entry window after ASLEEP ends and pending wakes take effect. (R446) -/
  | entryWindowEnd
  /-- WAKE_SOURCE: An enabled wake source starts a wake of WAKE_DOMS. (R448) -/
  | wakeSource (src : Fin 7) (active : Bool)
  /-- DOMAIN_POWER_UP: A waking domain reads ON, and the last one records WAKE_SRC and raises EV_PLT_WAKE. (R447) -/
  | domainPowerUp (d : Fin 21)
  /-- AUTO_WAKE_ACCESS: An access to a stopped AUTO_WAKE domain sets vote AUTO and stalls while it wakes. (R451) -/
  | autoWakeAccess (m : Fin 67) (a : BitVec 36) (size : Fin 4) (write : Bool) (v : BitVec 64)
  /-- AUTO_WAKE_TIMEOUT: A domain not ON within 40 µs fails the stalled access. (R451) -/
  | autoWakeTimeout (m : Fin 67)
  /-- PAD_RELEASE_ANT: PAD_RET.REL_ANT releases group ANT to live values. (R453) -/
  | padReleaseAnt
  /-- PAD_RELEASE_H: PAD_RET.REL_H releases group H to live values. (R453) -/
  | padReleaseH
  /-- POWER_ON_RESET: PD_AON gaining power resets every domain but PD_BKP. (R455) -/
  | powerOnReset
  /-- AON_RESET_RELEASE: The PD_AON reset is released once rails and CK_REF meet their thresholds. (R455) -/
  | aonResetRelease
  /-- RESET_PIN: RESET_N held low for 1 µs causes a CHIP reset. (R455) -/
  | resetPin (ns : Nat)
  /-- RESET_CHIP: RST_CTL.CHIP causes a CHIP reset. (R455) -/
  | resetChip
  /-- RESET_CORE: RST_CTL.CORE causes a CORE reset. (R455) -/
  | resetCore
  /-- RESET_DOM: RST_CTL.DOM resets one domain. (R454) -/
  | resetDom (d : BitVec 5)
  /-- WDOG_KICK: Writing 0x4B1C to WDOG_KICK restarts the chip watchdog. (R456) -/
  | wdogKick (v : Word)
  /-- WATCHDOG_EXPIRE: The chip watchdog reaches TIMEOUT and causes a CHIP reset. (R456) -/
  | watchdogExpire
  /-- SUPPLY_FAULT: A rail below its threshold for 1 µs enters fault and takes its action. (R457) -/
  | supplyFault (rail : Fin 8)
  /-- SUPPLY_RECOVER: A rail above its rising threshold for 10 µs leaves fault. (R457) -/
  | supplyRecover (rail : Fin 8)
  /-- CMP_LOAD: CMP_CTL LOAD checks a tag image header and reads its body into the store. (R462) -/
  | cmpLoad (c : Fin 4)
  /-- CMP_START: CMP_CTL START fixes the burst grid, queues notices and enters round 1. (R468) -/
  | cmpStart (c : Fin 4)
  /-- CMP_PAUSE: CMP_CTL PAUSE stops bursts after the present one. (R475) -/
  | cmpPause (c : Fin 4)
  /-- CMP_RESUME: CMP_CTL RESUME continues a paused campaign or raises ROUNDS_MAX. (R475) -/
  | cmpResume (c : Fin 4)
  /-- CMP_ACTIVATE: CMP_CTL ACTIVATE raises the floor, sets ACTIVATING and queues DIS_ACT. (R473) -/
  | cmpActivate (c : Fin 4)
  /-- CMP_CLEAR: CMP_CTL CLEAR empties a campaign. (R475) -/
  | cmpClear (c : Fin 4)
  /-- TGT_ADD: TGT_OP ADD adds a node to a campaign in NOTIFY. (R465) -/
  | tgtAdd (c : Fin 4) (i : Fin 131072)
  /-- TGT_REMOVE: TGT_OP REMOVE sets a node's campaign record to NONE. (R465) -/
  | tgtRemove (c : Fin 4) (i : Fin 131072)
  /-- TGT_QUERY: TGT_OP QUERY copies a node's summary into TGT_STATE. (R465) -/
  | tgtQuery (c : Fin 4) (i : Fin 131072)
  /-- BURST_PREPARE: DIS builds, seals and submits a burst's fragments before its burst instant. (R469) -/
  | burstPrepare (c : Fin 4)
  /-- FRAG_COMPLETION: A fragment's flood completion arrives and DIS frees its chain. (R469) -/
  | fragCompletion
  /-- NACK_PHASE_OPEN: The first burst instant after the round's fragments opens the NACK phase. (R470) -/
  | nackPhaseOpen (c : Fin 4)
  /-- ROUND_START: At the round start DIS ages silent nodes, builds S and starts, completes or exhausts the campaign. (R470) -/
  | roundStart (c : Fin 4)
  /-- NACK_RX: DIS consumes a DIS_NACK and updates the node's record. (R471) -/
  | nackRx
  /-- NOTICE_RETRY: A refused notice or DIS_ACT is offered again every 60 s. (R467) -/
  | noticeRetry (c : Fin 4)
  /-- ACTIVATION_INSTANT: At CMP_ACT the campaign becomes DONE with outcome ACTIVATED. (R473) -/
  | activationInstant (c : Fin 4)
  /-- BLOCK_REQUEST: BLK_REQ.GO writes a CoAP block of an image into a chain. (R476) -/
  | blockRequest (m : Fin 67)
  /-- FLOOR_WRITE: A write to FLOOR_VER raises a floor and ignores lower values. (R463) -/
  | floorWrite (k : Fin 16) (v : Word)
  /-- DIS_ENABLE: Writing DIS_CTL.EN with 1 enables DIS with campaigns PAUSED. (R477) -/
  | disEnable
  /-- DIS_DISABLE: Writing DIS_CTL.EN with 0 stops bursts and NACK popping and drains jobs. (R477) -/
  | disDisable
  /-- IMG_LOAD: IMG_CTL LOAD checks a device image header and copies it into the other bank. (R493) -/
  | imgLoad
  /-- IMG_ARM: IMG_CTL ARM arms activation of the staged bank at IMG_ACT. (R499) -/
  | imgArm
  /-- IMG_CANCEL: IMG_CTL CANCEL disarms an armed activation. (R499) -/
  | imgCancel
  /-- IMG_RESTART: IMG_CTL RESTART activates the staged bank at once. (R499) -/
  | imgRestart
  /-- IMG_CONFIRM: IMG_CTL CONFIRM ends the trial, raises VER_FLOOR and programs epoch fuses. (R502) -/
  | imgConfirm (fusesGood : Bool)
  /-- IMAGE_ACTIVATION: At the activation instant PLT rewrites the boot record and causes a CORE reset. (R500) -/
  | imageActivation
  /-- BOOT_START: The boot ROM selects and checks a bank, loads MGT and SEQ sections and starts the program or recovery. (R496) -/
  | bootStart (fusesGood : Bool)
  /-- CONFIRM_TIMEOUT: A pending bank not confirmed within TIMEOUT causes a CORE reset. (R502) -/
  | confirmTimeout
  /-- LIFECYCLE_TRANSITION: LC_CTL.TARGET programs the next life-cycle fuse and causes a CHIP reset, or is refused. (R505) -/
  | lifecycleTransition (m : Fin 67) (target : BitVec 3) (confirm : BitVec 8) (fuseGood : Bool)
  /-- LC_NONCE_READ: A read of LC_NONCE_0 draws a fresh return-token nonce. (R506) -/
  | lcNonceRead
  /-- KEYREV_REVOKE: KEYREV_CTL.REVOKE programs a trust key's revocation fuse unless it leaves no device key. (R490) -/
  | keyrevRevoke (k : Fin 16) (fuseGood : Bool)
  /-- FUSE_PROGRAM: FUSE_CTL.GO programs a fuse bank in FACTORY and reads it back. (R488) -/
  | fuseProgram (b : Fin 4) (fuseGood : Bool)
  /-- TWIN_ENABLE: Writing TWN_CTL.EN with 1 puts the unit in STARTING. (R511) -/
  | twinEnable
  /-- TWIN_DISABLE: Writing TWN_CTL.EN with 0 returns the unit to SOLO. (R510) -/
  | twinDisable
  /-- JOIN_WAIT_EXPIRE: The JOIN_WAIT listening period ends and the unit takes its role. (R511) -/
  | joinWaitExpire
  /-- HB_SEND: Every 10 ms comparator 78 sends an HB and counts unkicked instants. (R514) -/
  | hbSend
  /-- HB_KICK: Writing 0x7A11 to HB_KICK lets the next HB carry ALIVE. (R514) -/
  | hbKick (v : Word)
  /-- HB_RX: A received HB steers the standby's ATB and resolves role conflicts. (R516) -/
  | hbRx (frame : List Nat) (stamp : Nat)
  /-- HB_MISS: An expected HB window closes missed, and a third miss is the loss decision. (R515) -/
  | hbMiss
  /-- CHECKPOINT_CAPTURE: Comparator 77 starts a checkpoint and the active unit sends its records. (R519) -/
  | checkpointCapture
  /-- CK_DATA_RX: The standby journals a received CK_DATA frame. (R521) -/
  | ckDataRx (frame : List Nat)
  /-- CK_END_RX: A matching CK_END makes the standby apply the checkpoint. (R521) -/
  | ckEndRx (frame : List Nat)
  /-- CHECKPOINT_APPLY_END: The standby finishes applying a checkpoint and sends CK_ACK. (R521) -/
  | checkpointApplyEnd
  /-- CK_ACK_RX: A CK_ACK clears the dirty marks of the acknowledged checkpoint. (R519) -/
  | ckAckRx (frame : List Nat)
  /-- TAKEOVER_RX: A TAKEOVER frame with a higher ROLE_EPOCH fences the active unit. (R524) -/
  | takeoverRx (frame : List Nat)
  /-- JOIN_RX: A JOIN makes the active unit mark every record dirty and send a baseline. (R535) -/
  | joinRx (frame : List Nat)
  /-- IMG_DATA_RX: The standby writes pushed image bytes into its staging area. (R532) -/
  | imgDataRx (frame : List Nat)
  /-- IMG_ACT_RX: An IMG_ACT frame arms or reports the shared image activation. (R533) -/
  | imgActRx (frame : List Nat)
  /-- TWIN_DATA_RX: A DATA frame is written into Flacon and pushed to LINK_RINGS.RX. (R587) -/
  | twinDataRx (frame : List Nat)
  /-- TWIN_DATA_TX: A descriptor on LINK_RINGS.TX is sent as a DATA frame. (R587) -/
  | twinDataTx
  /-- TWIN_RESTORE: TWN_CTL.RESTORE restores the mirror into MAC, KEY, FE and FWD. (R525) -/
  | twinRestore
  /-- RESTORE_COMPLETE: The restore ends, setting RESTORED and ROLE ACTIVE. (R525) -/
  | restoreComplete
  /-- HANDOVER: TWN_CTL.HANDOVER arms a planned handover at HO_AT. (R531) -/
  | handover
  /-- HANDOVER_INSTANT: At HO_AT the active unit fences, sends a final checkpoint and a DYING HB. (R531) -/
  | handoverInstant
  /-- IMG_PUSH: TWN_CTL.IMG_PUSH sends the staged bank to the standby. (R532) -/
  | imgPush
  /-- LINK_SYNC_ACQUIRE: The twin-link receiver acquires sync after 3 commas. (R585) -/
  | linkSyncAcquire (commas : Nat)
  /-- LINK_SYNC_LOSS: The twin-link receiver loses sync on invalid code groups or missing commas. (R585) -/
  | linkSyncLoss (bad : Nat) (ns : Nat)
  /-- SLICE_START: At a 10 µs boundary IST starts admitted slices on idle units. (R539) -/
  | sliceStart (busy : List Nat)
  /-- SLICE_END: A slice ends PASS, FAIL or INCOMPLETE and failures take their class action. (R541) -/
  | sliceEnd (cls : Fin 9) (unit : Fin 256) (finished : Bool) (sig : Word) (row : Fin 4096) (balls : List Nat)
  /-- SLICE_YIELD: Work reaching a unit in a slice makes it yield, with ballast taking its current. (R540) -/
  | sliceYield (cls : Fin 9) (unit : Fin 256)
  /-- IST_REQUEST: IST_REQ.GO queues a slice of a named unit. (R546) -/
  | istRequest (cls : BitVec 4) (unit : BitVec 8)
  /-- IST_FORCE: IST_FORCE.GO takes a unit out of service for a forced slice. (R547) -/
  | istForce (cls : BitVec 4) (unit : BitVec 8)
  /-- REPAIR_BURN: REPAIR_CTL.BURN programs soft repairs into the REPAIR fuses. (R550) -/
  | repairBurn (readback : List Nat)
  /-- FULL_BIST: BIST_CTL.GO runs destructive full BIST on the named domains. (R555) -/
  | fullBist
  /-- IST_DISABLE: Writing IST_CTL.EN with 0 ends running slices INCOMPLETE and stops new ones. (R557) -/
  | istDisable
  /-- HOST_SELECT: HSEL_N asserting drops HRDY and votes PD_HIF awake. (R562) -/
  | hostSelect
  /-- HOST_WRITE: A host WRITE is checked against DCRC and written word by word. (R565) -/
  | hostWrite (header : List Nat) (data : List Nat)
  /-- HOST_READ: A host READ returns words from registers or memory. (R565) -/
  | hostRead (header : List Nat)
  /-- HOST_STATUS: A host STATUS returns HIF_ATTN. (R563) -/
  | hostStatus (header : List Nat)
  /-- HOST_POP: A host POP removes a ring head and optionally streams its chain. (R568) -/
  | hostPop (header : List Nat)
  /-- HOST_PUSH: A host PUSH writes data into buffers and pushes a descriptor. (R568) -/
  | hostPush (header : List Nat) (data : List Nat)
  /-- HOST_ABORT: An early deselect or 10 µs of silent HCLK aborts a host transaction. (R570) -/
  | hostAbort (silent : Bool)
  /-- HIF_FREE_WRITE: A write to HIF_FREE frees a host-held chain. (R568) -/
  | hifFreeWrite (b : Fin 16384)
  /-- HIF_ATTN_SET_WRITE: A write to HIF_ATTN_SET sets the SW attention bit. (R569) -/
  | hifAttnSetWrite
  /-- ETH_RX_FRAME: An Ethernet receiver filters a frame and pushes it as RXETH by rule. (R573) -/
  | ethRxFrame (q : Fin 2) (frame : List Nat) (stamp : Nat)
  /-- ETH_TX_FRAME: An Ethernet transmitter pops a TXETH descriptor and sends the frame. (R575) -/
  | ethTxFrame (q : Fin 2) (sfd : Nat)
  /-- ETH_TX_END: A sent frame frees its chain or writes its stamped completion. (R575) -/
  | ethTxEnd (q : Fin 2)
  /-- ETH_LINK_CHANGE: An Ethernet link comes up or goes down and raises EV_ETH_LINK. (R572) -/
  | ethLinkChange (q : Fin 2) (up : Bool) (speedErr : Bool)
  /-- PAUSE_END: A PAUSE hold expires and the transmitter resumes. (R576) -/
  | pauseEnd (q : Fin 2)
  /-- ETH_DISABLE: Writing an Ethernet port's EN with 0 finishes frames in flight and drains. (R577) -/
  | ethDisable (q : Fin 2)
  /-- ETH_MODE_WRITE: A write of PORT_CFG.MODE is applied or refused with MODEREJ. (R572) -/
  | ethModeWrite (q : Fin 2) (mode : Bool)
  /-- MDIO_FRAME: MDIO_CMD.GO sends one Clause 22 or 45 frame. (R578) -/
  | mdioFrame (v : Word)
  /-- MDIO_FRAME_END: An MDIO frame ends, clearing BUSY and setting NOACK if needed. (R578) -/
  | mdioFrameEnd (ack : Bool) (data : BitVec 16)
  /-- DDR_INIT: DDR_CTL.INIT starts cold or fast DRAM training. (R580) -/
  | ddrInit (temp : Int)
  /-- DDR_TRAINING_END: DRAM training ends READY or FAIL. (R580) -/
  | ddrTrainingEnd (ok : Bool) (step : Fin 11) (temp : Int)
  /-- DDR_SELF_REFRESH: DDR_CTL.SR completes outstanding accesses and enters self-refresh. (R582) -/
  | ddrSelfRefresh
  /-- DDR_SR_IDLE: SR_IDLE µs without an access re-enters self-refresh. (R582) -/
  | ddrSrIdle
  /-- DDR_MR4_POLL: Every 16 ms the controller reads MR4 and adjusts refresh. (R584) -/
  | ddrMr4Poll (hot : Bool)
  /-- GPIO_PIN_WRITE: A write to PIN_n sets a pin's function and output. (R589) -/
  | gpioPinWrite (n : Fin 24) (v : Word)
  /-- GPIO_EDGE: A selected input edge sets GPIO_EVT and raises EV_GPIO_EDGE. (R591) -/
  | gpioEdge (n : Fin 24) (rising : Bool)
  /-- EVENT_FIRING: The router serves a firing, counting, logging and routing it. (R601) -/
  | eventFiring
  /-- EVENT_DELIVERY: A routed firing latches into bound slots at a core. (R602) -/
  | eventDelivery (i : Nat)
  /-- HOLDOFF_EXPIRE: A route's hold-off ends and the last held firing is delivered. (R604) -/
  | holdoffExpire (n : Fin 96)
  /-- HOST_EVQ_READ: A read of HOST_EVQ removes the head of the host event queue. (R605) -/
  | hostEvqRead
  /-- LOG_CLEAR: LOG_CTL.CLEAR empties the error log. (R609) -/
  | logClear
  /-- HELD_RELEASE: EVT_CTL.REL releases held firings to the router in event order. (R610) -/
  | heldRelease
  /-- EVT_SOFT0_WRITE: A write to EVT_SOFT0 fires EV6 with the value. (R598) -/
  | evtSoft0Write (v : Word)
  /-- EVT_SOFT1_WRITE: A write to EVT_SOFT1 fires EV7 with the value. (R598) -/
  | evtSoft1Write (v : Word)
  /-- EVT_EXP_FIRE: EVT_EXP.GO fires any event with a test argument. (R611) -/
  | evtExpFire (v : Word)
  /-- POSTED_WRITE_COMPLETE: A posted write or P-class operation completes at its target, taking effect there, decrementing DPOST and releasing a master stalled at its fifth write. (R23) -/
  | postedWriteComplete (n : Fin 65) (i : Fin 4)
  /-- SHAPER_CREDIT_TICK: At every LTB microsecond boundary each shaped ring's CREDIT rises by RATE up to BURST, or is reset toward 0 while the ring is empty, possibly making it eligible. (R311) -/
  | shaperCreditTick
  /-- HOST_DESELECT: HSEL_N deasserting after a finished transaction ends the select detector's hold of vote HW on PD_HIF and returns HRDY to its attention meaning. (R562) -/
  | hostDeselect
  /-- RTC_OSC_START: The 32.768 kHz oscillator starts or resumes, and the detector sees CK_RTC edges again, setting OSC_RUN. (R424) -/
  | rtcOscStart
  /-- CMP_LOAD_COMPLETE: A campaign LOAD finishes reading and hashing the body, leaving LOADING for READY or EMPTY with its RESULT and clearing BUSY. (R462) -/
  | cmpLoadComplete (c : Fin 4)
  /-- IMG_LOAD_COMPLETE: A device-image LOAD finishes copying and reading back the bank, making it STAGED or EMPTY, clearing BUSY and raising EV_PLT_IMAGE. (R493) -/
  | imgLoadComplete
  /-- BIST_COMPLETE: Full BIST finishes, filling RES and PIN_RES, cycling the named domains through OFF and clearing BIST_BUSY. (R555) -/
  | bistComplete (failing : List Nat) (balls : List Nat)
  /-- TABLE_FLUSH_BANK: A group or port flush passes through one bank's learn queue, removing that bank's matching unmanaged entries, and the last bank ends the TABLE_OP with BUSY cleared. (R275) -/
  | tableFlushBank
  deriving DecidableEq, Repr

end Sys2Proof
end

