-- ==== Sys2Proof/Machine/Store.lean ====
section
/-!
DEFINITION. Sparse maps in one canonical form (keys strictly rising, no entry equal to the map's default), and the
byte, bit-field, signed and list helpers that every other file of the machine uses.
-/
namespace Sys2Proof.Machine

/-- A sparse map: (key, value) pairs, keys strictly rising. -/
abbrev FMap (α : Type) := List (Nat × α)

/-- The value listed at `k`, if any. -/
def find {α : Type} : List (Nat × α) → Nat → Option α
  | [], _ => none
  | (j, v) :: m, k => if j = k then some v else find m k

/-- Lists `v` at `k`, keeping the keys rising. -/
def insertKey {α : Type} : List (Nat × α) → Nat → α → List (Nat × α)
  | [], k, v => [(k, v)]
  | (j, u) :: m, k, v =>
    if k < j then (k, v) :: (j, u) :: m
    else if k = j then (k, v) :: m
    else (j, u) :: insertKey m k v

/-- Removes the entry at `k`. -/
def eraseKey {α : Type} (m : List (Nat × α)) (k : Nat) : List (Nat × α) :=
  m.filter (fun e => e.1 ≠ k)

/-- The value at `k`, where an unlisted key reads as `d`. -/
def getD {α : Type} (m : List (Nat × α)) (k : Nat) (d : α) : α := (find m k).getD d

/-- Writes `v` at `k` in a map whose unlisted keys read as `d`: writing `d` removes the entry. -/
def putD {α : Type} [DecidableEq α] (m : List (Nat × α)) (k : Nat) (v d : α) : List (Nat × α) :=
  if v = d then eraseKey m k else insertKey m k v

/-- The canonical form: keys strictly rising. -/
def sorted {α : Type} : List (Nat × α) → Bool
  | [] => true
  | [_] => true
  | a :: b :: m => decide (a.1 < b.1) && sorted (b :: m)

/-- The canonical form of a map whose unlisted keys read as `d k`: rising keys, no default value listed. -/
def canonical {α : Type} [DecidableEq α] (d : Nat → α) (m : List (Nat × α)) : Bool :=
  sorted m && m.all (fun e => decide (e.2 ≠ d e.1))

/-! ### Bits, bytes and signed numbers -/

/-- Bits [hi:lo] of `n`. -/
def bits (n hi lo : Nat) : Nat := n / 2 ^ lo % 2 ^ (hi - lo + 1)

/-- Bit `i` of `n`. -/
def bit (n i : Nat) : Bool := n / 2 ^ i % 2 = 1

/-- 1 for true, 0 for false. -/
def b2n (b : Bool) : Nat := if b then 1 else 0

/-- `n` with bits [hi:lo] replaced by the low bits of `v`. -/
def putBits (n hi lo v : Nat) : Nat :=
  n - bits n hi lo * 2 ^ lo + v % 2 ^ (hi - lo + 1) * 2 ^ lo

/-- `n` with bit `i` set or cleared. -/
def putBit (n i : Nat) (b : Bool) : Nat := putBits n i i (b2n b)

/-- The low `w` bits of `n` read as a signed number. -/
def signed (w n : Nat) : Int :=
  let m := n % 2 ^ w
  if m < 2 ^ (w - 1) then (m : Int) else (m : Int) - (2 ^ w : Nat)

/-- A signed number as its low `w` bits. -/
def unsigned (w : Nat) (z : Int) : Nat := (z % ((2 ^ w : Nat) : Int)).toNat

/-- `x` held inside lo..hi (R14). -/
def clampI (lo hi x : Int) : Int := if x < lo then lo else if x > hi then hi else x

/-- `x` held inside lo..hi. -/
def clampN (lo hi x : Nat) : Nat := if x < lo then lo else if x > hi then hi else x

/-- The bytes of `n`, lowest first, `k` of them. -/
def leBytes (n : Nat) : Nat → List Nat
  | 0 => []
  | k + 1 => n % 256 :: leBytes (n / 256) k

/-- The number whose bytes, lowest first, are `l`. -/
def ofLe : List Nat → Nat
  | [] => 0
  | b :: l => b % 256 + 256 * ofLe l

/-- The number whose bytes, highest first, are `l`. -/
def ofBe (l : List Nat) : Nat := ofLe l.reverse

/-- The bytes of `n`, highest first, `k` of them. -/
def beBytes (n k : Nat) : List Nat := (leBytes n k).reverse

/-- Pairs each element with its place, from `i`. -/
def enumFrom {α : Type} (i : Nat) : List α → List (Nat × α)
  | [] => []
  | a :: l => (i, a) :: enumFrom (i + 1) l

/-- Replaces the element at place `i`, if there is one. -/
def setAt {α : Type} (l : List α) (i : Nat) (v : α) : List α := l.set i v

/-- The least element of 0..n-1 that satisfies `p`. -/
def firstBelow (n : Nat) (p : Nat → Bool) : Option Nat := (List.range n).find? p

/-- The elements of 0..n-1 that satisfy `p`. -/
def allBelow (n : Nat) (p : Nat → Bool) : List Nat := (List.range n).filter p

end Sys2Proof.Machine
end

