-- ==== Sys2Proof/Machine/Crypto.lean ====
section
/-!
DEFINITION. The cryptographic functions the spec names by their standards, over lists of bytes: AES, CCM, GCM, CMAC and its
counter-mode key derivation, AES key wrap, SHA-256, ECDSA over P-256, and the CRCs of the frames. The keyed blocks of the
spec (nonces, formats, lengths) are in the files of the cipher engine and of the key store.
-/
namespace Sys2Proof.Machine

/-! ### Bytes and words -/

/-- Exclusive or of two byte strings, as long as the shorter. -/
def xorBytes (a b : List Nat) : List Nat := List.zipWith Nat.xor a b

/-- A byte string padded with zeros, or cut, to `n` bytes. -/
def padTo (n : Nat) (l : List Nat) : List Nat := (l ++ List.replicate n 0).take n

/-- The 16-byte blocks of a string, the last padded with zeros; `fuel` bounds their number. -/
def blocksOf : Nat → List Nat → List (List Nat)
  | 0, _ => []
  | fuel + 1, l => if l.isEmpty then [] else padTo 16 l :: blocksOf fuel (l.drop 16)
def blocks (l : List Nat) : List (List Nat) := blocksOf (l.length / 16 + 1) l

/-- Byte `i` of a string, 0 beyond its end. -/
def byteAt (l : List Nat) (i : Nat) : Nat := l.getD i 0

/-! ### AES (FIPS 197) -/

/-- Doubling in AES's field. -/
def xtime (a : Nat) : Nat := if 128 ≤ a then Nat.xor (a * 2 % 256) 0x1B else a * 2

/-- Multiplication in AES's field. -/
def gmul (a b : Nat) : Nat :=
  ((List.range 8).foldl (fun (p : Nat × Nat) i =>
    (if bit b i then Nat.xor p.1 p.2 else p.1, xtime p.2)) (0, a)).1

/-- The inverse in AES's field, 0 for 0: the 254th power. -/
def ginv (a : Nat) : Nat :=
  let a2 := gmul a a
  let a4 := gmul a2 a2
  let a8 := gmul a4 a4
  let a16 := gmul a8 a8
  let a32 := gmul a16 a16
  let a64 := gmul a32 a32
  let a128 := gmul a64 a64
  gmul a2 (gmul a4 (gmul a8 (gmul a16 (gmul a32 (gmul a64 a128)))))

/-- An 8-bit rotation to the left. -/
def rotl8 (a n : Nat) : Nat := (a * 2 ^ n + a / 2 ^ (8 - n)) % 256

/-- The S-box and its inverse. -/
def sbox (a : Nat) : Nat :=
  let b := ginv a
  Nat.xor 0x63 (Nat.xor b (Nat.xor (rotl8 b 1) (Nat.xor (rotl8 b 2) (Nat.xor (rotl8 b 3) (rotl8 b 4)))))
def invSbox (a : Nat) : Nat :=
  ginv (Nat.xor 0x05 (Nat.xor (rotl8 a 1) (Nat.xor (rotl8 a 3) (rotl8 a 6))))

/-- The key schedule, word by word: `w` holds the words so far, last first. -/
def expandKey (nk : Nat) : Nat → Nat → Nat → List (List Nat) → List (List Nat)
  | 0, _, _, w => w.reverse
  | k + 1, i, rcon, w =>
    let prev := w.headD []
    let t :=
      if i % nk = 0 then
        let s := (prev.drop 1 ++ prev.take 1).map sbox
        (Nat.xor (byteAt s 0) rcon) :: s.drop 1
      else if nk = 8 && i % nk = 4 then prev.map sbox
      else prev
    expandKey nk k (i + 1) (if i % nk = 0 then xtime rcon else rcon) (xorBytes (w.getD (nk - 1) []) t :: w)

/-- The four-byte words of a string. -/
def words4 (k : Nat) (l : List Nat) : List (List Nat) := (List.range k).map (fun i => (l.drop (4 * i)).take 4)

/-- The round keys of a 16- or 32-byte key. -/
def roundKeys (key : List Nat) : List (List Nat) :=
  let nk := key.length / 4
  let nr := nk + 6
  let w := expandKey nk (4 * (nr + 1) - nk) nk 1 (words4 nk key).reverse
  (List.range (nr + 1)).map (fun i => ((w.drop (4 * i)).take 4).flatten)

/-- ShiftRows and its inverse on a state held column by column. -/
def shiftRows (s : List Nat) : List Nat :=
  (List.range 16).map (fun i => byteAt s ((i + 4 * (i % 4)) % 16))
def invShiftRows (s : List Nat) : List Nat :=
  (List.range 16).map (fun i => byteAt s ((i + 12 * (i % 4)) % 16))

/-- MixColumns with the given column coefficients. -/
def mixWith (c : List Nat) (s : List Nat) : List Nat :=
  (List.range 16).map (fun i =>
    (List.range 4).foldl (fun a j => Nat.xor a (gmul (byteAt c ((j + 4 - i % 4) % 4)) (byteAt s (i / 4 * 4 + j)))) 0)
def mixColumns (s : List Nat) : List Nat := mixWith [2, 3, 1, 1] s
def invMixColumns (s : List Nat) : List Nat := mixWith [14, 11, 13, 9] s

/-- AES encryption of one block. -/
def aesBlock (key blk : List Nat) : List Nat :=
  let rk := roundKeys key
  let nr := rk.length - 1
  (List.range nr).foldl (fun s r =>
    let t := shiftRows (s.map sbox)
    xorBytes (if r + 1 = nr then t else mixColumns t) (rk.getD (r + 1) [])) (xorBytes blk (rk.getD 0 []))

/-- AES decryption of one block. -/
def aesUnblock (key blk : List Nat) : List Nat :=
  let rk := roundKeys key
  let nr := rk.length - 1
  (List.range nr).foldl (fun s r =>
    let t := xorBytes ((invShiftRows s).map invSbox) (rk.getD (nr - 1 - r) [])
    if r + 1 = nr then t else invMixColumns t) (xorBytes blk (rk.getD nr []))

/-! ### CBC-MAC, CTR, CCM (SP 800-38C, RFC 3610) -/

/-- CBC-MAC over whole blocks from `iv`. -/
def cbcMac (key iv : List Nat) (bs : List (List Nat)) : List Nat :=
  bs.foldl (fun x b => aesBlock key (xorBytes x b)) iv

/-- Key stream: `data` combined with the encryptions of counter blocks `ctr i`, i from `start`. -/
def ctrMode (key : List Nat) (ctr : Nat → List Nat) (start : Nat) (data : List Nat) : List Nat :=
  ((blocks data).zipIdx.flatMap (fun e => xorBytes e.1 (aesBlock key (ctr (start + e.2))))).take data.length

/-- CCM with a nonce of 7 to 13 bytes (L = 15 less its length): the counter block `i`, and B0 for a tag of `m` bytes (0
for none). -/
def ccmCtr (nonce : List Nat) (i : Nat) : List Nat := (14 - nonce.length) :: nonce ++ beBytes i (15 - nonce.length)
def ccmB0 (nonce : List Nat) (aLen mLen m : Nat) : List Nat :=
  (if m = 0 then 14 - nonce.length else b2n (0 < aLen) * 64 + (m - 2) / 2 * 8 + (14 - nonce.length)) ::
    nonce ++ beBytes mLen (15 - nonce.length)

/-- The untruncated, unencrypted CCM tag of associated data `a` and message `p`. -/
def ccmTag (key nonce a p : List Nat) (m : Nat) : List Nat :=
  let ab := if a.isEmpty then [] else blocks (beBytes a.length 2 ++ a)
  cbcMac key (List.replicate 16 0) (ccmB0 nonce a.length p.length m :: ab ++ blocks p)

/-- CCM encryption: the ciphertext and the encrypted tag of `m` bytes. -/
def ccmSeal (key nonce a p : List Nat) (m : Nat) : List Nat × List Nat :=
  (ctrMode key (ccmCtr nonce) 1 p,
   (xorBytes (ccmTag key nonce a p m) (aesBlock key (ccmCtr nonce 0))).take m)

/-- CCM decryption: the plaintext, and whether the tag is right. -/
def ccmOpen (key nonce a c tag : List Nat) : List Nat × Bool :=
  let p := ctrMode key (ccmCtr nonce) 1 c
  (p, decide ((xorBytes (ccmTag key nonce a p tag.length) (aesBlock key (ccmCtr nonce 0))).take tag.length = tag))

/-! ### GCM (SP 800-38D) -/

/-- Multiplication in GHASH's field of 128-bit blocks read as big-endian numbers. -/
def ghashMul (x y : Nat) : Nat :=
  ((List.range 128).foldl (fun (p : Nat × Nat) i =>
    (if bit x (127 - i) then Nat.xor p.1 p.2 else p.1,
     if p.2 % 2 = 1 then Nat.xor (p.2 / 2) (0xE1 * 2 ^ 120) else p.2 / 2)) (0, y)).1

/-- GHASH under the hash key `h`. -/
def ghash (h : Nat) (bs : List (List Nat)) : Nat := bs.foldl (fun y b => ghashMul (Nat.xor y (ofBe b)) h) 0

/-- GCM's counter block `i` for a 12-byte IV. -/
def gcmCtr (iv : List Nat) (i : Nat) : List Nat := iv ++ beBytes i 4

/-- GCM's 16-byte tag of associated data `a` and ciphertext `c`. -/
def gcmTag (key iv a c : List Nat) : List Nat :=
  let h := ofBe (aesBlock key (List.replicate 16 0))
  let g := ghash h (blocks a ++ blocks c ++ [beBytes (8 * a.length) 8 ++ beBytes (8 * c.length) 8])
  xorBytes (beBytes g 16) (aesBlock key (gcmCtr iv 1))

def gcmSeal (key iv a p : List Nat) : List Nat × List Nat :=
  let c := ctrMode key (gcmCtr iv) 2 p
  (c, gcmTag key iv a c)
def gcmOpen (key iv a c tag : List Nat) : List Nat × Bool :=
  (ctrMode key (gcmCtr iv) 2 c, decide (gcmTag key iv a c = tag))

/-! ### CMAC (SP 800-38B), counter-mode derivation (SP 800-108), key wrap (RFC 3394) -/

/-- Doubling in CMAC's field. -/
def cmacDouble (l : List Nat) : List Nat :=
  let n := ofBe l
  beBytes (if 2 ^ 127 ≤ n then Nat.xor (n * 2 % 2 ^ 128) 0x87 else n * 2) 16

/-- AES-CMAC. -/
def cmac (key msg : List Nat) : List Nat :=
  let k1 := cmacDouble (aesBlock key (List.replicate 16 0))
  let full := msg.length ≠ 0 && msg.length % 16 = 0
  let n := if msg.isEmpty then 1 else (msg.length + 15) / 16
  let head := blocks (msg.take (16 * (n - 1)))
  let last := msg.drop (16 * (n - 1))
  let lb := if full then xorBytes last k1 else xorBytes (padTo 16 (last ++ [0x80])) (cmacDouble k1)
  cbcMac key (List.replicate 16 0) (head ++ [lb])

/-- Key derivation in counter mode with CMAC: `n` output bytes; `fixed i` is the input of the `i`th call, from 1. -/
def kdfCmac (key : List Nat) (fixed : Nat → List Nat) (n : Nat) : List Nat :=
  ((List.range ((n + 15) / 16)).flatMap (fun i => cmac key (fixed (i + 1)))).take n

/-- AES key wrap of whole 8-byte parts. -/
def keyWrap (kek p : List Nat) : List Nat :=
  let n := p.length / 8
  let r := (List.range (6 * n)).foldl (fun (s : List Nat × List Nat) t =>
    let i := t % n
    let b := aesBlock kek (s.1 ++ (s.2.drop (8 * i)).take 8)
    (xorBytes (b.take 8) (beBytes (t + 1) 8), s.2.take (8 * i) ++ b.drop 8 ++ s.2.drop (8 * i + 8)))
    (List.replicate 8 0xA6, p)
  r.1 ++ r.2

/-- AES key unwrap: the parts, and whether the integrity value is right. -/
def keyUnwrap (kek c : List Nat) : List Nat × Bool :=
  let n := c.length / 8 - 1
  let r := (List.range (6 * n)).foldl (fun (s : List Nat × List Nat) u =>
    let t := 6 * n - 1 - u
    let i := t % n
    let b := aesUnblock kek (xorBytes s.1 (beBytes (t + 1) 8) ++ (s.2.drop (8 * i)).take 8)
    (b.take 8, s.2.take (8 * i) ++ b.drop 8 ++ s.2.drop (8 * i + 8)))
    (c.take 8, c.drop 8)
  (r.2, decide (r.1 = List.replicate 8 0xA6))

/-! ### SHA-256 (FIPS 180-4) -/

/-- Primality by trial division, and the first `k` primes. -/
def isPrime (n : Nat) : Bool := 2 ≤ n && (List.range n).all (fun d => d < 2 || n % d ≠ 0)
def firstPrimes (k : Nat) : List Nat := ((List.range 320).filter isPrime).take k

/-- The integer root of degree `e` of `n`, by bits from `b` down. -/
def rootBits (e n : Nat) : Nat → Nat → Nat
  | 0, r => r
  | b + 1, r => rootBits e n b (if (r + 2 ^ b) ^ e ≤ n then r + 2 ^ b else r)

/-- SHA-256's constants: fractions of the cube roots of the first 64 primes, and of the square roots of the first 8. -/
def shaK : List Nat := (firstPrimes 64).map (fun p => rootBits 3 (p * 2 ^ 96) 36 0 % 2 ^ 32)
def shaH : List Nat := (firstPrimes 8).map (fun p => rootBits 2 (p * 2 ^ 64) 38 0 % 2 ^ 32)

/-- A 32-bit rotation to the right. -/
def rotr32 (a n : Nat) : Nat := (a / 2 ^ n + a * 2 ^ (32 - n)) % 2 ^ 32

/-- The message schedule, last word first. -/
def shaSchedule : Nat → List Nat → List Nat
  | 0, w => w
  | k + 1, w =>
    let a := w.getD 14 0
    let b := w.getD 1 0
    let s0 := Nat.xor (rotr32 a 7) (Nat.xor (rotr32 a 18) (a / 8))
    let s1 := Nat.xor (rotr32 b 17) (Nat.xor (rotr32 b 19) (b / 1024))
    shaSchedule k ((w.getD 15 0 + s0 + w.getD 6 0 + s1) % 2 ^ 32 :: w)

/-- One round on the eight working words. -/
def shaRound (h : List Nat) (kw : Nat) : List Nat :=
  let g := fun i => h.getD i 0
  let e := g 4
  let a := g 0
  let s1 := Nat.xor (rotr32 e 6) (Nat.xor (rotr32 e 11) (rotr32 e 25))
  let ch := Nat.xor (Nat.land e (g 5)) (Nat.land (2 ^ 32 - 1 - e) (g 6))
  let t1 := g 7 + s1 + ch + kw
  let s0 := Nat.xor (rotr32 a 2) (Nat.xor (rotr32 a 13) (rotr32 a 22))
  let mj := Nat.xor (Nat.land a (g 1)) (Nat.xor (Nat.land a (g 2)) (Nat.land (g 1) (g 2)))
  [(t1 + s0 + mj) % 2 ^ 32, a, g 1, g 2, (g 3 + t1) % 2 ^ 32, e, g 5, g 6]

/-- The compression of one 64-byte block. -/
def shaBlock (k h blk : List Nat) : List Nat :=
  let w := (shaSchedule 48 ((words4 16 blk).map ofBe).reverse).reverse
  let r := (List.zip k w).foldl (fun x e => shaRound x (e.1 + e.2)) h
  List.zipWith (fun x y => (x + y) % 2 ^ 32) h r

/-- The 64-byte parts of a string; `fuel` bounds their number. -/
def chunks64 : Nat → List Nat → List (List Nat)
  | 0, _ => []
  | n + 1, l => if l.isEmpty then [] else l.take 64 :: chunks64 n (l.drop 64)

/-- SHA-256. -/
def sha256 (msg : List Nat) : List Nat :=
  let z := (64 - (msg.length + 9) % 64) % 64
  let m := msg ++ [0x80] ++ List.replicate z 0 ++ beBytes (8 * msg.length) 8
  ((chunks64 (m.length / 64 + 1) m).foldl (shaBlock shaK) shaH).flatMap (fun w => beBytes w 4)

/-! ### ECDSA over P-256 (FIPS 186) -/

def p256P : Nat := 2 ^ 256 - 2 ^ 224 + 2 ^ 192 + 2 ^ 96 - 1
def p256N : Nat := 0xFFFFFFFF00000000FFFFFFFFFFFFFFFFBCE6FAADA7179E84F3B9CAC2FC632551
def p256B : Nat := 0x5AC635D8AA3A93E7B3EBBD55769886BC651D06B0CC53B0F63BCE3C3E27D2604B
def p256G : Option (Nat × Nat) :=
  some (0x6B17D1F2E12C4247F8BCE6E563A440F277037D812DEB33A0F4A13945D898C296,
        0x4FE342E2FE1A7F9B8EE7EB4A7C0F9E162BCE33576B315ECECBB6406837BF51F5)

/-- A power modulo `m`, by the low `k` bits of the exponent. -/
def powMod (m : Nat) : Nat → Nat → Nat → Nat
  | 0, _, _ => 1 % m
  | k + 1, b, e => (if e % 2 = 1 then b else 1) * powMod m k (b * b % m) (e / 2) % m

/-- The inverse modulo a prime below 2^256. -/
def invMod (m a : Nat) : Nat := powMod m 256 (a % m) (m - 2)

/-- The sum of two points of the curve; `none` is the point at infinity. -/
def ecAdd : Option (Nat × Nat) → Option (Nat × Nat) → Option (Nat × Nat)
  | none, q => q
  | p, none => p
  | some (x1, y1), some (x2, y2) =>
    let m := p256P
    if x1 = x2 ∧ (y1 + y2) % m = 0 then none
    else
      let l := if x1 = x2 then (3 * x1 * x1 + (m - 3)) * invMod m (2 * y1) % m
        else (y2 + m - y1) * invMod m (x2 + m - x1) % m
      let x3 := (l * l + 2 * m - x1 - x2) % m
      some (x3, (l * (x1 + m - x3) + (m - y1)) % m)

/-- A multiple of a point, by the low `k` bits of the factor. -/
def ecMul : Nat → Nat → Option (Nat × Nat) → Option (Nat × Nat)
  | 0, _, _ => none
  | k + 1, n, p => ecAdd (if n % 2 = 1 then p else none) (ecMul k (n / 2) (ecAdd p p))

/-- Whether a point lies on the curve. -/
def onCurve (x y : Nat) : Bool :=
  x < p256P && y < p256P && decide ((y * y) % p256P = (x * x * x + (p256P - 3) * x + p256B) % p256P)

/-- Whether `sig` (r then s, 32 bytes each, big-endian) signs the 32-byte digest under the public key (x, y). -/
def ecdsaVerify (x y : Nat) (digest sig : List Nat) : Bool :=
  let r := ofBe (sig.take 32)
  let s := ofBe ((sig.drop 32).take 32)
  let w := invMod p256N s
  let e := ofBe digest
  decide (1 ≤ r ∧ r < p256N ∧ 1 ≤ s ∧ s < p256N) && onCurve x y &&
    match ecAdd (ecMul 256 (e * w % p256N) p256G) (ecMul 256 (r * w % p256N) (some (x, y))) with
    | some (x1, _) => decide (x1 % p256N = r)
    | none => false

/-- The public key of a private key. -/
def ecdsaPublic (d : Nat) : Nat × Nat := (ecMul 256 d p256G).getD (0, 0)

/-- The signature of a digest under private key `d` with the per-signature secret `k`. -/
def ecdsaSign (d k : Nat) (digest : List Nat) : List Nat :=
  let r := ((ecMul 256 k p256G).getD (0, 0)).1 % p256N
  let s := invMod p256N k * (ofBe digest + r * d) % p256N
  beBytes r 32 ++ beBytes s 32

/-! ### CRCs -/

/-- The IEEE 802.15.4 FCS: CRC-16 with the ITU-T polynomial, bits least significant first, from 0 (R180). -/
def crc16 (l : List Nat) : Nat :=
  l.foldl (fun c b => (List.range 8).foldl (fun x _ => if x % 2 = 1 then Nat.xor (x / 2) 0x8408 else x / 2)
    (Nat.xor c b)) 0

/-- The CRC-8 of the Eltiotte LR PHR over LEN (R184). -/
def lrCrc8 (len : Nat) : Nat :=
  (List.range 8).foldl (fun c i =>
    let fb := (c / 128 + len / 2 ^ i) % 2
    let d := c * 2 % 256
    if fb = 1 then Nat.xor d 0x07 else d) 0

end Sys2Proof.Machine
end

