-- ==== Sys2Proof/Config.lean ====
section
/-!
DEFINITION. What the spec leaves open: the stream of free values. Nothing in Lean can evaluate them or prove a value of
them, so a statement about a free value holds for every value.
-/
namespace Sys2Proof

/-- The value numbered `n` that the spec does not fix (assumption 2): random bits, the choice of a free buffer, bytes a
rule calls undefined. No body: uninterpreted. -/
opaque Config.freeValue : Nat → BitVec 64

/-- IST's ROM: the signature expected of a full slice of a class (R541). No value of it is given. -/
opaque Config.istExpected : Nat → BitVec 32

end Sys2Proof
end

