-- ==== Sys2Proof/Machine/RegMap.lean ====
section
/-!
DEFINITION. The register map: every register of the spec's register tables (Tables 02.18 to 19.9) with its address, its
power domain (R37, R38) and its fields' places, types (Table 00.3) and reset values; and the named addresses and fields
the meanings use. Where a reset value is one the spec takes from MRAM, fuses or the factory page, the row holds 0
(assumption 3).
-/
namespace Sys2Proof.Machine

/-- A register field by the address of its register and its bits (hi:lo). -/
structure Fld where
  addr : Nat
  hi : Nat
  lo : Nat
  deriving DecidableEq, Repr

/-- The register field types of Table 00.3 (R3). -/
inductive FTy where
  | ro | rw | w1c | w1s | rc | wo | rwl | ex
  deriving DecidableEq, Repr

/-- One field of a register row. -/
structure FieldRow where
  hi : Nat
  lo : Nat
  ty : FTy
  reset : Nat
  deriving DecidableEq, Repr

/-- One row of the register map: `n1` outer copies `s1` bytes apart, each of `n2` copies `s2` bytes apart. The power
domain is `dom`, or `dom + (outer index) / domDiv` where `domDiv` is not 0 (R38). -/
structure RegRow where
  base : Nat
  n1 : Nat := 1
  s1 : Nat := 0
  n2 : Nat := 1
  s2 : Nat := 0
  dom : Nat
  domDiv : Nat := 0
  fields : List FieldRow
  deriving DecidableEq, Repr

/-- The rows of the FE window. -/
def regRowsFE : List RegRow := [
  { base := 0x40000000, dom := 2,
    fields := [⟨23, 16, .ro, 0⟩, ⟨15, 8, .ro, 0⟩, ⟨7, 7, .ro, 1⟩, ⟨2, 0, .ro, 0⟩] },
  { base := 0x40000004, dom := 2,
    fields := [⟨15, 12, .ro, 0⟩, ⟨11, 11, .rc, 0⟩, ⟨10, 10, .ro, 0⟩, ⟨9, 9, .wo, 0⟩, ⟨8, 8, .wo, 0⟩, ⟨2, 0, .rw, 0⟩] },
  { base := 0x40000008, dom := 2,
    fields := [⟨31, 0, .rw, 0⟩] },
  { base := 0x4000000C, dom := 2,
    fields := [⟨31, 0, .rw, 0⟩] },
  { base := 0x40000010, dom := 2,
    fields := [⟨15, 12, .ro, 0⟩, ⟨11, 11, .rc, 0⟩, ⟨10, 10, .ro, 0⟩, ⟨8, 8, .wo, 0⟩, ⟨2, 0, .rw, 0⟩] },
  { base := 0x40000014, dom := 2,
    fields := [⟨31, 0, .rw, 0⟩] },
  { base := 0x40000018, dom := 2,
    fields := [⟨3, 0, .rw, 0⟩] },
  { base := 0x4000001C, dom := 2,
    fields := [⟨7, 0, .w1s, 0⟩] },
  { base := 0x40000020, dom := 2,
    fields := [⟨15, 0, .rw, 0x7d0⟩] },
  { base := 0x40000024, dom := 2,
    fields := [⟨15, 0, .rw, 0xbb8⟩] },
  { base := 0x40001000, n1 := 3, s1 := 0x400, dom := 13, domDiv := 1,
    fields := [⟨3, 3, .wo, 0⟩, ⟨0, 0, .rw, 0⟩] },
  { base := 0x40001004, n1 := 3, s1 := 0x400, dom := 13, domDiv := 1,
    fields := [⟨31, 22, .ro, 0⟩, ⟨17, 16, .ro, 0⟩, ⟨7, 7, .ro, 1⟩, ⟨6, 6, .ro, 0⟩, ⟨5, 5, .ro, 0⟩, ⟨4, 4, .ro, 0⟩, ⟨3, 3, .ro, 0⟩] },
  { base := 0x40001008, n1 := 3, s1 := 0x400, dom := 13, domDiv := 1,
    fields := [⟨21, 0, .ro, 0⟩] },
  { base := 0x4000100C, n1 := 3, s1 := 0x400, dom := 13, domDiv := 1,
    fields := [⟨31, 22, .ro, 0⟩, ⟨15, 8, .ro, 0⟩, ⟨7, 0, .ro, 0⟩] }
] ++ [
  { base := 0x40001010, n1 := 3, s1 := 0x400, dom := 13, domDiv := 1,
    fields := [⟨31, 31, .rwl, 1⟩, ⟨30, 30, .rwl, 1⟩, ⟨29, 29, .rwl, 0⟩, ⟨23, 16, .rwl, 0xa⟩, ⟨7, 0, .rwl, 0x14⟩] },
  { base := 0x40001014, n1 := 3, s1 := 0x400, dom := 13, domDiv := 1,
    fields := [⟨1, 0, .rw, 0⟩] },
  { base := 0x40001018, n1 := 3, s1 := 0x400, dom := 13, domDiv := 1,
    fields := [⟨15, 8, .rwl, 0⟩, ⟨7, 0, .rwl, 0⟩] },
  { base := 0x4000101C, n1 := 3, s1 := 0x400, dom := 13, domDiv := 1,
    fields := [⟨24, 24, .wo, 0⟩, ⟨15, 8, .rw, 0⟩, ⟨7, 0, .rw, 0x18⟩] },
  { base := 0x40001020, n1 := 3, s1 := 0x400, dom := 13, domDiv := 1,
    fields := [⟨31, 30, .ro, 0⟩, ⟨23, 16, .ro, 0⟩, ⟨15, 8, .ro, 0⟩, ⟨7, 0, .ro, 0xff⟩] },
  { base := 0x40001024, n1 := 3, s1 := 0x400, dom := 13, domDiv := 1,
    fields := [⟨31, 16, .rc, 0⟩, ⟨15, 0, .rc, 0⟩] },
  { base := 0x40001028, n1 := 3, s1 := 0x400, dom := 13, domDiv := 1,
    fields := [⟨31, 16, .rc, 0⟩, ⟨15, 0, .rc, 0⟩] },
  { base := 0x4000102C, n1 := 3, s1 := 0x400, dom := 13, domDiv := 1,
    fields := [⟨9, 0, .rwl, 0x1e0⟩] },
  { base := 0x40001040, n1 := 3, s1 := 0x400, dom := 13, domDiv := 1,
    fields := [⟨31, 24, .ro, 0⟩, ⟨23, 16, .ro, 0⟩, ⟨8, 0, .rw, 0⟩] },
  { base := 0x40001044, n1 := 3, s1 := 0x400, dom := 13, domDiv := 1,
    fields := [⟨31, 24, .ro, 0⟩, ⟨23, 16, .ro, 0⟩, ⟨8, 0, .rw, 0⟩] },
  { base := 0x40001048, n1 := 3, s1 := 0x400, dom := 13, domDiv := 1,
    fields := [⟨31, 24, .ro, 0⟩, ⟨23, 16, .ro, 0⟩, ⟨8, 0, .rw, 0⟩] },
  { base := 0x4000104C, n1 := 3, s1 := 0x400, dom := 13, domDiv := 1,
    fields := [⟨31, 24, .ro, 0⟩, ⟨23, 16, .ro, 0⟩, ⟨8, 0, .rw, 0⟩] },
  { base := 0x40007FF8, dom := 2,
    fields := [⟨0, 0, .w1s, 0⟩] },
  { base := 0x40007FFC, dom := 2,
    fields := [⟨10, 10, .ro, 0⟩, ⟨9, 9, .rc, 0⟩, ⟨8, 8, .ro, 0⟩, ⟨7, 0, .wo, 0⟩] }
] ++ [
  { base := 0x40009000, n1 := 3, s1 := 0x400, dom := 13, domDiv := 1,
    fields := [⟨31, 16, .ex, 0x1f4⟩, ⟨3, 3, .ex, 0⟩, ⟨2, 2, .ex, 0⟩, ⟨1, 1, .ex, 0⟩, ⟨0, 0, .ex, 0⟩] }]

/-- The rows of the BB window. -/
def regRowsBB : List RegRow := [
  { base := 0x40010000, dom := 12,
    fields := [⟨15, 12, .rw, 0xa⟩, ⟨11, 11, .rw, 0⟩, ⟨7, 0, .rw, 0x18⟩] },
  { base := 0x40010004, dom := 12,
    fields := [⟨5, 0, .rwl, 0⟩] },
  { base := 0x40010008, dom := 12,
    fields := [⟨23, 16, .rw, 0xab⟩, ⟨15, 0, .rw, 0x80⟩] },
  { base := 0x4001000C, dom := 12,
    fields := [⟨10, 8, .ro, 7⟩, ⟨5, 0, .ro, 0x3f⟩] },
  { base := 0x40010010, n1 := 8, s1 := 0x4, dom := 12,
    fields := [⟨7, 7, .rwl, 0⟩, ⟨6, 4, .rwl, 0⟩, ⟨1, 0, .rwl, 0⟩] },
  { base := 0x40011000, n1 := 3, s1 := 0x400, n2 := 32, s2 := 0x4, dom := 12,
    fields := [⟨31, 31, .rw, 0⟩, ⟨22, 20, .ro, 0⟩, ⟨19, 16, .rw, 0⟩, ⟨14, 8, .rw, 0⟩, ⟨0, 0, .ro, 0⟩] },
  { base := 0x40011080, n1 := 3, s1 := 0x400, dom := 12,
    fields := [⟨19, 16, .rwl, 0⟩, ⟨15, 0, .rw, 0x3e8⟩] },
  { base := 0x40011084, n1 := 3, s1 := 0x400, dom := 12,
    fields := [⟨15, 8, .rw, 0xc⟩, ⟨7, 0, .rwl, 0⟩] },
  { base := 0x40011088, n1 := 3, s1 := 0x400, dom := 12,
    fields := [⟨12, 8, .ro, 0⟩, ⟨3, 0, .rc, 0⟩] },
  { base := 0x40011090, n1 := 3, s1 := 0x400, n2 := 8, s2 := 0x4, dom := 12,
    fields := [⟨31, 16, .rc, 0⟩, ⟨15, 0, .rc, 0⟩] },
  { base := 0x400110C0, n1 := 3, s1 := 0x400, dom := 12,
    fields := [⟨31, 24, .ro, 0⟩, ⟨23, 16, .ro, 0⟩, ⟨8, 0, .rw, 0⟩] },
  { base := 0x400110C4, n1 := 3, s1 := 0x400, dom := 12,
    fields := [⟨31, 24, .ro, 0⟩, ⟨23, 16, .ro, 0⟩, ⟨8, 0, .rw, 0⟩] },
  { base := 0x40011100, n1 := 3, s1 := 0x400, n2 := 4, s2 := 0x4, dom := 12,
    fields := [⟨26, 24, .ro, 0⟩, ⟨14, 8, .ro, 0⟩, ⟨2, 0, .ro, 0⟩] },
  { base := 0x40014000, n1 := 96, s1 := 0x4, dom := 12,
    fields := [⟨31, 29, .ro, 0⟩, ⟨28, 28, .ro, 0⟩, ⟨27, 26, .ro, 0⟩, ⟨20, 16, .ro, 0⟩] }
] ++ [
  { base := 0x40017FF8, dom := 12,
    fields := [⟨0, 0, .w1s, 0⟩] },
  { base := 0x40017FFC, dom := 12,
    fields := [⟨10, 10, .ro, 0⟩, ⟨9, 9, .rc, 0⟩, ⟨8, 8, .ro, 0⟩, ⟨7, 0, .wo, 0⟩] },
  { base := 0x40018000, dom := 12,
    fields := [⟨15, 8, .ex, 0⟩, ⟨0, 0, .ex, 0⟩] },
  { base := 0x40018004, dom := 12,
    fields := [⟨31, 0, .ex, 0x76543210⟩] },
  { base := 0x40018008, dom := 12,
    fields := [⟨31, 0, .ex, 0xfedcba98⟩] },
  { base := 0x40019000, n1 := 3, s1 := 0x400, n2 := 4, s2 := 0x4, dom := 12,
    fields := [⟨4, 4, .ex, 0⟩, ⟨3, 0, .ex, 8⟩] },
  { base := 0x4001A000, n1 := 16, s1 := 0x80, n2 := 24, s2 := 0x4, dom := 12,
    fields := [⟨15, 0, .ex, 0⟩] }]

/-- The rows of the MAC window. -/
def regRowsMAC : List RegRow := [
  { base := 0x40020000, dom := 2,
    fields := [⟨15, 8, .rwl, 8⟩, ⟨2, 2, .ro, 1⟩, ⟨1, 1, .rw, 0⟩, ⟨0, 0, .rw, 0⟩] },
  { base := 0x40020004, dom := 2,
    fields := [⟨31, 16, .rwl, 0xffff⟩, ⟨15, 0, .rwl, 0⟩] },
  { base := 0x40020008, dom := 2,
    fields := [⟨31, 0, .ro, 0⟩] },
  { base := 0x4002000C, dom := 2,
    fields := [⟨31, 0, .ro, 0⟩] },
  { base := 0x40020010, dom := 2,
    fields := [⟨31, 0, .rwl, 0⟩] },
  { base := 0x40020014, dom := 2,
    fields := [⟨3, 0, .rwl, 1⟩] },
  { base := 0x40020018, dom := 2,
    fields := [⟨21, 16, .rwl, 0⟩, ⟨13, 8, .rwl, 0⟩, ⟨5, 0, .rwl, 0⟩] },
  { base := 0x4002001C, dom := 2,
    fields := [⟨30, 28, .rwl, 1⟩, ⟨27, 16, .rwl, 0⟩, ⟨15, 0, .rwl, 0xfa⟩] },
  { base := 0x40020020, dom := 2,
    fields := [⟨31, 24, .rw, 3⟩, ⟨23, 20, .rw, 3⟩, ⟨15, 0, .rw, 0x40⟩] },
  { base := 0x40020024, dom := 2,
    fields := [⟨31, 16, .rw, 0x7d0⟩, ⟨15, 0, .rw, 0x4e20⟩] },
  { base := 0x40020028, dom := 2,
    fields := [⟨31, 16, .rw, 0xfa0⟩, ⟨15, 8, .rw, 8⟩, ⟨2, 0, .rw, 4⟩] },
  { base := 0x4002002C, dom := 2,
    fields := [⟨31, 16, .rw, 0x14⟩, ⟨11, 8, .rw, 4⟩, ⟨7, 4, .rw, 3⟩, ⟨3, 0, .rw, 8⟩] },
  { base := 0x40020030, dom := 2,
    fields := [⟨31, 28, .ro, 0⟩, ⟨25, 24, .ro, 0⟩, ⟨19, 16, .rw, 0⟩, ⟨14, 8, .rw, 0⟩, ⟨2, 1, .rw, 2⟩, ⟨0, 0, .rw, 0⟩] },
  { base := 0x40020034, dom := 2,
    fields := [⟨31, 16, .rw, 0xffff⟩, ⟨15, 0, .rw, 0xffff⟩] }
] ++ [
  { base := 0x40020038, dom := 2,
    fields := [⟨15, 0, .rw, 0x3e8⟩] },
  { base := 0x40020040, dom := 2,
    fields := [⟨31, 31, .ro, 0⟩, ⟨30, 28, .ro, 0⟩, ⟨27, 24, .wo, 0⟩, ⟨16, 0, .rw, 0⟩] },
  { base := 0x40020044, dom := 2,
    fields := [⟨31, 0, .rw, 0⟩] },
  { base := 0x40020048, dom := 2,
    fields := [⟨31, 0, .rw, 0⟩] },
  { base := 0x4002004C, dom := 2,
    fields := [⟨23, 16, .rw, 0⟩, ⟨14, 8, .rw, 0⟩, ⟨5, 2, .rw, 0⟩, ⟨1, 0, .rw, 0⟩] },
  { base := 0x40020050, dom := 2,
    fields := [⟨31, 0, .rw, 0x3a980⟩] },
  { base := 0x40020060, n1 := 8, s1 := 0x4, dom := 2,
    fields := [⟨31, 16, .rc, 0⟩, ⟨15, 0, .rc, 0⟩] },
  { base := 0x40020100, n1 := 32, s1 := 0x4, dom := 2,
    fields := [⟨31, 0, .ro, 0⟩] },
  { base := 0x40020200, n1 := 18, s1 := 0x4, dom := 2,
    fields := [⟨15, 0, .ro, 0⟩] },
  { base := 0x40021000, n1 := 3, s1 := 0x400, dom := 2,
    fields := [⟨31, 0, .rw, 0⟩] },
  { base := 0x40021004, n1 := 3, s1 := 0x400, dom := 2,
    fields := [⟨23, 16, .rw, 0⟩, ⟨11, 8, .rw, 0⟩, ⟨3, 0, .rw, 0⟩] },
  { base := 0x40021008, n1 := 3, s1 := 0x400, dom := 2,
    fields := [⟨31, 31, .rw, 0⟩, ⟨23, 16, .rw, 0⟩, ⟨11, 8, .rw, 0⟩, ⟨6, 0, .rw, 0⟩] },
  { base := 0x4002100C, n1 := 3, s1 := 0x400, dom := 2,
    fields := [⟨15, 8, .rw, 0xa⟩, ⟨7, 0, .rw, 0x10⟩] },
  { base := 0x40021010, n1 := 3, s1 := 0x400, dom := 2,
    fields := [⟨15, 0, .ro, 0⟩] }
] ++ [
  { base := 0x40027FF8, dom := 2,
    fields := [⟨0, 0, .w1s, 0⟩] },
  { base := 0x40027FFC, dom := 2,
    fields := [⟨10, 10, .ro, 0⟩, ⟨9, 9, .rc, 0⟩, ⟨8, 8, .ro, 0⟩, ⟨7, 0, .wo, 0⟩] },
  { base := 0x40028000, dom := 2,
    fields := [⟨14, 8, .ex, 0x40⟩, ⟨1, 1, .ex, 0⟩, ⟨0, 0, .ex, 0⟩] }]

/-- The rows of the FWD window. -/
def regRowsFWD : List RegRow := [
  { base := 0x40030000, dom := 2,
    fields := [⟨1, 1, .ro, 1⟩, ⟨0, 0, .rw, 0⟩] },
  { base := 0x40030004, dom := 2,
    fields := [⟨19, 19, .rc, 0⟩, ⟨18, 0, .ro, 0⟩] },
  { base := 0x40030008, dom := 2,
    fields := [⟨31, 0, .rwl, 0⟩] },
  { base := 0x4003000C, dom := 2,
    fields := [⟨31, 0, .rwl, 0⟩] },
  { base := 0x40030010, dom := 2,
    fields := [⟨29, 24, .rwl, 0⟩, ⟨21, 16, .rwl, 0⟩, ⟨13, 8, .rwl, 0⟩, ⟨5, 0, .rwl, 0⟩] },
  { base := 0x40030014, dom := 2,
    fields := [⟨29, 24, .rwl, 0⟩, ⟨21, 16, .rwl, 0⟩, ⟨13, 8, .rwl, 0⟩, ⟨5, 0, .rwl, 0⟩] },
  { base := 0x40030018, dom := 2,
    fields := [⟨29, 24, .rwl, 0⟩, ⟨21, 16, .rwl, 0⟩, ⟨13, 8, .rwl, 0⟩, ⟨5, 0, .rwl, 0⟩] },
  { base := 0x4003001C, dom := 2,
    fields := [⟨13, 8, .rwl, 0⟩, ⟨5, 0, .rwl, 0⟩] },
  { base := 0x40030020, dom := 2,
    fields := [⟨12, 12, .rwl, 0⟩, ⟨11, 0, .rwl, 0⟩] },
  { base := 0x40030024, dom := 2,
    fields := [⟨7, 0, .rw, 5⟩] },
  { base := 0x40030028, dom := 2,
    fields := [⟨15, 0, .rw, 0x12c⟩] },
  { base := 0x40030030, dom := 2,
    fields := [⟨31, 31, .ro, 0⟩, ⟨30, 28, .ro, 0⟩, ⟨27, 24, .wo, 0⟩, ⟨0, 0, .rw, 0⟩] },
  { base := 0x40030034, dom := 2,
    fields := [⟨31, 0, .rw, 0⟩] },
  { base := 0x40030038, dom := 2,
    fields := [⟨31, 0, .rw, 0⟩] }
] ++ [
  { base := 0x4003003C, dom := 2,
    fields := [⟨15, 0, .rw, 0⟩] },
  { base := 0x40030040, dom := 2,
    fields := [⟨15, 0, .rc, 0⟩] },
  { base := 0x40030044, dom := 2,
    fields := [⟨31, 31, .rc, 0⟩, ⟨24, 24, .ro, 0⟩, ⟨19, 16, .ro, 0⟩, ⟨15, 4, .ro, 0⟩, ⟨1, 0, .ro, 0⟩] },
  { base := 0x40030050, dom := 2,
    fields := [⟨31, 28, .rw, 0⟩, ⟨25, 24, .rw, 0⟩, ⟨23, 16, .rw, 0xa⟩, ⟨7, 0, .rw, 8⟩] },
  { base := 0x40030054, dom := 2,
    fields := [⟨15, 0, .rw, 0x3c⟩] },
  { base := 0x40030058, dom := 2,
    fields := [⟨26, 24, .rw, 5⟩, ⟨23, 20, .rw, 0⟩, ⟨19, 16, .rw, 4⟩, ⟨15, 8, .rw, 0x14⟩, ⟨0, 0, .rw, 0⟩] },
  { base := 0x40030100, n1 := 8, s1 := 0x8, dom := 2,
    fields := [⟨31, 31, .rw, 0⟩, ⟨30, 30, .rw, 0⟩, ⟨17, 0, .rw, 0⟩] },
  { base := 0x40030104, n1 := 8, s1 := 0x8, dom := 2,
    fields := [⟨31, 16, .rw, 0x1f4⟩, ⟨15, 8, .rw, 0x40⟩] },
  { base := 0x40030140, n1 := 8, s1 := 0x4, dom := 2,
    fields := [⟨17, 0, .ro, 0⟩] },
  { base := 0x40030200, n1 := 12, s1 := 0x4, dom := 2,
    fields := [⟨31, 16, .rc, 0⟩, ⟨15, 0, .rc, 0⟩] },
  { base := 0x40030400, n1 := 16, s1 := 0x8, dom := 2,
    fields := [⟨31, 0, .rw, 0⟩] },
  { base := 0x40030404, n1 := 16, s1 := 0x8, dom := 2,
    fields := [⟨31, 0, .rw, 0⟩] },
  { base := 0x40030480, dom := 2,
    fields := [⟨15, 0, .rw, 0⟩] },
  { base := 0x40032000, n1 := 16, s1 := 0x40, n2 := 16, s2 := 0x4, dom := 2,
    fields := [⟨31, 31, .rw, 0⟩, ⟨29, 28, .rw, 0⟩, ⟨27, 24, .rw, 0⟩, ⟨22, 16, .rw, 0⟩, ⟨15, 8, .rw, 0⟩] }
] ++ [
  { base := 0x40034000, n1 := 1024, s1 := 0x4, dom := 2,
    fields := [⟨31, 31, .rw, 0⟩, ⟨16, 0, .rw, 0⟩] },
  { base := 0x40037FF8, dom := 2,
    fields := [⟨0, 0, .w1s, 0⟩] },
  { base := 0x40037FFC, dom := 2,
    fields := [⟨10, 10, .ro, 0⟩, ⟨9, 9, .rc, 0⟩, ⟨8, 8, .ro, 0⟩, ⟨7, 0, .wo, 0⟩] },
  { base := 0x40038000, dom := 2,
    fields := [⟨31, 24, .ex, 0x18⟩, ⟨16, 16, .ex, 0⟩, ⟨11, 8, .ex, 8⟩, ⟨0, 0, .ex, 0⟩] }]

/-- The rows of the TM window. -/
def regRowsTM : List RegRow := [
  { base := 0x40040000, dom := 2,
    fields := [⟨18, 18, .rc, 0⟩, ⟨17, 17, .ro, 0⟩, ⟨16, 16, .ro, 0⟩, ⟨14, 0, .ro, 0x4000⟩] },
  { base := 0x40040004, dom := 2,
    fields := [⟨14, 0, .rw, 0x400⟩] },
  { base := 0x40040008, dom := 2,
    fields := [⟨31, 16, .rc, 0⟩, ⟨15, 0, .rc, 0⟩] },
  { base := 0x4004000C, dom := 2,
    fields := [⟨31, 16, .rc, 0⟩, ⟨15, 0, .rc, 0⟩] },
  { base := 0x40040010, dom := 2,
    fields := [⟨31, 16, .rc, 0⟩, ⟨15, 0, .rc, 0⟩] },
  { base := 0x40040014, dom := 2,
    fields := [⟨31, 16, .rc, 0⟩, ⟨15, 0, .rc, 0⟩] },
  { base := 0x40040018, dom := 2,
    fields := [⟨31, 0, .rwl, 0x8000000⟩] },
  { base := 0x4004001C, dom := 2,
    fields := [⟨3, 0, .rwl, 1⟩] },
  { base := 0x40040020, dom := 2,
    fields := [⟨13, 0, .rw, 0⟩] },
  { base := 0x40040024, dom := 2,
    fields := [⟨31, 25, .ro, 0⟩, ⟨24, 16, .rw, 0⟩, ⟨15, 15, .ro, 0⟩, ⟨14, 14, .rw, 0⟩, ⟨13, 0, .rw, 0⟩] },
  { base := 0x40040028, dom := 2,
    fields := [⟨0, 0, .rw, 1⟩] },
  { base := 0x40040030, dom := 2,
    fields := [⟨31, 0, .ro, 0xffffffff⟩] },
  { base := 0x40040034, dom := 2,
    fields := [⟨31, 0, .ro, 0xffffffff⟩] },
  { base := 0x40041000, n1 := 64, s1 := 0x40, dom := 2,
    fields := [⟨31, 31, .ro, 1⟩, ⟨17, 17, .rw, 1⟩, ⟨15, 0, .rw, 0x40⟩] }
] ++ [
  { base := 0x40041004, n1 := 64, s1 := 0x40, dom := 2,
    fields := [⟨2, 2, .ro, 1⟩, ⟨1, 1, .wo, 0⟩, ⟨0, 0, .rw, 0⟩] },
  { base := 0x40041008, n1 := 64, s1 := 0x40, dom := 2,
    fields := [⟨16, 0, .ro, 0⟩] },
  { base := 0x4004100C, n1 := 64, s1 := 0x40, dom := 2,
    fields := [⟨8, 8, .rw, 0⟩, ⟨7, 0, .rw, 1⟩] },
  { base := 0x40041010, n1 := 64, s1 := 0x40, dom := 2,
    fields := [⟨18, 0, .rw, 0⟩] },
  { base := 0x40041014, n1 := 64, s1 := 0x40, dom := 2,
    fields := [⟨15, 0, .rw, 0x5dc⟩] },
  { base := 0x40041018, n1 := 64, s1 := 0x40, dom := 2,
    fields := [⟨31, 0, .ro, 0⟩] },
  { base := 0x4004101C, n1 := 64, s1 := 0x40, dom := 2,
    fields := [⟨31, 0, .ro, 0⟩] },
  { base := 0x40041020, n1 := 64, s1 := 0x40, dom := 2,
    fields := [⟨16, 0, .ro, 0⟩] },
  { base := 0x40041024, n1 := 64, s1 := 0x40, dom := 2,
    fields := [⟨23, 0, .ro, 0⟩] },
  { base := 0x40041028, n1 := 64, s1 := 0x40, dom := 2,
    fields := [⟨16, 0, .rc, 0⟩] },
  { base := 0x4004102C, n1 := 64, s1 := 0x40, dom := 2,
    fields := [⟨23, 0, .rc, 0⟩] },
  { base := 0x40041030, n1 := 64, s1 := 0x40, dom := 2,
    fields := [⟨23, 0, .rw, 0⟩] },
  { base := 0x40041034, n1 := 64, s1 := 0x40, dom := 2,
    fields := [⟨31, 16, .rc, 0⟩, ⟨15, 0, .rc, 0⟩] },
  { base := 0x40041038, n1 := 64, s1 := 0x40, dom := 2,
    fields := [⟨31, 16, .rc, 0⟩, ⟨15, 0, .rc, 0⟩] }
] ++ [
  { base := 0x4004103C, n1 := 64, s1 := 0x40, dom := 2,
    fields := [⟨31, 16, .rc, 0⟩, ⟨15, 0, .rc, 0⟩] },
  { base := 0x40043000, n1 := 8, s1 := 0x10, dom := 2,
    fields := [⟨31, 31, .rw, 0⟩, ⟨30, 30, .ro, 1⟩, ⟨21, 16, .rw, 0⟩, ⟨3, 0, .rw, 2⟩] },
  { base := 0x40043004, n1 := 8, s1 := 0x10, dom := 2,
    fields := [⟨31, 0, .rw, 0⟩] },
  { base := 0x40043008, n1 := 8, s1 := 0x10, dom := 2,
    fields := [⟨31, 0, .rw, 0⟩] },
  { base := 0x4004300C, n1 := 8, s1 := 0x10, dom := 2,
    fields := [⟨31, 0, .ro, 0⟩] },
  { base := 0x40047FF8, dom := 2,
    fields := [⟨0, 0, .w1s, 0⟩] },
  { base := 0x40047FFC, dom := 2,
    fields := [⟨10, 10, .ro, 0⟩, ⟨9, 9, .rc, 0⟩, ⟨8, 8, .ro, 0⟩, ⟨7, 0, .wo, 0⟩] },
  { base := 0x40048000, dom := 2,
    fields := [⟨26, 16, .ex, 0x100⟩, ⟨1, 1, .ex, 0⟩, ⟨0, 0, .ex, 0⟩] }]

/-- The rows of the CRY window. -/
def regRowsCRY : List RegRow := [
  { base := 0x40050000, dom := 16,
    fields := [⟨1, 1, .ro, 1⟩, ⟨0, 0, .rw, 0⟩] },
  { base := 0x40050004, dom := 16,
    fields := [⟨15, 8, .rw, 5⟩, ⟨5, 0, .rwl, 0⟩] },
  { base := 0x40050008, dom := 16,
    fields := [⟨31, 0, .rw, 0xf0000000⟩] },
  { base := 0x4005000C, dom := 16,
    fields := [⟨11, 0, .rw, 0⟩] },
  { base := 0x40050010, dom := 16,
    fields := [⟨31, 0, .ro, 0⟩] },
  { base := 0x40050014, dom := 16,
    fields := [⟨31, 0, .ro, 0⟩] },
  { base := 0x40050020, dom := 16,
    fields := [⟨23, 0, .ro, 0⟩] },
  { base := 0x40050024, dom := 16,
    fields := [⟨23, 0, .ro, 0⟩] },
  { base := 0x40050028, dom := 16,
    fields := [⟨23, 0, .w1c, 0⟩] },
  { base := 0x4005002C, dom := 16,
    fields := [⟨6, 0, .ro, 0⟩] },
  { base := 0x40050030, n1 := 7, s1 := 0x4, dom := 16,
    fields := [⟨31, 16, .rc, 0⟩, ⟨15, 0, .rc, 0⟩] },
  { base := 0x400500FC, dom := 16,
    fields := [⟨15, 0, .rw, 0⟩] },
  { base := 0x40050100, n1 := 16, s1 := 0x10, dom := 16,
    fields := [⟨31, 16, .rw, 0⟩, ⟨15, 0, .rw, 0⟩] },
  { base := 0x40050104, n1 := 16, s1 := 0x10, dom := 16,
    fields := [⟨31, 0, .rw, 0⟩] }
] ++ [
  { base := 0x40050108, n1 := 16, s1 := 0x10, dom := 16,
    fields := [⟨31, 0, .rw, 0⟩] },
  { base := 0x40050200, n1 := 24, s1 := 0x4, dom := 16,
    fields := [⟨31, 29, .ro, 0⟩, ⟨28, 24, .ro, 0⟩, ⟨23, 21, .ro, 0⟩, ⟨20, 20, .ro, 0⟩, ⟨19, 8, .ro, 0⟩, ⟨7, 0, .ro, 0⟩] },
  { base := 0x40057FF8, dom := 16,
    fields := [⟨0, 0, .w1s, 0⟩] },
  { base := 0x40057FFC, dom := 16,
    fields := [⟨10, 10, .ro, 0⟩, ⟨9, 9, .rc, 0⟩, ⟨8, 8, .ro, 0⟩, ⟨7, 0, .wo, 0⟩] },
  { base := 0x40058000, dom := 16,
    fields := [⟨31, 31, .ex, 0⟩, ⟨29, 24, .ex, 0⟩, ⟨20, 16, .ex, 0x10⟩, ⟨15, 8, .ex, 0x40⟩] }]

/-- The rows of the KEY window. -/
def regRowsKEY : List RegRow := [
  { base := 0x40060000, dom := 16,
    fields := [⟨0, 0, .rw, 0⟩] },
  { base := 0x40060004, dom := 16,
    fields := [⟨4, 4, .rc, 0⟩, ⟨3, 3, .ro, 1⟩, ⟨2, 2, .ro, 0⟩, ⟨1, 1, .ro, 0⟩, ⟨0, 0, .ro, 1⟩] },
  { base := 0x40060010, dom := 16,
    fields := [⟨31, 31, .ro, 0⟩, ⟨30, 27, .ro, 0⟩, ⟨23, 20, .wo, 0⟩, ⟨11, 0, .rw, 0⟩] },
  { base := 0x40060014, dom := 16,
    fields := [⟨15, 0, .rw, 0xffff⟩] },
  { base := 0x40060018, dom := 16,
    fields := [⟨8, 8, .rw, 0⟩, ⟨5, 5, .rw, 0⟩, ⟨3, 3, .rw, 0⟩, ⟨2, 2, .rw, 0⟩, ⟨1, 1, .rw, 0⟩, ⟨0, 0, .rw, 1⟩] },
  { base := 0x4006001C, dom := 16,
    fields := [⟨31, 0, .rw, 0⟩] },
  { base := 0x40060020, dom := 16,
    fields := [⟨3, 0, .rw, 0⟩] },
  { base := 0x40060030, n1 := 4, s1 := 0x4, dom := 16,
    fields := [⟨31, 0, .rw, 0⟩] },
  { base := 0x40060040, dom := 16,
    fields := [⟨31, 0, .rw, 0⟩] },
  { base := 0x40060044, dom := 16,
    fields := [⟨31, 0, .rw, 0⟩] },
  { base := 0x40060048, dom := 16,
    fields := [⟨31, 0, .ro, 0⟩] },
  { base := 0x4006004C, dom := 16,
    fields := [⟨31, 0, .ro, 0⟩] },
  { base := 0x40060050, n1 := 8, s1 := 0x4, dom := 16,
    fields := [⟨31, 0, .wo, 0⟩] },
  { base := 0x40060080, dom := 16,
    fields := [⟨16, 0, .rw, 0⟩] }
] ++ [
  { base := 0x40060084, dom := 16,
    fields := [⟨15, 15, .rw, 0⟩, ⟨11, 0, .rw, 0⟩] },
  { base := 0x40060090, dom := 16,
    fields := [⟨11, 0, .rw, 0⟩] },
  { base := 0x40060094, dom := 16,
    fields := [⟨31, 16, .ro, 0⟩, ⟨15, 15, .ro, 0⟩, ⟨9, 8, .ro, 0⟩, ⟨7, 0, .ro, 0⟩] },
  { base := 0x40060098, dom := 16,
    fields := [⟨31, 0, .ro, 0⟩] },
  { base := 0x400600A0, n1 := 4, s1 := 0x4, dom := 16,
    fields := [⟨31, 16, .rc, 0⟩, ⟨15, 0, .rc, 0⟩] },
  { base := 0x400600C0, dom := 16,
    fields := [⟨1, 1, .ro, 0⟩, ⟨0, 0, .wo, 0⟩] },
  { base := 0x40060100, n1 := 16, s1 := 0x4, dom := 16,
    fields := [⟨31, 0, .ro, 0⟩] },
  { base := 0x40067FF8, dom := 16,
    fields := [⟨0, 0, .w1s, 0⟩] },
  { base := 0x40067FFC, dom := 16,
    fields := [⟨10, 10, .ro, 0⟩, ⟨9, 9, .rc, 0⟩, ⟨8, 8, .ro, 0⟩, ⟨7, 0, .wo, 0⟩] },
  { base := 0x40068000, dom := 16,
    fields := [⟨2, 2, .ex, 0⟩, ⟨1, 1, .ex, 0⟩, ⟨0, 0, .ex, 0⟩] }]

/-- The rows of the ACC window. -/
def regRowsACC : List RegRow := [
  { base := 0x40070000, dom := 0,
    fields := [⟨15, 8, .rw, 4⟩, ⟨6, 6, .wo, 0⟩, ⟨5, 5, .rw, 0⟩, ⟨4, 4, .rw, 0⟩, ⟨3, 3, .rw, 0⟩, ⟨2, 0, .rw, 0⟩] },
  { base := 0x40070004, dom := 0,
    fields := [⟨4, 4, .ro, 0⟩, ⟨3, 3, .ro, 0⟩, ⟨2, 2, .ro, 0⟩, ⟨1, 0, .ro, 0⟩] },
  { base := 0x40070008, dom := 0,
    fields := [⟨29, 0, .ro, 0⟩] },
  { base := 0x4007000C, dom := 0,
    fields := [⟨31, 0, .ro, 0⟩] },
  { base := 0x40070010, dom := 0,
    fields := [⟨31, 16, .ro, 0⟩, ⟨15, 0, .ro, 0⟩] },
  { base := 0x40070014, dom := 0,
    fields := [⟨31, 0, .ro, 0⟩] },
  { base := 0x40070018, dom := 0,
    fields := [⟨31, 0, .ro, 0⟩] },
  { base := 0x4007001C, dom := 0,
    fields := [⟨31, 0, .ro, 0⟩] },
  { base := 0x40070020, dom := 0,
    fields := [⟨31, 0, .ro, 0⟩] },
  { base := 0x40070024, dom := 0,
    fields := [⟨31, 0, .rw, 0⟩] },
  { base := 0x40070028, dom := 0,
    fields := [⟨7, 0, .rw, 0⟩] },
  { base := 0x4007002C, dom := 0,
    fields := [⟨31, 0, .ro, 0⟩] },
  { base := 0x40070030, dom := 0,
    fields := [⟨7, 0, .ro, 0⟩] },
  { base := 0x40070034, dom := 0,
    fields := [⟨31, 0, .rw, 0⟩] }
] ++ [
  { base := 0x40070038, dom := 0,
    fields := [⟨31, 0, .rw, 0⟩] },
  { base := 0x4007003C, dom := 0,
    fields := [⟨1, 1, .rw, 0⟩, ⟨0, 0, .wo, 0⟩] },
  { base := 0x40070040, dom := 0,
    fields := [⟨31, 0, .rw, 0⟩] },
  { base := 0x40070044, dom := 0,
    fields := [⟨16, 0, .rw, 0x3e8⟩] },
  { base := 0x40070048, dom := 0,
    fields := [⟨31, 0, .ro, 0⟩] },
  { base := 0x4007004C, dom := 0,
    fields := [⟨15, 12, .rw, 4⟩, ⟨11, 8, .rw, 4⟩, ⟨7, 4, .rw, 4⟩, ⟨3, 0, .rw, 1⟩] },
  { base := 0x40070050, dom := 0,
    fields := [⟨31, 16, .rw, 0xa⟩, ⟨15, 0, .rw, 0x3e8⟩] },
  { base := 0x40070054, dom := 0,
    fields := [⟨31, 0, .rw, 0⟩] },
  { base := 0x40070058, dom := 0,
    fields := [⟨31, 0, .ro, 0⟩] },
  { base := 0x4007005C, dom := 0,
    fields := [⟨31, 16, .rw, 0x32⟩, ⟨15, 0, .rw, 0xa⟩] },
  { base := 0x40070060, dom := 0,
    fields := [⟨31, 0, .ro, 0⟩] },
  { base := 0x40070064, dom := 0,
    fields := [⟨23, 0, .rw, 0x64⟩] },
  { base := 0x40070068, dom := 0,
    fields := [⟨23, 23, .ro, 0⟩, ⟨22, 16, .ro, 0x7f⟩, ⟨14, 8, .rw, 1⟩, ⟨7, 0, .rw, 0x25⟩] },
  { base := 0x4007006C, dom := 0,
    fields := [⟨31, 0, .ro, 0⟩] }
] ++ [
  { base := 0x40070070, dom := 0,
    fields := [⟨25, 16, .rw, 0x64⟩, ⟨4, 4, .rw, 0⟩, ⟨3, 3, .rw, 1⟩, ⟨2, 2, .rw, 0⟩, ⟨1, 1, .rw, 1⟩, ⟨0, 0, .rw, 0⟩] },
  { base := 0x40070074, dom := 0,
    fields := [⟨31, 31, .ro, 0⟩, ⟨29, 0, .ro, 0⟩] },
  { base := 0x40070078, dom := 0,
    fields := [⟨31, 0, .rw, 0⟩] },
  { base := 0x4007007C, dom := 0,
    fields := [⟨31, 0, .rw, 0⟩] },
  { base := 0x40070080, dom := 0,
    fields := [⟨1, 0, .rw, 0⟩] },
  { base := 0x40070084, dom := 0,
    fields := [⟨23, 16, .rw, 0⟩, ⟨8, 0, .ro, 0x1a0⟩] },
  { base := 0x40070088, dom := 0,
    fields := [⟨8, 0, .rw, 0⟩] },
  { base := 0x4007008C, dom := 0,
    fields := [⟨31, 31, .ro, 0⟩, ⟨30, 28, .ro, 0⟩, ⟨22, 16, .ro, 0⟩] },
  { base := 0x40070090, dom := 0,
    fields := [⟨31, 0, .ro, 0⟩] },
  { base := 0x40070094, dom := 0,
    fields := [⟨31, 0, .ro, 0⟩] },
  { base := 0x400700A0, n1 := 4, s1 := 0x4, dom := 0,
    fields := [⟨31, 16, .rc, 0⟩, ⟨15, 0, .rc, 0⟩] },
  { base := 0x40070100, n1 := 6, s1 := 0x10, dom := 0,
    fields := [⟨31, 0, .rw, 0⟩] },
  { base := 0x40070104, n1 := 6, s1 := 0x10, dom := 0,
    fields := [⟨31, 0, .rw, 0⟩] },
  { base := 0x40070108, n1 := 6, s1 := 0x10, dom := 0,
    fields := [⟨31, 0, .rw, 0⟩] }
] ++ [
  { base := 0x40077FF8, dom := 0,
    fields := [⟨0, 0, .w1s, 0⟩] },
  { base := 0x40077FFC, dom := 0,
    fields := [⟨10, 10, .ro, 0⟩, ⟨9, 9, .rc, 0⟩, ⟨8, 8, .ro, 0⟩, ⟨7, 0, .wo, 0⟩] },
  { base := 0x40078000, dom := 0,
    fields := [⟨17, 17, .ex, 0⟩, ⟨16, 16, .ex, 0⟩, ⟨9, 0, .ex, 0x1f4⟩] }]

/-- The rows of the RTC window. -/
def regRowsRTC : List RegRow := [
  { base := 0x40080000, dom := 1,
    fields := [⟨0, 0, .wo, 0⟩] },
  { base := 0x40080004, dom := 1,
    fields := [⟨11, 8, .rc, 0⟩, ⟨5, 5, .ro, 0⟩, ⟨4, 4, .ro, 0⟩, ⟨3, 3, .ro, 0⟩, ⟨2, 2, .rc, 0⟩, ⟨1, 1, .ro, 0⟩, ⟨0, 0, .ro, 1⟩] },
  { base := 0x40080008, dom := 1,
    fields := [⟨20, 16, .rw, 0⟩, ⟨13, 8, .rw, 0⟩, ⟨5, 0, .rw, 0⟩] },
  { base := 0x4008000C, dom := 1,
    fields := [⟨23, 16, .rw, 0⟩, ⟨11, 8, .rw, 1⟩, ⟨4, 0, .rw, 1⟩] },
  { base := 0x40080010, dom := 1,
    fields := [⟨14, 0, .ro, 0⟩] },
  { base := 0x40080014, dom := 0,
    fields := [⟨31, 0, .ro, 0⟩] },
  { base := 0x40080018, dom := 0,
    fields := [⟨26, 24, .ro, 0⟩, ⟨23, 0, .ro, 0⟩] },
  { base := 0x4008001C, dom := 0,
    fields := [⟨31, 0, .ro, 0⟩] },
  { base := 0x40080020, dom := 0,
    fields := [⟨15, 0, .ro, 0⟩] },
  { base := 0x40080024, dom := 1,
    fields := [⟨10, 0, .ro, 0⟩] },
  { base := 0x40080028, dom := 1,
    fields := [⟨27, 16, .rw, 0⟩, ⟨10, 0, .ro, 0⟩] },
  { base := 0x4008002C, dom := 0,
    fields := [⟨23, 16, .ro, 0⟩, ⟨2, 2, .w1c, 0⟩, ⟨1, 1, .w1c, 0⟩, ⟨0, 0, .w1c, 0⟩] },
  { base := 0x40080040, n1 := 4, s1 := 0x10, dom := 1,
    fields := [⟨15, 8, .ro, 0⟩, ⟨4, 4, .rc, 0⟩, ⟨3, 3, .rw, 0⟩, ⟨2, 2, .ro, 0⟩, ⟨1, 1, .w1c, 0⟩, ⟨0, 0, .rw, 0⟩] },
  { base := 0x40080044, n1 := 4, s1 := 0x10, dom := 1,
    fields := [⟨31, 0, .rw, 0⟩] }
] ++ [
  { base := 0x40080048, n1 := 4, s1 := 0x10, dom := 1,
    fields := [⟨31, 0, .rw, 0x101⟩] },
  { base := 0x4008004C, n1 := 4, s1 := 0x10, dom := 1,
    fields := [⟨31, 0, .rw, 0⟩] },
  { base := 0x40080080, dom := 0,
    fields := [⟨31, 0, .ro, 0⟩] },
  { base := 0x40080084, dom := 0,
    fields := [⟨31, 0, .ro, 0⟩] },
  { base := 0x40080088, dom := 1,
    fields := [⟨31, 16, .rc, 0⟩, ⟨15, 0, .rc, 0⟩] },
  { base := 0x40080100, n1 := 8, s1 := 0x4, dom := 1,
    fields := [⟨31, 0, .rw, 0⟩] },
  { base := 0x40087FF8, dom := 1,
    fields := [⟨0, 0, .w1s, 0⟩] },
  { base := 0x40087FFC, dom := 1,
    fields := [⟨10, 10, .ro, 0⟩, ⟨9, 9, .rc, 0⟩, ⟨8, 8, .ro, 0⟩, ⟨7, 0, .wo, 0⟩] },
  { base := 0x40088000, n1 := 4, s1 := 0x4, dom := 1,
    fields := [⟨0, 0, .ex, 0⟩] }]

/-- The rows of the SEQ window. -/
def regRowsSEQ : List RegRow := [
  { base := 0x40090000, dom := 2,
    fields := [⟨31, 0, .rw, 0⟩] },
  { base := 0x40090004, dom := 2,
    fields := [⟨31, 0, .rw, 0⟩] },
  { base := 0x40090008, dom := 2,
    fields := [⟨2, 2, .rc, 0⟩, ⟨1, 1, .ro, 0⟩, ⟨0, 0, .wo, 0⟩] },
  { base := 0x40091000, n1 := 64, s1 := 0x100, dom := 4, domDiv := 8,
    fields := [⟨3, 3, .wo, 0⟩, ⟨2, 2, .wo, 0⟩, ⟨1, 1, .wo, 0⟩, ⟨0, 0, .wo, 0⟩] },
  { base := 0x40091004, n1 := 64, s1 := 0x100, dom := 4, domDiv := 8,
    fields := [⟨31, 16, .ro, 0⟩, ⟨8, 8, .rc, 0⟩, ⟨4, 4, .ro, 0⟩, ⟨3, 3, .ro, 0⟩, ⟨1, 0, .ro, 0⟩] },
  { base := 0x40091008, n1 := 64, s1 := 0x100, dom := 4, domDiv := 8,
    fields := [⟨31, 16, .ro, 0⟩, ⟨15, 15, .ro, 0⟩, ⟨11, 8, .ro, 0⟩, ⟨7, 0, .ro, 0⟩] },
  { base := 0x4009100C, n1 := 64, s1 := 0x100, dom := 4, domDiv := 8,
    fields := [⟨31, 0, .ro, 0⟩] },
  { base := 0x40091010, n1 := 64, s1 := 0x100, dom := 4, domDiv := 8,
    fields := [⟨31, 0, .rwl, 0x10000⟩] },
  { base := 0x40091014, n1 := 64, s1 := 0x100, dom := 4, domDiv := 8,
    fields := [⟨15, 0, .w1c, 0⟩] },
  { base := 0x40091018, n1 := 64, s1 := 0x100, dom := 4, domDiv := 8,
    fields := [⟨15, 0, .wo, 0⟩] },
  { base := 0x4009101C, n1 := 64, s1 := 0x100, dom := 4, domDiv := 8,
    fields := [⟨31, 16, .rc, 0⟩, ⟨15, 0, .rc, 0⟩] },
  { base := 0x40091020, n1 := 64, s1 := 0x100, dom := 4, domDiv := 8,
    fields := [⟨16, 16, .rwl, 0⟩, ⟨15, 0, .rwl, 0⟩] },
  { base := 0x40091024, n1 := 64, s1 := 0x100, dom := 4, domDiv := 8,
    fields := [⟨31, 16, .ro, 0⟩, ⟨15, 15, .ro, 0⟩, ⟨11, 8, .ro, 0⟩, ⟨7, 0, .ro, 0⟩] },
  { base := 0x40091028, n1 := 64, s1 := 0x100, dom := 4, domDiv := 8,
    fields := [⟨24, 24, .ro, 0⟩, ⟨19, 16, .ro, 0⟩, ⟨2, 0, .ro, 0⟩] }
] ++ [
  { base := 0x4009102C, n1 := 64, s1 := 0x100, dom := 4, domDiv := 8,
    fields := [⟨7, 0, .rwl, 0⟩] },
  { base := 0x40091040, n1 := 64, s1 := 0x100, n2 := 16, s2 := 0x4, dom := 4, domDiv := 8,
    fields := [⟨31, 31, .rwl, 0⟩, ⟨30, 28, .rwl, 0⟩, ⟨23, 16, .rwl, 0⟩, ⟨15, 0, .rwl, 0⟩] },
  { base := 0x40097FF8, dom := 2,
    fields := [⟨0, 0, .w1s, 0⟩] },
  { base := 0x40097FFC, dom := 2,
    fields := [⟨10, 10, .ro, 0⟩, ⟨9, 9, .rc, 0⟩, ⟨8, 8, .ro, 0⟩, ⟨7, 0, .wo, 0⟩] },
  { base := 0x40099000, n1 := 64, s1 := 0x100, dom := 4, domDiv := 8,
    fields := [⟨2, 2, .ex, 0⟩, ⟨1, 1, .ex, 0⟩, ⟨0, 0, .ex, 0⟩] }]

/-- The rows of the MGT window. -/
def regRowsMGT : List RegRow := [
  { base := 0x400A0010, dom := 3,
    fields := [⟨31, 0, .rwl, 0⟩] },
  { base := 0x400A0014, dom := 3,
    fields := [⟨15, 0, .w1c, 0⟩] },
  { base := 0x400A0018, dom := 3,
    fields := [⟨15, 0, .wo, 0⟩] },
  { base := 0x400A001C, dom := 3,
    fields := [⟨31, 16, .rc, 0⟩, ⟨15, 0, .rc, 0⟩] },
  { base := 0x400A0040, n1 := 16, s1 := 0x4, dom := 3,
    fields := [⟨31, 31, .rwl, 0⟩, ⟨30, 28, .rwl, 0⟩, ⟨23, 16, .rwl, 0⟩, ⟨15, 0, .rwl, 0⟩] },
  { base := 0x400A7FF8, dom := 3,
    fields := [⟨0, 0, .w1s, 0⟩] },
  { base := 0x400A7FFC, dom := 3,
    fields := [⟨10, 10, .ro, 0⟩, ⟨9, 9, .rc, 0⟩, ⟨8, 8, .ro, 0⟩, ⟨7, 0, .wo, 0⟩] }]

/-- The rows of the HIF window. -/
def regRowsHIF : List RegRow := [
  { base := 0x400B0000, dom := 19,
    fields := [⟨4, 0, .rw, 2⟩] },
  { base := 0x400B0004, dom := 19,
    fields := [⟨31, 0, .rwl, 0⟩] },
  { base := 0x400B0008, dom := 19,
    fields := [⟨31, 0, .rwl, 0⟩] },
  { base := 0x400B000C, dom := 19,
    fields := [⟨31, 0, .rwl, 0⟩] },
  { base := 0x400B0010, dom := 19,
    fields := [⟨31, 0, .rwl, 0⟩] },
  { base := 0x400B0014, dom := 19,
    fields := [⟨31, 0, .rw, 0⟩] },
  { base := 0x400B0018, dom := 19,
    fields := [⟨31, 0, .rw, 0⟩] },
  { base := 0x400B0020, dom := 0,
    fields := [⟨3, 3, .ro, 0⟩, ⟨2, 2, .w1c, 0⟩, ⟨1, 1, .w1c, 0⟩, ⟨0, 0, .ro, 0⟩] },
  { base := 0x400B0024, dom := 0,
    fields := [⟨2, 2, .w1s, 0⟩] },
  { base := 0x400B0028, dom := 19,
    fields := [⟨13, 0, .wo, 0⟩] },
  { base := 0x400B002C, dom := 19,
    fields := [⟨31, 24, .rc, 0⟩, ⟨23, 16, .rc, 0⟩, ⟨15, 8, .rc, 0⟩, ⟨7, 0, .rc, 0⟩] },
  { base := 0x400B7FF8, dom := 19,
    fields := [⟨0, 0, .w1s, 0⟩] },
  { base := 0x400B7FFC, dom := 19,
    fields := [⟨10, 10, .ro, 0⟩, ⟨9, 9, .rc, 0⟩, ⟨8, 8, .ro, 0⟩, ⟨7, 0, .wo, 0⟩] }]

/-- The rows of the ETH window. -/
def regRowsETH : List RegRow := [
  { base := 0x400C0000, dom := 18,
    fields := [⟨10, 10, .rc, 0⟩, ⟨9, 8, .ro, 3⟩, ⟨1, 0, .rw, 0⟩] },
  { base := 0x400C0010, dom := 18,
    fields := [⟨31, 31, .ro, 0⟩, ⟨30, 30, .ro, 0⟩, ⟨29, 29, .wo, 0⟩, ⟨28, 28, .rw, 0⟩, ⟨27, 26, .rw, 0⟩, ⟨25, 18, .rw, 8⟩, ⟨14, 10, .rw, 0⟩, ⟨9, 5, .rw, 0⟩] },
  { base := 0x400C0014, dom := 18,
    fields := [⟨15, 0, .rw, 0⟩] },
  { base := 0x400C0100, n1 := 8, s1 := 0x8, dom := 18,
    fields := [⟨31, 30, .rw, 0⟩, ⟨21, 16, .rw, 0⟩, ⟨15, 0, .rw, 0⟩] },
  { base := 0x400C0104, n1 := 8, s1 := 0x8, dom := 18,
    fields := [⟨15, 0, .rw, 0⟩] },
  { base := 0x400C1000, n1 := 2, s1 := 0x100, dom := 18,
    fields := [⟨31, 31, .rw, 0⟩, ⟨30, 30, .rw, 0⟩, ⟨29, 29, .rw, 1⟩, ⟨27, 14, .rw, 0x5f2⟩, ⟨11, 6, .rwl, 0⟩, ⟨5, 0, .rwl, 0⟩] },
  { base := 0x400C1004, n1 := 2, s1 := 0x100, dom := 18,
    fields := [⟨2, 2, .ro, 0⟩, ⟨1, 1, .ro, 0⟩, ⟨0, 0, .ro, 0⟩] },
  { base := 0x400C1008, n1 := 2, s1 := 0x100, dom := 18,
    fields := [⟨31, 0, .rw, 0⟩] },
  { base := 0x400C100C, n1 := 2, s1 := 0x100, dom := 18,
    fields := [⟨15, 0, .rw, 0⟩] },
  { base := 0x400C1010, n1 := 2, s1 := 0x100, dom := 18,
    fields := [⟨31, 16, .rc, 0⟩, ⟨15, 0, .rc, 0⟩] },
  { base := 0x400C1014, n1 := 2, s1 := 0x100, dom := 18,
    fields := [⟨31, 16, .rc, 0⟩, ⟨15, 0, .rc, 0⟩] },
  { base := 0x400C7FF8, dom := 18,
    fields := [⟨0, 0, .w1s, 0⟩] },
  { base := 0x400C7FFC, dom := 18,
    fields := [⟨10, 10, .ro, 0⟩, ⟨9, 9, .rc, 0⟩, ⟨8, 8, .ro, 0⟩, ⟨7, 0, .wo, 0⟩] }]

/-- The rows of the DDR window. -/
def regRowsDDR : List RegRow := [
  { base := 0x400D0000, dom := 17,
    fields := [⟨2, 2, .rw, 1⟩, ⟨1, 1, .rw, 0⟩, ⟨0, 0, .wo, 0⟩] },
  { base := 0x400D0004, dom := 17,
    fields := [⟨31, 16, .rw, 0x64⟩, ⟨8, 8, .rw, 1⟩, ⟨5, 4, .rw, 0⟩, ⟨2, 0, .rw, 4⟩] },
  { base := 0x400D0008, dom := 17,
    fields := [⟨11, 8, .ro, 0⟩, ⟨4, 4, .ro, 0⟩, ⟨3, 3, .ro, 0⟩, ⟨2, 0, .ro, 0⟩] },
  { base := 0x400D000C, dom := 17,
    fields := [⟨31, 0, .ro, 0⟩] },
  { base := 0x400D0010, dom := 17,
    fields := [⟨31, 31, .rc, 0⟩, ⟨3, 0, .ro, 0⟩] },
  { base := 0x400D0014, dom := 17,
    fields := [⟨31, 16, .rc, 0⟩, ⟨15, 8, .rc, 0⟩, ⟨7, 0, .rc, 0⟩] },
  { base := 0x400D7FF8, dom := 17,
    fields := [⟨0, 0, .w1s, 0⟩] },
  { base := 0x400D7FFC, dom := 17,
    fields := [⟨10, 10, .ro, 0⟩, ⟨9, 9, .rc, 0⟩, ⟨8, 8, .ro, 0⟩, ⟨7, 0, .wo, 0⟩] },
  { base := 0x400D8000, dom := 17,
    fields := [⟨1, 1, .ex, 0⟩, ⟨0, 0, .ex, 0⟩] }]

/-- The rows of the TWN window. -/
def regRowsTWN : List RegRow := [
  { base := 0x400E0000, dom := 20,
    fields := [⟨4, 4, .wo, 0⟩, ⟨3, 3, .wo, 0⟩, ⟨2, 2, .wo, 0⟩, ⟨0, 0, .rw, 0⟩] },
  { base := 0x400E0004, dom := 20,
    fields := [⟨7, 7, .ro, 0⟩, ⟨6, 6, .ro, 0⟩, ⟨5, 5, .ro, 0⟩, ⟨4, 3, .ro, 0⟩, ⟨2, 0, .ro, 0⟩] },
  { base := 0x400E0008, dom := 20,
    fields := [⟨23, 16, .rwl, 0x14⟩, ⟨15, 8, .rwl, 0xa⟩, ⟨1, 1, .rwl, 1⟩, ⟨0, 0, .rwl, 0⟩] },
  { base := 0x400E000C, dom := 20,
    fields := [⟨31, 0, .wo, 0⟩] },
  { base := 0x400E0010, dom := 20,
    fields := [⟨31, 0, .rw, 0⟩] },
  { base := 0x400E0014, dom := 20,
    fields := [⟨31, 0, .rw, 0⟩] },
  { base := 0x400E0020, dom := 20,
    fields := [⟨31, 24, .rw, 0x32⟩, ⟨21, 16, .rwl, 0⟩, ⟨15, 0, .rwl, 0x3e8⟩] },
  { base := 0x400E0024, dom := 20,
    fields := [⟨31, 8, .ro, 0⟩, ⟨3, 3, .rc, 0⟩, ⟨2, 2, .rc, 0⟩, ⟨1, 1, .ro, 0⟩, ⟨0, 0, .ro, 0⟩] },
  { base := 0x400E0028, dom := 20,
    fields := [⟨31, 0, .rwl, 0x14000000⟩] },
  { base := 0x400E002C, dom := 20,
    fields := [⟨3, 0, .rwl, 1⟩] },
  { base := 0x400E0030, dom := 20,
    fields := [⟨31, 0, .rw, 0x10000⟩] },
  { base := 0x400E0034, dom := 20,
    fields := [⟨31, 0, .rw, 0⟩] },
  { base := 0x400E0038, dom := 20,
    fields := [⟨31, 0, .rw, 0⟩] },
  { base := 0x400E003C, dom := 20,
    fields := [⟨31, 0, .ro, 0⟩] }
] ++ [
  { base := 0x400E0040, n1 := 4, s1 := 0x4, dom := 20,
    fields := [⟨31, 16, .rc, 0⟩, ⟨15, 0, .rc, 0⟩] },
  { base := 0x400E0100, dom := 20,
    fields := [⟨0, 0, .rw, 1⟩] },
  { base := 0x400E0104, dom := 20,
    fields := [⟨0, 0, .ro, 0⟩] },
  { base := 0x400E0108, dom := 20,
    fields := [⟨13, 8, .rwl, 0⟩, ⟨5, 0, .rwl, 0⟩] },
  { base := 0x400E010C, dom := 20,
    fields := [⟨31, 16, .rc, 0⟩, ⟨15, 0, .rc, 0⟩] },
  { base := 0x400E7FF8, dom := 20,
    fields := [⟨0, 0, .w1s, 0⟩] },
  { base := 0x400E7FFC, dom := 20,
    fields := [⟨10, 10, .ro, 0⟩, ⟨9, 9, .rc, 0⟩, ⟨8, 8, .ro, 0⟩, ⟨7, 0, .wo, 0⟩] },
  { base := 0x400E8000, dom := 20,
    fields := [⟨1, 1, .ex, 0⟩, ⟨0, 0, .ex, 0⟩] }]

/-- The rows of the PLT window. -/
def regRowsPLT : List RegRow := [
  { base := 0x400F0000, dom := 0,
    fields := [⟨31, 0, .ro, 0⟩] },
  { base := 0x400F0004, dom := 0,
    fields := [⟨9, 0, .ro, 0⟩] },
  { base := 0x400F0008, dom := 0,
    fields := [⟨20, 0, .ro, 0⟩] },
  { base := 0x400F0010, dom := 0,
    fields := [⟨20, 0, .rw, 3⟩] },
  { base := 0x400F0014, dom := 0,
    fields := [⟨20, 0, .rw, 0⟩] },
  { base := 0x400F0018, dom := 0,
    fields := [⟨3, 2, .ro, 0⟩, ⟨0, 0, .wo, 0⟩] },
  { base := 0x400F001C, dom := 0,
    fields := [⟨31, 31, .rc, 0⟩, ⟨18, 16, .ro, 0⟩, ⟨12, 8, .ro, 0⟩, ⟨4, 0, .ro, 0⟩] },
  { base := 0x400F0020, dom := 0,
    fields := [⟨6, 0, .rw, 0x41⟩] },
  { base := 0x400F0024, n1 := 3, s1 := 0x4, dom := 0,
    fields := [⟨31, 0, .rw, 0⟩] },
  { base := 0x400F0030, dom := 0,
    fields := [⟨14, 8, .ro, 0⟩, ⟨6, 0, .rc, 0⟩] },
  { base := 0x400F0034, dom := 0,
    fields := [⟨20, 0, .rw, 0⟩] },
  { base := 0x400F0038, dom := 0,
    fields := [⟨0, 0, .ro, 0⟩] },
  { base := 0x400F0040, dom := 0,
    fields := [⟨8, 0, .w1c, 0⟩] },
  { base := 0x400F0044, dom := 0,
    fields := [⟨12, 8, .rw, 0⟩, ⟨2, 2, .wo, 0⟩, ⟨1, 1, .wo, 0⟩, ⟨0, 0, .wo, 0⟩] }
] ++ [
  { base := 0x400F0048, dom := 0,
    fields := [⟨16, 16, .rwl, 0⟩, ⟨15, 0, .rwl, 0x3e8⟩] },
  { base := 0x400F004C, dom := 0,
    fields := [⟨31, 0, .wo, 0⟩] },
  { base := 0x400F0050, dom := 0,
    fields := [⟨7, 0, .ro, 0⟩] },
  { base := 0x400F0054, dom := 0,
    fields := [⟨7, 0, .w1c, 0⟩] },
  { base := 0x400F0058, dom := 0,
    fields := [⟨31, 31, .rc, 0⟩, ⟨20, 14, .ro, 0⟩, ⟨13, 13, .ro, 0⟩, ⟨12, 12, .ro, 0⟩, ⟨4, 0, .ro, 0⟩] },
  { base := 0x400F005C, dom := 0,
    fields := [⟨31, 0, .ro, 0⟩] },
  { base := 0x400F0060, dom := 0,
    fields := [⟨3, 0, .ro, 0⟩] },
  { base := 0x400F0064, dom := 0,
    fields := [⟨3, 3, .wo, 0⟩, ⟨2, 2, .wo, 0⟩, ⟨1, 1, .ro, 0⟩, ⟨0, 0, .ro, 0⟩] },
  { base := 0x400F0100, n1 := 21, s1 := 0x4, dom := 0,
    fields := [⟨5, 5, .rw, 0⟩, ⟨4, 4, .ro, 0⟩, ⟨3, 3, .ro, 0⟩, ⟨2, 2, .rw, 0⟩, ⟨1, 1, .rw, 0⟩, ⟨0, 0, .rw, 0⟩] },
  { base := 0x400F0200, dom := 0,
    fields := [⟨31, 31, .ro, 0⟩, ⟨30, 27, .ro, 0⟩, ⟨26, 24, .wo, 0⟩, ⟨23, 23, .rw, 0⟩, ⟨22, 22, .ro, 0⟩] },
  { base := 0x400F0204, dom := 0,
    fields := [⟨31, 0, .rw, 0⟩] },
  { base := 0x400F0208, dom := 0,
    fields := [⟨3, 0, .rw, 0⟩] },
  { base := 0x400F020C, dom := 0,
    fields := [⟨31, 0, .rw, 0⟩] },
  { base := 0x400F0210, dom := 0,
    fields := [⟨31, 0, .rw, 0⟩] }
] ++ [
  { base := 0x400F0214, dom := 0,
    fields := [⟨11, 11, .rc, 0⟩, ⟨10, 10, .rc, 0⟩, ⟨9, 9, .ro, 0⟩, ⟨8, 6, .ro, 0⟩, ⟨5, 2, .ro, 0⟩, ⟨1, 1, .ro, 0⟩, ⟨0, 0, .ro, 0⟩] },
  { base := 0x400F0218, dom := 0,
    fields := [⟨31, 0, .ro, 0⟩] },
  { base := 0x400F021C, dom := 0,
    fields := [⟨31, 0, .ro, 0⟩] },
  { base := 0x400F0220, dom := 0,
    fields := [⟨31, 0, .ro, 0⟩] },
  { base := 0x400F0224, dom := 0,
    fields := [⟨6, 0, .ro, 0⟩] },
  { base := 0x400F0228, dom := 0,
    fields := [⟨18, 16, .rwl, 3⟩, ⟨15, 0, .rwl, 0x258⟩] },
  { base := 0x400F0240, dom := 0,
    fields := [⟨2, 0, .ro, 0⟩] },
  { base := 0x400F0244, dom := 0,
    fields := [⟨15, 8, .wo, 0⟩, ⟨4, 4, .rc, 0⟩, ⟨2, 0, .wo, 0⟩] },
  { base := 0x400F0248, n1 := 4, s1 := 0x4, dom := 0,
    fields := [⟨31, 0, .ro, 0⟩] },
  { base := 0x400F0258, dom := 0,
    fields := [⟨31, 0, .rw, 0⟩] },
  { base := 0x400F025C, dom := 0,
    fields := [⟨3, 0, .rw, 0⟩] },
  { base := 0x400F0260, dom := 0,
    fields := [⟨31, 16, .ro, 0⟩, ⟨12, 12, .ro, 0⟩, ⟨11, 11, .ro, 0⟩, ⟨10, 10, .ro, 0⟩, ⟨4, 0, .ro, 0⟩] },
  { base := 0x400F0264, dom := 0,
    fields := [⟨8, 8, .rc, 0⟩, ⟨4, 4, .wo, 0⟩, ⟨3, 0, .rw, 0⟩] },
  { base := 0x400F0268, dom := 0,
    fields := [⟨3, 2, .rw, 0⟩, ⟨1, 1, .rc, 0⟩, ⟨0, 0, .wo, 0⟩] }
] ++ [
  { base := 0x400F0270, n1 := 8, s1 := 0x4, dom := 0,
    fields := [⟨31, 0, .wo, 0⟩] },
  { base := 0x400F0290, dom := 0,
    fields := [⟨31, 31, .rc, 0⟩, ⟨21, 0, .ro, 0⟩] },
  { base := 0x400F0294, dom := 0,
    fields := [⟨31, 16, .rc, 0⟩, ⟨15, 0, .rc, 0⟩] },
  { base := 0x400F7FF8, dom := 0,
    fields := [⟨0, 0, .w1s, 0⟩] },
  { base := 0x400F7FFC, dom := 0,
    fields := [⟨10, 10, .ro, 0⟩, ⟨9, 9, .rc, 0⟩, ⟨8, 8, .ro, 0⟩, ⟨7, 0, .wo, 0⟩] },
  { base := 0x400F8000, dom := 0,
    fields := [⟨20, 3, .ex, 0⟩] },
  { base := 0x400F8100, dom := 0,
    fields := [⟨1, 1, .ex, 0⟩, ⟨0, 0, .ex, 0⟩] }]

/-- The rows of the DIS window. -/
def regRowsDIS : List RegRow := [
  { base := 0x40100000, dom := 2,
    fields := [⟨1, 1, .ro, 1⟩, ⟨0, 0, .rw, 0⟩] },
  { base := 0x40100004, dom := 2,
    fields := [⟨25, 20, .rwl, 0⟩, ⟨19, 16, .rw, 3⟩, ⟨15, 0, .rw, 0xe10⟩] },
  { base := 0x40100008, dom := 2,
    fields := [⟨31, 0, .rwl, 0x10000000⟩] },
  { base := 0x4010000C, dom := 2,
    fields := [⟨3, 0, .rwl, 1⟩] },
  { base := 0x40100010, dom := 2,
    fields := [⟨31, 31, .wo, 0⟩, ⟨25, 24, .rw, 0⟩, ⟨22, 20, .rw, 0⟩, ⟨19, 0, .rw, 0⟩] },
  { base := 0x40100014, dom := 2,
    fields := [⟨31, 22, .rw, 0⟩, ⟨13, 0, .rw, 0⟩] },
  { base := 0x40100018, dom := 2,
    fields := [⟨31, 31, .ro, 0⟩, ⟨30, 28, .ro, 0⟩, ⟨16, 16, .ro, 0⟩, ⟨10, 0, .ro, 0⟩] },
  { base := 0x40100020, n1 := 4, s1 := 0x4, dom := 2,
    fields := [⟨31, 16, .rc, 0⟩, ⟨15, 0, .rc, 0⟩] },
  { base := 0x40100040, dom := 2,
    fields := [⟨31, 31, .ro, 0⟩, ⟨30, 28, .ro, 0⟩, ⟨27, 24, .wo, 0⟩, ⟨21, 20, .rw, 0⟩, ⟨16, 0, .rw, 0⟩] },
  { base := 0x40100044, dom := 2,
    fields := [⟨31, 16, .ro, 0⟩, ⟨15, 8, .ro, 0⟩, ⟨3, 3, .ro, 0⟩, ⟨2, 0, .ro, 0⟩] },
  { base := 0x40100100, n1 := 16, s1 := 0x8, dom := 2,
    fields := [⟨31, 31, .ro, 0⟩, ⟨15, 0, .ro, 0⟩] },
  { base := 0x40100104, n1 := 16, s1 := 0x8, dom := 2,
    fields := [⟨31, 0, .rw, 0⟩] },
  { base := 0x40101000, n1 := 4, s1 := 0x100, dom := 2,
    fields := [⟨31, 31, .ro, 0⟩, ⟨30, 27, .ro, 0⟩, ⟨26, 24, .wo, 0⟩, ⟨23, 23, .ro, 0⟩, ⟨22, 20, .ro, 0⟩, ⟨15, 8, .ro, 0⟩] },
  { base := 0x40101004, n1 := 4, s1 := 0x100, dom := 2,
    fields := [⟨31, 0, .rw, 0⟩] }
] ++ [
  { base := 0x40101008, n1 := 4, s1 := 0x100, dom := 2,
    fields := [⟨3, 0, .rw, 0⟩] },
  { base := 0x4010100C, n1 := 4, s1 := 0x100, dom := 2,
    fields := [⟨28, 28, .rw, 0⟩, ⟨27, 16, .rw, 0⟩, ⟨14, 12, .rw, 5⟩, ⟨11, 8, .rw, 0⟩, ⟨7, 0, .rw, 0x58⟩] },
  { base := 0x40101010, n1 := 4, s1 := 0x100, dom := 2,
    fields := [⟨31, 24, .rw, 0x40⟩, ⟨23, 16, .rw, 0x28⟩, ⟨15, 0, .rw, 0x3c⟩] },
  { base := 0x40101014, n1 := 4, s1 := 0x100, dom := 2,
    fields := [⟨23, 16, .rw, 0x10⟩, ⟨15, 0, .rw, 0x258⟩] },
  { base := 0x40101018, n1 := 4, s1 := 0x100, dom := 2,
    fields := [⟨31, 0, .rw, 0⟩] },
  { base := 0x4010101C, n1 := 4, s1 := 0x100, dom := 2,
    fields := [⟨31, 0, .rw, 0⟩] },
  { base := 0x40101020, n1 := 4, s1 := 0x100, dom := 2,
    fields := [⟨31, 0, .rw, 0⟩] },
  { base := 0x40101024, n1 := 4, s1 := 0x100, dom := 2,
    fields := [⟨31, 0, .rw, 0⟩] },
  { base := 0x40101028, n1 := 4, s1 := 0x100, dom := 2,
    fields := [⟨31, 16, .ro, 0⟩] },
  { base := 0x4010102C, n1 := 4, s1 := 0x100, dom := 2,
    fields := [⟨31, 0, .ro, 0⟩] },
  { base := 0x40101030, n1 := 4, s1 := 0x100, dom := 2,
    fields := [⟨31, 16, .ro, 0⟩, ⟨15, 0, .ro, 0⟩] },
  { base := 0x40101034, n1 := 4, s1 := 0x100, dom := 2,
    fields := [⟨17, 0, .ro, 0⟩] },
  { base := 0x40101038, n1 := 4, s1 := 0x100, dom := 2,
    fields := [⟨17, 0, .ro, 0⟩] },
  { base := 0x40107FF8, dom := 2,
    fields := [⟨0, 0, .w1s, 0⟩] }
] ++ [
  { base := 0x40107FFC, dom := 2,
    fields := [⟨10, 10, .ro, 0⟩, ⟨9, 9, .rc, 0⟩, ⟨8, 8, .ro, 0⟩, ⟨7, 0, .wo, 0⟩] }]

/-- The rows of the IST window. -/
def regRowsIST : List RegRow := [
  { base := 0x40110000, dom := 0,
    fields := [⟨2, 2, .ro, 1⟩, ⟨1, 1, .ro, 0⟩, ⟨0, 0, .rw, 1⟩] },
  { base := 0x40110004, dom := 0,
    fields := [⟨31, 24, .rw, 0x10⟩, ⟨23, 16, .rw, 0x64⟩, ⟨8, 0, .rw, 0x17f⟩] },
  { base := 0x40110008, dom := 0,
    fields := [⟨24, 16, .ro, 0⟩, ⟨15, 8, .ro, 0⟩, ⟨0, 0, .ro, 0⟩] },
  { base := 0x40110010, dom := 0,
    fields := [⟨31, 31, .wo, 0⟩, ⟨29, 28, .ro, 0⟩, ⟨23, 20, .rw, 0⟩, ⟨7, 0, .rw, 0⟩] },
  { base := 0x40110020, dom := 0,
    fields := [⟨11, 8, .rw, 0⟩, ⟨7, 0, .rw, 0⟩] },
  { base := 0x40110024, dom := 0,
    fields := [⟨31, 30, .ro, 0⟩, ⟨29, 29, .ro, 0⟩, ⟨28, 28, .ro, 0⟩, ⟨27, 27, .ro, 0⟩, ⟨26, 26, .ro, 0⟩, ⟨23, 16, .ro, 0⟩, ⟨15, 0, .ro, 0⟩] },
  { base := 0x40110028, dom := 0,
    fields := [⟨31, 0, .ro, 0⟩] },
  { base := 0x4011002C, dom := 0,
    fields := [⟨31, 0, .ro, 0⟩] },
  { base := 0x40110030, n1 := 4, s1 := 0x4, dom := 0,
    fields := [⟨31, 16, .rc, 0⟩, ⟨15, 0, .rc, 0⟩] },
  { base := 0x40110040, dom := 0,
    fields := [⟨6, 0, .rw, 0⟩] },
  { base := 0x40110044, dom := 0,
    fields := [⟨22, 16, .ro, 0⟩, ⟨2, 0, .ro, 7⟩] },
  { base := 0x40110050, dom := 0,
    fields := [⟨5, 0, .rw, 0⟩] },
  { base := 0x40110054, dom := 0,
    fields := [⟨31, 31, .ro, 0⟩, ⟨30, 30, .ro, 0⟩, ⟨29, 29, .ro, 0⟩, ⟨28, 21, .ro, 0⟩, ⟨15, 12, .ro, 0⟩, ⟨11, 0, .ro, 0⟩] },
  { base := 0x40110058, dom := 0,
    fields := [⟨31, 31, .ro, 0⟩, ⟨30, 28, .ro, 0⟩, ⟨0, 0, .wo, 0⟩] }
] ++ [
  { base := 0x40110060, dom := 0,
    fields := [⟨31, 31, .ro, 0⟩, ⟨30, 28, .ro, 0⟩, ⟨0, 0, .wo, 0⟩] },
  { base := 0x40110064, dom := 0,
    fields := [⟨20, 0, .rw, 0⟩] },
  { base := 0x40117FF8, dom := 0,
    fields := [⟨0, 0, .w1s, 0⟩] },
  { base := 0x40117FFC, dom := 0,
    fields := [⟨10, 10, .ro, 0⟩, ⟨9, 9, .rc, 0⟩, ⟨8, 8, .ro, 0⟩, ⟨7, 0, .wo, 0⟩] },
  { base := 0x40118000, dom := 0,
    fields := [⟨8, 0, .ex, 0x12c⟩] },
  { base := 0x40118004, dom := 0,
    fields := [⟨31, 31, .ex, 0⟩, ⟨23, 20, .ex, 0⟩, ⟨7, 0, .ex, 0⟩] }]

/-- The rows of the EVT window. -/
def regRowsEVT : List RegRow := [
  { base := 0x40120000, dom := 2,
    fields := [⟨9, 8, .rw, 2⟩, ⟨1, 1, .ro, 0⟩, ⟨0, 0, .wo, 0⟩] },
  { base := 0x40120004, dom := 2,
    fields := [⟨31, 0, .wo, 0⟩] },
  { base := 0x40120008, dom := 2,
    fields := [⟨31, 0, .wo, 0⟩] },
  { base := 0x4012000C, dom := 2,
    fields := [⟨31, 16, .rc, 0⟩, ⟨15, 0, .rc, 0⟩] },
  { base := 0x40120010, dom := 0,
    fields := [⟨31, 31, .ro, 0⟩, ⟨21, 16, .rc, 0⟩, ⟨6, 0, .ro, 0⟩] },
  { base := 0x40120014, dom := 0,
    fields := [⟨31, 0, .ro, 0⟩] },
  { base := 0x40120020, dom := 0,
    fields := [⟨31, 16, .rc, 0⟩, ⟨6, 0, .ro, 0⟩] },
  { base := 0x40120024, dom := 0,
    fields := [⟨0, 0, .wo, 0⟩] },
  { base := 0x40120028, dom := 0,
    fields := [⟨5, 0, .rw, 0⟩] },
  { base := 0x40120030, n1 := 4, s1 := 0x4, dom := 0,
    fields := [⟨31, 0, .ro, 0⟩] },
  { base := 0x40121000, n1 := 96, s1 := 0x10, dom := 2,
    fields := [⟨23, 16, .rw, 0⟩, ⟨9, 8, .rwl, 0⟩, ⟨3, 3, .rw, 0⟩, ⟨2, 2, .rw, 0⟩, ⟨1, 1, .rw, 0⟩, ⟨0, 0, .rw, 1⟩] },
  { base := 0x40121004, n1 := 96, s1 := 0x10, dom := 2,
    fields := [⟨31, 0, .rw, 0⟩] },
  { base := 0x40121008, n1 := 96, s1 := 0x10, dom := 2,
    fields := [⟨31, 0, .rw, 0⟩] },
  { base := 0x4012100C, n1 := 96, s1 := 0x10, dom := 2,
    fields := [⟨31, 16, .rc, 0⟩, ⟨15, 0, .rc, 0⟩] }
] ++ [
  { base := 0x40122000, n1 := 96, s1 := 0x4, dom := 2,
    fields := [⟨31, 0, .ro, 0⟩] },
  { base := 0x40127FF8, dom := 2,
    fields := [⟨0, 0, .w1s, 0⟩] },
  { base := 0x40127FFC, dom := 2,
    fields := [⟨10, 10, .ro, 0⟩, ⟨9, 9, .rc, 0⟩, ⟨8, 8, .ro, 0⟩, ⟨7, 0, .wo, 0⟩] },
  { base := 0x40128000, dom := 2,
    fields := [⟨31, 31, .ex, 0⟩, ⟨23, 8, .ex, 0⟩, ⟨6, 0, .ex, 0⟩] }]

/-- The rows of the GPIO window. -/
def regRowsGPIO : List RegRow := [
  { base := 0x40130000, dom := 0,
    fields := [⟨23, 0, .ro, 0⟩] },
  { base := 0x40130004, dom := 0,
    fields := [⟨23, 0, .w1c, 0⟩] },
  { base := 0x40130008, dom := 0,
    fields := [⟨15, 0, .rc, 0⟩] },
  { base := 0x40130100, n1 := 24, s1 := 0x4, dom := 0,
    fields := [⟨8, 8, .rw, 0⟩, ⟨7, 7, .rw, 0⟩, ⟨6, 5, .rw, 0⟩, ⟨4, 4, .ro, 0⟩, ⟨3, 3, .rw, 0⟩, ⟨2, 2, .rw, 0⟩, ⟨1, 0, .rw, 0⟩] },
  { base := 0x40137FF8, dom := 0,
    fields := [⟨0, 0, .w1s, 0⟩] },
  { base := 0x40137FFC, dom := 0,
    fields := [⟨10, 10, .ro, 0⟩, ⟨9, 9, .rc, 0⟩, ⟨8, 8, .ro, 0⟩, ⟨7, 0, .wo, 0⟩] }]

/-- The rows of the window whose number in Table 01.7 is `w`. -/
def windowRows (w : Nat) : List RegRow :=
  match w with
  | 0 => regRowsFE
  | 1 => regRowsBB
  | 2 => regRowsMAC
  | 3 => regRowsFWD
  | 4 => regRowsTM
  | 5 => regRowsCRY
  | 6 => regRowsKEY
  | 7 => regRowsACC
  | 8 => regRowsRTC
  | 9 => regRowsSEQ
  | 10 => regRowsMGT
  | 11 => regRowsHIF
  | 12 => regRowsETH
  | 13 => regRowsDDR
  | 14 => regRowsTWN
  | 15 => regRowsPLT
  | 16 => regRowsDIS
  | 17 => regRowsIST
  | 18 => regRowsEVT
  | 19 => regRowsGPIO
  | _ => []

/-- Reset values that differ between the copies of a register, or that a table names as a rule (Table 05.3, R192,
Table 19.1, R438, R455, and the instance lists of the register tables). -/
def resetSpecial0 : List (Nat × BitVec 32) := [
  (0x40001008, 0x69F50), (0x40001408, 0xD5DE0), (0x40001808, 0x254310), (0x40010010, 0x82),
  (0x40010014, 0x92), (0x40010018, 0xA2), (0x4001001C, 0xB1), (0x40010020, 0xC1),
  (0x40010024, 0xD1), (0x40010028, 0xE1), (0x4001002C, 0x60), (0x40011080, 0x203E8),
  (0x40011084, 0xC28), (0x40021004, 0x1001), (0x40011480, 0x403E8), (0x40011484, 0xC28),
  (0x40021404, 0x1001), (0x40011880, 0x403E8), (0x40011884, 0xC1C), (0x40021804, 0x100),
  (0x40030100, 0x80010000), (0x40030108, 0x80010000), (0x40030110, 0x80010000), (0x40030118, 0x80004000)]

def resetSpecial1 : List (Nat × BitVec 32) := [
  (0x40030120, 0x4000), (0x40030128, 0x4000), (0x40030130, 0x4000), (0x40030138, 0x4000),
  (0x40014000, 0x8000000), (0x40014004, 0x8000000), (0x40014008, 0x8000000), (0x4001400C, 0x8000000),
  (0x40014010, 0x8000000), (0x40014014, 0x8000000), (0x40014018, 0x8000000), (0x4001401C, 0x8000000),
  (0x40014020, 0x8000000), (0x40014024, 0x8000000), (0x40014028, 0x8000000), (0x4001402C, 0x8000000),
  (0x40014030, 0x8000000), (0x40014034, 0x8000000), (0x40014038, 0x8000000), (0x4001403C, 0x8000000),
  (0x40014040, 0x8000000), (0x40014044, 0x8000000), (0x40014048, 0x8000000), (0x4001404C, 0x8000000)]

def resetSpecial2 : List (Nat × BitVec 32) := [
  (0x40014050, 0x8000000), (0x40014054, 0x8000000), (0x40014058, 0x8000000), (0x4001405C, 0x8000000),
  (0x40014060, 0x8000000), (0x40014064, 0x8000000), (0x40014068, 0x8000000), (0x4001406C, 0x8000000),
  (0x40014070, 0x8000000), (0x40014074, 0x8000000), (0x40014078, 0x8000000), (0x4001407C, 0x8000000),
  (0x40014080, 0x8000000), (0x40014084, 0x8000000), (0x40014088, 0x8000000), (0x4001408C, 0x8000000),
  (0x40014090, 0x8000000), (0x40014094, 0x8000000), (0x40014098, 0x8000000), (0x4001409C, 0x8000000),
  (0x400140A0, 0x8000000), (0x400140A4, 0x8000000), (0x400140A8, 0x8000000), (0x400140AC, 0x8000000)]

def resetSpecial3 : List (Nat × BitVec 32) := [
  (0x400140B0, 0x8000000), (0x400140B4, 0x8000000), (0x400140B8, 0x8000000), (0x400140BC, 0x8000000),
  (0x400140C0, 0x4000000), (0x400140C4, 0x4000000), (0x400140C8, 0x4000000), (0x400140CC, 0x4000000),
  (0x400140D0, 0x4000000), (0x400140D4, 0x4000000), (0x400140D8, 0x4000000), (0x400140DC, 0x4000000),
  (0x400140E0, 0x4000000), (0x400140E4, 0x4000000), (0x400140E8, 0x4000000), (0x400140EC, 0x4000000),
  (0x400140F0, 0x4000000), (0x400140F4, 0x4000000), (0x400140F8, 0x4000000), (0x400140FC, 0x4000000),
  (0x40014100, 0x4000000), (0x40014104, 0x4000000), (0x40014108, 0x4000000), (0x4001410C, 0x4000000)]

def resetSpecial4 : List (Nat × BitVec 32) := [
  (0x40014110, 0x4000000), (0x40014114, 0x4000000), (0x40014118, 0x4000000), (0x4001411C, 0x4000000),
  (0x40014120, 0x4000000), (0x40014124, 0x4000000), (0x40014128, 0x4000000), (0x4001412C, 0x4000000),
  (0x40014130, 0x4000000), (0x40014134, 0x4000000), (0x40014138, 0x4000000), (0x4001413C, 0x4000000),
  (0x400F0000, 0x3A), (0x400F0040, 0x1), (0x400F0108, 0x1), (0x400F010C, 0x1),
  (0x400F0144, 0x1), (0x40130100, 0x3), (0x40130104, 0x3), (0x40130108, 0x3),
  (0x4013010C, 0x3), (0x40130110, 0x3), (0x40130114, 0x3), (0x40130118, 0x3)]

def resetSpecial5 : List (Nat × BitVec 32) := [
  (0x4013011C, 0x3), (0x40130120, 0x3), (0x40130124, 0x3), (0x40130128, 0x3),
  (0x4013012C, 0x3), (0x40130130, 0x3), (0x40130134, 0x3), (0x40121000, 0x201),
  (0x40121010, 0x101), (0x40121030, 0x101), (0x40121040, 0x201), (0x40121050, 0x101),
  (0x40121080, 0x201), (0x401210A0, 0x101), (0x401210B0, 0x301), (0x401210D0, 0x201),
  (0x401210E0, 0x101), (0x40121100, 0x201), (0x40121120, 0x101), (0x40121130, 0x201),
  (0x40121150, 0x301), (0x40121160, 0x101), (0x40121180, 0x201), (0x40121190, 0x201)]

def resetSpecial6 : List (Nat × BitVec 32) := [
  (0x401211A0, 0x301), (0x401211B0, 0x101), (0x401211C0, 0x101), (0x401211D0, 0x101),
  (0x401211E0, 0x101), (0x401211F0, 0x101), (0x40121200, 0x201), (0x40121210, 0x101),
  (0x40121220, 0x101), (0x40121230, 0x101), (0x40121240, 0x201), (0x40121260, 0x201),
  (0x40121270, 0x301), (0x401212A0, 0x101), (0x401212C0, 0x201), (0x401212E0, 0x101),
  (0x401212F0, 0x101), (0x40121300, 0x201), (0x40121310, 0x101), (0x40121320, 0x201),
  (0x40121340, 0x201), (0x40121350, 0x201), (0x40121360, 0x101), (0x40121370, 0x101)]

def resetSpecial7 : List (Nat × BitVec 32) := [
  (0x40121390, 0x201), (0x401213C0, 0x201), (0x401213D0, 0x201), (0x401213E0, 0x101),
  (0x401213F0, 0x101), (0x40121400, 0x201), (0x40121410, 0x101), (0x40121420, 0x201),
  (0x40121440, 0x101), (0x40121450, 0x201), (0x40121460, 0x101), (0x40121470, 0x301),
  (0x40121480, 0x301), (0x401214B0, 0x201), (0x401214C0, 0x201), (0x401214D0, 0x301),
  (0x401214E0, 0x101), (0x401214F0, 0x201), (0x40121520, 0x101), (0x40121530, 0x201),
  (0x40121540, 0x101), (0x40121550, 0x101), (0x40121560, 0x201), (0x40121580, 0x201)]

def resetSpecial8 : List (Nat × BitVec 32) := [
  (0x40121590, 0x201), (0x401215A0, 0x201), (0x401215B0, 0x101), (0x401215C0, 0x201),
  (0x401215D0, 0x101), (0x401215E0, 0x101), (0x401215F0, 0x101)]

def resetSpecial : List (Nat × BitVec 32) :=
  resetSpecial0 ++ resetSpecial1 ++ resetSpecial2 ++ resetSpecial3 ++ resetSpecial4 ++ resetSpecial5 ++ resetSpecial6 ++ resetSpecial7 ++ resetSpecial8

/-- Default taps h[0]..h[23] of R215, Table 05.26. -/
def filtHalfSine : List (BitVec 32) := [
  0x0, 0x0, 0x0, 0x0, 0x0, 0x0, 0x0, 0x0, 0x0, 0x0, 0x0, 0x0, 0x0, 0x0, 0x0, 0x0, 0x0, 0x0, 0x0, 0x0, 0x187E, 0x2D41, 0x3B21, 0x4000]

/-- Default taps h[0]..h[23] of R215, Table 05.26. -/
def filtRaisedCos : List (BitVec 32) := [
  0x3, 0x0, 0xFFFB, 0x0, 0x6, 0x0, 0xFFF7, 0x0, 0xD, 0x0, 0xFFED, 0x0, 0x20, 0x0, 0xFFC4, 0x0, 0x84, 0x0, 0xFE73, 0x0, 0xADD, 0x2000, 0x3653, 0x4000]

/-- Default taps h[0]..h[23] of R215, Table 05.26. -/
def filtRootRaisedCos : List (BitVec 32) := [
  0x18, 0xFFC5, 0xFFAB, 0xFFF7, 0x55, 0x48, 0xFFC9, 0xFF6E, 0xFFC9, 0x9A, 0xED, 0x2C, 0xFF13, 0xFF28, 0xDF, 0x264, 0xDF, 0xFBC7, 0xF72B, 0xFA07, 0x8D5, 0x2095, 0x36DF, 0x4000]

/-- Default taps of filter set `s` (R215): sets c and 8 + c hold class c's pulse. -/
def filtDefault (s k : Nat) : BitVec 32 :=
  if s % 8 ≤ 2 then filtHalfSine.getD k 0
  else if s % 8 ≤ 4 then filtRaisedCos.getD k 0
  else filtRootRaisedCos.getD k 0

/-- PROF_STATE, Table 04.9. -/
def FE.PROF_STATE : Nat := 0x40000000
def FE.PROF_STATE_VALID : Fld := ⟨FE.PROF_STATE, 23, 16⟩
def FE.PROF_STATE_LOCKED : Fld := ⟨FE.PROF_STATE, 15, 8⟩
def FE.PROF_STATE_NONE : Fld := ⟨FE.PROF_STATE, 7, 7⟩
def FE.PROF_STATE_ACTIVE : Fld := ⟨FE.PROF_STATE, 2, 0⟩
/-- SWITCH_CTL, Table 04.10. -/
def FE.SWITCH_CTL : Nat := 0x40000004
def FE.SWITCH_CTL_ERR : Fld := ⟨FE.SWITCH_CTL, 15, 12⟩
def FE.SWITCH_CTL_DONE : Fld := ⟨FE.SWITCH_CTL, 11, 11⟩
def FE.SWITCH_CTL_ARMED : Fld := ⟨FE.SWITCH_CTL, 10, 10⟩
def FE.SWITCH_CTL_CANCEL : Fld := ⟨FE.SWITCH_CTL, 9, 9⟩
def FE.SWITCH_CTL_ARM : Fld := ⟨FE.SWITCH_CTL, 8, 8⟩
def FE.SWITCH_CTL_NEXT : Fld := ⟨FE.SWITCH_CTL, 2, 0⟩
/-- SWITCH_AT_LO, Table 04.11. -/
def FE.SWITCH_AT_LO : Nat := 0x40000008
def FE.SWITCH_AT_LO_NS : Fld := ⟨FE.SWITCH_AT_LO, 31, 0⟩
/-- SWITCH_AT_HI, Table 04.11. -/
def FE.SWITCH_AT_HI : Nat := 0x4000000C
def FE.SWITCH_AT_HI_NS : Fld := ⟨FE.SWITCH_AT_HI, 31, 0⟩
/-- INSTALL_CTL, Table 04.12. -/
def FE.INSTALL_CTL : Nat := 0x40000010
def FE.INSTALL_CTL_RESULT : Fld := ⟨FE.INSTALL_CTL, 15, 12⟩
def FE.INSTALL_CTL_DONE : Fld := ⟨FE.INSTALL_CTL, 11, 11⟩
def FE.INSTALL_CTL_BUSY : Fld := ⟨FE.INSTALL_CTL, 10, 10⟩
def FE.INSTALL_CTL_START : Fld := ⟨FE.INSTALL_CTL, 8, 8⟩
def FE.INSTALL_CTL_SLOT : Fld := ⟨FE.INSTALL_CTL, 2, 0⟩
/-- INSTALL_SRC_LO, Table 04.13. -/
def FE.INSTALL_SRC_LO : Nat := 0x40000014
def FE.INSTALL_SRC_LO_ADDR : Fld := ⟨FE.INSTALL_SRC_LO, 31, 0⟩
/-- INSTALL_SRC_HI, Table 04.13. -/
def FE.INSTALL_SRC_HI : Nat := 0x40000018
def FE.INSTALL_SRC_HI_ADDR : Fld := ⟨FE.INSTALL_SRC_HI, 3, 0⟩
/-- SLOT_LOCK, Table 04.14. -/
def FE.SLOT_LOCK : Nat := 0x4000001C
def FE.SLOT_LOCK_LOCK : Fld := ⟨FE.SLOT_LOCK, 7, 0⟩
/-- TX_LATE_TOL, Table 04.15. -/
def FE.TX_LATE_TOL : Nat := 0x40000020
def FE.TX_LATE_TOL_NS : Fld := ⟨FE.TX_LATE_TOL, 15, 0⟩
/-- CAL_GUARD, Table 04.15. -/
def FE.CAL_GUARD : Nat := 0x40000024
def FE.CAL_GUARD_US : Fld := ⟨FE.CAL_GUARD, 15, 0⟩
/-- PORT_CTL, Table 04.16. -/
def FE.PORT_CTL (i : Nat) : Nat := 0x40001000 + i * 0x400
def FE.PORT_CTL_CAL_REQ (i : Nat) : Fld := ⟨(FE.PORT_CTL i), 3, 3⟩
def FE.PORT_CTL_EN (i : Nat) : Fld := ⟨(FE.PORT_CTL i), 0, 0⟩
/-- PORT_STATUS, Table 04.17. -/
def FE.PORT_STATUS (i : Nat) : Nat := 0x40001004 + i * 0x400
def FE.PORT_STATUS_TEMP (i : Nat) : Fld := ⟨(FE.PORT_STATUS i), 31, 22⟩
def FE.PORT_STATUS_FOLD_CAUSE (i : Nat) : Fld := ⟨(FE.PORT_STATUS i), 17, 16⟩
def FE.PORT_STATUS_DRAINED (i : Nat) : Fld := ⟨(FE.PORT_STATUS i), 7, 7⟩
def FE.PORT_STATUS_READY (i : Nat) : Fld := ⟨(FE.PORT_STATUS i), 6, 6⟩
def FE.PORT_STATUS_CAL_WAIT (i : Nat) : Fld := ⟨(FE.PORT_STATUS i), 5, 5⟩
def FE.PORT_STATUS_CAL_BUSY (i : Nat) : Fld := ⟨(FE.PORT_STATUS i), 4, 4⟩
def FE.PORT_STATUS_LOCKED (i : Nat) : Fld := ⟨(FE.PORT_STATUS i), 3, 3⟩
/-- TUNE, Table 04.18. -/
def FE.TUNE (i : Nat) : Nat := 0x40001008 + i * 0x400
def FE.TUNE_CENTRE_KHZ (i : Nat) : Fld := ⟨(FE.TUNE i), 21, 0⟩
/-- CAL_INFO, Table 04.18. -/
def FE.CAL_INFO (i : Nat) : Nat := 0x4000100C + i * 0x400
def FE.CAL_INFO_CAL_TEMP (i : Nat) : Fld := ⟨(FE.CAL_INFO i), 31, 22⟩
def FE.CAL_INFO_IMG_REJ (i : Nat) : Fld := ⟨(FE.CAL_INFO i), 15, 8⟩
def FE.CAL_INFO_CAL_COUNT (i : Nat) : Fld := ⟨(FE.CAL_INFO i), 7, 0⟩
/-- FEC_CTL, Table 04.19. -/
def FE.FEC_CTL (i : Nat) : Nat := 0x40001010 + i * 0x400
def FE.FEC_CTL_PA_EN_POL (i : Nat) : Fld := ⟨(FE.FEC_CTL i), 31, 31⟩
def FE.FEC_CTL_LNA_BYP_POL (i : Nat) : Fld := ⟨(FE.FEC_CTL i), 30, 30⟩
def FE.FEC_CTL_LNA_EXT (i : Nat) : Fld := ⟨(FE.FEC_CTL i), 29, 29⟩
def FE.FEC_CTL_PA_LAG (i : Nat) : Fld := ⟨(FE.FEC_CTL i), 23, 16⟩
def FE.FEC_CTL_PA_LEAD (i : Nat) : Fld := ⟨(FE.FEC_CTL i), 7, 0⟩
/-- ANT, Table 04.20. -/
def FE.ANT (i : Nat) : Nat := 0x40001014 + i * 0x400
def FE.ANT_SEL (i : Nat) : Fld := ⟨(FE.ANT i), 1, 0⟩
/-- GAINS, Table 04.20. -/
def FE.GAINS (i : Nat) : Nat := 0x40001018 + i * 0x400
def FE.GAINS_ANT_GAIN (i : Nat) : Fld := ⟨(FE.GAINS i), 15, 8⟩
def FE.GAINS_BOARD_GAIN (i : Nat) : Fld := ⟨(FE.GAINS i), 7, 0⟩
/-- LOAD_CTL, Table 04.21. -/
def FE.LOAD_CTL (i : Nat) : Nat := 0x4000101C + i * 0x400
def FE.LOAD_CTL_CLR (i : Nat) : Fld := ⟨(FE.LOAD_CTL i), 24, 24⟩
def FE.LOAD_CTL_FOLD_PWR (i : Nat) : Fld := ⟨(FE.LOAD_CTL i), 15, 8⟩
def FE.LOAD_CTL_RL_MIN (i : Nat) : Fld := ⟨(FE.LOAD_CTL i), 7, 0⟩
/-- LOAD_MEAS, Table 04.21. -/
def FE.LOAD_MEAS (i : Nat) : Nat := 0x40001020 + i * 0x400
def FE.LOAD_MEAS_CLASS (i : Nat) : Fld := ⟨(FE.LOAD_MEAS i), 31, 30⟩
def FE.LOAD_MEAS_PHASE (i : Nat) : Fld := ⟨(FE.LOAD_MEAS i), 23, 16⟩
def FE.LOAD_MEAS_RL (i : Nat) : Fld := ⟨(FE.LOAD_MEAS i), 15, 8⟩
def FE.LOAD_MEAS_AGE (i : Nat) : Fld := ⟨(FE.LOAD_MEAS i), 7, 0⟩
/-- COUNT_A, Table 04.22. -/
def FE.COUNT_A (i : Nat) : Nat := 0x40001024 + i * 0x400
def FE.COUNT_A_TXLATE (i : Nat) : Fld := ⟨(FE.COUNT_A i), 31, 16⟩
def FE.COUNT_A_LATE_SENT (i : Nat) : Fld := ⟨(FE.COUNT_A i), 15, 0⟩
/-- COUNT_B, Table 04.22. -/
def FE.COUNT_B (i : Nat) : Nat := 0x40001028 + i * 0x400
def FE.COUNT_B_PWR_CLAMP (i : Nat) : Fld := ⟨(FE.COUNT_B i), 31, 16⟩
def FE.COUNT_B_CAL_DEFER (i : Nat) : Fld := ⟨(FE.COUNT_B i), 15, 0⟩
/-- TEMP_MAX, Table 04.22. -/
def FE.TEMP_MAX (i : Nat) : Nat := 0x4000102C + i * 0x400
def FE.TEMP_MAX_LIMIT (i : Nat) : Fld := ⟨(FE.TEMP_MAX i), 9, 0⟩
/-- TXPWR_CAL, Table 04.23. -/
def FE.TXPWR_CAL (i : Nat) : Nat := 0x40001040 + i * 0x400
def FE.TXPWR_CAL_X_FACTORY (i : Nat) : Fld := ⟨(FE.TXPWR_CAL i), 31, 24⟩
def FE.TXPWR_CAL_X_EFF (i : Nat) : Fld := ⟨(FE.TXPWR_CAL i), 23, 16⟩
def FE.TXPWR_CAL_X_USER (i : Nat) : Fld := ⟨(FE.TXPWR_CAL i), 8, 0⟩
/-- RXGAIN_CAL, Table 04.23. -/
def FE.RXGAIN_CAL (i : Nat) : Nat := 0x40001044 + i * 0x400
def FE.RXGAIN_CAL_X_FACTORY (i : Nat) : Fld := ⟨(FE.RXGAIN_CAL i), 31, 24⟩
def FE.RXGAIN_CAL_X_EFF (i : Nat) : Fld := ⟨(FE.RXGAIN_CAL i), 23, 16⟩
def FE.RXGAIN_CAL_X_USER (i : Nat) : Fld := ⟨(FE.RXGAIN_CAL i), 8, 0⟩
/-- TEMP_CAL, Table 04.23. -/
def FE.TEMP_CAL (i : Nat) : Nat := 0x40001048 + i * 0x400
def FE.TEMP_CAL_X_FACTORY (i : Nat) : Fld := ⟨(FE.TEMP_CAL i), 31, 24⟩
def FE.TEMP_CAL_X_EFF (i : Nat) : Fld := ⟨(FE.TEMP_CAL i), 23, 16⟩
def FE.TEMP_CAL_X_USER (i : Nat) : Fld := ⟨(FE.TEMP_CAL i), 8, 0⟩
/-- LOADDET_CAL, Table 04.23. -/
def FE.LOADDET_CAL (i : Nat) : Nat := 0x4000104C + i * 0x400
def FE.LOADDET_CAL_X_FACTORY (i : Nat) : Fld := ⟨(FE.LOADDET_CAL i), 31, 24⟩
def FE.LOADDET_CAL_X_EFF (i : Nat) : Fld := ⟨(FE.LOADDET_CAL i), 23, 16⟩
def FE.LOADDET_CAL_X_USER (i : Nat) : Fld := ⟨(FE.LOADDET_CAL i), 8, 0⟩
/-- WINDOW_LOCK, Table 00.4. -/
def FE.WINDOW_LOCK : Nat := 0x40007FF8
def FE.WINDOW_LOCK_LOCK : Fld := ⟨FE.WINDOW_LOCK, 0, 0⟩
/-- EXPERT_UNLOCK, Table 00.5. -/
def FE.EXPERT_UNLOCK : Nat := 0x40007FFC
def FE.EXPERT_UNLOCK_ARMED : Fld := ⟨FE.EXPERT_UNLOCK, 10, 10⟩
def FE.EXPERT_UNLOCK_REJECTED : Fld := ⟨FE.EXPERT_UNLOCK, 9, 9⟩
def FE.EXPERT_UNLOCK_UNLOCKED : Fld := ⟨FE.EXPERT_UNLOCK, 8, 8⟩
def FE.EXPERT_UNLOCK_KEY : Fld := ⟨FE.EXPERT_UNLOCK, 7, 0⟩
/-- FE_EXP, Table 04.24. -/
def FE.FE_EXP (i : Nat) : Nat := 0x40009000 + i * 0x400
def FE.FE_EXP_CAL_MAXDEFER (i : Nat) : Fld := ⟨(FE.FE_EXP i), 31, 16⟩
def FE.FE_EXP_LOAD_AUTOCLR (i : Nat) : Fld := ⟨(FE.FE_EXP i), 3, 3⟩
def FE.FE_EXP_AGC_HOLD (i : Nat) : Fld := ⟨(FE.FE_EXP i), 2, 2⟩
def FE.FE_EXP_CAL_FORCE (i : Nat) : Fld := ⟨(FE.FE_EXP i), 1, 1⟩
def FE.FE_EXP_TEMPCAL_DIS (i : Nat) : Fld := ⟨(FE.FE_EXP i), 0, 0⟩
/-- RX_CTL, Table 05.11. -/
def BB.RX_CTL : Nat := 0x40010000
def BB.RX_CTL_SFD_TIMEOUT : Fld := ⟨BB.RX_CTL, 15, 12⟩
def BB.RX_CTL_CAPTURE_PREEMPT : Fld := ⟨BB.RX_CTL, 11, 11⟩
def BB.RX_CTL_CAPTURE_DELTA : Fld := ⟨BB.RX_CTL, 7, 0⟩
/-- LISTEN_RING, Table 05.12. -/
def BB.LISTEN_RING : Nat := 0x40010004
def BB.LISTEN_RING_RING : Fld := ⟨BB.LISTEN_RING, 5, 0⟩
/-- CCA_CFG, Table 05.12. -/
def BB.CCA_CFG : Nat := 0x40010008
def BB.CCA_CFG_THRESH : Fld := ⟨BB.CCA_CFG, 23, 16⟩
def BB.CCA_CFG_TIME : Fld := ⟨BB.CCA_CFG, 15, 0⟩
/-- DRAIN_STATUS, Table 05.13. -/
def BB.DRAIN_STATUS : Nat := 0x4001000C
def BB.DRAIN_STATUS_VOICE_DRAINED : Fld := ⟨BB.DRAIN_STATUS, 10, 8⟩
def BB.DRAIN_STATUS_LANE_DRAINED : Fld := ⟨BB.DRAIN_STATUS, 5, 0⟩
/-- LR_PROF, Table 05.14. -/
def BB.LR_PROF (i : Nat) : Nat := 0x40010010 + i * 0x4
def BB.LR_PROF_QPSK (i : Nat) : Fld := ⟨(BB.LR_PROF i), 7, 7⟩
def BB.LR_PROF_SF (i : Nat) : Fld := ⟨(BB.LR_PROF i), 6, 4⟩
def BB.LR_PROF_CR (i : Nat) : Fld := ⟨(BB.LR_PROF i), 1, 0⟩
/-- STREAM, Table 05.15. -/
def BB.STREAM (i j : Nat) : Nat := 0x40011000 + i * 0x400 + j * 0x4
def BB.STREAM_EN (i j : Nat) : Fld := ⟨(BB.STREAM i j), 31, 31⟩
def BB.STREAM_LANES (i j : Nat) : Fld := ⟨(BB.STREAM i j), 22, 20⟩
def BB.STREAM_MODE (i j : Nat) : Fld := ⟨(BB.STREAM i j), 19, 16⟩
def BB.STREAM_CHAN (i j : Nat) : Fld := ⟨(BB.STREAM i j), 14, 8⟩
def BB.STREAM_SEARCHING (i j : Nat) : Fld := ⟨(BB.STREAM i j), 0, 0⟩
/-- PORT_RX, Table 05.16. -/
def BB.PORT_RX (i : Nat) : Nat := 0x40011080 + i * 0x400
def BB.PORT_RX_LISTEN_LANES (i : Nat) : Fld := ⟨(BB.PORT_RX i), 19, 16⟩
def BB.PORT_RX_FD_ALARM (i : Nat) : Fld := ⟨(BB.PORT_RX i), 15, 0⟩
/-- PWR_BUDGET, Table 05.16. -/
def BB.PWR_BUDGET (i : Nat) : Nat := 0x40011084 + i * 0x400
def BB.PWR_BUDGET_MAXCUT (i : Nat) : Fld := ⟨(BB.PWR_BUDGET i), 15, 8⟩
def BB.PWR_BUDGET_BUDGET (i : Nat) : Fld := ⟨(BB.PWR_BUDGET i), 7, 0⟩
/-- STREAM_ERR, Table 05.16. -/
def BB.STREAM_ERR (i : Nat) : Nat := 0x40011088 + i * 0x400
def BB.STREAM_ERR_STREAM (i : Nat) : Fld := ⟨(BB.STREAM_ERR i), 12, 8⟩
def BB.STREAM_ERR_CODE (i : Nat) : Fld := ⟨(BB.STREAM_ERR i), 3, 0⟩
/-- COUNT, Table 05.17. -/
def BB.COUNT (i j : Nat) : Nat := 0x40011090 + i * 0x400 + j * 0x4
def BB.COUNT_HI (i j : Nat) : Fld := ⟨(BB.COUNT i j), 31, 16⟩
def BB.COUNT_LO (i j : Nat) : Fld := ⟨(BB.COUNT i j), 15, 0⟩
/-- RXDLY_CAL, Table 05.18. -/
def BB.RXDLY_CAL (i : Nat) : Nat := 0x400110C0 + i * 0x400
def BB.RXDLY_CAL_X_FACTORY (i : Nat) : Fld := ⟨(BB.RXDLY_CAL i), 31, 24⟩
def BB.RXDLY_CAL_X_EFF (i : Nat) : Fld := ⟨(BB.RXDLY_CAL i), 23, 16⟩
def BB.RXDLY_CAL_X_USER (i : Nat) : Fld := ⟨(BB.RXDLY_CAL i), 8, 0⟩
/-- TXDLY_CAL, Table 05.18. -/
def BB.TXDLY_CAL (i : Nat) : Nat := 0x400110C4 + i * 0x400
def BB.TXDLY_CAL_X_FACTORY (i : Nat) : Fld := ⟨(BB.TXDLY_CAL i), 31, 24⟩
def BB.TXDLY_CAL_X_EFF (i : Nat) : Fld := ⟨(BB.TXDLY_CAL i), 23, 16⟩
def BB.TXDLY_CAL_X_USER (i : Nat) : Fld := ⟨(BB.TXDLY_CAL i), 8, 0⟩
/-- VOICE_STATE, Table 05.19. -/
def BB.VOICE_STATE (i j : Nat) : Nat := 0x40011100 + i * 0x400 + j * 0x4
def BB.VOICE_STATE_STAGED (i j : Nat) : Fld := ⟨(BB.VOICE_STATE i j), 26, 24⟩
def BB.VOICE_STATE_CHAN (i j : Nat) : Fld := ⟨(BB.VOICE_STATE i j), 14, 8⟩
def BB.VOICE_STATE_STATE (i j : Nat) : Fld := ⟨(BB.VOICE_STATE i j), 2, 0⟩
/-- LANE_STATE, Table 05.20. -/
def BB.LANE_STATE (i : Nat) : Nat := 0x40014000 + i * 0x4
def BB.LANE_STATE_STATE (i : Nat) : Fld := ⟨(BB.LANE_STATE i), 31, 29⟩
def BB.LANE_STATE_LISTEN (i : Nat) : Fld := ⟨(BB.LANE_STATE i), 28, 28⟩
def BB.LANE_STATE_PORT (i : Nat) : Fld := ⟨(BB.LANE_STATE i), 27, 26⟩
def BB.LANE_STATE_STREAM (i : Nat) : Fld := ⟨(BB.LANE_STATE i), 20, 16⟩
/-- WINDOW_LOCK, Table 00.4. -/
def BB.WINDOW_LOCK : Nat := 0x40017FF8
def BB.WINDOW_LOCK_LOCK : Fld := ⟨BB.WINDOW_LOCK, 0, 0⟩
/-- EXPERT_UNLOCK, Table 00.5. -/
def BB.EXPERT_UNLOCK : Nat := 0x40017FFC
def BB.EXPERT_UNLOCK_ARMED : Fld := ⟨BB.EXPERT_UNLOCK, 10, 10⟩
def BB.EXPERT_UNLOCK_REJECTED : Fld := ⟨BB.EXPERT_UNLOCK, 9, 9⟩
def BB.EXPERT_UNLOCK_UNLOCKED : Fld := ⟨BB.EXPERT_UNLOCK, 8, 8⟩
def BB.EXPERT_UNLOCK_KEY : Fld := ⟨BB.EXPERT_UNLOCK, 7, 0⟩
/-- BB_EXP, Table 05.21. -/
def BB.BB_EXP : Nat := 0x40018000
def BB.BB_EXP_PD_ADJ : Fld := ⟨BB.BB_EXP, 15, 8⟩
def BB.BB_EXP_KEEP_BADFCS : Fld := ⟨BB.BB_EXP, 0, 0⟩
/-- MODE_FILT_RX, Table 05.22. -/
def BB.MODE_FILT_RX : Nat := 0x40018004
def BB.MODE_FILT_RX_SETS : Fld := ⟨BB.MODE_FILT_RX, 31, 0⟩
/-- MODE_FILT_TX, Table 05.22. -/
def BB.MODE_FILT_TX : Nat := 0x40018008
def BB.MODE_FILT_TX_SETS : Fld := ⟨BB.MODE_FILT_TX, 31, 0⟩
/-- VOICE_CFG, Table 05.23. -/
def BB.VOICE_CFG (i j : Nat) : Nat := 0x40019000 + i * 0x400 + j * 0x4
def BB.VOICE_CFG_FILT_OVR (i j : Nat) : Fld := ⟨(BB.VOICE_CFG i j), 4, 4⟩
def BB.VOICE_CFG_FILT (i j : Nat) : Fld := ⟨(BB.VOICE_CFG i j), 3, 0⟩
/-- FILT, Table 05.24. -/
def BB.FILT (i j : Nat) : Nat := 0x4001A000 + i * 0x80 + j * 0x4
def BB.FILT_COEF (i j : Nat) : Fld := ⟨(BB.FILT i j), 15, 0⟩
/-- MAC_CTL, Table 06.15. -/
def MAC.MAC_CTL : Nat := 0x40020000
def MAC.MAC_CTL_LEAD_SLOTS : Fld := ⟨MAC.MAC_CTL, 15, 8⟩
def MAC.MAC_CTL_DRAINED : Fld := ⟨MAC.MAC_CTL, 2, 2⟩
def MAC.MAC_CTL_RV_ALWAYS : Fld := ⟨MAC.MAC_CTL, 1, 1⟩
def MAC.MAC_CTL_EN : Fld := ⟨MAC.MAC_CTL, 0, 0⟩
/-- ADDR, Table 06.16. -/
def MAC.ADDR : Nat := 0x40020004
def MAC.ADDR_PAN_ID : Fld := ⟨MAC.ADDR, 31, 16⟩
def MAC.ADDR_SHORT_ADDR : Fld := ⟨MAC.ADDR, 15, 0⟩
/-- EUI64_LO, Table 06.16. -/
def MAC.EUI64_LO : Nat := 0x40020008
def MAC.EUI64_LO_EUI : Fld := ⟨MAC.EUI64_LO, 31, 0⟩
/-- EUI64_HI, Table 06.16. -/
def MAC.EUI64_HI : Nat := 0x4002000C
def MAC.EUI64_HI_EUI : Fld := ⟨MAC.EUI64_HI, 31, 0⟩
/-- DRAM_BASE_LO, Table 06.17. -/
def MAC.DRAM_BASE_LO : Nat := 0x40020010
def MAC.DRAM_BASE_LO_ADDR : Fld := ⟨MAC.DRAM_BASE_LO, 31, 0⟩
/-- DRAM_BASE_HI, Table 06.17. -/
def MAC.DRAM_BASE_HI : Nat := 0x40020014
def MAC.DRAM_BASE_HI_ADDR : Fld := ⟨MAC.DRAM_BASE_HI, 3, 0⟩
/-- POLL_RING, Table 06.18. -/
def MAC.POLL_RING : Nat := 0x40020018
def MAC.POLL_RING_RFC : Fld := ⟨MAC.POLL_RING, 21, 16⟩
def MAC.POLL_RING_RFB : Fld := ⟨MAC.POLL_RING, 13, 8⟩
def MAC.POLL_RING_RFA : Fld := ⟨MAC.POLL_RING, 5, 0⟩
/-- BCN_CFG, Table 06.18. -/
def MAC.BCN_CFG : Nat := 0x4002001C
def MAC.BCN_CFG_LEVEL : Fld := ⟨MAC.BCN_CFG, 30, 28⟩
def MAC.BCN_CFG_KEY : Fld := ⟨MAC.BCN_CFG, 27, 16⟩
def MAC.BCN_CFG_INTERVAL_MS : Fld := ⟨MAC.BCN_CFG, 15, 0⟩
/-- GUARD_CFG, Table 06.19. -/
def MAC.GUARD_CFG : Nat := 0x40020020
def MAC.GUARD_CFG_K_DEV : Fld := ⟨MAC.GUARD_CFG, 31, 24⟩
def MAC.GUARD_CFG_DRIFT_SHIFT : Fld := ⟨MAC.GUARD_CFG, 23, 20⟩
def MAC.GUARD_CFG_G_BASE : Fld := ⟨MAC.GUARD_CFG, 15, 0⟩
/-- GUARD_CFG2, Table 06.19. -/
def MAC.GUARD_CFG2 : Nat := 0x40020024
def MAC.GUARD_CFG2_U_FLOOR : Fld := ⟨MAC.GUARD_CFG2, 31, 16⟩
def MAC.GUARD_CFG2_G_MAX : Fld := ⟨MAC.GUARD_CFG2, 15, 0⟩
/-- MISS_CFG, Table 06.20. -/
def MAC.MISS_CFG : Nat := 0x40020028
def MAC.MISS_CFG_DEV_INIT : Fld := ⟨MAC.MISS_CFG, 31, 16⟩
def MAC.MISS_CFG_RV_PERIOD : Fld := ⟨MAC.MISS_CFG, 15, 8⟩
def MAC.MISS_CFG_MISS_LIMIT : Fld := ⟨MAC.MISS_CFG, 2, 0⟩
/-- DL_CFG, Table 06.20. -/
def MAC.DL_CFG : Nat := 0x4002002C
def MAC.DL_CFG_DL_ACKTOL : Fld := ⟨MAC.DL_CFG, 31, 16⟩
def MAC.DL_CFG_DL_BURST : Fld := ⟨MAC.DL_CFG, 11, 8⟩
def MAC.DL_CFG_DL_RETRIES : Fld := ⟨MAC.DL_CFG, 7, 4⟩
def MAC.DL_CFG_DL_MAX : Fld := ⟨MAC.DL_CFG, 3, 0⟩
/-- PARENT_CTL, Table 06.21. -/
def MAC.PARENT_CTL : Nat := 0x40020030
def MAC.PARENT_CTL_MISSES : Fld := ⟨MAC.PARENT_CTL, 31, 28⟩
def MAC.PARENT_CTL_STATE : Fld := ⟨MAC.PARENT_CTL, 25, 24⟩
def MAC.PARENT_CTL_MODE : Fld := ⟨MAC.PARENT_CTL, 19, 16⟩
def MAC.PARENT_CTL_CHAN : Fld := ⟨MAC.PARENT_CTL, 14, 8⟩
def MAC.PARENT_CTL_PORT : Fld := ⟨MAC.PARENT_CTL, 2, 1⟩
def MAC.PARENT_CTL_EN : Fld := ⟨MAC.PARENT_CTL, 0, 0⟩
/-- PARENT_ADDR, Table 06.22. -/
def MAC.PARENT_ADDR : Nat := 0x40020034
def MAC.PARENT_ADDR_PAN_ID : Fld := ⟨MAC.PARENT_ADDR, 31, 16⟩
def MAC.PARENT_ADDR_SHORT : Fld := ⟨MAC.PARENT_ADDR, 15, 0⟩
/-- PARENT_GUARD, Table 06.22. -/
def MAC.PARENT_GUARD : Nat := 0x40020038
def MAC.PARENT_GUARD_US : Fld := ⟨MAC.PARENT_GUARD, 15, 0⟩
/-- NODE_OP, Table 06.23. -/
def MAC.NODE_OP : Nat := 0x40020040
def MAC.NODE_OP_BUSY : Fld := ⟨MAC.NODE_OP, 31, 31⟩
def MAC.NODE_OP_RESULT : Fld := ⟨MAC.NODE_OP, 30, 28⟩
def MAC.NODE_OP_OP : Fld := ⟨MAC.NODE_OP, 27, 24⟩
def MAC.NODE_OP_NIDX : Fld := ⟨MAC.NODE_OP, 16, 0⟩
/-- NODE_ARG0, Table 06.24. -/
def MAC.NODE_ARG0 : Nat := 0x40020044
def MAC.NODE_ARG0_EUI_LO : Fld := ⟨MAC.NODE_ARG0, 31, 0⟩
/-- NODE_ARG1, Table 06.24. -/
def MAC.NODE_ARG1 : Nat := 0x40020048
def MAC.NODE_ARG1_EUI_HI : Fld := ⟨MAC.NODE_ARG1, 31, 0⟩
/-- NODE_ARG2, Table 06.24. -/
def MAC.NODE_ARG2 : Nat := 0x4002004C
def MAC.NODE_ARG2_TXPWR : Fld := ⟨MAC.NODE_ARG2, 23, 16⟩
def MAC.NODE_ARG2_CHAN : Fld := ⟨MAC.NODE_ARG2, 14, 8⟩
def MAC.NODE_ARG2_MODE : Fld := ⟨MAC.NODE_ARG2, 5, 2⟩
def MAC.NODE_ARG2_PORT : Fld := ⟨MAC.NODE_ARG2, 1, 0⟩
/-- NODE_ARG3, Table 06.24. -/
def MAC.NODE_ARG3 : Nat := 0x40020050
def MAC.NODE_ARG3_INTERVAL : Fld := ⟨MAC.NODE_ARG3, 31, 0⟩
/-- CNT, Table 06.26. -/
def MAC.CNT (i : Nat) : Nat := 0x40020060 + i * 0x4
def MAC.CNT_HI (i : Nat) : Fld := ⟨(MAC.CNT i), 31, 16⟩
def MAC.CNT_LO (i : Nat) : Fld := ⟨(MAC.CNT i), 15, 0⟩
/-- NODE_VIEW, Table 06.25. -/
def MAC.NODE_VIEW (i : Nat) : Nat := 0x40020100 + i * 0x4
def MAC.NODE_VIEW_WORD (i : Nat) : Fld := ⟨(MAC.NODE_VIEW i), 31, 0⟩
/-- DUTY_USE, Table 06.27. -/
def MAC.DUTY_USE (i : Nat) : Nat := 0x40020200 + i * 0x4
def MAC.DUTY_USE_USED (i : Nat) : Fld := ⟨(MAC.DUTY_USE i), 15, 0⟩
/-- BCN_CH, Table 06.28. -/
def MAC.BCN_CH (i : Nat) : Nat := 0x40021000 + i * 0x400
def MAC.BCN_CH_CH (i : Nat) : Fld := ⟨(MAC.BCN_CH i), 31, 0⟩
/-- BCN_MODE, Table 06.28. -/
def MAC.BCN_MODE (i : Nat) : Nat := 0x40021004 + i * 0x400
def MAC.BCN_MODE_POWER (i : Nat) : Fld := ⟨(MAC.BCN_MODE i), 23, 16⟩
def MAC.BCN_MODE_DIV (i : Nat) : Fld := ⟨(MAC.BCN_MODE i), 11, 8⟩
def MAC.BCN_MODE_MODE (i : Nat) : Fld := ⟨(MAC.BCN_MODE i), 3, 0⟩
/-- RV_CFG, Table 06.28. -/
def MAC.RV_CFG (i : Nat) : Nat := 0x40021008 + i * 0x400
def MAC.RV_CFG_EN (i : Nat) : Fld := ⟨(MAC.RV_CFG i), 31, 31⟩
def MAC.RV_CFG_POWER (i : Nat) : Fld := ⟨(MAC.RV_CFG i), 23, 16⟩
def MAC.RV_CFG_MODE (i : Nat) : Fld := ⟨(MAC.RV_CFG i), 11, 8⟩
def MAC.RV_CFG_CHAN (i : Nat) : Fld := ⟨(MAC.RV_CFG i), 6, 0⟩
/-- RV_SLOT, Table 06.28. -/
def MAC.RV_SLOT (i : Nat) : Nat := 0x4002100C + i * 0x400
def MAC.RV_SLOT_LEN (i : Nat) : Fld := ⟨(MAC.RV_SLOT i), 15, 8⟩
def MAC.RV_SLOT_SLOTS (i : Nat) : Fld := ⟨(MAC.RV_SLOT i), 7, 0⟩
/-- TA, Table 06.28. -/
def MAC.TA (i : Nat) : Nat := 0x40021010 + i * 0x400
def MAC.TA_TA_EXT (i : Nat) : Fld := ⟨(MAC.TA i), 15, 0⟩
/-- WINDOW_LOCK, Table 00.4. -/
def MAC.WINDOW_LOCK : Nat := 0x40027FF8
def MAC.WINDOW_LOCK_LOCK : Fld := ⟨MAC.WINDOW_LOCK, 0, 0⟩
/-- EXPERT_UNLOCK, Table 00.5. -/
def MAC.EXPERT_UNLOCK : Nat := 0x40027FFC
def MAC.EXPERT_UNLOCK_ARMED : Fld := ⟨MAC.EXPERT_UNLOCK, 10, 10⟩
def MAC.EXPERT_UNLOCK_REJECTED : Fld := ⟨MAC.EXPERT_UNLOCK, 9, 9⟩
def MAC.EXPERT_UNLOCK_UNLOCKED : Fld := ⟨MAC.EXPERT_UNLOCK, 8, 8⟩
def MAC.EXPERT_UNLOCK_KEY : Fld := ⟨MAC.EXPERT_UNLOCK, 7, 0⟩
/-- MAC_EXP, Table 06.29. -/
def MAC.MAC_EXP : Nat := 0x40028000
def MAC.MAC_EXP_SLOT_CAP : Fld := ⟨MAC.MAC_EXP, 14, 8⟩
def MAC.MAC_EXP_ACCEPT_L0 : Fld := ⟨MAC.MAC_EXP, 1, 1⟩
def MAC.MAC_EXP_DRIFT_FREEZE : Fld := ⟨MAC.MAC_EXP, 0, 0⟩
/-- FWD_CTL, Table 07.14. -/
def FWD.FWD_CTL : Nat := 0x40030000
def FWD.FWD_CTL_DRAINED : Fld := ⟨FWD.FWD_CTL, 1, 1⟩
def FWD.FWD_CTL_EN : Fld := ⟨FWD.FWD_CTL, 0, 0⟩
/-- STATUS, Table 07.14. -/
def FWD.STATUS : Nat := 0x40030004
def FWD.STATUS_SEEDREJ : Fld := ⟨FWD.STATUS, 19, 19⟩
def FWD.STATUS_ENTRIES : Fld := ⟨FWD.STATUS, 18, 0⟩
/-- HASH_SEED, Table 07.15. -/
def FWD.HASH_SEED : Nat := 0x40030008
def FWD.HASH_SEED_SEED : Fld := ⟨FWD.HASH_SEED, 31, 0⟩
/-- SIL_SEED, Table 07.15. -/
def FWD.SIL_SEED : Nat := 0x4003000C
def FWD.SIL_SEED_SEED : Fld := ⟨FWD.SIL_SEED, 31, 0⟩
/-- RING_SEL0, Table 07.16. -/
def FWD.RING_SEL0 : Nat := 0x40030010
def FWD.RING_SEL0_BCN : Fld := ⟨FWD.RING_SEL0, 29, 24⟩
def FWD.RING_SEL0_OTHER : Fld := ⟨FWD.RING_SEL0, 21, 16⟩
def FWD.RING_SEL0_UPLINK : Fld := ⟨FWD.RING_SEL0, 13, 8⟩
def FWD.RING_SEL0_MISS : Fld := ⟨FWD.RING_SEL0, 5, 0⟩
/-- RING_SEL1, Table 07.16. -/
def FWD.RING_SEL1 : Nat := 0x40030014
def FWD.RING_SEL1_CRY : Fld := ⟨FWD.RING_SEL1, 29, 24⟩
def FWD.RING_SEL1_RELAY : Fld := ⟨FWD.RING_SEL1, 21, 16⟩
def FWD.RING_SEL1_PEER : Fld := ⟨FWD.RING_SEL1, 13, 8⟩
def FWD.RING_SEL1_DIS : Fld := ⟨FWD.RING_SEL1, 5, 0⟩
/-- RING_SEL2, Table 07.16. -/
def FWD.RING_SEL2 : Nat := 0x40030018
def FWD.RING_SEL2_ATOM : Fld := ⟨FWD.RING_SEL2, 29, 24⟩
def FWD.RING_SEL2_DOWNMISS : Fld := ⟨FWD.RING_SEL2, 21, 16⟩
def FWD.RING_SEL2_EXC : Fld := ⟨FWD.RING_SEL2, 13, 8⟩
def FWD.RING_SEL2_IP6 : Fld := ⟨FWD.RING_SEL2, 5, 0⟩
/-- RING_SEL3, Table 07.16. -/
def FWD.RING_SEL3 : Nat := 0x4003001C
def FWD.RING_SEL3_FLOOD_RX : Fld := ⟨FWD.RING_SEL3, 13, 8⟩
def FWD.RING_SEL3_ADAPT_DOWN : Fld := ⟨FWD.RING_SEL3, 5, 0⟩
/-- KEY_CFG, Table 07.17. -/
def FWD.KEY_CFG : Nat := 0x40030020
def FWD.KEY_CFG_PEER_EN : Fld := ⟨FWD.KEY_CFG, 12, 12⟩
def FWD.KEY_CFG_PEER_KEY : Fld := ⟨FWD.KEY_CFG, 11, 0⟩
/-- MOVE_CFG, Table 07.17. -/
def FWD.MOVE_CFG : Nat := 0x40030024
def FWD.MOVE_CFG_MOVE_HOLD : Fld := ⟨FWD.MOVE_CFG, 7, 0⟩
/-- AGE_CFG, Table 07.17. -/
def FWD.AGE_CFG : Nat := 0x40030028
def FWD.AGE_CFG_AGE_PERIOD : Fld := ⟨FWD.AGE_CFG, 15, 0⟩
/-- TABLE_OP, Table 07.18. -/
def FWD.TABLE_OP : Nat := 0x40030030
def FWD.TABLE_OP_BUSY : Fld := ⟨FWD.TABLE_OP, 31, 31⟩
def FWD.TABLE_OP_RESULT : Fld := ⟨FWD.TABLE_OP, 30, 28⟩
def FWD.TABLE_OP_OP : Fld := ⟨FWD.TABLE_OP, 27, 24⟩
def FWD.TABLE_OP_KIND : Fld := ⟨FWD.TABLE_OP, 0, 0⟩
/-- TKEY_LO, Table 07.18. -/
def FWD.TKEY_LO : Nat := 0x40030034
def FWD.TKEY_LO_KEY : Fld := ⟨FWD.TKEY_LO, 31, 0⟩
/-- TKEY_HI, Table 07.18. -/
def FWD.TKEY_HI : Nat := 0x40030038
def FWD.TKEY_HI_KEY : Fld := ⟨FWD.TKEY_HI, 31, 0⟩
/-- TPORT, Table 07.18. -/
def FWD.TPORT : Nat := 0x4003003C
def FWD.TPORT_CODE : Fld := ⟨FWD.TPORT, 15, 0⟩
/-- DEC_MAX, Table 07.19. -/
def FWD.DEC_MAX : Nat := 0x40030040
def FWD.DEC_MAX_NS : Fld := ⟨FWD.DEC_MAX, 15, 0⟩
/-- PAR_LOG, Table 07.19. -/
def FWD.PAR_LOG : Nat := 0x40030044
def FWD.PAR_LOG_VALID : Fld := ⟨FWD.PAR_LOG, 31, 31⟩
def FWD.PAR_LOG_MANAGED : Fld := ⟨FWD.PAR_LOG, 24, 24⟩
def FWD.PAR_LOG_BANK : Fld := ⟨FWD.PAR_LOG, 19, 16⟩
def FWD.PAR_LOG_ROW : Fld := ⟨FWD.PAR_LOG, 15, 4⟩
def FWD.PAR_LOG_WAY : Fld := ⟨FWD.PAR_LOG, 1, 0⟩
/-- ATOM_CFG, Table 07.20. -/
def FWD.ATOM_CFG : Nat := 0x40030050
def FWD.ATOM_CFG_POLICY_SET : Fld := ⟨FWD.ATOM_CFG, 31, 28⟩
def FWD.ATOM_CFG_PAR : Fld := ⟨FWD.ATOM_CFG, 25, 24⟩
def FWD.ATOM_CFG_ATOM_GAP : Fld := ⟨FWD.ATOM_CFG, 23, 16⟩
def FWD.ATOM_CFG_ATOM_LEAD : Fld := ⟨FWD.ATOM_CFG, 7, 0⟩
/-- SIL_CFG, Table 07.20. -/
def FWD.SIL_CFG : Nat := 0x40030054
def FWD.SIL_CFG_SIL_TTL : Fld := ⟨FWD.SIL_CFG, 15, 0⟩
/-- ADAPT_CFG, Table 07.20. -/
def FWD.ADAPT_CFG : Nat := 0x40030058
def FWD.ADAPT_CFG_DOWN_LEVEL : Fld := ⟨FWD.ADAPT_CFG, 26, 24⟩
def FWD.ADAPT_CFG_MCAST_SET : Fld := ⟨FWD.ADAPT_CFG, 23, 20⟩
def FWD.ADAPT_CFG_REASM_PER_SRC : Fld := ⟨FWD.ADAPT_CFG, 19, 16⟩
def FWD.ADAPT_CFG_REASM_TIMEOUT : Fld := ⟨FWD.ADAPT_CFG, 15, 8⟩
def FWD.ADAPT_CFG_UDP_ELIDE : Fld := ⟨FWD.ADAPT_CFG, 0, 0⟩
/-- FWD_GRP, Table 07.21. -/
def FWD.FWD_GRP (i : Nat) : Nat := 0x40030100 + i * 0x8
def FWD.FWD_GRP_AUTO (i : Nat) : Fld := ⟨(FWD.FWD_GRP i), 31, 31⟩
def FWD.FWD_GRP_EXCESS (i : Nat) : Fld := ⟨(FWD.FWD_GRP i), 30, 30⟩
def FWD.FWD_GRP_MAX_ENTRIES (i : Nat) : Fld := ⟨(FWD.FWD_GRP i), 17, 0⟩
/-- FWD_GRP_RATE, Table 07.21. -/
def FWD.FWD_GRP_RATE (i : Nat) : Nat := 0x40030104 + i * 0x8
def FWD.FWD_GRP_RATE_RATE (i : Nat) : Fld := ⟨(FWD.FWD_GRP_RATE i), 31, 16⟩
def FWD.FWD_GRP_RATE_BURST (i : Nat) : Fld := ⟨(FWD.FWD_GRP_RATE i), 15, 8⟩
/-- GRP_USE, Table 07.22. -/
def FWD.GRP_USE (i : Nat) : Nat := 0x40030140 + i * 0x4
def FWD.GRP_USE_ENTRIES (i : Nat) : Fld := ⟨(FWD.GRP_USE i), 17, 0⟩
/-- COUNT, Table 07.23. -/
def FWD.COUNT (i : Nat) : Nat := 0x40030200 + i * 0x4
def FWD.COUNT_HI (i : Nat) : Fld := ⟨(FWD.COUNT i), 31, 16⟩
def FWD.COUNT_LO (i : Nat) : Fld := ⟨(FWD.COUNT i), 15, 0⟩
/-- CTX_LO, Table 07.24. -/
def FWD.CTX_LO (i : Nat) : Nat := 0x40030400 + i * 0x8
def FWD.CTX_LO_PREFIX (i : Nat) : Fld := ⟨(FWD.CTX_LO i), 31, 0⟩
/-- CTX_HI, Table 07.24. -/
def FWD.CTX_HI (i : Nat) : Nat := 0x40030404 + i * 0x8
def FWD.CTX_HI_PREFIX (i : Nat) : Fld := ⟨(FWD.CTX_HI i), 31, 0⟩
/-- CTX_VALID, Table 07.24. -/
def FWD.CTX_VALID : Nat := 0x40030480
def FWD.CTX_VALID_VALID : Fld := ⟨FWD.CTX_VALID, 15, 0⟩
/-- FSET, Table 07.25. -/
def FWD.FSET (i j : Nat) : Nat := 0x40032000 + i * 0x40 + j * 0x4
def FWD.FSET_EN (i j : Nat) : Fld := ⟨(FWD.FSET i j), 31, 31⟩
def FWD.FSET_PORT (i j : Nat) : Fld := ⟨(FWD.FSET i j), 29, 28⟩
def FWD.FSET_MODE (i j : Nat) : Fld := ⟨(FWD.FSET i j), 27, 24⟩
def FWD.FSET_CHAN (i j : Nat) : Fld := ⟨(FWD.FSET i j), 22, 16⟩
def FWD.FSET_POWER (i j : Nat) : Fld := ⟨(FWD.FSET i j), 15, 8⟩
/-- RELAY, Table 07.25. -/
def FWD.RELAY (i : Nat) : Nat := 0x40034000 + i * 0x4
def FWD.RELAY_VALID (i : Nat) : Fld := ⟨(FWD.RELAY i), 31, 31⟩
def FWD.RELAY_NIDX (i : Nat) : Fld := ⟨(FWD.RELAY i), 16, 0⟩
/-- WINDOW_LOCK, Table 00.4. -/
def FWD.WINDOW_LOCK : Nat := 0x40037FF8
def FWD.WINDOW_LOCK_LOCK : Fld := ⟨FWD.WINDOW_LOCK, 0, 0⟩
/-- EXPERT_UNLOCK, Table 00.5. -/
def FWD.EXPERT_UNLOCK : Nat := 0x40037FFC
def FWD.EXPERT_UNLOCK_ARMED : Fld := ⟨FWD.EXPERT_UNLOCK, 10, 10⟩
def FWD.EXPERT_UNLOCK_REJECTED : Fld := ⟨FWD.EXPERT_UNLOCK, 9, 9⟩
def FWD.EXPERT_UNLOCK_UNLOCKED : Fld := ⟨FWD.EXPERT_UNLOCK, 8, 8⟩
def FWD.EXPERT_UNLOCK_KEY : Fld := ⟨FWD.EXPERT_UNLOCK, 7, 0⟩
/-- FWD_EXP, Table 07.26. -/
def FWD.FWD_EXP : Nat := 0x40038000
def FWD.FWD_EXP_MOVE_MARGIN : Fld := ⟨FWD.FWD_EXP, 31, 24⟩
def FWD.FWD_EXP_MOVE_EXPERT : Fld := ⟨FWD.FWD_EXP, 16, 16⟩
def FWD.FWD_EXP_RELOC_MAX : Fld := ⟨FWD.FWD_EXP, 11, 8⟩
def FWD.FWD_EXP_AGE_FREEZE : Fld := ⟨FWD.FWD_EXP, 0, 0⟩
/-- POOL_STATUS, Table 08.9. -/
def TM.POOL_STATUS : Nat := 0x40040000
def TM.POOL_STATUS_SCHREJ : Fld := ⟨TM.POOL_STATUS, 18, 18⟩
def TM.POOL_STATUS_EXHAUST : Fld := ⟨TM.POOL_STATUS, 17, 17⟩
def TM.POOL_STATUS_LOW : Fld := ⟨TM.POOL_STATUS, 16, 16⟩
def TM.POOL_STATUS_FREE : Fld := ⟨TM.POOL_STATUS, 14, 0⟩
/-- POOL_CFG, Table 08.9. -/
def TM.POOL_CFG : Nat := 0x40040004
def TM.POOL_CFG_LOW_MARK : Fld := ⟨TM.POOL_CFG, 14, 0⟩
/-- POOL_CNT_A, Table 08.10. -/
def TM.POOL_CNT_A : Nat := 0x40040008
def TM.POOL_CNT_A_FAIL_GEN : Fld := ⟨TM.POOL_CNT_A, 31, 16⟩
def TM.POOL_CNT_A_FAIL_CTRL : Fld := ⟨TM.POOL_CNT_A, 15, 0⟩
/-- POOL_CNT_B, Table 08.10. -/
def TM.POOL_CNT_B : Nat := 0x4004000C
def TM.POOL_CNT_B_DRAIN_USED : Fld := ⟨TM.POOL_CNT_B, 31, 16⟩
def TM.POOL_CNT_B_FAIL_DRAIN : Fld := ⟨TM.POOL_CNT_B, 15, 0⟩
/-- POOL_CNT_C, Table 08.10. -/
def TM.POOL_CNT_C : Nat := 0x40040010
def TM.POOL_CNT_C_CHAINERR : Fld := ⟨TM.POOL_CNT_C, 31, 16⟩
def TM.POOL_CNT_C_LOST : Fld := ⟨TM.POOL_CNT_C, 15, 0⟩
/-- MISC_CNT, Table 08.10. -/
def TM.MISC_CNT : Nat := 0x40040014
def TM.MISC_CNT_BADBUF : Fld := ⟨TM.MISC_CNT, 31, 16⟩
def TM.MISC_CNT_IDLEPUSH : Fld := ⟨TM.MISC_CNT, 15, 0⟩
/-- DRAM_BASE_LO, Table 08.11. -/
def TM.DRAM_BASE_LO : Nat := 0x40040018
def TM.DRAM_BASE_LO_ADDR : Fld := ⟨TM.DRAM_BASE_LO, 31, 0⟩
/-- DRAM_BASE_HI, Table 08.11. -/
def TM.DRAM_BASE_HI : Nat := 0x4004001C
def TM.DRAM_BASE_HI_ADDR : Fld := ⟨TM.DRAM_BASE_HI, 3, 0⟩
/-- LINK_SEL, Table 08.12. -/
def TM.LINK_SEL : Nat := 0x40040020
def TM.LINK_SEL_BUF : Fld := ⟨TM.LINK_SEL, 13, 0⟩
/-- LINK_DATA, Table 08.12. -/
def TM.LINK_DATA : Nat := 0x40040024
def TM.LINK_DATA_HOLDER : Fld := ⟨TM.LINK_DATA, 31, 25⟩
def TM.LINK_DATA_FILL : Fld := ⟨TM.LINK_DATA, 24, 16⟩
def TM.LINK_DATA_HEAD : Fld := ⟨TM.LINK_DATA, 15, 15⟩
def TM.LINK_DATA_LAST : Fld := ⟨TM.LINK_DATA, 14, 14⟩
def TM.LINK_DATA_NEXT : Fld := ⟨TM.LINK_DATA, 13, 0⟩
/-- LAT_CFG, Table 08.13. -/
def TM.LAT_CFG : Nat := 0x40040028
def TM.LAT_CFG_SAMPLE_EN : Fld := ⟨TM.LAT_CFG, 0, 0⟩
/-- RING_DRAINED_LO, Table 08.13. -/
def TM.RING_DRAINED_LO : Nat := 0x40040030
def TM.RING_DRAINED_LO_D : Fld := ⟨TM.RING_DRAINED_LO, 31, 0⟩
/-- RING_DRAINED_HI, Table 08.13. -/
def TM.RING_DRAINED_HI : Nat := 0x40040034
def TM.RING_DRAINED_HI_D : Fld := ⟨TM.RING_DRAINED_HI, 31, 0⟩
/-- RING_CFG, Table 08.14. -/
def TM.RING_CFG (i : Nat) : Nat := 0x40041000 + i * 0x40
def TM.RING_CFG_SHALLOW (i : Nat) : Fld := ⟨(TM.RING_CFG i), 31, 31⟩
def TM.RING_CFG_LAT_EN (i : Nat) : Fld := ⟨(TM.RING_CFG i), 17, 17⟩
def TM.RING_CFG_DEPTH (i : Nat) : Fld := ⟨(TM.RING_CFG i), 15, 0⟩
/-- RING_CTL, Table 08.14. -/
def TM.RING_CTL (i : Nat) : Nat := 0x40041004 + i * 0x40
def TM.RING_CTL_DRAINED (i : Nat) : Fld := ⟨(TM.RING_CTL i), 2, 2⟩
def TM.RING_CTL_FLUSH (i : Nat) : Fld := ⟨(TM.RING_CTL i), 1, 1⟩
def TM.RING_CTL_EN (i : Nat) : Fld := ⟨(TM.RING_CTL i), 0, 0⟩
/-- RING_OCC, Table 08.15. -/
def TM.RING_OCC (i : Nat) : Nat := 0x40041008 + i * 0x40
def TM.RING_OCC_OCC (i : Nat) : Fld := ⟨(TM.RING_OCC i), 16, 0⟩
/-- RING_WFQ, Table 08.15. -/
def TM.RING_WFQ (i : Nat) : Nat := 0x4004100C + i * 0x40
def TM.RING_WFQ_PRIO (i : Nat) : Fld := ⟨(TM.RING_WFQ i), 8, 8⟩
def TM.RING_WFQ_WEIGHT (i : Nat) : Fld := ⟨(TM.RING_WFQ i), 7, 0⟩
/-- RING_SHAPE, Table 08.15. -/
def TM.RING_SHAPE (i : Nat) : Nat := 0x40041010 + i * 0x40
def TM.RING_SHAPE_RATE (i : Nat) : Fld := ⟨(TM.RING_SHAPE i), 18, 0⟩
/-- RING_BURST, Table 08.15. -/
def TM.RING_BURST (i : Nat) : Nat := 0x40041014 + i * 0x40
def TM.RING_BURST_BURST (i : Nat) : Fld := ⟨(TM.RING_BURST i), 15, 0⟩
/-- RING_CREDIT, Table 08.16. -/
def TM.RING_CREDIT (i : Nat) : Nat := 0x40041018 + i * 0x40
def TM.RING_CREDIT_CREDIT (i : Nat) : Fld := ⟨(TM.RING_CREDIT i), 31, 0⟩
/-- RING_FTAG, Table 08.16. -/
def TM.RING_FTAG (i : Nat) : Nat := 0x4004101C + i * 0x40
def TM.RING_FTAG_F (i : Nat) : Fld := ⟨(TM.RING_FTAG i), 31, 0⟩
/-- LAT_DEPTH, Table 08.17. -/
def TM.LAT_DEPTH (i : Nat) : Nat := 0x40041020 + i * 0x40
def TM.LAT_DEPTH_DEPTH (i : Nat) : Fld := ⟨(TM.LAT_DEPTH i), 16, 0⟩
/-- LAT_SOJ, Table 08.17. -/
def TM.LAT_SOJ (i : Nat) : Nat := 0x40041024 + i * 0x40
def TM.LAT_SOJ_US (i : Nat) : Fld := ⟨(TM.LAT_SOJ i), 23, 0⟩
/-- HWM_DEPTH, Table 08.17. -/
def TM.HWM_DEPTH (i : Nat) : Nat := 0x40041028 + i * 0x40
def TM.HWM_DEPTH_DEPTH (i : Nat) : Fld := ⟨(TM.HWM_DEPTH i), 16, 0⟩
/-- HWM_SOJ, Table 08.17. -/
def TM.HWM_SOJ (i : Nat) : Nat := 0x4004102C + i * 0x40
def TM.HWM_SOJ_US (i : Nat) : Fld := ⟨(TM.HWM_SOJ i), 23, 0⟩
/-- LAT_LIMIT, Table 08.17. -/
def TM.LAT_LIMIT (i : Nat) : Nat := 0x40041030 + i * 0x40
def TM.LAT_LIMIT_US (i : Nat) : Fld := ⟨(TM.LAT_LIMIT i), 23, 0⟩
/-- RING_CNT_A, Table 08.18. -/
def TM.RING_CNT_A (i : Nat) : Nat := 0x40041034 + i * 0x40
def TM.RING_CNT_A_OVERFLOW (i : Nat) : Fld := ⟨(TM.RING_CNT_A i), 31, 16⟩
def TM.RING_CNT_A_FLUSHED (i : Nat) : Fld := ⟨(TM.RING_CNT_A i), 15, 0⟩
/-- RING_CNT_B, Table 08.18. -/
def TM.RING_CNT_B (i : Nat) : Nat := 0x40041038 + i * 0x40
def TM.RING_CNT_B_POISONED (i : Nat) : Fld := ⟨(TM.RING_CNT_B i), 31, 16⟩
def TM.RING_CNT_B_PTRERR (i : Nat) : Fld := ⟨(TM.RING_CNT_B i), 15, 0⟩
/-- RING_CNT_C, Table 08.18. -/
def TM.RING_CNT_C (i : Nat) : Nat := 0x4004103C + i * 0x40
def TM.RING_CNT_C_LATE (i : Nat) : Fld := ⟨(TM.RING_CNT_C i), 31, 16⟩
def TM.RING_CNT_C_RECLAIMED (i : Nat) : Fld := ⟨(TM.RING_CNT_C i), 15, 0⟩
/-- SCH_CTL, Table 08.19. -/
def TM.SCH_CTL (i : Nat) : Nat := 0x40043000 + i * 0x10
def TM.SCH_CTL_EN (i : Nat) : Fld := ⟨(TM.SCH_CTL i), 31, 31⟩
def TM.SCH_CTL_DRAINED (i : Nat) : Fld := ⟨(TM.SCH_CTL i), 30, 30⟩
def TM.SCH_CTL_DST (i : Nat) : Fld := ⟨(TM.SCH_CTL i), 21, 16⟩
def TM.SCH_CTL_DST_LOW (i : Nat) : Fld := ⟨(TM.SCH_CTL i), 3, 0⟩
/-- SCH_MEM_LO, Table 08.19. -/
def TM.SCH_MEM_LO (i : Nat) : Nat := 0x40043004 + i * 0x10
def TM.SCH_MEM_LO_MASK (i : Nat) : Fld := ⟨(TM.SCH_MEM_LO i), 31, 0⟩
/-- SCH_MEM_HI, Table 08.19. -/
def TM.SCH_MEM_HI (i : Nat) : Nat := 0x40043008 + i * 0x10
def TM.SCH_MEM_HI_MASK (i : Nat) : Fld := ⟨(TM.SCH_MEM_HI i), 31, 0⟩
/-- SCH_VT, Table 08.19. -/
def TM.SCH_VT (i : Nat) : Nat := 0x4004300C + i * 0x10
def TM.SCH_VT_V (i : Nat) : Fld := ⟨(TM.SCH_VT i), 31, 0⟩
/-- WINDOW_LOCK, Table 00.4. -/
def TM.WINDOW_LOCK : Nat := 0x40047FF8
def TM.WINDOW_LOCK_LOCK : Fld := ⟨TM.WINDOW_LOCK, 0, 0⟩
/-- EXPERT_UNLOCK, Table 00.5. -/
def TM.EXPERT_UNLOCK : Nat := 0x40047FFC
def TM.EXPERT_UNLOCK_ARMED : Fld := ⟨TM.EXPERT_UNLOCK, 10, 10⟩
def TM.EXPERT_UNLOCK_REJECTED : Fld := ⟨TM.EXPERT_UNLOCK, 9, 9⟩
def TM.EXPERT_UNLOCK_UNLOCKED : Fld := ⟨TM.EXPERT_UNLOCK, 8, 8⟩
def TM.EXPERT_UNLOCK_KEY : Fld := ⟨TM.EXPERT_UNLOCK, 7, 0⟩
/-- TM_EXP, Table 08.20. -/
def TM.TM_EXP : Nat := 0x40048000
def TM.TM_EXP_CTRL_RES : Fld := ⟨TM.TM_EXP, 26, 16⟩
def TM.TM_EXP_PTR_INJECT : Fld := ⟨TM.TM_EXP, 1, 1⟩
def TM.TM_EXP_PAR_INJECT : Fld := ⟨TM.TM_EXP, 0, 0⟩
/-- CRY_CTL, Table 09.11. -/
def CRY.CRY_CTL : Nat := 0x40050000
def CRY.CRY_CTL_DRAINED : Fld := ⟨CRY.CRY_CTL, 1, 1⟩
def CRY.CRY_CTL_EN : Fld := ⟨CRY.CRY_CTL, 0, 0⟩
/-- RX_CFG, Table 09.11. -/
def CRY.RX_CFG : Nat := 0x40050004
def CRY.RX_CFG_COPY_WINDOW : Fld := ⟨CRY.RX_CFG, 15, 8⟩
def CRY.RX_CFG_RX_RING : Fld := ⟨CRY.RX_CFG, 5, 0⟩
/-- FC_WARN, Table 09.12. -/
def CRY.FC_WARN : Nat := 0x40050008
def CRY.FC_WARN_VALUE : Fld := ⟨CRY.FC_WARN, 31, 0⟩
/-- FC_SEL, Table 09.12. -/
def CRY.FC_SEL : Nat := 0x4005000C
def CRY.FC_SEL_SLOT : Fld := ⟨CRY.FC_SEL, 11, 0⟩
/-- FC_LIVE, Table 09.12. -/
def CRY.FC_LIVE : Nat := 0x40050010
def CRY.FC_LIVE_VALUE : Fld := ⟨CRY.FC_LIVE, 31, 0⟩
/-- FC_CEIL, Table 09.12. -/
def CRY.FC_CEIL : Nat := 0x40050014
def CRY.FC_CEIL_VALUE : Fld := ⟨CRY.FC_CEIL, 31, 0⟩
/-- LANE_RX, Table 09.13. -/
def CRY.LANE_RX : Nat := 0x40050020
def CRY.LANE_RX_MAP : Fld := ⟨CRY.LANE_RX, 23, 0⟩
/-- LANE_WHOLE, Table 09.13. -/
def CRY.LANE_WHOLE : Nat := 0x40050024
def CRY.LANE_WHOLE_MAP : Fld := ⟨CRY.LANE_WHOLE, 23, 0⟩
/-- LANE_FAULT, Table 09.13. -/
def CRY.LANE_FAULT : Nat := 0x40050028
def CRY.LANE_FAULT_MAP : Fld := ⟨CRY.LANE_FAULT, 23, 0⟩
/-- JOBQ, Table 09.13. -/
def CRY.JOBQ : Nat := 0x4005002C
def CRY.JOBQ_OCC : Fld := ⟨CRY.JOBQ, 6, 0⟩
/-- CNT, Table 09.14. -/
def CRY.CNT (i : Nat) : Nat := 0x40050030 + i * 0x4
def CRY.CNT_HI (i : Nat) : Fld := ⟨(CRY.CNT i), 31, 16⟩
def CRY.CNT_LO (i : Nat) : Fld := ⟨(CRY.CNT i), 15, 0⟩
/-- SMAP_VALID, Table 09.15. -/
def CRY.SMAP_VALID : Nat := 0x400500FC
def CRY.SMAP_VALID_VALID : Fld := ⟨CRY.SMAP_VALID, 15, 0⟩
/-- SMAP_ADDR, Table 09.16. -/
def CRY.SMAP_ADDR (i : Nat) : Nat := 0x40050100 + i * 0x10
def CRY.SMAP_ADDR_PAN_ID (i : Nat) : Fld := ⟨(CRY.SMAP_ADDR i), 31, 16⟩
def CRY.SMAP_ADDR_SHORT (i : Nat) : Fld := ⟨(CRY.SMAP_ADDR i), 15, 0⟩
/-- SMAP_EUI_LO, Table 09.16. -/
def CRY.SMAP_EUI_LO (i : Nat) : Nat := 0x40050104 + i * 0x10
def CRY.SMAP_EUI_LO_EUI (i : Nat) : Fld := ⟨(CRY.SMAP_EUI_LO i), 31, 0⟩
/-- SMAP_EUI_HI, Table 09.16. -/
def CRY.SMAP_EUI_HI (i : Nat) : Nat := 0x40050108 + i * 0x10
def CRY.SMAP_EUI_HI_EUI (i : Nat) : Fld := ⟨(CRY.SMAP_EUI_HI i), 31, 0⟩
/-- LANE_STATE, Table 09.17. -/
def CRY.LANE_STATE (i : Nat) : Nat := 0x40050200 + i * 0x4
def CRY.LANE_STATE_STATE (i : Nat) : Fld := ⟨(CRY.LANE_STATE i), 31, 29⟩
def CRY.LANE_STATE_CONTEXTS (i : Nat) : Fld := ⟨(CRY.LANE_STATE i), 28, 24⟩
def CRY.LANE_STATE_SOURCE (i : Nat) : Fld := ⟨(CRY.LANE_STATE i), 23, 21⟩
def CRY.LANE_STATE_EARLY (i : Nat) : Fld := ⟨(CRY.LANE_STATE i), 20, 20⟩
def CRY.LANE_STATE_SLOT (i : Nat) : Fld := ⟨(CRY.LANE_STATE i), 19, 8⟩
def CRY.LANE_STATE_GEN (i : Nat) : Fld := ⟨(CRY.LANE_STATE i), 7, 0⟩
/-- WINDOW_LOCK, Table 00.4. -/
def CRY.WINDOW_LOCK : Nat := 0x40057FF8
def CRY.WINDOW_LOCK_LOCK : Fld := ⟨CRY.WINDOW_LOCK, 0, 0⟩
/-- EXPERT_UNLOCK, Table 00.5. -/
def CRY.EXPERT_UNLOCK : Nat := 0x40057FFC
def CRY.EXPERT_UNLOCK_ARMED : Fld := ⟨CRY.EXPERT_UNLOCK, 10, 10⟩
def CRY.EXPERT_UNLOCK_REJECTED : Fld := ⟨CRY.EXPERT_UNLOCK, 9, 9⟩
def CRY.EXPERT_UNLOCK_UNLOCKED : Fld := ⟨CRY.EXPERT_UNLOCK, 8, 8⟩
def CRY.EXPERT_UNLOCK_KEY : Fld := ⟨CRY.EXPERT_UNLOCK, 7, 0⟩
/-- CRY_EXP, Table 09.18. -/
def CRY.CRY_EXP : Nat := 0x40058000
def CRY.CRY_EXP_EARLY_EN : Fld := ⟨CRY.CRY_EXP, 31, 31⟩
def CRY.CRY_EXP_SLICE_RING : Fld := ⟨CRY.CRY_EXP, 29, 24⟩
def CRY.CRY_EXP_MAX_WHOLE : Fld := ⟨CRY.CRY_EXP, 20, 16⟩
def CRY.CRY_EXP_FC_BLOCK : Fld := ⟨CRY.CRY_EXP, 15, 8⟩
/-- KEY_CTL, Table 10.11. -/
def KEY.KEY_CTL : Nat := 0x40060000
def KEY.KEY_CTL_EN : Fld := ⟨KEY.KEY_CTL, 0, 0⟩
/-- KEY_STATUS, Table 10.11. -/
def KEY.KEY_STATUS : Nat := 0x40060004
def KEY.KEY_STATUS_NMAPREJ : Fld := ⟨KEY.KEY_STATUS, 4, 4⟩
def KEY.KEY_STATUS_RNG_OK : Fld := ⟨KEY.KEY_STATUS, 3, 3⟩
def KEY.KEY_STATUS_ROOT : Fld := ⟨KEY.KEY_STATUS, 2, 2⟩
def KEY.KEY_STATUS_READY : Fld := ⟨KEY.KEY_STATUS, 1, 1⟩
def KEY.KEY_STATUS_DRAINED : Fld := ⟨KEY.KEY_STATUS, 0, 0⟩
/-- KEY_OP, Table 10.12. -/
def KEY.KEY_OP : Nat := 0x40060010
def KEY.KEY_OP_BUSY : Fld := ⟨KEY.KEY_OP, 31, 31⟩
def KEY.KEY_OP_RESULT : Fld := ⟨KEY.KEY_OP, 30, 27⟩
def KEY.KEY_OP_OP : Fld := ⟨KEY.KEY_OP, 23, 20⟩
def KEY.KEY_OP_SLOT : Fld := ⟨KEY.KEY_OP, 11, 0⟩
/-- OP_PARENT, Table 10.12. -/
def KEY.OP_PARENT : Nat := 0x40060014
def KEY.OP_PARENT_SLOT : Fld := ⟨KEY.OP_PARENT, 15, 0⟩
/-- OP_ATTR, Table 10.13. -/
def KEY.OP_ATTR : Nat := 0x40060018
def KEY.OP_ATTR_VERIFY : Fld := ⟨KEY.OP_ATTR, 8, 8⟩
def KEY.OP_ATTR_SIZE : Fld := ⟨KEY.OP_ATTR, 5, 5⟩
def KEY.OP_ATTR_GROUP : Fld := ⟨KEY.OP_ATTR, 3, 3⟩
def KEY.OP_ATTR_TRANSPORT : Fld := ⟨KEY.OP_ATTR, 2, 2⟩
def KEY.OP_ATTR_NODEXPORT : Fld := ⟨KEY.OP_ATTR, 1, 1⟩
def KEY.OP_ATTR_NOEXPORT : Fld := ⟨KEY.OP_ATTR, 0, 0⟩
/-- OP_ADDR_LO, Table 10.13. -/
def KEY.OP_ADDR_LO : Nat := 0x4006001C
def KEY.OP_ADDR_LO_ADDR : Fld := ⟨KEY.OP_ADDR_LO, 31, 0⟩
/-- OP_ADDR_HI, Table 10.13. -/
def KEY.OP_ADDR_HI : Nat := 0x40060020
def KEY.OP_ADDR_HI_ADDR : Fld := ⟨KEY.OP_ADDR_HI, 3, 0⟩
/-- OP_CTX, Table 10.14. -/
def KEY.OP_CTX (i : Nat) : Nat := 0x40060030 + i * 0x4
def KEY.OP_CTX_DATA (i : Nat) : Fld := ⟨(KEY.OP_CTX i), 31, 0⟩
/-- OP_KCV_LO, Table 10.14. -/
def KEY.OP_KCV_LO : Nat := 0x40060040
def KEY.OP_KCV_LO_KCV : Fld := ⟨KEY.OP_KCV_LO, 31, 0⟩
/-- OP_KCV_HI, Table 10.14. -/
def KEY.OP_KCV_HI : Nat := 0x40060044
def KEY.OP_KCV_HI_KCV : Fld := ⟨KEY.OP_KCV_HI, 31, 0⟩
/-- OUT_KCV_LO, Table 10.14. -/
def KEY.OUT_KCV_LO : Nat := 0x40060048
def KEY.OUT_KCV_LO_KCV : Fld := ⟨KEY.OUT_KCV_LO, 31, 0⟩
/-- OUT_KCV_HI, Table 10.14. -/
def KEY.OUT_KCV_HI : Nat := 0x4006004C
def KEY.OUT_KCV_HI_KCV : Fld := ⟨KEY.OUT_KCV_HI, 31, 0⟩
/-- KEY_DATA, Table 10.15. -/
def KEY.KEY_DATA (i : Nat) : Nat := 0x40060050 + i * 0x4
def KEY.KEY_DATA_DATA (i : Nat) : Fld := ⟨(KEY.KEY_DATA i), 31, 0⟩
/-- NMAP_SEL, Table 10.16. -/
def KEY.NMAP_SEL : Nat := 0x40060080
def KEY.NMAP_SEL_NIDX : Fld := ⟨KEY.NMAP_SEL, 16, 0⟩
/-- NMAP_DATA, Table 10.16. -/
def KEY.NMAP_DATA : Nat := 0x40060084
def KEY.NMAP_DATA_VALID : Fld := ⟨KEY.NMAP_DATA, 15, 15⟩
def KEY.NMAP_DATA_SLOT : Fld := ⟨KEY.NMAP_DATA, 11, 0⟩
/-- SLOT_SEL, Table 10.17. -/
def KEY.SLOT_SEL : Nat := 0x40060090
def KEY.SLOT_SEL_SLOT : Fld := ⟨KEY.SLOT_SEL, 11, 0⟩
/-- SLOT_INFO, Table 10.17. -/
def KEY.SLOT_INFO : Nat := 0x40060094
def KEY.SLOT_INFO_PARENT : Fld := ⟨KEY.SLOT_INFO, 31, 16⟩
def KEY.SLOT_INFO_ORPHANED : Fld := ⟨KEY.SLOT_INFO, 15, 15⟩
def KEY.SLOT_INFO_LEVEL : Fld := ⟨KEY.SLOT_INFO, 9, 8⟩
def KEY.SLOT_INFO_LOS_ATTR : Fld := ⟨KEY.SLOT_INFO, 7, 0⟩
/-- SLOT_EPOCH, Table 10.17. -/
def KEY.SLOT_EPOCH : Nat := 0x40060098
def KEY.SLOT_EPOCH_EPOCH : Fld := ⟨KEY.SLOT_EPOCH, 31, 0⟩
/-- CNT, Table 10.18. -/
def KEY.CNT (i : Nat) : Nat := 0x400600A0 + i * 0x4
def KEY.CNT_HI (i : Nat) : Fld := ⟨(KEY.CNT i), 31, 16⟩
def KEY.CNT_LO (i : Nat) : Fld := ⟨(KEY.CNT i), 15, 0⟩
/-- ROOT_CTL, Table 10.18. -/
def KEY.ROOT_CTL : Nat := 0x400600C0
def KEY.ROOT_CTL_PRESENT : Fld := ⟨KEY.ROOT_CTL, 1, 1⟩
def KEY.ROOT_CTL_GEN : Fld := ⟨KEY.ROOT_CTL, 0, 0⟩
/-- ATTEST_PUB, Table 10.19. -/
def KEY.ATTEST_PUB (i : Nat) : Nat := 0x40060100 + i * 0x4
def KEY.ATTEST_PUB_DATA (i : Nat) : Fld := ⟨(KEY.ATTEST_PUB i), 31, 0⟩
/-- WINDOW_LOCK, Table 00.4. -/
def KEY.WINDOW_LOCK : Nat := 0x40067FF8
def KEY.WINDOW_LOCK_LOCK : Fld := ⟨KEY.WINDOW_LOCK, 0, 0⟩
/-- EXPERT_UNLOCK, Table 00.5. -/
def KEY.EXPERT_UNLOCK : Nat := 0x40067FFC
def KEY.EXPERT_UNLOCK_ARMED : Fld := ⟨KEY.EXPERT_UNLOCK, 10, 10⟩
def KEY.EXPERT_UNLOCK_REJECTED : Fld := ⟨KEY.EXPERT_UNLOCK, 9, 9⟩
def KEY.EXPERT_UNLOCK_UNLOCKED : Fld := ⟨KEY.EXPERT_UNLOCK, 8, 8⟩
def KEY.EXPERT_UNLOCK_KEY : Fld := ⟨KEY.EXPERT_UNLOCK, 7, 0⟩
/-- KEY_EXP, Table 10.19. -/
def KEY.KEY_EXP : Nat := 0x40068000
def KEY.KEY_EXP_PAR_INJECT : Fld := ⟨KEY.KEY_EXP, 2, 2⟩
def KEY.KEY_EXP_CACHE_FLUSH : Fld := ⟨KEY.KEY_EXP, 1, 1⟩
def KEY.KEY_EXP_CACHE_DIS : Fld := ⟨KEY.KEY_EXP, 0, 0⟩
/-- ACC_CTL, Table 11.9. -/
def ACC.ACC_CTL : Nat := 0x40070000
def ACC.ACC_CTL_SOFT_TIMEOUT : Fld := ⟨ACC.ACC_CTL, 15, 8⟩
def ACC.ACC_CTL_RTC_WRITE : Fld := ⟨ACC.ACC_CTL, 6, 6⟩
def ACC.ACC_CTL_SOFT_LOCK : Fld := ⟨ACC.ACC_CTL, 5, 5⟩
def ACC.ACC_CTL_HOLD : Fld := ⟨ACC.ACC_CTL, 4, 4⟩
def ACC.ACC_CTL_NOSTEP : Fld := ⟨ACC.ACC_CTL, 3, 3⟩
def ACC.ACC_CTL_SRC : Fld := ⟨ACC.ACC_CTL, 2, 0⟩
/-- ACC_STATUS, Table 11.9. -/
def ACC.ACC_STATUS : Nat := 0x40070004
def ACC.ACC_STATUS_RTC_PEND : Fld := ⟨ACC.ACC_STATUS, 4, 4⟩
def ACC.ACC_STATUS_SLEWING : Fld := ⟨ACC.ACC_STATUS, 3, 3⟩
def ACC.ACC_STATUS_VALID : Fld := ⟨ACC.ACC_STATUS, 2, 2⟩
def ACC.ACC_STATUS_STATE : Fld := ⟨ACC.ACC_STATUS, 1, 0⟩
/-- TIME_NS, Table 11.10. -/
def ACC.TIME_NS : Nat := 0x40070008
def ACC.TIME_NS_NS : Fld := ⟨ACC.TIME_NS, 29, 0⟩
/-- TIME_SEC_LO, Table 11.10. -/
def ACC.TIME_SEC_LO : Nat := 0x4007000C
def ACC.TIME_SEC_LO_SEC : Fld := ⟨ACC.TIME_SEC_LO, 31, 0⟩
/-- TIME_SEC_HI, Table 11.10. -/
def ACC.TIME_SEC_HI : Nat := 0x40070010
def ACC.TIME_SEC_HI_FRAC : Fld := ⟨ACC.TIME_SEC_HI, 31, 16⟩
def ACC.TIME_SEC_HI_SEC : Fld := ⟨ACC.TIME_SEC_HI, 15, 0⟩
/-- TIME_T_LO, Table 11.10. -/
def ACC.TIME_T_LO : Nat := 0x40070014
def ACC.TIME_T_LO_T : Fld := ⟨ACC.TIME_T_LO, 31, 0⟩
/-- TIME_T_HI, Table 11.10. -/
def ACC.TIME_T_HI : Nat := 0x40070018
def ACC.TIME_T_HI_T : Fld := ⟨ACC.TIME_T_HI, 31, 0⟩
/-- LTB_LO, Table 11.11. -/
def ACC.LTB_LO : Nat := 0x4007001C
def ACC.LTB_LO_NS : Fld := ⟨ACC.LTB_LO, 31, 0⟩
/-- LTB_HI, Table 11.11. -/
def ACC.LTB_HI : Nat := 0x40070020
def ACC.LTB_HI_NS : Fld := ⟨ACC.LTB_HI, 31, 0⟩
/-- RATE_LO, Table 11.11. -/
def ACC.RATE_LO : Nat := 0x40070024
def ACC.RATE_LO_RATE : Fld := ⟨ACC.RATE_LO, 31, 0⟩
/-- RATE_HI, Table 11.11. -/
def ACC.RATE_HI : Nat := 0x40070028
def ACC.RATE_HI_RATE : Fld := ⟨ACC.RATE_HI, 7, 0⟩
/-- FREQ_LO, Table 11.11. -/
def ACC.FREQ_LO : Nat := 0x4007002C
def ACC.FREQ_LO_FREQ : Fld := ⟨ACC.FREQ_LO, 31, 0⟩
/-- FREQ_HI, Table 11.11. -/
def ACC.FREQ_HI : Nat := 0x40070030
def ACC.FREQ_HI_FREQ : Fld := ⟨ACC.FREQ_HI, 7, 0⟩
/-- STEP_LO, Table 11.12. -/
def ACC.STEP_LO : Nat := 0x40070034
def ACC.STEP_LO_VALUE : Fld := ⟨ACC.STEP_LO, 31, 0⟩
/-- STEP_HI, Table 11.12. -/
def ACC.STEP_HI : Nat := 0x40070038
def ACC.STEP_HI_VALUE : Fld := ⟨ACC.STEP_HI, 31, 0⟩
/-- STEP_CTL, Table 11.12. -/
def ACC.STEP_CTL : Nat := 0x4007003C
def ACC.STEP_CTL_ABS : Fld := ⟨ACC.STEP_CTL, 1, 1⟩
def ACC.STEP_CTL_GO : Fld := ⟨ACC.STEP_CTL, 0, 0⟩
/-- SLEW_NS, Table 11.12. -/
def ACC.SLEW_NS : Nat := 0x40070040
def ACC.SLEW_NS_NS : Fld := ⟨ACC.SLEW_NS, 31, 0⟩
/-- SLEW_CFG, Table 11.12. -/
def ACC.SLEW_CFG : Nat := 0x40070044
def ACC.SLEW_CFG_RATE_PPB : Fld := ⟨ACC.SLEW_CFG, 16, 0⟩
/-- SLEW_LEFT, Table 11.12. -/
def ACC.SLEW_LEFT : Nat := 0x40070048
def ACC.SLEW_LEFT_NS : Fld := ⟨ACC.SLEW_LEFT, 31, 0⟩
/-- SERVO_CFG, Table 11.13. -/
def ACC.SERVO_CFG : Nat := 0x4007004C
def ACC.SERVO_CFG_REJECT_MAX : Fld := ⟨ACC.SERVO_CFG, 15, 12⟩
def ACC.SERVO_CFG_LOCK_COUNT : Fld := ⟨ACC.SERVO_CFG, 11, 8⟩
def ACC.SERVO_CFG_KI_SHIFT : Fld := ⟨ACC.SERVO_CFG, 7, 4⟩
def ACC.SERVO_CFG_KP_SHIFT : Fld := ⟨ACC.SERVO_CFG, 3, 0⟩
/-- SERVO_THR, Table 11.13. -/
def ACC.SERVO_THR : Nat := 0x40070050
def ACC.SERVO_THR_OUTLIER : Fld := ⟨ACC.SERVO_THR, 31, 16⟩
def ACC.SERVO_THR_LOCK_THRESH : Fld := ⟨ACC.SERVO_THR, 15, 0⟩
/-- PARENT_PATH, Table 11.13. -/
def ACC.PARENT_PATH : Nat := 0x40070054
def ACC.PARENT_PATH_DELAY : Fld := ⟨ACC.PARENT_PATH, 31, 0⟩
/-- LAST_OFFSET, Table 11.13. -/
def ACC.LAST_OFFSET : Nat := 0x40070058
def ACC.LAST_OFFSET_NS : Fld := ⟨ACC.LAST_OFFSET, 31, 0⟩
/-- HOLD_CFG, Table 11.14. -/
def ACC.HOLD_CFG : Nat := 0x4007005C
def ACC.HOLD_CFG_WANDER : Fld := ⟨ACC.HOLD_CFG, 31, 16⟩
def ACC.HOLD_CFG_U_MIN : Fld := ⟨ACC.HOLD_CFG, 15, 0⟩
/-- HOLD_ERR, Table 11.14. -/
def ACC.HOLD_ERR : Nat := 0x40070060
def ACC.HOLD_ERR_NS : Fld := ⟨ACC.HOLD_ERR, 31, 0⟩
/-- HOLD_LIMIT, Table 11.14. -/
def ACC.HOLD_LIMIT : Nat := 0x40070064
def ACC.HOLD_LIMIT_US : Fld := ⟨ACC.HOLD_LIMIT, 23, 0⟩
/-- CLOCK, Table 11.14. -/
def ACC.CLOCK : Nat := 0x40070068
def ACC.CLOCK_HOLDOVER : Fld := ⟨ACC.CLOCK, 23, 23⟩
def ACC.CLOCK_STRATUM : Fld := ⟨ACC.CLOCK, 22, 16⟩
def ACC.CLOCK_SOFT_STRATUM : Fld := ⟨ACC.CLOCK, 14, 8⟩
def ACC.CLOCK_UTC_OFFSET : Fld := ⟨ACC.CLOCK, 7, 0⟩
/-- FREQ_DEV, Table 11.14. -/
def ACC.FREQ_DEV : Nat := 0x4007006C
def ACC.FREQ_DEV_PPB : Fld := ⟨ACC.FREQ_DEV, 31, 0⟩
/-- PPS_CFG, Table 11.15. -/
def ACC.PPS_CFG : Nat := 0x40070070
def ACC.PPS_CFG_OUT_WIDTH : Fld := ⟨ACC.PPS_CFG, 25, 16⟩
def ACC.PPS_CFG_OUT_ALWAYS : Fld := ⟨ACC.PPS_CFG, 4, 4⟩
def ACC.PPS_CFG_OUT_POL : Fld := ⟨ACC.PPS_CFG, 3, 3⟩
def ACC.PPS_CFG_OUT_EN : Fld := ⟨ACC.PPS_CFG, 2, 2⟩
def ACC.PPS_CFG_IN_POL : Fld := ⟨ACC.PPS_CFG, 1, 1⟩
def ACC.PPS_CFG_IN_EN : Fld := ⟨ACC.PPS_CFG, 0, 0⟩
/-- PPS_IN_STAMP, Table 11.15. -/
def ACC.PPS_IN_STAMP : Nat := 0x40070074
def ACC.PPS_IN_STAMP_LOSS : Fld := ⟨ACC.PPS_IN_STAMP, 31, 31⟩
def ACC.PPS_IN_STAMP_NS : Fld := ⟨ACC.PPS_IN_STAMP, 29, 0⟩
/-- PPS_IN_ADJ, Table 11.15. -/
def ACC.PPS_IN_ADJ : Nat := 0x40070078
def ACC.PPS_IN_ADJ_DELAY : Fld := ⟨ACC.PPS_IN_ADJ, 31, 0⟩
/-- PPS_OUT_ADJ, Table 11.15. -/
def ACC.PPS_OUT_ADJ : Nat := 0x4007007C
def ACC.PPS_OUT_ADJ_DELAY : Fld := ⟨ACC.PPS_OUT_ADJ, 31, 0⟩
/-- PTP_CFG, Table 11.15. -/
def ACC.PTP_CFG : Nat := 0x40070080
def ACC.PTP_CFG_ONESTEP : Fld := ⟨ACC.PTP_CFG, 1, 0⟩
/-- TRIG_CFG, Table 11.16. -/
def ACC.TRIG_CFG : Nat := 0x40070084
def ACC.TRIG_CFG_QUOTA : Fld := ⟨ACC.TRIG_CFG, 23, 16⟩
def ACC.TRIG_CFG_FREE : Fld := ⟨ACC.TRIG_CFG, 8, 0⟩
/-- TRIG_SEL, Table 11.16. -/
def ACC.TRIG_SEL : Nat := 0x40070088
def ACC.TRIG_SEL_N : Fld := ⟨ACC.TRIG_SEL, 8, 0⟩
/-- TRIG_INFO, Table 11.16. -/
def ACC.TRIG_INFO : Nat := 0x4007008C
def ACC.TRIG_INFO_ARMED : Fld := ⟨ACC.TRIG_INFO, 31, 31⟩
def ACC.TRIG_INFO_CLASS : Fld := ⟨ACC.TRIG_INFO, 30, 28⟩
def ACC.TRIG_INFO_OWNER : Fld := ⟨ACC.TRIG_INFO, 22, 16⟩
/-- TRIG_AT_LO, Table 11.16. -/
def ACC.TRIG_AT_LO : Nat := 0x40070090
def ACC.TRIG_AT_LO_T : Fld := ⟨ACC.TRIG_AT_LO, 31, 0⟩
/-- TRIG_AT_HI, Table 11.16. -/
def ACC.TRIG_AT_HI : Nat := 0x40070094
def ACC.TRIG_AT_HI_T : Fld := ⟨ACC.TRIG_AT_HI, 31, 0⟩
/-- CNT, Table 11.17. -/
def ACC.CNT (i : Nat) : Nat := 0x400700A0 + i * 0x4
def ACC.CNT_HI (i : Nat) : Fld := ⟨(ACC.CNT i), 31, 16⟩
def ACC.CNT_LO (i : Nat) : Fld := ⟨(ACC.CNT i), 15, 0⟩
/-- INGRESS, Table 11.18. -/
def ACC.INGRESS (i : Nat) : Nat := 0x40070100 + i * 0x10
def ACC.INGRESS_DELAY (i : Nat) : Fld := ⟨(ACC.INGRESS i), 31, 0⟩
/-- EGRESS, Table 11.18. -/
def ACC.EGRESS (i : Nat) : Nat := 0x40070104 + i * 0x10
def ACC.EGRESS_DELAY (i : Nat) : Fld := ⟨(ACC.EGRESS i), 31, 0⟩
/-- ASYM, Table 11.18. -/
def ACC.ASYM (i : Nat) : Nat := 0x40070108 + i * 0x10
def ACC.ASYM_DELAY (i : Nat) : Fld := ⟨(ACC.ASYM i), 31, 0⟩
/-- WINDOW_LOCK, Table 00.4. -/
def ACC.WINDOW_LOCK : Nat := 0x40077FF8
def ACC.WINDOW_LOCK_LOCK : Fld := ⟨ACC.WINDOW_LOCK, 0, 0⟩
/-- EXPERT_UNLOCK, Table 00.5. -/
def ACC.EXPERT_UNLOCK : Nat := 0x40077FFC
def ACC.EXPERT_UNLOCK_ARMED : Fld := ⟨ACC.EXPERT_UNLOCK, 10, 10⟩
def ACC.EXPERT_UNLOCK_REJECTED : Fld := ⟨ACC.EXPERT_UNLOCK, 9, 9⟩
def ACC.EXPERT_UNLOCK_UNLOCKED : Fld := ⟨ACC.EXPERT_UNLOCK, 8, 8⟩
def ACC.EXPERT_UNLOCK_KEY : Fld := ⟨ACC.EXPERT_UNLOCK, 7, 0⟩
/-- ACC_EXP, Table 11.18. -/
def ACC.ACC_EXP : Nat := 0x40078000
def ACC.ACC_EXP_ECC_INJECT : Fld := ⟨ACC.ACC_EXP, 17, 17⟩
def ACC.ACC_EXP_FORCE_HOLD : Fld := ⟨ACC.ACC_EXP, 16, 16⟩
def ACC.ACC_EXP_RATE_MAX_PPM : Fld := ⟨ACC.ACC_EXP, 9, 0⟩
/-- RTC_CTL, Table 12.5. -/
def RTC.RTC_CTL : Nat := 0x40080000
def RTC.RTC_CTL_SET : Fld := ⟨RTC.RTC_CTL, 0, 0⟩
/-- RTC_STATUS, Table 12.5. -/
def RTC.RTC_STATUS : Nat := 0x40080004
def RTC.RTC_STATUS_SET_ERR : Fld := ⟨RTC.RTC_STATUS, 11, 8⟩
def RTC.RTC_STATUS_WRAP : Fld := ⟨RTC.RTC_STATUS, 5, 5⟩
def RTC.RTC_STATUS_SET_PEND : Fld := ⟨RTC.RTC_STATUS, 4, 4⟩
def RTC.RTC_STATUS_OSC_RUN : Fld := ⟨RTC.RTC_STATUS, 3, 3⟩
def RTC.RTC_STATUS_WAS_ON_VBAT : Fld := ⟨RTC.RTC_STATUS, 2, 2⟩
def RTC.RTC_STATUS_ON_VBAT : Fld := ⟨RTC.RTC_STATUS, 1, 1⟩
def RTC.RTC_STATUS_OSF : Fld := ⟨RTC.RTC_STATUS, 0, 0⟩
/-- SET_TIME, Table 12.6. -/
def RTC.SET_TIME : Nat := 0x40080008
def RTC.SET_TIME_HOUR : Fld := ⟨RTC.SET_TIME, 20, 16⟩
def RTC.SET_TIME_MIN : Fld := ⟨RTC.SET_TIME, 13, 8⟩
def RTC.SET_TIME_SEC : Fld := ⟨RTC.SET_TIME, 5, 0⟩
/-- SET_DATE, Table 12.6. -/
def RTC.SET_DATE : Nat := 0x4008000C
def RTC.SET_DATE_YEAR : Fld := ⟨RTC.SET_DATE, 23, 16⟩
def RTC.SET_DATE_MONTH : Fld := ⟨RTC.SET_DATE, 11, 8⟩
def RTC.SET_DATE_DAY : Fld := ⟨RTC.SET_DATE, 4, 0⟩
/-- NOW_SUBSEC, Table 12.7. -/
def RTC.NOW_SUBSEC : Nat := 0x40080010
def RTC.NOW_SUBSEC_SUBSEC : Fld := ⟨RTC.NOW_SUBSEC, 14, 0⟩
/-- CAP_TIME, Table 12.8. -/
def RTC.CAP_TIME : Nat := 0x40080014
def RTC.CAP_TIME_V : Fld := ⟨RTC.CAP_TIME, 31, 0⟩
/-- CAP_DATE, Table 12.8. -/
def RTC.CAP_DATE : Nat := 0x40080018
def RTC.CAP_DATE_WDAY : Fld := ⟨RTC.CAP_DATE, 26, 24⟩
def RTC.CAP_DATE_V : Fld := ⟨RTC.CAP_DATE, 23, 0⟩
/-- CAP_ELAPSED_LO, Table 12.8. -/
def RTC.CAP_ELAPSED_LO : Nat := 0x4008001C
def RTC.CAP_ELAPSED_LO_TICKS : Fld := ⟨RTC.CAP_ELAPSED_LO, 31, 0⟩
/-- CAP_ELAPSED_HI, Table 12.8. -/
def RTC.CAP_ELAPSED_HI : Nat := 0x40080020
def RTC.CAP_ELAPSED_HI_TICKS : Fld := ⟨RTC.CAP_ELAPSED_HI, 15, 0⟩
/-- TRIM_FACTORY, Table 12.9. -/
def RTC.TRIM_FACTORY : Nat := 0x40080024
def RTC.TRIM_FACTORY_X_FACTORY : Fld := ⟨RTC.TRIM_FACTORY, 10, 0⟩
/-- TRIM_CAL, Table 12.9. -/
def RTC.TRIM_CAL : Nat := 0x40080028
def RTC.TRIM_CAL_X_USER : Fld := ⟨RTC.TRIM_CAL, 27, 16⟩
def RTC.TRIM_CAL_X_EFF : Fld := ⟨RTC.TRIM_CAL, 10, 0⟩
/-- VBAT_STAT, Table 12.10. -/
def RTC.VBAT_STAT : Nat := 0x4008002C
def RTC.VBAT_STAT_MV : Fld := ⟨RTC.VBAT_STAT, 23, 16⟩
def RTC.VBAT_STAT_REVERSED : Fld := ⟨RTC.VBAT_STAT, 2, 2⟩
def RTC.VBAT_STAT_ABSENT : Fld := ⟨RTC.VBAT_STAT, 1, 1⟩
def RTC.VBAT_STAT_LOW : Fld := ⟨RTC.VBAT_STAT, 0, 0⟩
/-- ALM_CTL, Table 12.11. -/
def RTC.ALM_CTL (i : Nat) : Nat := 0x40080040 + i * 0x10
def RTC.ALM_CTL_MISSED (i : Nat) : Fld := ⟨(RTC.ALM_CTL i), 15, 8⟩
def RTC.ALM_CTL_ERR (i : Nat) : Fld := ⟨(RTC.ALM_CTL i), 4, 4⟩
def RTC.ALM_CTL_WAKE_EN (i : Nat) : Fld := ⟨(RTC.ALM_CTL i), 3, 3⟩
def RTC.ALM_CTL_SKIPPED (i : Nat) : Fld := ⟨(RTC.ALM_CTL i), 2, 2⟩
def RTC.ALM_CTL_FIRED (i : Nat) : Fld := ⟨(RTC.ALM_CTL i), 1, 1⟩
def RTC.ALM_CTL_ARM (i : Nat) : Fld := ⟨(RTC.ALM_CTL i), 0, 0⟩
/-- ALM_TIME, Table 12.11. -/
def RTC.ALM_TIME (i : Nat) : Nat := 0x40080044 + i * 0x10
def RTC.ALM_TIME_V (i : Nat) : Fld := ⟨(RTC.ALM_TIME i), 31, 0⟩
/-- ALM_DATE, Table 12.11. -/
def RTC.ALM_DATE (i : Nat) : Nat := 0x40080048 + i * 0x10
def RTC.ALM_DATE_V (i : Nat) : Fld := ⟨(RTC.ALM_DATE i), 31, 0⟩
/-- ALM_PERIOD, Table 12.11. -/
def RTC.ALM_PERIOD (i : Nat) : Nat := 0x4008004C + i * 0x10
def RTC.ALM_PERIOD_SEC (i : Nat) : Fld := ⟨(RTC.ALM_PERIOD i), 31, 0⟩
/-- RTC_ATB_LO, Table 12.12. -/
def RTC.RTC_ATB_LO : Nat := 0x40080080
def RTC.RTC_ATB_LO_T : Fld := ⟨RTC.RTC_ATB_LO, 31, 0⟩
/-- RTC_ATB_HI, Table 12.12. -/
def RTC.RTC_ATB_HI : Nat := 0x40080084
def RTC.RTC_ATB_HI_T : Fld := ⟨RTC.RTC_ATB_HI, 31, 0⟩
/-- CNT, Table 12.12. -/
def RTC.CNT : Nat := 0x40080088
def RTC.CNT_SETS : Fld := ⟨RTC.CNT, 31, 16⟩
def RTC.CNT_SKIPS : Fld := ⟨RTC.CNT, 15, 0⟩
/-- BKP_SCRATCH, Table 12.12. -/
def RTC.BKP_SCRATCH (i : Nat) : Nat := 0x40080100 + i * 0x4
def RTC.BKP_SCRATCH_DATA (i : Nat) : Fld := ⟨(RTC.BKP_SCRATCH i), 31, 0⟩
/-- WINDOW_LOCK, Table 00.4. -/
def RTC.WINDOW_LOCK : Nat := 0x40087FF8
def RTC.WINDOW_LOCK_LOCK : Fld := ⟨RTC.WINDOW_LOCK, 0, 0⟩
/-- EXPERT_UNLOCK, Table 00.5. -/
def RTC.EXPERT_UNLOCK : Nat := 0x40087FFC
def RTC.EXPERT_UNLOCK_ARMED : Fld := ⟨RTC.EXPERT_UNLOCK, 10, 10⟩
def RTC.EXPERT_UNLOCK_REJECTED : Fld := ⟨RTC.EXPERT_UNLOCK, 9, 9⟩
def RTC.EXPERT_UNLOCK_UNLOCKED : Fld := ⟨RTC.EXPERT_UNLOCK, 8, 8⟩
def RTC.EXPERT_UNLOCK_KEY : Fld := ⟨RTC.EXPERT_UNLOCK, 7, 0⟩
/-- ALM_EXP, Table 12.13. -/
def RTC.ALM_EXP (i : Nat) : Nat := 0x40088000 + i * 0x4
def RTC.ALM_EXP_ELAPSED (i : Nat) : Fld := ⟨(RTC.ALM_EXP i), 0, 0⟩
/-- START_AT_LO, Table 02.19. -/
def SEQ.START_AT_LO : Nat := 0x40090000
def SEQ.START_AT_LO_NS : Fld := ⟨SEQ.START_AT_LO, 31, 0⟩
/-- START_AT_HI, Table 02.19. -/
def SEQ.START_AT_HI : Nat := 0x40090004
def SEQ.START_AT_HI_NS : Fld := ⟨SEQ.START_AT_HI, 31, 0⟩
/-- START_CTL, Table 02.20. -/
def SEQ.START_CTL : Nat := 0x40090008
def SEQ.START_CTL_LATE : Fld := ⟨SEQ.START_CTL, 2, 2⟩
def SEQ.START_CTL_ARMED : Fld := ⟨SEQ.START_CTL, 1, 1⟩
def SEQ.START_CTL_ARM : Fld := ⟨SEQ.START_CTL, 0, 0⟩
/-- CORE_CTL, Table 02.21. -/
def SEQ.CORE_CTL (i : Nat) : Nat := 0x40091000 + i * 0x100
def SEQ.CORE_CTL_RESET (i : Nat) : Fld := ⟨(SEQ.CORE_CTL i), 3, 3⟩
def SEQ.CORE_CTL_KILL (i : Nat) : Fld := ⟨(SEQ.CORE_CTL i), 2, 2⟩
def SEQ.CORE_CTL_HALT (i : Nat) : Fld := ⟨(SEQ.CORE_CTL i), 1, 1⟩
def SEQ.CORE_CTL_START (i : Nat) : Fld := ⟨(SEQ.CORE_CTL i), 0, 0⟩
/-- CORE_STATE, Table 02.22. -/
def SEQ.CORE_STATE (i : Nat) : Nat := 0x40091004 + i * 0x100
def SEQ.CORE_STATE_PC (i : Nat) : Fld := ⟨(SEQ.CORE_STATE i), 31, 16⟩
def SEQ.CORE_STATE_BADBIND (i : Nat) : Fld := ⟨(SEQ.CORE_STATE i), 8, 8⟩
def SEQ.CORE_STATE_FAULTED (i : Nat) : Fld := ⟨(SEQ.CORE_STATE i), 4, 4⟩
def SEQ.CORE_STATE_MARKED (i : Nat) : Fld := ⟨(SEQ.CORE_STATE i), 3, 3⟩
def SEQ.CORE_STATE_STATE (i : Nat) : Fld := ⟨(SEQ.CORE_STATE i), 1, 0⟩
/-- FAULT, Table 02.23. -/
def SEQ.FAULT (i : Nat) : Nat := 0x40091008 + i * 0x100
def SEQ.FAULT_PC (i : Nat) : Fld := ⟨(SEQ.FAULT i), 31, 16⟩
def SEQ.FAULT_INIT (i : Nat) : Fld := ⟨(SEQ.FAULT i), 15, 15⟩
def SEQ.FAULT_SLOT (i : Nat) : Fld := ⟨(SEQ.FAULT i), 11, 8⟩
def SEQ.FAULT_CAUSE (i : Nat) : Fld := ⟨(SEQ.FAULT i), 7, 0⟩
/-- FAULT_ADDR, Table 02.23. -/
def SEQ.FAULT_ADDR (i : Nat) : Nat := 0x4009100C + i * 0x100
def SEQ.FAULT_ADDR_ADDR (i : Nat) : Fld := ⟨(SEQ.FAULT_ADDR i), 31, 0⟩
/-- HBUDGET, Table 02.23. -/
def SEQ.HBUDGET (i : Nat) : Nat := 0x40091010 + i * 0x100
def SEQ.HBUDGET_CYCLES (i : Nat) : Fld := ⟨(SEQ.HBUDGET i), 31, 0⟩
/-- PEND, Table 02.24. -/
def SEQ.PEND (i : Nat) : Nat := 0x40091014 + i * 0x100
def SEQ.PEND_PEND (i : Nat) : Fld := ⟨(SEQ.PEND i), 15, 0⟩
/-- DOORBELL, Table 02.25. -/
def SEQ.DOORBELL (i : Nat) : Nat := 0x40091018 + i * 0x100
def SEQ.DOORBELL_FIRE (i : Nat) : Fld := ⟨(SEQ.DOORBELL i), 15, 0⟩
/-- CNT, Table 02.26. -/
def SEQ.CNT (i : Nat) : Nat := 0x4009101C + i * 0x100
def SEQ.CNT_MERGED (i : Nat) : Fld := ⟨(SEQ.CNT i), 31, 16⟩
def SEQ.CNT_SKIPPED (i : Nat) : Fld := ⟨(SEQ.CNT i), 15, 0⟩
/-- INIT_ENTRY, Table 02.27. -/
def SEQ.INIT_ENTRY (i : Nat) : Nat := 0x40091020 + i * 0x100
def SEQ.INIT_ENTRY_EN (i : Nat) : Fld := ⟨(SEQ.INIT_ENTRY i), 16, 16⟩
def SEQ.INIT_ENTRY_ENTRY (i : Nat) : Fld := ⟨(SEQ.INIT_ENTRY i), 15, 0⟩
/-- DOP_ERR, Table 03.14. -/
def SEQ.DOP_ERR (i : Nat) : Nat := 0x40091024 + i * 0x100
def SEQ.DOP_ERR_COUNT (i : Nat) : Fld := ⟨(SEQ.DOP_ERR i), 31, 16⟩
def SEQ.DOP_ERR_VALID (i : Nat) : Fld := ⟨(SEQ.DOP_ERR i), 15, 15⟩
def SEQ.DOP_ERR_OP (i : Nat) : Fld := ⟨(SEQ.DOP_ERR i), 11, 8⟩
def SEQ.DOP_ERR_CODE (i : Nat) : Fld := ⟨(SEQ.DOP_ERR i), 7, 0⟩
/-- DOP_STATE, Table 03.15. -/
def SEQ.DOP_STATE (i : Nat) : Nat := 0x40091028 + i * 0x100
def SEQ.DOP_STATE_QBUSY (i : Nat) : Fld := ⟨(SEQ.DOP_STATE i), 24, 24⟩
def SEQ.DOP_STATE_QOP (i : Nat) : Fld := ⟨(SEQ.DOP_STATE i), 19, 16⟩
def SEQ.DOP_STATE_POSTED (i : Nat) : Fld := ⟨(SEQ.DOP_STATE i), 2, 0⟩
/-- XSEG_INIT, Table 02.34. -/
def SEQ.XSEG_INIT (i : Nat) : Nat := 0x4009102C + i * 0x100
def SEQ.XSEG_INIT_XSEG (i : Nat) : Fld := ⟨(SEQ.XSEG_INIT i), 7, 0⟩
/-- BIND, Table 02.28. -/
def SEQ.BIND (i j : Nat) : Nat := 0x40091040 + i * 0x100 + j * 0x4
def SEQ.BIND_EN (i j : Nat) : Fld := ⟨(SEQ.BIND i j), 31, 31⟩
def SEQ.BIND_KIND (i j : Nat) : Fld := ⟨(SEQ.BIND i j), 30, 28⟩
def SEQ.BIND_SOURCE (i j : Nat) : Fld := ⟨(SEQ.BIND i j), 23, 16⟩
def SEQ.BIND_ENTRY (i j : Nat) : Fld := ⟨(SEQ.BIND i j), 15, 0⟩
/-- WINDOW_LOCK, Table 00.4. -/
def SEQ.WINDOW_LOCK : Nat := 0x40097FF8
def SEQ.WINDOW_LOCK_LOCK : Fld := ⟨SEQ.WINDOW_LOCK, 0, 0⟩
/-- EXPERT_UNLOCK, Table 00.5. -/
def SEQ.EXPERT_UNLOCK : Nat := 0x40097FFC
def SEQ.EXPERT_UNLOCK_ARMED : Fld := ⟨SEQ.EXPERT_UNLOCK, 10, 10⟩
def SEQ.EXPERT_UNLOCK_REJECTED : Fld := ⟨SEQ.EXPERT_UNLOCK, 9, 9⟩
def SEQ.EXPERT_UNLOCK_UNLOCKED : Fld := ⟨SEQ.EXPERT_UNLOCK, 8, 8⟩
def SEQ.EXPERT_UNLOCK_KEY : Fld := ⟨SEQ.EXPERT_UNLOCK, 7, 0⟩
/-- CORE_EXP, Table 02.29. -/
def SEQ.CORE_EXP (i : Nat) : Nat := 0x40099000 + i * 0x100
def SEQ.CORE_EXP_STEP (i : Nat) : Fld := ⟨(SEQ.CORE_EXP i), 2, 2⟩
def SEQ.CORE_EXP_BERR_NOFAULT (i : Nat) : Fld := ⟨(SEQ.CORE_EXP i), 1, 1⟩
def SEQ.CORE_EXP_FAULT_SKIP (i : Nat) : Fld := ⟨(SEQ.CORE_EXP i), 0, 0⟩
/-- HBUDGET, Table 02.18. -/
def MGT.HBUDGET : Nat := 0x400A0010
def MGT.HBUDGET_CYCLES : Fld := ⟨MGT.HBUDGET, 31, 0⟩
/-- PEND, Table 02.18. -/
def MGT.PEND : Nat := 0x400A0014
def MGT.PEND_PEND : Fld := ⟨MGT.PEND, 15, 0⟩
/-- DOORBELL, Table 02.18. -/
def MGT.DOORBELL : Nat := 0x400A0018
def MGT.DOORBELL_FIRE : Fld := ⟨MGT.DOORBELL, 15, 0⟩
/-- CNT, Table 02.18. -/
def MGT.CNT : Nat := 0x400A001C
def MGT.CNT_MERGED : Fld := ⟨MGT.CNT, 31, 16⟩
def MGT.CNT_SKIPPED : Fld := ⟨MGT.CNT, 15, 0⟩
/-- BIND, Table 02.18. -/
def MGT.BIND (i : Nat) : Nat := 0x400A0040 + i * 0x4
def MGT.BIND_EN (i : Nat) : Fld := ⟨(MGT.BIND i), 31, 31⟩
def MGT.BIND_KIND (i : Nat) : Fld := ⟨(MGT.BIND i), 30, 28⟩
def MGT.BIND_SOURCE (i : Nat) : Fld := ⟨(MGT.BIND i), 23, 16⟩
def MGT.BIND_ENTRY (i : Nat) : Fld := ⟨(MGT.BIND i), 15, 0⟩
/-- WINDOW_LOCK, Table 00.4. -/
def MGT.WINDOW_LOCK : Nat := 0x400A7FF8
def MGT.WINDOW_LOCK_LOCK : Fld := ⟨MGT.WINDOW_LOCK, 0, 0⟩
/-- EXPERT_UNLOCK, Table 00.5. -/
def MGT.EXPERT_UNLOCK : Nat := 0x400A7FFC
def MGT.EXPERT_UNLOCK_ARMED : Fld := ⟨MGT.EXPERT_UNLOCK, 10, 10⟩
def MGT.EXPERT_UNLOCK_REJECTED : Fld := ⟨MGT.EXPERT_UNLOCK, 9, 9⟩
def MGT.EXPERT_UNLOCK_UNLOCKED : Fld := ⟨MGT.EXPERT_UNLOCK, 8, 8⟩
def MGT.EXPERT_UNLOCK_KEY : Fld := ⟨MGT.EXPERT_UNLOCK, 7, 0⟩
/-- HIF_WIN, Table 18.9. -/
def HIF.HIF_WIN : Nat := 0x400B0000
def HIF.HIF_WIN_BASE : Fld := ⟨HIF.HIF_WIN, 4, 0⟩
/-- HIF_RINGS_IN_LO, Table 18.9. -/
def HIF.HIF_RINGS_IN_LO : Nat := 0x400B0004
def HIF.HIF_RINGS_IN_LO_MASK : Fld := ⟨HIF.HIF_RINGS_IN_LO, 31, 0⟩
/-- HIF_RINGS_IN_HI, Table 18.9. -/
def HIF.HIF_RINGS_IN_HI : Nat := 0x400B0008
def HIF.HIF_RINGS_IN_HI_MASK : Fld := ⟨HIF.HIF_RINGS_IN_HI, 31, 0⟩
/-- HIF_RINGS_OUT_LO, Table 18.9. -/
def HIF.HIF_RINGS_OUT_LO : Nat := 0x400B000C
def HIF.HIF_RINGS_OUT_LO_MASK : Fld := ⟨HIF.HIF_RINGS_OUT_LO, 31, 0⟩
/-- HIF_RINGS_OUT_HI, Table 18.9. -/
def HIF.HIF_RINGS_OUT_HI : Nat := 0x400B0010
def HIF.HIF_RINGS_OUT_HI_MASK : Fld := ⟨HIF.HIF_RINGS_OUT_HI, 31, 0⟩
/-- ATTN_MASK_LO, Table 18.9. -/
def HIF.ATTN_MASK_LO : Nat := 0x400B0014
def HIF.ATTN_MASK_LO_MASK : Fld := ⟨HIF.ATTN_MASK_LO, 31, 0⟩
/-- ATTN_MASK_HI, Table 18.9. -/
def HIF.ATTN_MASK_HI : Nat := 0x400B0018
def HIF.ATTN_MASK_HI_MASK : Fld := ⟨HIF.ATTN_MASK_HI, 31, 0⟩
/-- HIF_ATTN, Table 18.10. -/
def HIF.HIF_ATTN : Nat := 0x400B0020
def HIF.HIF_ATTN_RECOVERY : Fld := ⟨HIF.HIF_ATTN, 3, 3⟩
def HIF.HIF_ATTN_SW : Fld := ⟨HIF.HIF_ATTN, 2, 2⟩
def HIF.HIF_ATTN_EVT : Fld := ⟨HIF.HIF_ATTN, 1, 1⟩
def HIF.HIF_ATTN_RING : Fld := ⟨HIF.HIF_ATTN, 0, 0⟩
/-- HIF_ATTN_SET, Table 18.10. -/
def HIF.HIF_ATTN_SET : Nat := 0x400B0024
def HIF.HIF_ATTN_SET_SW : Fld := ⟨HIF.HIF_ATTN_SET, 2, 2⟩
/-- HIF_FREE, Table 18.10. -/
def HIF.HIF_FREE : Nat := 0x400B0028
def HIF.HIF_FREE_BUF : Fld := ⟨HIF.HIF_FREE, 13, 0⟩
/-- HIF_CNT, Table 18.10. -/
def HIF.HIF_CNT : Nat := 0x400B002C
def HIF.HIF_CNT_CRC_ERR : Fld := ⟨HIF.HIF_CNT, 31, 24⟩
def HIF.HIF_CNT_ABORT : Fld := ⟨HIF.HIF_CNT, 23, 16⟩
def HIF.HIF_CNT_RETURNED : Fld := ⟨HIF.HIF_CNT, 15, 8⟩
def HIF.HIF_CNT_BADCMD : Fld := ⟨HIF.HIF_CNT, 7, 0⟩
/-- WINDOW_LOCK, Table 00.4. -/
def HIF.WINDOW_LOCK : Nat := 0x400B7FF8
def HIF.WINDOW_LOCK_LOCK : Fld := ⟨HIF.WINDOW_LOCK, 0, 0⟩
/-- EXPERT_UNLOCK, Table 00.5. -/
def HIF.EXPERT_UNLOCK : Nat := 0x400B7FFC
def HIF.EXPERT_UNLOCK_ARMED : Fld := ⟨HIF.EXPERT_UNLOCK, 10, 10⟩
def HIF.EXPERT_UNLOCK_REJECTED : Fld := ⟨HIF.EXPERT_UNLOCK, 9, 9⟩
def HIF.EXPERT_UNLOCK_UNLOCKED : Fld := ⟨HIF.EXPERT_UNLOCK, 8, 8⟩
def HIF.EXPERT_UNLOCK_KEY : Fld := ⟨HIF.EXPERT_UNLOCK, 7, 0⟩
/-- ETH_CTL, Table 18.11. -/
def ETH.ETH_CTL : Nat := 0x400C0000
def ETH.ETH_CTL_MODEREJ : Fld := ⟨ETH.ETH_CTL, 10, 10⟩
def ETH.ETH_CTL_DRAINED : Fld := ⟨ETH.ETH_CTL, 9, 8⟩
def ETH.ETH_CTL_EN : Fld := ⟨ETH.ETH_CTL, 1, 0⟩
/-- MDIO_CMD, Table 18.11. -/
def ETH.MDIO_CMD : Nat := 0x400C0010
def ETH.MDIO_CMD_BUSY : Fld := ⟨ETH.MDIO_CMD, 31, 31⟩
def ETH.MDIO_CMD_NOACK : Fld := ⟨ETH.MDIO_CMD, 30, 30⟩
def ETH.MDIO_CMD_GO : Fld := ⟨ETH.MDIO_CMD, 29, 29⟩
def ETH.MDIO_CMD_CL45 : Fld := ⟨ETH.MDIO_CMD, 28, 28⟩
def ETH.MDIO_CMD_OP : Fld := ⟨ETH.MDIO_CMD, 27, 26⟩
def ETH.MDIO_CMD_DIV : Fld := ⟨ETH.MDIO_CMD, 25, 18⟩
def ETH.MDIO_CMD_PHYAD : Fld := ⟨ETH.MDIO_CMD, 14, 10⟩
def ETH.MDIO_CMD_REGAD : Fld := ⟨ETH.MDIO_CMD, 9, 5⟩
/-- MDIO_DATA, Table 18.11. -/
def ETH.MDIO_DATA : Nat := 0x400C0014
def ETH.MDIO_DATA_DATA : Fld := ⟨ETH.MDIO_DATA, 15, 0⟩
/-- RULE, Table 18.12. -/
def ETH.RULE (i : Nat) : Nat := 0x400C0100 + i * 0x8
def ETH.RULE_PORTS (i : Nat) : Fld := ⟨(ETH.RULE i), 31, 30⟩
def ETH.RULE_RING (i : Nat) : Fld := ⟨(ETH.RULE i), 21, 16⟩
def ETH.RULE_ETYPE (i : Nat) : Fld := ⟨(ETH.RULE i), 15, 0⟩
/-- RULE_UDP, Table 18.12. -/
def ETH.RULE_UDP (i : Nat) : Nat := 0x400C0104 + i * 0x8
def ETH.RULE_UDP_PORT (i : Nat) : Fld := ⟨(ETH.RULE_UDP i), 15, 0⟩
/-- PORT_CFG, Table 18.13. -/
def ETH.PORT_CFG (i : Nat) : Nat := 0x400C1000 + i * 0x100
def ETH.PORT_CFG_MODE (i : Nat) : Fld := ⟨(ETH.PORT_CFG i), 31, 31⟩
def ETH.PORT_CFG_PAUSE_EN (i : Nat) : Fld := ⟨(ETH.PORT_CFG i), 30, 30⟩
def ETH.PORT_CFG_MC_ALL (i : Nat) : Fld := ⟨(ETH.PORT_CFG i), 29, 29⟩
def ETH.PORT_CFG_MAX_LEN (i : Nat) : Fld := ⟨(ETH.PORT_CFG i), 27, 14⟩
def ETH.PORT_CFG_TX_RING (i : Nat) : Fld := ⟨(ETH.PORT_CFG i), 11, 6⟩
def ETH.PORT_CFG_RX_RING (i : Nat) : Fld := ⟨(ETH.PORT_CFG i), 5, 0⟩
/-- PORT_STATUS, Table 18.13. -/
def ETH.PORT_STATUS (i : Nat) : Nat := 0x400C1004 + i * 0x100
def ETH.PORT_STATUS_SPEEDERR (i : Nat) : Fld := ⟨(ETH.PORT_STATUS i), 2, 2⟩
def ETH.PORT_STATUS_PAUSED (i : Nat) : Fld := ⟨(ETH.PORT_STATUS i), 1, 1⟩
def ETH.PORT_STATUS_LINK (i : Nat) : Fld := ⟨(ETH.PORT_STATUS i), 0, 0⟩
/-- SA_LO, Table 18.13. -/
def ETH.SA_LO (i : Nat) : Nat := 0x400C1008 + i * 0x100
def ETH.SA_LO_ADDR (i : Nat) : Fld := ⟨(ETH.SA_LO i), 31, 0⟩
/-- SA_HI, Table 18.13. -/
def ETH.SA_HI (i : Nat) : Nat := 0x400C100C + i * 0x100
def ETH.SA_HI_ADDR (i : Nat) : Fld := ⟨(ETH.SA_HI i), 15, 0⟩
/-- CNT_RX, Table 18.13. -/
def ETH.CNT_RX (i : Nat) : Nat := 0x400C1010 + i * 0x100
def ETH.CNT_RX_FRAMES (i : Nat) : Fld := ⟨(ETH.CNT_RX i), 31, 16⟩
def ETH.CNT_RX_DROP (i : Nat) : Fld := ⟨(ETH.CNT_RX i), 15, 0⟩
/-- CNT_TX, Table 18.13. -/
def ETH.CNT_TX (i : Nat) : Nat := 0x400C1014 + i * 0x100
def ETH.CNT_TX_FRAMES (i : Nat) : Fld := ⟨(ETH.CNT_TX i), 31, 16⟩
def ETH.CNT_TX_TX_DROP (i : Nat) : Fld := ⟨(ETH.CNT_TX i), 15, 0⟩
/-- WINDOW_LOCK, Table 00.4. -/
def ETH.WINDOW_LOCK : Nat := 0x400C7FF8
def ETH.WINDOW_LOCK_LOCK : Fld := ⟨ETH.WINDOW_LOCK, 0, 0⟩
/-- EXPERT_UNLOCK, Table 00.5. -/
def ETH.EXPERT_UNLOCK : Nat := 0x400C7FFC
def ETH.EXPERT_UNLOCK_ARMED : Fld := ⟨ETH.EXPERT_UNLOCK, 10, 10⟩
def ETH.EXPERT_UNLOCK_REJECTED : Fld := ⟨ETH.EXPERT_UNLOCK, 9, 9⟩
def ETH.EXPERT_UNLOCK_UNLOCKED : Fld := ⟨ETH.EXPERT_UNLOCK, 8, 8⟩
def ETH.EXPERT_UNLOCK_KEY : Fld := ⟨ETH.EXPERT_UNLOCK, 7, 0⟩
/-- DDR_CTL, Table 18.14. -/
def DDR.DDR_CTL : Nat := 0x400D0000
def DDR.DDR_CTL_SR_AUTO : Fld := ⟨DDR.DDR_CTL, 2, 2⟩
def DDR.DDR_CTL_SR : Fld := ⟨DDR.DDR_CTL, 1, 1⟩
def DDR.DDR_CTL_INIT : Fld := ⟨DDR.DDR_CTL, 0, 0⟩
/-- DDR_CFG, Table 18.14. -/
def DDR.DDR_CFG : Nat := 0x400D0004
def DDR.DDR_CFG_SR_IDLE : Fld := ⟨DDR.DDR_CFG, 31, 16⟩
def DDR.DDR_CFG_ECC : Fld := ⟨DDR.DDR_CFG, 8, 8⟩
def DDR.DDR_CFG_SIZE : Fld := ⟨DDR.DDR_CFG, 5, 4⟩
def DDR.DDR_CFG_RATE : Fld := ⟨DDR.DDR_CFG, 2, 0⟩
/-- DDR_STATUS, Table 18.14. -/
def DDR.DDR_STATUS : Nat := 0x400D0008
def DDR.DDR_STATUS_STEP : Fld := ⟨DDR.DDR_STATUS, 11, 8⟩
def DDR.DDR_STATUS_SELFREF : Fld := ⟨DDR.DDR_STATUS, 4, 4⟩
def DDR.DDR_STATUS_KEPT : Fld := ⟨DDR.DDR_STATUS, 3, 3⟩
def DDR.DDR_STATUS_STATE : Fld := ⟨DDR.DDR_STATUS, 2, 0⟩
/-- DDR_LOG_LO, Table 18.15. -/
def DDR.DDR_LOG_LO : Nat := 0x400D000C
def DDR.DDR_LOG_LO_ADDR : Fld := ⟨DDR.DDR_LOG_LO, 31, 0⟩
/-- DDR_LOG_HI, Table 18.15. -/
def DDR.DDR_LOG_HI : Nat := 0x400D0010
def DDR.DDR_LOG_HI_VALID : Fld := ⟨DDR.DDR_LOG_HI, 31, 31⟩
def DDR.DDR_LOG_HI_ADDR : Fld := ⟨DDR.DDR_LOG_HI, 3, 0⟩
/-- DDR_CNT, Table 18.15. -/
def DDR.DDR_CNT : Nat := 0x400D0014
def DDR.DDR_CNT_FIXED : Fld := ⟨DDR.DDR_CNT, 31, 16⟩
def DDR.DDR_CNT_UNCORR : Fld := ⟨DDR.DDR_CNT, 15, 8⟩
def DDR.DDR_CNT_NOTREADY : Fld := ⟨DDR.DDR_CNT, 7, 0⟩
/-- WINDOW_LOCK, Table 00.4. -/
def DDR.WINDOW_LOCK : Nat := 0x400D7FF8
def DDR.WINDOW_LOCK_LOCK : Fld := ⟨DDR.WINDOW_LOCK, 0, 0⟩
/-- EXPERT_UNLOCK, Table 00.5. -/
def DDR.EXPERT_UNLOCK : Nat := 0x400D7FFC
def DDR.EXPERT_UNLOCK_ARMED : Fld := ⟨DDR.EXPERT_UNLOCK, 10, 10⟩
def DDR.EXPERT_UNLOCK_REJECTED : Fld := ⟨DDR.EXPERT_UNLOCK, 9, 9⟩
def DDR.EXPERT_UNLOCK_UNLOCKED : Fld := ⟨DDR.EXPERT_UNLOCK, 8, 8⟩
def DDR.EXPERT_UNLOCK_KEY : Fld := ⟨DDR.EXPERT_UNLOCK, 7, 0⟩
/-- DDR_EXP, Table 18.15. -/
def DDR.DDR_EXP : Nat := 0x400D8000
def DDR.DDR_EXP_COLD : Fld := ⟨DDR.DDR_EXP, 1, 1⟩
def DDR.DDR_EXP_ECC_INJECT : Fld := ⟨DDR.DDR_EXP, 0, 0⟩
/-- TWN_CTL, Table 16.9. -/
def TWN.TWN_CTL : Nat := 0x400E0000
def TWN.TWN_CTL_IMG_PUSH : Fld := ⟨TWN.TWN_CTL, 4, 4⟩
def TWN.TWN_CTL_HANDOVER : Fld := ⟨TWN.TWN_CTL, 3, 3⟩
def TWN.TWN_CTL_RESTORE : Fld := ⟨TWN.TWN_CTL, 2, 2⟩
def TWN.TWN_CTL_EN : Fld := ⟨TWN.TWN_CTL, 0, 0⟩
/-- TWN_STATE, Table 16.9. -/
def TWN.TWN_STATE : Nat := 0x400E0004
def TWN.TWN_STATE_PEER_UP : Fld := ⟨TWN.TWN_STATE, 7, 7⟩
def TWN.TWN_STATE_TLOCK : Fld := ⟨TWN.TWN_STATE, 6, 6⟩
def TWN.TWN_STATE_RESTORED : Fld := ⟨TWN.TWN_STATE, 5, 5⟩
def TWN.TWN_STATE_PEER_ROLE : Fld := ⟨TWN.TWN_STATE, 4, 3⟩
def TWN.TWN_STATE_ROLE : Fld := ⟨TWN.TWN_STATE, 2, 0⟩
/-- TWN_CFG, Table 16.10. -/
def TWN.TWN_CFG : Nat := 0x400E0008
def TWN.TWN_CFG_JOIN_WAIT : Fld := ⟨TWN.TWN_CFG, 23, 16⟩
def TWN.TWN_CFG_HB_TOL : Fld := ⟨TWN.TWN_CFG, 15, 8⟩
def TWN.TWN_CFG_LINKDOWN_TAKE : Fld := ⟨TWN.TWN_CFG, 1, 1⟩
def TWN.TWN_CFG_PRIMARY : Fld := ⟨TWN.TWN_CFG, 0, 0⟩
/-- HB_KICK, Table 16.10. -/
def TWN.HB_KICK : Nat := 0x400E000C
def TWN.HB_KICK_KICK : Fld := ⟨TWN.HB_KICK, 31, 0⟩
/-- ROLE_EPOCH, Table 16.10. -/
def TWN.ROLE_EPOCH : Nat := 0x400E0010
def TWN.ROLE_EPOCH_EPOCH : Fld := ⟨TWN.ROLE_EPOCH, 31, 0⟩
/-- CABLE, Table 16.10. -/
def TWN.CABLE : Nat := 0x400E0014
def TWN.CABLE_DELAY : Fld := ⟨TWN.CABLE, 31, 0⟩
/-- CKPT_CFG, Table 16.11. -/
def TWN.CKPT_CFG : Nat := 0x400E0020
def TWN.CKPT_CFG_BASE_RATE : Fld := ⟨TWN.CKPT_CFG, 31, 24⟩
def TWN.CKPT_CFG_RING : Fld := ⟨TWN.CKPT_CFG, 21, 16⟩
def TWN.CKPT_CFG_PERIOD_MS : Fld := ⟨TWN.CKPT_CFG, 15, 0⟩
/-- CKPT_STATUS, Table 16.11. -/
def TWN.CKPT_STATUS : Nat := 0x400E0024
def TWN.CKPT_STATUS_APPLIED : Fld := ⟨TWN.CKPT_STATUS, 31, 8⟩
def TWN.CKPT_STATUS_IMG_ERR : Fld := ⟨TWN.CKPT_STATUS, 3, 3⟩
def TWN.CKPT_STATUS_HO_ERR : Fld := ⟨TWN.CKPT_STATUS, 2, 2⟩
def TWN.CKPT_STATUS_BUSY : Fld := ⟨TWN.CKPT_STATUS, 1, 1⟩
def TWN.CKPT_STATUS_SYNC : Fld := ⟨TWN.CKPT_STATUS, 0, 0⟩
/-- CKPT_BASE_LO, Table 16.11. -/
def TWN.CKPT_BASE_LO : Nat := 0x400E0028
def TWN.CKPT_BASE_LO_ADDR : Fld := ⟨TWN.CKPT_BASE_LO, 31, 0⟩
/-- CKPT_BASE_HI, Table 16.11. -/
def TWN.CKPT_BASE_HI : Nat := 0x400E002C
def TWN.CKPT_BASE_HI_ADDR : Fld := ⟨TWN.CKPT_BASE_HI, 3, 0⟩
/-- FC_JUMP, Table 16.11. -/
def TWN.FC_JUMP : Nat := 0x400E0030
def TWN.FC_JUMP_VALUE : Fld := ⟨TWN.FC_JUMP, 31, 0⟩
/-- HO_AT_LO, Table 16.12. -/
def TWN.HO_AT_LO : Nat := 0x400E0034
def TWN.HO_AT_LO_T : Fld := ⟨TWN.HO_AT_LO, 31, 0⟩
/-- HO_AT_HI, Table 16.12. -/
def TWN.HO_AT_HI : Nat := 0x400E0038
def TWN.HO_AT_HI_T : Fld := ⟨TWN.HO_AT_HI, 31, 0⟩
/-- PEER_IMG, Table 16.12. -/
def TWN.PEER_IMG : Nat := 0x400E003C
def TWN.PEER_IMG_VER : Fld := ⟨TWN.PEER_IMG, 31, 0⟩
/-- CNT, Table 16.13. -/
def TWN.CNT (i : Nat) : Nat := 0x400E0040 + i * 0x4
def TWN.CNT_HI (i : Nat) : Fld := ⟨(TWN.CNT i), 31, 16⟩
def TWN.CNT_LO (i : Nat) : Fld := ⟨(TWN.CNT i), 15, 0⟩
/-- LINK_CTL, Table 18.16. -/
def TWN.LINK_CTL : Nat := 0x400E0100
def TWN.LINK_CTL_EN : Fld := ⟨TWN.LINK_CTL, 0, 0⟩
/-- LINK_STATUS, Table 18.16. -/
def TWN.LINK_STATUS : Nat := 0x400E0104
def TWN.LINK_STATUS_SYNC : Fld := ⟨TWN.LINK_STATUS, 0, 0⟩
/-- LINK_RINGS, Table 18.16. -/
def TWN.LINK_RINGS : Nat := 0x400E0108
def TWN.LINK_RINGS_RX : Fld := ⟨TWN.LINK_RINGS, 13, 8⟩
def TWN.LINK_RINGS_TX : Fld := ⟨TWN.LINK_RINGS, 5, 0⟩
/-- LINK_CNT, Table 18.16. -/
def TWN.LINK_CNT : Nat := 0x400E010C
def TWN.LINK_CNT_SYNC_LOST : Fld := ⟨TWN.LINK_CNT, 31, 16⟩
def TWN.LINK_CNT_DATA_DROP : Fld := ⟨TWN.LINK_CNT, 15, 0⟩
/-- WINDOW_LOCK, Table 00.4. -/
def TWN.WINDOW_LOCK : Nat := 0x400E7FF8
def TWN.WINDOW_LOCK_LOCK : Fld := ⟨TWN.WINDOW_LOCK, 0, 0⟩
/-- EXPERT_UNLOCK, Table 00.5. -/
def TWN.EXPERT_UNLOCK : Nat := 0x400E7FFC
def TWN.EXPERT_UNLOCK_ARMED : Fld := ⟨TWN.EXPERT_UNLOCK, 10, 10⟩
def TWN.EXPERT_UNLOCK_REJECTED : Fld := ⟨TWN.EXPERT_UNLOCK, 9, 9⟩
def TWN.EXPERT_UNLOCK_UNLOCKED : Fld := ⟨TWN.EXPERT_UNLOCK, 8, 8⟩
def TWN.EXPERT_UNLOCK_KEY : Fld := ⟨TWN.EXPERT_UNLOCK, 7, 0⟩
/-- TWN_EXP, Table 16.13. -/
def TWN.TWN_EXP : Nat := 0x400E8000
def TWN.TWN_EXP_HB_SUPPRESS : Fld := ⟨TWN.TWN_EXP, 1, 1⟩
def TWN.TWN_EXP_CK_HOLD : Fld := ⟨TWN.TWN_EXP, 0, 0⟩
/-- PD_STATE_LO, Table 13.10. -/
def PLT.PD_STATE_LO : Nat := 0x400F0000
def PLT.PD_STATE_LO_STATE : Fld := ⟨PLT.PD_STATE_LO, 31, 0⟩
/-- PD_STATE_HI, Table 13.10. -/
def PLT.PD_STATE_HI : Nat := 0x400F0004
def PLT.PD_STATE_HI_STATE : Fld := ⟨PLT.PD_STATE_HI, 9, 0⟩
/-- PD_BUSY, Table 13.10. -/
def PLT.PD_BUSY : Nat := 0x400F0008
def PLT.PD_BUSY_BUSY : Fld := ⟨PLT.PD_BUSY, 20, 0⟩
/-- DD_KEEP, Table 13.11. -/
def PLT.DD_KEEP : Nat := 0x400F0010
def PLT.DD_KEEP_KEEP : Fld := ⟨PLT.DD_KEEP, 20, 0⟩
/-- DD_RETAIN, Table 13.11. -/
def PLT.DD_RETAIN : Nat := 0x400F0014
def PLT.DD_RETAIN_RETAIN : Fld := ⟨PLT.DD_RETAIN, 20, 0⟩
/-- DD_CTL, Table 13.11. -/
def PLT.DD_CTL : Nat := 0x400F0018
def PLT.DD_CTL_STATE : Fld := ⟨PLT.DD_CTL, 3, 2⟩
def PLT.DD_CTL_GO : Fld := ⟨PLT.DD_CTL, 0, 0⟩
/-- DD_STATUS, Table 13.12. -/
def PLT.DD_STATUS : Nat := 0x400F001C
def PLT.DD_STATUS_ABORT : Fld := ⟨PLT.DD_STATUS, 31, 31⟩
def PLT.DD_STATUS_CAUSE : Fld := ⟨PLT.DD_STATUS, 18, 16⟩
def PLT.DD_STATUS_DOM : Fld := ⟨PLT.DD_STATUS, 12, 8⟩
def PLT.DD_STATUS_LAST : Fld := ⟨PLT.DD_STATUS, 4, 0⟩
/-- WAKE_EN, Table 13.13. -/
def PLT.WAKE_EN : Nat := 0x400F0020
def PLT.WAKE_EN_EN : Fld := ⟨PLT.WAKE_EN, 6, 0⟩
/-- WAKE_EV, Table 13.13. -/
def PLT.WAKE_EV (i : Nat) : Nat := 0x400F0024 + i * 0x4
def PLT.WAKE_EV_MASK (i : Nat) : Fld := ⟨(PLT.WAKE_EV i), 31, 0⟩
/-- WAKE_SRC, Table 13.14. -/
def PLT.WAKE_SRC : Nat := 0x400F0030
def PLT.WAKE_SRC_EVENT : Fld := ⟨PLT.WAKE_SRC, 14, 8⟩
def PLT.WAKE_SRC_SRC : Fld := ⟨PLT.WAKE_SRC, 6, 0⟩
/-- WAKE_DOMS, Table 13.14. -/
def PLT.WAKE_DOMS : Nat := 0x400F0034
def PLT.WAKE_DOMS_DOMS : Fld := ⟨PLT.WAKE_DOMS, 20, 0⟩
/-- WAKE_PEND, Table 13.14. -/
def PLT.WAKE_PEND : Nat := 0x400F0038
def PLT.WAKE_PEND_EDGE : Fld := ⟨PLT.WAKE_PEND, 0, 0⟩
/-- RST_CAUSE, Table 13.15. -/
def PLT.RST_CAUSE : Nat := 0x400F0040
def PLT.RST_CAUSE_CAUSE : Fld := ⟨PLT.RST_CAUSE, 8, 0⟩
/-- RST_CTL, Table 13.15. -/
def PLT.RST_CTL : Nat := 0x400F0044
def PLT.RST_CTL_DOMAIN : Fld := ⟨PLT.RST_CTL, 12, 8⟩
def PLT.RST_CTL_DOM : Fld := ⟨PLT.RST_CTL, 2, 2⟩
def PLT.RST_CTL_CORE : Fld := ⟨PLT.RST_CTL, 1, 1⟩
def PLT.RST_CTL_CHIP : Fld := ⟨PLT.RST_CTL, 0, 0⟩
/-- WDOG_CTL, Table 13.15. -/
def PLT.WDOG_CTL : Nat := 0x400F0048
def PLT.WDOG_CTL_EN : Fld := ⟨PLT.WDOG_CTL, 16, 16⟩
def PLT.WDOG_CTL_TIMEOUT : Fld := ⟨PLT.WDOG_CTL, 15, 0⟩
/-- WDOG_KICK, Table 13.15. -/
def PLT.WDOG_KICK : Nat := 0x400F004C
def PLT.WDOG_KICK_KICK : Fld := ⟨PLT.WDOG_KICK, 31, 0⟩
/-- SUPPLY_STATUS, Table 13.16. -/
def PLT.SUPPLY_STATUS : Nat := 0x400F0050
def PLT.SUPPLY_STATUS_FAULT : Fld := ⟨PLT.SUPPLY_STATUS, 7, 0⟩
/-- SUPPLY_LOG, Table 13.16. -/
def PLT.SUPPLY_LOG : Nat := 0x400F0054
def PLT.SUPPLY_LOG_FAULT : Fld := ⟨PLT.SUPPLY_LOG, 7, 0⟩
/-- OFF_LOG, Table 13.17. -/
def PLT.OFF_LOG : Nat := 0x400F0058
def PLT.OFF_LOG_VALID : Fld := ⟨PLT.OFF_LOG, 31, 31⟩
def PLT.OFF_LOG_MASTER : Fld := ⟨PLT.OFF_LOG, 20, 14⟩
def PLT.OFF_LOG_AUTO : Fld := ⟨PLT.OFF_LOG, 13, 13⟩
def PLT.OFF_LOG_WRITE : Fld := ⟨PLT.OFF_LOG, 12, 12⟩
def PLT.OFF_LOG_DOMAIN : Fld := ⟨PLT.OFF_LOG, 4, 0⟩
/-- OFF_ADDR_LO, Table 13.17. -/
def PLT.OFF_ADDR_LO : Nat := 0x400F005C
def PLT.OFF_ADDR_LO_ADDR : Fld := ⟨PLT.OFF_ADDR_LO, 31, 0⟩
/-- OFF_ADDR_HI, Table 13.17. -/
def PLT.OFF_ADDR_HI : Nat := 0x400F0060
def PLT.OFF_ADDR_HI_ADDR : Fld := ⟨PLT.OFF_ADDR_HI, 3, 0⟩
/-- PAD_RET, Table 13.16. -/
def PLT.PAD_RET : Nat := 0x400F0064
def PLT.PAD_RET_REL_H : Fld := ⟨PLT.PAD_RET, 3, 3⟩
def PLT.PAD_RET_REL_ANT : Fld := ⟨PLT.PAD_RET, 2, 2⟩
def PLT.PAD_RET_HOLD_H : Fld := ⟨PLT.PAD_RET, 1, 1⟩
def PLT.PAD_RET_HOLD_ANT : Fld := ⟨PLT.PAD_RET, 0, 0⟩
/-- PD_VOTE, Table 13.18. -/
def PLT.PD_VOTE (i : Nat) : Nat := 0x400F0100 + i * 0x4
def PLT.PD_VOTE_AUTO (i : Nat) : Fld := ⟨(PLT.PD_VOTE i), 5, 5⟩
def PLT.PD_VOTE_DEP (i : Nat) : Fld := ⟨(PLT.PD_VOTE i), 4, 4⟩
def PLT.PD_VOTE_HW (i : Nat) : Fld := ⟨(PLT.PD_VOTE i), 3, 3⟩
def PLT.PD_VOTE_SEQ (i : Nat) : Fld := ⟨(PLT.PD_VOTE i), 2, 2⟩
def PLT.PD_VOTE_HOST (i : Nat) : Fld := ⟨(PLT.PD_VOTE i), 1, 1⟩
def PLT.PD_VOTE_MGT (i : Nat) : Fld := ⟨(PLT.PD_VOTE i), 0, 0⟩
/-- IMG_CTL, Table 15.16. -/
def PLT.IMG_CTL : Nat := 0x400F0200
def PLT.IMG_CTL_BUSY : Fld := ⟨PLT.IMG_CTL, 31, 31⟩
def PLT.IMG_CTL_RESULT : Fld := ⟨PLT.IMG_CTL, 30, 27⟩
def PLT.IMG_CTL_OP : Fld := ⟨PLT.IMG_CTL, 26, 24⟩
def PLT.IMG_CTL_TWIN : Fld := ⟨PLT.IMG_CTL, 23, 23⟩
def PLT.IMG_CTL_ARMED : Fld := ⟨PLT.IMG_CTL, 22, 22⟩
/-- IMG_SRC_LO, Table 15.16. -/
def PLT.IMG_SRC_LO : Nat := 0x400F0204
def PLT.IMG_SRC_LO_ADDR : Fld := ⟨PLT.IMG_SRC_LO, 31, 0⟩
/-- IMG_SRC_HI, Table 15.16. -/
def PLT.IMG_SRC_HI : Nat := 0x400F0208
def PLT.IMG_SRC_HI_ADDR : Fld := ⟨PLT.IMG_SRC_HI, 3, 0⟩
/-- IMG_ACT_LO, Table 15.16. -/
def PLT.IMG_ACT_LO : Nat := 0x400F020C
def PLT.IMG_ACT_LO_T : Fld := ⟨PLT.IMG_ACT_LO, 31, 0⟩
/-- IMG_ACT_HI, Table 15.16. -/
def PLT.IMG_ACT_HI : Nat := 0x400F0210
def PLT.IMG_ACT_HI_T : Fld := ⟨PLT.IMG_ACT_HI, 31, 0⟩
/-- BOOT_INFO, Table 15.17. -/
def PLT.BOOT_INFO : Nat := 0x400F0214
def PLT.BOOT_INFO_ACT : Fld := ⟨PLT.BOOT_INFO, 11, 11⟩
def PLT.BOOT_INFO_FALLBACK : Fld := ⟨PLT.BOOT_INFO, 10, 10⟩
def PLT.BOOT_INFO_PENDING : Fld := ⟨PLT.BOOT_INFO, 9, 9⟩
def PLT.BOOT_INFO_TRIALS : Fld := ⟨PLT.BOOT_INFO, 8, 6⟩
def PLT.BOOT_INFO_BANKS : Fld := ⟨PLT.BOOT_INFO, 5, 2⟩
def PLT.BOOT_INFO_RECOVERY : Fld := ⟨PLT.BOOT_INFO, 1, 1⟩
def PLT.BOOT_INFO_BANK : Fld := ⟨PLT.BOOT_INFO, 0, 0⟩
/-- BANK_A_VER, Table 15.17. -/
def PLT.BANK_A_VER : Nat := 0x400F0218
def PLT.BANK_A_VER_VER : Fld := ⟨PLT.BANK_A_VER, 31, 0⟩
/-- BANK_B_VER, Table 15.17. -/
def PLT.BANK_B_VER : Nat := 0x400F021C
def PLT.BANK_B_VER_VER : Fld := ⟨PLT.BANK_B_VER, 31, 0⟩
/-- VER_FLOOR, Table 15.17. -/
def PLT.VER_FLOOR : Nat := 0x400F0220
def PLT.VER_FLOOR_VER : Fld := ⟨PLT.VER_FLOOR, 31, 0⟩
/-- EPOCH, Table 15.17. -/
def PLT.EPOCH : Nat := 0x400F0224
def PLT.EPOCH_FUSED : Fld := ⟨PLT.EPOCH, 6, 0⟩
/-- CONFIRM_CFG, Table 15.18. -/
def PLT.CONFIRM_CFG : Nat := 0x400F0228
def PLT.CONFIRM_CFG_TRIAL_MAX : Fld := ⟨PLT.CONFIRM_CFG, 18, 16⟩
def PLT.CONFIRM_CFG_TIMEOUT : Fld := ⟨PLT.CONFIRM_CFG, 15, 0⟩
/-- LC_STATE, Table 15.18. -/
def PLT.LC_STATE : Nat := 0x400F0240
def PLT.LC_STATE_CODE : Fld := ⟨PLT.LC_STATE, 2, 0⟩
/-- LC_CTL, Table 15.18. -/
def PLT.LC_CTL : Nat := 0x400F0244
def PLT.LC_CTL_CONFIRM : Fld := ⟨PLT.LC_CTL, 15, 8⟩
def PLT.LC_CTL_ERR : Fld := ⟨PLT.LC_CTL, 4, 4⟩
def PLT.LC_CTL_TARGET : Fld := ⟨PLT.LC_CTL, 2, 0⟩
/-- LC_NONCE, Table 15.19. -/
def PLT.LC_NONCE (i : Nat) : Nat := 0x400F0248 + i * 0x4
def PLT.LC_NONCE_DATA (i : Nat) : Fld := ⟨(PLT.LC_NONCE i), 31, 0⟩
/-- LC_SRC_LO, Table 15.19. -/
def PLT.LC_SRC_LO : Nat := 0x400F0258
def PLT.LC_SRC_LO_ADDR : Fld := ⟨PLT.LC_SRC_LO, 31, 0⟩
/-- LC_SRC_HI, Table 15.19. -/
def PLT.LC_SRC_HI : Nat := 0x400F025C
def PLT.LC_SRC_HI_ADDR : Fld := ⟨PLT.LC_SRC_HI, 3, 0⟩
/-- FUSE_INFO, Table 15.19. -/
def PLT.FUSE_INFO : Nat := 0x400F0260
def PLT.FUSE_INFO_KEYREV : Fld := ⟨PLT.FUSE_INFO, 31, 16⟩
def PLT.FUSE_INFO_TKT_SET : Fld := ⟨PLT.FUSE_INFO, 12, 12⟩
def PLT.FUSE_INFO_EUI_SET : Fld := ⟨PLT.FUSE_INFO, 11, 11⟩
def PLT.FUSE_INFO_TRUSTED : Fld := ⟨PLT.FUSE_INFO, 10, 10⟩
def PLT.FUSE_INFO_HWCLASS : Fld := ⟨PLT.FUSE_INFO, 4, 0⟩
/-- KEYREV_CTL, Table 15.19. -/
def PLT.KEYREV_CTL : Nat := 0x400F0264
def PLT.KEYREV_CTL_REJ : Fld := ⟨PLT.KEYREV_CTL, 8, 8⟩
def PLT.KEYREV_CTL_REVOKE : Fld := ⟨PLT.KEYREV_CTL, 4, 4⟩
def PLT.KEYREV_CTL_KEY : Fld := ⟨PLT.KEYREV_CTL, 3, 0⟩
/-- FUSE_CTL, Table 15.19. -/
def PLT.FUSE_CTL : Nat := 0x400F0268
def PLT.FUSE_CTL_BANK : Fld := ⟨PLT.FUSE_CTL, 3, 2⟩
def PLT.FUSE_CTL_ERR : Fld := ⟨PLT.FUSE_CTL, 1, 1⟩
def PLT.FUSE_CTL_GO : Fld := ⟨PLT.FUSE_CTL, 0, 0⟩
/-- FUSE_DATA, Table 15.20. -/
def PLT.FUSE_DATA (i : Nat) : Nat := 0x400F0270 + i * 0x4
def PLT.FUSE_DATA_DATA (i : Nat) : Fld := ⟨(PLT.FUSE_DATA i), 31, 0⟩
/-- MRAM_LOG, Table 15.20. -/
def PLT.MRAM_LOG : Nat := 0x400F0290
def PLT.MRAM_LOG_VALID : Fld := ⟨PLT.MRAM_LOG, 31, 31⟩
def PLT.MRAM_LOG_ADDR : Fld := ⟨PLT.MRAM_LOG, 21, 0⟩
/-- MRAM_CNT, Table 15.20. -/
def PLT.MRAM_CNT : Nat := 0x400F0294
def PLT.MRAM_CNT_FIXED : Fld := ⟨PLT.MRAM_CNT, 31, 16⟩
def PLT.MRAM_CNT_UNCORR : Fld := ⟨PLT.MRAM_CNT, 15, 0⟩
/-- WINDOW_LOCK, Table 00.4. -/
def PLT.WINDOW_LOCK : Nat := 0x400F7FF8
def PLT.WINDOW_LOCK_LOCK : Fld := ⟨PLT.WINDOW_LOCK, 0, 0⟩
/-- EXPERT_UNLOCK, Table 00.5. -/
def PLT.EXPERT_UNLOCK : Nat := 0x400F7FFC
def PLT.EXPERT_UNLOCK_ARMED : Fld := ⟨PLT.EXPERT_UNLOCK, 10, 10⟩
def PLT.EXPERT_UNLOCK_REJECTED : Fld := ⟨PLT.EXPERT_UNLOCK, 9, 9⟩
def PLT.EXPERT_UNLOCK_UNLOCKED : Fld := ⟨PLT.EXPERT_UNLOCK, 8, 8⟩
def PLT.EXPERT_UNLOCK_KEY : Fld := ⟨PLT.EXPERT_UNLOCK, 7, 0⟩
/-- PLT_EXP, Table 13.18. -/
def PLT.PLT_EXP : Nat := 0x400F8000
def PLT.PLT_EXP_AUTO_WAKE : Fld := ⟨PLT.PLT_EXP, 20, 3⟩
/-- MRAM_EXP, Table 15.20. -/
def PLT.MRAM_EXP : Nat := 0x400F8100
def PLT.MRAM_EXP_ECC_INJECT2 : Fld := ⟨PLT.MRAM_EXP, 1, 1⟩
def PLT.MRAM_EXP_ECC_INJECT1 : Fld := ⟨PLT.MRAM_EXP, 0, 0⟩
/-- DIS_CTL, Table 14.10. -/
def DIS.DIS_CTL : Nat := 0x40100000
def DIS.DIS_CTL_DRAINED : Fld := ⟨DIS.DIS_CTL, 1, 1⟩
def DIS.DIS_CTL_EN : Fld := ⟨DIS.DIS_CTL, 0, 0⟩
/-- DIS_CFG, Table 14.10. -/
def DIS.DIS_CFG : Nat := 0x40100004
def DIS.DIS_CFG_CRING : Fld := ⟨DIS.DIS_CFG, 25, 20⟩
def DIS.DIS_CFG_NACK_MISS_MAX : Fld := ⟨DIS.DIS_CFG, 19, 16⟩
def DIS.DIS_CFG_ACT_LEAD : Fld := ⟨DIS.DIS_CFG, 15, 0⟩
/-- DRAM_BASE_LO, Table 14.10. -/
def DIS.DRAM_BASE_LO : Nat := 0x40100008
def DIS.DRAM_BASE_LO_ADDR : Fld := ⟨DIS.DRAM_BASE_LO, 31, 0⟩
/-- DRAM_BASE_HI, Table 14.10. -/
def DIS.DRAM_BASE_HI : Nat := 0x4010000C
def DIS.DRAM_BASE_HI_ADDR : Fld := ⟨DIS.DRAM_BASE_HI, 3, 0⟩
/-- BLK_REQ, Table 14.11. -/
def DIS.BLK_REQ : Nat := 0x40100010
def DIS.BLK_REQ_GO : Fld := ⟨DIS.BLK_REQ, 31, 31⟩
def DIS.BLK_REQ_CAMP : Fld := ⟨DIS.BLK_REQ, 25, 24⟩
def DIS.BLK_REQ_SZX : Fld := ⟨DIS.BLK_REQ, 22, 20⟩
def DIS.BLK_REQ_NUM : Fld := ⟨DIS.BLK_REQ, 19, 0⟩
/-- BLK_DST, Table 14.11. -/
def DIS.BLK_DST : Nat := 0x40100014
def DIS.BLK_DST_OFFSET : Fld := ⟨DIS.BLK_DST, 31, 22⟩
def DIS.BLK_DST_BUF : Fld := ⟨DIS.BLK_DST, 13, 0⟩
/-- BLK_RES, Table 14.11. -/
def DIS.BLK_RES : Nat := 0x40100018
def DIS.BLK_RES_BUSY : Fld := ⟨DIS.BLK_RES, 31, 31⟩
def DIS.BLK_RES_RESULT : Fld := ⟨DIS.BLK_RES, 30, 28⟩
def DIS.BLK_RES_MORE : Fld := ⟨DIS.BLK_RES, 16, 16⟩
def DIS.BLK_RES_LEN : Fld := ⟨DIS.BLK_RES, 10, 0⟩
/-- CNT, Table 14.13. -/
def DIS.CNT (i : Nat) : Nat := 0x40100020 + i * 0x4
def DIS.CNT_HI (i : Nat) : Fld := ⟨(DIS.CNT i), 31, 16⟩
def DIS.CNT_LO (i : Nat) : Fld := ⟨(DIS.CNT i), 15, 0⟩
/-- TGT_OP, Table 14.12. -/
def DIS.TGT_OP : Nat := 0x40100040
def DIS.TGT_OP_BUSY : Fld := ⟨DIS.TGT_OP, 31, 31⟩
def DIS.TGT_OP_RESULT : Fld := ⟨DIS.TGT_OP, 30, 28⟩
def DIS.TGT_OP_OP : Fld := ⟨DIS.TGT_OP, 27, 24⟩
def DIS.TGT_OP_CAMP : Fld := ⟨DIS.TGT_OP, 21, 20⟩
def DIS.TGT_OP_NIDX : Fld := ⟨DIS.TGT_OP, 16, 0⟩
/-- TGT_STATE, Table 14.12. -/
def DIS.TGT_STATE : Nat := 0x40100044
def DIS.TGT_STATE_MISSING : Fld := ⟨DIS.TGT_STATE, 31, 16⟩
def DIS.TGT_STATE_LAST_ROUND : Fld := ⟨DIS.TGT_STATE, 15, 8⟩
def DIS.TGT_STATE_MORE : Fld := ⟨DIS.TGT_STATE, 3, 3⟩
def DIS.TGT_STATE_STATE : Fld := ⟨DIS.TGT_STATE, 2, 0⟩
/-- FLOOR_ID, Table 14.13. -/
def DIS.FLOOR_ID (i : Nat) : Nat := 0x40100100 + i * 0x8
def DIS.FLOOR_ID_VALID (i : Nat) : Fld := ⟨(DIS.FLOOR_ID i), 31, 31⟩
def DIS.FLOOR_ID_IMG_ID (i : Nat) : Fld := ⟨(DIS.FLOOR_ID i), 15, 0⟩
/-- FLOOR_VER, Table 14.13. -/
def DIS.FLOOR_VER (i : Nat) : Nat := 0x40100104 + i * 0x8
def DIS.FLOOR_VER_VER (i : Nat) : Fld := ⟨(DIS.FLOOR_VER i), 31, 0⟩
/-- CMP_CTL, Table 14.14. -/
def DIS.CMP_CTL (i : Nat) : Nat := 0x40101000 + i * 0x100
def DIS.CMP_CTL_BUSY (i : Nat) : Fld := ⟨(DIS.CMP_CTL i), 31, 31⟩
def DIS.CMP_CTL_RESULT (i : Nat) : Fld := ⟨(DIS.CMP_CTL i), 30, 27⟩
def DIS.CMP_CTL_OP (i : Nat) : Fld := ⟨(DIS.CMP_CTL i), 26, 24⟩
def DIS.CMP_CTL_ACTIVATING (i : Nat) : Fld := ⟨(DIS.CMP_CTL i), 23, 23⟩
def DIS.CMP_CTL_STATE (i : Nat) : Fld := ⟨(DIS.CMP_CTL i), 22, 20⟩
def DIS.CMP_CTL_ROUND (i : Nat) : Fld := ⟨(DIS.CMP_CTL i), 15, 8⟩
/-- CMP_SRC_LO, Table 14.14. -/
def DIS.CMP_SRC_LO (i : Nat) : Nat := 0x40101004 + i * 0x100
def DIS.CMP_SRC_LO_ADDR (i : Nat) : Fld := ⟨(DIS.CMP_SRC_LO i), 31, 0⟩
/-- CMP_SRC_HI, Table 14.14. -/
def DIS.CMP_SRC_HI (i : Nat) : Nat := 0x40101008 + i * 0x100
def DIS.CMP_SRC_HI_ADDR (i : Nat) : Fld := ⟨(DIS.CMP_SRC_HI i), 3, 0⟩
/-- CMP_CFG, Table 14.14. -/
def DIS.CMP_CFG (i : Nat) : Nat := 0x4010100C + i * 0x100
def DIS.CMP_CFG_KEY_SEL (i : Nat) : Fld := ⟨(DIS.CMP_CFG i), 28, 28⟩
def DIS.CMP_CFG_KEY_SLOT (i : Nat) : Fld := ⟨(DIS.CMP_CFG i), 27, 16⟩
def DIS.CMP_CFG_LEVEL (i : Nat) : Fld := ⟨(DIS.CMP_CFG i), 14, 12⟩
def DIS.CMP_CFG_SET (i : Nat) : Fld := ⟨(DIS.CMP_CFG i), 11, 8⟩
def DIS.CMP_CFG_FRAG_LEN (i : Nat) : Fld := ⟨(DIS.CMP_CFG i), 7, 0⟩
/-- CMP_SCHED, Table 14.14. -/
def DIS.CMP_SCHED (i : Nat) : Nat := 0x40101010 + i * 0x100
def DIS.CMP_SCHED_BURST_LEN (i : Nat) : Fld := ⟨(DIS.CMP_SCHED i), 31, 24⟩
def DIS.CMP_SCHED_FRAG_GAP (i : Nat) : Fld := ⟨(DIS.CMP_SCHED i), 23, 16⟩
def DIS.CMP_SCHED_BURST_PERIOD (i : Nat) : Fld := ⟨(DIS.CMP_SCHED i), 15, 0⟩
/-- CMP_NACK, Table 14.15. -/
def DIS.CMP_NACK (i : Nat) : Nat := 0x40101014 + i * 0x100
def DIS.CMP_NACK_ROUNDS_MAX (i : Nat) : Fld := ⟨(DIS.CMP_NACK i), 23, 16⟩
def DIS.CMP_NACK_NACK_WINDOW (i : Nat) : Fld := ⟨(DIS.CMP_NACK i), 15, 0⟩
/-- CMP_ACT_LO, Table 14.15. -/
def DIS.CMP_ACT_LO (i : Nat) : Nat := 0x40101018 + i * 0x100
def DIS.CMP_ACT_LO_T (i : Nat) : Fld := ⟨(DIS.CMP_ACT_LO i), 31, 0⟩
/-- CMP_ACT_HI, Table 14.15. -/
def DIS.CMP_ACT_HI (i : Nat) : Nat := 0x4010101C + i * 0x100
def DIS.CMP_ACT_HI_T (i : Nat) : Fld := ⟨(DIS.CMP_ACT_HI i), 31, 0⟩
/-- CMP_AT_LO, Table 14.15. -/
def DIS.CMP_AT_LO (i : Nat) : Nat := 0x40101020 + i * 0x100
def DIS.CMP_AT_LO_T (i : Nat) : Fld := ⟨(DIS.CMP_AT_LO i), 31, 0⟩
/-- CMP_AT_HI, Table 14.15. -/
def DIS.CMP_AT_HI (i : Nat) : Nat := 0x40101024 + i * 0x100
def DIS.CMP_AT_HI_T (i : Nat) : Fld := ⟨(DIS.CMP_AT_HI i), 31, 0⟩
/-- CMP_IMG, Table 14.15. -/
def DIS.CMP_IMG (i : Nat) : Nat := 0x40101028 + i * 0x100
def DIS.CMP_IMG_IMG_ID (i : Nat) : Fld := ⟨(DIS.CMP_IMG i), 31, 16⟩
/-- CMP_VER, Table 14.15. -/
def DIS.CMP_VER (i : Nat) : Nat := 0x4010102C + i * 0x100
def DIS.CMP_VER_IMG_VER (i : Nat) : Fld := ⟨(DIS.CMP_VER i), 31, 0⟩
/-- CMP_NFRAG, Table 14.15. -/
def DIS.CMP_NFRAG (i : Nat) : Nat := 0x40101030 + i * 0x100
def DIS.CMP_NFRAG_SET (i : Nat) : Fld := ⟨(DIS.CMP_NFRAG i), 31, 16⟩
def DIS.CMP_NFRAG_NFRAG (i : Nat) : Fld := ⟨(DIS.CMP_NFRAG i), 15, 0⟩
/-- CMP_TGT, Table 14.15. -/
def DIS.CMP_TGT (i : Nat) : Nat := 0x40101034 + i * 0x100
def DIS.CMP_TGT_TARGETS (i : Nat) : Fld := ⟨(DIS.CMP_TGT i), 17, 0⟩
/-- CMP_DONE, Table 14.15. -/
def DIS.CMP_DONE (i : Nat) : Nat := 0x40101038 + i * 0x100
def DIS.CMP_DONE_COMPLETE (i : Nat) : Fld := ⟨(DIS.CMP_DONE i), 17, 0⟩
/-- WINDOW_LOCK, Table 00.4. -/
def DIS.WINDOW_LOCK : Nat := 0x40107FF8
def DIS.WINDOW_LOCK_LOCK : Fld := ⟨DIS.WINDOW_LOCK, 0, 0⟩
/-- EXPERT_UNLOCK, Table 00.5. -/
def DIS.EXPERT_UNLOCK : Nat := 0x40107FFC
def DIS.EXPERT_UNLOCK_ARMED : Fld := ⟨DIS.EXPERT_UNLOCK, 10, 10⟩
def DIS.EXPERT_UNLOCK_REJECTED : Fld := ⟨DIS.EXPERT_UNLOCK, 9, 9⟩
def DIS.EXPERT_UNLOCK_UNLOCKED : Fld := ⟨DIS.EXPERT_UNLOCK, 8, 8⟩
def DIS.EXPERT_UNLOCK_KEY : Fld := ⟨DIS.EXPERT_UNLOCK, 7, 0⟩
/-- IST_CTL, Table 17.8. -/
def IST.IST_CTL : Nat := 0x40110000
def IST.IST_CTL_DRAINED : Fld := ⟨IST.IST_CTL, 2, 2⟩
def IST.IST_CTL_SWEEP_DONE : Fld := ⟨IST.IST_CTL, 1, 1⟩
def IST.IST_CTL_EN : Fld := ⟨IST.IST_CTL, 0, 0⟩
/-- IST_CFG, Table 17.8. -/
def IST.IST_CFG : Nat := 0x40110004
def IST.IST_CFG_INC_MAX : Fld := ⟨IST.IST_CFG, 31, 24⟩
def IST.IST_CFG_SLICE_INTERVAL : Fld := ⟨IST.IST_CFG, 23, 16⟩
def IST.IST_CFG_CLASS_EN : Fld := ⟨IST.IST_CFG, 8, 0⟩
/-- IST_STATUS, Table 17.8. -/
def IST.IST_STATUS : Nat := 0x40110008
def IST.IST_STATUS_RUN_MA : Fld := ⟨IST.IST_STATUS, 24, 16⟩
def IST.IST_STATUS_RUNNING : Fld := ⟨IST.IST_STATUS, 15, 8⟩
def IST.IST_STATUS_BIST_BUSY : Fld := ⟨IST.IST_STATUS, 0, 0⟩
/-- IST_REQ, Table 17.9. -/
def IST.IST_REQ : Nat := 0x40110010
def IST.IST_REQ_GO : Fld := ⟨IST.IST_REQ, 31, 31⟩
def IST.IST_REQ_RESULT : Fld := ⟨IST.IST_REQ, 29, 28⟩
def IST.IST_REQ_CLASS : Fld := ⟨IST.IST_REQ, 23, 20⟩
def IST.IST_REQ_UNIT : Fld := ⟨IST.IST_REQ, 7, 0⟩
/-- RES_SEL, Table 17.9. -/
def IST.RES_SEL : Nat := 0x40110020
def IST.RES_SEL_CLASS : Fld := ⟨IST.RES_SEL, 11, 8⟩
def IST.RES_SEL_UNIT : Fld := ⟨IST.RES_SEL, 7, 0⟩
/-- RES, Table 17.9. -/
def IST.RES : Nat := 0x40110024
def IST.RES_OUTCOME : Fld := ⟨IST.RES, 31, 30⟩
def IST.RES_DONE : Fld := ⟨IST.RES, 29, 29⟩
def IST.RES_REPAIRED : Fld := ⟨IST.RES, 28, 28⟩
def IST.RES_SOFT : Fld := ⟨IST.RES, 27, 27⟩
def IST.RES_FORCED : Fld := ⟨IST.RES, 26, 26⟩
def IST.RES_INC_RUN : Fld := ⟨IST.RES, 23, 16⟩
def IST.RES_PASSES : Fld := ⟨IST.RES, 15, 0⟩
/-- RES_SIG, Table 17.9. -/
def IST.RES_SIG : Nat := 0x40110028
def IST.RES_SIG_SIG : Fld := ⟨IST.RES_SIG, 31, 0⟩
/-- RES_EXP, Table 17.9. -/
def IST.RES_EXP : Nat := 0x4011002C
def IST.RES_EXP_SIG : Fld := ⟨IST.RES_EXP, 31, 0⟩
/-- CNT, Table 17.10. -/
def IST.CNT (i : Nat) : Nat := 0x40110030 + i * 0x4
def IST.CNT_HI (i : Nat) : Fld := ⟨(IST.CNT i), 31, 16⟩
def IST.CNT_LO (i : Nat) : Fld := ⟨(IST.CNT i), 15, 0⟩
/-- PIN_SEL, Table 17.10. -/
def IST.PIN_SEL : Nat := 0x40110040
def IST.PIN_SEL_BALL : Fld := ⟨IST.PIN_SEL, 6, 0⟩
/-- PIN_RES, Table 17.10. -/
def IST.PIN_RES : Nat := 0x40110044
def IST.PIN_RES_PARTNER : Fld := ⟨IST.PIN_RES, 22, 16⟩
def IST.PIN_RES_CODE : Fld := ⟨IST.PIN_RES, 2, 0⟩
/-- REPAIR_SEL, Table 17.11. -/
def IST.REPAIR_SEL : Nat := 0x40110050
def IST.REPAIR_SEL_ENTRY : Fld := ⟨IST.REPAIR_SEL, 5, 0⟩
/-- REPAIR_ENT, Table 17.11. -/
def IST.REPAIR_ENT : Nat := 0x40110054
def IST.REPAIR_ENT_VALID : Fld := ⟨IST.REPAIR_ENT, 31, 31⟩
def IST.REPAIR_ENT_FUSED : Fld := ⟨IST.REPAIR_ENT, 30, 30⟩
def IST.REPAIR_ENT_CLASS : Fld := ⟨IST.REPAIR_ENT, 29, 29⟩
def IST.REPAIR_ENT_UNIT : Fld := ⟨IST.REPAIR_ENT, 28, 21⟩
def IST.REPAIR_ENT_SPARE : Fld := ⟨IST.REPAIR_ENT, 15, 12⟩
def IST.REPAIR_ENT_ROW : Fld := ⟨IST.REPAIR_ENT, 11, 0⟩
/-- REPAIR_CTL, Table 17.11. -/
def IST.REPAIR_CTL : Nat := 0x40110058
def IST.REPAIR_CTL_BUSY : Fld := ⟨IST.REPAIR_CTL, 31, 31⟩
def IST.REPAIR_CTL_RESULT : Fld := ⟨IST.REPAIR_CTL, 30, 28⟩
def IST.REPAIR_CTL_BURN : Fld := ⟨IST.REPAIR_CTL, 0, 0⟩
/-- BIST_CTL, Table 17.11. -/
def IST.BIST_CTL : Nat := 0x40110060
def IST.BIST_CTL_BUSY : Fld := ⟨IST.BIST_CTL, 31, 31⟩
def IST.BIST_CTL_RESULT : Fld := ⟨IST.BIST_CTL, 30, 28⟩
def IST.BIST_CTL_GO : Fld := ⟨IST.BIST_CTL, 0, 0⟩
/-- BIST_DOMS, Table 17.11. -/
def IST.BIST_DOMS : Nat := 0x40110064
def IST.BIST_DOMS_DOMS : Fld := ⟨IST.BIST_DOMS, 20, 0⟩
/-- WINDOW_LOCK, Table 00.4. -/
def IST.WINDOW_LOCK : Nat := 0x40117FF8
def IST.WINDOW_LOCK_LOCK : Fld := ⟨IST.WINDOW_LOCK, 0, 0⟩
/-- EXPERT_UNLOCK, Table 00.5. -/
def IST.EXPERT_UNLOCK : Nat := 0x40117FFC
def IST.EXPERT_UNLOCK_ARMED : Fld := ⟨IST.EXPERT_UNLOCK, 10, 10⟩
def IST.EXPERT_UNLOCK_REJECTED : Fld := ⟨IST.EXPERT_UNLOCK, 9, 9⟩
def IST.EXPERT_UNLOCK_UNLOCKED : Fld := ⟨IST.EXPERT_UNLOCK, 8, 8⟩
def IST.EXPERT_UNLOCK_KEY : Fld := ⟨IST.EXPERT_UNLOCK, 7, 0⟩
/-- IST_EXP, Table 17.11. -/
def IST.IST_EXP : Nat := 0x40118000
def IST.IST_EXP_STEP_LIMIT : Fld := ⟨IST.IST_EXP, 8, 0⟩
/-- IST_FORCE, Table 17.11. -/
def IST.IST_FORCE : Nat := 0x40118004
def IST.IST_FORCE_GO : Fld := ⟨IST.IST_FORCE, 31, 31⟩
def IST.IST_FORCE_CLASS : Fld := ⟨IST.IST_FORCE, 23, 20⟩
def IST.IST_FORCE_UNIT : Fld := ⟨IST.IST_FORCE, 7, 0⟩
/-- EVT_CTL, Table 19.6. -/
def EVT.EVT_CTL : Nat := 0x40120000
def EVT.EVT_CTL_LOG_MIN : Fld := ⟨EVT.EVT_CTL, 9, 8⟩
def EVT.EVT_CTL_HELD : Fld := ⟨EVT.EVT_CTL, 1, 1⟩
def EVT.EVT_CTL_REL : Fld := ⟨EVT.EVT_CTL, 0, 0⟩
/-- EVT_SOFT0, Table 19.6. -/
def EVT.EVT_SOFT0 : Nat := 0x40120004
def EVT.EVT_SOFT0_ARG : Fld := ⟨EVT.EVT_SOFT0, 31, 0⟩
/-- EVT_SOFT1, Table 19.6. -/
def EVT.EVT_SOFT1 : Nat := 0x40120008
def EVT.EVT_SOFT1_ARG : Fld := ⟨EVT.EVT_SOFT1, 31, 0⟩
/-- EVT_CNT, Table 19.6. -/
def EVT.EVT_CNT : Nat := 0x4012000C
def EVT.EVT_CNT_NOBIND : Fld := ⟨EVT.EVT_CNT, 31, 16⟩
def EVT.EVT_CNT_NODEST : Fld := ⟨EVT.EVT_CNT, 15, 0⟩
/-- HOST_EVQ, Table 19.7. -/
def EVT.HOST_EVQ : Nat := 0x40120010
def EVT.HOST_EVQ_VALID : Fld := ⟨EVT.HOST_EVQ, 31, 31⟩
def EVT.HOST_EVQ_LOST : Fld := ⟨EVT.HOST_EVQ, 21, 16⟩
def EVT.HOST_EVQ_EVENT : Fld := ⟨EVT.HOST_EVQ, 6, 0⟩
/-- HOST_EVQ_ARG, Table 19.7. -/
def EVT.HOST_EVQ_ARG : Nat := 0x40120014
def EVT.HOST_EVQ_ARG_ARG : Fld := ⟨EVT.HOST_EVQ_ARG, 31, 0⟩
/-- LOG_STAT, Table 19.7. -/
def EVT.LOG_STAT : Nat := 0x40120020
def EVT.LOG_STAT_LOST : Fld := ⟨EVT.LOG_STAT, 31, 16⟩
def EVT.LOG_STAT_COUNT : Fld := ⟨EVT.LOG_STAT, 6, 0⟩
/-- LOG_CTL, Table 19.7. -/
def EVT.LOG_CTL : Nat := 0x40120024
def EVT.LOG_CTL_CLEAR : Fld := ⟨EVT.LOG_CTL, 0, 0⟩
/-- LOG_SEL, Table 19.7. -/
def EVT.LOG_SEL : Nat := 0x40120028
def EVT.LOG_SEL_ENTRY : Fld := ⟨EVT.LOG_SEL, 5, 0⟩
/-- LOG_W, Table 19.7. -/
def EVT.LOG_W (i : Nat) : Nat := 0x40120030 + i * 0x4
def EVT.LOG_W_DATA (i : Nat) : Fld := ⟨(EVT.LOG_W i), 31, 0⟩
/-- ROUTE, Table 19.8. -/
def EVT.ROUTE (i : Nat) : Nat := 0x40121000 + i * 0x10
def EVT.ROUTE_HOLDOFF (i : Nat) : Fld := ⟨(EVT.ROUTE i), 23, 16⟩
def EVT.ROUTE_SEV (i : Nat) : Fld := ⟨(EVT.ROUTE i), 9, 8⟩
def EVT.ROUTE_ONE (i : Nat) : Fld := ⟨(EVT.ROUTE i), 3, 3⟩
def EVT.ROUTE_HOST (i : Nat) : Fld := ⟨(EVT.ROUTE i), 2, 2⟩
def EVT.ROUTE_MGT (i : Nat) : Fld := ⟨(EVT.ROUTE i), 1, 1⟩
def EVT.ROUTE_EN (i : Nat) : Fld := ⟨(EVT.ROUTE i), 0, 0⟩
/-- CORES_LO, Table 19.8. -/
def EVT.CORES_LO (i : Nat) : Nat := 0x40121004 + i * 0x10
def EVT.CORES_LO_MASK (i : Nat) : Fld := ⟨(EVT.CORES_LO i), 31, 0⟩
/-- CORES_HI, Table 19.8. -/
def EVT.CORES_HI (i : Nat) : Nat := 0x40121008 + i * 0x10
def EVT.CORES_HI_MASK (i : Nat) : Fld := ⟨(EVT.CORES_HI i), 31, 0⟩
/-- STAT, Table 19.8. -/
def EVT.STAT (i : Nat) : Nat := 0x4012100C + i * 0x10
def EVT.STAT_COAL (i : Nat) : Fld := ⟨(EVT.STAT i), 31, 16⟩
def EVT.STAT_FIRED (i : Nat) : Fld := ⟨(EVT.STAT i), 15, 0⟩
/-- LAST_ARG, Table 19.9. -/
def EVT.LAST_ARG (i : Nat) : Nat := 0x40122000 + i * 0x4
def EVT.LAST_ARG_ARG (i : Nat) : Fld := ⟨(EVT.LAST_ARG i), 31, 0⟩
/-- WINDOW_LOCK, Table 00.4. -/
def EVT.WINDOW_LOCK : Nat := 0x40127FF8
def EVT.WINDOW_LOCK_LOCK : Fld := ⟨EVT.WINDOW_LOCK, 0, 0⟩
/-- EXPERT_UNLOCK, Table 00.5. -/
def EVT.EXPERT_UNLOCK : Nat := 0x40127FFC
def EVT.EXPERT_UNLOCK_ARMED : Fld := ⟨EVT.EXPERT_UNLOCK, 10, 10⟩
def EVT.EXPERT_UNLOCK_REJECTED : Fld := ⟨EVT.EXPERT_UNLOCK, 9, 9⟩
def EVT.EXPERT_UNLOCK_UNLOCKED : Fld := ⟨EVT.EXPERT_UNLOCK, 8, 8⟩
def EVT.EXPERT_UNLOCK_KEY : Fld := ⟨EVT.EXPERT_UNLOCK, 7, 0⟩
/-- EVT_EXP, Table 19.9. -/
def EVT.EVT_EXP : Nat := 0x40128000
def EVT.EVT_EXP_GO : Fld := ⟨EVT.EVT_EXP, 31, 31⟩
def EVT.EVT_EXP_ARG : Fld := ⟨EVT.EVT_EXP, 23, 8⟩
def EVT.EVT_EXP_NUM : Fld := ⟨EVT.EVT_EXP, 6, 0⟩
/-- GPIO_IN, Table 18.17. -/
def GPIO.GPIO_IN : Nat := 0x40130000
def GPIO.GPIO_IN_IN : Fld := ⟨GPIO.GPIO_IN, 23, 0⟩
/-- GPIO_EVT, Table 18.17. -/
def GPIO.GPIO_EVT : Nat := 0x40130004
def GPIO.GPIO_EVT_EVT : Fld := ⟨GPIO.GPIO_EVT, 23, 0⟩
/-- GPIO_CNT, Table 18.17. -/
def GPIO.GPIO_CNT : Nat := 0x40130008
def GPIO.GPIO_CNT_TRIG_IGN : Fld := ⟨GPIO.GPIO_CNT, 15, 0⟩
/-- PIN, Table 18.17. -/
def GPIO.PIN (i : Nat) : Nat := 0x40130100 + i * 0x4
def GPIO.PIN_WAKE_POL (i : Nat) : Fld := ⟨(GPIO.PIN i), 8, 8⟩
def GPIO.PIN_WAKE (i : Nat) : Fld := ⟨(GPIO.PIN i), 7, 7⟩
def GPIO.PIN_EDGE (i : Nat) : Fld := ⟨(GPIO.PIN i), 6, 5⟩
def GPIO.PIN_IN (i : Nat) : Fld := ⟨(GPIO.PIN i), 4, 4⟩
def GPIO.PIN_OUT (i : Nat) : Fld := ⟨(GPIO.PIN i), 3, 3⟩
def GPIO.PIN_OD (i : Nat) : Fld := ⟨(GPIO.PIN i), 2, 2⟩
def GPIO.PIN_FUNC (i : Nat) : Fld := ⟨(GPIO.PIN i), 1, 0⟩
/-- WINDOW_LOCK, Table 00.4. -/
def GPIO.WINDOW_LOCK : Nat := 0x40137FF8
def GPIO.WINDOW_LOCK_LOCK : Fld := ⟨GPIO.WINDOW_LOCK, 0, 0⟩
/-- EXPERT_UNLOCK, Table 00.5. -/
def GPIO.EXPERT_UNLOCK : Nat := 0x40137FFC
def GPIO.EXPERT_UNLOCK_ARMED : Fld := ⟨GPIO.EXPERT_UNLOCK, 10, 10⟩
def GPIO.EXPERT_UNLOCK_REJECTED : Fld := ⟨GPIO.EXPERT_UNLOCK, 9, 9⟩
def GPIO.EXPERT_UNLOCK_UNLOCKED : Fld := ⟨GPIO.EXPERT_UNLOCK, 8, 8⟩
def GPIO.EXPERT_UNLOCK_KEY : Fld := ⟨GPIO.EXPERT_UNLOCK, 7, 0⟩

end Sys2Proof.Machine
end

