-- ==== Sys2Proof/Machine/State.lean ====
section
/-!
DEFINITION. The state of the UN8170 as plain data: the register file, memory, the Yafort cores, each block's working
state and the queue of waiting commands; the fault and refusal reasons; the primitive state changes; the state after
reset.
-/
namespace Sys2Proof.Machine

/-! ### Yafort cores (chapters 02 and 03) -/

/-- A posted write of a core: a store to F space, or a P-class device operation with its opcode and sub (Table 03.2),
its register operands, its L block as read at issue (R97) and its instant; or the error response of one that has completed
at its target, on its way back (R54, R100): a bus error, or a code of Table 03.5 with the operation's opcode. -/
inductive Posted where
  | store (addr width value : Nat)
  | op (opcode sub : Nat) (a b : Word) (blk : List Word) (ta : Instant)
  | busError
  | refused (opcode code : Nat)
  deriving DecidableEq, Repr

/-- The answer of a target to a Q-class operation (R96): status code, detail, rd, DRES, output block, bus error. -/
structure Resp where
  code : Nat
  detail : Nat
  rd : Word
  dres : Word
  blk : List Word
  busErr : Bool
  deriving DecidableEq, Repr

/-- A Q-class operation in flight: opcode, sub, destination register, register operands, input block, output block's
L address and instant. -/
structure QReq where
  opcode : Nat
  sub : Nat
  rd : Nat
  a : Word
  b : Word
  blk : List Word
  outBlk : Nat
  ta : Instant
  deriving DecidableEq, Repr

/-- What a core waits for. `query` holds the response once the target has served the request. -/
inductive Wait where
  | none
  | ldf (rd addr width : Nat)
  | query (q : QReq) (resp : Option Resp)
  | twait (t : Instant)
  | fence
  | room (p : Posted)
  deriving DecidableEq, Repr

/-- CORE_STATE.STATE (Table 02.22). -/
inductive CoreRun where
  | held | idle | running | halted
  deriving DecidableEq, Repr

/-- One Yafort core: SC0-SC63, and the management core as number 64 (Tables 02.1, 02.2, 02.17, 03.4). -/
structure Core where
  g : FMap Word := []
  p : BitVec 8 := 1#8
  t : FMap Instant := []
  pc : Nat := 0
  cy : Bool := false
  be : Bool := false
  sat : Bool := false
  evsrc : Word := 0#32
  evarg : Word := 0#32
  evtime : Instant := 0#64
  xseg : Nat := 0
  cycleHi : Word := 0#32
  /-- LTB at which the core left HELD: CYCLE counts from it. -/
  released : Nat := 0
  /-- HBUDGET as loaded at dispatch, and LTB at dispatch: HLEFT counts down from them (R81). -/
  budget : Nat := 0
  dispatched : Nat := 0
  dstat : Word := 0#32
  derr : Word := 0#32
  dres : Word := 0#32
  dlat : Word := 0#32
  fvec : Word := 0#32
  fcause : Word := 0#32
  fpc : Word := 0#32
  faddr : Word := 0#32
  fsave : Word := 0#32
  inFault : Bool := false
  xcrc : Word := 0#32
  run : CoreRun := .held
  /-- The slot of the running handler, and whether it is the INIT handler (R75, R90). -/
  slot : Nat := 0
  init : Bool := false
  /-- A handler runs or is halted: a core halted outside one resumes to IDLE (assumption 9). -/
  inHandler : Bool := false
  /-- HALT was written while RUNNING: the core halts at its next DONE. -/
  haltReq : Bool := false
  /-- KILL was written while a Q-class response was awaited (R134). -/
  killReq : Bool := false
  faulted : Bool := false
  marked : Bool := false
  badBind : Bool := false
  /-- CORE_STATE.PC: the next instruction's address as captured when the core last left RUNNING. -/
  statePc : Nat := 0
  pend : BitVec 16 := 0#16
  slotArg : FMap Word := []
  slotTime : FMap Instant := []
  /-- Armed core timers (R108): timer number to instant. -/
  timers : FMap Instant := []
  wait : Wait := .none
  /-- LTB at which the present wait began (DLAT, R99). -/
  since : Nat := 0
  /-- Posted writes not yet completed, oldest first: at most four (R23). -/
  posted : List Posted := []
  /-- Words of the management core's RAM stored to since its last FENCE, with the word fetch still sees (R82). -/
  stale : FMap Word := []
  deriving DecidableEq, Repr

/-! ### Traffic manager (chapter 08) -/

/-- A ring descriptor, W0-W3 (Table 03.9). -/
structure Desc where
  w0 : Word
  w1 : Word
  w2 : Word
  w3 : Word
  deriving DecidableEq, Repr

/-- A descriptor held on a ring, with its STAMP (LTB µs) and its storage slot (R299, R303). -/
structure RingEntry where
  d : Desc
  stamp : Nat
  slot : Nat
  deriving DecidableEq, Repr

/-- One ring: its descriptors, head first, the next storage slot, the state of its pointer copies (0 good, 1 one copy
bad, 2 any other disagreement) and whether a reclaim runs (R305). -/
structure Ring where
  q : List RingEntry := []
  tail : Nat := 0
  ptrFault : Nat := 0
  reclaiming : Bool := false
  /-- LTB second in which EV_TM_LATENCY was last raised, plus one (R312). -/
  lateSec : Nat := 0
  deriving DecidableEq, Repr

/-- A completion or delivery its producer holds until the ring is enabled and has room (Table 08.5). -/
structure HeldPush where
  ring : Nat
  d : Desc
  /-- The producer: 1 voice, 2 cipher lane, 3 listen lane, 4 Atomiser, 5 Ethernet transmitter, with its unit. -/
  source : Nat
  unit : Nat
  deriving DecidableEq, Repr

structure Tm where
  rings : FMap Ring := []
  held : List HeldPush := []
  /-- TM_EXP.PTR_INJECT and PAR_INJECT await their next access (Table 08.20). -/
  ptrInject : Bool := false
  parInject : Bool := false
  deriving DecidableEq, Repr

/-! ### RF front-end (chapter 04) -/

/-- The working state of one RF port. -/
structure FePort where
  /-- The cause of the running calibration (EV20's codes: 0 start, 1 command, 2 temperature, 3 switch, 4 lock loss, 5
  forced), and LTB when it began. -/
  cal : Option Nat := none
  calSince : Nat := 0
  /-- The pending request's cause, LTB when it was made, and whether it has become forced, with its chosen instant S. -/
  pend : Option Nat := none
  pendSince : Nat := 0
  forcedAt : Option Instant := none
  /-- A failed calibration that is to be repeated, or whose repeat runs: its cause, and LTB when (R151). -/
  retry : Option (Nat × Nat) := none
  /-- The port is in the state of R151 after a second failure. -/
  failed : Bool := false
  /-- The AGC step, 0 the highest gain (R138, R204). -/
  agc : Nat := 0
  /-- Consecutive fault measurements in this transmission, and consecutive good ones at folded power (R159, R160). -/
  faults : Nat := 0
  goods : Nat := 0
  /-- LTB ns of the last load measurement. -/
  measured : Option Nat := none
  /-- What ANT_SEL drives, and whether a written value waits (R156). -/
  antPins : Nat := 0
  antWait : Bool := false
  /-- PA_EN is active (R153). -/
  paEn : Bool := false
  /-- LTB of the end, or drop, of the port's last transmission (R153, R156). -/
  lastEnd : Nat := 0
  deriving DecidableEq, Repr

structure Fe where
  ports : FMap FePort := []
  /-- The slot of a running install and the result it will end with (R165). -/
  install : Option (Nat × Nat) := none
  /-- An accepted arm that has not yet set ARMED, and the armed switch: slot and instant (R169). -/
  arming : Option (Nat × Instant) := none
  armed : Option (Nat × Instant) := none
  /-- A switch that has taken place: ports still calibrating, ports that failed, the old slot, and whether none was
  active (R171). -/
  switching : Option (List Nat × List Nat × Nat × Bool) := none
  deriving DecidableEq, Repr

/-! ### Baseband (chapter 05) -/

/-- Who staged a transmission: a program by TXAT, MAC, or the Atomiser. -/
inductive TxOwner where
  | program | ack | beacon | recovery | downlink | null | flood
  deriving DecidableEq, Repr

/-- How far a staged transmission has come. -/
inductive TxPhase where
  | armed | waitLock | onAir
  deriving DecidableEq, Repr

/-- A staged transmission (R125, R210). Power is in half dB; times in ns. -/
structure Staged where
  voice : Nat
  place : Nat
  port : Nat
  chan : Nat
  mode : Nat
  request : Int
  power : Int
  fcs : Bool
  cca : Bool
  buf : Nat
  len : Nat
  tag : Word
  cring : Nat
  owner : TxOwner
  /-- The node, or the Atomiser's job and target, that the owner staged it for. -/
  ident : Nat
  /-- The trigger's instant: 200 ns before the first chip. -/
  trig : Instant
  lead : Nat
  air : Nat
  stagedAt : Instant
  phase : TxPhase := .armed
  /-- The first chip's instant, the lateness, the applied power, and the marks of Table 05.9's DETAIL. -/
  launched : Instant := 0#64
  late : Nat := 0
  applied : Int := 0
  cut : Bool := false
  folded : Bool := false
  deriving DecidableEq, Repr

/-- The end of a transmission of MAC or the Atomiser: owner, ident, status (Table 05.9) and the last chip's instant. -/
structure TxDone where
  owner : TxOwner
  ident : Nat
  status : Nat
  port : Nat
  chan : Nat
  mode : Nat
  buf : Nat
  ends : Instant
  deriving DecidableEq, Repr

/-- Lane states (Table 05.5). -/
inductive LaneRun where
  | off | free | search | sync | receive | done
  deriving DecidableEq, Repr

/-- A frame being received: PEAK and RSSI in 0.25 dB. -/
structure RxFrame where
  port : Nat
  chan : Nat
  mode : Nat
  peak : Int
  captured : Bool := false
  preempted : Bool := false
  overlap : Bool := false
  listen : Bool := false
  agcMoved : Bool := false
  agc : Nat := 0
  rssi : Int := 0
  sfd : Instant := 0#64
  frac : Nat := 0
  buf : Option Nat := none
  len : Nat := 0
  /-- PSDU bytes reported so far. -/
  got : Nat := 0
  /-- Bytes of the frame already seen, to check the FCS. -/
  psdu : List Nat := []
  /-- FCS good, and the descriptor and record are ready (state DONE). -/
  fcsOk : Bool := false
  deriving DecidableEq, Repr

/-- A frame in a lane's output queue: its RXRADIO descriptor, and whether its FCS was good. -/
structure OutEntry where
  d : Desc
  good : Bool
  deriving DecidableEq, Repr

/-- A window committed to a set-aside lane (R201, R234). -/
structure Window where
  from_ : Instant
  dur : Nat
  chan : Nat
  mode : Nat
  byListen : Bool
  opened : Bool := false
  closed : Bool := false
  frames : Nat := 0
  /-- Microseconds by which the lane's previous frame delayed it (R201). -/
  late : Nat := 0
  deriving DecidableEq, Repr

/-- One receive lane. -/
structure Lane where
  run : LaneRun := .off
  stream : Option Nat := none
  /-- A blank has paused its search (R199). -/
  paused : Bool := false
  /-- LTB when it entered SYNC (R195), and its acquisition number (R203). -/
  since : Nat := 0
  acquired : Nat := 0
  frame : Option RxFrame := none
  outq : List OutEntry := []
  /-- LTB since when the output queue has been full. -/
  fullSince : Option Nat := none
  windows : List Window := []
  /-- OFF until a reset after a failed check (R216). -/
  broken : Bool := false
  deriving DecidableEq, Repr

structure Bb where
  staged : List Staged := []
  done : List TxDone := []
  lanes : FMap Lane := []
  acquisitions : Nat := 0
  /-- False detections of a port in an ATB second: (second, count, alarm raised) (R195). -/
  falseDet : FMap (Nat × Nat × Bool) := []
  /-- Streams (port * 32 + stream) whose present period without a lane has been reported (R193). -/
  noSearch : List Nat := []
  /-- Ports whose receiver is blanked (R139, R199). -/
  blanked : List Nat := []
  deriving DecidableEq, Repr

/-! ### Medium access (chapter 06) -/

/-- The MAC half of a node record (Table 06.9), with the field that the record does not show: whether the node's anchor
is the one the tag holds (R231). -/
structure Node where
  eui : Nat := 0
  state : Nat := 0
  misses : Nat := 0
  port : Nat := 0
  mode : Nat := 0
  chan : Nat := 0
  txpwr : Nat := 0
  flags : Nat := 0
  temp : Nat := 0
  dsn : Nat := 0
  anchor : Nat := 0
  wake : Nat := 0
  altWake : Nat := 0
  interval : Nat := 0
  rate : Int := 0
  dev : Nat := 0
  guard : Nat := 0
  lastErr : Nat := 0
  lastHeard : Nat := 0
  fcRx : Nat := 0
  rxCount : Nat := 0
  missTotal : Nat := 0
  dlCount : Nat := 0
  dlRetry : Nat := 0
  dlHead : Nat := 0
  dlTail : Nat := 0
  calEntry : Nat := 0
  rssi : Nat := 0
  lqi : Nat := 0
  searchSince : Nat := 0
  deriving DecidableEq, Repr

/-- A calendar WAKE entry: its node, the slot it is filed in, and its wake instant (R237, R238). -/
structure CalEntry where
  nidx : Nat
  slot : Nat
  wake : Nat
  alt : Bool := false
  overflow : Bool := false
  deriving DecidableEq, Repr

/-- A wake whose slot MAC has processed: E and the guard in ns, its decision instant, and the lane committed to it. -/
structure Watch where
  nidx : Nat
  wake : Nat
  e : Nat
  g : Nat
  decide_ : Nat
  alt : Bool
  lane : Option Nat
  heard : Bool := false
  deriving DecidableEq, Repr

/-- The measurement of a node's latest authenticated frame (R230, R235): the wake W it was measured against, the error in
ns, the last chip's instant, and what the acknowledgement needs of the frame. -/
structure Meas where
  sfd : Nat
  wake : Nat
  err : Int
  ends : Nat
  port : Nat
  chan : Nat
  mode : Nat
  level : Nat
  seq : Nat
  /-- 0 the node's main wake, 1 its alternate wake, 2 an unscheduled frame. -/
  kind : Nat
  searched : Bool
  deriving DecidableEq, Repr

/-- A downlink frame in a node's ring (R246, R247). -/
structure DlFrame where
  d : Desc
  sealed : Bool := false
  seq : Nat := 0
  fp : Bool := false
  deriving DecidableEq, Repr

/-- An acknowledgement staged for a node (R236): the new anchor, its NEXT, and the anchor to restore. -/
structure AckOut where
  anchor : Nat
  wake : Nat
  fp : Bool
  oldAnchor : Nat
  oldWake : Nat
  changed : Bool
  oldState : Nat
  buf : Nat
  deriving DecidableEq, Repr

/-- A downlink burst under way to a node (R247): frames gone in this wake, and what is awaited. -/
structure Burst where
  port : Nat
  chan : Nat
  mode : Nat
  sent : Nat
  /-- The staged frame is a NULL frame. -/
  isNull : Bool := false
  /-- The sequence number awaited in the tag's acknowledgement, and the SFD instant expected, once the frame is sent. -/
  await_ : Option (Nat × Nat) := none
  /-- The lane and SFD instant of a frame whose SFD was reported inside the window awaited. -/
  seen : Option (Nat × Nat) := none
  deriving DecidableEq, Repr

/-- A charge of airtime (R249): port, profile sub-band entry, channel, launch instant and airtime in ns. -/
structure Charge where
  port : Nat
  sub : Nat
  chan : Nat
  at_ : Nat
  air : Nat
  deriving DecidableEq, Repr

/-- An authenticated frame handed to MAC (R230): its node, SFD instant, PSDU, reception record, arrival and mode. -/
structure MacFrame where
  nidx : Nat
  buf : Nat
  sfd : Nat
  psdu : List Nat
  record : List Nat
  port : Nat
  chan : Nat
  mode : Nat
  deriving DecidableEq, Repr

structure Mac where
  /-- The node cache: MAC halves held on chip (R227). -/
  cache : FMap Node := []
  /-- Nodes whose anchor is the one the tag holds (R231), by NIDX. -/
  synced : FMap Bool := []
  /-- Nodes in SEARCH. -/
  search : List Nat := []
  calendar : List CalEntry := []
  /-- The next slot to process (R237). -/
  slot : Nat := 0
  watches : List Watch := []
  meas : FMap Meas := []
  downlink : FMap (List DlFrame) := []
  acks : FMap AckOut := []
  bursts : FMap Burst := []
  charges : List Charge := []
  /-- Beacon sequence number of each port. -/
  bsn : FMap Nat := []
  /-- The time parent: TIME and INTERVAL (ms) of its last beacon, and whether one is expected (R244). -/
  parent : Option (Nat × Nat) := none
  /-- Frames awaiting MAC's handling. -/
  inbox : List MacFrame := []
  /-- Parent beacons, and tag acknowledgements that MAC expects. -/
  beacons : List MacFrame := []
  tagAcks : List MacFrame := []
  /-- Recovery contention slots open: port, first slot's instant, span in ns (R240, R242). -/
  contention : List (Nat × Nat × Nat) := []
  /-- The instant of each port's latest recovery beacon, and the 16.384 s period in which the overflow list last moved. -/
  recov : FMap Nat := []
  migrated : Nat := 0
  /-- The interval each tag holds, in slots, where it differs from its record's INTERVAL (R236). -/
  tagIv : FMap Nat := []
  deriving DecidableEq, Repr

/-! ### Forwarding (chapter 07) -/

/-- Classes of received frames (Table 07.4). -/
inductive FwdClass where
  | other | tagAck | beacon | miss | poll | uplink | bcast | peer
  deriving DecidableEq, Repr

/-- The key and status a key load delivered (R338): material, the slots and EPOCHs bound, GEN, and the node key's EUI-64. -/
structure KeyMat where
  material : List Nat
  slots : List (Nat × Nat)
  gen : Nat
  eui : Option Nat
  deriving DecidableEq, Repr

/-- A decision FWD has made for the frame of a lane (R262-R265). -/
structure Decision where
  /-- The receive lane whose frame it concerns. -/
  lane : Nat
  cls : FwdClass
  nidx : Nat
  managed : Bool
  /-- The frame is opened, under this key reference. -/
  opened : Bool
  ref : Word
  ring : Nat
  paysel : Bool
  buf : Nat
  port : Nat
  chan : Nat
  /-- The source key: kind (0 EUI-64, 1 short) and value, if the frame carries a source. -/
  src : Option (Nat × Nat)
  /-- The key load's outcome: a Table 09.8 status with no key, or the key. -/
  key : Option (Nat × Option KeyMat) := none
  /-- The receive job was refused by the ring, or discarded: the frame is not delivered (R264, R325). -/
  lost : Bool := false
  /-- The frame's RXRADIO descriptor, once its FCS was good, while the job waits on its ring. -/
  frame : Option Desc := none
  /-- The frame's learn: 0 not presented, 1 in its queue, 2 committed or not needed. -/
  learn : Nat := 0
  deriving DecidableEq, Repr

/-- A learn in a bank's queue (R267). `after` is the head buffer of the frame that waits for it, with whether its source
was managed at the decision. -/
structure Learn where
  kind : Nat
  key : Nat
  port : Nat
  lqi : Nat
  managed : Bool
  nidx : Nat
  bank : Nat
  hardware : Bool
  after : Option (Nat × Bool)
  deriving DecidableEq, Repr

/-- A datagram being reassembled (R284): its link addresses, size, tag and first arrival (ATB ns), the NIDX and port code of
its source, and its fragments as (offset, uncompressed length, head buffer). -/
structure Reasm where
  src : Nat × Nat
  dst : Nat × Nat
  size : Nat
  tag : Nat
  since : Nat
  nidx : Nat
  code : Nat
  parts : List (Nat × Nat × Nat)
  deriving DecidableEq, Repr

/-- One target of a flood: 0 waiting, 1 staged, 2 sent, 3 skipped; tries so far, and the launch instant. -/
structure Target where
  index : Nat
  port : Nat
  chan : Nat
  mode : Nat
  power : Int
  st : Nat := 0
  tries : Nat := 0
  launch : Nat := 0
  retryAt : Nat := 0
  deriving DecidableEq, Repr

/-- An Atomiser job (R279-R282). `owner`: 0 a FLOOD descriptor, 1 a flood that has no completion. -/
structure AtomJob where
  id : Nat
  owner : Nat
  buf : Nat
  len : Nat
  cring : Nat
  set : Nat
  /-- START in slots, and the acceptance instant in ns. -/
  start : Nat
  tag : Word
  /-- The message identifier to test in Sillage: ORIG, KIND, SEQ, CLASS. -/
  sil : Option (Nat × Nat × Nat × Nat) := none
  hopdec : Bool := false
  /-- LEVEL of a job with SEAL. -/
  level : Option Nat := none
  /-- The port and channel on which the frame arrived. -/
  arrival : Option (Nat × Nat) := none
  accepted : Nat := 0
  /-- 0 waiting, 1 its seal runs, 2 its targets are staged, 3 it takes no more stagings (R288). -/
  stage : Nat := 0
  targets : List Target := []
  deriving DecidableEq, Repr

structure Fwd where
  /-- Decisions made, by the head buffer of their frame. -/
  decisions : FMap Decision := []
  learns : List Learn := []
  /-- The rotating pointer of each bank (R260). -/
  rotor : FMap Nat := []
  /-- The sweeper's place in each bank, and the instant of its last visit in 1/32 ns of ATB (R271). -/
  sweep : FMap (Nat × Nat) := []
  /-- The 64 ms period of ATB in which the background pass last ran (R268). -/
  holdAt : Option Nat := none
  /-- Learning credits spent, by limit group, in thousandths: the credit is BURST * 1000 less this (R269). -/
  spent : FMap Nat := []
  /-- A flush under way: its operation and the banks still to pass (R274). -/
  flush : Option (Nat × List Nat) := none
  /-- Opened frames handed back with PAYSEL: descriptor, lane's arrival (port code), NIDX (R263). -/
  paysel : List (Desc × Nat × Nat) := []
  /-- 6LoWPAN frames waiting for the adaptation block: descriptor, port code, NIDX. -/
  upward : List (Desc × Nat × Nat) := []
  reasm : List Reasm := []
  jobs : List AtomJob := []
  jobCount : Nat := 0
  atomSeq : Nat := 0
  dgramTag : Nat := 0
  /-- Commits held by the sweeper: removals issued and not yet made (bank, row, way, GEN). -/
  removals : List (Nat × Nat × Nat × Nat) := []
  deriving DecidableEq, Repr

/-! ### Cipher engine (chapter 09) -/

/-- Who submitted a whole-lane job, and for what. -/
inductive JobOwner where
  | program | mac (owner : TxOwner) (ident : Nat) | atom (job : Nat) | dis (ident : Nat)
  deriving DecidableEq, Repr

/-- A whole-lane job (Table 03.12). `key` is the key load's outcome: a status with no key, or the key; `fc` the counter
drawn. -/
structure CryJob where
  sealing : Bool
  ref : Word
  buf : Nat
  cring : Nat
  len : Nat
  hdrLen : Nat
  level : Nat
  alg : Nat
  early : Bool
  tag : Word
  owner : JobOwner
  key : Option (Nat × Option KeyMat) := none
  fc : Nat := 0
  /-- A parity error or a revocation has ended it with this status. -/
  dead : Option Nat := none
  /-- An early job: chain buffers already released. -/
  slices : Nat := 0
  deriving DecidableEq, Repr

/-- A receive context (R322): the receive lane, the chain, the class ring, and the frame once its FCS is good. -/
structure RxCtx where
  lane : Nat
  d : Desc
  /-- The RXRADIO descriptor handed over at good FCS. -/
  frame : Option Desc := none
  /-- A parity error or a revocation has ended it with this status. -/
  dead : Option Nat := none
  /-- Its tag has verified and its learn waits to commit. -/
  verified : Bool := false
  decision : Decision
  deriving DecidableEq, Repr

structure Cry where
  /-- Receive contexts, by cipher lane * 16 + area. -/
  ctxs : FMap RxCtx := []
  /-- Whole-lane jobs, by cipher lane. -/
  whole : FMap CryJob := []
  /-- Queued jobs: programs' (at most 64), MAC's, the Atomiser's, DIS's. -/
  jobq : List CryJob := []
  macq : List CryJob := []
  atomq : List CryJob := []
  disq : List CryJob := []
  /-- DIS's jobs that have ended: ident and status. -/
  disDone : List (Nat × Nat) := []
  /-- The source served last of Atomiser 0, DIS 1, programs 2 (R324). -/
  rr : Nat := 2
  /-- Live frame counters by slot (R332), and ceiling writes under way. -/
  live : FMap Nat := []
  ceiling : FMap Nat := []
  /-- Slots whose FC_WARN and exhaustion have been reported in this generation. -/
  warned : List Nat := []
  exhausted : List Nat := []
  deriving DecidableEq, Repr

/-! ### Key store (chapter 10) -/

/-- A slot of the working store (Table 10.3): LEVEL 0 is EMPTY; `live` names its live MRAM copy. -/
structure KeySlot where
  epoch : Nat := 0
  level : Nat := 0
  origin : Nat := 0
  big : Bool := false
  attr : Nat := 0
  parent : Nat := 0xFFFF
  pepoch : Nat := 0
  material : List Nat := []
  live : Nat := 1
  deriving DecidableEq, Repr

/-- An entry of the derived-key cache (R363), most recently used last; `bad` marks one with bad parity. -/
structure CacheKey where
  nidx : Nat
  slot : Nat
  epoch : Nat
  material : List Nat
  bad : Bool := false
  deriving DecidableEq, Repr

/-- Who waits for a key load: the decision on the frame in a chain, the whole-lane job of a cipher lane, or a core's
KFETCH. -/
inductive KeyUser where
  | decision (buf : Nat) | whole (cl : Nat) | kfetch (core : Nat)
  deriving DecidableEq, Repr

/-- A derivation (R364): the node, what was bound, and who waits. -/
structure Derivation where
  nidx : Nat
  slot : Nat
  material : List Nat
  big : Bool
  bound : List (Nat × Nat)
  /-- The node's map entry has been written since: the result is not cached (R371). -/
  uncached : Bool := false
  /-- Who waits, each with the key reference it named. -/
  users : List (KeyUser × Word)
  deriving DecidableEq, Repr

/-- A key operation that ran and whose end is due: OP, slot, RESULT, KCV if it committed. -/
structure KeyOpRun where
  op : Nat
  slot : Nat
  result : Nat
  kcv : Option (List Nat) := none
  deriving DecidableEq, Repr

structure Key where
  slots : FMap KeySlot := []
  cache : List CacheKey := []
  loads : List (KeyUser × Word) := []
  derivations : List Derivation := []
  op : Option KeyOpRun := none
  /-- KEY_DATA as written by the management core, which no master can read. -/
  data : FMap Word := []
  rootRun : Bool := false
  parInject : Bool := false
  deriving DecidableEq, Repr

/-! ### Accord (chapter 11) -/

/-- One trigger comparator (R405-R410): its instant, the core of its latest arming (PROGRAM class) and its action word. -/
structure Comp where
  armed : Bool := false
  at_ : Instant := 0#64
  owner : Nat := 0
  everArmed : Bool := false
  fired : Bool := false
  action : Word := 0#32
  /-- Its stored word holds a double error (R409). -/
  bad : Bool := false
  deriving DecidableEq, Repr

structure Acc where
  /-- ATB in units of 2^-48 ns since the epoch (R380, R381). -/
  atb : Nat := 0
  /-- LTB in ns (R382). -/
  ltb : Nat := 0
  /-- RATE in effect, signed, in 2^-48 ns per cycle (R381, R390). -/
  rate : Int := 0
  /-- Remaining slew in units of 2^-48 ns (R393). -/
  slewLeft : Int := 0
  /-- The slew's step per cycle in units of 2^-48 ns, as SLEW_CFG stood at its start. -/
  slewRate : Nat := 0
  /-- Measurements handed to the servo and not yet acted on: source (1 parent, 2 PPS), θ in 2^-16 ns, and the reference
  instant in ns (R394). -/
  queue : List (Nat × Int × Int) := []
  /-- Accepted measurements since ACQUIRE was entered, the lock count and the consecutive rejections (R395, R396). -/
  measN : Nat := 0
  lockCount : Nat := 0
  rejects : Nat := 0
  /-- The reference instant in ns of the last accepted measurement, or under SOFT ATB at the last RATE write or the change
  to SOFT (R395, R397). -/
  lastMeas : Int := 0
  /-- LTB at which the SOFT_TIMEOUT count last restarted (R390). -/
  softSince : Nat := 0
  holdLimitRaised : Bool := false
  comps : FMap Comp := []
  /-- STRATUM of the parent's last CLOCK byte (R399). -/
  parentStratum : Nat := 127
  /-- The next whole ATB second at which a requested calendar write is made (R388). -/
  rtcAtSec : Nat := 0
  /-- The level PPS_OUT drives (true: active), and the LTB at which it returns to inactive (R411). -/
  ppsOut : Bool := false
  ppsOutUntil : Nat := 0
  /-- LTB at the last PPS_IN edge (R410). -/
  ppsInLast : Nat := 0
  /-- ACC_EXP.ECC_INJECT awaits the next PROGRAM arm (Table 11.18). -/
  eccInject : Bool := false
  deriving DecidableEq, Repr

/-! ### The real-time clock (chapter 12) -/

/-- The RTC's counters and armed alarms, all in PD_BKP, and what PD_AON still owes an event for. -/
structure Rtc where
  /-- The calendar, in seconds since 2000-01-01 00:00:00, and the prescaler's count in it (R415). -/
  cal : Nat := 0
  sub : Nat := 0
  elapsed : Nat := 0
  /-- The phase of CK_RTC against CK_ACC, in units of 2^-15 of a billionth of a second (assumption 23). -/
  phase : Nat := 0
  /-- Oscillator cycles of the present trim window, the trim it uses, and PD_BKP's copy of TRIM_EFF (R418, R419). -/
  cycle : Nat := 0
  trim : Int := 0
  trimCopy : Int := 0
  /-- The calendar instant of an accepted SET that has not loaded (R417). -/
  staged : Nat := 0
  /-- Each armed alarm's next target, in seconds or in ticks, and its mode as taken at ARM (R426). -/
  target : FMap Nat := []
  byElapsed : FMap Bool := []
  /-- The interface is locked out (R423). -/
  locked : Bool := false
  /-- ELAPSED when the switch selected VBAT, and the seconds on VBAT that EV_RTC_BACKUP has still to report. -/
  vbatSince : Nat := 0
  backup : Option Nat := none
  /-- Alarms that fired while PD_AON had no power, as EV_RTC_ALARM's argument. -/
  owed : Nat := 0
  deriving DecidableEq, Repr

/-! ### Power, Drydown and reset (chapter 13) -/

/-- An access waiting for an AUTO_WAKE domain (R451). `kind`: 0 an access by itself, 1 a core's LDF, 2 a core's posted
write, 3 a core's request, 4 a host transaction, 5 an XCOPY. -/
structure Stalled where
  kind : Nat
  master : Nat
  domain : Nat
  addr : Nat
  width : Nat
  write : Bool
  value : Nat
  since : Nat
  deriving DecidableEq, Repr

/-- Drydown, the wake controller, the watchdog and the supply monitors' working state. -/
structure Plt where
  /-- Drydown's present position in the order of Table 13.3 (0-18), and LTB when that position began. -/
  ddPos : Nat := 0
  ddSince : Nat := 0
  /-- DD_KEEP and DD_RETAIN as they stood at GO (R443). -/
  ddKeep : Nat := 0
  ddRetain : Nat := 0
  /-- Domains stopped in this run, last first, each with whether it was stopped to CLKOFF. -/
  ddStopped : List (Nat × Bool) := []
  /-- A domain voted for after it had been stopped in this run (R444). -/
  reasserted : Option Nat := none
  /-- Domains still to be restarted by a rollback, next first, and its refusing domain and cause (R445). -/
  rollback : List (Nat × Bool) := []
  abortDom : Nat := 0
  abortCause : Nat := 0
  /-- The 6-cycle entry window is open (R446). -/
  entryWindow : Bool := false
  /-- Domains of the wake in progress that are not ON yet, and the sources and edge event that began it (R447). -/
  waking : List Nat := []
  wakeSrc : Nat := 0
  wakeEvent : Nat := 0
  /-- An edge that reached the wake controller and has not yet begun a wake: its event number (R448, R449). -/
  edge : Option Nat := none
  /-- Level wake sources now active, bits as WAKE_EN: 0 WAKE_N low, 2 host select, 4 twin loss, 6 a vote. -/
  levels : Nat := 0
  /-- Accesses stalled on a waking AUTO_WAKE domain. -/
  stalled : List Stalled := []
  /-- LTB in ms when the watchdog's count last restarted (R456). -/
  wdogStart : Nat := 0
  /-- The PD_AON reset is still held (R455). -/
  aonHeld : Bool := false
  /-- ATB's start from the calendar waits for the RTC interface (R387, R423). -/
  atbWaits : Bool := false
  /-- Domains now powering up, each with the LTB at which it reads ON (R447). -/
  powering : FMap Nat := []
  /-- Those of them that leave CLKOFF, with their logic state kept (R439). -/
  warm : List Nat := []
  /-- The power-up after a reset is under way, rather than a wake (R454). -/
  resetUp : Bool := false
  /-- VDD2 or VDDQ has failed: DRAM accesses end in bus errors until a CORE reset (R457). -/
  dramDead : Bool := false
  deriving DecidableEq, Repr

/-! ### Dissemination (chapter 14) -/

/-- One campaign's schedule as START took it, and its progress beyond what DRAM holds. -/
structure Camp where
  /-- A LOAD's body is being read, or a CLEAR runs: BUSY. -/
  loading : Bool := false
  /-- CMP_SRC as the LOAD took it. -/
  src : Nat := 0
  /-- The burst grid and settings of START (R468). -/
  at_ : Instant := 0#64
  period : Nat := 0
  len : Nat := 0
  gap : Nat := 0
  fragLen : Nat := 0
  level : Nat := 0
  set : Nat := 0
  keySel : Nat := 0
  keySlot : Nat := 0
  /-- The next burst instant's number, and the next fragment not offered. -/
  burst : Nat := 0
  next : Nat := 0
  /-- The NACK phase's end, while one runs (R470). -/
  nackEnd : Option Instant := none
  /-- The campaign left COMPLETE or EXHAUSTED on a NACK: a round is built at the next burst instant. -/
  rebuild : Bool := false
  /-- Nodes whose NACK has been accepted since the round started. -/
  heard : List Nat := []
  /-- Consecutive seal failures (R469). -/
  fails : Nat := 0
  /-- Notices (0) and DIS_ACTs (1) that MAC refused: node, kind and the LTB of the next offer (R467). -/
  retry : List (Nat × Nat × Nat) := []
  deriving DecidableEq, Repr

/-- A fragment on its way: its campaign and number, its chain, its launch instant, and whether its FLOOD job is with the
Atomiser. -/
structure FragJob where
  id : Nat
  camp : Nat
  frag : Nat
  buf : Nat
  at_ : Instant
  flooded : Bool := false
  deriving DecidableEq, Repr

structure Dis where
  camps : FMap Camp := []
  jobs : List FragJob := []
  nextId : Nat := 0
  deriving DecidableEq, Repr

/-! ### MRAM, fuses, images and the life cycle (chapter 15) -/

/-- The fuse banks (Table 15.6). They keep their contents through every reset and power loss; a blank unit's are 0
(assumption 3). -/
structure Nv where
  /-- Programmed life-cycle fuses: 0 BLANK, 1 FACTORY, 2 PROVISIONED, 3 FIELD, 4 RETURN, 5 SCRAPPED; 6 fuses. -/
  lcs : Nat := 0
  root : List Nat := List.replicate 32 0
  rootSet : Bool := false
  eui : Nat := 0
  hwClass : Nat := 0
  tktHash : Nat := 0
  hwSet : Bool := false
  keyRev : Nat := 0
  epoch : Nat := 0
  /-- MRAM words that hold an error, by word address: 1 a single error, 2 a double one (R483); injections that await the
  next program-area word. -/
  bad : FMap Nat := []
  inject1 : Bool := false
  inject2 : Bool := false
  /-- Entries of the REPAIR fuse bank (R550): class, unit, spare and row, as REPAIR_ENT holds them. -/
  repair : List Nat := []
  /-- A LOAD whose header was accepted: the header, the source, and whether it answers a push of the twin (R493, R532). -/
  load : Option (List Nat × Nat × Bool) := none
  /-- FUSE_DATA as written, which no master can read, and the return-token nonce drawn last (R506). -/
  fuseData : FMap Word := []
  nonce : Option (List Nat) := none
  /-- The boot ROM has yet to run since the last reset or wake (R496); a bank runs (R482). -/
  bootDue : Bool := true
  runs : Bool := false
  /-- LTB at which a PENDING bank started (R502). -/
  confirmFrom : Nat := 0
  /-- The armed activation is shared with the twin (R503). -/
  twinArm : Bool := false
  deriving DecidableEq, Repr

/-! ### Twin operation (chapter 16) -/

structure Twn where
  /-- The next SEQ of each frame TYPE sent (R513). -/
  seqs : FMap Nat := []
  /-- The frames that the latest sending command put on the link. -/
  outs : List (List Nat) := []
  /-- HB_KICK since the last HB, consecutive unkicked instants, and the LTB until which none is needed (R514, R524, R534). -/
  kicked : Bool := false
  unkicked : Nat := 0
  grace : Option Nat := none
  /-- Consecutive missed HBs; the newest 10 ms instant whose window has been judged, and the newest an HB answered. -/
  missed : Nat := 0
  judged : Nat := 0
  heard : Nat := 0
  /-- LTB of the last HB received, and the role its sender gave. -/
  lastHb : Option Nat := none
  peer : Nat := 0
  /-- LTB when STARTING began (R511). -/
  joinSince : Nat := 0
  /-- The number of the last checkpoint captured, the LTB until which its frames are being sent, and whether a capture
  waits for it (R519). -/
  ck : Nat := 0
  ckBusy : Nat := 0
  ckLate : Bool := false
  /-- The next checkpoint is a baseline, paced under BASE_RATE (R535). -/
  baseline : Bool := false
  /-- Dirty node records and node map entries, and those of them that the unacknowledged checkpoint carries. -/
  dirty : List Nat := []
  dirtyMap : List Nat := []
  carried : List Nat := []
  carriedMap : List Nat := []
  /-- The journal of the checkpoint being received: its length in DRAM, its records and the CRC so far (R521). -/
  jlen : Nat := 0
  jcount : Nat := 0
  jcrc : Nat := 0
  /-- A checkpoint being applied to the mirror, and a RESTORE that runs. -/
  applying : Option Nat := none
  restoring : Bool := false
  /-- ROLE_EPOCH of the last checkpoint applied, and whether the DRAM goes back to self-refresh after the apply (R512, R517). -/
  ckEpoch : Nat := 0
  resleep : Bool := false
  /-- Steering by HBs: accepted measurements, the frequency and the last reference instant (R516). -/
  measN : Nat := 0
  freq : Int := 0
  lastRef : Int := 0
  /-- A planned handover is armed (R531). -/
  handover : Bool := false
  /-- The role and registers kept for a shared activation, in PD_AON (R534). -/
  shadow : Option (List (Nat × Nat)) := none
  deriving DecidableEq, Repr

/-! ### In-service test (chapter 17) -/

/-- A running slice: its unit, the LTB at which it ends, and whether it is forced. -/
structure Slice where
  cls : Nat
  unit : Nat
  ends : Nat
  forced : Bool
  deriving DecidableEq, Repr

/-- A unit's results (Table 17.9). -/
structure IstUnit where
  outcome : Nat := 0
  done : Bool := false
  repaired : Bool := false
  forced : Bool := false
  incRun : Nat := 0
  passes : Nat := 0
  sig : Word := 0#32
  deriving DecidableEq, Repr

structure Ist where
  running : List Slice := []
  /-- Slices asked for and not started: class, unit, and whether forced. -/
  queue : List (Nat × Nat × Bool) := []
  /-- Ballast that stands in for a yielded slice: mA, and the LTB at which it is released. -/
  ballast : List (Nat × Nat) := []
  /-- The last boundary at which slices were started. -/
  boundary : Nat := 0
  /-- LTB at which each unit's last slice was offered (R543). -/
  offered : FMap Nat := []
  /-- Units of the start-up sweep that have not yet ended PASS or FAIL. -/
  sweep : List (Nat × Nat) := []
  /-- Results by class * 256 + unit, and PIN_RES by ball. -/
  results : FMap IstUnit := []
  pins : FMap (Nat × Nat) := []
  /-- Soft repairs, as REPAIR_ENT holds them (R549). -/
  soft : List Nat := []
  /-- Voices out of service until a reset (R548). -/
  voices : List Nat := []
  /-- Domains under full BIST. -/
  bist : Option Nat := none
  /-- For each host data ball: its level, and for how many host-driven beats it has held it (R552). -/
  hostRuns : FMap (Nat × Nat) := []
  deriving DecidableEq, Repr

/-! ### Host port and Ethernet (chapter 18) -/

/-- A host READ or WRITE on its way: the next word's physical address, the words left, the bytes still to be written, the
words done and the bytes read (R565). -/
structure HostRun where
  write : Bool
  addr : Nat
  left : Nat
  rest : List Nat := []
  done : Nat := 0
  data : List Nat := []
  deriving DecidableEq, Repr

structure Hif where
  /-- HSEL_N is asserted; a transaction has begun and its response has not been finished. -/
  selected : Bool := false
  open_ : Bool := false
  /-- A transaction of this select has ended: the next needs a new select (R563). -/
  spent : Bool := false
  /-- A READ or WRITE that waits for an AUTO_WAKE domain (R451). -/
  stall : Option HostRun := none
  /-- The response bytes of the latest transaction. -/
  resp : List Nat := []
  /-- The descriptor a POP is returning: ring, descriptor, STREAM (R568). -/
  popped : Option (Nat × Desc × Bool) := none
  /-- Return slots, by ring. -/
  returned : FMap Desc := []
  deriving DecidableEq, Repr

/-- One Ethernet port's working state. -/
structure EthPort where
  /-- The frame being sent: its descriptor, its bytes as sent, and the ATB nanosecond of its first bit after the SFD. -/
  tx : Option (Desc × List Nat × Nat) := none
  /-- LTB until which a received PAUSE holds the transmitter. -/
  pause : Nat := 0
  deriving DecidableEq, Repr

structure Eth where
  ports : FMap EthPort := []
  /-- The MDIO frame being sent: whether it reads. -/
  mdio : Option Bool := none
  deriving DecidableEq, Repr

/-! ### The DRAM controller (chapter 18) -/

structure Ddr where
  /-- LTB when the training under way began, and whether it takes the fast path (R580). -/
  since : Nat := 0
  fast : Bool := false
  /-- The DRAM is in a self-refresh the controller entered itself, stored training results are valid, and the die
  temperature at them (°C). -/
  refreshing : Bool := false
  trained : Bool := false
  temp : Int := 0
  /-- LTB of the last access, for SR_IDLE (R582). -/
  accessed : Nat := 0
  /-- 64-bit words that hold a double error, and an injection that awaits the next word written (Table 18.15). -/
  bad : List Nat := []
  inject : Bool := false
  deriving DecidableEq, Repr

/-! ### GPIO and retained balls (chapters 18 and 13) -/

structure Gpio where
  /-- Trigger drives whose ball moves at an instant to come: pin, level, instant (R590). -/
  moves : List (Nat × Nat × Instant) := []
  /-- What the balls of group H (GPIO16-GPIO23) and of group ANT hold while retained: levels, and for H whether each is
  driven (R453). -/
  heldH : Nat := 0
  drivenH : Nat := 0
  heldAnt : Nat := 0
  deriving DecidableEq, Repr

/-! ### Event router and error log (chapter 19) -/

/-- One error-log entry: the four words of Table 19.3. -/
structure LogEntry where
  w0 : Nat
  w1 : Nat
  w2 : Nat
  w3 : Nat
  deriving DecidableEq, Repr

/-- A delivery on its way from the router to a core's binding slots (R601, R602). -/
structure Delivery where
  event : Nat
  arg : Nat
  core : Nat
  deriving DecidableEq, Repr

/-- A firing offered to the router and not yet served; `logged` marks one that acted on the log from its held latch. -/
structure Firing where
  event : Nat
  arg : Nat
  logged : Bool := false
  deriving DecidableEq, Repr

/-- The event router, the host event queue, the error log and the held latches. -/
structure Evt where
  /-- Firings raised and not yet served, in handshake order, at most one per event (R600). -/
  queue : List Firing := []
  deliveries : List Delivery := []
  /-- Hold-off running for an event: LTB nanosecond at which it ends, and the held argument if a firing is held (R604). -/
  holdoff : FMap (Nat × Option Nat) := []
  /-- The core chosen last by a ONE route (R602). -/
  lastOne : FMap Nat := []
  /-- The host event queue: (event, argument), at most 32 (R605). -/
  hostQ : List (Nat × Nat) := []
  /-- A drop has raised EV5 since HOST_EVQ was last read. -/
  hostLostRaised : Bool := false
  log : List LogEntry := []
  /-- A refusal has raised EV3 since LOG_STAT was last read (R608). -/
  logFullRaised : Bool := false
  /-- Held latches of sources in PD_AON and PD_BKP: event to argument (R610). -/
  latches : FMap Nat := []
  deriving DecidableEq, Repr

/-! ### The whole machine -/

/-- The state of the block. `regs` lists the registers that differ from their reset values, by physical address
(a banked register of master m adds m * 2^40); `mem` lists the bytes that differ from what an unlisted byte reads as. -/
structure State where
  /-- Commands that wait, first in, first out. -/
  pending : List Instr := []
  regs : FMap Word := []
  mem : List Host.Cell := []
  cores : FMap Core := []
  /-- The RF front-end. -/
  fe : Fe := {}
  /-- The baseband. -/
  bb : Bb := {}
  /-- The medium access. -/
  mac : Mac := {}
  /-- The forwarding. -/
  fwd : Fwd := {}
  /-- The traffic manager. -/
  tm : Tm := {}
  /-- The cipher engine. -/
  cry : Cry := {}
  /-- The key store. -/
  key : Key := {}
  /-- The Accord. -/
  acc : Acc := {}
  /-- The real-time clock. -/
  rtc : Rtc := {}
  /-- The power and reset. -/
  plt : Plt := {}
  /-- The MRAM, fuses and boot. -/
  nv : Nv := {}
  /-- The dissemination. -/
  dis : Dis := {}
  /-- The twin operation. -/
  twn : Twn := {}
  /-- The in-service test. -/
  ist : Ist := {}
  /-- The host port. -/
  hif : Hif := {}
  /-- The Ethernet. -/
  eth : Eth := {}
  /-- The DRAM controller. -/
  ddr : Ddr := {}
  /-- The GPIO. -/
  gpio : Gpio := {}
  /-- The event router. -/
  evt : Evt := {}
  /-- "First since the register was read" events raised, by register address * 8 + cause (R292, R298, R304 and others). -/
  firsts : FMap Bool := []
  /-- How many free values the machine has drawn (a field of the model, not of the spec). -/
  drawn : Nat := 0
  deriving DecidableEq, Repr

/-- The machine's faults. No command of the spec stops the block: a bus error, a core fault, a refused operation are
next states. The one constructor names a step that cannot occur; nothing raises it (safe). -/
inductive Fault where
  | unreachable
  deriving DecidableEq, Repr

/-- The machine's refusals. -/
inductive Refusal where
  /-- Raised by `exec` for a command that has no meaning yet (safe: the machine stops). -/
  | notModelled (mnemonic : String)
  deriving DecidableEq, Repr

/-- A primitive change of the state. Every command's effect is a list of these, applied in order, so the list says all
that a command changes. -/
inductive Change where
  | reg (addr : Nat) (v : Word)
  | mem (addr : Nat) (b : Byte)
  | core (n : Nat) (c : Core)
  | first (key : Nat) (b : Bool)
  | draw
  | fe (x : Fe)
  | bb (x : Bb)
  | mac (x : Mac)
  | fwd (x : Fwd)
  | tm (x : Tm)
  | cry (x : Cry)
  | key (x : Key)
  | acc (x : Acc)
  | rtc (x : Rtc)
  | plt (x : Plt)
  | nv (x : Nv)
  | dis (x : Dis)
  | twn (x : Twn)
  | ist (x : Ist)
  | hif (x : Hif)
  | eth (x : Eth)
  | ddr (x : Ddr)
  | gpio (x : Gpio)
  | evt (x : Evt)
  deriving DecidableEq, Repr

/-- The machine right after the PD_AON reset (R455): nothing listed, every register at its reset value, PD_AON and
PD_BKP ON and every other domain OFF but PD_CORE, whose power-up has begun; PD_MGT and PD_DDR follow it (R454, R447). -/
def State.reset : State := { plt := { waking := [2, 3, 17], powering := [(2, 20000)], resetUp := true } }

end Sys2Proof.Machine
end

