-- ==== Sys2Proof/Machine/Ops.lean ====
section
/-!
DEFINITION. The named operations over the state: applying changes, the effect combinators, register and field access
with the field types of Table 00.3, memory access, power-domain and time queries, free values.
-/
namespace Sys2Proof.Machine

open Sys2Proof

/-! ### Applying changes -/

/-- What a byte of memory that nothing has written reads as: 0, and in TM's metadata words HOLDER 0x7F, the free mark of
Table 08.1, since every buffer is free after reset (POOL_STATUS.FREE). -/
def memDefault (a : Nat) : Byte :=
  if 0x10A40000 ≤ a ∧ a < 0x10A50000 ∧ a % 4 = 3 then 0xFE#8 else 0#8

/-- The reset value of a register row's fields. -/
def fieldsReset : List FieldRow → Nat
  | [] => 0
  | f :: fs => f.reset * 2 ^ f.lo + fieldsReset fs

/-- Whether row `r` holds the register at `a`, and the outer index of that copy. -/
def rowIndex (r : RegRow) (a : Nat) : Option Nat :=
  if a < r.base then none else
    let d := a - r.base
    let i := if r.s1 = 0 then 0 else min (d / r.s1) (r.n1 - 1)
    let e := d - i * r.s1
    let j := if r.s2 = 0 then 0 else e / r.s2
    if i < r.n1 ∧ j < r.n2 ∧ e = j * r.s2 then some i else none

/-- The row that holds the register at physical address `a` (R37). -/
def findRow (a : Nat) : Option RegRow :=
  if a < 0x40000000 ∨ 0x40140000 ≤ a then none
  else (windowRows (a / 0x10000 - 0x4000)).find? (fun r => (rowIndex r a).isSome)

/-- The value the register at `a` has after reset; 0 where no register lies (R5). A banked copy's key is taken modulo
2^40. -/
def regReset (k : Nat) : Word :=
  let a := k % 2 ^ 40
  match find resetSpecial a with
  | some v => v
  | none =>
    match findRow a with
    | some r => BitVec.ofNat 32 (fieldsReset r.fields)
    | none => if 0x4001A000 ≤ a ∧ a < 0x4001A800 ∧ (a - 0x4001A000) % 0x80 / 4 < 24
        then filtDefault ((a - 0x4001A000) / 0x80) ((a - 0x4001A000) % 0x80 / 4) else 0#32

/-- The power domain of the register at `a` (R38): its row's own, or its window's home domain. -/
def regDomain (a : Nat) : Nat :=
  match findRow a with
  | some r => if r.domDiv = 0 then r.dom else r.dom + (rowIndex r a).getD 0 / r.domDiv
  | none => [2, 12, 2, 2, 2, 16, 16, 0, 1, 2, 3, 19, 18, 17, 20, 0, 2, 0, 2, 0].getD (a / 0x10000 - 0x4000) 2

/-- One primitive change. -/
def State.apply (s : State) : Change → State
  | .reg k v => { s with regs := putD s.regs k v (regReset k) }
  | .mem a b => { s with mem := putD s.mem a b (memDefault a) }
  | .core n c => { s with cores := putD s.cores n c {} }
  | .first k b => { s with firsts := putD s.firsts k b false }
  | .draw => { s with drawn := s.drawn + 1 }
  | .fe x => { s with fe := x }
  | .bb x => { s with bb := x }
  | .mac x => { s with mac := x }
  | .fwd x => { s with fwd := x }
  | .tm x => { s with tm := x }
  | .cry x => { s with cry := x }
  | .key x => { s with key := x }
  | .acc x => { s with acc := x }
  | .rtc x => { s with rtc := x }
  | .plt x => { s with plt := x }
  | .nv x => { s with nv := x }
  | .dis x => { s with dis := x }
  | .twn x => { s with twn := x }
  | .ist x => { s with ist := x }
  | .hif x => { s with hif := x }
  | .eth x => { s with eth := x }
  | .ddr x => { s with ddr := x }
  | .gpio x => { s with gpio := x }
  | .evt x => { s with evt := x }

/-- A list of changes, in order. -/
def State.applyAll (s : State) : List Change → State
  | [] => s
  | c :: cs => (s.apply c).applyAll cs

/-! ### Effects -/

/-- An effect: the changes a command makes in a state. -/
abbrev Effect := State → List Change

/-- What an effect leaves. -/
def State.after (s : State) (e : Effect) : State := s.applyAll (e s)

/-- The outcome of a command with effect `e`. -/
def run (e : Effect) (s : State) : Host.Outcome State Fault Refusal := .next (s.after e)

/-- No change. -/
def nothing : Effect := fun _ => []

/-- Effects one after the other, each in the state the ones before leave. -/
def seq : List Effect → Effect
  | [], _ => []
  | e :: es, s => e s ++ seq es (s.applyAll (e s))

/-- An effect chosen by looking at the state. -/
def ask (f : State → Effect) : Effect := fun s => f s s

/-- `e` where `c` holds, otherwise nothing. -/
def when (c : Bool) (e : Effect) : Effect := if c then e else nothing

/-- `e` for each element in turn. -/
def forEach {α : Type} (l : List α) (e : α → Effect) : Effect := seq (l.map e)

/-! ### Registers -/

/-- The value held in the register with key `k`. -/
def State.reg (s : State) (k : Nat) : Word := getD s.regs k (regReset k)

/-- The register with key `k` as a number. -/
def State.regN (s : State) (k : Nat) : Nat := (s.reg k).toNat

/-- The value of a field. -/
def State.fld (s : State) (f : Fld) : Nat := bits (s.regN f.addr) f.hi f.lo

/-- A one-bit field as a truth value. -/
def State.flag (s : State) (f : Fld) : Bool := s.fld f = 1

/-- The value of a field read as a signed number. -/
def State.fldI (s : State) (f : Fld) : Int := signed (f.hi - f.lo + 1) (s.fld f)

/-- Sets a whole register. -/
def setReg (k : Nat) (v : Nat) : Effect := fun _ => [.reg k (BitVec.ofNat 32 v)]

/-- Sets a field, whatever its type: the block's own write. -/
def setFld (f : Fld) (v : Nat) : Effect :=
  fun s => [.reg f.addr (BitVec.ofNat 32 (putBits (s.regN f.addr) f.hi f.lo v))]

/-- Sets a one-bit field. -/
def setFlag (f : Fld) (b : Bool) : Effect := setFld f (b2n b)

/-- Sets a field to the low bits of a signed number. -/
def setFldI (f : Fld) (z : Int) : Effect := setFld f (unsigned (f.hi - f.lo + 1) z)

/-- Adds to a counter that saturates at its field's largest value. -/
def countBy (f : Fld) (n : Nat) : Effect :=
  ask fun s => setFld f (min (s.fld f + n) (2 ^ (f.hi - f.lo + 1) - 1))

/-- Counts one in a saturating counter. -/
def count (f : Fld) : Effect := countBy f 1

/-- Sets a pair of registers to a 64-bit value. -/
def setPair (lo hi : Nat) (v : Nat) : Effect := seq [setReg lo (v % 2 ^ 32), setReg hi (v / 2 ^ 32 % 2 ^ 32)]

/-- A pair of registers as a 64-bit value. -/
def State.pair (s : State) (lo hi : Nat) : Nat := s.regN lo + 2 ^ 32 * s.regN hi

/-- The banked copy of register `a` that belongs to master `m` (R294, R383). -/
def banked (m a : Nat) : Nat := a + m * 2 ^ 40

/-- The banked copy of a field. -/
def Fld.of (f : Fld) (m : Nat) : Fld := { f with addr := banked m f.addr }

/-! ### Writes and reads by a master, by field type (R3, R7-R13) -/

/-- WINDOW_LOCK of the window that holds `a`. -/
def lockOf (a : Nat) : Fld := ⟨a / 0x10000 * 0x10000 + 0x7FF8, 0, 0⟩

/-- EXPERT_UNLOCK.UNLOCKED, ARMED and REJECTED of the window that holds `a`. -/
def unlockedOf (a : Nat) : Fld := ⟨a / 0x10000 * 0x10000 + 0x7FFC, 8, 8⟩
def armedOf (a : Nat) : Fld := ⟨a / 0x10000 * 0x10000 + 0x7FFC, 10, 10⟩
def rejectedOf (a : Nat) : Fld := ⟨a / 0x10000 * 0x10000 + 0x7FFC, 9, 9⟩

/-- A field's value after a master writes the register word `v`, by the field's type. -/
def fieldWrite (locked unlocked : Bool) (f : FieldRow) (old v : Nat) : Nat :=
  let o := bits old f.hi f.lo
  let n := bits v f.hi f.lo
  match f.ty with
  | .ro | .rc | .wo => o
  | .rw => n
  | .w1c => Nat.bitwise (fun x y => x && !y) o n
  | .w1s => o ||| n
  | .rwl => if locked then o else n
  | .ex => if unlocked then n else o

/-- A register word after a write, field by field. -/
def wordWrite (locked unlocked : Bool) (fs : List FieldRow) (old v : Nat) : Nat :=
  fs.foldl (fun w f => putBits w f.hi f.lo (fieldWrite locked unlocked f old v)) old

/-- Whether a write to this register while the window is not unlocked names an EX field (R10). -/
def hasEx (fs : List FieldRow) : Bool := fs.any (fun f => f.ty = .ex)

/-- The field writes of one register access, with REJECTED set where an EX field was refused. `k` is the register's key
(its address, or its banked copy's). -/
def writeFields (k v : Nat) : Effect := ask fun s =>
  let a := k % 2 ^ 40
  match findRow a with
  | none => nothing
  | some r =>
    seq [setReg k (wordWrite (s.flag (lockOf a)) (s.flag (unlockedOf a)) r.fields (s.regN k) v),
         when (hasEx r.fields && !s.flag (unlockedOf a)) (setFld (rejectedOf a) 1)]

/-- What a read of a stored register returns: WO fields read 0 (R3). -/
def wordRead (fs : List FieldRow) (w : Nat) : Nat :=
  fs.foldl (fun v f => if f.ty = .wo then putBits v f.hi f.lo 0 else v) w

/-- A register word after a read: RC fields are cleared (R3). -/
def wordAfterRead (fs : List FieldRow) (w : Nat) : Nat :=
  fs.foldl (fun v f => if f.ty = .rc then putBits v f.hi f.lo 0 else v) w

/-- The value a master reads from the stored register `k`. -/
def State.readStored (s : State) (k : Nat) : Nat :=
  match findRow (k % 2 ^ 40) with
  | some r => wordRead r.fields (s.regN k)
  | none => 0

/-- Clears the RC fields of register `k`, and re-arms the events raised once per read of it. -/
def afterRead (k : Nat) : Effect := ask fun s =>
  match findRow (k % 2 ^ 40) with
  | some r => seq [when (r.fields.any (fun f => f.ty = .rc)) (setReg k (wordAfterRead r.fields (s.regN k))),
      fun s => (s.firsts.filter (fun e => e.1 / 8 = k)).map (fun e => Change.first e.1 false)]
  | none => nothing

/-! ### Memory -/

/-- The byte at physical address `a`. -/
def State.byte (s : State) (a : Nat) : Nat := (getD s.mem a (memDefault a)).toNat

/-- `k` bytes from address `a`. -/
def State.bytes (s : State) (a k : Nat) : List Nat := (List.range k).map (fun i => s.byte (a + i))

/-- The little-endian number of `k` bytes at `a`. -/
def State.mem' (s : State) (a k : Nat) : Nat := ofLe (s.bytes a k)

/-- The 32-bit word at `a`. -/
def State.word (s : State) (a : Nat) : Nat := s.mem' a 4

/-- Writes bytes from address `a`. -/
def putBytes (a : Nat) (l : List Nat) : Effect :=
  fun _ => (enumFrom 0 l).map (fun e => Change.mem (a + e.1) (BitVec.ofNat 8 e.2))

/-- Writes `k` bytes of `v`, little-endian, at `a`. -/
def putMem (a k v : Nat) : Effect := putBytes a (leBytes v k)

/-- Takes every listed byte of lo..hi-1 back to what nothing has written reads as (a RAM that lost its power). -/
def clearMem (lo hi : Nat) : Effect := fun s =>
  (s.mem.filter (fun e => decide (lo ≤ e.1 ∧ e.1 < hi))).map (fun e => Change.mem e.1 (memDefault e.1))

/-! ### Time and power -/

/-- ATB in whole nanoseconds. -/
def State.ns (s : State) : Nat := s.acc.atb / 2 ^ 48

/-- ATB in the format of R49. -/
def State.now (s : State) : Instant := BitVec.ofNat 64 s.ns

/-- The signed difference of two instants in the format of R49. -/
def tdiff (a b : Instant) : Int := (a - b).toInt

/-- Whether ATB has reached `t` (R49). -/
def State.reached (s : State) (t : Instant) : Bool := 0 ≤ tdiff s.now t

/-- An instant `n` ns after `t`. -/
def tplus (t : Instant) (n : Int) : Instant := t + BitVec.ofInt 64 n

/-- LTB in microseconds and in milliseconds. -/
def State.ltbUs (s : State) : Nat := s.acc.ltb / 1000
def State.ltbMs (s : State) : Nat := s.acc.ltb / 1000000

/-- PD_STATE of domain `d` (R439): 0 OFF, 1 CLKOFF, 2 ON, 3 TRANSIT. -/
def State.domain (s : State) (d : Nat) : Nat :=
  if d < 16 then bits (s.regN PLT.PD_STATE_LO) (2 * d + 1) (2 * d)
  else bits (s.regN PLT.PD_STATE_HI) (2 * (d - 16) + 1) (2 * (d - 16))

/-- Whether domain `d` is ON. -/
def State.on (s : State) (d : Nat) : Bool := s.domain d = 2

/-- Sets PD_STATE of domain `d`. -/
def setDomain (d st : Nat) : Effect :=
  if d < 16 then setFld ⟨PLT.PD_STATE_LO, 2 * d + 1, 2 * d⟩ st
  else setFld ⟨PLT.PD_STATE_HI, 2 * (d - 16) + 1, 2 * (d - 16)⟩ st

/-- The vote field bit `b` of domain `d` (Table 13.2). -/
def voteBit (d b : Nat) : Fld := ⟨PLT.PD_VOTE d, b, b⟩

/-- `e` only while domain `d` is ON: a block without power or clock does nothing. -/
def inDomain (d : Nat) (e : Effect) : Effect := ask fun s => when (s.on d) e

/-! ### Free values -/

/-- The next free value, below 2^w. -/
def State.free (s : State) (w : Nat) : Nat := (Config.freeValue s.drawn).toNat % 2 ^ w

/-- Uses a free value of `w` bits and moves on to the next. -/
def withFree (w : Nat) (e : Nat → Effect) : Effect :=
  ask fun s => seq [fun _ => [.draw], e (s.free w)]

/-- `k` free bytes: byte i is the free value numbered `drawn + i`. -/
def State.freeBytes (s : State) (k : Nat) : List Nat :=
  (List.range k).map (fun i => (Config.freeValue (s.drawn + i)).toNat % 256)

/-- Uses `k` free bytes. -/
def withFreeBytes (k : Nat) (e : List Nat → Effect) : Effect :=
  ask fun s => seq [fun _ => List.replicate k .draw, e (s.freeBytes k)]

end Sys2Proof.Machine
end

