-- ==== Sys2Proof/Machine/Event.lean ====
section
/-!
DEFINITION. Raising events (R598-R610), the error log (R607-R609), and latching sources into the cores' binding slots
(R73-R78). EVENT_FIRING and EVENT_DELIVERY, in Machine/Evt.lean, serve what is raised here.
-/
namespace Sys2Proof.Machine

open Sys2Proof

/-! ### The error log -/

/-- Adds an entry to the error log, or counts it in REPEAT of the newest (R608); returns the changes of the log alone and
the index of the entry made, if one was. -/
def logPlace (e : Evt) (w0 w1 w2 w3 cls : Nat) : Evt × Option Nat × Bool :=
  match e.log.getLast? with
  | some n =>
    if n.w0 % 65536 = w0 % 65536 ∧ n.w1 = w1 ∧ n.w2 = w2 then
      let r := min (n.w0 / 65536 + 1) 0xFFFF
      ({ e with log := e.log.dropLast ++ [{ n with w0 := w0 % 65536 + r * 65536 }] }, none, false)
    else if e.log.length < 64 then
      ({ e with log := e.log ++ [⟨w0, w1, w2, w3⟩] }, some e.log.length, false)
    else if cls = 3 ∧ e.log.any (fun x => bits x.w0 9 8 ≠ 3) then
      let i := e.log.findIdx (fun x => decide (bits x.w0 9 8 ≠ 3))
      ({ e with log := e.log.eraseIdx i ++ [⟨w0, w1, w2, w3⟩] }, some 63, false)
    else (e, none, true)
  | none => ({ e with log := [⟨w0, w1, w2, w3⟩] }, some 0, false)

/-- Whether an event's source lies in PD_AON or PD_BKP, so that a held latch keeps its firing while PD_CORE is not ON
(R610). -/
def aonSource (n : Nat) : Bool :=
  n = 1 || n = 2 || n = 3 || n = 4 || n = 5 || (8 ≤ n && n ≤ 15) || (78 ≤ n && n ≤ 83) || n = 87 || n = 88 || n = 89
    || n = 90 || n = 91 || n = 94

/-- An edge wake source's pulse reaches the wake controller (R448, R449). -/
def edgeArrives (n : Nat) : Effect := ask fun s =>
  if bit (s.regN (PLT.WAKE_EV (n / 32))) (n % 32) && bit (s.fld PLT.WAKE_EN_EN) 5 then
    match s.fld PLT.DD_CTL_STATE with
    | 1 => seq [setFld PLT.WAKE_PEND_EDGE 1, fun s => [.plt { s.plt with edge := some n }]]
    | 2 => setFld PLT.WAKE_PEND_EDGE 1
    | 3 => when (!s.plt.entryWindow) (fun s => [.plt { s.plt with edge := some n }])
    | _ => nothing
  else nothing

/-- A firing offered to the router: it joins the queue, or merges with the unserved firing of the same event (R600);
with PD_CORE not ON it is held in its latch, or lost with its source (R610). -/
def raise (n arg : Nat) : Effect :=
  seq [edgeArrives n, ask fun s =>
    if s.on 2 then
      if s.evt.queue.any (fun f => f.event = n) then
        seq [fun s => [.evt { s.evt with queue := s.evt.queue.map (fun f => if f.event = n then ⟨n, arg, false⟩ else f) }],
             count (EVT.STAT_COAL n)]
      else fun s => [.evt { s.evt with queue := s.evt.queue ++ [⟨n, arg, false⟩] }]
    else when (aonSource n) (fun s => [.evt { s.evt with latches := insertKey s.evt.latches n arg }])]

/-- Makes a log entry and raises EV2, or EV3 at the first refusal (R607, R608). -/
def logEntry (event cls kind w1 w2 : Nat) : Effect := ask fun s =>
  let w0 := event + cls * 2 ^ 8 + kind * 2 ^ 12
  let (e, made, refused) := logPlace s.evt w0 w1 w2 (s.ltbMs % 2 ^ 32) cls
  seq [fun _ => [.evt e],
    match made with
    | some i => raise 2 (i + cls * 2 ^ 8 + kind * 2 ^ 12)
    | none => nothing,
    when refused (seq [count EVT.LOG_STAT_LOST, ask fun s =>
      if s.evt.logFullRaised then nothing
      else seq [fun s => [.evt { s.evt with logFullRaised := true }], raise 3 (s.fld EVT.LOG_STAT_LOST)]])]

/-- The EVENT entry of a firing at or above LOG_MIN; EV2 is never logged, and EV8 and EV89 have entries of their own
kinds (R607, R608). -/
def logEvent (n arg : Nat) : Effect := ask fun s =>
  let cls := s.fld (EVT.ROUTE_SEV n)
  when (n ≠ 2 && n ≠ 8 && n ≠ 89 && s.fld EVT.EVT_CTL_LOG_MIN ≤ cls) (logEntry n cls 1 arg 0)

/-- A block raises event `n` with argument `arg`: the firing is offered to the router, and a firing held in a latch acts
at once on the error log (R610). -/
def fire (n arg : Nat) : Effect := ask fun s =>
  seq [raise n (arg % 2 ^ 32), when (!s.on 2 && aonSource n) (logEvent n (arg % 2 ^ 32))]

/-- An event raised once after each read of register `a`: `cause` tells several such events of one register apart. -/
def fireFirst (a cause n arg : Nat) : Effect := ask fun s =>
  if getD s.firsts (a * 8 + cause) false then nothing
  else seq [fun _ => [.first (a * 8 + cause) true], fire n arg]

/-- The log entry of an access refused under R40. -/
def logBusError (master addr : Nat) (write : Bool) : Effect :=
  logEntry 0x7F 2 2 (addr % 2 ^ 32) (addr / 2 ^ 32 % 16 + master * 2 ^ 4 + b2n write * 2 ^ 11)

/-! ### Binding slots (R73-R79) -/

/-- The state of core `n` (64 is the management core). -/
def State.core (s : State) (n : Nat) : Core := getD s.cores n {}

/-- The power domain of core `n`. -/
def coreDomain (n : Nat) : Nat := if n = 64 then 3 else 4 + n / 8

/-- Changes core `n`. -/
def setCore (n : Nat) (f : Core → Core) : Effect := fun s => [.core n (f (s.core n))]

/-- BIND_k of core `n`. -/
def bindReg (n k : Nat) : Nat := if n = 64 then MGT.BIND k else SEQ.BIND n k

/-- The core and slot whose BIND register has key `k`. -/
def bindOwner (k : Nat) : Option (Nat × Nat) :=
  if 0x40091000 ≤ k ∧ k < 0x40095000 ∧ 0x40 ≤ k % 0x100 ∧ k % 0x100 < 0x80 then
    some ((k - 0x40091000) / 0x100, (k % 0x100 - 0x40) / 4)
  else if 0x400A0040 ≤ k ∧ k < 0x400A0080 then some (64, (k - 0x400A0040) / 4)
  else none

/-- Every (core, slot) bound to source `src` of kind `kind`. BIND registers reset to KIND 0, so an unlisted one is bound
to nothing. -/
def State.boundSlots (s : State) (kind src : Nat) : List (Nat × Nat) :=
  s.regs.filterMap (fun e =>
    if bits e.2.toNat 30 28 = kind ∧ bits e.2.toNat 23 16 = src then bindOwner e.1 else none)

/-- CNT of core `n`: MERGED. -/
def mergedOf (n : Nat) : Fld := if n = 64 then MGT.CNT_MERGED else SEQ.CNT_MERGED n

/-- A firing reaches slot `k` of core `n` at instant `t`: it latches, or merges at a slot already pending (R74, R77); a
HELD core latches nothing. -/
def latchSlotAt (n k arg : Nat) (t : Instant) : Effect := ask fun s =>
  let c := s.core n
  if !s.on (coreDomain n) || c.run = .held then nothing
  else if c.pend.getLsbD k then count (mergedOf n)
  else setCore n (fun c => { c with
    pend := BitVec.ofNat 16 (putBit c.pend.toNat k true)
    slotArg := putD c.slotArg k (BitVec.ofNat 32 arg) 0#32
    slotTime := putD c.slotTime k t 0#64 })

/-- A firing reaches slot `k` of core `n` now. -/
def latchSlot (n k arg : Nat) : Effect := ask fun s => latchSlotAt n k arg s.now

/-- Latches a source into every slot of core `n` bound to it. -/
def latchAt (n kind src arg : Nat) (t : Instant) : Effect := ask fun s =>
  forEach ((s.boundSlots kind src).filter (fun e => e.1 = n)) (fun e => latchSlotAt n e.2 arg t)

/-- TM reports ring `r` non-empty to every slot bound to it (R78). -/
def ringReport (r : Nat) : Effect := ask fun s =>
  forEach (s.boundSlots 4 r) (fun e => latchSlot e.1 e.2 0)

/-- Doorbell bit `b` of core `n` is rung at instant `t` (R73, R407). -/
def ringDoorbell (n b : Nat) (t : Instant) : Effect := latchAt n 3 b 0 t

end Sys2Proof.Machine
end

