-- ==== Sys2Proof/Machine/Gpio.lean ====
section
/-!
DEFINITION. The GPIO pins (R588-R591) and the retention of groups H and ANT (R453).
-/
namespace Sys2Proof.Machine

open Sys2Proof

/-- What pin `n` drives from its GPIO function: its level, or none at high impedance (R589). -/
def State.pinOut (s : State) (n : Nat) : Option Bool :=
  let out := s.flag (GPIO.PIN_OUT n)
  match s.fld (GPIO.PIN_FUNC n) with
  | 1 | 2 => if s.flag (GPIO.PIN_OD n) && out then none else some out
  | _ => none

/-- Group H's retention engages: its balls hold what they drive (R453). -/
def holdH : Effect := ask fun s => when (!s.flag PLT.PAD_RET_HOLD_H) (
  let bitsOf := fun (f : Nat → Bool) => ((List.range 8).map (fun i => if f (16 + i) then 2 ^ i else 0)).sum
  seq [fun s => [.gpio { s.gpio with heldH := bitsOf (fun n => s.pinOut n = some true), drivenH := bitsOf (fun n => (s.pinOut n).isSome) }],
    setFld PLT.PAD_RET_HOLD_H 1])

/-- Group ANT's retention engages. -/
def holdAnt : Effect := ask fun s => when (!s.flag PLT.PAD_RET_HOLD_ANT) (
  let pins := fun p => (getD s.fe.ports p {}).antPins
  seq [fun s => [.gpio { s.gpio with heldAnt := pins 0 + 4 * pins 1 + 16 * pins 2 }], setFld PLT.PAD_RET_HOLD_ANT 1])

/-- A write of PAD_RET: a released group's balls take the live value of their function. -/
def padRetWrite (v : Nat) : Effect := seq [
  when (bit v 3) (setFld PLT.PAD_RET_HOLD_H 0), when (bit v 2) (setFld PLT.PAD_RET_HOLD_ANT 0)]

/-- The level of pin `n`'s ball outside FUNC 3, none at high impedance. -/
def State.ball (s : State) (n : Nat) : Option Bool :=
  if 16 ≤ n ∧ s.flag PLT.PAD_RET_HOLD_H = true then
    if bit s.gpio.drivenH (n - 16) then some (bit s.gpio.heldH (n - 16)) else none
  else s.pinOut n

/-- A TRIG action of KIND 2 at instant `t`: the ball moves 200 ns later; on a pin not in trigger drive it does nothing. -/
def gpioAction (n level : Nat) (t : Instant) : Effect := ask fun s =>
  if s.fld (GPIO.PIN_FUNC n) = 2 then fun s => [.gpio { s.gpio with moves := s.gpio.moves ++ [(n, level, tplus t 200)] }]
  else count GPIO.GPIO_CNT_TRIG_IGN

/-- Trigger drives whose ball moves now. -/
def gpioTick : Effect := ask fun s =>
  let due := s.gpio.moves.filter (fun m => s.reached m.2.2)
  when (!due.isEmpty) (seq [fun s => [.gpio { s.gpio with moves := s.gpio.moves.filter (fun m => !s.reached m.2.2) }],
    forEach due (fun m => ask fun s => if s.fld (GPIO.PIN_FUNC m.1) = 2 then setFld (GPIO.PIN_OUT m.1) m.2.1
      else count GPIO.GPIO_CNT_TRIG_IGN)])

/-- GPIO_PIN_WRITE: pins 14-23 have no FUNC 3. -/
def pinWrite (n v : Nat) : Effect := ask fun s =>
  writeFields (GPIO.PIN n) (if 14 ≤ n ∧ v % 4 = 3 then putBits v 1 0 (s.fld (GPIO.PIN_FUNC n)) else v)
def execGpioPinWrite (n : Fin 24) (v : Word) := run (pinWrite n v.toNat)

/-- GPIO_EDGE: an edge at pin `n`'s synchronised input. -/
def gpioEdge (n : Nat) (rising : Bool) : Effect := ask fun s =>
  when (bit (s.fld GPIO.GPIO_IN_IN) n ≠ rising) (seq [
    setFld GPIO.GPIO_IN_IN (putBit (s.fld GPIO.GPIO_IN_IN) n rising),
    when (bit (s.fld (GPIO.PIN_EDGE n)) (if rising then 0 else 1)) (
      let e := s.fld GPIO.GPIO_EVT_EVT
      seq [setFld GPIO.GPIO_EVT_EVT (putBit e n true), when (e = 0) (fire 87 (2 ^ n))])])
def execGpioEdge (n : Fin 24) (rising : Bool) := run (gpioEdge n rising)

/-- Whether a pin is an active level wake source (R591). -/
def State.gpioWakes (s : State) : Bool := (List.range 24).any (fun n =>
  s.flag (GPIO.PIN_WAKE n) && bit (s.fld GPIO.GPIO_IN_IN) n = s.flag (GPIO.PIN_WAKE_POL n))

end Sys2Proof.Machine
end

