-- ==== Sys2Proof/Machine/Rings.lean ====
section
/-!
DEFINITION. The shared operations of the traffic manager (chapter 08): Flacon buffers and chains, allocation classes,
pushes and pops of rings with their protection, and the tags of the schedulers. The commands of TM are in Machine/Tm.lean.
-/
namespace Sys2Proof.Machine

open Sys2Proof

/-! ### Buffers and chains (R291-R298) -/

/-- The address of buffer `n`, and of its metadata word. -/
def bufAddr (n : Nat) : Nat := 0x10000000 + n * 0x100
def metaAddr (n : Nat) : Nat := 0x10A40000 + n * 4

/-- The metadata word of buffer `n`, and its fields (Table 08.1). -/
def State.meta (s : State) (n : Nat) : Nat := s.mem' (metaAddr n) 4
def State.holder (s : State) (n : Nat) : Nat := bits (s.meta n) 31 25
def State.fill (s : State) (n : Nat) : Nat := bits (s.meta n) 24 16
def State.isHead (s : State) (n : Nat) : Bool := bit (s.meta n) 15
def State.isLast (s : State) (n : Nat) : Bool := bit (s.meta n) 14
def State.nextBuf (s : State) (n : Nat) : Nat := bits (s.meta n) 13 0
def State.isFree (s : State) (n : Nat) : Bool := s.holder n = 0x7F

/-- Sets bits of a metadata word. -/
def setMeta (n hi lo v : Nat) : Effect := ask fun s => putMem (metaAddr n) 4 (putBits (s.meta n) hi lo v)

/-- HOLDER of a buffer. -/
def setHolder (n v : Nat) : Effect := setMeta n 31 25 v

/-- The buffers of the chain headed by `h`, and whether the walk ended at a buffer with LAST set; `fuel` is the walk
limit of R295. A free buffer ends the walk before itself. -/
def walk (s : State) : Nat → Nat → List Nat × Bool
  | 0, _ => ([], false)
  | fuel + 1, h =>
    if s.isFree h then ([], false)
    else if s.isLast h then ([h], true)
    else let r := walk s fuel (s.nextBuf h); (h :: r.1, r.2)

/-- The buffers of a chain. -/
def State.chain (s : State) (h : Nat) : List Nat := (walk s 16384 h).1

/-- The addresses of a chain's bytes, in chain order (R292). -/
def State.chainAddrs (s : State) (h : Nat) : List Nat :=
  (s.chain h).flatMap (fun b => (List.range (s.fill b)).map (fun i => bufAddr b + i))

/-- How many bytes a chain holds. -/
def State.chainLen (s : State) (h : Nat) : Nat := ((s.chain h).map (fun b => s.fill b)).sum

/-- The address of chain byte `k`, if the chain holds it. -/
def State.chainAddr (s : State) (h k : Nat) : Option Nat := (s.chainAddrs h)[k]?

/-- The first `len` bytes of a chain, each missing one 0x00 (R292). -/
def State.chainBytes (s : State) (h len : Nat) : List Nat :=
  let a := s.chainAddrs h
  (List.range len).map (fun k => match a[k]? with | some x => s.byte x | none => 0)

/-- Writes bytes into a chain from chain byte `off`; bytes beyond the chain's end go nowhere. -/
def putChain (h off : Nat) (l : List Nat) : Effect := ask fun s =>
  let a := s.chainAddrs h
  forEach (enumFrom off l) (fun e => match a[e.1]? with | some x => putMem x 1 e.2 | none => nothing)

/-- CHAINERR counts, and EV_TM_CHAINERR is raised once per read of POOL_CNT_C and cause. -/
def chainError (buf cause : Nat) : Effect :=
  seq [count TM.POOL_CNT_C_CHAINERR, fireFirst TM.POOL_CNT_C cause 66 (buf + cause * 2 ^ 14)]

/-- CHAINERR counts and EV_TM_CHAINERR is raised. -/
def chainErrorAlways (buf cause : Nat) : Effect :=
  seq [count TM.POOL_CNT_C_CHAINERR, fire 66 (buf + cause * 2 ^ 14)]

/-- An engine reads `len` bytes of a chain: a shortfall is reported to TM (R292). -/
def reportShort (h len : Nat) : Effect := ask fun s =>
  when (s.chainLen h < len) (chainError h 3)

/-- EXHAUST and LOW follow FREE (R296, R298). -/
def poolMarks : Effect := ask fun s =>
  let free := s.fld TM.POOL_STATUS_FREE
  let mark := s.fld TM.POOL_CFG_LOW_MARK
  seq [setFlag TM.POOL_STATUS_EXHAUST (free ≤ s.fld TM.TM_EXP_CTRL_RES + 64),
    if free < mark && !s.flag TM.POOL_STATUS_LOW then seq [setFld TM.POOL_STATUS_LOW 1, fire 63 free]
    else when (mark + 256 ≤ free) (setFld TM.POOL_STATUS_LOW 0)]

/-- Sets FREE. -/
def setFree (n : Nat) : Effect := seq [setFld TM.POOL_STATUS_FREE n, poolMarks]

/-- Frees the chain headed by `h` (R295): a free buffer or one with HEAD 0 is left as it is, and a free of a free buffer
counts in BADBUF. -/
def freeChain (h : Nat) : Effect := ask fun s =>
  if s.isFree h then count TM.MISC_CNT_BADBUF
  else if !s.isHead h then chainErrorAlways h 1
  else
    let (l, ok) := walk s 16384 h
    seq [forEach l (fun b => setHolder b 0x7F), setFree (s.fld TM.POOL_STATUS_FREE + l.length),
      when (!ok) (chainErrorAlways h 0)]

/-- Frees the chain of a descriptor; a descriptor with LEN 0 carries none (R301). -/
def Desc.len (d : Desc) : Nat := bits d.w0.toNat 31 16
def Desc.buf (d : Desc) : Nat := bits d.w1.toNat 13 0
def Desc.type (d : Desc) : Nat := bits d.w0.toNat 3 0
def Desc.poison (d : Desc) : Bool := bit d.w0.toNat 4
def freeDesc (d : Desc) : Effect := when (d.len ≠ 0) (freeChain d.buf)

/-- The descriptor whose words are given as numbers. -/
def mkDesc (w0 w1 w2 w3 : Nat) : Desc :=
  ⟨BitVec.ofNat 32 w0, BitVec.ofNat 32 w1, BitVec.ofNat 32 w2, BitVec.ofNat 32 w3⟩

/-- The idle item (R112). -/
def idleItem : Desc := mkDesc 0xF 0 0 0

/-- A descriptor as the words of an L block. -/
def Desc.words (d : Desc) : List Word := [d.w0, d.w1, d.w2, d.w3]

/-- The threshold FREE must exceed for an allocation class (Table 08.2). -/
def State.classThreshold (s : State) (cls : Nat) : Nat :=
  match cls with
  | 0 => s.fld TM.TM_EXP_CTRL_RES + 64
  | 1 => 64
  | _ => 0

/-- The free buffer an allocation takes. The spec does not say which: the first free one at or after a free value,
wrapping (assumption 4). -/
def State.pickBuf (s : State) : Option Nat :=
  let start := s.free 14
  (List.range 16384).map (fun i => (start + i) % 16384) |>.find? (fun b => s.isFree b)

/-- A refused allocation counts for its class (R298). -/
def allocRefused (cls : Nat) : Effect :=
  match cls with
  | 0 => seq [count TM.POOL_CNT_A_FAIL_GEN, fireFirst TM.POOL_CNT_A 0 64 0]
  | 1 => seq [count TM.POOL_CNT_A_FAIL_CTRL, fireFirst TM.POOL_CNT_A 1 64 1]
  | _ => seq [count TM.POOL_CNT_B_FAIL_DRAIN, fireFirst TM.POOL_CNT_B 2 64 2]

/-- Takes buffer `b`: HOLDER 0x40, FILL 256, HEAD 1, LAST 1, NEXT 0 (R293). -/
def takeBuf (b cls : Nat) : Effect := ask fun s =>
  seq [fun _ => [.draw], putMem (metaAddr b) 4 (0x40 * 2 ^ 25 + 256 * 2 ^ 16 + 2 ^ 15 + 2 ^ 14),
    when (cls = 2) (count TM.POOL_CNT_B_DRAIN_USED), setFree (s.fld TM.POOL_STATUS_FREE - 1)]

/-- Allocates one buffer of a class, and goes on with it, or with the refusal (R296). -/
def withBuf (cls : Nat) (refused : Effect) (ok : Nat → Effect) : Effect := ask fun s =>
  if s.classThreshold cls < s.fld TM.POOL_STATUS_FREE then
    match s.pickBuf with
    | some b => seq [takeBuf b cls, ok b]
    | none => seq [allocRefused cls, refused]
  else seq [allocRefused cls, refused]

/-- MAC's own allocation: the control class, then the drain class (R297). -/
def withMacBuf (refused : Effect) (ok : Nat → Effect) : Effect :=
  withBuf 1 (withBuf 2 refused ok) ok

/-- Links buffer `n` after buffer `b` of a chain, as an engine that builds a frame does (R293). -/
def linkBuf (b n : Nat) : Effect :=
  seq [setMeta b 14 14 0, setMeta b 13 0 n, setMeta n 15 15 0]

/-- Takes `k` buffers of the general class and links them into one chain; refused, it frees what it took. -/
def withChain (k : Nat) (refused : Effect) (ok : Nat → Effect) : Effect :=
  let rec more : Nat → Nat → Nat → Effect
    | 0, h, _ => ok h
    | j + 1, h, last => withBuf 0 (seq [freeChain h, refused]) (fun b => seq [linkBuf last b, more j h b])
  match k with
  | 0 => ok 0
  | j + 1 => withBuf 0 refused (fun b => more j b b)

/-- The last buffer of a chain. -/
def State.lastBuf (s : State) (h : Nat) : Nat := (s.chain h).getLastD h

/-- Writes `l` into a new chain of the general class, FILL set on the last buffer only (R293). -/
def withBytes (l : List Nat) (refused : Effect) (ok : Nat → Effect) : Effect :=
  let k := max 1 ((l.length + 255) / 256)
  withChain k refused (fun h => seq [ask fun s => setMeta (s.lastBuf h) 24 16 (l.length - (k - 1) * 256),
    putChain h 0 l, ok h])

/-! ### Rings (R299-R306) -/

/-- Ring `n`. -/
def State.ring (s : State) (n : Nat) : Ring := getD s.tm.rings n {}

/-- Changes ring `n`. -/
def setRing (n : Nat) (r : Ring) : Effect := fun s => [.tm { s.tm with rings := putD s.tm.rings n r {} }]

/-- DEPTH of ring `n` (0 means 65,536). -/
def State.depth (s : State) (n : Nat) : Nat :=
  let d := s.fld (TM.RING_CFG_DEPTH n)
  if d = 0 then 65536 else d

/-- A ring of depth 256 or less is shallow (R299). -/
def State.shallow (s : State) (n : Nat) : Bool := s.depth n ≤ 256

/-- Where slot `i` of ring `n` is stored (R299). -/
def State.slotAddr (s : State) (n i : Nat) : Nat :=
  if s.shallow n then 0x10A00000 + n * 0x1000 + i * 0x10
  else s.fld TM.DRAM_BASE_LO_ADDR + 2 ^ 32 * s.fld TM.DRAM_BASE_HI_ADDR + n * 0x200000 + i * 0x20

/-- Even parity of `n`'s bits: 1 if an odd number of them are 1. -/
def parity : Nat → Nat → Nat
  | 0, _ => 0
  | w + 1, n => (n % 2 + parity w (n / 2)) % 2

/-- The 24 used bytes of a DRAM slot (Table 08.3). -/
def dramSlot (d : Desc) (stamp : Nat) (badP1 : Bool) : List Nat :=
  let lo := d.w0.toNat + 2 ^ 32 * d.w1.toNat
  let hi := d.w2.toNat + 2 ^ 32 * d.w3.toNat
  leBytes lo 8 ++ leBytes hi 8 ++ leBytes stamp 4 ++ leBytes (d.buf + parity 14 d.buf * 2 ^ 15) 2
    ++ [parity 64 lo + 2 * (if badP1 then 1 - parity 64 hi else parity 64 hi) + 4 * parity 32 stamp]
    ++ List.replicate 9 0

/-- What TM delivers from a DRAM slot's bytes (R306): the descriptor, whether it is poisoned, whether its chain is lost,
and whether its stamp is good. -/
def readSlot (l : List Nat) : Desc × Bool × Bool × Bool :=
  let lo := ofLe (l.take 8)
  let hi := ofLe ((l.drop 8).take 8)
  let stamp := ofLe ((l.drop 16).take 4)
  let cp := ofLe ((l.drop 20).take 2)
  let p := l.getD 22 0
  let bad0 := parity 64 lo ≠ p % 2
  let bad1 := parity 64 hi ≠ p / 2 % 2
  let bad2 := parity 32 stamp ≠ p / 4 % 2
  let badCp := parity 14 (cp % 2 ^ 14) ≠ cp / 2 ^ 15
  let w0 := lo % 2 ^ 32
  let w1 := lo / 2 ^ 32
  let w0t := if bits w0 3 0 = 0xF then putBits w0 3 0 0 else w0
  if bad0 then
    if badCp then
      (mkDesc (putBits (putBit w0t 4 true) 31 16 0) (putBits w1 13 0 0) (hi % 2 ^ 32) (hi / 2 ^ 32), true, true, !bad2)
    else
      let w0l := if bits w0t 31 16 = 0 then putBits w0t 31 16 1 else w0t
      (mkDesc (putBit w0l 4 true) (putBits w1 13 0 cp) (hi % 2 ^ 32) (hi / 2 ^ 32), true, false, !bad2)
  else (mkDesc (if bad1 then putBit w0 4 true else w0) w1 (hi % 2 ^ 32) (hi / 2 ^ 32), bad1, false, !bad2)

/-- RING_CTL.DRAINED follows: set, with EV_TM_DRAINED, once a disabled ring is empty (R315). -/
def ringDrained (n : Nat) : Effect := ask fun s =>
  when (!s.flag (TM.RING_CTL_EN n) && !s.flag (TM.RING_CTL_DRAINED n) && (s.ring n).q.isEmpty)
    (seq [setFld (TM.RING_CTL_DRAINED n) 1, fire 67 n])

/-- The scheduler that has ring `n` as a member. -/
def State.schedulerOf (s : State) (n : Nat) : Option Nat :=
  firstBelow 8 (fun k => bit (s.pair (TM.SCH_MEM_LO k) (TM.SCH_MEM_HI k)) n)

/-- A descriptor becomes the head of member ring `n` without PRIO: its finish tag (R310). -/
def newHeadTag (n len : Nat) : Effect := ask fun s =>
  match if s.flag (TM.RING_WFQ_PRIO n) then none else s.schedulerOf n with
  | some k =>
    let f := s.regN (TM.RING_FTAG n)
    let v := s.regN (TM.SCH_VT k)
    let base := if 0 < signed 32 (f + 2 ^ 32 - v) then f else v
    setReg (TM.RING_FTAG n) ((base + max len 1 * 4096 / max (s.fld (TM.RING_WFQ_WEIGHT n)) 1) % 2 ^ 32)
  | none => nothing

/-- What the two pointer copies of a shallow ring tell at an access (R305): one bad copy is repaired; any other
disagreement empties the ring and starts a reclaim. -/
def pointerCheck (n : Nat) : Effect := ask fun s =>
  let r := s.ring n
  match r.ptrFault with
  | 0 => nothing
  | 1 => seq [setRing n { r with ptrFault := 0 }, count (TM.RING_CNT_B_PTRERR n), fire 60 (n + 2 ^ 8)]
  | _ => seq [setRing n { r with q := [], tail := 0, ptrFault := 0, reclaiming := true },
      count (TM.RING_CNT_B_PTRERR n), fire 60 n]

/-- Whether ring `n` takes a push now (R303, R305). -/
def State.hasRoom (s : State) (n : Nat) : Bool :=
  s.flag (TM.RING_CTL_EN n) && decide ((s.ring n).q.length < s.depth n) && !(s.ring n).reclaiming

/-- Appends a descriptor to a ring with room: its stamp, its storage, HOLDER, high-water mark, the finish tag of a new
head, and the report to bound slots (R78, R303, R310, R313). -/
def append (n : Nat) (d : Desc) : Effect := ask fun s =>
  let r := s.ring n
  let deep := !s.shallow n
  let stamp := s.ltbUs % 2 ^ 32
  let bad := deep && s.tm.parInject
  seq [
    setRing n { r with q := r.q ++ [⟨d, stamp, r.tail⟩], tail := (r.tail + 1) % s.depth n,
                       ptrFault := if !deep && s.tm.ptrInject then 1 else r.ptrFault },
    fun s => [.tm { s.tm with ptrInject := s.tm.ptrInject && deep, parInject := s.tm.parInject && !deep }],
    if deep then putBytes (s.slotAddr n r.tail) (dramSlot d stamp bad)
    else putBytes (s.slotAddr n r.tail) (d.words.flatMap (fun w => leBytes w.toNat 4)),
    when (d.len ≠ 0) (setHolder d.buf n),
    setFld (TM.HWM_DEPTH_DEPTH n) (max (s.fld (TM.HWM_DEPTH_DEPTH n)) (r.q.length + 1)),
    when r.q.isEmpty (newHeadTag n d.len),
    when r.q.isEmpty (ringReport n)]

/-- A push of an idle item is discarded and counted (R303). -/
def idlePush : Effect := count TM.MISC_CNT_IDLEPUSH

/-- An OVERFLOW drop, with the event raised once per read of RING_CNT_A (R304). -/
def overflow (n : Nat) : Effect :=
  seq [count (TM.RING_CNT_A_OVERFLOW n), fireFirst (TM.RING_CNT_A n) 0 62 n]

/-- Delivery of a received frame: pushed, or dropped with its chain returned to Flacon (Table 08.5). -/
def deliver (n : Nat) (d : Desc) : Effect :=
  seq [pointerCheck n, ask fun s =>
    if s.hasRoom n then append n d else seq [overflow n, freeDesc d]]

/-- A completion: pushed, or held by its producer until the ring is enabled and has room (Table 08.5, R124). -/
def complete (source unit n : Nat) (d : Desc) : Effect :=
  seq [pointerCheck n, ask fun s =>
    if s.hasRoom n && !s.tm.held.any (fun h => h.ring = n) then append n d
    else fun s => [.tm { s.tm with held := s.tm.held ++ [⟨n, d, source, unit⟩] }]]

/-- Places the completions held for ring `n`, oldest first, while it has room. -/
def placeHeld (n : Nat) : Effect := ask fun s =>
  let rec go : List HeldPush → Effect
    | [] => nothing
    | h :: hs => ask fun s =>
      if h.ring = n && s.hasRoom n then
        seq [fun s => [.tm { s.tm with held := s.tm.held.erase h }], append n h.d, go hs]
      else go hs
  go s.tm.held

/-- Whether a producer holds a completion it cannot place. -/
def State.holds (s : State) (source unit : Nat) : Bool :=
  s.tm.held.any (fun h => h.source = source && h.unit = unit)

/-- The descriptor a pop of ring `n` delivers from its head entry. -/
def State.delivered (s : State) (n : Nat) (e : RingEntry) : Desc × Bool × Bool × Bool :=
  if s.shallow n then (e.d, false, false, true) else readSlot (s.bytes (s.slotAddr n e.slot) 32)

/-- A pop removes the head of ring `n` and goes on with the descriptor delivered; `none` for an empty ring (R303, R306,
R313). -/
def pop (n : Nat) (k : Option Desc → Effect) : Effect :=
  seq [pointerCheck n, ask fun s =>
    let r := s.ring n
    match r.q with
    | [] => k none
    | e :: rest =>
      let (d, poisoned, lost, stampOk) := s.delivered n e
      let soj := min ((s.ltbUs + 2 ^ 32 - e.stamp) % 2 ^ 32) (2 ^ 24 - 1)
      seq [
        setRing n { r with q := rest },
        when (d.len ≠ 0) (setHolder d.buf 0x40),
        when stampOk (setFld (TM.HWM_SOJ_US n) (max (s.fld (TM.HWM_SOJ_US n)) soj)),
        when lost (seq [count TM.POOL_CNT_C_LOST, fire 66 (2 * 2 ^ 14)]),
        when poisoned (seq [count (TM.RING_CNT_B_POISONED n), fireFirst (TM.RING_CNT_B n) 0 61 n]),
        placeHeld n, ringDrained n,
        k (some d)]]

/-- Every chain whose head has HOLDER `n` goes back to Flacon, counted in RECLAIMED (R305, R315). -/
def reclaim (n : Nat) : Effect := ask fun s =>
  let heads := allBelow 16384 (fun b => s.holder b = n && s.isHead b)
  seq [forEach heads freeChain, countBy (TM.RING_CNT_C_RECLAIMED n) heads.length]

/-- The COMPLETION descriptor of Table 03.9. -/
def completion (source status len buf unit detail tag : Nat) : Desc :=
  mkDesc (5 + source * 2 ^ 5 + status * 2 ^ 8 + len * 2 ^ 16) (buf + unit * 2 ^ 16) detail tag

end Sys2Proof.Machine
end

