-- ==== Sys2Proof/Machine/Operands.lean ====
section
/-!
DEFINITION. The Yafort instruction word: its fields (Tables 02.4 and 03.1), the row of the opcode table it belongs to
(Tables 02.5, 02.6 and 03.2), which words are reserved (R57, R58, R95) and which are privileged (R60).
-/
namespace Sys2Proof.Machine

open Sys2Proof

/-- The instruction rows of the opcode table. -/
inductive Row where
  | add | sub | and | or | xor | andn | shl | shr | sar | ror | addc | subb | mul | mulh | mulhu | min | max | minu
  | maxu | clz | popc | bswap
  | addi | andi | ori | xori | shifti | lui | bfx | bfi | cmp | cmpi | tcmp | plog | mfs | mts
  | ldb | ldbu | ldh | ldhu | ldw | stb | sth | stw | ldt | stt | ldf | stf
  | amoSwap | amoAdd | amoOr | amoCas | xcopyCopy | xcopyCopyCrc | xcopyCrc | xcopyFill
  | br | jal | jalr | done | evctl | fence | brk | trap | eret | tnow | tadd | taddi | tdiff | tmv
  | twait | tarm | tarmDisarm | trigArm | trigCancel | push | pop | lookupEui | lookupShort | learn | kfetch | seal
  | open_ | txat | listen | calAdd | calRemove | calMove | calInterval | macDlcount | macAck | macDlqueue | macSearch
  | bufAlloc | bufFree
  deriving DecidableEq, Repr

/-! ### Fields -/

/-- The guard and the opcode (R56). -/
def pn (w : Nat) : Bool := bit w 31
def pg (w : Nat) : Nat := bits w 30 28
def opcode (w : Nat) : Nat := bits w 27 22

/-- Register fields of the REG, IMM, DEV and kindred formats. -/
def fRd (w : Nat) : Nat := bits w 21 18
def fRs (w : Nat) : Nat := bits w 17 14
def fRt (w : Nat) : Nat := bits w 13 10
def fFn (w : Nat) : Nat := bits w 9 5
/-- The `sub` and `ta` fields of the DEV format. -/
def fSub (w : Nat) : Nat := bits w 7 4
def fTa (w : Nat) : Nat := bits w 9 8
/-- The predicate, combine and condition fields of CMR and CMI. -/
def fPd (w : Nat) : Nat := bits w 21 19
def fCb (w : Nat) : Nat := bits w 18 17
def fCc (w : Nat) : Nat := bits w 16 13

/-- A field sign-extended to 32 bits. -/
def sext (width v : Nat) : Word := BitVec.ofInt 32 (signed width v)

/-- The row an instruction word belongs to. A word whose opcode or function code no row has is reserved, and issues under
ADD, the row R58 bears on (assumption 10). -/
def rowOf (w : Nat) : Row :=
  match opcode w with
  | 0x00 =>
    match fFn w with
    | 0x00 => .add | 0x01 => .sub | 0x02 => .and | 0x03 => .or | 0x04 => .xor | 0x05 => .andn | 0x06 => .shl
    | 0x07 => .shr | 0x08 => .sar | 0x09 => .ror | 0x0A => .addc | 0x0B => .subb | 0x0C => .mul | 0x0D => .mulh
    | 0x0E => .mulhu | 0x0F => .min | 0x10 => .max | 0x11 => .minu | 0x12 => .maxu | 0x13 => .clz | 0x14 => .popc
    | 0x15 => .bswap | _ => .add
  | 0x01 => .addi | 0x02 => .andi | 0x03 => .ori | 0x04 => .xori | 0x05 => .shifti | 0x06 => .lui | 0x07 => .bfx
  | 0x08 => .bfi | 0x09 => .cmp | 0x0A => .cmpi | 0x0B => .plog
  | 0x0C => if bit w 11 then .mts else .mfs
  | 0x0E => .eret
  | 0x10 => .ldb | 0x11 => .ldbu | 0x12 => .ldh | 0x13 => .ldhu | 0x14 => .ldw | 0x15 => .stb | 0x16 => .sth
  | 0x17 => .stw | 0x18 => .ldt | 0x19 => .stt | 0x1A => .ldf | 0x1B => .stf
  | 0x1C => match bits w 9 8 with | 0 => .amoSwap | 1 => .amoAdd | 2 => .amoOr | _ => .amoCas
  | 0x1D => match bits w 9 8 with | 0 => .xcopyCopy | 1 => .xcopyCopyCrc | 2 => .xcopyCrc | _ => .xcopyFill
  | 0x20 => .br | 0x21 => .jal | 0x22 => .jalr | 0x24 => .done | 0x25 => .evctl | 0x26 => .fence | 0x28 => .brk
  | 0x29 => .trap | 0x2A => .tnow | 0x2B => .tadd | 0x2C => .taddi | 0x2D => .tdiff | 0x2E => .tcmp | 0x2F => .tmv
  | 0x30 => .twait
  | 0x31 => if bit w 6 then .tarmDisarm else .tarm
  | 0x32 => if fSub w = 1 then .trigCancel else .trigArm
  | 0x33 => .push | 0x34 => .pop
  | 0x35 => if fSub w = 1 then .lookupShort else .lookupEui
  | 0x36 => .learn | 0x37 => .kfetch | 0x38 => .seal | 0x39 => .open_ | 0x3A => .txat | 0x3B => .listen
  | 0x3C => match fSub w with | 1 => .calRemove | 2 => .calMove | 3 => .calInterval | _ => .calAdd
  | 0x3D => match fSub w with | 1 => .macAck | 2 => .macDlqueue | 3 => .macSearch | _ => .macDlcount
  | 0x3E => if fSub w = 1 then .bufFree else .bufAlloc
  | _ => .add

/-- A special register of Table 02.2, 02.17 or 03.4 that an MFS (`wr` false) or an MTS (`wr` true) may name at this kind
of core. -/
def specialOk (mgt wr : Bool) (n : Nat) : Bool :=
  if n ≤ 15 then !wr || n = 1 || n = 6 || n = 10 || n = 12
  else if mgt && n ≤ 22 then !wr || n = 16 || n = 18 || n = 22
  else false

/-- Operand fields that must be 0, and reserved codes (R58, R95, Tables 02.4, 02.6, 03.1 and 03.2). -/
def fieldsOk (w : Nat) : Bool :=
  match opcode w with
  | 0x00 => bits w 4 0 = 0 && fFn w ≤ 0x15 && (fFn w < 0x13 || fRt w = 0)
  | 0x01 | 0x02 | 0x03 | 0x04 | 0x06 => true
  | 0x05 => bits w 11 5 = 0
  | 0x07 | 0x08 => bits w 3 0 = 0
  | 0x09 => bits w 4 0 = 0 && fCb w ≠ 3 && fCc w ≤ 11
  | 0x0A => fCb w ≠ 3 && fCc w ≤ 11
  | 0x0B => bits w 9 0 = 0
  | 0x0C => bits w 10 0 = 0
  | 0x0E | 0x24 | 0x26 | 0x28 => bits w 21 0 = 0
  | 0x10 | 0x11 | 0x12 | 0x13 | 0x14 | 0x15 | 0x16 | 0x17 => true
  | 0x18 | 0x19 => bits w 19 18 = 0
  | 0x1A | 0x1B => bits w 13 12 ≠ 3
  | 0x1C | 0x1D => bits w 7 0 = 0
  | 0x20 | 0x21 => true
  | 0x22 => bits w 13 0 = 0
  | 0x25 => bits w 15 0 = 0
  | 0x29 => bits w 21 16 = 0
  | 0x2A => bits w 19 0 = 0
  | 0x2B => bits w 9 0 = 0
  | 0x2C => true
  | 0x2D => bits w 7 0 = 0
  | 0x2E => bits w 9 0 = 0 && fCb w ≠ 3 && bits w 12 10 ≤ 5
  | 0x2F => bits w 13 0 = 0
  | 0x30 => fRd w = 0 && fRs w = 0 && fRt w = 0 && fSub w = 0 && bits w 3 0 = 0
  | 0x31 => fRd w = 0 && fRs w = 0 && fRt w = 0 && fSub w < 8 && bits w 3 0 = 0
  | 0x32 => fRt w = 0 && fSub w ≤ 1 && (fSub w = 0 || fTa w = 0) && bits w 3 0 = 0
  | 0x33 => fRd w = 0 && fTa w = 0 && fSub w ≤ 1 && bits w 3 0 = 0
  | 0x34 => fTa w = 0 && fSub w = 0 && bits w 3 0 = 0
  | 0x35 => fTa w = 0 && fSub w ≤ 1 && (fSub w = 0 || fRt w = 0) && bits w 3 0 = 0
  | 0x36 | 0x38 | 0x39 => fRd w = 0 && fRt w = 0 && fTa w = 0 && fSub w = 0 && bits w 3 0 = 0
  | 0x37 => fRt w = 0 && fTa w = 0 && fSub w = 0 && bits w 3 0 = 0
  | 0x3A | 0x3B => fRt w = 0 && fSub w = 0 && bits w 3 0 = 0
  | 0x3C => fRd w = 0 && fSub w ≤ 3 && bits w 3 0 = 0
      && (fSub w = 0 || fSub w = 3 || fRt w = 0) && (fSub w = 0 || fSub w = 2 || fTa w = 0)
  | 0x3D => fSub w ≤ 3 && bits w 3 0 = 0 && (fSub w ≤ 1 || fRd w = 0)
      && (fSub w = 1 || fSub w = 2 || fRt w = 0) && (fSub w = 1 || fTa w = 0)
  | 0x3E => fSub w ≤ 1 && fRt w = 0 && fTa w = 0 && bits w 3 0 = 0 && (fSub w = 0 || fRd w = 0)
  | _ => false

/-- A decode fault of a word at a core: PRIV 2 or ILLEGAL 1 (R50, R57, R58, R60). Decode faults come whatever the guard. -/
def decodeFault (mgt inFault : Bool) (w : Nat) : Option Nat :=
  if !mgt && (opcode w = 0x0E || opcode w = 0x1D) then some 2
  else if !mgt && opcode w = 0x0C && 16 ≤ bits w 17 12 && bits w 17 12 ≤ 22 then some 2
  else if pn w && pg w = 0 then some 1
  else if !fieldsOk w then some 1
  else if opcode w = 0x0C && !specialOk mgt (bit w 11) (bits w 17 12) then some 1
  else if opcode w = 0x0E && !inFault then some 1
  else none

/-! ### Register operands -/

/-- General register `i` (R48): g0 reads 0. -/
def Core.gr (c : Core) (i : Nat) : Word := if i = 0 then 0#32 else getD c.g i 0#32

/-- Writes general register `i`; a write to g0 is ignored. -/
def Core.setG (c : Core) (i : Nat) (v : Word) : Core := if i = 0 then c else { c with g := putD c.g i v 0#32 }

/-- Predicate `i`; p0 reads 1. -/
def Core.pr (c : Core) (i : Nat) : Bool := i = 0 || c.p.getLsbD i

/-- Writes predicate `i`; a write to p0 is ignored (R64). -/
def Core.setP (c : Core) (i : Nat) (b : Bool) : Core :=
  if i = 0 then c else { c with p := BitVec.ofNat 8 (putBit c.p.toNat i b) }

/-- Time register `i`. -/
def Core.tr (c : Core) (i : Nat) : Instant := getD c.t i 0#64

/-- Writes time register `i`. -/
def Core.setT (c : Core) (i : Nat) (v : Instant) : Core := { c with t := putD c.t i v 0#64 }

/-- Whether the guard lets an instruction execute: p[PG] XOR PN (R57). -/
def Core.guard (c : Core) (w : Nat) : Bool := xor (c.pr (pg w)) (pn w)

end Sys2Proof.Machine
end

