-- ==== Sys2Proof/Machine/Flags.lean ====
section
/-!
DEFINITION. Yafort arithmetic: the ALU results with the carry of ADD, SUB, ADDC and SUBB (Table 02.6), the shifts and bit
fields (R62), the conditions of Table 02.7, the combine modes of R63, PLOG (R64) and TDIFF's clamp (R67).
-/
namespace Sys2Proof.Machine

open Sys2Proof

/-- The sum of two words and a carry, with the carry out. -/
def addCarry (a b : Word) (cy : Bool) : Word × Bool :=
  let r := a.toNat + b.toNat + b2n cy
  (BitVec.ofNat 32 r, decide (2 ^ 32 ≤ r))

/-- The difference of two words and a borrow, with the borrow out. -/
def subBorrow (a b : Word) (cy : Bool) : Word × Bool :=
  (a - b - BitVec.ofNat 32 (b2n cy), decide (a.toNat < b.toNat + b2n cy))

/-- A shift of kind 0 shl, 1 shr, 2 sar, 3 ror (R62). -/
def shiftBy (kind : Nat) (a : Word) (n : Nat) : Word :=
  match kind with
  | 0 => a <<< n
  | 1 => a >>> n
  | 2 => a.sshiftRight n
  | _ => a.rotateRight n

/-- The number of leading zeros of a word (CLZ), 32 for 0. -/
def leadingZeros (a : Word) : Nat :=
  match firstBelow 32 (fun i => a.getLsbD (31 - i)) with
  | some i => i
  | none => 32

/-- The number of 1 bits of a word (POPC). -/
def onesIn (a : Word) : Nat := ((List.range 32).filter (fun i => a.getLsbD i)).length

/-- A word with its four bytes reversed (BSWAP). -/
def byteSwap (a : Word) : Word := BitVec.ofNat 32 (ofBe (leBytes a.toNat 4))

/-- BFX: `w` bits of `a` from `pos`; bits above 31 read as 0. -/
def bfxOf (a : Word) (pos w : Nat) : Word := BitVec.ofNat 32 (a.toNat / 2 ^ pos % 2 ^ w)

/-- BFI: the low `w` bits of `a` into `d` at `pos`; bits above 31 are not written. -/
def bfiOf (d a : Word) (pos w : Nat) : Word :=
  let m : Word := BitVec.ofNat 32 ((2 ^ w - 1) * 2 ^ pos)
  (d &&& ~~~m) ||| ((a <<< pos) &&& m)

/-- The conditions of Table 02.7. -/
def condition (cc : Nat) (a b : Word) : Bool :=
  match cc with
  | 0 => a = b
  | 1 => a ≠ b
  | 2 => a.toInt < b.toInt
  | 3 => b.toInt ≤ a.toInt
  | 4 => a.toInt ≤ b.toInt
  | 5 => b.toInt < a.toInt
  | 6 => a.toNat < b.toNat
  | 7 => b.toNat ≤ a.toNat
  | 8 => a.toNat ≤ b.toNat
  | 9 => b.toNat < a.toNat
  | 10 => a &&& b ≠ 0#32
  | _ => a &&& b = 0#32

/-- TCMP's conditions 0-5 on the signed difference of two instants (R49, R63). -/
def timeCondition (cc : Nat) (a b : Instant) : Bool :=
  let d := tdiff a b
  match cc with
  | 0 => d = 0
  | 1 => d ≠ 0
  | 2 => d < 0
  | 3 => 0 ≤ d
  | 4 => d ≤ 0
  | _ => 0 < d

/-- The combine modes of R63. -/
def combine (cb : Nat) (old c : Bool) : Bool :=
  match cb with
  | 0 => c
  | 1 => old && c
  | _ => old || c

/-- PLOG's functions (R64). -/
def plogOf (op : Nat) (a b : Bool) : Bool :=
  match op with
  | 0 => a && b
  | 1 => a || b
  | 2 => xor a b
  | 3 => a && !b
  | 4 => a || !b
  | 5 => !a
  | 6 => false
  | _ => true

/-- TDIFF: the shifted difference clamped to 32 bits, and whether it was clamped (R67). -/
def tdiffOf (a b : Instant) (sh : Nat) : Word × Bool :=
  let d := tdiff a b / (2 ^ sh : Nat)
  let r := clampI (-(2 ^ 31)) (2 ^ 31 - 1) d
  (BitVec.ofInt 32 r, decide (r ≠ d))

/-- CRC-32 of IEEE 802.3 over bytes, continued from a finished value (R84). -/
def crc32Byte (c b : Nat) : Nat :=
  (List.range 8).foldl (fun x _ => if x % 2 = 1 then Nat.xor (x / 2) 0xEDB88320 else x / 2) (Nat.xor c b)
def crc32From (xcrc : Nat) (l : List Nat) : Nat :=
  Nat.xor (l.foldl crc32Byte (Nat.xor xcrc 0xFFFFFFFF)) 0xFFFFFFFF
def crc32 (l : List Nat) : Nat := crc32From 0 l

end Sys2Proof.Machine
end

