-- ==== Sys2Proof/Machine/Service.lean ====
section
/-!
DEFINITION. The units of in-service test (Table 17.1), the service vote a slice withdraws (R539), and a slice that ends
INCOMPLETE (R540-R542), for the allocators that pass over such units.
-/
namespace Sys2Proof.Machine

open Sys2Proof

/-- Units, slice length in ns, current in mA and patterns of a test class (Table 17.1). -/
def istUnits (c : Nat) : Nat := [96, 12, 64, 24, 16, 192, 48, 1, 1].getD c 0
def istLength (c : Nat) : Nat := if c = 3 || c = 7 then 20000 else 10000
def istCurrent (c : Nat) : Nat := [12, 10, 6, 40, 8, 15, 4, 20, 2].getD c 0
def istPatterns (c : Nat) : Nat := [4096, 2048, 7168, 640, 128, 512, 1024, 464, 48].getD c 0

/-- The power domain of a unit. -/
def istDomain (c u : Nat) : Nat := match c with
  | 0 | 1 => 12
  | 2 => 4 + u / 8
  | 3 => 16
  | 5 => if 64 ≤ u ∧ u < 88 then 4 + (u - 64) / 3 else if 88 ≤ u ∧ u < 96 then 3 else 2
  | 7 => 17
  | 8 => 19
  | _ => 2

def setIst (f : Ist → Ist) : Effect := fun s => [.ist (f s.ist)]

/-- Whether a unit's service vote is withdrawn: a slice runs on it, or a FORCE has taken it out of service (R539, R547). -/
def State.inSlice (s : State) (c u : Nat) : Bool :=
  s.ist.running.any (fun x => x.cls = c && x.unit = u) || s.ist.queue.any (fun q => q.1 = c && q.2.1 = u && q.2.2)

/-- Whether a FORCE has taken a unit out of service: it takes no work until its slice ends (R547). -/
def State.forcedOut (s : State) (c u : Nat) : Bool :=
  s.ist.running.any (fun x => x.cls = c && x.unit = u && x.forced) || s.ist.queue.any (fun q => q.1 = c && q.2.1 = u && q.2.2)

/-- A unit's results. -/
def State.istUnit (s : State) (c u : Nat) : IstUnit := getD s.ist.results (c * 256 + u) {}
def setUnit (c u : Nat) (f : IstUnit → IstUnit) : Effect :=
  fun s => [.ist { s.ist with results := putD s.ist.results (c * 256 + u) (f (s.istUnit c u)) {} }]

/-- A slice ends INCOMPLETE: it is run again, and EV_IST_STARVED at INC_MAX in a row (R542). The signature of a slice cut
short is not said. -/
def sliceInc (x : Slice) : Effect := withFree 32 fun sig => ask fun s =>
  let old := (s.istUnit x.cls x.unit).incRun
  let n := min (old + 1) 255
  seq [setIst fun t => { t with
      running := t.running.filter (fun y => y.cls ≠ x.cls || y.unit ≠ x.unit)
      queue := if t.queue.any (fun q => q.1 = x.cls && q.2.1 = x.unit) then t.queue else t.queue ++ [(x.cls, x.unit, false)] },
    setUnit x.cls x.unit fun r => { r with outcome := 3, done := false, forced := x.forced, incRun := n, sig := BitVec.ofNat 32 sig },
    count (IST.CNT_HI 1),
    when (n = s.fld IST.IST_CFG_INC_MAX && n ≠ old) (seq [count (IST.CNT_LO 1), fire 91 (x.cls + x.unit * 2 ^ 4)])]

/-- Work reaches a unit in a slice that is not forced: the slice yields, and ballast stands in for its current until the
boundary at which it would have ended (R540, R544). -/
def yieldUnit (c u : Nat) : Effect := ask fun s => match s.ist.running.find? (fun x => x.cls = c && x.unit = u && !x.forced) with
  | some x => seq [sliceInc x, count (IST.CNT_LO 2),
      setIst fun t => { t with ballast := t.ballast ++ [(istCurrent c, x.ends)] }]
  | none => nothing

/-- The lowest unit that can take work: one in service, or else the lowest in a slice (R540). -/
def State.allot (s : State) (c : Nat) (us : List Nat) : Option Nat :=
  match us.find? (fun u => !s.inSlice c u) with
  | some u => some u
  | none => us.find? (fun u => s.ist.running.any (fun x => x.cls = c && x.unit = u && !x.forced))

end Sys2Proof.Machine
end

