-- ==== Sys2Proof/Machine/Link.lean ====
section
/-!
DEFINITION. Frames on the twin link: how one is built and sent (R513, R514).
-/
namespace Sys2Proof.Machine

open Sys2Proof

def setTwn (f : Twn → Twn) : Effect := fun s => [.twn (f s.twn)]

/-- The unit's role (Table 16.1). -/
def State.role (s : State) : Nat := s.fld TWN.TWN_STATE_ROLE

/-- A frame of TYPE `ty`: header, payload and CRC-32. -/
def linkFrame (ty seqNo epoch : Nat) (payload : List Nat) : List Nat :=
  let l := [ty, 0] ++ leBytes payload.length 2 ++ leBytes seqNo 4 ++ leBytes epoch 4 ++ [0, 0, 0, 0] ++ payload
  l ++ leBytes (crc32 l) 4

/-- A sending command starts a new list of frames sent. -/
def linkClear : Effect := setTwn fun t => { t with outs := [] }

/-- Sends a frame, where the link sends at all. -/
def linkSend (ty : Nat) (payload : List Nat) : Effect := ask fun s =>
  let n := getD s.twn.seqs ty 0
  when (s.on 20 && s.flag TWN.LINK_CTL_EN) (setTwn fun t => { t with
    seqs := putD t.seqs ty ((n + 1) % 2 ^ 32) 0
    outs := t.outs ++ [linkFrame ty n (s.regN TWN.ROLE_EPOCH) payload] })

/-- An HB leaves now: TIME and FRAC are the instant plus EGRESS_5 (R513, R516). -/
def sendHb (alive dying : Bool) : Effect := ask fun s =>
  let t : Int := (s.acc.atb / 2 ^ 32 : Nat) + signed 32 (s.regN (ACC.EGRESS 5))
  let n := (t % 2 ^ 80).toNat
  when (!s.flag TWN.TWN_EXP_HB_SUPPRESS)
    (linkSend 1 (leBytes (n / 65536) 8 ++ leBytes n 2 ++ [s.role, b2n alive + 2 * b2n dying]))

end Sys2Proof.Machine
end

