-- ==== Sys2Proof/Machine/Reset.lean ====
section
/-!
DEFINITION. Trigger comparators as data (R405), domains and their power (R438, R439, R447), and losing power or being
reset, domain by domain and scope by scope (R452-R455).
-/
namespace Sys2Proof.Machine
open Sys2Proof

/-! ### Comparators -/

/-- Comparator `i`. -/
def State.comp (s : State) (i : Nat) : Comp := getD s.acc.comps i {}

/-- Changes comparator `i`. -/
def setComp (i : Nat) (f : Comp → Comp) : Effect :=
  fun s => [.acc { s.acc with comps := putD s.acc.comps i (f (s.comp i)) {} }]

/-- Arms a PLATFORM or MAC comparator at `t`. -/
def arm (i : Nat) (t : Instant) : Effect := setComp i (fun c => { c with armed := true, at_ := t, fired := false })

/-- Frees a comparator without firing it. -/
def disarm (i : Nat) : Effect := setComp i (fun c => { c with armed := false })

/-- The free PROGRAM comparators (TRIG_CFG.FREE). -/
def State.freeComps (s : State) : Nat :=
  416 - (s.acc.comps.filter (fun e => decide (96 ≤ e.1) && e.2.armed)).length

/-- Frees the armed comparators that `p` names. -/
def freeWhere (p : Nat → Comp → Bool) : Effect := ask fun s =>
  forEach ((s.acc.comps.filter (fun e => e.2.armed && p e.1 e.2)).map Prod.fst) disarm

/-- Frees every comparator that core `n` armed and that has not fired (R111). -/
def freeCompsOf (n : Nat) : Effect := freeWhere (fun i c => decide (96 ≤ i) && c.owner = n)

/-! ### Domains (Table 13.1) -/

/-- The domains a domain depends on, nearest last. -/
def dependsOn (d : Nat) : List Nat := if d < 2 then [] else if d = 2 then [0] else if 13 ≤ d ∧ d ≤ 15 then [0, 2, 12] else [0, 2]

/-- The domains that depend on `d`, directly or not. -/
def dependents (d : Nat) : List Nat := (List.range 21).filter (fun e => (dependsOn e).contains d)

/-- A domain's power-up time from OFF, in ns. -/
def powerNs (d : Nat) : Nat :=
  [0, 0, 20000, 10000, 8000, 8000, 8000, 8000, 8000, 8000, 8000, 8000, 12000, 20000, 20000, 20000, 10000, 15000, 25000, 5000,
    12000].getD d 0

/-- The order of Table 13.3. -/
def drydownOrder : List Nat := [13, 14, 15, 12, 18, 19, 20, 16, 11, 10, 9, 8, 7, 6, 5, 4, 3, 17, 2]

def setPlt (f : Plt → Plt) : Effect := fun s => [.plt (f s.plt)]

/-- Starts the power-ups that can start: each domain of the wake whose dependencies are ON, at most five at a time, the
last in Drydown's order first (R447). -/
def startPowering : Effect := ask fun s =>
  let ready := drydownOrder.reverse.filter (fun d => s.plt.waking.contains d && (find s.plt.powering d).isNone && !s.on d &&
    (dependsOn d).all s.on)
  forEach (ready.take (5 - s.plt.powering.length)) (fun d => ask fun s =>
    let warm := s.domain d = 1
    seq [setDomain d 3, setPlt fun p => { p with
      powering := insertKey p.powering d (s.acc.ltb + (if warm then 1000 else powerNs d))
      warm := if warm then p.warm ++ [d] else p.warm }])

/-- Domains join the wake, with everything they depend on. -/
def wakeDomains (ds : List Nat) : Effect := seq [
  ask fun s =>
    let all := (List.range 21).filter (fun d => ds.contains d || ds.any (fun e => (dependsOn e).contains d))
    setPlt fun p => { p with waking := p.waking ++ all.filter (fun d => decide (2 ≤ d) && !s.on d && !p.waking.contains d) },
  startPowering]

/-! ### Losing logic state -/

/-- Returns the listed registers that `p` names to their reset values. -/
def resetRegs (p : Nat → Bool) : Effect := fun s =>
  (s.regs.filter (fun e => p e.1)).map (fun e => Change.reg e.1 (regReset e.1))

/-- Slices on units of domain `d` end INCOMPLETE (R556). -/
def dropSlices (d : Nat) : Effect := ask fun s =>
  forEach (s.ist.running.filter (fun x => istDomain x.cls x.unit = d)) sliceInc

/-- Whether a soft repair lies in domain `d`. -/
def repairIn (d : Nat) (e : Nat) : Bool := istDomain (if bit e 29 then 5 else 4) (bits e 28 21) = d

/-- The logic of domain `d` loses its state: registers, working state, memories, comparators it owns. -/
def dropLogic (d : Nat) : Effect := seq [
  dropSlices d,
  resetRegs (fun k => regDomain (k % 2 ^ 40) = d),
  match d with
  | 2 => seq [
      fun s => [.mac {}, .fwd {}, .tm {}, .dis {}, .fe { ports := s.fe.ports }, .evt { s.evt with queue := [], deliveries := [], holdoff := [], lastOne := [] },
        .nv { s.nv with inject1 := false, inject2 := false }],
      freeWhere (fun i _ => i = 72 || i = 73 || decide (80 ≤ i ∧ i < 96)), clearMem 0x10000000 0x10400000, clearMem 0x10500000 0x10C00000]
  | 3 => seq [fun _ => [.core 64 {}], freeCompsOf 64, clearMem 0x104C0000 0x10500000]
  | 12 => seq [fun _ => [.bb {}], setIst fun t => { t with voices := [] }, freeWhere (fun i _ => decide (i < 72))]
  | 13 | 14 | 15 => fun s => [.fe { s.fe with ports := putD s.fe.ports (d - 13) { antPins := (getD s.fe.ports (d - 13) {}).antPins } {} }]
  | 16 => fun _ => [.cry {}, .key {}]
  | 17 => fun s => [.ddr { s.ddr with since := 0, fast := false, inject := false
                                      refreshing := s.ddr.refreshing || s.fld DDR.DDR_STATUS_STATE = 2 }]
  | 18 => fun _ => [.eth {}]
  | 19 => fun s => [.hif { selected := s.hif.selected }]
  | 20 => seq [fun s => [.twn { outs := s.twn.outs, shadow := s.twn.shadow }], freeWhere (fun i _ => decide (76 ≤ i ∧ i < 79))]
  | _ =>
    let c := d - 4
    when (decide (4 ≤ d ∧ d < 12)) (seq [
      forEach ((List.range 8).map (· + 8 * c)) (fun n => seq [(fun _ => [.core n {}]), freeCompsOf n]),
      clearMem (0x10400000 + c * 0x18000) (0x10400000 + (c + 1) * 0x18000)])]

/-- Isolation of domain `d`: group ANT's retention engages with an RF domain (R453). -/
def isolate (d : Nat) : Effect := when (decide (13 ≤ d ∧ d ≤ 15)) holdAnt

/-- Domain `d` goes OFF: its state is lost, and with it its soft repairs (R549). -/
def powerOff (d : Nat) : Effect := seq [isolate d, dropLogic d, setDomain d 0,
  setIst fun t => { t with soft := t.soft.filter (fun e => !repairIn d e) }]

/-! ### Resets (R454, R455) -/

def causeReset (b : Nat) : Effect := ask fun s => setReg PLT.RST_CAUSE (putBit (s.regN PLT.RST_CAUSE) b true)

/-- The DYING heartbeat that TWN sends as a reset starts (R514). -/
def dyingHb : Effect := ask fun s => when (s.on 20 && s.role ≠ 0) (seq [linkClear, sendHb false true])

/-- Every domain but PD_AON and PD_BKP that is powered goes through OFF, and PD_CORE, PD_MGT and PD_DDR power up. The
boot ROM runs when they are ON; an image LOAD under way is given up (assumption 25). -/
def resetDomains : Effect := seq [
  holdAnt,
  forEach drydownOrder (fun d => ask fun s => when (s.domain d ≠ 0) (powerOff d)),
  setFld PLT.DD_CTL_STATE 0, setFld PLT.IMG_CTL_BUSY 0,
  fun s => [.nv { s.nv with bootDue := true, runs := false, load := none }],
  setPlt fun p => { p with ddStopped := [], rollback := [], reasserted := none, entryWindow := false, waking := [2, 3, 17], powering := [], warm := []
                           stalled := [], dramDead := false, edge := none, resetUp := true },
  startPowering]

/-- A reset of scope CORE. `keep` says that it is the end of a shared activation, which keeps the twin's shadow (R534). -/
def coreResetWith (keep : Bool) : Effect := seq [dyingHb,
  when (!keep) (setTwn fun t => { t with shadow := none }), resetDomains]
def coreReset : Effect := coreResetWith false

/-- What a CHIP reset spares in PD_AON: the ACC window, the RTC captures, PAD_RET, RST_CAUSE, OFF_LOG and SUPPLY_LOG; the
present states of domains and rails are no stored values. -/
def chipSpares (a : Nat) : Bool :=
  a / 0x10000 = 0x4007 || decide (0x40080014 ≤ a ∧ a ≤ 0x40080020) || [PLT.PAD_RET, PLT.RST_CAUSE, PLT.OFF_LOG, PLT.OFF_ADDR_LO,
    PLT.OFF_ADDR_HI, PLT.SUPPLY_LOG, PLT.SUPPLY_STATUS, PLT.PD_STATE_LO, PLT.PD_STATE_HI].contains a

/-- The rest of PD_AON returns to its reset values. -/
def resetAon (spare : Nat → Bool) : Effect := seq [
  resetRegs (fun k => regDomain (k % 2 ^ 40) = 0 && !spare (k % 2 ^ 40)),
  fun s => [.evt {}, .ist {}, .gpio { s.gpio with moves := [] }, .nv { s.nv with nonce := none, fuseData := [], twinArm := false },
    .plt { aonHeld := s.plt.aonHeld, atbWaits := s.plt.atbWaits, wdogStart := s.ltbMs }]]

/-- A reset of scope CHIP: every comparator but PPS_OUT's is freed. -/
def chipReset : Effect := seq [dyingHb, setTwn fun t => { t with shadow := none }, holdH, holdAnt,
  freeWhere (fun i _ => i ≠ 75), resetAon chipSpares, resetDomains]

/-- A reset of scope POWER-ON begins: everything but PD_BKP loses its state and PD_AON is held in reset. -/
def powerOnReset (cause : Nat) : Effect := seq [
  forEach drydownOrder (fun d => ask fun s => when (s.domain d ≠ 0) (powerOff d)),
  setTwn fun _ => {},
  resetAon (fun _ => false), fun s => [.acc {}, .gpio {}, .ddr {}, .nv { s.nv with bootDue := true, runs := false, load := none }],
  clearMem 0x100000000 0x200000000,
  setReg PLT.RST_CAUSE (2 ^ cause),
  forEach drydownOrder (fun d => setDomain d 0),
  setPlt fun p => { p with aonHeld := true, atbWaits := true }]

/-- A reset of scope DOMAIN (R454): domain `d` goes through OFF, or with a dependent ON loses its logic alone. -/
def domReset (d : Nat) : Effect := ask fun s => when (decide (3 ≤ d ∧ d ≤ 20) && s.domain d ≠ 0) (seq [
  when (d = 20) (setTwn fun t => { t with shadow := none }),
  if (dependents d).any s.on then seq [isolate d, dropLogic d, setDomain d 3,
    setPlt fun p => { p with waking := p.waking.filter (· ≠ d) ++ [d], powering := insertKey p.powering d (s.acc.ltb + 2000) }]
  else seq [powerOff d, wakeDomains [d]],
  when (d = 3) (fun s => [.nv { s.nv with bootDue := true, runs := false }])])

end Sys2Proof.Machine
end

