-- ==== Sys2Proof/Machine/Space.lean ====
section
/-!
DEFINITION. The address map (R35-R41): regions and their divisions, MRAM's and DRAM's error codes and readiness (R483,
R581-R583), and how an engine reads and writes memory.
-/
namespace Sys2Proof.Machine

open Sys2Proof

/-- What lies at an address (Tables 01.5, 01.6 and 01.7). -/
inductive Region where
  | mram | flacon | seqI (c : Nat) | seqD (c : Nat) | mgt | engine | dram | window (w : Nat) | unmapped
  deriving DecidableEq, Repr

/-- The region and division of an address. -/
def regionOf (a : Nat) : Region :=
  if a < 0x400000 then .mram
  else if 0x10000000 ≤ a ∧ a < 0x10400000 then .flacon
  else if 0x10400000 ≤ a ∧ a < 0x104C0000 then
    let d := a - 0x10400000
    if d % 0x18000 < 0x10000 then .seqI (d / 0x18000) else .seqD (d / 0x18000)
  else if 0x104C0000 ≤ a ∧ a < 0x10500000 then .mgt
  else if 0x10500000 ≤ a ∧ a < 0x10C00000 then .engine
  else if 0x40000000 ≤ a ∧ a < 0x40140000 then .window ((a - 0x40000000) / 0x10000)
  else if 0x100000000 ≤ a ∧ a < 0x200000000 then .dram
  else .unmapped

/-- The first address above the DRAM that masters may use: the fitted size, less the top eighth while ECC is 1 (R579,
R583). -/
def State.dramTop (s : State) : Nat :=
  let size := 2 ^ (30 + min (s.fld DDR.DDR_CFG_SIZE) 2)
  0x100000000 + (if s.flag DDR.DDR_CFG_ECC then size - size / 8 else size)

/-- Whether the DRAM serves accesses: PD_DDR ON, STATE READY and its rails good (R581, R457). -/
def State.dramReady (s : State) : Bool :=
  s.on 17 && s.fld DDR.DDR_STATUS_STATE = 2 && !s.plt.dramDead

/-- An access to the DRAM in self-refresh with SR_AUTO 1 exits it (R582). With SR_AUTO 0 the access completes as well and
the DRAM stays in self-refresh (assumption 12). -/
def dramTouch : Effect := ask fun s =>
  seq [fun s => [.ddr { s.ddr with accessed := s.acc.ltb }],
    when (s.flag DDR.DDR_STATUS_SELFREF && s.flag DDR.DDR_CTL_SR_AUTO)
      (seq [setFld DDR.DDR_STATUS_SELFREF 0, fun s => [.ddr { s.ddr with refreshing := false }]])]

/-- An access to DRAM that is not READY (R581). -/
def dramNotReady : Effect := seq [count DDR.DDR_CNT_NOTREADY, fireFirst DDR.DDR_CNT 0 86 4]

/-- An uncorrectable DRAM error at word address `a` (R583). -/
def dramError (a : Nat) : Effect := seq [setReg DDR.DDR_LOG_LO (a % 2 ^ 32),
  setReg DDR.DDR_LOG_HI (2 ^ 31 + a / 2 ^ 32), count DDR.DDR_CNT_UNCORR, fire 86 1]

/-- The aligned 64-bit words that `k` bytes at `a` touch. -/
def wordsOf (a k : Nat) : List Nat := (List.range ((a % 8 + k + 7) / 8)).map (fun i => a / 8 * 8 + 8 * i)

/-- An uncorrectable MRAM error at word address `a`, and a corrected one (R483). -/
def mramError (a : Nat) : Effect := seq [setReg PLT.MRAM_LOG (2 ^ 31 + a % 2 ^ 22), count PLT.MRAM_CNT_UNCORR,
  fire 90 (a % 2 ^ 22 + 2 ^ 31)]
def mramFixed (a : Nat) : Effect := seq [count PLT.MRAM_CNT_FIXED,
  fun s => [.nv { s.nv with bad := eraseKey s.nv.bad a }], fire 90 (a % 2 ^ 22)]

/-- Reads `k` bytes at `a` and goes on with them, or with a bus error: memory that does not answer, or an uncorrectable
error. Whether the master may read there is the caller's question. -/
def readMem (a k : Nat) (bad : Effect) (ok : List Nat → Effect) : Effect := ask fun s =>
  match regionOf a with
  | .unmapped | .window _ => bad
  | .dram =>
    if s.dramTop < a + k then bad
    else if !s.dramReady then seq [dramNotReady, bad]
    else match (wordsOf a k).find? (fun w => s.ddr.bad.contains w) with
      | some w => if s.flag DDR.DDR_CFG_ECC then seq [dramTouch, dramError w, bad]
          else seq [dramTouch, ok (s.bytes a k)]
      | none => seq [dramTouch, ok (s.bytes a k)]
  | .mram => match (wordsOf a k).find? (fun w => getD s.nv.bad w 0 = 2) with
    | some w => seq [mramError w, bad]
    | none => seq [forEach ((wordsOf a k).filter (fun w => getD s.nv.bad w 0 = 1)) mramFixed, ok (s.bytes a k)]
  | _ => ok (s.bytes a k)

/-- A write of one word or less to MRAM: it clears the word's error, and an injection strikes in the program area. -/
def mramWrite (a : Nat) (l : List Nat) : Effect := ask fun s =>
  let ws := wordsOf a l.length
  let hit := decide (0x3A0000 ≤ a) && (s.nv.inject1 || s.nv.inject2)
  seq [putBytes a l, fun s => [.nv { s.nv with
    bad := match ws with
      | w :: _ => if hit then insertKey (eraseKey s.nv.bad w) w (if s.nv.inject2 then 2 else 1)
          else s.nv.bad.filter (fun e => !ws.contains e.1)
      | [] => s.nv.bad
    inject1 := s.nv.inject1 && !hit, inject2 := s.nv.inject2 && !hit }]]

/-- Writes bytes at `a` where memory answers; otherwise a bus error. -/
def writeMem (a : Nat) (l : List Nat) (bad ok : Effect) : Effect := ask fun s =>
  match regionOf a with
  | .unmapped | .window _ => bad
  | .dram =>
    if s.dramTop < a + l.length then bad
    else if !s.dramReady then seq [dramNotReady, bad]
    else
      let ws := wordsOf a l.length
      seq [dramTouch, putBytes a l, fun s => [.ddr { s.ddr with
        bad := (s.ddr.bad.filter (fun w => !ws.contains w)) ++ (if s.ddr.inject && s.flag DDR.DDR_CFG_ECC then ws.take 1 else [])
        inject := false }], ok]
  | .mram => seq [mramWrite a l, ok]
  | _ => seq [putBytes a l, ok]

/-- Whether `k` bytes at `a` stay inside one region and one division (R41). -/
def sameRegion (a k : Nat) : Bool := regionOf a = regionOf (a + (k - 1))

/-- An engine reads a source named by a register pair, in DRAM or on-chip SRAM: a bus error is logged as the engine's
(R40). -/
def engineRead (a k : Nat) (bad : Effect) (ok : List Nat → Effect) : Effect :=
  let err := seq [logBusError 67 a false, bad]
  match regionOf a with
  | .mram | .window _ | .unmapped => err
  | _ => if sameRegion a k then readMem a k err ok else err

/-- An engine writes bytes at an address that a program gave it: a bus error outside memory that engines reach. -/
def engineWrite (a : Nat) (l : List Nat) (bad ok : Effect) : Effect :=
  let err := seq [logBusError 67 a true, bad]
  match regionOf a with
  | .mram | .window _ | .unmapped => err
  | _ => if sameRegion a l.length then writeMem a l err ok else err

/-- The little-endian number of `k` bytes of list `l` from offset `o`. -/
def fieldLe (l : List Nat) (o k : Nat) : Nat := ofLe ((l.drop o).take k)

/-- The bytes of list `l` from `o` up to `e`. -/
def slice (l : List Nat) (o e : Nat) : List Nat := (l.drop o).take (e - o)

/-- Whether bytes `o` up to `e` of list `l` are all 0. -/
def zeros (l : List Nat) (o e : Nat) : Bool := (slice l o e).all (· = 0)

/-! ### MRAM records kept as two copies -/

/-- The live copy of a record with copies at `a` and `b`, read by `good` (its sequence number if its CRC is good): the
copy with the higher sequence number (R486, R495). -/
def State.liveCopy (s : State) (a b : Nat) (good : Nat → Option Nat) : Option Nat :=
  match good a, good b with
  | some x, some y => if x < y then some b else some a
  | some _, none => some a
  | none, some _ => some b
  | none, none => none

/-! ### Trust keys (R489, R490) -/

/-- The life-cycle state's code (Table 15.12): the highest state whose fuse is programmed. -/
def State.lifeCycle (s : State) : Nat :=
  let f := s.nv.lcs
  if bit f 5 then 6 else if bit f 3 then 5 else if bit f 2 then 4 else if bit f 1 then 3 else if bit f 0 then 2 else 1

end Sys2Proof.Machine
end

