-- ==== Sys2Proof/Machine/Nodes.lean ====
section
/-!
DEFINITION. The MAC half of a node record (Table 06.9), MAC's node cache (R227) and its errors (R252).
-/
namespace Sys2Proof.Machine

open Sys2Proof

/-- The 128 bytes of a record's MAC half. -/
def nodeBytes (n : Node) : List Nat :=
  leBytes n.eui 8 ++ [n.state, n.misses, n.port + n.mode * 4, n.chan, n.txpwr, n.flags, n.temp, n.dsn] ++ leBytes n.anchor 8
    ++ leBytes n.wake 8 ++ leBytes n.altWake 8 ++ leBytes n.interval 4 ++ leBytes (unsigned 32 n.rate) 4 ++ leBytes n.dev 4
    ++ leBytes n.guard 2 ++ leBytes n.lastErr 2 ++ leBytes n.lastHeard 8 ++ leBytes n.fcRx 4 ++ leBytes n.rxCount 4
    ++ leBytes n.missTotal 2 ++ [n.dlCount, n.dlRetry] ++ leBytes n.dlHead 4 ++ leBytes n.dlTail 4 ++ leBytes n.calEntry 4
    ++ leBytes n.rssi 2 ++ [n.lqi, 0] ++ leBytes n.searchSince 8 ++ List.replicate 28 0

/-- The record whose MAC half is these bytes. -/
def nodeOf (l : List Nat) : Node :=
  let f := fieldLe l
  { eui := f 0 8, state := f 8 1 % 8, misses := f 9 1, port := f 0xA 1 % 4, mode := f 0xA 1 / 4 % 16, chan := f 0xB 1
    txpwr := f 0xC 1, flags := f 0xD 1 % 16, temp := f 0xE 1, dsn := f 0xF 1, anchor := f 0x10 8, wake := f 0x18 8
    altWake := f 0x20 8, interval := f 0x28 4, rate := signed 32 (f 0x2C 4), dev := f 0x30 4, guard := f 0x34 2
    lastErr := f 0x36 2, lastHeard := f 0x38 8, fcRx := f 0x40 4, rxCount := f 0x44 4, missTotal := f 0x48 2
    dlCount := f 0x4A 1, dlRetry := f 0x4B 1, dlHead := f 0x4C 4, dlTail := f 0x50 4, calEntry := f 0x54 4
    rssi := f 0x58 2, lqi := f 0x5A 1, searchSince := f 0x5C 8 }

/-- The flags of a record: DRIFT_VALID, LOWBAT, ALT, ACK_OUT. -/
def Node.flagBit (n : Node) (i : Nat) : Bool := bit n.flags i
def Node.setFlagBit (n : Node) (i : Nat) (b : Bool) : Node := { n with flags := putBit n.flags i b }

/-- Where node `i`'s record lies (R226). -/
def State.nodeAddr (s : State) (i : Nat) : Nat :=
  s.fld MAC.DRAM_BASE_LO_ADDR + 2 ^ 32 * s.fld MAC.DRAM_BASE_HI_ADDR + i * 0x100

/-- Changes MAC's working state. -/
def setMac (f : Mac → Mac) : Effect := fun s => [.mac (f s.mac)]

/-- Puts node `i`'s record into the node cache as it is. -/
def storeNode (i : Nat) (n : Node) : Effect := setMac fun m => { m with cache := insertKey m.cache i n }

/-- Marks a record and a node map entry dirty for the ACTIVE unit's next checkpoint (R519). -/
def markNode (i : Nat) : Effect := ask fun s => when (s.role = 2) (setTwn fun t => { t with
  dirty := t.dirty.filter (· ≠ i) ++ [i], carried := t.carried.filter (· ≠ i) })
def markMap (i : Nat) : Effect := ask fun s => when (s.role = 2) (setTwn fun t => { t with
  dirtyMap := t.dirtyMap.filter (· ≠ i) ++ [i], carriedMap := t.carriedMap.filter (· ≠ i) })

/-- Writes node `i`'s record in the node cache. -/
def putNode (i : Nat) (n : Node) : Effect := seq [storeNode i n, markNode i]

/-- Writes a cached record back to DRAM. -/
def writeBack (i : Nat) : Effect := ask fun s => match find s.mac.cache i with
  | some n => writeMem (s.nodeAddr i) (nodeBytes n) nothing nothing
  | none => nothing

/-- A record enters the cache; with 4,096 held, one is evicted. Which is not said: a free choice (assumption 16). -/
def cacheNode (i : Nat) (n : Node) : Effect := ask fun s => seq [
  when (decide (4096 ≤ s.mac.cache.length)) (withFree 12 fun f => ask fun s => match s.mac.cache[f]? with
    | some (v, _) => seq [writeBack v, setMac fun m => { m with cache := eraseKey m.cache v }]
    | none => nothing),
  storeNode i n]

/-- Removes a node's calendar entry. -/
def unfile (i : Nat) : Effect := setMac fun m => { m with calendar := m.calendar.filter (fun e => e.nidx ≠ i) }

/-- A node enters SEARCH (R233, R239, R240, R252). -/
def enterSearch (i : Nat) (n : Node) : Effect := ask fun s => seq [
  putNode i { n with state := 4, searchSince := s.ns % 2 ^ 64, calEntry := 0xFFFFFFFF },
  unfile i, setMac fun m => { m with search := m.search.filter (· ≠ i) ++ [i], synced := eraseKey m.synced i },
  count (MAC.CNT_HI 7), fire 42 i]

/-- Goes on with node `i`'s record, read into the cache if need be; a DRAM error on the read puts the node in SEARCH with
DRIFT_VALID cleared (R227, R252). -/
def withNode (i : Nat) (k : Node → Effect) : Effect := ask fun s => match find s.mac.cache i with
  | some n => k n
  | none => readMem (s.nodeAddr i) 0x80
      (let n := (nodeOf (s.bytes (s.nodeAddr i) 0x80)).setFlagBit 0 false
       seq [cacheNode i n, enterSearch i n, fire 50 i,
        ask fun s => k ((find s.mac.cache i).getD n)])
      (fun l => seq [cacheNode i (nodeOf l), k (nodeOf l)])

/-- Changes node `i`'s cached record. -/
def mapNode (i : Nat) (f : Node → Node) : Effect := ask fun s => match find s.mac.cache i with
  | some n => putNode i (f n)
  | none => nothing

end Sys2Proof.Machine
end

