-- ==== Sys2Proof/Machine/Keys.lean ====
section
/-!
DEFINITION. The key store (chapter 10): slots and their records, the key tree, key loads and derivations, outgoing frame
counters (R332-R335), and KEY's commands.
-/
namespace Sys2Proof.Machine

open Sys2Proof

/-! ### Derivation functions (R356) -/

/-- The bytes of a label. -/
def ascii (t : String) : List Nat := t.toList.map Char.toNat

/-- R356's kdf, with an output of `l` bits. -/
def kdf (k : List Nat) (label : String) (ctx : List Nat) (l : Nat) : List Nat :=
  kdfCmac k (fun i => i % 256 :: ascii label ++ [0] ++ ctx ++ beBytes l 2) (l / 8)

/-- A key's check value. -/
def kcvOf (key : List Nat) : List Nat := (cmac key (ascii "ELT-KCV")).take 8

/-! ### Slots (R351-R357) -/

def setKey (f : Key → Key) : Effect := fun s => [.key (f s.key)]

/-- Stored slot `k` in the working store. -/
def State.kslot (s : State) (k : Nat) : KeySlot := getD s.key.slots k {}
def setSlot (k : Nat) (x : KeySlot) : Effect := setKey fun q => { q with slots := putD q.slots k x {} }

/-- Attribute bits of Table 10.3. -/
def KeySlot.noexport (x : KeySlot) : Bool := bit x.attr 0
def KeySlot.nodexport (x : KeySlot) : Bool := bit x.attr 1
def KeySlot.transport (x : KeySlot) : Bool := bit x.attr 2
def KeySlot.group (x : KeySlot) : Bool := bit x.attr 3
def KeySlot.internal (x : KeySlot) : Bool := bit x.attr 4
def KeySlot.gen (x : KeySlot) : Nat := x.epoch % 256
def KeySlot.los (x : KeySlot) : Nat := x.level + x.origin * 4 + b2n x.big * 32

/-- Whether the orphan test of R354 fails for slot `k`; `fuel` bounds the ancestors walked. -/
def State.orphanedBy (s : State) : Nat → Nat → Bool
  | 0, _ => false
  | fuel + 1, k =>
    let x := s.kslot k
    decide (2 ≤ x.level) && ((s.kslot x.parent).level = 0 || x.pepoch ≠ (s.kslot x.parent).epoch || s.orphanedBy fuel x.parent)
def State.orphaned (s : State) (k : Nat) : Bool := s.orphanedBy 3 k

/-- A slot and its ancestor stored slots, the slot first. -/
def State.lineage (s : State) : Nat → Nat → List Nat
  | 0, _ => []
  | fuel + 1, k => k :: (if 2 ≤ (s.kslot k).level then s.lineage fuel (s.kslot k).parent else [])

/-- The EPOCHs a load of slot `k` binds (R368). -/
def State.binding (s : State) (k : Nat) : List (Nat × Nat) := (s.lineage 3 k).map (fun j => (j, (s.kslot j).epoch))

/-- Where copy `c` of slot `k`'s record lies (R355). -/
def slotCopyAddr (k c : Nat) : Nat := 0x20000 + k * 0x80 + c * 0x40

/-- The record keys. -/
def State.recKey (s : State) : List Nat := kdf s.nv.root "ELT-KREC" (List.replicate 8 0) 256
def State.macKey (s : State) : List Nat := kdf s.nv.root "ELT-KMAC" (List.replicate 8 0) 256

/-- A record's material under its key stream (R356): the same operation encrypts and decrypts. -/
def State.wrapStream (s : State) (epoch k c : Nat) (l : List Nat) : List Nat :=
  let icb := ofBe (beBytes epoch 4 ++ beBytes k 2 ++ [c] ++ List.replicate 9 0)
  ctrMode s.recKey (fun i => beBytes ((icb + i) % 2 ^ 128) 16) 0 l

/-- The 64 bytes of slot `k`'s record as copy `c` (Table 10.3). -/
def State.slotRecord (s : State) (k c : Nat) (x : KeySlot) : List Nat :=
  let body := beBytes x.epoch 4 ++ beBytes k 2 ++ [x.los, x.attr] ++ beBytes x.parent 2 ++ [0, 0] ++ beBytes x.pepoch 4
    ++ s.wrapStream x.epoch k c (padTo 32 x.material) ++ (if x.level = 0 then List.replicate 8 0 else kcvOf x.material)
  body ++ (cmac s.macKey body).take 8

/-- EPOCH of copy `c` of slot `k`, if that copy is live (R357). -/
def State.slotCopy (s : State) (k c : Nat) : Option Nat :=
  let a := slotCopyAddr k c
  let l := s.bytes a 64
  if (cmac s.macKey (l.take 0x38)).take 8 = l.drop 0x38 && ofBe (slice l 4 6) = k &&
      !(wordsOf a 64).any (fun w => getD s.nv.bad w 0 = 2) then some (ofBe (l.take 4)) else none

/-- The slot in copy `c`. -/
def State.slotFrom (s : State) (k c : Nat) : KeySlot :=
  let l := s.bytes (slotCopyAddr k c) 64
  let los := byteAt l 6
  let e := ofBe (l.take 4)
  let big := bit los 5
  { epoch := e, level := los % 4, origin := bits los 4 2, big := big, attr := byteAt l 7, parent := ofBe (slice l 8 10)
    pepoch := ofBe (slice l 0xC 0x10)
    material := if los % 4 = 0 then [] else (s.wrapStream e k c (slice l 0x10 0x30)).take (if big then 32 else 16), live := c }

/-- EV_KEY_INTEGRITY. -/
def keyIntegrity (x cause : Nat) : Effect := seq [count (KEY.CNT_LO 3), fire 76 (x + cause * 2 ^ 18)]

/-- Loads slot `k` from its live copy with the higher EPOCH; a slot with none becomes EMPTY with EPOCH 0 (R357). -/
def loadSlot (k : Nat) (none_ : Effect) : Effect := ask fun s =>
  match s.slotCopy k 0, s.slotCopy k 1 with
  | some a, some b => setSlot k (s.slotFrom k (if b < a then 0 else 1))
  | some _, none => setSlot k (s.slotFrom k 0)
  | none, some _ => setSlot k (s.slotFrom k 1)
  | none, none => seq [setSlot k {}, none_]

/-- KEY_STORE_LOAD: KEY loads every slot and becomes READY. -/
def execKeyStoreLoad := run (inDomain 16 (ask fun s => when (!s.flag KEY.KEY_STATUS_READY) (seq [
  forEach (List.range 4096) (fun k => loadSlot k (keyIntegrity k 0)), setFld KEY.KEY_STATUS_READY 1])))

/-! ### Outgoing frame counters (R332-R335) -/

def setCry (f : Cry → Cry) : Effect := fun s => [.cry (f s.cry)]

/-- The ceiling of slot `k` in the counter page, and its live counter: the ceiling until a value has been drawn. -/
def ceilAddr (k : Nat) : Nat := 0xC000 + 4 * k
def State.ceil (s : State) (k : Nat) : Nat := s.word (ceilAddr k)
def State.live (s : State) (k : Nat) : Nat := (find s.cry.live k).getD (s.ceil k)
def setLive (k v : Nat) : Effect := setCry fun c => { c with live := insertKey c.live k v }

/-- A ceiling write starts: the next value to draw plus FC_BLOCK, never below the ceiling that stands (assumption 17). -/
def startCeiling (k : Nat) : Effect := ask fun s => when ((find s.cry.ceiling k).isNone) (seq [
  setLive k (s.live k),
  setCry fun c => { c with
    ceiling := insertKey c.ceiling k (min (max (s.ceil k) (s.live k + s.fld CRY.CRY_EXP_FC_BLOCK)) 0xFFFFFFFF) }])

/-- The ceiling write of slot `k` completes. -/
def ceilingDone (k : Nat) : Effect := ask fun s => match find s.cry.ceiling k with
  | some v => seq [setCry fun c => { c with ceiling := eraseKey c.ceiling k }, mramWrite (ceilAddr k) (leBytes v 4)]
  | none => nothing

/-- FC_CEILING_COMPLETE. -/
def execFcCeilingComplete (k : Fin 4096) := run (inDomain 16 (ceilingDone k))

/-- Whether a draw of slot `k`'s counter must wait for a ceiling write (R334). -/
def State.drawWaits (s : State) (k : Nat) : Bool := s.live k ≠ 0xFFFFFFFF && decide (s.ceil k ≤ s.live k)

/-- Draws slot `k`'s counter, or finds it exhausted (R335). -/
def drawCounter (k : Nat) (exhausted : Effect) (ok : Nat → Effect) : Effect := ask fun s =>
  let v := s.live k
  if v = 0xFFFFFFFF then seq [
    count (CRY.CNT_LO 5),
    when (!s.cry.exhausted.contains k) (seq [setCry fun c => { c with exhausted := c.exhausted ++ [k] }, fire 71 k]),
    exhausted]
  else seq [
    setLive k (v + 1),
    when (decide (s.fld CRY.FC_WARN_VALUE < v + 1) && !s.cry.warned.contains k)
      (seq [setCry fun c => { c with warned := c.warned ++ [k] }, fire 70 k]),
    when (decide (s.ceil k ≤ v + 1 + 16)) (startCeiling k),
    ok v]

/-- A draw that waits for its ceiling write within one operation. -/
def drawNow (k : Nat) (exhausted : Effect) (ok : Nat → Effect) : Effect := seq [
  ask fun s => when (s.drawWaits k) (seq [startCeiling k, ceilingDone k]), drawCounter k exhausted ok]

/-! ### Key loads (R359, R361-R365, R368) -/

/-- Node `i`'s entry of the node map. -/
def nmapAddr (i : Nat) : Nat := 0x10A80000 + 2 * i
def State.nmap (s : State) (i : Nat) : Nat := s.mem' (nmapAddr i) 2

/-- The node of a key reference, if it names one; and the stored slot whose counter and generation it uses (R121, R332). -/
def refNode (r : Word) : Option Nat := if bit r.toNat 31 then some (bits r.toNat 16 0) else none
def State.refSlot (s : State) (r : Word) : Nat := match refNode r with
  | some i => bits (s.nmap i) 11 0
  | none => bits r.toNat 11 0

/-- The derived-key cache's hit for node `i`, under slot `g` (R363). -/
def State.cacheHit (s : State) (i g : Nat) : Option CacheKey :=
  s.key.cache.find? (fun e => e.nidx = i && e.slot = g && e.epoch = (s.kslot g).epoch)

def Key.dropCache (q : Key) (i : Nat) : Key := { q with cache := q.cache.filter (fun e => e.nidx ≠ i) }

/-- What a key load's service finds: a refusal of Table 09.8, the key, or a miss on a node under a slot. -/
inductive Found where
  | refused (status : Nat)
  | key (m : KeyMat)
  | miss (node slot : Nat)
  deriving DecidableEq, Repr

/-- A key load served now. -/
def State.findKey (s : State) (r : Word) : Found :=
  let k := s.refSlot r
  let x := s.kslot k
  if !s.flag KEY.KEY_CTL_EN then .refused 0x0C
  else if s.lifeCycle = 1 || s.lifeCycle = 6 then .refused 4
  else match refNode r with
    | none =>
      if x.level = 0 || x.transport then .refused 4
      else if s.orphaned k then .refused 5
      else .key ⟨x.material, s.binding k, x.gen, none⟩
    | some i =>
      if !bit (s.nmap i) 15 then .refused 4
      else if x.level = 0 then .refused 5
      else if !x.group then .refused 4
      else if s.orphaned k then .refused 5
      else match s.cacheHit i k with
        | some e => if s.flag KEY.KEY_EXP_CACHE_DIS || e.bad then .miss i k
            else .key ⟨e.material, s.binding k, x.gen, none⟩
        | none => .miss i k

/-- The EUI-64 that a node key was derived from, kept with a cached key's load. -/
def withEui (r : Word) (m : KeyMat) (k : KeyMat → Effect) : Effect := match refNode r with
  | some i => withNode i fun n => k { m with eui := some n.eui }
  | none => k m

/-- A cache entry used becomes the most recent of its set. -/
def touchCache (node : Option Nat) : Effect := match node with
  | some i => setKey fun q =>
      { q with cache := q.cache.filter (fun e => e.nidx ≠ i) ++ q.cache.filter (fun e => e.nidx = i) }
  | none => nothing

/-- A refused key load counts. -/
def refusalCount (st : Nat) : Effect :=
  seq [when (st = 4) (count (KEY.CNT_LO 0)), when (st = 5) (count (KEY.CNT_LO 1))]

/-- The status code of Table 03.5 for a refusal of Table 09.8. -/
def keyCode (st : Nat) : Nat := match st with
  | 4 => 6 | 5 => 7 | 8 => 0x0B | 9 => 0x10 | 0x0C => 0x0C | _ => 0

/-- A key load's outcome reaches the one who waits. `derived` says that a derivation was needed (R122). -/
def keyResult (u : KeyUser) (r : Word) (st : Nat) (m : Option KeyMat) (derived : Bool) : Effect := match u with
  | .decision b => seq [
      fun s => [.fwd { s.fwd with decisions := s.fwd.decisions.map (fun e => if e.1 = b then (e.1, { e.2 with key := some (st, m) }) else e) }],
      setCry fun c => { c with ctxs := c.ctxs.map (fun e =>
        if e.2.d.buf = b then (e.1, { e.2 with decision := { e.2.decision with key := some (st, m) } }) else e) }]
  | .whole cl => setCry fun c => { c with whole := c.whole.map (fun e =>
      if e.1 = cl then (e.1, { e.2 with key := some (st, m) }) else e) }
  | .kfetch n => setCore n fun c => match c.wait with
      | .query q _ => { c with wait := .query q (some ⟨keyCode st, 0,
          match m with
          | some x => BitVec.ofNat 32 (x.gen + b2n (!derived) * 2 ^ 8 + b2n (refNode r).isSome * 2 ^ 9)
          | none => 0#32, 0#32, [], false⟩) }
      | _ => c

/-- Inserts a derived key into the cache, unless its binding or the map has changed since (R364, R371). -/
def cacheInsert (d : Derivation) (key : List Nat) : Effect := ask fun s =>
  let fresh := !d.uncached && !s.flag KEY.KEY_EXP_CACHE_DIS && s.nmap d.nidx = d.slot + 2 ^ 15 &&
    d.bound.all (fun e => (s.kslot e.1).epoch = e.2 && (s.kslot e.1).level ≠ 0)
  let others := s.key.cache.filter (fun e => e.nidx ≠ d.nidx)
  let set := others.filter (fun e => e.nidx % 4096 = d.nidx % 4096)
  when fresh (seq [
    when (decide (4 ≤ set.length)) (count (KEY.CNT_HI 3)),
    setKey fun q => { q with
      cache := (match set with
        | v :: _ => if 4 ≤ set.length then others.erase v else others
        | [] => others) ++ [⟨d.nidx, d.slot, (s.kslot d.slot).epoch, key, q.parInject⟩]
      parInject := false }])

/-- A derivation's key (R362). -/
def Derivation.derive (d : Derivation) (eui : Nat) : List Nat :=
  kdf d.material "ELT-NODE" (beBytes eui 8) (if d.big then 256 else 128)

/-- A derivation ends (R364). -/
def endDerivation (d : Derivation) : Effect := withNode d.nidx fun n =>
  if n.state = 0 then forEach d.users (fun u => keyResult u.1 u.2 8 none true)
  else
    let key := d.derive n.eui
    let gen := match d.bound with
      | e :: _ => e.2 % 256
      | [] => 0
    seq [count (KEY.CNT_HI 0), cacheInsert d key,
      forEach d.users (fun u => keyResult u.1 u.2 0 (some ⟨key, d.bound, gen, some n.eui⟩) true)]

/-- NODE_KEY_DERIVE: the derivation in one of the four engines ends. -/
def execNodeKeyDerive (e : Fin 4) := run (inDomain 16 (ask fun s => match s.key.derivations[e.val]? with
  | some d => seq [setKey fun q => { q with derivations := q.derivations.eraseIdx e }, endDerivation d]
  | none => nothing))

/-- A bad cache entry met by a load is removed (R376). -/
def dropBad (i g : Nat) : Effect := ask fun s => match s.cacheHit i g with
  | some e => when e.bad (seq [setKey fun q => q.dropCache i, keyIntegrity i 2])
  | none => nothing

/-- The derivation of a miss, bound now. -/
def State.derivation (s : State) (i g : Nat) (users : List (KeyUser × Word)) : Derivation :=
  ⟨i, g, (s.kslot g).material, (s.kslot g).big, s.binding g, false, users⟩

/-- A miss joins a derivation of the same binding, or takes a free engine (R122, R364). -/
def joinDerivation (i g : Nat) (u : KeyUser) (r : Word) : Effect := ask fun s =>
  if s.key.derivations.any (fun d => d.nidx = i && d.bound = s.binding g && !d.uncached) then
    setKey fun q => { q with derivations := q.derivations.map (fun d =>
      if d.nidx = i ∧ d.bound = s.binding g ∧ d.uncached = false then { d with users := d.users ++ [(u, r)] } else d) }
  else setKey fun q => { q with derivations := q.derivations ++ [s.derivation i g [(u, r)]] }

/-- Whether a load draws a frame counter: a SEAL of ALG 0 (R332). -/
def State.drawsFor (s : State) (u : KeyUser) : Bool := match u with
  | .whole cl => match find s.cry.whole cl with
    | some j => j.sealing && j.alg = 0
    | none => false
  | _ => false

/-- Whether a queued load must wait: KEY not READY or without its root, a draw at the ceiling, or no free derivation
engine. -/
def State.loadWaits (s : State) (u : KeyUser) (r : Word) : Bool :=
  s.flag KEY.KEY_CTL_EN && (!s.flag KEY.KEY_STATUS_READY || (s.lifeCycle = 2 && !s.nv.rootSet) ||
    (match s.findKey r with
      | .refused _ => false
      | .key _ => s.drawsFor u && s.drawWaits (s.refSlot r)
      | .miss i g => (s.drawsFor u && s.drawWaits g) ||
          (decide (4 ≤ s.key.derivations.length) &&
            !s.key.derivations.any (fun d => d.nidx = i && d.bound = s.binding g && !d.uncached))))

/-- Serves one load. -/
def serveLoad (u : KeyUser) (r : Word) : Effect := ask fun s =>
  let give : Effect := match s.findKey r with
    | .refused st => seq [refusalCount st, keyResult u r st none false]
    | .key m => seq [touchCache (refNode r), withEui r m fun m => keyResult u r 0 (some m) false]
    | .miss i g => seq [dropBad i g, joinDerivation i g u r]
  let drawn := fun (cl v : Nat) => setCry fun c => { c with whole := c.whole.map (fun e =>
    if e.1 = cl then (e.1, { e.2 with fc := v }) else e) }
  match u, s.drawsFor u, s.findKey r with
  | _, _, .refused _ => give
  | .whole cl, true, _ => drawCounter (s.refSlot r) (keyResult u r 9 none false) (fun v => seq [drawn cl v, give])
  | _, _, _ => give

/-- KEY_LOAD: KEY serves the oldest load that need not wait; a draw at the ceiling starts its write. -/
def execKeyLoad := run (inDomain 16 (ask fun s => seq [
  forEach s.key.loads (fun l => ask fun s => when (s.flag KEY.KEY_STATUS_READY && s.drawsFor l.1 &&
    s.drawWaits (s.refSlot l.2)) (startCeiling (s.refSlot l.2))),
  match s.key.loads.find? (fun l => !s.loadWaits l.1 l.2) with
  | some l => seq [setKey fun q => { q with loads := q.loads.erase l }, serveLoad l.1 l.2]
  | none => nothing]))

/-- A load queued at KEY. -/
def queueLoad (u : KeyUser) (r : Word) : Effect := setKey fun q => { q with loads := q.loads ++ [(u, r)] }

/-- A key load made within one operation of another engine, its derivation included: the refusal or the key. -/
def loadNow (r : Word) (refused : Nat → Effect) (ok : KeyMat → Effect) : Effect := ask fun s =>
  match s.findKey r with
  | .refused st => seq [refusalCount st, refused st]
  | .key m => seq [touchCache (refNode r), withEui r m ok]
  | .miss i g => seq [dropBad i g, withNode i fun n =>
      if n.state = 0 then refused 8
      else
        let d := s.derivation i g []
        let key := d.derive n.eui
        seq [count (KEY.CNT_HI 0), cacheInsert d key, ok ⟨key, d.bound, (s.kslot g).gen, some n.eui⟩]]

/-! ### Key operations (R366-R375) -/

/-- The operands. -/
def State.opParent (s : State) : Nat := s.fld KEY.OP_PARENT_SLOT
def State.opAddr (s : State) : Nat := s.fld KEY.OP_ADDR_LO_ADDR + 2 ^ 32 * s.fld KEY.OP_ADDR_HI_ADDR
def State.opCtx (s : State) (k : Nat) : List Nat := (List.range k).flatMap (fun i => beBytes (s.regN (KEY.OP_CTX i)) 4)
def State.opAttr (s : State) : Nat := bits (s.regN KEY.OP_ATTR) 3 0
def State.opBig (s : State) : Bool := s.flag KEY.OP_ATTR_SIZE
def State.opSize (s : State) : Nat := if s.opBig then 32 else 16
def State.opKcv (s : State) : List Nat := beBytes (s.regN KEY.OP_KCV_HI) 4 ++ beBytes (s.regN KEY.OP_KCV_LO) 4

/-- A key operation has run; KEY_OP_END ends it. -/
def keyOpRan (op k result : Nat) (kcv : Option (List Nat)) : Effect := setKey fun q => { q with op := some ⟨op, k, result, kcv⟩ }

/-- Begins a key operation: ignored while one runs, refused without a root (R359, R366). -/
def keyOp (op k : Nat) (body : Effect) : Effect := ask fun s => when (!s.flag KEY.KEY_OP_BUSY) (seq [
  setFld KEY.KEY_OP_SLOT k, setFld KEY.KEY_OP_BUSY 1,
  if s.lifeCycle = 1 || s.lifeCycle = 6 || (s.lifeCycle = 2 && !s.nv.rootSet) then keyOpRan op k 10 none else body])

/-- Whether new attributes change one that Table 10.2 fixes. -/
def attrForbidden (old : KeySlot) (attr : Nat) : Bool :=
  old.level ≠ 0 && (bit attr 2 ≠ old.transport || bit attr 3 ≠ old.group || (old.noexport && !bit attr 0) ||
    (!old.nodexport && bit attr 1))

/-- Writes a slot's record to the copy that is not live and reads it back (R367 step 3). -/
def writeRecord (k : Nat) (x : KeySlot) (bad ok : Effect) : Effect := ask fun s =>
  let c := 1 - (s.kslot k).live
  let rec_ := (s.slotRecord k c x).map (· % 256)
  seq [mramWrite (slotCopyAddr k c) rec_, ask fun s => if s.bytes (slotCopyAddr k c) rec_.length = rec_ then ok else bad]

/-- Verify-then-commit of new material into slot `k` (R352, R353, R367). -/
def commitKey (op k level origin parent pepoch attr : Nat) (internal : Bool) (material : List Nat) : Effect := ask fun s =>
  let old := s.kslot k
  let kcv := kcvOf material
  if bit attr 3 && level = 3 then keyOpRan op k 1 none
  else if attrForbidden old attr then keyOpRan op k 2 none
  else if s.flag KEY.OP_ATTR_VERIFY && kcv ≠ s.opKcv then keyOpRan op k 3 none
  else if old.epoch = 0xFFFFFFFF then keyOpRan op k 9 none
  else
    let x : KeySlot := { epoch := old.epoch + 1, level := level, origin := origin, big := material.length = 32
                         attr := attr + b2n internal * 16, parent := parent, pepoch := pepoch, material := material
                         live := 1 - old.live }
    writeRecord k x (keyOpRan op k 3 none) (seq [
      setSlot k x, setLive k 0,
      setCry fun c => { c with warned := c.warned.filter (· ≠ k), exhausted := c.exhausted.filter (· ≠ k) },
      keyOpRan op k 0 (some kcv)])

/-- KEY_GENERATE. -/
def keyGenerate (k : Nat) : Effect := keyOp 1 k (ask fun s =>
  if !s.flag KEY.KEY_STATUS_RNG_OK then keyOpRan 1 k 6 none
  else withFreeBytes s.opSize fun l => commitKey 1 k 1 1 0xFFFF 0 s.opAttr true l)
def execKeyGenerate (k : Fin 4096) := run (inDomain 16 (keyGenerate k))

/-- The material written to KEY_DATA, which no master can read. -/
def State.keyData (s : State) : List Nat :=
  ((List.range 8).flatMap (fun i => beBytes (getD s.key.data i 0#32).toNat 4)).take s.opSize

/-- KEY_IMPORT, by master `m`: the management core alone, and not in FIELD (R359). -/
def keyImport (m k : Nat) : Effect := keyOp 2 k (ask fun s =>
  if m ≠ 64 || s.lifeCycle = 4 then keyOpRan 2 k 4 none
  else commitKey 2 k 1 2 0xFFFF 0 s.opAttr false s.keyData)
def execKeyImport (m : Fin 67) (k : Fin 4096) := run (inDomain 16 (keyImport m k))

/-- Whether a slot serves as a wrapping key: RESULT 1 where it is EMPTY or orphaned, or `wrong` where it is none. -/
def State.transportCheck (s : State) (t wrong : Nat) : Nat :=
  if 4096 ≤ t then wrong else if (s.kslot t).level = 0 || s.orphaned t then 1 else if (s.kslot t).transport then 0 else wrong

/-- KEY_UNWRAP. -/
def keyUnwrapOp (k : Nat) : Effect := keyOp 3 k (ask fun s =>
  let t := s.transportCheck s.opParent 1
  if t ≠ 0 then keyOpRan 3 k t none
  else engineRead s.opAddr (s.opSize + 8) (keyOpRan 3 k 7 none) (fun blob =>
    let r := keyUnwrap (s.kslot s.opParent).material blob
    if r.2 then commitKey 3 k 1 3 0xFFFF 0 s.opAttr false r.1 else keyOpRan 3 k 5 none))
def execKeyUnwrap (k : Fin 4096) := run (inDomain 16 (keyUnwrapOp k))

/-- KEY_DERIVE. -/
def keyDerive (k : Nat) : Effect := keyOp 4 k (ask fun s =>
  let p := s.opParent
  let x := s.kslot p
  if p = 0xFFFF then commitKey 4 k 1 4 0xFFFF 0 s.opAttr true (kdf s.nv.root "ELT-SLOT" (s.opCtx 4) (8 * s.opSize))
  else if 4096 ≤ p || x.level = 0 || s.orphaned p || x.level = 3 || x.transport then keyOpRan 4 k 1 none
  else commitKey 4 k (x.level + 1) 4 p x.epoch (s.opAttr ||| b2n x.noexport) x.internal
    (kdf x.material "ELT-SLOT" (s.opCtx 4) (8 * s.opSize)))
def execKeyDerive (k : Fin 4096) := run (inDomain 16 (keyDerive k))

/-- Whether a key load's outcome is bound to slot `k`. -/
def boundTo (k : Nat) (key : Option (Nat × Option KeyMat)) : Bool := match key with
  | some (_, some m) => m.slots.any (fun e => e.1 = k)
  | _ => false

/-- The revocation of slot `k` reaches every job bound to it, those whose derivation runs included (R370, R371). -/
def revoke (k : Nat) : Effect := ask fun s =>
  let due := s.key.derivations.filter (fun d => d.bound.any (fun e => e.1 = k))
  let waits := fun (u : KeyUser) => due.any (fun d => d.users.any (fun e => e.1 = u))
  let hitD := fun (b : Nat) (d : Decision) => boundTo k d.key || (d.key = none && waits (.decision b))
  let hitW := fun (cl : Nat) (j : CryJob) => j.dead = none && (boundTo k j.key || (j.key = none && waits (.whole cl)))
  let n := (s.fwd.decisions.filter (fun e => hitD e.1 e.2)).length
    + (s.cry.ctxs.filter (fun e => e.2.dead = none && hitD e.2.d.buf e.2.decision)).length
    + (s.cry.whole.filter (fun e => hitW e.1 e.2)).length
  seq [
    fun s => [.fwd { s.fwd with decisions := s.fwd.decisions.map (fun e =>
      if hitD e.1 e.2 then (e.1, { e.2 with key := some (6, none) }) else e) }],
    setCry fun c => { c with
      ctxs := c.ctxs.map (fun e => if e.2.dead = none ∧ hitD e.2.d.buf e.2.decision = true then (e.1, { e.2 with dead := some 6 }) else e)
      whole := c.whole.map (fun e => if hitW e.1 e.2 then (e.1, { e.2 with dead := some 6 }) else e) },
    setKey fun q => { q with derivations := q.derivations.map (fun d =>
      if d.bound.any (fun e => e.1 = k) then { d with users := d.users.filter (fun u => match u.1 with
        | .kfetch _ => true
        | _ => false) } else d) },
    countBy (KEY.CNT_HI 1) n]

/-- Step 1 and 2 of R370: the slot becomes EMPTY and its revocation goes out. -/
def emptySlot (k : Nat) : Effect := ask fun s =>
  let old := s.kslot k
  seq [setSlot k { epoch := min (old.epoch + 1) 0xFFFFFFFF, live := old.live }, revoke k]

/-- KEY_ERASE: at the command, the slot and its revocation; its MRAM record at the end (R370). -/
def keyErase (k : Nat) : Effect := keyOp 5 k (seq [emptySlot k, keyOpRan 5 k 0 none])
def execKeyErase (k : Fin 4096) := run (inDomain 16 (keyErase k))

/-- KEY_EXPORT. -/
def keyExport (k : Nat) : Effect := keyOp 6 k (ask fun s =>
  let x := s.kslot k
  let t := s.transportCheck s.opParent 8
  if x.level = 0 || s.orphaned k then keyOpRan 6 k 1 none
  else if t ≠ 0 then keyOpRan 6 k t none
  else if x.noexport || x.transport then keyOpRan 6 k 8 none
  else engineWrite s.opAddr (keyWrap (s.kslot s.opParent).material x.material) (keyOpRan 6 k 7 none) (keyOpRan 6 k 0 none))
def execKeyExport (k : Fin 4096) := run (inDomain 16 (keyExport k))

/-- KEY_EXPORT_NODE: no managed node is needed (R373). -/
def keyExportNode (k : Nat) : Effect := keyOp 7 k (ask fun s =>
  let x := s.kslot k
  let t := s.transportCheck s.opParent 8
  if x.level = 0 || s.orphaned k then keyOpRan 7 k 1 none
  else if t ≠ 0 then keyOpRan 7 k t none
  else if !x.group || !x.nodexport then keyOpRan 7 k 8 none
  else
    let key := kdf x.material "ELT-NODE" (s.opCtx 2) (8 * x.material.length)
    engineWrite s.opAddr (keyWrap (s.kslot s.opParent).material key) (keyOpRan 7 k 7 none) (keyOpRan 7 k 0 (some (kcvOf key))))
def execKeyExportNode (k : Fin 4096) := run (inDomain 16 (keyExportNode k))

/-- The attestation key (R374). -/
def State.attestKey (s : State) : Nat := ofBe (kdf s.nv.root "ELT-ATST" (List.replicate 8 0) 384) % (p256N - 1) + 1

/-- Bytes 0x00 to 0x5F of the attestation statement of slot `k` (Table 10.8). -/
def State.statement (s : State) (k : Nat) : List Nat :=
  let x := s.kslot k
  let up := (s.lineage 3 k).drop 1
  let entry := fun (i : Nat) => match up[i]? with
    | some j => beBytes j 2 ++ [(s.kslot j).los, (s.kslot j).attr] ++ beBytes (s.kslot j).epoch 4
    | none => [0xFF, 0xFF, 0, 0, 0, 0, 0, 0]
  let held := (s.lineage 3 k).all (fun j => (s.kslot j).noexport)
  beBytes 0x4B415453 4 ++ [0, 1, s.lifeCycle, 0] ++ beBytes s.nv.eui 8 ++ s.opCtx 4 ++ beBytes (s.ns % 2 ^ 64) 8 ++ beBytes k 2
    ++ [x.los, x.attr] ++ beBytes x.epoch 4 ++ kcvOf x.material ++ entry 0 ++ entry 1 ++ entry 2
    ++ beBytes (b2n x.internal + b2n held * 2 + b2n (s.orphaned k) * 4) 4 ++ List.replicate 12 0

/-- KEY_ATTEST (R375). -/
def keyAttest (k : Nat) : Effect := keyOp 8 k (ask fun s =>
  if (s.kslot k).level = 0 then keyOpRan 8 k 1 none
  else if !s.flag KEY.KEY_STATUS_RNG_OK then keyOpRan 8 k 6 none
  else withFreeBytes 32 fun l =>
    let m := s.statement k
    engineWrite s.opAddr (m ++ ecdsaSign s.attestKey (ofBe l % (p256N - 1) + 1) (sha256 m))
      (keyOpRan 8 k 7 none) (keyOpRan 8 k 0 none))
def execKeyAttest (k : Fin 4096) := run (inDomain 16 (keyAttest k))

/-- KEY_OP_END (R366, R367, R370). -/
def keyOpEnd : Effect := ask fun s => match s.key.op with
  | none => nothing
  | some o =>
    let fin := fun (result : Nat) => ask fun s => seq [
      setKey fun q => { q with op := none, data := [] },
      setFld KEY.KEY_OP_RESULT result, setFld KEY.KEY_OP_BUSY 0,
      match o.kcv with
      | some v => seq [setReg KEY.OUT_KCV_HI (ofBe (v.take 4)), setReg KEY.OUT_KCV_LO (ofBe (v.drop 4))]
      | none => nothing,
      if result = 0 then seq [count (KEY.CNT_HI 2),
        when (decide (o.op ≤ 5)) (fire 74 (o.slot + o.op * 2 ^ 12 + (s.kslot o.slot).gen * 2 ^ 16))]
      else seq [count (KEY.CNT_LO 2), fire 75 (result + o.op * 2 ^ 4 + o.slot * 2 ^ 8)]]
    if o.op = 5 && o.result = 0 then
      let x := s.kslot o.slot
      writeRecord o.slot x (fin 3) (seq [setSlot o.slot { x with live := 1 - x.live }, fin 0])
    else fin o.result
def execKeyOpEnd := run (inDomain 16 keyOpEnd)

/-- A write of KEY_OP by master `m` (Table 10.12). -/
def keyOpWrite (m v : Nat) : Effect := ask fun s =>
  let k := bits v 11 0
  match bits v 23 20 with
  | 1 => keyGenerate k | 2 => keyImport m k | 3 => keyUnwrapOp k | 4 => keyDerive k | 5 => keyErase k | 6 => keyExport k
  | 7 => keyExportNode k | 8 => keyAttest k | 0 => setFld KEY.KEY_OP_SLOT k
  | _ => when (!s.flag KEY.KEY_OP_BUSY) (setFld KEY.KEY_OP_SLOT k)

/-- A write of KEY_DATA: the management core's alone (R372). -/
def keyDataWrite (m i : Nat) (v : Word) : Effect :=
  when (m = 64) (setKey fun q => { q with data := putD q.data i v 0#32 })

/-! ### The root, the node map and errors -/

/-- ROOT_GEN (R358); `good` says whether the fuses read back as programmed. -/
def rootGen (good : Bool) : Effect := ask fun s =>
  when (s.lifeCycle = 2 && !s.nv.rootSet) (
    if !s.flag KEY.KEY_STATUS_RNG_OK then seq [setFld KEY.KEY_OP_RESULT 6, fire 75 6]
    else withFreeBytes 32 fun l =>
      if good then fun s => [.nv { s.nv with root := l, rootSet := true }]
      else withFreeBytes 32 fun l => seq [fun s => [.nv { s.nv with root := l }], setFld KEY.KEY_OP_RESULT 3, fire 75 3])
def execRootGen (good : Bool) := run (inDomain 16 (rootGen good))

/-- NMAP_WRITE by master `m`: VALID and the group slot of the node it has selected (R361, R371). -/
def nmapWrite (m v : Nat) : Effect := ask fun s =>
  let i := s.fld (KEY.NMAP_SEL_NIDX.of m)
  let g := bits v 11 0
  if bit v 15 && !(s.kslot g).group then setFld KEY.KEY_STATUS_NMAPREJ 1
  else seq [putMem (nmapAddr i) 2 (g + b2n (bit v 15) * 2 ^ 15), markMap i,
    setKey fun q => { q.dropCache i with derivations := q.derivations.map (fun d =>
      if d.nidx = i then { d with uncached := true } else d) }]
def execNmapWrite (m : Fin 67) (v : Word) := run (inDomain 16 (nmapWrite m v.toNat))

/-- RNG_FAIL (R360). -/
def execRngFail := run (inDomain 16 (seq [setFld KEY.KEY_STATUS_RNG_OK 0, fire 77 0]))

/-- KEY_PARITY_ERROR (R376): 0 the working-store entry of slot `x`, 1 the cache entry, 2 the map entry of node `x`. -/
def keyParity (kind x : Nat) : Effect := match kind with
  | 0 => let k := x % 4096
    seq [loadSlot k nothing, keyIntegrity k 1]
  | 1 => ask fun s => when (s.key.cache.any (fun e => e.nidx = x)) (seq [setKey fun q => q.dropCache x, keyIntegrity x 2])
  | _ => seq [putMem (nmapAddr x) 2 0, keyIntegrity x 3]
def execKeyParityError (kind : Fin 3) (x : Fin 131072) := run (inDomain 16 (keyParity kind x))

/-- KEY_ENABLE and KEY_DISABLE (R377). -/
def execKeyEnable := run (inDomain 16 (setFld KEY.KEY_CTL_EN 1))
def execKeyDisable := run (inDomain 16 (setFld KEY.KEY_CTL_EN 0))

/-- KEY_STATUS.DRAINED. -/
def State.keyDrained (s : State) : Bool :=
  !s.flag KEY.KEY_CTL_EN && s.key.derivations.isEmpty && s.key.loads.isEmpty && s.key.op = none

/-- A write of KEY_EXP in an unlocked window (Table 10.19). -/
def keyExpWrite (v : Nat) : Effect := seq [
  when (bit v 2) (setKey fun q => { q with parInject := true }),
  when (bit v 1) (setKey fun q => { q with cache := [] }),
  setFlag KEY.KEY_EXP_CACHE_DIS (bit v 0)]

end Sys2Proof.Machine
end

