-- ==== Sys2Proof/Machine/Phy.lean ====
section
/-!
DEFINITION. The air interface as numbers: ports and band plans (R136, R175, R176), modes and their times (R177, R181,
R185, R187, R638), the regulatory profile's fields (R163), decibels and milliwatts (R213).
-/
namespace Sys2Proof.Machine

open Sys2Proof

/-! ### Ports and channels -/

/-- The window-centre range of a port, in kHz, and its default (Table 04.1, R167). -/
def centreRange (p : Nat) : Nat × Nat :=
  match p with
  | 0 => (412000, 523000)
  | 1 => (876000, 947000)
  | _ => (2442000, 2442000)
def centreDefault (p : Nat) : Nat := if p = 0 then 434000 else if p = 1 then 876000 else 2442000

/-- D_cal of a port, in ns (Table 04.1). -/
def dCal (p : Nat) : Nat := if p = 0 then 740000 else if p = 1 then 560000 else 500000

/-- The PA's output range at the ball, in half dB (Table 04.1). -/
def paMin : Int := -40
def paMax (p : Nat) : Int := if p = 2 then 28 else 40

/-- The channel indices that lie within the port's window (Table 05.1, R176). -/
def validChan (p n : Nat) : Bool :=
  if p = 0 then decide (36 ≤ n ∧ n ≤ 92) else if p = 1 then decide (4 ≤ n ∧ n ≤ 124) else decide (23 ≤ n ∧ n ≤ 105)

/-- The port a mode may be used on (Table 05.2). -/
def modeOk (p mode : Nat) : Bool :=
  match mode with
  | 0 => p = 2
  | 1 => p ≤ 1
  | 2 => p = 1
  | 3 => p ≤ 1
  | 4 => p ≤ 1
  | 5 => false
  | 6 => false
  | 7 => false
  | _ => p ≤ 2

/-- The longest PSDU of a mode. -/
def maxPsdu (mode : Nat) : Nat := if mode < 8 then 127 else 255

/-- PORT, CHAN and MODE in range (R177). -/
def radioOk (p chan mode : Nat) : Bool := decide (p < 3) && validChan p chan && modeOk p mode

/-- The lanes of a port: the first and one past the last (R192). -/
def portLanes (p : Nat) : Nat × Nat := if p = 2 then (0, 48) else if p = 1 then (48, 80) else (80, 96)

/-- The port of a lane. -/
def lanePort (n : Nat) : Nat := if n < 48 then 2 else if n < 80 then 1 else 0

/-- The number of streams of a port (R189). -/
def portStreams (p : Nat) : Nat := if p = 0 then 16 else 32

/-! ### Times, in ns -/

/-- T_byte of modes 0-4. -/
def tByte (mode : Nat) : Nat :=
  match mode with
  | 0 => 32000
  | 1 => 80000
  | 2 => 32000
  | 3 => 400000
  | _ => 200000

/-- T_sym of an LR mode from its LR_PROF register (R178, R181). -/
def State.tSym (s : State) (mode : Nat) : Nat :=
  let k := mode - 8
  2 ^ (4 + s.fld (BB.LR_PROF_SF k)) * (10000 / 2 ^ s.fld (BB.LR_PROF_CR k))

/-- Whether an LR mode's modulation is QPSK. -/
def State.qpsk (s : State) (mode : Nat) : Bool := s.flag (BB.LR_PROF_QPSK (mode - 8))

/-- N_info of an LR frame (R185). -/
def nInfo (len : Nat) : Nat := 8 * (2 + len) + 6

/-- T_sfd: from the first preamble chip to the SFD instant (R187). -/
def State.tSfd (s : State) (mode : Nat) : Nat := if mode < 8 then 5 * tByte mode else 272 * s.tSym mode

/-- The time from the SFD instant to the end of the last PSDU byte (Table 05.25). -/
def State.bodyTime (s : State) (mode len : Nat) : Nat :=
  if mode < 8 then (len + 1) * tByte mode
  else (if s.qpsk mode then nInfo len else 2 * nInfo len) * s.tSym mode

/-- Airtime of a frame (R187). -/
def State.airtime (s : State) (mode len : Nat) : Nat := s.tSfd mode + s.bodyTime mode len

/-- D_dec: the decode latency (Table 05.2). -/
def State.dDec (s : State) (mode : Nat) : Nat :=
  match mode with
  | 0 => 4000
  | 1 => 10000
  | 2 => 4000
  | 3 => 30000
  | 4 => 15000
  | _ => s.tSym mode + 8000

/-- The unit SFD_TIMEOUT counts in (R195): a symbol, an octet, or a repetition of P. -/
def State.searchUnit (s : State) (mode : Nat) : Nat :=
  if mode < 3 then tByte mode / 2 else if mode < 8 then tByte mode else 32 * s.tSym mode

/-! ### Regulatory profiles (R163) -/

/-- Byte `o` of the profile record in slot `k`. -/
def profAddr (k : Nat) : Nat := 0x9000 + k * 0x200
def State.prof (s : State) (k o n : Nat) : Nat := s.mem' (profAddr k + o) n

/-- CENTRE of a port, and the CHMASK bit of a channel. -/
def State.profCentre (s : State) (k p : Nat) : Nat := s.prof k (0x14 + 4 * p) 4
def State.profChan (s : State) (k p n : Nat) : Bool := bit (s.prof k (0x20 + 16 * p) 16) n

/-- The VALID sub-band entry (0-17) that a port's channel lies in. -/
def State.subOf (s : State) (k p n : Nat) : Option Nat :=
  ((List.range 6).map (fun j => 6 * p + j)).find? (fun e =>
    let o := 0x50 + 16 * e
    bit (s.prof k (o + 3) 1) 0 && decide (s.prof k o 1 ≤ n ∧ n ≤ s.prof k (o + 1) 1))

/-- A field of sub-band entry `e`: offset and size of Table 04.6. -/
def State.sub (s : State) (k e o n : Nat) : Nat := s.prof k (0x50 + 16 * e + o) n

/-- The active profile's slot, if one is active. -/
def State.activeSlot (s : State) : Option Nat :=
  if s.flag FE.PROF_STATE_NONE then none else some (s.fld FE.PROF_STATE_ACTIVE)

/-- The profile that will be in force at instant `t`: an armed switch's from its instant on (R170). -/
def State.profileAt (s : State) (t : Instant) : Option Nat :=
  match s.fe.armed with
  | some (k, at_) => if 0 ≤ tdiff t at_ then some k else s.activeSlot
  | none => s.activeSlot

/-! ### Decibels (R213) -/

/-- The milliwatts of `p` half dBm in units of 10^-20 mW, rounded down: 10^(p/20) as the 20th root of 10^p. -/
def halfDbPow (p : Int) : Nat :=
  -- the greatest v with v^20 ≤ 10^(p + 400)
  let t := 10 ^ (p + 400).toNat
  (List.range 96).foldl (fun v i => if (v + 2 ^ (95 - i)) ^ 20 ≤ t then v + 2 ^ (95 - i) else v) 0

/-- The largest power in half dBm, from `lo` up over `n` steps, whose milliwatts do not exceed `room` (10^-20 mW). -/
def floorHalfDb (room : Nat) (lo : Int) (n : Nat) : Option Int :=
  ((List.range n).map (fun i => lo + (n - 1 - i : Nat))).find? (fun p => decide (halfDbPow p ≤ room))

end Sys2Proof.Machine
end

