-- ==== Sys2Proof/Machine/Trust.lean ====
section
/-!
DEFINITION. Signatures under the trust key table (R489, R490), the factory and user pages (R484, R485, R14-R16), the
regulatory state record (R486) and the validity of a region profile (R164).
-/
namespace Sys2Proof.Machine

open Sys2Proof

/-! ### Trust keys -/

/-- SHA-256 of the trust key table. -/
def State.tableHash (s : State) : Nat := ofBe (sha256 (s.bytes 0x10000 1280))

/-- Whether the hash test of R490 passes: TKT_HASH matches, or it is unprogrammed in FACTORY. -/
def State.tableTrusted (s : State) : Bool :=
  (s.lifeCycle = 2 && s.nv.tktHash = 0) || s.tableHash = s.nv.tktHash

/-- USAGE of trust key `k`. -/
def State.keyUsage (s : State) (k : Nat) : Nat := s.mem' (0x10000 + 0x50 * k + 64) 4

/-- Whether signature `sig` (r then s) over `msg` verifies with trust key `k` for a usage bit (R490). -/
def State.signatureOk (s : State) (k usage : Nat) (msg sig : List Nat) : Bool :=
  decide (k < 16) && bit (s.keyUsage k) usage && !bit s.nv.keyRev k && s.tableTrusted &&
    ecdsaVerify (ofBe (s.bytes (0x10000 + 0x50 * k) 32)) (ofBe (s.bytes (0x10000 + 0x50 * k + 32) 32)) (sha256 msg) sig

/-! ### Calibration pages (R14-R18, R484, R485) -/

/-- Whether the factory page is valid. -/
def State.factoryOk (s : State) : Bool :=
  s.mem' 0x1000 4 = 0x50464331 && s.mem' 0x1004 2 = 1 && s.mem' 0x1008 4 = crc32 (s.bytes 0x1010 0x1F0)

/-- The factory value of calibrated field `i` of port `p`, signed: 0 where the page is not valid. -/
def State.factoryCal (s : State) (p i : Nat) : Int :=
  if s.factoryOk then signed 8 (s.byte (0x1010 + 8 * p + i)) else 0

/-- The user offset of calibrated field `i` of port `p`. -/
def State.userCal (s : State) (p i : Nat) : Int :=
  if s.mem' 0x5000 4 = 0x55464331 then signed 16 (s.mem' (0x5010 + 16 * p + 2 * i) 2) else 0

/-- TRIM's factory value and user offset. -/
def State.factoryTrim (s : State) : Int := if s.factoryOk then signed 11 (s.mem' 0x1028 2) else 0
def State.userTrim (s : State) : Int :=
  if s.mem' 0x5000 4 = 0x55464331 then signed 16 (s.mem' 0x5040 2) else 0

/-- FORMAT of the user page: a page whose MAGIC does not match is FORMAT 0. -/
def State.userFormat (s : State) : Nat := if s.mem' 0x5000 4 = 0x55464331 then s.mem' 0x5004 2 else 0

/-! ### Regulatory state record (R486) -/

/-- SEQ of the regulatory state copy at `a`, if its CRC is good. -/
def State.regCopy (s : State) (a : Nat) : Option Nat :=
  if crc32 (s.bytes a 4) = s.mem' (a + 4) 4 then some (s.mem' (a + 2) 2) else none

/-- The address of the live copy, and its ACTIVE slot (0xFF for none) and slot locks. -/
def State.regLive (s : State) : Option Nat := s.liveCopy 0xA000 0xA010 s.regCopy
def State.regActive (s : State) : Nat := match s.regLive with
  | some a => s.byte a
  | none => 0xFF
def State.regLocks (s : State) : Nat := match s.regLive with
  | some a => s.byte (a + 1)
  | none => 0

/-- Writes the regulatory state to the copy that is not live. -/
def writeRegState (active locks : Nat) : Effect := ask fun s =>
  let a := match s.regLive with
    | some 0xA000 => 0xA010
    | _ => 0xA000
  let seqNo := match s.regLive with
    | some x => (s.mem' (x + 2) 2 + 1) % 2 ^ 16
    | none => 1
  let w := leBytes (active + locks * 2 ^ 8 + seqNo * 2 ^ 16) 4
  putBytes a (w ++ leBytes (crc32 w) 4)

/-! ### Validity of a region profile (R164) -/

/-- The sub-band entries of a port whose VALID bit is 1, and one entry's own rules (Table 04.6). -/
def entryZero (r : List Nat) (e : Nat) : Bool := zeros r (0x50 + 16 * e) (0x60 + 16 * e)
def entryValid (r : List Nat) (e : Nat) : Bool := bit (byteAt r (0x53 + 16 * e)) 0
def entryCovers (r : List Nat) (e n : Nat) : Bool :=
  decide (byteAt r (0x50 + 16 * e) ≤ n ∧ n ≤ byteAt r (0x51 + 16 * e))

/-- Rule 1: MAGIC, FORMAT, and every field marked 0. -/
def profFormat (r : List Nat) : Bool :=
  fieldLe r 0 4 = 0x46504752 && fieldLe r 4 2 = 1 && fieldLe r 0x10 4 < 8 && zeros r 0x174 0x1C0 &&
    (List.range 18).all (fun e => byteAt r (0x5D + 16 * e) = 0 && byteAt r (0x53 + 16 * e) < 4 &&
      (entryValid r e || entryZero r e))

/-- Rules 2 to 5 and 7, and the ranges of Table 04.6. -/
def profRange (r : List Nat) : Bool :=
  (List.range 3).all (fun p =>
    let c := fieldLe r (0x14 + 4 * p) 4
    let mask := fieldLe r (0x20 + 16 * p) 16
    let es := (List.range 6).map (fun j => 6 * p + j)
    decide ((centreRange p).1 ≤ c ∧ c ≤ (centreRange p).2) &&
    (bit (fieldLe r 0x10 4) p || mask = 0) &&
    (List.range 128).all (fun n =>
      if bit mask n then validChan p n && ((es.filter (fun e => entryValid r e && entryCovers r e n)).length = 1)
      else es.all (fun e => !(entryValid r e && entryCovers r e n))) &&
    es.all (fun e => !entryValid r e || (
      decide (byteAt r (0x50 + 16 * e) ≤ byteAt r (0x51 + 16 * e) ∧ byteAt r (0x51 + 16 * e) < 128) &&
      decide (fieldLe r (0x54 + 16 * e) 2 ≤ 10000 ∧ 1 ≤ fieldLe r (0x56 + 16 * e) 2) &&
      (!bit (byteAt r (0x53 + 16 * e)) 1 || decide (fieldLe r (0x5E + 16 * e) 2 ≤ 2530)))))

/-- The RESULT of checking a profile record against R164: 0 OK, 1 FORMAT, 2 RANGE, 3 SIGNATURE. The spec gives the rules
and the codes, not which rule gives which code or in what order (assumption 13). -/
def State.profileCheck (s : State) (r : List Nat) : Nat :=
  if !profFormat r then 1 else if !profRange r then 2
  else if !s.signatureOk (fieldLe r 0x170 4) 1 (slice r 0 0x1C0) (slice r 0x1C0 0x200) then 3 else 0

/-- Whether slot `k` holds a valid record, read from MRAM. -/
def State.slotCheck (s : State) (k : Nat) : Nat :=
  if (wordsOf (profAddr k) 512).any (fun w => getD s.nv.bad w 0 = 2) then 1 else s.profileCheck (s.bytes (profAddr k) 512)

end Sys2Proof.Machine
end

