-- ==== Sys2Proof/Machine/Stage.lean ====
section
/-!
DEFINITION. Staging a transmission on a voice (R125, R140, R146, R147, R168, R170, R210, R249), ending one (R214), and
committing a listen window (R127, R201).
-/
namespace Sys2Proof.Machine

open Sys2Proof

/-! ### Port state -/

/-- The working state of port `p`. -/
def State.port (s : State) (p : Nat) : FePort := getD s.fe.ports p {}

/-- Changes port `p`. -/
def setPort (p : Nat) (f : FePort → FePort) : Effect :=
  fun s => [.fe { s.fe with ports := putD s.fe.ports p (f (s.port p)) {} }]

/-- The power domain of port `p`. -/
def portDomain (p : Nat) : Nat := 13 + p

/-- LTB when instant `t` will come or came. -/
def State.ltbOf (s : State) (t : Instant) : Int := s.acc.ltb + tdiff t s.now

/-- Whether the closed intervals [a, b] and [c, d] of instants overlap. -/
def overlaps (a b c d : Instant) : Bool := decide (0 ≤ tdiff d a) && decide (0 ≤ tdiff b c)

/-- L, the nominal instant of the first preamble chip (R150). -/
def Staged.first (x : Staged) : Instant := tplus x.trig 200

/-- Whether the port counts as locked (R150). -/
def State.portLocked (s : State) (p : Nat) : Bool := s.flag (FE.PORT_STATUS_LOCKED p) && (s.port p).cal = none

/-- The cap a fold-back puts on a port's output, in half dB (R141). -/
def State.foldCap (s : State) (p : Nat) : Option Int :=
  if s.fld (FE.PORT_STATUS_FOLD_CAUSE p) = 0 then none else some (s.fldI (FE.LOAD_CTL_FOLD_PWR p))

/-! ### Checks -/

/-- A transmission to be staged: power in half dB; `trig` is the trigger's instant. -/
structure TxReq where
  port : Nat
  chan : Nat
  mode : Nat
  request : Int
  fcs : Bool
  cca : Bool
  buf : Nat
  len : Nat
  tag : Word
  cring : Nat
  owner : TxOwner
  ident : Nat
  trig : Instant
  deriving DecidableEq, Repr

/-- Whether [L, L + airtime] meets an interval of a port's that no transmission may overlap: a running calibration's
(R146), a forced one's (R147), an armed switch's (R170). -/
def State.reserved (s : State) (p : Nat) (l : Instant) (air : Nat) : Bool :=
  let x := s.port p
  let d := dCal p + 20000
  (decide (s.ltbOf l ≤ x.calSince + d) && decide ((x.calSince : Int) ≤ s.ltbOf l + air)) ||
  (match x.forcedAt with
   | some f => overlaps l (tplus l air) f (tplus f d)
   | none => false) ||
  (match s.fe.armed with
   | some (k, t) => s.profCentre k p ≠ s.fld (FE.TUNE_CENTRE_KHZ p) && overlaps l (tplus l air) t (tplus t d)
   | none => false)

/-- Whether a profile permits a transmission on a port's channel, and the sub-band entry it lies in (R168). -/
def State.permits (s : State) (k : Option Nat) (p chan : Nat) : Option (Nat × Nat) :=
  match k with
  | none => none
  | some k => if bit (s.prof k 0x10 4) p && s.profChan k p chan then (s.subOf k p chan).map (fun e => (k, e)) else none

/-- The power resolution of R140: the power in half dB, or none where it is refused. -/
def State.resolve (s : State) (k e p : Nat) (power : Int) : Option Int :=
  let cap := signed 8 (s.sub k e 2 1) - s.fldI (FE.GAINS_BOARD_GAIN p) - s.fldI (FE.GAINS_ANT_GAIN p)
  if cap < paMin then none else some (max paMin (min power (min (paMax p) cap)))

/-- A clamp counts, and raises EV_FE_PWRCLAMP at the first after each read of COUNT_B (R140, R173). -/
def clampCount (p : Nat) : Effect := seq [count (FE.COUNT_B_PWR_CLAMP p), fireFirst (FE.COUNT_B p) 0 27 p]

/-- The channel assessment of a transmission: threshold in dBm and time in µs, if it makes one (R168, R212). -/
def State.assess (s : State) (k e : Nat) (cca : Bool) : Option (Int × Nat) :=
  if bit (s.sub k e 3 1) 1 then some (signed 8 (s.sub k e 0xC 1), s.sub k e 0xE 2)
  else if cca then some (s.fldI BB.CCA_CFG_THRESH, s.fld BB.CCA_CFG_TIME) else none

/-- Airtime charged in the bins of `width` ns from `back` bins before the bin of `l` up to that bin (R249). -/
def charged (cs : List Charge) (width back l : Nat) : Nat :=
  let b := l / width
  ((cs.filter (fun c => decide (c.at_ / width ≤ b ∧ b ≤ c.at_ / width + back))).map Charge.air).sum

/-- Whether duty, and whether dwell, would be breached by a transmission of `air` ns first chip at `l` (R249). -/
def State.dutyBreach (s : State) (k e l air : Nat) : Bool :=
  let w := s.sub k e 6 2
  decide (s.sub k e 4 2 * w * 100000 <
    charged (s.mac.charges.filter (fun c => c.port = e / 6 && c.sub = e)) (w * 62500000) 16 l + air)
def State.dwellBreach (s : State) (k e p chan l air : Nat) : Bool :=
  let m := s.sub k e 8 2 * 1000000
  let d := s.sub k e 0xA 2
  m ≠ 0 && (if d = 0 then decide (m < air) else
    decide (m < charged (s.mac.charges.filter (fun c => c.port = p && c.chan = chan)) (d * 25000000) 4 l + air))

/-- A duty or dwell refusal (R249). -/
def airtimeRefused (p e : Nat) (dwell : Bool) : Effect :=
  seq [if dwell then count (MAC.CNT_LO 5) else count (MAC.CNT_HI 5),
    fireFirst (MAC.CNT 5) 0 46 (p + e * 2 ^ 2 + b2n dwell * 2 ^ 7)]

/-- The staged transmissions of a port, and of a voice. -/
def State.stagedOn (s : State) (p : Nat) : List Staged := s.bb.staged.filter (fun x => x.port = p)
def State.stagedAt (s : State) (v : Nat) : List Staged := s.bb.staged.filter (fun x => x.voice = v)

/-- A staged transmission's reservation interval (R210). -/
def Staged.from_ (x : Staged) : Instant := tplus x.first (-(x.lead : Int))
def Staged.until_ (x : Staged) : Instant := tplus x.first (x.air + 10000)

/-- The voice a transmission is staged on (R210), passing over voices in a test slice and failed ones (R540, R548). -/
def State.voiceFor (s : State) (p chan : Nat) (a b : Instant) : Option Nat :=
  if (s.stagedOn p).any (fun x => x.chan = chan && overlaps a b x.from_ x.until_) then none
  else s.allot 1 (((List.range 4).map (fun i => 4 * p + i)).filter (fun v => !s.ist.voices.contains v &&
    decide ((s.stagedAt v).length < 4) && !(s.stagedAt v).any (fun x => overlaps a b x.from_ x.until_)))

/-- The lowest place of a voice that holds nothing. -/
def State.freePlace (s : State) (v : Nat) : Nat :=
  (firstBelow 4 (fun j => !(s.stagedAt v).any (fun x => x.place = j))).getD 0

/-! ### Staging -/

/-- Stages a transmission and goes on with its voice and comparator, or with the status code of Table 03.5 that refuses
it. The order in which the causes are looked at is the model's (assumption 15). -/
def stage (r : TxReq) (refused : Nat → Effect) (ok : Nat → Nat → Effect) : Effect := ask fun s =>
  let l := tplus r.trig 200
  let air := s.airtime r.mode r.len
  if !s.flag (FE.PORT_CTL_EN r.port) then refused 0x0C
  else if !s.flag (FE.PORT_STATUS_READY r.port) || s.reserved r.port l air then refused 5
  else match s.permits (s.profileAt l) r.port r.chan with
    | none => refused 8
    | some (k, e) => match s.resolve k e r.port r.request with
      | none => refused 8
      | some p =>
        let lead : Nat := match s.assess k e r.cca with
          | some (_, t) => t * 1000 + 1000
          | none => 0
        seq [when (p ≠ r.request) (clampCount r.port),
          match s.voiceFor r.port r.chan (tplus l (-(lead : Int))) (tplus l (air + 10000)) with
          | none => refused 5
          | some v =>
            if s.dutyBreach k e l.toNat air then seq [airtimeRefused r.port e false, refused 8]
            else if s.dwellBreach k e r.port r.chan l.toNat air then seq [airtimeRefused r.port e true, refused 8]
            else if tdiff r.trig s.now < 2000 then seq [count (ACC.CNT_HI 2), refused 4]
            else
              let j := s.freePlace v
              seq [
                yieldUnit 1 v,
                fun s => [.bb { s.bb with staged := s.bb.staged ++ [{
                  voice := v, place := j, port := r.port, chan := r.chan, mode := r.mode, request := r.request
                  power := p, fcs := r.fcs, cca := r.cca, buf := r.buf, len := r.len, tag := r.tag, cring := r.cring
                  owner := r.owner, ident := r.ident, trig := r.trig, lead := lead, air := air
                  stagedAt := s.now }] }],
                fun s => [.mac { s.mac with charges := s.mac.charges ++ [⟨r.port, e, r.chan, l.toNat, air⟩] }],
                arm (4 * v + j) r.trig,
                ok v (4 * v + j)]]

/-- The bits of a job's targets in state `st`. -/
def AtomJob.mask (j : AtomJob) (st : Nat) : Nat := ((j.targets.filter (fun t => t.st = st)).map (fun t => 2 ^ t.index)).sum

/-- The Atomiser's job `id` ends once none of its targets waits or is staged, or, disabled, once none is staged: its
completion, or its chain returned (R280, R282, R288). -/
def jobCheck (id : Nat) : Effect := ask fun s => match s.fwd.jobs.find? (fun j => j.id = id) with
  | none => nothing
  | some j =>
    let drop := fun s => [Change.fwd { s.fwd with jobs := s.fwd.jobs.filter (fun x => x.id ≠ id) }]
    when ((j.stage = 2 && j.targets.all (fun t => decide (2 ≤ t.st))) || (j.stage = 3 && j.targets.all (fun t => t.st ≠ 1)))
      (match j.owner with
        | 0 => seq [drop, complete 4 0 j.cring (completion 4 (if j.stage = 3 then 0x0C else 0) j.len j.buf 0
            (j.mask 2 + j.mask 3 * 2 ^ 16) j.tag.toNat)]
        | _ => seq [drop, freeChain j.buf])

/-- A target of the Atomiser ends, sent or skipped (R281). -/
def targetEnd (id index : Nat) (sent : Bool) : Effect := seq [
  if sent then count (FWD.COUNT_HI 7) else count (FWD.COUNT_LO 8),
  fun s => [.fwd { s.fwd with jobs := s.fwd.jobs.map (fun j => if j.id = id then { j with
    targets := j.targets.map (fun t => if t.index = index then { t with st := if sent then 2 else 3 } else t) } else j) }],
  jobCheck id]

/-- A beacon that is not sent is skipped (R243). -/
def beaconSkip (p chan : Nat) : Effect := seq [count (MAC.CNT_LO 3), fireFirst (MAC.CNT 3) 0 47 (p + chan * 2 ^ 2)]

/-- Ends a staged transmission with a status of Table 05.9: its comparator is freed, its charge refunded unless SENT, and
its owner told (R214, R243, R249, R281, R405). DETAIL's power and lateness are not stated for one that never launched:
they are free (assumption 2). -/
def endTx (x : Staged) (status : Nat) : Effect := seq [
  fun s => [.bb { s.bb with staged := s.bb.staged.filter (fun y => y.voice ≠ x.voice || y.place ≠ x.place) }],
  disarm (4 * x.voice + x.place),
  when (status ≠ 0) (fun s => [.mac { s.mac with charges := s.mac.charges.eraseP (fun c =>
    c.port = x.port && c.chan = x.chan && c.at_ = x.first.toNat && c.air = x.air) }]),
  when (status = 0) (count (BB.COUNT_HI x.port 6)),
  match x.owner with
  | .program => withFree 24 fun f =>
      let low := if x.phase = .onAir then x.late % 2 ^ 16 + unsigned 8 x.applied * 2 ^ 16 else f
      complete 1 x.voice x.cring (completion 1 status x.len x.buf x.voice
        (low + b2n x.cut * 2 ^ 24 + b2n x.folded * 2 ^ 25) x.tag.toNat)
  | .flood => targetEnd (x.ident / 16) (x.ident % 16) (status = 0)
  | .beacon | .recovery => seq [freeChain x.buf,
      when (status = 0) (if x.owner = .beacon then count (MAC.CNT_HI 3) else count (MAC.CNT_LO 6)),
      when (status = 2 || status = 4 || status = 5) (beaconSkip x.port x.chan)]
  | _ => fun s => [.bb { s.bb with done := s.bb.done ++ [⟨x.owner, x.ident, status, x.port, x.chan, x.mode, x.buf,
      tplus (if x.phase = .onAir then x.launched else x.first) x.air⟩] }]]

/-- Changes the staged transmission at a voice's place. -/
def setStaged (v j : Nat) (f : Staged → Staged) : Effect := fun s =>
  [.bb { s.bb with staged := s.bb.staged.map (fun x => if x.voice = v ∧ x.place = j then f x else x) }]

/-! ### Listen windows (R127, R201, R406) -/

/-- Lane `n`. -/
def State.lane (s : State) (n : Nat) : Lane := getD s.bb.lanes n {}

/-- Changes lane `n`. -/
def setLane (n : Nat) (f : Lane → Lane) : Effect :=
  fun s => [.bb { s.bb with lanes := putD s.bb.lanes n (f (s.lane n)) {} }]

/-- Whether lane `n` is set aside for listen windows (R192). -/
def State.setAside (s : State) (n : Nat) : Bool :=
  let p := lanePort n
  decide ((portLanes p).2 ≤ n + s.fld (BB.PORT_RX_LISTEN_LANES p))

/-- The LISTEN comparator of a set-aside lane (Table 11.5). -/
def listenComp (n : Nat) : Nat := 48 + 8 * lanePort n + ((portLanes (lanePort n)).2 - 1 - n)

/-- Whether a lane's windows leave [a, b] free. -/
def Lane.freeFor (l : Lane) (a b : Instant) : Bool :=
  !l.broken && !l.windows.any (fun w => overlaps a b w.from_ (tplus w.from_ w.dur))

/-- A set-aside lane of a port that is free for [a, b]. Which of several is not said: the first from a free start
(assumption 14). -/
def State.listenLane (s : State) (p : Nat) (a b : Instant) : Option Nat :=
  let (lo, hi) := portLanes p
  let free := (List.range (hi - lo)).map (· + lo) |>.filter (fun n => s.setAside n && (s.lane n).freeFor a b)
  free[s.free 8 % max free.length 1]?

/-- Adds a window to a lane's list, earliest first. -/
def addWindow (ws : List Window) (w : Window) : List Window :=
  ws.filter (fun x => decide (tdiff x.from_ w.from_ ≤ 0)) ++ [w] ++ ws.filter (fun x => decide (0 < tdiff x.from_ w.from_))

/-- Arms a lane's comparator for its first window that has not opened, unless one is open. -/
def armWindow (n : Nat) : Effect := ask fun s =>
  match (s.lane n).windows with
  | [] => disarm (listenComp n)
  | w :: ws => if !w.opened then arm (listenComp n) w.from_ else match ws with
      | w' :: _ => arm (listenComp n) w'.from_
      | [] => disarm (listenComp n)

/-- Commits a window to a set-aside lane. -/
def commitWindow (p chan mode : Nat) (ta : Instant) (dur : Nat) (byListen : Bool) (refused : Effect)
    (ok : Nat → Effect) : Effect := ask fun s =>
  match s.listenLane p ta (tplus ta dur) with
  | none => refused
  | some n => seq [fun _ => [.draw],
      setLane n (fun l => { l with windows := addWindow l.windows ⟨ta, dur, chan, mode, byListen, false, false, 0, 0⟩ }),
      armWindow n, ok n]

/-- LISTEN's commitment, with the status code that refuses it. -/
def listen (p chan mode : Nat) (ta : Instant) (dur : Nat) (refused : Nat → Effect) (ok : Nat → Effect) : Effect :=
  ask fun s =>
    if !s.flag (FE.PORT_CTL_EN p) then refused 0x0C
    else if !s.flag (FE.PORT_STATUS_READY p) then refused 5
    else if tdiff ta s.now < 2000 then seq [count (ACC.CNT_HI 2), refused 4]
    else commitWindow p chan mode ta (dur * 1000) true (refused 5) ok

end Sys2Proof.Machine
end

