-- ==== Sys2Proof/Machine/Lanes.lean ====
section
/-!
DEFINITION. What receive lanes do when a frame ends or is abandoned, when a window ends, and when their port is disabled
(R194, R198-R201, R265).
-/
namespace Sys2Proof.Machine

open Sys2Proof

/-- Whether a stream has a lane in SEARCH, and how many lanes it holds (R193). -/
def State.laneOn (s : State) (p k n : Nat) : Bool := lanePort n = p && (s.lane n).stream = some k
def State.searchers (s : State) (p k : Nat) : List Nat :=
  allBelow 96 (fun n => s.laneOn p k n && (s.lane n).run = .search)
def State.streamLanes (s : State) (p k : Nat) : List Nat := allBelow 96 (s.laneOn p k)

/-- The last lane of a disabled port has gone OFF (R216). -/
def portLanesOff (p : Nat) : Effect := ask fun s =>
  let (lo, hi) := portLanes p
  when (!s.flag (FE.PORT_CTL_EN p) && (List.range (hi - lo)).all (fun i => (s.lane (lo + i)).run = .off)) (fire 37 p)

/-- FWD withdraws the decision on the frame in chain `buf`: its open job leaves the cipher job ring or its context, and
its key load ends (R265, R340). -/
def withdraw (buf : Nat) : Effect := ask fun s =>
  let r := s.fld FWD.RING_SEL1_CRY
  let ring := s.ring r
  let mine := fun (e : RingEntry) => e.d.type = 8 && e.d.buf = buf && !e.d.poison && e.d.len ≠ 0
  when ((find s.fwd.decisions buf).isSome || s.cry.ctxs.any (fun e => e.2.d.buf = buf)) (seq [
    fun s => [.fwd { s.fwd with decisions := eraseKey s.fwd.decisions buf }],
    when (ring.q.any mine) (seq [setRing r { ring with q := ring.q.filter (fun e => !mine e) }, setHolder buf 0x40]),
    fun s => [.cry { s.cry with ctxs := s.cry.ctxs.filter (fun e => e.2.d.buf ≠ buf) }],
    fun s => [.key { s.key with
      loads := s.key.loads.filter (fun e => e.1 ≠ .decision buf)
      derivations := s.key.derivations.map (fun d => { d with users := d.users.filter (fun u => u.1 ≠ .decision buf) }) }]])

/-- A lane gives up its frame: the decision is withdrawn and the chain returns to Flacon. -/
def dropFrame (n : Nat) : Effect := seq [ask fun s =>
  match (s.lane n).frame.bind RxFrame.buf with
  | some b => seq [withdraw b, freeChain b]
  | none => nothing,
  setLane n (fun l => { l with frame := none })]

/-- The completion of a window opened by LISTEN (R201): status, and microseconds past its close. -/
def windowCompletion (n status past : Nat) (w : Window) : Effect := ask fun s =>
  let p := lanePort n
  when w.byListen (complete 3 n (s.fld BB.LISTEN_RING_RING) (completion 3 status 0 0 (n - (portLanes p).1)
    (p + min w.frames 255 * 2 ^ 8 + min (if past = 0 then w.late else past) 65535 * 2 ^ 16) 0))

/-- The open window of a lane ends now; a following window that is due already carries the same overrun. -/
def endWindow (n status : Nat) : Effect := ask fun s =>
  match (s.lane n).windows with
  | [] => nothing
  | w :: ws =>
    let past := ((tdiff s.now (tplus w.from_ w.dur)).toNat) / 1000
    seq [windowCompletion n status past w,
      setLane n (fun l => { l with run := .off, paused := false, windows := match ws with
        | w' :: rest => (if s.reached w'.from_ then { w' with late := past } else w') :: rest
        | [] => [] }),
      armWindow n, portLanesOff (lanePort n)]

/-- A lane leaves SYNC, RECEIVE or DONE (Table 05.5): to SEARCH, FREE or OFF. -/
def leave (n : Nat) : Effect := ask fun s =>
  let l := s.lane n
  let p := lanePort n
  if l.broken then setLane n (fun l => { l with run := .off, stream := none })
  else match l.windows with
  | w :: _ =>
    if w.opened && !w.closed then setLane n (fun l => { l with run := .search, frame := none })
    else if w.opened then seq [setLane n (fun l => { l with frame := none }), endWindow n 0]
    else seq [setLane n (fun l => { l with run := .off, stream := none, frame := none }), portLanesOff p]
  | [] =>
    if s.setAside n || !s.flag (FE.PORT_CTL_EN p) then
      seq [setLane n (fun l => { l with run := .off, stream := none, frame := none }), portLanesOff p]
    else match l.stream with
    | some k =>
      if s.flag (BB.STREAM_EN p k) && (s.searchers p k).isEmpty then
        setLane n (fun l => { l with run := .search, frame := none })
      else setLane n (fun l => { l with run := .free, stream := none, frame := none })
    | none => setLane n (fun l => { l with run := .free, frame := none })

/-- A lane abandons its frame. -/
def abandon (n : Nat) : Effect := seq [dropFrame n, leave n]

/-- The index of a lane's stream in events; a set-aside lane has none. -/
def Lane.streamN (l : Lane) : Nat := l.stream.getD 0

/-- EN = 0 at a port's lanes (R200): searching lanes go OFF, receiving ones finish, windows end ABORTED_DISABLE. -/
def lanesDisable (p : Nat) : Effect :=
  let (lo, hi) := portLanes p
  seq [forEach ((List.range (hi - lo)).map (· + lo)) (fun n => ask fun s =>
    let l := s.lane n
    seq [
      forEach l.windows (fun w => ask fun s =>
        windowCompletion n 0x0C (if w.opened then (tdiff s.now (tplus w.from_ w.dur)).toNat / 1000 else 0) w),
      setLane n (fun l => { l with windows := [] }), disarm (listenComp n),
      match l.run with
      | .sync => seq [dropFrame n, setLane n (fun l => { l with run := .off, stream := none, paused := false })]
      | .receive => nothing
      | .done => nothing
      | _ => setLane n (fun l => { l with run := .off, stream := none, paused := false })]),
    portLanesOff p]

/-- EN = 1 at a port's lanes: those of the capture pool become FREE once PD_DSP is ON (Table 05.5). -/
def lanesEnable (p : Nat) : Effect := ask fun s =>
  let (lo, hi) := portLanes p
  when (s.on 12) (forEach ((List.range (hi - lo)).map (· + lo)) (fun n => ask fun s =>
    when (!s.setAside n && !(s.lane n).broken && (s.lane n).run = .off) (setLane n (fun l => { l with run := .free }))))

/-- Whether a port holds no work (R172, R200): nothing staged, every lane OFF, its synthesiser's calibration ended. -/
def State.portDrained (s : State) (p : Nat) : Bool :=
  let (lo, hi) := portLanes p
  !s.flag (FE.PORT_CTL_EN p) && (s.stagedOn p).isEmpty && (List.range (hi - lo)).all (fun i => (s.lane (lo + i)).run = .off)

/-- A blank begins on a port (R199): searchers pause, frames in SYNC or RECEIVE are abandoned and count BLANKED. -/
def blank (p : Nat) : Effect := ask fun s =>
  let (lo, hi) := portLanes p
  when (!s.bb.blanked.contains p) (seq [
    fun s => [.bb { s.bb with blanked := s.bb.blanked ++ [p] }],
    forEach ((List.range (hi - lo)).map (· + lo)) (fun n => ask fun s =>
      match (s.lane n).run with
      | .search => setLane n (fun l => { l with paused := true })
      | .sync => seq [count (BB.COUNT_HI p 5), abandon n, setLane n (fun l => { l with paused := l.run = .search })]
      | .receive => seq [count (BB.COUNT_HI p 5), abandon n, setLane n (fun l => { l with paused := l.run = .search })]
      | _ => nothing)])

/-- The blank ends: paused searchers resume. -/
def unblank (p : Nat) : Effect :=
  let (lo, hi) := portLanes p
  seq [fun s => [.bb { s.bb with blanked := s.bb.blanked.filter (· ≠ p) }],
    forEach ((List.range (hi - lo)).map (· + lo)) (fun n => ask fun s =>
      when (s.lane n).paused (setLane n (fun l => { l with paused := false })))]

end Sys2Proof.Machine
end

