-- ==== Sys2Proof/Machine/Table.lean ====
section
/-!
DEFINITION. FWD's node table (R256-R261, R271-R275): entries and their parity, hashing, lookups, inserts with relocation,
and removals; and Sillage (R276-R278).
-/
namespace Sys2Proof.Machine

open Sys2Proof

/-! ### Entries (R256, R257) -/

/-- A node-table entry. -/
structure Ent where
  key : Nat := 0
  nidx : Nat := 0
  managed : Bool := false
  kind : Nat := 0
  valid : Bool := false
  hit : Bool := false
  strike : Bool := false
  hold : Bool := false
  gen : Nat := 0
  port : Nat := 0
  lqi : Nat := 0
  stamp : Nat := 0
  deriving DecidableEq, Repr

/-- Where way `w` of bucket `b` lies. -/
def entAddr (b w : Nat) : Nat := 0x10500000 + b % 16 * 0x40000 + b / 16 * 0x40 + w * 0x10

/-- The PAR bits of an entry's words. -/
def entPar (w0 w1 w2 w3 : Nat) : Nat :=
  parity 32 w0 + 2 * parity 32 w1 + 4 * parity 28 (w2 % 2 ^ 28) + 8 * parity 32 w3

/-- The 16 bytes of an entry. -/
def entBytes (e : Ent) : List Nat :=
  let w0 := e.key % 2 ^ 32
  let w1 := e.key / 2 ^ 32 % 2 ^ 32
  let w2 := e.nidx + b2n e.managed * 2 ^ 17 + e.kind * 2 ^ 18 + b2n e.valid * 2 ^ 19 + b2n e.hit * 2 ^ 20
    + b2n e.strike * 2 ^ 21 + b2n e.hold * 2 ^ 22 + e.gen * 2 ^ 24
  let w3 := e.port + e.lqi * 2 ^ 16 + e.stamp * 2 ^ 24
  leBytes w0 4 ++ leBytes w1 4 ++ leBytes (w2 + entPar w0 w1 w2 w3 * 2 ^ 28) 4 ++ leBytes w3 4

/-- The entry in these bytes. -/
def entOf (l : List Nat) : Ent :=
  let w2 := fieldLe l 8 4
  let w3 := fieldLe l 12 4
  { key := fieldLe l 0 8, nidx := bits w2 16 0, managed := bit w2 17, kind := bits w2 18 18, valid := bit w2 19
    hit := bit w2 20, strike := bit w2 21, hold := bit w2 22, gen := bits w2 27 24, port := bits w3 15 0
    lqi := bits w3 23 16, stamp := bits w3 31 24 }

/-- Whether the PAR bits of these bytes are right. -/
def entParOk (l : List Nat) : Bool :=
  entPar (fieldLe l 0 4) (fieldLe l 4 4) (fieldLe l 8 4) (fieldLe l 12 4) = bits (fieldLe l 8 4) 31 28

/-- The entry at a way. -/
def State.ent (s : State) (b w : Nat) : Ent := entOf (s.bytes (entAddr b w) 16)

/-- The limit group of a port code (R261). -/
def portGroup (code : Nat) : Nat := let k := bits code 15 12; if k = 0 then bits code 9 8 else k + 2

/-- Adjusts ENTRIES and GRP_USE for an entry that appears or goes. -/
def useOf (e : Ent) (up : Bool) : Effect := ask fun s => when e.valid (
  let g := FWD.GRP_USE_ENTRIES (portGroup e.port % 8)
  let n := fun x => if up then x + 1 else x - 1
  seq [setFld FWD.STATUS_ENTRIES (n (s.fld FWD.STATUS_ENTRIES)), when (!e.managed) (setFld g (n (s.fld g)))])

/-- Writes the entry at a way. -/
def putEnt (b w : Nat) (e : Ent) : Effect := ask fun s =>
  seq [useOf (s.ent b w) false, putBytes (entAddr b w) (entBytes e), useOf e true]

/-- Removes the entry at a way, which keeps its GEN. -/
def dropEnt (b w : Nat) : Effect := ask fun s => putEnt b w { gen := (s.ent b w).gen }

/-- One entry is checked by a bank operation that reads it (R273). -/
def checkEnt (b w : Nat) : Effect := ask fun s =>
  let l := s.bytes (entAddr b w) 16
  when (!entParOk l) (
    let e := entOf l
    let v := 2 ^ 31 + b2n e.managed * 2 ^ 24 + b % 16 * 2 ^ 16 + b / 16 * 2 ^ 4 + w
    seq [dropEnt b w, count (FWD.COUNT_LO 5), setReg FWD.PAR_LOG v, fire 53 v])
def checkBucket (b : Nat) : Effect := forEach (List.range 4) (checkEnt b)

/-! ### Hashing (R258) -/

/-- The hash loop over 16-bit words. -/
def mixWords (ws : List Nat) (h : Nat) : Nat := ws.foldl (fun h w =>
  let h := Nat.xor h w * 0x9E5B % 65536
  Nat.xor h (h / 128)) h
def keyWords (key : Nat) : List Nat := (List.range 4).map (fun i => key / 2 ^ (16 * i) % 65536)

/-- The two candidate buckets of a key. -/
def State.buckets (s : State) (kind key : Nat) : Nat × Nat :=
  let seed := s.fld FWD.HASH_SEED_SEED
  let b1 := Nat.xor (mixWords (keyWords key) (Nat.xor (seed % 65536) (kind * 32768))) (seed / 65536)
  let h2 := Nat.xor (mixWords (keyWords key) (Nat.xor (Nat.xor (seed / 65536) 0x5555) (kind * 32768))) (seed % 65536)
  (b1, h2 / 16 * 16 + (b1 + 8) % 16)

/-- The way that holds a key. -/
def State.findEnt (s : State) (kind key : Nat) : Option (Nat × Nat) :=
  let (b1, b2) := s.buckets kind key
  ([b1, b2].flatMap (fun b => (List.range 4).map (fun w => (b, w)))).find? (fun e =>
    let x := s.ent e.1 e.2
    x.valid && x.kind = kind && x.key = key)

/-- A lookup: parity checked, HIT set on the entry found (R258, R272, R273). -/
def lookupKey (kind key : Nat) (k : Option Ent → Effect) : Effect := ask fun s =>
  let (b1, b2) := s.buckets kind key
  seq [checkBucket b1, checkBucket b2, ask fun s => match s.findEnt kind key with
    | some (b, w) => let e := { s.ent b w with hit := true }
      seq [putEnt b w e, k (some e)]
    | none => k none]

/-! ### Inserts (R260) -/

/-- The free way of a bucket that an insert takes, the search starting at `f`: which of several is not said (assumption
19). -/
def State.freeWay (s : State) (b f : Nat) : Option Nat :=
  ((List.range 4).map (fun i => (f + i) % 4)).find? (fun w => !(s.ent b w).valid)

/-- The other candidate bucket of the entry at a way. -/
def State.otherBucket (s : State) (b w : Nat) : Nat :=
  let e := s.ent b w
  let (b1, b2) := s.buckets e.kind e.key
  if b = b1 then b2 else b1

/-- A path of at most `fuel` relocations that frees a way of bucket `b`: the ways to move, first the one in `b`. `start`
gives the way the search starts from at each level. -/
def State.path (s : State) (start : Nat → Nat) : Nat → Nat → List Nat → Option (List (Nat × Nat))
  | 0, _, _ => none
  | fuel + 1, b, seen =>
    let rec go : List Nat → Option (List (Nat × Nat))
      | [] => none
      | w :: ws =>
        let b' := s.otherBucket b w
        if b' = b || seen.contains b' then go ws
        else if (s.freeWay b' (start fuel)).isSome then some [(b, w)]
        else match s.path start fuel b' (b' :: seen) with
          | some p => some ((b, w) :: p)
          | none => go ws
    go ((List.range 4).map (fun i => (start (fuel + 1) + i) % 4))

/-- One relocation: the entry is written at its new place, HIT set and STRIKE cleared, before the old copy goes. -/
def relocate (f : Nat) (b w : Nat) : Effect := ask fun s =>
  let e := s.ent b w
  let b' := s.otherBucket b w
  match s.freeWay b' f with
  | some w' => seq [putEnt b' w' { e with hit := true, strike := false }, dropEnt b w, count (FWD.COUNT_LO 4)]
  | none => nothing

/-- Inserts an entry, or fails (R260). -/
def insertEnt (e : Ent) (failed ok : Effect) : Effect := ask fun s =>
  let (b1, b2) := s.buckets e.kind e.key
  let put := fun (b w : Nat) => ask fun s => seq [putEnt b w { e with gen := ((s.ent b w).gen + 1) % 16 }, ok]
  withFree 32 fun f =>
    match s.freeWay b1 (f % 4), s.freeWay b2 (f % 4) with
    | some w, _ => put b1 w
    | none, some w => put b2 w
    | none, none =>
      let n := s.fld FWD.FWD_EXP_RELOC_MAX
      let r := getD s.fwd.rotor (b1 % 16) 0
      let start := fun i => if i = n then r else f / 4 ^ i % 4
      seq [fun s => [.fwd { s.fwd with rotor := putD s.fwd.rotor (b1 % 16) ((r + 1) % 4) 0 }],
        match s.path start n b1 [b1] with
        | some p => seq [forEach p.reverse (fun m => relocate (f % 4) m.1 m.2), ask fun s =>
            match s.freeWay b1 (f % 4) with
            | some w => put b1 w
            | none => failed]
        | none => failed]

/-! ### Sillage (R276, R277) -/

/-- The set of a message identifier. -/
def State.silSet (s : State) (orig kind seqn cls : Nat) : Nat :=
  let seed := s.fld FWD.SIL_SEED_SEED
  Nat.xor (mixWords (keyWords orig ++ [seqn % 65536, cls + kind * 256]) (seed % 65536)) (seed / 65536) % 2 ^ 14
def silAddr (set w : Nat) : Nat := 0x10900000 + set * 0x40 + w * 0x10

/-- W2 of an entry, its PAR bits over the four words as in the node table. -/
def silBytes (orig kind seqn cls expire : Nat) : List Nat :=
  let w2 := seqn % 65536 + cls * 2 ^ 16 + kind * 2 ^ 24 + 2 ^ 25
  leBytes orig 8 ++ leBytes (w2 + entPar (orig % 2 ^ 32) (orig / 2 ^ 32) w2 expire * 2 ^ 28) 4 ++ leBytes expire 4

/-- Test-and-insert: SEEN or NEW. A way is unexpired while EXPIRE lies ahead of the present second. -/
def sillage (orig kind seqn cls : Nat) (seen new : Effect) : Effect := ask fun s =>
  let set := s.silSet orig kind seqn cls
  let now := s.ns / 1000000000 % 2 ^ 32
  let way := fun w => s.bytes (silAddr set w) 16
  let live := fun w => bit (fieldLe (way w) 8 4) 25 && decide (0 < signed 32 (fieldLe (way w) 12 4 + 2 ^ 32 - now))
  let mine := silBytes orig kind seqn cls 0
  if (List.range 4).any (fun w => live w && (way w).take 8 = mine.take 8 &&
      fieldLe (way w) 8 4 % 2 ^ 26 = fieldLe mine 8 4 % 2 ^ 26) then seen
  else
    let put := fun w => putBytes (silAddr set w) (silBytes orig kind seqn cls ((now + s.fld FWD.SIL_CFG_SIL_TTL) % 2 ^ 32))
    match firstBelow 4 (fun w => !live w) with
    | some w => seq [put w, new]
    | none =>
      let age := fun w => signed 32 (fieldLe (way w) 12 4 + 2 ^ 32 - now)
      seq [put ((List.range 4).foldl (fun b w => if age w < age b then w else b) 0), count (FWD.COUNT_HI 8), new]

end Sys2Proof.Machine
end

