-- ==== Sys2Proof/Machine/Deliver.lean ====
section
/-!
DEFINITION. The forwarding decision (R262-R265), learning (R266-R270), and what delivers a received frame: the output
queues of the receive lanes, the class rings, MAC and the adaptation block (R198, R263).
-/
namespace Sys2Proof.Machine

open Sys2Proof

def setFwd (f : Fwd → Fwd) : Effect := fun s => [.fwd (f s.fwd)]

/-! ### Frame forms (Table 06.1) -/

inductive Form where
  | poll | ack | downlink | uplink | bcast | beacon | tagAck
  deriving DecidableEq, Repr

/-- The form of a frame control field. -/
def formOf (fc : Nat) : Option Form :=
  if fc = 0xD86B then some .poll
  else if fc = 0x200A ∨ fc = 0x201A ∨ fc = 0x2002 ∨ fc = 0x2012 then some .ack
  else if fc = 0x9C69 ∨ fc = 0x9C79 then some .downlink
  else if fc = 0xD869 ∨ fc = 0xD849 then some .uplink
  else if fc = 0x9849 then some .bcast
  else if fc = 0x9008 then some .beacon
  else if fc = 0x0002 then some .tagAck
  else none

/-- The bytes of a form's MHR, auxiliary security header included. -/
def formLen (fc : Nat) : Form → Nat
  | .poll | .downlink | .uplink => 21
  | .bcast => 15
  | .beacon => 13
  | .ack => if bit fc 3 then 9 else 3
  | .tagAck => 3

/-- A parsed header: its form, MHR length, sequence number, keys (kind 0 EUI-64, 1 short address with its PAN) and the
security level. -/
structure Hdr where
  form : Form
  len : Nat
  seqn : Nat
  src : Option (Nat × Nat)
  dst : Option (Nat × Nat)
  level : Nat
  deriving DecidableEq, Repr

/-- The short key of a PAN ID and a short address. -/
def shortKey (pan a : Nat) : Nat × Nat := (1, pan * 65536 + a)

/-- Parses a frame's header from its first bytes; `total` is the PSDU's length. -/
def parseHdr (l : List Nat) (total : Nat) : Option Hdr :=
  let f := fieldLe l
  let fc := f 0 2
  match formOf fc with
  | none => none
  | some m =>
    let n := formLen fc m
    if total < n + 2 ∨ l.length < n then none
    else some { form := m, len := n, seqn := f 2 1
                src := match m with
                  | .poll | .uplink => some (0, f 7 8)
                  | .downlink => some (shortKey (f 3 2) (f 13 2))
                  | .bcast => some (shortKey (f 3 2) (f 7 2))
                  | .beacon => some (shortKey (f 3 2) (f 5 2))
                  | _ => none
                dst := match m with
                  | .poll | .uplink => some (shortKey (f 3 2) (f 5 2))
                  | .downlink => some (0, f 5 8)
                  | .bcast => some (shortKey (f 3 2) (f 5 2))
                  | _ => none
                level := if bit fc 3 then f (n - 6) 1 % 8 else 0 }

/-- MIC bytes of a security level (Table 09.4). -/
def micLen (level : Nat) : Nat := match level % 4 with
  | 0 => 0 | 1 => 4 | 2 => 8 | _ => 16

/-- The port code of an RF port and channel. -/
def rfCode (p chan : Nat) : Nat := p * 256 + chan

/-! ### RXRADIO descriptors and reception records -/

/-- The RXRADIO descriptor (Table 03.9). -/
def rxDesc (p chan len buf sfd nidx : Nat) : Desc :=
  mkDesc (1 + p * 2 ^ 5 + chan * 2 ^ 7 + len * 2 ^ 16) (buf + nidx * 2 ^ 15) (sfd % 2 ^ 32) (sfd / 2 ^ 32)
def Desc.port (d : Desc) : Nat := bits d.w0.toNat 6 5
def Desc.chan (d : Desc) : Nat := bits d.w0.toNat 13 7
def Desc.nidx (d : Desc) : Nat := bits d.w1.toNat 31 15
def Desc.sfd (d : Desc) : Nat := d.w2.toNat + 2 ^ 32 * d.w3.toNat
def Desc.withNidx (d : Desc) (i : Nat) : Desc := { d with w1 := BitVec.ofNat 32 (putBits d.w1.toNat 31 15 i) }

/-- A frame's reception record (Table 05.7), written after its PSDU. -/
def State.record (s : State) (d : Desc) : List Nat := (s.chainBytes d.buf (d.len + 16)).drop d.len

/-- The frame as MAC takes it. -/
def State.macFrame (s : State) (d : Desc) (i : Nat) : MacFrame :=
  let r := s.record d
  ⟨i, d.buf, d.sfd, s.chainBytes d.buf d.len, r, d.port, d.chan, byteAt r 6 % 16⟩

/-! ### Delivery -/

/-- The rings of RING_SEL and POLL_RING. -/
def State.pollRing (s : State) (p : Nat) : Nat :=
  if p = 0 then s.fld MAC.POLL_RING_RFA else if p = 1 then s.fld MAC.POLL_RING_RFB else s.fld MAC.POLL_RING_RFC

/-- Delivery by first payload byte (R263); the payload is plaintext. -/
def payDeliver (d : Desc) : Effect := ask fun s =>
  let l := s.chainBytes d.buf d.len
  match parseHdr l d.len with
  | none => deliver (s.fld FWD.RING_SEL0_UPLINK) d
  | some h =>
    if d.len ≤ h.len + micLen h.level + 2 then deliver (s.fld FWD.RING_SEL0_UPLINK) d
    else
      let b := byteAt l h.len
      if b = 0x11 then deliver (s.fld FWD.RING_SEL1_DIS) d
      else if b < 0x40 then deliver (s.fld FWD.RING_SEL0_UPLINK) d
      else setFwd fun f => { f with upward := f.upward ++ [(d, rfCode d.port d.chan, d.nidx)] }

/-- Whether MAC expects a tag acknowledgement with this SFD instant (R247). -/
def State.expectsAck (s : State) (d : Desc) : Bool :=
  s.mac.bursts.any (fun e => e.2.port = d.port && e.2.chan = d.chan && (match e.2.await_ with
    | some (_, t) => decide ((tdiff (BitVec.ofNat 64 d.sfd) (BitVec.ofNat 64 t)).natAbs ≤ s.fld MAC.DL_CFG_DL_ACKTOL * 1000)
    | none => false))

/-- Whether a frame is a beacon of the time parent (R244). -/
def State.isParent (s : State) (d : Desc) (src : Option (Nat × Nat)) : Bool :=
  s.flag MAC.PARENT_CTL_EN && src = some (shortKey (s.fld MAC.PARENT_ADDR_PAN_ID) (s.fld MAC.PARENT_ADDR_SHORT)) &&
    d.port = s.fld MAC.PARENT_CTL_PORT && d.chan = s.fld MAC.PARENT_CTL_CHAN &&
    byteAt (s.record d) 6 % 16 = s.fld MAC.PARENT_CTL_MODE

/-- A managed node's authenticated frame reaches MAC (R230). -/
def toMac (dec : Decision) (d : Desc) : Effect := ask fun s =>
  when (dec.cls = .poll || dec.cls = .uplink)
    (setMac fun m => { m with inbox := m.inbox ++ [s.macFrame d dec.nidx] })

/-- A frame goes where its class says (Table 07.4). -/
def toClass (dec : Decision) (d0 : Desc) : Effect := ask fun s =>
  let d := d0.withNidx dec.nidx
  match dec.cls with
  | .other => deliver (s.fld FWD.RING_SEL0_OTHER) d
  | .tagAck =>
    if s.expectsAck d then seq [setMac fun m => { m with tagAcks := m.tagAcks ++ [s.macFrame d 0] }]
    else deliver (s.fld FWD.RING_SEL0_OTHER) d
  | .beacon => seq [when (s.isParent d dec.src) (setMac fun m => { m with beacons := m.beacons ++ [s.macFrame d 0] }),
      deliver (s.fld FWD.RING_SEL0_BCN) d]
  | .miss => deliver (s.fld FWD.RING_SEL0_MISS) d
  | .poll => seq [toMac dec d, deliver (s.pollRing d.port) d]
  | .uplink => seq [toMac dec d, payDeliver d]
  | .bcast => payDeliver d
  | .peer => deliver (s.fld FWD.RING_SEL1_PEER) d

/-! ### Output queues (R198) -/

/-- Changes the decision on the frame in chain `b`, wherever it is held. -/
def mapDecision (b : Nat) (f : Decision → Decision) : Effect := seq [
  setFwd fun x => { x with decisions := x.decisions.map (fun e => if e.1 = b then (e.1, f e.2) else e) },
  setCry fun c => { c with ctxs := c.ctxs.map (fun e => if e.2.d.buf = b then (e.1, { e.2 with decision := f e.2.decision }) else e) }]

/-- The decision on the frame in chain `b`. -/
def State.decisionOn (s : State) (b : Nat) : Option Decision := match find s.fwd.decisions b with
  | some d => some d
  | none => (s.cry.ctxs.find? (fun e => e.2.d.buf = b)).map (fun e => e.2.decision)

/-- Takes the head of a lane's output queue. -/
def popOut (n : Nat) : Effect := setLane n fun l => { l with outq := l.outq.drop 1, fullSince := none }

/-- Delivers the frames at the head of a lane's output queue that are ready; `fuel` is their number. -/
def serveOutBy (n : Nat) : Nat → Effect
  | 0 => nothing
  | fuel + 1 => ask fun s => match (s.lane n).outq with
    | [] => nothing
    | e :: _ =>
      let forget := setFwd fun f => { f with decisions := eraseKey f.decisions e.d.buf }
      if !s.flag FWD.FWD_CTL_EN && (find s.fwd.decisions e.d.buf).isNone then
        seq [popOut n, count (FWD.COUNT_LO 11), freeChain e.d.buf, serveOutBy n fuel]
      else if !e.good then seq [popOut n, forget, deliver (s.fld FWD.RING_SEL0_OTHER) e.d, serveOutBy n fuel]
      else match find s.fwd.decisions e.d.buf with
        | none => nothing
        | some dec => when (dec.learn = 2) (seq [popOut n, forget, toClass dec e.d, serveOutBy n fuel])
def serveOut (n : Nat) : Effect := serveOutBy n 8

/-! ### Learning (R266, R267) -/

/-- A learn joins the queue of its key's first bank. -/
def pushLearn (kind key port lqi : Nat) (managed : Bool) (nidx : Nat) (hardware : Bool) (after : Option (Nat × Bool)) :
    Effect := ask fun s => setFwd fun f => { f with
      learns := f.learns ++ [⟨kind, key, port, lqi, managed, nidx, (s.buckets kind key).1 % 16, hardware, after⟩] }

/-- Whether a frame of this class is learned (R266). -/
def State.learns (s : State) (dec : Decision) : Bool :=
  dec.cls ≠ .other && dec.cls ≠ .tagAck && dec.src.isSome && s.flag (FWD.FWD_GRP_AUTO dec.port)

/-- The learn of a frame is presented, or none is needed. -/
def presentLearn (dec : Decision) (d : Desc) : Effect := ask fun s => match s.learns dec, dec.src with
  | true, some (kind, key) => seq [mapDecision d.buf (fun x => { x with learn := 1 }),
      pushLearn kind key (rfCode dec.port dec.chan) (byteAt (s.record d) 2) false 0 true (some (d.buf, dec.managed))]
  | _, _ => mapDecision d.buf (fun x => { x with learn := 2 })

/-- A decided frame whose FCS is good: the learn is presented where it need not wait for the cipher lane, and an opened
frame passes to its receive job (R264, R266, R340). -/
def settle (dec : Decision) (d : Desc) : Effect :=
  if dec.opened && dec.lost then
    seq [setFwd fun f => { f with decisions := eraseKey f.decisions d.buf }, freeChain d.buf]
  else seq [
    when (!(dec.managed && dec.opened)) (presentLearn dec d),
    when dec.opened (seq [
      setFwd fun f => { f with decisions := f.decisions.map (fun e => if e.1 = d.buf then (e.1, { e.2 with frame := some d }) else e) },
      setCry fun c => { c with ctxs := c.ctxs.map (fun e => if e.2.d.buf = d.buf then (e.1, { e.2 with frame := some d }) else e) }])]

/-- A lane reports good FCS and hands its frame on (R198). -/
def frameGood (n : Nat) (d : Desc) : Effect := ask fun s => match s.decisionOn d.buf with
  | none => seq [setLane n fun l => { l with outq := l.outq ++ [⟨d, true⟩] }, serveOut n]
  | some dec => seq [when (!dec.opened) (setLane n fun l => { l with outq := l.outq ++ [⟨d, true⟩] }), settle dec d, serveOut n]

/-- A waiting frame leaves its output queue or its receive job. -/
def takeFrame (b : Nat) (k : Decision → Desc → Effect) : Effect := ask fun s => match s.decisionOn b with
  | none => nothing
  | some dec =>
    let n := dec.lane
    let held := (s.lane n).outq.find? (fun e => e.d.buf = b)
    let d := match held, find s.fwd.decisions b, s.cry.ctxs.find? (fun e => e.2.d.buf = b) with
      | some e, _, _ => some e.d
      | none, some x, _ => x.frame
      | none, none, some c => c.2.frame
      | none, none, none => none
    match d with
    | some d => seq [withdraw b, setLane n fun l => { l with outq := l.outq.filter (fun e => e.d.buf ≠ b) }, k dec d, serveOut n]
    | none => nothing

/-- A flood of policy (R269, R270, R278, R280). -/
def policyFlood (dec : Decision) (d : Desc) : Effect := ask fun s =>
  let l := s.chainBytes d.buf d.len
  let (kind, orig) := dec.src.getD (0, 0)
  setFwd fun f => { f with
    jobCount := f.jobCount + 1
    jobs := f.jobs ++ [{ id := f.jobCount, owner := 1, buf := d.buf, len := d.len, cring := 0
                         set := s.fld FWD.ATOM_CFG_POLICY_SET, start := 0, tag := 0#32
                         sil := some (orig, kind, byteAt l 2 + 256 * byteAt l (d.len - 2), 1)
                         arrival := some (dec.port, dec.chan) }] }

/-- A learn has committed: the frame that waits for it goes on. -/
def learnDone (x : Learn) : Effect := match x.after with
  | none => nothing
  | some (b, _) => ask fun s => match s.decisionOn b with
    | some dec => seq [mapDecision b (fun y => { y with learn := 2 }), serveOut dec.lane]
    | none => nothing

/-- A learn was refused by a limit (R269). -/
def learnRefused (x : Learn) (g : Nat) (rate : Bool) : Effect := ask fun s => seq [
  if rate then count (FWD.COUNT_HI 3) else count (FWD.COUNT_LO 3),
  fireFirst (FWD.COUNT 3) 0 54 (g + b2n rate * 2 ^ 3),
  match x.hardware, x.after with
  | true, some (b, false) =>
    if s.flag (FWD.FWD_GRP_EXCESS g) then takeFrame b policyFlood else takeFrame b (fun _ d => freeChain d.buf)
  | _, _ => learnDone x]

/-- An insert failed (R270). -/
def insertFailed (x : Learn) : Effect := ask fun s => seq [
  count (FWD.COUNT_HI 4), fire 52 ((s.buckets x.kind x.key).1 + b2n x.managed * 2 ^ 16),
  match x.hardware, x.after with
  | true, some (b, false) => takeFrame b policyFlood
  | _, _ => learnDone x]

/-- The tick of STAMP, and whether an entry lies in the window of R267. -/
def State.tick (s : State) : Nat := s.ns / 2000000 % 256
def State.inWindow (s : State) (e : Ent) : Bool :=
  e.hold && decide ((s.tick + 256 - e.stamp) % 256 * 2 < s.fld FWD.MOVE_CFG_MOVE_HOLD)

/-- A learn's commit (Table 07.6). -/
def learnCommit (x : Learn) : Effect := ask fun s =>
  let (b1, b2) := s.buckets x.kind x.key
  let g := portGroup x.port % 8
  seq [checkBucket b1, checkBucket b2, ask fun s => match s.findEnt x.kind x.key with
    | none =>
      let spent := getD s.fwd.spent g 0
      let credit := s.fld (FWD.FWD_GRP_RATE_BURST g) * 1000 - spent
      if !x.managed && decide (s.fld (FWD.FWD_GRP_MAX_ENTRIES g) ≤ s.fld (FWD.GRP_USE_ENTRIES g)) then learnRefused x g false
      else if !x.managed && decide (credit < 1000) then learnRefused x g true
      else seq [
        when (!x.managed) (setFwd fun f => { f with spent := putD f.spent g (spent + 1000) 0 }),
        insertEnt { key := x.key, kind := x.kind, valid := true, hit := true, hold := true, port := x.port, lqi := x.lqi
                    stamp := s.tick, managed := x.managed, nidx := if x.managed then x.nidx else 0 }
          (insertFailed x) (seq [count (FWD.COUNT_HI 0), learnDone x])]
    | some (b, w) =>
      let e := s.ent b w
      let pin := x.managed && !e.managed
      let pinned := fun (y : Ent) => if pin then { y with managed := true, nidx := x.nidx } else y
      let up := (e.gen + 1) % 16
      if x.managed && e.managed && e.nidx ≠ x.nidx then seq [putEnt b w { e with hit := true }, count (FWD.COUNT_LO 2), learnDone x]
      else if e.port = x.port then seq [
        putEnt b w (pinned { e with hit := true, strike := false, lqi := x.lqi, gen := if pin then up else e.gen }),
        count (FWD.COUNT_LO 0), learnDone x]
      else
        let moved := pinned { e with port := x.port, lqi := x.lqi, stamp := s.tick, hold := true, hit := true, strike := false, gen := up }
        if s.inWindow e then
          if s.flag FWD.FWD_EXP_MOVE_EXPERT && decide (e.lqi + s.fld FWD.FWD_EXP_MOVE_MARGIN ≤ x.lqi) then
            seq [putEnt b w moved, count (FWD.COUNT_HI 2), learnDone x]
          else seq [putEnt b w (pinned { e with hit := true, gen := if pin then up else e.gen }), count (FWD.COUNT_LO 1), learnDone x]
        else seq [putEnt b w moved, count (FWD.COUNT_HI 1), learnDone x]]

/-- LEARN_COMMIT: the oldest learn of a bank's queue. -/
def execLearnCommit (bank : Fin 16) := run (inDomain 2 (ask fun s => match s.fwd.learns.find? (fun x => x.bank = bank.val) with
  | some x => seq [setFwd fun f => { f with learns := f.learns.erase x }, learnCommit x]
  | none => nothing))

/-! ### The decision (R262-R265) -/

/-- The class of a frame, with the node-table entry of its source. -/
def State.classOf (s : State) (h : Option Hdr) (src : Option Ent) : FwdClass := match h with
  | none => .other
  | some h =>
    if h.form = .tagAck then .tagAck
    else if h.form = .ack then .other
    else if h.level = 0 && !s.flag MAC.MAC_EXP_ACCEPT_L0 then .other
    else match src with
      | none => if h.form = .beacon then .beacon else .miss
      | some e =>
        if e.managed then (match h.form with
          | .poll => .poll
          | .uplink => .uplink
          | _ => .other)
        else match h.form with
          | .beacon => .beacon
          | .bcast => .bcast
          | _ => .peer

/-- The key a class is opened with, and the ring its receive job names (Table 07.4). -/
def State.keyFor (s : State) (cls : FwdClass) (nidx : Nat) : Option Nat := match cls with
  | .poll | .uplink => some (2 ^ 31 + nidx)
  | .beacon | .bcast => some (s.fld MAC.BCN_CFG_KEY)
  | .peer => if s.flag FWD.KEY_CFG_PEER_EN then some (s.fld FWD.KEY_CFG_PEER_KEY) else none
  | _ => none
def State.ringFor (s : State) (cls : FwdClass) (p : Nat) : Nat := match cls with
  | .other | .tagAck => s.fld FWD.RING_SEL0_OTHER
  | .beacon => s.fld FWD.RING_SEL0_BCN
  | .miss => s.fld FWD.RING_SEL0_MISS
  | .poll => s.pollRing p
  | .uplink | .bcast => 0
  | .peer => s.fld FWD.RING_SEL1_PEER

/-- The CRYRX descriptor of Table 09.2. -/
def cryRx (d : Decision) (len : Nat) : Desc :=
  mkDesc (8 + d.port * 2 ^ 5 + d.chan * 2 ^ 7 + len * 2 ^ 16) (d.buf + d.nidx * 2 ^ 15) d.ref.toNat
    (d.ring + d.lane * 2 ^ 6 + b2n d.paysel * 2 ^ 13)

/-- The decision's result is enqueued (R264). -/
def enqueueDecision (d : Decision) (len : Nat) : Effect := ask fun s =>
  let ring := s.fld FWD.RING_SEL1_CRY
  let hold := fun (x : Decision) => setFwd fun f => { f with decisions := insertKey f.decisions d.buf x }
  if !d.opened then hold d
  else seq [pointerCheck ring, ask fun s =>
    if s.hasRoom ring then seq [hold d, append ring (cryRx d len), queueLoad (.decision d.buf) d.ref]
    else seq [overflow ring, hold { d with lost := true }]]

/-- Looks up both keys and makes the decision on a frame; `ns` is the time it took. -/
def makeDecision (n p chan buf len : Nat) (psdu : List Nat) (ns : Nat) (k : Decision → Effect) : Effect :=
  let h := parseHdr psdu len
  let look := fun (key : Option (Nat × Nat)) (k : Option Ent → Effect) => match key with
    | some (kind, v) => lookupKey kind v k
    | none => k none
  look (h.bind Hdr.src) fun se => look (h.bind Hdr.dst) fun _ => ask fun s =>
    let cls := s.classOf h se
    let level := match h with
      | some h => h.level
      | none => 0
    let managed := match se with
      | some e => e.managed
      | none => false
    let nidx := match se with
      | some e => if e.managed then e.nidx else 0
      | none => 0
    let key := if level = 0 then none else s.keyFor cls nidx
    let d : Decision := { lane := n, cls := cls, nidx := nidx, managed := managed, opened := key.isSome
                          ref := BitVec.ofNat 32 (key.getD 0), ring := s.ringFor cls p
                          paysel := cls = .uplink || cls = .bcast, buf := buf, port := p, chan := chan
                          src := h.bind Hdr.src }
    seq [count (FWD.COUNT_HI 6), when (decide (160 < ns)) (count (FWD.COUNT_LO 6)),
      setFld FWD.DEC_MAX_NS (max (s.fld FWD.DEC_MAX_NS) (min ns 65535)), enqueueDecision d len, k d]

/-- Whether a frame being received has shown its whole MAC header. -/
def RxFrame.headerSeen (f : RxFrame) : Bool :=
  decide (f.len ≤ f.got) || (decide (2 ≤ f.got) && (match formOf (fieldLe f.psdu 0 2) with
    | some m => decide (formLen (fieldLe f.psdu 0 2) m ≤ f.got)
    | none => true))

/-- FWD_DECISION on the frame a lane is receiving, or else on the oldest undecided frame of its output queue; `ns` is the
time the decision took. -/
def execFwdDecision (n : Fin 96) (ns : BitVec 16) := run (inDomain 2 (ask fun s => when (s.flag FWD.FWD_CTL_EN) (
  let l := s.lane n
  let queued := match l.outq.find? (fun e => e.good && (find s.fwd.decisions e.d.buf).isNone) with
    | some e => makeDecision n e.d.port e.d.chan e.d.buf e.d.len (s.chainBytes e.d.buf e.d.len) ns.toNat fun dec => seq [
        when dec.opened (setLane n fun l => { l with outq := l.outq.filter (fun x => x.d.buf ≠ e.d.buf), fullSince := none }),
        settle dec e.d, serveOut n]
    | none => nothing
  match l.run, l.frame with
  | .receive, some f => match f.buf with
    | some b => if f.headerSeen && (s.decisionOn b).isNone then makeDecision n f.port f.chan b f.len f.psdu ns.toNat (fun _ => nothing)
        else queued
    | none => queued
  | _, _ => queued)))

end Sys2Proof.Machine
end

