-- ==== Sys2Proof/Machine/Downlink.lean ====
section
/-!
DEFINITION. MAC's downlink store (R246).
-/
namespace Sys2Proof.Machine

open Sys2Proof

/-- Node `i`'s downlink ring, and the frames the store holds. -/
def State.dlRing (s : State) (i : Nat) : List DlFrame := getD s.mac.downlink i []
def State.dlStored (s : State) : Nat := (s.mac.downlink.map (fun e => e.2.length)).sum

/-- Whether frames of these lengths are refused for node `i` with record `n`, and the status code of Table 03.5. -/
def State.dlRefusal (s : State) (i : Nat) (n : Node) (lens : List Nat) : Option Nat :=
  if !s.flag MAC.MAC_CTL_EN then some 0x0C
  else if n.state = 0 then some 0x0B
  else if s.fld MAC.DL_CFG_DL_MAX < (s.dlRing i).length + lens.length || 65536 < s.dlStored + lens.length ||
      lens.any (fun l => decide (l < 25) || decide (127 < l) || decide (maxPsdu n.mode < l)) then some 2
  else none

/-- Sets node `i`'s ring and the record's count of it. -/
def setDl (i : Nat) (l : List DlFrame) : Effect := seq [
  setMac fun m => { m with downlink := putD m.downlink i l [] }, mapNode i fun n => { n with dlCount := l.length }]

/-- Appends a frame to node `i`'s ring. The indexes of the entries are MAC's own: free values (assumption 2). -/
def pushDl (i : Nat) (d : Desc) : Effect := withFree 16 fun f => ask fun s => seq [
  mapNode i fun n => { n with dlTail := f, dlHead := if (s.dlRing i).isEmpty then f else n.dlHead },
  setDl i (s.dlRing i ++ [{ d := d }])]

/-- Removes the head frame of node `i`'s ring. -/
def popDl (i : Nat) : Effect := withFree 16 fun f => ask fun s => seq [
  mapNode i fun n => { n with dlHead := f, dlRetry := 0 }, setDl i ((s.dlRing i).drop 1)]

/-- DLQUEUE's and the adaptation block's queueing of a descriptor: refused, the chain returns to Flacon. -/
def dlQueue (i : Nat) (d : Desc) (refused : Nat → Effect) (ok : Effect) : Effect :=
  withNode i fun n => ask fun s => match s.dlRefusal i n [d.len] with
    | some c => seq [freeDesc d, refused c]
    | none => seq [pushDl i d, ok]

end Sys2Proof.Machine
end

