-- ==== Sys2Proof/Machine/Atom.lean ====
section
/-!
DEFINITION. The Atomiser's staging of a job's targets (R280, R281).
-/
namespace Sys2Proof.Machine

open Sys2Proof

/-- Changes the Atomiser's job `id`. -/
def mapJob (id : Nat) (f : AtomJob → AtomJob) : Effect :=
  setFwd fun x => { x with jobs := x.jobs.map (fun j => if j.id = id then f j else j) }

/-- Changes one of its targets. -/
def mapTarget (id index : Nat) (f : Target → Target) : Effect :=
  mapJob id fun j => { j with targets := j.targets.map (fun t => if t.index = index then f t else t) }

/-- The enabled targets of a flood set, but the arrival port and channel (R280). -/
def State.floodSet (s : State) (set : Nat) (arrival : Option (Nat × Nat)) : List Target :=
  ((List.range 16).filter (fun t => s.flag (FWD.FSET_EN set t) &&
      arrival ≠ some (s.fld (FWD.FSET_PORT set t), s.fld (FWD.FSET_CHAN set t)))).map (fun t =>
    { index := t, port := s.fld (FWD.FSET_PORT set t), chan := s.fld (FWD.FSET_CHAN set t)
      mode := s.fld (FWD.FSET_MODE set t), power := s.fldI (FWD.FSET_POWER set t) })

/-- Gives one port's targets their launch instants in groups of `par`: each group at the end of the one before plus the
gap. -/
def State.groupLaunch (s : State) (len par gap : Nat) : Nat → Nat → List Target → List Target
  | 0, _, ts => ts
  | fuel + 1, at_, ts =>
    let g := ts.take par
    let air := (g.map (fun t => s.airtime t.mode len)).foldl max 0
    g.map (fun t => { t with launch := at_ }) ++
      (if ts.length ≤ par then [] else s.groupLaunch len par gap fuel (at_ + air + gap) (ts.drop par))

/-- The launch instants of a job's targets, port by port. -/
def State.launches (s : State) (j : AtomJob) : List Target :=
  let first := j.accepted + (if j.start = 0 then s.fld FWD.ATOM_CFG_ATOM_LEAD else j.start) * 250000
  [0, 1, 2, 3].flatMap (fun p => s.groupLaunch j.len (s.fld FWD.ATOM_CFG_PAR + 1) (s.fld FWD.ATOM_CFG_ATOM_GAP * 10000) 16 first
    ((s.floodSet j.set j.arrival).filter (fun t => t.port = p)))

/-- Stages a waiting target: refused BUSY it is tried again 1 ms later, at most 8 times; refused otherwise it is skipped
(R281). -/
def stageTarget (id : Nat) (t : Target) : Effect := ask fun s => match s.fwd.jobs.find? (fun j => j.id = id) with
  | none => nothing
  | some j =>
    if 3 ≤ t.port || !radioOk t.port t.chan t.mode || maxPsdu t.mode < j.len then targetEnd id t.index false
    else stage { port := t.port, chan := t.chan, mode := t.mode, request := t.power, fcs := true, cca := false, buf := j.buf
                 len := j.len, tag := j.tag, cring := j.cring, owner := .flood, ident := id * 16 + t.index
                 trig := tplus (BitVec.ofNat 64 t.launch) (-200) }
      (fun code => if code = 5 && decide (t.tries < 8) then
          mapTarget id t.index fun x => { x with tries := x.tries + 1, retryAt := s.ns + 1000000 }
        else targetEnd id t.index false)
      (fun _ _ => mapTarget id t.index fun x => { x with st := 1 })

/-- A job's targets are staged. -/
def stageJob (id : Nat) : Effect := ask fun s => match s.fwd.jobs.find? (fun j => j.id = id) with
  | none => nothing
  | some j => if !s.flag FWD.FWD_CTL_EN then seq [mapJob id fun x => { x with stage := 3 }, jobCheck id]
    else
      let ts := s.launches j
      seq [mapJob id fun x => { x with stage := 2, targets := ts }, forEach ts (stageTarget id), jobCheck id]

/-- A job's seal failed: none of its targets is sent. -/
def skipJob (id : Nat) : Effect := ask fun s => match s.fwd.jobs.find? (fun j => j.id = id) with
  | none => nothing
  | some j =>
    let ts := s.floodSet j.set j.arrival
    seq [mapJob id fun x => { x with stage := 2, targets := ts }, forEach ts (fun t => targetEnd id t.index false), jobCheck id]

/-- FLOOD_RETRY: targets refused BUSY are staged again when their time has come. -/
def execFloodRetry := run (inDomain 2 (ask fun s => forEach s.fwd.jobs (fun j =>
  when (j.stage = 2) (forEach (j.targets.filter (fun t => t.st = 0 && decide (0 < t.tries ∧ t.retryAt ≤ s.ns))) (stageTarget j.id)))))

end Sys2Proof.Machine
end

