-- ==== Sys2Proof/Machine/Cry.lean ====
section
/-!
DEFINITION. The cipher engine (chapter 09): receive jobs and their contexts, whole-lane jobs, framing and nonces, early
release, and CRY's commands.
-/
namespace Sys2Proof.Machine

open Sys2Proof

/-! ### IEEE 802.15.4 framing (R327) and nonces (R330, R331) -/

/-- What the cipher engine reads from a frame: the length of a, the security control fields, and the source. -/
structure SecHdr where
  a : Nat
  level : Nat
  keyMode : Nat
  fcAt : Nat
  indexAt : Nat
  srcMode : Nat
  src : Nat
  pan : Nat
  deriving DecidableEq, Repr

/-- The bytes of an address mode. -/
def addrLen (m : Nat) : Nat := if m = 2 then 2 else if m = 3 then 8 else 0

/-- Parses a secured frame, or finds a breach of R327. -/
def secHdr (l : List Nat) : Option SecHdr :=
  let f := fieldLe l
  let fc := f 0 2
  let ver := bits fc 13 12
  let dm := bits fc 11 10
  let sm := bits fc 15 14
  let comp := bit fc 6
  if ver = 3 || !bit fc 3 || bit fc 9 || dm = 1 || sm = 1 || decide (4 ≤ bits fc 2 0) then none
  else
    let p0 := if ver = 2 && bit fc 8 then 2 else 3
    let dpan := if ver < 2 then dm ≠ 0
      else if dm ≠ 0 && sm ≠ 0 then (if dm = 3 && sm = 3 then !comp else true)
      else if dm ≠ 0 then !comp
      else comp && sm = 0
    let span := if ver < 2 then sm ≠ 0 && !comp
      else if dm ≠ 0 && sm ≠ 0 then (if dm = 3 && sm = 3 then false else !comp)
      else if dm ≠ 0 then false
      else sm ≠ 0 && !comp
    let p1 := p0 + (if dpan then 2 else 0) + addrLen dm
    let p2 := p1 + (if span then 2 else 0)
    let p3 := p2 + addrLen sm
    let sc := f p3 1
    let km := bits sc 4 3
    let idx := p3 + 5 + (if km = 2 then 4 else if km = 3 then 8 else 0)
    let a := idx + (if km = 0 then 0 else 1) + (if bits fc 2 0 = 3 then 1 else 0)
    if l.length < a || bit sc 5 || bit sc 6 then none
    else some { a := a, level := sc % 8, keyMode := km, fcAt := p3 + 1, indexAt := idx, srcMode := sm, src := f p2 (addrLen sm)
                pan := if span then f p1 2 else if dpan then f p0 2 else 0 }

/-- The source EUI-64 of a frame's nonce (R331); `node` is the EUI-64 the key was derived from. -/
def State.nonceSource (s : State) (h : SecHdr) (sealing : Bool) (node : Option Nat) : Option Nat :=
  if h.srcMode = 3 then some h.src
  else if h.srcMode = 2 then
    if h.src = s.fld MAC.ADDR_SHORT_ADDR ∧ h.pan = s.fld MAC.ADDR_PAN_ID then some s.nv.eui
    else (firstBelow 16 (fun k => bit (s.fld CRY.SMAP_VALID_VALID) k && s.fld (CRY.SMAP_ADDR_SHORT k) = h.src &&
      s.fld (CRY.SMAP_ADDR_PAN_ID k) = h.pan)).map (fun k => s.regN (CRY.SMAP_EUI_LO k) + 2 ^ 32 * s.regN (CRY.SMAP_EUI_HI k))
  else if sealing then some s.nv.eui else node

/-- R330's nonce. -/
def nonceOf (eui fc level : Nat) : List Nat := beBytes eui 8 ++ beBytes fc 4 ++ [level]

/-- CCM* on a frame of `len` bytes before its MIC: at levels 1 to 3 everything is authenticated and nothing encrypted, as
IEEE 802.15.4 has it. Answers the bytes after a, and the tag. -/
def ccmStarSeal (key nonce l : List Nat) (a len level : Nat) : List Nat × List Nat :=
  let m := micLen level
  if level < 4 then (slice l a len, (ccmSeal key nonce (l.take len) [] m).2)
  else
    let r := ccmSeal key nonce (l.take a) (slice l a len) m
    (r.1, if m = 0 then [] else r.2)
def ccmStarOpen (key nonce l : List Nat) (a len level : Nat) : List Nat × Bool :=
  let m := micLen level
  let tag := slice l len (len + m)
  if level < 4 then (slice l a len, (ccmOpen key nonce (l.take len) [] tag).2)
  else if m = 0 then (ctrMode key (ccmCtr nonce) 1 (slice l a len), true)
  else ccmOpen key nonce (l.take a) (slice l a len) tag

/-- What running a job's cryptography gives: a status of Table 09.8, the bytes to write and where, and DETAIL. -/
structure Crypted where
  status : Nat
  writes : List (Nat × List Nat) := []
  detail : Nat := 0
  deriving DecidableEq, Repr

/-- An ALG 0 job on chain bytes `l` (R327, R329-R331); `hdr` is HDRLEN, or none for a receive job. -/
def State.runStar (s : State) (sealing : Bool) (level : Nat) (hdr : Option Nat) (l : List Nat) (len fc : Nat) (m : KeyMat) : Crypted :=
  match secHdr (l.take len) with
  | none => ⟨0x0A, [], 0⟩
  | some h =>
    if h.level ≠ level || level = 0 || (match hdr with
        | some n => n ≠ h.a || decide (len ≤ h.a)
        | none => false) then ⟨0x0A, [], 0⟩
    else if !sealing && hdr.isSome && decide (2048 < len - h.a) then ⟨0x0B, [], 0⟩
    else match s.nonceSource h sealing m.eui with
      | none => ⟨0x0E, [], 0⟩
      | some eui =>
        if sealing then
          let l1 := l.take h.fcAt ++ leBytes fc 4 ++ l.drop (h.fcAt + 4)
          let l2 := if h.keyMode = 1 then l1.take h.indexAt ++ [m.gen] ++ l1.drop (h.indexAt + 1) else l1
          let r := ccmStarSeal m.material (nonceOf eui fc level) l2 h.a len level
          ⟨0, [(0, l2.take h.a ++ r.1 ++ r.2)], fc⟩
        else
          let fc := fieldLe l h.fcAt 4
          if h.keyMode = 1 && byteAt l h.indexAt ≠ m.gen then ⟨7, [], fc⟩
          else
            let r := ccmStarOpen m.material (nonceOf eui fc level) l h.a len level
            if r.2 then ⟨0, if level < 4 then [] else [(h.a, r.1)], fc⟩ else ⟨1, [], fc⟩

/-- Whether the parameter block of Table 09.5 is in order for an algorithm (R328). -/
def paramOk (alg hdr : Nat) (l : List Nat) : Bool :=
  let n := byteAt l 0x10
  let t := byteAt l 0x11
  zeros l 0x12 0x20 && (match alg with
    | 1 => decide (7 ≤ n ∧ n ≤ 13) && zeros l n 16 && decide (4 ≤ t ∧ t ≤ 16) && t % 2 = 0
    | 2 => n = 12 && zeros l 12 16 && decide (12 ≤ t ∧ t ≤ 16)
    | _ => n = 0 && zeros l 0 16 && decide (1 ≤ t ∧ t ≤ 16) && hdr = 0)

/-- An ALG 1-3 job on chain bytes `l` (R328). -/
def runBlock (sealing : Bool) (alg hdr : Nat) (l : List Nat) (len : Nat) (key : List Nat) : Crypted :=
  let t := byteAt l 0x11
  let nonce := l.take (byteAt l 0x10)
  let a := slice l 0x20 (0x20 + hdr)
  let d := slice l (0x20 + hdr) (0x20 + len)
  let tag := slice l (0x20 + len) (0x20 + len + t)
  if alg = 3 then
    let mac := (cmac key d).take t
    if sealing then ⟨0, [(0x20 + len, mac)], 0⟩ else if mac = tag then ⟨0, [], 0⟩ else ⟨1, [], 0⟩
  else if sealing then
    let r := if alg = 1 then ccmSeal key nonce a d t else (gcmSeal key nonce a d)
    ⟨0, [(0x20 + hdr, r.1 ++ r.2.take t)], 0⟩
  else
    let r := if alg = 1 then ccmOpen key nonce a d tag
      else (ctrMode key (gcmCtr nonce) 2 d, decide ((gcmTag key nonce a d).take t = tag))
    if r.2 then ⟨0, [(0x20 + hdr, r.1)], 0⟩ else ⟨1, [], 0⟩

/-- The tag bytes a job reads or writes after its data. -/
def CryJob.tagLen (j : CryJob) (l : List Nat) : Nat := if j.alg = 0 then micLen j.level else byteAt l 0x11

/-- A whole-lane job's cryptography, its key at hand. -/
def State.runJob (s : State) (j : CryJob) (m : KeyMat) : Crypted :=
  let base := if j.alg = 0 then 0 else 0x20
  let l := s.chainBytes j.buf (base + j.len + 16)
  let need := base + j.len + j.tagLen l
  if j.early && (j.sealing || j.alg = 0 || j.alg = 3) then ⟨0x0A, [], 0⟩
  else if j.alg ≠ 0 && (j.level ≠ 0 || !paramOk j.alg j.hdrLen l || decide (j.len < j.hdrLen)) then ⟨0x0A, [], 0⟩
  else if s.chainLen j.buf < need then ⟨0x0D, [], 0⟩
  else if j.alg = 0 then s.runStar j.sealing j.level (some j.hdrLen) l j.len j.fc m
  else if !j.sealing && !j.early && decide (2048 < j.len - j.hdrLen) then ⟨0x0B, [], 0⟩
  else runBlock j.sealing j.alg j.hdrLen l j.len m.material

/-! ### Lanes (R322-R324) -/

/-- Contexts of a lane, and whether it runs a whole-lane job or is out of service. -/
def State.contexts (s : State) (cl : Nat) : Nat := (s.cry.ctxs.filter (fun e => e.1 / 16 = cl)).length
def State.wholeOn (s : State) (cl : Nat) : Bool := (find s.cry.whole cl).isSome
def State.laneFault (s : State) (cl : Nat) : Bool := bit (s.fld CRY.LANE_FAULT_MAP) cl

/-- Whether a lane still holds a completion it cannot place. -/
def State.laneIdle (s : State) (cl : Nat) : Bool :=
  s.contexts cl = 0 && !s.wholeOn cl && !s.laneFault cl && !s.holds 2 cl

/-- The context a receive job takes: its key in Cry.ctxs (R323). -/
def State.freeCtx (s : State) : Option Nat :=
  let cl := match firstBelow 24 (fun c => decide (0 < s.contexts c ∧ s.contexts c < 16) && !s.wholeOn c && !s.laneFault c) with
    | some c => some c
    | none => s.allot 3 (allBelow 24 s.laneIdle)
  cl.bind (fun c => (firstBelow 16 (fun a => (find s.cry.ctxs (c * 16 + a)).isNone)).map (fun a => c * 16 + a))

/-- CRY_CTL.DRAINED and EV_CRY_DRAINED, once a disabled engine holds nothing (R348). -/
def cryDrain : Effect := ask fun s =>
  when (!s.flag CRY.CRY_CTL_EN && !s.flag CRY.CRY_CTL_DRAINED && s.cry.ctxs.isEmpty && s.cry.whole.isEmpty && s.cry.jobq.isEmpty &&
      s.cry.macq.isEmpty && s.cry.atomq.isEmpty && s.cry.disq.isEmpty && !s.tm.held.any (fun h => h.source = 2))
    (seq [setFld CRY.CRY_CTL_DRAINED 1, fire 73 0])

/-! ### Receive jobs (R325, R336, R340, R341) -/

/-- A receive job that takes no context: its frame is handled as a decryption failure. -/
def loseFrame (b : Nat) : Effect := ask fun s => match find s.fwd.decisions b with
  | some d => match d.frame with
    | some f => seq [withdraw b, freeChain f.buf]
    | none => seq [
        setKey fun q => { q with loads := q.loads.filter (fun e => e.1 ≠ .decision b) },
        setFwd fun x => { x with decisions := x.decisions.map (fun e => if e.1 = b then (e.1, { e.2 with lost := true }) else e) }]
  | none => nothing

/-- Whether a descriptor has the form of Table 09.2. -/
def cryRxOk (d : Desc) : Bool :=
  let w3 := d.w3.toNat
  d.type = 8 && !d.poison && decide (d.port < 3) && validChan d.port d.chan && bits d.w0.toNat 15 14 = 0 && decide (0 < d.len) &&
    !bit d.w1.toNat 14 && decide (bits w3 12 6 < 96) && bits w3 31 14 = 0 &&
    (if bit d.w2.toNat 31 then bits d.w2.toNat 30 17 = 0 else bits d.w2.toNat 30 12 = 0)

/-- RX_JOB: the head of RX_RING is popped and takes a context, or is discarded; with no context free it stays. -/
def execRxJob := run (inDomain 16 (ask fun s =>
  let r := s.fld CRY.RX_CFG_RX_RING
  match (s.ring r).q with
  | [] => nothing
  | _ =>
    let ready := !s.flag CRY.CRY_CTL_EN || s.freeCtx.isSome
    when ready (pop r fun od => match od with
      | none => nothing
      | some d => ask fun s =>
        let mine := match find s.fwd.decisions d.buf with
          | some x => if x.opened && !x.lost && x.lane = bits d.w3.toNat 12 6 then some x else none
          | none => none
        match mine with
        | none => seq [count (CRY.CNT_HI 5), freeDesc d]
        | some x =>
          if !s.flag CRY.CRY_CTL_EN then seq [count (CRY.CNT_HI 6), loseFrame d.buf]
          else if !cryRxOk d then seq [count (CRY.CNT_HI 5), loseFrame d.buf]
          else match s.freeCtx with
            | none => nothing
            | some i => seq [
                yieldUnit 3 (i / 16),
                setFwd fun f => { f with decisions := eraseKey f.decisions d.buf },
                setCry fun c => { c with ctxs := insertKey c.ctxs i { lane := x.lane, d := d, frame := x.frame, decision := x } }])))

/-- A receive job's failure counts under its cause (R341, Table 09.14). -/
def rxFailCount (cl : Nat) (dec : Decision) (st : Nat) : Effect :=
  let node := refNode dec.ref
  let auth := fun (i replay : Nat) => fireFirst (CRY.CNT i) 0 68
    (node.getD 0 + b2n node.isSome * 2 ^ 17 + replay * 2 ^ 18 + cl * 2 ^ 19)
  match st with
  | 1 => seq [count (CRY.CNT_LO 0), auth 0 0]
  | 2 => seq [count (CRY.CNT_LO 1), auth 1 1]
  | 3 => count (CRY.CNT_HI 2)
  | 4 | 5 | 7 | 8 => count (CRY.CNT_LO 3)
  | 6 => count (CRY.CNT_LO 2)
  | 0x0A | 0x0B | 0x0D | 0x0E => count (CRY.CNT_HI 5)
  | 0x0C => count (CRY.CNT_HI 6)
  | _ => nothing

/-- Ends the receive job in context `i` without delivery: its chain returns to Flacon. -/
def endRx (i : Nat) (x : RxCtx) (d : Desc) (st : Nat) : Effect := seq [
  setCry fun c => { c with ctxs := eraseKey c.ctxs i }, rxFailCount (i / 16) x.decision st, freeChain d.buf, cryDrain]

/-- Delivers the verified frame of context `i` (Table 09.6 steps 5 and 6). -/
def deliverRx (i : Nat) (x : RxCtx) (d : Desc) (writes : List (Nat × List Nat)) : Effect := ask fun s =>
  let dec := x.decision
  seq [
    forEach writes (fun w => putChain d.buf w.1 w.2),
    setCry fun c => { c with ctxs := eraseKey c.ctxs i }, count (CRY.CNT_HI 0),
    if dec.paysel then seq [toMac dec d,
      setFwd fun f => { f with paysel := f.paysel ++ [(d.withNidx dec.nidx, rfCode d.port d.chan, dec.nidx)] }]
    else seq [when (!s.hasRoom dec.ring) (count (CRY.CNT_HI 3)), toClass dec d],
    cryDrain]

/-- RX_JOB_FINISH of the receive job in context area `a` of lane `cl`: verification, the counter check of R336 at MAC, the
learn, the plaintext and the delivery, each when what it needs is at hand. -/
def rxFinish (i : Nat) : Effect := ask fun s => match find s.cry.ctxs i with
  | none => nothing
  | some x => match x.frame, x.dead, x.decision.key with
    | none, _, _ => nothing
    | some d, some st, _ => endRx i x d st
    | some _, none, none => nothing
    | some d, none, some (st, none) => endRx i x d st
    | some d, none, some (_, some m) =>
      let l := s.chainBytes d.buf d.len
      let level := match secHdr l with
        | some h => h.level
        | none => 0
      let r := s.runStar false level none l (d.len - 2 - micLen level) 0 m
      if r.status ≠ 0 then endRx i x d r.status
      else if x.verified then when (x.decision.learn = 2) (deliverRx i x d r.writes)
      else
        let good := seq [
          setCry fun c => { c with ctxs := c.ctxs.map (fun e => if e.1 = i then (e.1, { e.2 with verified := true }) else e) },
          when x.decision.managed (presentLearn x.decision d),
          ask fun s => match find s.cry.ctxs i with
            | some y => when (y.decision.learn = 2) (deliverRx i y d r.writes)
            | none => nothing]
        match refNode x.decision.ref with
        | none => good
        | some node => withNode node fun n => ask fun s =>
            if r.detail ≠ 0xFFFFFFFF && (n.fcRx < r.detail || n.rxCount = 0) then
              seq [putNode node { n with fcRx := r.detail }, good]
            else if r.detail = n.fcRx && decide ((tdiff (BitVec.ofNat 64 d.sfd) (BitVec.ofNat 64 n.lastHeard)).natAbs
                ≤ s.fld CRY.RX_CFG_COPY_WINDOW * 1000000) then seq [
              match s.learns x.decision, x.decision.src with
              | true, some (kind, key) => pushLearn kind key (rfCode d.port d.chan) (byteAt (s.record d) 2) false 0 true none
              | _, _ => nothing,
              endRx i x d 3]
            else endRx i x d 2
def execRxJobFinish (cl : Fin 24) (a : Fin 16) := run (inDomain 16 (rxFinish (cl * 16 + a)))

/-! ### Whole-lane jobs (R324, R342-R346) -/

/-- Tells a job's owner how it ended (R346): `len` is the length its completion returns. -/
def tellOwner (cl : Nat) (j : CryJob) (st len detail : Nat) : Effect := match j.owner with
  | .program => complete 2 cl j.cring (completion 2 st len j.buf cl detail j.tag.toNat)
  | .mac owner ident => if st = 0 then nothing else ask fun s =>
      match s.bb.staged.find? (fun x => x.owner = owner && x.ident = ident) with
      | some x => endTx x 6
      | none => nothing
  | .atom job => if st = 0 then seq [mapJob job fun x => { x with len := len + 2 }, stageJob job] else skipJob job
  | .dis ident => setCry fun c => { c with disDone := c.disDone ++ [(ident, st)] }

/-- Counts a whole-lane job's end (Table 09.14). -/
def jobCount (j : CryJob) (st : Nat) : Effect := match st with
  | 0 => if j.sealing then count (CRY.CNT_HI 1) else count (CRY.CNT_HI 0)
  | 1 => count (CRY.CNT_LO 0)
  | 4 | 5 | 7 | 8 => count (CRY.CNT_LO 3)
  | 6 => count (CRY.CNT_LO 2)
  | 0x0A | 0x0B | 0x0D | 0x0E | 0x12 => count (CRY.CNT_HI 5)
  | 0x0F => count (CRY.CNT_LO 6)
  | _ => nothing

/-- Ends the job of lane `cl`. -/
def endJob (cl : Nat) (j : CryJob) (st len detail : Nat) : Effect := seq [
  setCry fun c => { c with whole := eraseKey c.whole cl }, jobCount j st, tellOwner cl j st len detail, cryDrain]

/-- A job is submitted: it joins its source's queue, or ends at once on a disabled engine (R348). -/
def submitJob (j : CryJob) : Effect := ask fun s =>
  if !s.flag CRY.CRY_CTL_EN then tellOwner 0 j 0x0C j.len 0
  else match j.owner with
    | .program => setCry fun c => { c with jobq := c.jobq ++ [j] }
    | .mac _ _ => setCry fun c => { c with macq := c.macq ++ [j] }
    | .atom _ => setCry fun c => { c with atomq := c.atomq ++ [j] }
    | .dis _ => setCry fun c => { c with disq := c.disq ++ [j] }

/-- The queue of a round-robin source: 0 the Atomiser, 1 DIS, 2 programs. -/
def Cry.queue (c : Cry) (i : Nat) : List CryJob := if i = 0 then c.atomq else if i = 1 then c.disq else c.jobq
def Cry.dropHead (c : Cry) (i : Nat) : Cry :=
  if i = 0 then { c with atomq := c.atomq.drop 1 } else if i = 1 then { c with disq := c.disq.drop 1 } else { c with jobq := c.jobq.drop 1 }

/-- WHOLE_LANE_DISPATCH: the lowest idle lane takes the next whole-lane job, MAC's first (R323, R324); its key load goes to
KEY unless its submitter made it. -/
def execWholeLaneDispatch := run (inDomain 16 (ask fun s =>
  match s.allot 3 (allBelow 24 s.laneIdle) with
  | none => nothing
  | some cl =>
    let take := fun (j : CryJob) => seq [yieldUnit 3 cl, setCry fun c => { c with whole := insertKey c.whole cl j },
      when (j.key = none) (queueLoad (.whole cl) j.ref)]
    when (decide (s.cry.whole.length < s.fld CRY.CRY_EXP_MAX_WHOLE)) (match s.cry.macq with
      | j :: rest => seq [setCry fun c => { c with macq := rest }, take j]
      | [] => match ([1, 2, 3].map (fun i => (s.cry.rr + i) % 3)).find? (fun i => !(s.cry.queue i).isEmpty) with
        | none => nothing
        | some i => match s.cry.queue i with
          | j :: _ => seq [setCry fun c => { c.dropHead i with rr := i }, take j]
          | [] => nothing)))

/-- The buffers of an early job's chain that it releases, each with the offset and number of its encrypted bytes: all that
hold encrypted bytes but the last (R343). -/
def State.slices (s : State) (j : CryJob) : List (Nat × Nat × Nat) :=
  let lo := 0x20 + j.hdrLen
  let hi := 0x20 + j.len
  let rec go (at_ : Nat) : List Nat → List (Nat × Nat × Nat)
    | [] => []
    | b :: bs =>
      let e := at_ + s.fill b
      if max at_ lo < min e hi ∧ e < hi then (b, max at_ lo - at_, min e hi - max at_ lo) :: go e bs else go e bs
  go 0 (s.chain j.buf)

/-- The plaintext of the `k`th slice of an early job is written, and its SLICE pushed. -/
def pushSlice (cl k : Nat) (j : CryJob) (m : KeyMat) : Effect := ask fun s => match (s.slices j)[k]? with
  | none => nothing
  | some (b, off, n) =>
    let l := s.chainBytes j.buf (0x20 + j.len)
    let skip := ((s.slices j).take k).map (fun e => e.2.2) |>.sum
    -- the key stream of the whole encrypted part, of which this slice takes its own bytes
    let zero := List.replicate (skip + n) 0
    let stream := if j.alg = 1 then ctrMode m.material (ccmCtr (l.take (byteAt l 0x10))) 1 zero
      else ctrMode m.material (gcmCtr (l.take 12)) 2 zero
    let ring := s.fld CRY.CRY_EXP_SLICE_RING
    seq [putBytes (bufAddr b + off) (xorBytes (s.bytes (bufAddr b + off) n) (stream.drop skip)),
      complete 2 cl ring (completion 2 0x10 0 0 cl (b + off * 2 ^ 14 + n * 2 ^ 22) j.tag.toNat),
      count (CRY.CNT_HI 4),
      setCry fun c => { c with whole := c.whole.map (fun e => if e.1 = cl then (e.1, { e.2 with slices := k + 1 }) else e) }]

/-- The released slices of a chain, taken back to their ciphertext for the tag's check, and the rest of the plaintext. -/
def State.earlyCheck (s : State) (j : CryJob) (m : KeyMat) : Crypted :=
  let l := s.chainBytes j.buf (0x20 + j.len + 16)
  let skip := ((s.slices j).map (fun e => e.2.2)).sum
  let nonce := l.take (byteAt l 0x10)
  let ctr := fun (x : List Nat) => if j.alg = 1 then ctrMode m.material (ccmCtr nonce) 1 x else ctrMode m.material (gcmCtr nonce) 2 x
  let d := slice l (0x20 + j.hdrLen) (0x20 + j.len)
  let mask := (ctr (List.replicate d.length 0)).take skip ++ List.replicate (d.length - skip) 0
  let c := xorBytes d mask
  let r := runBlock false j.alg j.hdrLen (l.take (0x20 + j.hdrLen) ++ c ++ l.drop (0x20 + j.len)) j.len m.material
  ⟨r.status, r.writes, 0⟩

/-- Marks the SLICE descriptors of a failed job that are still on SLICE_RING as poisoned, and goes on with their number
(R344). -/
def poisonSlices (cl : Nat) (j : CryJob) (k : Nat → Effect) : Effect := ask fun s =>
  let n := s.fld CRY.CRY_EXP_SLICE_RING
  let r := s.ring n
  let mine := fun (e : RingEntry) => e.d.type = 5 && bits e.d.w0.toNat 15 8 = 0x10 && bits e.d.w1.toNat 21 16 = cl && e.d.w3 = j.tag &&
    !e.d.poison
  let bad := fun (d : Desc) => { d with w0 := BitVec.ofNat 32 (putBit d.w0.toNat 4 true) }
  let hit := r.q.filter mine
  seq [setRing n { r with q := r.q.map (fun e => if mine e then { e with d := bad e.d } else e) },
    forEach hit (fun e => putBytes (s.slotAddr n e.slot) (dramSlot (bad e.d) e.stamp false)),
    k hit.length]

/-- CIPHER_JOB_END of the whole-lane job in lane `cl`. An early job releases one slice at each occurrence until none is
left. -/
def jobEnd (cl : Nat) : Effect := ask fun s => match find s.cry.whole cl with
  | none => nothing
  | some j => match j.dead, j.key with
    | some st, _ => endJob cl j st j.len 0
    | none, none => nothing
    | none, some (st, none) => endJob cl j st j.len 0
    | none, some (_, some m) =>
      let r := s.runJob j m
      let ring := s.fld CRY.CRY_EXP_SLICE_RING
      if j.early && r.status ≠ 0x0A && r.status ≠ 0x0D then
        if !s.flag CRY.CRY_EXP_EARLY_EN || s.shallow ring then endJob cl j 0x12 j.len 0
        else if j.slices < (s.slices j).length then when (!s.holds 2 cl) (pushSlice cl j.slices j m)
        else
          let e := s.earlyCheck j m
          if e.status = 0 then seq [forEach e.writes (fun w => putChain j.buf w.1 w.2), endJob cl j 0 j.len 0]
          else poisonSlices cl j fun k => seq [
            complete 2 cl j.cring (completion 2 0x11 0 0 cl (min j.slices 255 + min k 255 * 2 ^ 8) j.tag.toNat),
            count (CRY.CNT_LO 4), fire 69 (cl + min j.slices 255 * 2 ^ 8),
            endJob cl j 1 j.len 0]
      else if r.status = 0 then
        let l := s.chainBytes j.buf 0x20
        seq [forEach r.writes (fun w => putChain j.buf w.1 w.2),
          endJob cl j 0 (if j.sealing then j.len + j.tagLen l else j.len) r.detail]
      else endJob cl j r.status j.len r.detail

/-- LANE_PARITY_ERROR's effect on cipher lane `cl`: in a whole-lane job, or in context area `a` (R347). -/
def laneParity (cl a : Nat) : Effect := ask fun s => seq [
  setFld CRY.LANE_FAULT_MAP (putBit (s.fld CRY.LANE_FAULT_MAP) cl true), fire 72 cl,
  match find s.cry.whole cl with
  | some j => endJob cl j 0x0F j.len 0
  | none => when ((find s.cry.ctxs (cl * 16 + a)).isSome) (seq [count (CRY.CNT_LO 6),
      setCry fun c => { c with ctxs := c.ctxs.map (fun e => if e.1 = cl * 16 + a then (e.1, { e.2 with dead := some 0x0F }) else e) }])]

/-- CRY_ENABLE and CRY_DISABLE (R348). -/
def cryEnable : Effect := seq [setFld CRY.CRY_CTL_EN 1, setFld CRY.CRY_CTL_DRAINED 0]
def cryDisable : Effect := ask fun s => when (s.flag CRY.CRY_CTL_EN) (seq [
  setFld CRY.CRY_CTL_EN 0,
  setCry fun c => { c with jobq := [], macq := [], atomq := [], disq := [] },
  forEach (s.cry.macq ++ s.cry.atomq ++ s.cry.disq ++ s.cry.jobq) (fun j => tellOwner 0 j 0x0C j.len 0),
  cryDrain])
def execCryEnable := run (inDomain 16 cryEnable)
def execCryDisable := run (inDomain 16 cryDisable)

end Sys2Proof.Machine
end

