-- ==== Sys2Proof/Machine/Lowpan.lean ====
section
/-!
DEFINITION. 6LoWPAN on byte strings: the mesh, BC0 and fragment headers of RFC 4944, and header compression of RFC 6282
with the features of chapter 07 (R283, R285-R287).
-/
namespace Sys2Proof.Machine

/-- A link-layer address: kind 0 an EUI-64, 1 a short address. -/
abbrev LinkAddr := Nat × Nat

/-- The interface identifier of a link-layer address, 8 bytes (RFC 4944, RFC 6282). -/
def iidOf (a : LinkAddr) : List Nat :=
  if a.1 = 0 then beBytes (Nat.xor a.2 (2 ^ 57)) 8 else [0, 0, 0, 0xFF, 0xFE, 0] ++ beBytes (a.2 % 65536) 2

/-- The mesh header: originator, final address, hops left, and its length (RFC 4944, dispatch 10). -/
structure MeshHdr where
  orig : LinkAddr
  final : LinkAddr
  hops : Nat
  len : Nat
  deriving DecidableEq, Repr

def parseMesh (l : List Nat) : Option MeshHdr :=
  let b := l.getD 0 0
  if b / 64 ≠ 2 then none
  else
    let deep := b % 16 = 15
    let p := if deep then 2 else 1
    let on := if bit b 5 then 2 else 8
    let fn := if bit b 4 then 2 else 8
    if l.length < p + on + fn then none
    else some { orig := (b2n (bit b 5), ofBe ((l.drop p).take on)), final := (b2n (bit b 4), ofBe ((l.drop (p + on)).take fn))
                hops := if deep then l.getD 1 0 else b % 16, len := p + on + fn }

/-- A mesh header from a short originator to a EUI-64. -/
def meshBytes (short eui hops : Nat) : List Nat := (0x80 + 0x20 + hops) :: beBytes short 2 ++ beBytes eui 8

/-- A fragment header: size, tag, offset in bytes, and its length. -/
def parseFrag (l : List Nat) : Option (Nat × Nat × Nat × Nat) :=
  let b := l.getD 0 0
  let size := b % 8 * 256 + l.getD 1 0
  let tag := l.getD 2 0 * 256 + l.getD 3 0
  if b / 8 = 0x18 ∧ 4 ≤ l.length then some (size, tag, 0, 4)
  else if b / 8 = 0x1C ∧ 5 ≤ l.length then some (size, tag, 8 * l.getD 4 0, 5)
  else none
def isFrag1 (l : List Nat) : Bool := l.getD 0 0 / 8 = 0x18

/-- A fragment header; the first fragment has offset 0. -/
def fragBytes (size tag off : Nat) : List Nat :=
  if off = 0 then [0xC0 + size / 256, size % 256] ++ beBytes tag 2 else [0xE0 + size / 256, size % 256] ++ beBytes tag 2 ++ [off / 8]

/-! ### Decompression -/

/-- Takes `n` bytes. A parse answers with what it read and the bytes left, or with the REASON of Table 07.11 that stops it. A frame too short is not a packet of a supported dispatch. -/
def takeB (n : Nat) (l : List Nat) : Except Nat ((List Nat) × List Nat) := if l.length < n then .error 1 else .ok (l.take n, l.drop n)

/-- Traffic class and flow label, from TF. -/
def parseTf (tf : Nat) (l : List Nat) : Except Nat ((Nat × Nat) × List Nat) :=
  let tc := fun (b : Nat) => b % 64 * 4 + b / 64
  match tf with
  | 0 => do let (x, r) ← takeB 4 l; pure ((tc (x.getD 0 0), x.getD 1 0 % 16 * 65536 + x.getD 2 0 * 256 + x.getD 3 0), r)
  | 1 => do let (x, r) ← takeB 3 l; pure ((x.getD 0 0 / 64, x.getD 0 0 % 16 * 65536 + x.getD 1 0 * 256 + x.getD 2 0), r)
  | 2 => do let (x, r) ← takeB 1 l; pure ((tc (x.getD 0 0), 0), r)
  | _ => pure ((0, 0), l)

/-- A unicast address: `ctx` is the context's prefix, where the form uses one. -/
def parseUni (stateful : Bool) (mode : Nat) (ctx : Option (List Nat)) (link : LinkAddr) (l : List Nat) : Except Nat ((List Nat) × List Nat) :=
  let with_ := fun (pre : List Nat) => match mode with
    | 1 => do let (x, r) ← takeB 8 l; pure (pre ++ x, r)
    | 2 => do let (x, r) ← takeB 2 l; pure (pre ++ [0, 0, 0, 0xFF, 0xFE, 0] ++ x, r)
    | _ => pure (pre ++ iidOf link, l)
  if !stateful then (if mode = 0 then takeB 16 l else with_ [0xFE, 0x80, 0, 0, 0, 0, 0, 0])
  else match ctx with
    | some p => with_ p
    | none => .error 4

/-- A multicast address without context. -/
def parseMulti (mode : Nat) (l : List Nat) : Except Nat ((List Nat) × List Nat) :=
  let z := fun n => List.replicate n 0
  match mode with
  | 0 => takeB 16 l
  | 1 => do let (x, r) ← takeB 6 l; pure ([0xFF, x.getD 0 0] ++ z 9 ++ x.drop 1, r)
  | 2 => do let (x, r) ← takeB 4 l; pure ([0xFF, x.getD 0 0] ++ z 11 ++ x.drop 1, r)
  | _ => do let (x, r) ← takeB 1 l; pure ([0xFF, 0x02] ++ z 13 ++ x, r)

/-- Decompressed next headers: bytes, the first next-header value, and where an elided UDP checksum stands in them. -/
structure Nexts where
  first : Nat
  bytes : List Nat
  sum : Option Nat := none
  deriving DecidableEq, Repr

/-- The padding that fills an options header to a multiple of 8 bytes. -/
def padN (n : Nat) : List Nat := if n = 0 then [] else if n = 1 then [0] else [1, n - 2] ++ List.replicate (n - 2) 0

/-- Next headers in NHC form; `fuel` bounds their number. UDP's length stays 0 until the packet's length is known. -/
def parseNhc : Nat → List Nat → Except Nat (Nexts × List Nat)
  | 0, _ => .error 2
  | fuel + 1, l => do
    let (b, r) ← takeB 1 l
    let b := b.getD 0 0
    if b / 16 = 0xE then
      let eid := b / 2 % 8
      if 4 ≤ eid then .error 2
      else
        let (nh, r) ← (if bit b 0 then pure ([0], r) else takeB 1 r)
        let (n, r) ← takeB 1 r
        let (data, r) ← takeB (n.getD 0 0) r
        let pad := (8 - (data.length + 2) % 8) % 8
        let full := data ++ (if eid = 0 ∨ eid = 3 then padN pad else List.replicate pad 0)
        let id := if eid = 0 then 0 else if eid = 1 then 43 else if eid = 2 then 44 else 60
        let hdr := fun (next : Nat) => [next, (full.length + 2) / 8 - 1] ++ full
        if bit b 0 then
          let (x, r) ← parseNhc fuel r
          pure ({ first := id, bytes := hdr x.first ++ x.bytes, sum := x.sum.map (· + full.length + 2) }, r)
        else pure ({ first := id, bytes := hdr (nh.getD 0 0) }, r)
    else if b / 8 = 0x1E then
      let (ports, r) ← (match b % 4 with
        | 0 => takeB 4 r
        | 1 => do let (x, r) ← takeB 3 r; pure (x.take 2 ++ [0xF0, x.getD 2 0], r)
        | 2 => do let (x, r) ← takeB 3 r; pure ([0xF0] ++ x, r)
        | _ => do let (x, r) ← takeB 1 r; pure ([0xF0, 0xB0 + x.getD 0 0 / 16, 0xF0, 0xB0 + x.getD 0 0 % 16], r))
      if bit b 2 then pure ({ first := 17, bytes := ports ++ [0, 0, 0, 0], sum := some 6 }, r)
      else
        let (c, r) ← takeB 2 r
        pure ({ first := 17, bytes := ports ++ [0, 0] ++ c }, r)
    else .error 2

/-- Where a UDP header that NHC produced stands in the next headers: the last 8 bytes. -/
def Nexts.udp (x : Nexts) : Bool := x.first = 17 || decide (8 < x.bytes.length)

/-- A decompressed header: IPv6 header, next headers and whether the last is UDP from NHC; what follows it is payload. -/
structure IpHdr where
  head : List Nat
  nexts : List Nat
  udpAt : Option Nat
  elided : Bool
  deriving DecidableEq, Repr

def IpHdr.len (h : IpHdr) : Nat := h.head.length + h.nexts.length

/-- The offset of the UDP header among decompressed next headers. -/
def udpOffset : Nat → Nat → List Nat → Nat → Option Nat
  | 0, _, _, _ => none
  | fuel + 1, nh, l, at_ =>
    if nh = 17 then some at_
    else if l.length < 8 then none
    else udpOffset fuel (l.getD 0 0) (l.drop ((l.getD 1 0 + 1) * 8)) (at_ + (l.getD 1 0 + 1) * 8)

/-- Decompresses the header at the front of `l` (dispatch 0x41 or IPHC); `ctx k` is context k's prefix if valid. -/
def decompress (ctx : Nat → Option (List Nat)) (src dst : LinkAddr) (l : List Nat) : Except Nat (IpHdr × List Nat) := do
  let b := l.getD 0 0
  if b = 0x41 then
    let (h, r) ← takeB 40 (l.drop 1)
    pure (⟨h, [], none, false⟩, r)
  else if b / 32 ≠ 3 then .error 1
  else
    let (hd, r) ← takeB 2 l
    let b0 := hd.getD 0 0
    let b1 := hd.getD 1 0
    let (cid, r) ← (if bit b1 7 then takeB 1 r else pure ([0], r))
    let (tf, r) ← parseTf (bits b0 4 3) r
    let (nh, r) ← (if bit b0 2 then pure ([0], r) else takeB 1 r)
    let (hl, r) ← (match b0 % 4 with
      | 0 => takeB 1 r
      | 1 => pure ([1], r)
      | 2 => pure ([64], r)
      | _ => pure ([255], r))
    let (sa, r) ← (if bit b1 6 && bits b1 5 4 = 0 then pure (List.replicate 16 0, r)
      else parseUni (bit b1 6) (bits b1 5 4) (ctx (cid.getD 0 0 / 16)) src r)
    let (da, r) ← (match bit b1 3, bit b1 2 with
      | false, false => parseUni false (b1 % 4) none dst r
      | false, true => if b1 % 4 = 0 then .error 1 else parseUni true (b1 % 4) (ctx (cid.getD 0 0 % 16)) dst r
      | true, false => parseMulti (b1 % 4) r
      | true, true => if b1 % 4 ≠ 0 then .error 1 else match ctx (cid.getD 0 0 % 16) with
          | some p => do let (x, r) ← takeB 6 r; pure ([0xFF] ++ x.take 2 ++ [64] ++ p ++ x.drop 2, r)
          | none => .error 4)
    let (nx, r) ← (if bit b0 2 then parseNhc 8 r else pure ({ first := nh.getD 0 0, bytes := [] }, r))
    let word := 6 * 2 ^ 28 + tf.1 * 2 ^ 20 + tf.2
    pure (⟨beBytes word 4 ++ [0, 0, nx.first, hl.getD 0 0] ++ sa ++ da, nx.bytes,
      if bit b0 2 then udpOffset 8 nx.first nx.bytes 0 else none, nx.sum.isSome⟩, r)

/-- The one's-complement sum of 16-bit words. -/
def sum16 : Nat → List Nat → Nat
  | acc, a :: b :: l => sum16 ((acc + a * 256 + b) % 65536 + (acc + a * 256 + b) / 65536) l
  | acc, [a] => (acc + a * 256) % 65536 + (acc + a * 256) / 65536
  | acc, [] => acc

/-- The UDP checksum of a datagram (header with checksum 0, then payload) under its addresses (RFC 8200). -/
def udpSum (head datagram : List Nat) : Nat :=
  let s := sum16 0 ((head.drop 8).take 32 ++ beBytes datagram.length 4 ++ [0, 0, 0, 17] ++ datagram)
  let s := s % 65536 + s / 65536
  let c := 65535 - s % 65536
  if c = 0 then 65535 else c

/-- The finished headers of a packet with `payload` after them: lengths and an elided checksum filled in. -/
def IpHdr.finish (h : IpHdr) (payload : List Nat) : List Nat :=
  let n := h.nexts.length + payload.length
  let plain := h.nexts.isEmpty
  let nexts := match h.udpAt with
    | none => h.nexts
    | some k =>
      let len := beBytes ((h.nexts.length - k + payload.length) % 65536) 2
      let u := h.nexts.take (k + 4) ++ len ++ h.nexts.drop (k + 6)
      if h.elided then u.take (k + 6) ++ beBytes (udpSum h.head (u.drop k ++ payload)) 2 else u
  if plain && ofBe ((h.head.drop 4).take 2) ≠ 0 then h.head ++ nexts
  else h.head.take 4 ++ beBytes (n % 65536) 2 ++ h.head.drop 6 ++ nexts

/-! ### Compression (assumption 21: which of RFC 6282's forms the block picks) -/

/-- The stateless or context form of a unicast address: (stateful, mode, context, inline bytes). -/
def compressUni (ctx : Nat → Option (List Nat)) (link : LinkAddr) (a : List Nat) : Bool × Nat × Nat × List Nat :=
  let iid := a.drop 8
  let rest := if iid = iidOf link then (3, []) else if iid.take 6 = [0, 0, 0, 0xFF, 0xFE, 0] then (2, iid.drop 6) else (1, iid)
  if a.take 8 = [0xFE, 0x80, 0, 0, 0, 0, 0, 0] then (false, rest.1, 0, rest.2)
  else match firstBelow 16 (fun k => ctx k = some (a.take 8)) with
    | some k => (true, rest.1, k, rest.2)
    | none => if a = List.replicate 16 0 then (true, 0, 0, []) else (false, 0, 0, a)

/-- The form of a multicast address without context. -/
def compressMulti (a : List Nat) : Nat × List Nat :=
  let z := fun (i n : Nat) => ((a.drop i).take n).all (· = 0)
  if a.take 2 = [0xFF, 0x02] && z 2 13 then (3, a.drop 15)
  else if z 2 11 then (2, [a.getD 1 0] ++ a.drop 13)
  else if z 2 9 then (1, [a.getD 1 0] ++ a.drop 11)
  else (0, a)

/-- UDP in NHC form, its checksum carried. -/
def compressUdp (u : List Nat) : List Nat :=
  let s := ofBe (u.take 2)
  let d := ofBe ((u.drop 2).take 2)
  let c := (u.drop 6).take 2
  if s / 16 = 0xF0B ∧ d / 16 = 0xF0B then [0xF3, s % 16 * 16 + d % 16] ++ c
  else if d / 256 = 0xF0 then [0xF1] ++ u.take 2 ++ [d % 256] ++ c
  else if s / 256 = 0xF0 then [0xF2, s % 256] ++ beBytes d 2 ++ c
  else [0xF0] ++ u.take 4 ++ c

/-- Compresses an IPv6 packet's header, with its UDP header where one follows: the compressed bytes and how many bytes of
the packet they stand for. -/
def compress (ctx : Nat → Option (List Nat)) (src dst : LinkAddr) (p : List Nat) : List Nat × Nat :=
  let g := fun i => p.getD i 0
  let tc := g 0 % 16 * 16 + g 1 / 16
  let fl := g 1 % 16 * 65536 + g 2 * 256 + g 3
  let ecnDscp := tc % 4 * 64 + tc / 4
  let (tf, tfB) := if fl = 0 then (if tc = 0 then (3, []) else (2, [ecnDscp]))
    else if tc / 4 = 0 then (1, [tc % 4 * 64 + fl / 65536] ++ beBytes (fl % 65536) 2)
    else (0, [ecnDscp, fl / 65536] ++ beBytes (fl % 65536) 2)
  let udp := g 6 = 17 && decide (48 ≤ p.length)
  let (hl, hlB) := if g 7 = 1 then (1, []) else if g 7 = 64 then (2, []) else if g 7 = 255 then (3, []) else (0, [g 7])
  let (ss, sm, sc, sB) := compressUni ctx src ((p.drop 8).take 16)
  let da := (p.drop 24).take 16
  let multi := g 24 = 0xFF
  let (ds, dm, dc, dB) := if multi then let x := compressMulti da; (false, x.1, 0, x.2)
    else let x := compressUni ctx dst da; if x.1 && x.2.1 = 0 then (false, 0, 0, da) else x
  let cid := sc ≠ 0 || dc ≠ 0
  ([0x60 + tf * 8 + b2n udp * 4 + hl, b2n cid * 128 + b2n ss * 64 + sm * 16 + b2n multi * 8 + b2n ds * 4 + dm]
    ++ (if cid then [sc * 16 + dc] else []) ++ tfB ++ (if udp then [] else [g 6]) ++ hlB ++ sB ++ dB
    ++ (if udp then compressUdp ((p.drop 40).take 8) else []), if udp then 48 else 40)

end Sys2Proof.Machine
end

