-- ==== Sys2Proof/Machine/Fwd.lean ====
section
/-!
DEFINITION. FWD's commands on the node table (R259, R268, R271-R275), payload selection (R263), the Atomiser's jobs
(R279-R282), and enabling and disabling FWD (R288).
-/
namespace Sys2Proof.Machine

open Sys2Proof

/-- FWD holds no decision, learn, reassembly or job after a disable (R288). -/
def fwdDrain : Effect := ask fun s =>
  when (!s.flag FWD.FWD_CTL_EN && !s.flag FWD.FWD_CTL_DRAINED && s.fwd.decisions.isEmpty && s.fwd.learns.isEmpty &&
      s.fwd.reasm.isEmpty && s.fwd.jobs.isEmpty && s.fwd.paysel.isEmpty && s.fwd.upward.isEmpty)
    (seq [setFld FWD.FWD_CTL_DRAINED 1, fire 56 0])

/-! ### Passes over the table -/

/-- The ways of a bank that hold anything, as (bucket, way). -/
def State.places (s : State) (bank : Nat) : List (Nat × Nat) :=
  let lo := 0x10500000 + bank * 0x40000
  let l := (s.mem.filter (fun e => decide (lo ≤ e.1 ∧ e.1 < lo + 0x40000))).map (fun e => (e.1 - lo) / 16)
  (l.eraseDups).map (fun i => (i / 4 * 16 + bank, i % 4))

/-- The background pass at one way: parity, and HOLD cleared on an entry whose tick age is at least 128. -/
def holdVisit (b w : Nat) : Effect := seq [checkEnt b w, ask fun s =>
  let e := s.ent b w
  when (e.valid && e.hold && decide (128 ≤ (s.tick + 256 - e.stamp) % 256)) (putEnt b w { e with hold := false })]

/-- HOLD_SWEEP: the background pass, once in each 64 ms of ATB. -/
def execHoldSweep := run (inDomain 2 (ask fun s =>
  let period := s.ns / 64000000
  when (s.fwd.holdAt ≠ some period) (seq [setFwd fun f => { f with holdAt := some period },
    forEach (List.range 16) (fun k => ask fun s => forEach (s.places k) (fun p => holdVisit p.1 p.2))])))

/-- The spacing of one bank's visits, in 1/32 ns. -/
def State.ageStep (s : State) : Nat := s.fld FWD.AGE_CFG_AGE_PERIOD * 1953125

/-- One entry of an aging pass (R271). -/
def ageEntry (b w : Nat) : Effect := seq [checkEnt b w, ask fun s =>
  let e := s.ent b w
  if !e.valid || e.managed then nothing
  else if e.hit then putEnt b w { e with hit := false, strike := false }
  else if !e.strike then putEnt b w { e with strike := true }
  else setFwd fun f => { f with removals := f.removals ++ [(b % 16, b / 16, w, e.gen)] }]

/-- AGE_VISIT: a bank's sweeper visits its next entry when it is due. AGE_FREEZE suspends the entry's part of the visit. -/
def execAgeVisit (bank : Fin 16) := run (inDomain 2 (ask fun s =>
  let (pos, last) := getD s.fwd.sweep bank.val (0, 0)
  let now := s.ns * 32
  let first := (find s.fwd.sweep bank.val).isNone
  let due := first || decide (last + s.ageStep ≤ now)
  let at_ := if first || decide (last + 2 * s.ageStep ≤ now) then now else last + s.ageStep
  when (decide (0 < s.fld FWD.AGE_CFG_AGE_PERIOD) && due) (seq [
    setFwd fun f => { f with sweep := insertKey f.sweep bank ((pos + 1) % 16384, at_) },
    when (!s.flag FWD.FWD_EXP_AGE_FREEZE) (ageEntry (pos / 4 * 16 + bank) (pos % 4))])))

/-- AGE_REMOVAL: a bank's oldest removal is made if GEN and HIT still match. -/
def execAgeRemoval (bank : Fin 16) := run (inDomain 2 (ask fun s =>
  match s.fwd.removals.find? (fun r => r.1 = bank.val) with
  | none => nothing
  | some r =>
    let b := r.2.1 * 16 + bank
    let w := r.2.2.1
    seq [setFwd fun f => { f with removals := f.removals.erase r }, checkEnt b w, ask fun s =>
      let e := s.ent b w
      when (e.valid && e.gen = r.2.2.2 && !e.hit) (seq [dropEnt b w, count (FWD.COUNT_HI 5)])]))

/-- HASH_SEED_WRITE (R259). -/
def hashSeedWrite (v : Nat) : Effect := ask fun s =>
  if s.flag FWD.WINDOW_LOCK_LOCK then nothing
  else if s.flag FWD.FWD_CTL_EN || s.fld FWD.STATUS_ENTRIES ≠ 0 then setFld FWD.STATUS_SEEDREJ 1
  else setFld FWD.HASH_SEED_SEED v
def execHashSeedWrite (v : Word) := run (inDomain 2 (hashSeedWrite v.toNat))

/-! ### Table operations (R274, R275) -/

/-- The learns waiting in a bank's queue commit. -/
def drainBank (bank : Nat) : Effect := ask fun s => forEach (s.fwd.learns.filter (fun x => x.bank = bank)) (fun x => seq [
  setFwd fun f => { f with learns := f.learns.erase x }, learnCommit x])

/-- The key of TKEY. -/
def State.tkey (s : State) : Nat := s.pair FWD.TKEY_LO FWD.TKEY_HI

/-- An operation on TKEY's entry, behind the learns of its bank. -/
def keyTableOp (kind : Nat) (f : Nat → Nat → Ent → Effect) : Effect := ask fun s =>
  when (!s.flag FWD.TABLE_OP_BUSY) (
    let key := s.tkey
    let (b1, b2) := s.buckets kind key
    seq [setFld FWD.TABLE_OP_KIND kind, drainBank (b1 % 16), checkBucket b1, checkBucket b2, ask fun s => match s.findEnt kind key with
      | some (b, w) => seq [f b w (s.ent b w), setFld FWD.TABLE_OP_RESULT 0]
      | none => setFld FWD.TABLE_OP_RESULT 1])
def tableDelete (kind : Nat) : Effect := keyTableOp kind (fun b w _ => dropEnt b w)
def tableUnpin (kind : Nat) : Effect := keyTableOp kind (fun b w e =>
  putEnt b w { e with managed := false, nidx := 0, gen := (e.gen + 1) % 16 })
def execTableDelete (kind : Bool) := run (inDomain 2 (tableDelete (b2n kind)))
def execTableUnpin (kind : Bool) := run (inDomain 2 (tableUnpin (b2n kind)))

/-- A flush begins: it passes the banks one by one. -/
def flushStart (op : Nat) : Effect := ask fun s => when (!s.flag FWD.TABLE_OP_BUSY) (seq [
  setFld FWD.TABLE_OP_BUSY 1, setFwd fun f => { f with flush := some (op, List.range 16) }])
def execFlushGroup := run (inDomain 2 (flushStart 3))
def execFlushPort := run (inDomain 2 (flushStart 4))

/-- TABLE_FLUSH_BANK: the flush passes its next bank. -/
def execTableFlushBank := run (inDomain 2 (ask fun s => match s.fwd.flush with
  | some (op, bank :: rest) => seq [
      drainBank bank,
      ask fun s => forEach (s.places bank) (fun p => seq [checkEnt p.1 p.2, ask fun s =>
        let e := s.ent p.1 p.2
        let code := s.fld FWD.TPORT_CODE
        when (e.valid && !e.managed && (if op = 3 then portGroup e.port = code % 8 else e.port = code)) (dropEnt p.1 p.2)]),
      if rest.isEmpty then seq [setFwd fun f => { f with flush := none }, setFld FWD.TABLE_OP_RESULT 0, setFld FWD.TABLE_OP_BUSY 0]
      else setFwd fun f => { f with flush := some (op, rest) }]
  | _ => nothing))

/-- A write of TABLE_OP: other values of OP are ignored. -/
def tableOpWrite (op kind : Nat) : Effect := ask fun s => if s.flag FWD.TABLE_OP_BUSY then nothing else match op with
  | 1 => tableDelete kind
  | 2 => tableUnpin kind
  | 3 => seq [setFld FWD.TABLE_OP_KIND kind, flushStart 3]
  | 4 => seq [setFld FWD.TABLE_OP_KIND kind, flushStart 4]
  | _ => setFld FWD.TABLE_OP_KIND kind

/-! ### Payload selection (R263) -/

/-- PAYSEL_DELIVERY: an opened frame handed back is delivered by its first payload byte. -/
def execPayselDelivery := run (inDomain 2 (ask fun s => match s.fwd.paysel with
  | [] => nothing
  | (d, _, _) :: rest => seq [setFwd fun f => { f with paysel := rest }, payDeliver d, fwdDrain]))

/-! ### The Atomiser (R279-R282) -/

/-- A job ends before staging with a status of R282. -/
def jobStop (j : AtomJob) (status : Nat) : Effect := seq [
  setFwd fun f => { f with jobs := f.jobs.filter (fun x => x.id ≠ j.id) },
  if j.owner = 0 then complete 4 0 j.cring (completion 4 status j.len j.buf 0 0 j.tag.toNat) else freeChain j.buf]

/-- The Broadcast-form MHR of Table 06.1 (assumption 18), key index and frame counter left for the cipher engine. -/
def State.bcastMhr (s : State) (seqNo level : Nat) : List Nat :=
  leBytes 0x9849 2 ++ [seqNo] ++ leBytes (s.fld MAC.ADDR_PAN_ID) 2 ++ [0xFF, 0xFF] ++ leBytes (s.fld MAC.ADDR_SHORT_ADDR) 2
    ++ [level + 8] ++ List.replicate 5 0

/-- The seal of a broadcast frame of `len` bytes in chain `buf`, MIC and FCS counted in `len`. -/
def bcastJob (buf len level : Nat) (ref : Nat) (owner : JobOwner) : CryJob :=
  { sealing := true, ref := BitVec.ofNat 32 ref, buf := buf, cring := 0, len := len - micLen level - 2, hdrLen := 15
    level := level, alg := 0, early := false, tag := 0#32, owner := owner }

/-- HOPDEC: the place of the mesh header's HopsLeft in a frame whose payload begins at `at_`, and its value. -/
def State.hops (s : State) (buf len at_ : Nat) : Option (Nat × Nat) :=
  let l := s.chainBytes buf len
  match parseMesh (l.drop at_) with
  | some m => some (if byteAt l at_ % 16 = 15 then (at_ + 1, m.hops) else (at_, m.hops))
  | none => none

/-- A job begins (R280): Sillage, HOPDEC, SEAL, staging. -/
def startJob (id : Nat) : Effect := ask fun s => match s.fwd.jobs.find? (fun j => j.id = id) with
  | none => nothing
  | some j =>
    let stage := seq [mapJob id fun x => { x with accepted := s.ns },
      match j.level with
      | none => stageJob id
      | some level => seq [ask fun s => putChain j.buf 0 (s.bcastMhr s.fwd.atomSeq level),
        setFwd fun f => { f with atomSeq := (f.atomSeq + 1) % 256 },
        mapJob id fun x => { x with stage := 1 },
        submitJob (bcastJob j.buf j.len level (s.fld MAC.BCN_CFG_KEY) (.atom id))]]
    let hop := if !j.hopdec then stage else ask fun s =>
      let l := s.chainBytes j.buf j.len
      let at_ := if j.level.isSome then 15 else match formOf (fieldLe l 0 2) with
        | some m => formLen (fieldLe l 0 2) m
        | none => 0
      match s.hops j.buf j.len at_ with
      | some (p, h) => if h ≤ 1 then jobStop j 2 else
          seq [putChain j.buf p [if p = at_ then byteAt l p - 1 else h - 1], stage]
      | none => jobStop j 2
    match j.sil with
    | some (o, k, q, c) => sillage o k q c (jobStop j 1) hop
    | none => hop

/-- The job of a FLOOD descriptor (Table 07.9). -/
def State.floodOf (s : State) (d : Desc) : AtomJob :=
  let w0 := d.w0.toNat
  { id := s.fwd.jobCount, owner := 0, buf := d.buf, len := d.len, cring := bits d.w1.toNat 21 16, set := bits d.w1.toNat 25 22
    start := bits d.w2.toNat 31 16, tag := d.w3, hopdec := bit w0 7, level := if bit w0 6 then some (bits w0 10 8) else none
    sil := if bit w0 5 then some (s.nv.eui, 0, bits d.w2.toNat 15 0, 2) else none }

/-- FLOOD_JOB: the Atomiser takes a job of its own making, or the head of its input ring. -/
def execFloodJob := run (inDomain 2 (ask fun s => match s.fwd.jobs.find? (fun j => j.stage = 0) with
  | some j => if s.flag FWD.FWD_CTL_EN then startJob j.id else seq [mapJob j.id fun x => { x with stage := 3 }, jobCheck j.id, fwdDrain]
  | none => when (s.flag FWD.FWD_CTL_EN) (pop (s.fld FWD.RING_SEL2_ATOM) fun od => match od with
    | none => nothing
    | some d =>
      if d.type ≠ 7 || d.poison then seq [count (FWD.COUNT_HI 11), freeDesc d]
      else ask fun s => seq [setFwd fun f => { f with jobCount := f.jobCount + 1, jobs := f.jobs ++ [s.floodOf d] },
        startJob s.fwd.jobCount])))

/-! ### Enabling and disabling (R288) -/

/-- A reassembly failed: its chains return to Flacon. -/
def reasmFail : Effect := seq [count (FWD.COUNT_LO 9), ask fun s => fireFirst (FWD.COUNT 9) 0 55 s.fwd.reasm.length]
def reasmDiscard (r : Reasm) : Effect := seq [
  setFwd fun f => { f with reasm := f.reasm.erase r }, forEach r.parts (fun p => freeChain p.2.2), reasmFail]

def fwdEnable : Effect := ask fun s => when (!s.flag FWD.FWD_CTL_EN) (seq [setFld FWD.FWD_CTL_EN 1, setFld FWD.FWD_CTL_DRAINED 0])
def fwdDisable : Effect := ask fun s => when (s.flag FWD.FWD_CTL_EN) (seq [
  setFld FWD.FWD_CTL_EN 0,
  setFwd fun f => { f with learns := [] },
  forEach s.fwd.learns learnDone,
  forEach s.fwd.reasm reasmDiscard,
  forEach s.fwd.jobs (fun j => when (j.stage = 0 || (j.stage = 2 && j.targets.any (fun t => t.st = 0)))
    (seq [mapJob j.id fun x => { x with stage := 3 }, jobCheck j.id])),
  forEach (List.range 96) serveOut,
  fwdDrain])
def execFwdEnable := run (inDomain 2 fwdEnable)
def execFwdDisable := run (inDomain 2 fwdDisable)

end Sys2Proof.Machine
end

