-- ==== Sys2Proof/Machine/Adapt.lean ====
section
/-!
DEFINITION. The IPv6 adaptation block: upward (R278, R283-R285) and downward (R286, R287).
-/
namespace Sys2Proof.Machine

open Sys2Proof

/-- Context `k`'s prefix, 8 bytes in wire order, if it is valid. -/
def State.ctx (s : State) (k : Nat) : Option (List Nat) :=
  if bit (s.fld FWD.CTX_VALID_VALID) k then some (beBytes (s.pair (FWD.CTX_LO k) (FWD.CTX_HI k)) 8) else none

/-- The IP6 descriptor (Table 07.10). -/
def ip6Desc (dir len buf nidx code reason : Nat) : Desc :=
  mkDesc (4 + dir * 2 ^ 5 + len * 2 ^ 16) (buf + nidx * 2 ^ 15) (code + reason * 2 ^ 24) 0

/-- A frame or packet goes to the exception ring. -/
def exception (dir len buf nidx code reason : Nat) : Effect := ask fun s =>
  seq [count (FWD.COUNT_HI 11), deliver (s.fld FWD.RING_SEL2_EXC) (ip6Desc dir len buf nidx code reason)]

/-- Removes `front` bytes from the head of a list of buffers and keeps the next `n`, by moving bytes within each buffer. -/
def fitBuffers : List Nat → Nat → Nat → Effect
  | [], _, _ => nothing
  | b :: bs, front, n => ask fun s =>
    let drop := min front (s.fill b)
    let keep := min (s.fill b - drop) n
    seq [when (drop ≠ 0) (putBytes (bufAddr b) (s.bytes (bufAddr b + drop) keep)), setMeta b 24 16 keep,
      fitBuffers bs (front - drop) (n - keep)]
def fitChain (h front n : Nat) : Effect := ask fun s => fitBuffers (s.chain h) front n

/-- Links chain `h2` after chain `h1`. -/
def joinChains (h1 h2 : Nat) : Effect := ask fun s => linkBuf (s.lastBuf h1) h2

/-! ### Upward -/

/-- A packet is complete: its header goes into new head buffers before the payload chain, and it is delivered by its hop
limit (R285). `raw` is what the exception ring gets. -/
def deliverPacket (h : IpHdr) (payload : List Nat) (chain nidx code : Nat) (raw : Effect) (prep : Effect) : Effect :=
  let hop := h.head.getD 7 0
  if hop ≤ 1 then raw
  else
    let hdr := ({ h with head := h.head.set 7 (hop - 1) } : IpHdr).finish payload
    let k := (14 + hdr.length + 255) / 256
    withChain k (seq [freeChain chain, reasmFail]) fun hb => seq [
      ask fun s => setMeta (s.lastBuf hb) 24 16 (14 + hdr.length - (k - 1) * 256),
      putChain hb 14 hdr, prep, joinChains hb chain,
      ask fun s => deliver (s.fld FWD.RING_SEL2_IP6) (ip6Desc 0 (hdr.length + payload.length + 18) hb nidx code 0)]

/-- The fragments held cover every byte of the datagram. -/
def Reasm.complete (r : Reasm) : Bool := decide (r.size ≤ (r.parts.map (fun p => p.2.1)).sum)

/-- Fragments in order of offset. -/
def inOrder : List (Nat × Nat × Nat) → List (Nat × Nat × Nat)
  | [] => []
  | p :: ps =>
    let r := inOrder ps
    r.filter (fun q => decide (q.1 < p.1)) ++ [p] ++ r.filter (fun q => decide (p.1 ≤ q.1))

/-- A complete datagram: the fragments' chains are linked in order, and the packet is decompressed. -/
def reasmEnd (r : Reasm) : Effect := ask fun s =>
  let ps := inOrder r.parts
  let drop := setFwd fun f => { f with reasm := f.reasm.erase r }
  let first := (ps.map (fun p => p.2.2)).headD 0
  match decompress s.ctx r.src r.dst (s.chainBytes first (s.chainLen first)) with
  | .error _ => reasmDiscard r
  | .ok (h, rest) =>
    let n0 := ((ps.map (fun p => p.2.1)).headD 0) - h.len
    let payload := rest.take n0 ++ ps.tail.flatMap (fun p => s.chainBytes p.2.2 p.2.1)
    let front := s.chainLen first - rest.length
    let link := seq [drop, count (FWD.COUNT_HI 9), fitChain first front (s.chainLen first),
      forEach ps.tail (fun p => joinChains first p.2.2)]
    seq [link, deliverPacket h payload first r.nidx r.code
      (exception 0 (h.len + payload.length) first r.nidx r.code 3) nothing]

/-- A fragment arrives (R284): `len` is its uncompressed length, `front` the offset of its payload in the chain and `n` the
payload's bytes there. -/
def addFragment (src dst : LinkAddr) (size tag off len front n buf nidx code : Nat) : Effect := ask fun s =>
  let same := fun (r : Reasm) => r.src = src && r.dst = dst && r.tag = tag
  let keep := n + (if size ≤ off + len then 4 else 0)
  match s.fwd.reasm.find? same with
  | some r =>
    if r.size ≠ size || decide (size < off + len) then seq [reasmDiscard r, freeChain buf]
    else if r.parts.any (fun p => p.1 = off && p.2.1 = len) then freeChain buf
    else if r.parts.any (fun p => decide (p.1 < off + len ∧ off < p.1 + p.2.1)) then seq [reasmDiscard r, freeChain buf]
    else
      let r' := { r with parts := r.parts ++ [(off, len, buf)] }
      seq [setFwd fun f => { f with reasm := f.reasm.map (fun x => if x = r then r' else x) }, fitChain buf front keep,
        when r'.complete (reasmEnd r')]
  | none =>
    if 256 ≤ s.fwd.reasm.length || decide (s.fld FWD.ADAPT_CFG_REASM_PER_SRC ≤ (s.fwd.reasm.filter (fun r => r.src = src)).length)
        || decide (size < off + len) then freeChain buf
    else
      let r : Reasm := ⟨src, dst, size, tag, s.ns, nidx, code, [(off, len, buf)]⟩
      seq [setFwd fun f => { f with reasm := f.reasm ++ [r] }, fitChain buf front keep, when r.complete (reasmEnd r)]

/-- A link-layer address from a key. -/
def linkOf (k : Nat × Nat) : LinkAddr := if k.1 = 0 then k else (1, k.2 % 65536)

/-- What follows the mesh header: BC0, fragments, compressed and plain packets, or an exception. `p` is the payload left,
`front` its offset in the chain. -/
def upwardBody (d : Desc) (code nidx : Nat) (orig src dst : Nat × Nat) (p : List Nat) (front : Nat) : Effect := ask fun s =>
  let exc := fun r => exception 0 d.len d.buf nidx code r
  let b := p.getD 0 0
  if b = 0x50 then sillage orig.2 orig.1 (p.getD 1 0) 0 (seq [count (FWD.COUNT_LO 7), freeDesc d]) (deliver (s.fld FWD.RING_SEL3_FLOOD_RX) d)
  else match parseFrag p with
    | some (size, tag, off, n) =>
      let rest := p.drop n
      if isFrag1 p then match decompress s.ctx src dst rest with
        | .error e => exc e
        | .ok (h, pay) => if h.elided && !s.flag FWD.ADAPT_CFG_UDP_ELIDE then exc 2
          else addFragment src dst size tag 0 (h.len + pay.length) (front + n) rest.length d.buf nidx code
      else addFragment src dst size tag off rest.length (front + n) rest.length d.buf nidx code
    | none => match decompress s.ctx src dst p with
      | .error e => exc e
      | .ok (h, pay) => if h.elided && !s.flag FWD.ADAPT_CFG_UDP_ELIDE then exc 2
        else deliverPacket h pay d.buf nidx code (exc 3) (fitChain d.buf (front + p.length - pay.length) (pay.length + 4))

/-- ADAPT_UPWARD: the adaptation block processes its next opened frame. -/
def execAdaptUpward := run (inDomain 2 (ask fun s => match s.fwd.upward with
  | [] => nothing
  | (d, code, nidx) :: rest =>
    let l := s.chainBytes d.buf d.len
    seq [setFwd fun f => { f with upward := rest }, match parseHdr l d.len with
      | none => exception 0 d.len d.buf nidx code 1
      | some h =>
        let p := slice l h.len (d.len - micLen h.level - 2)
        let src := h.src.getD (1, 0)
        let dst := linkOf (h.dst.getD (1, 0))
        match parseMesh p with
        | none => upwardBody d code nidx src (linkOf src) dst p h.len
        | some m =>
          let relay := firstBelow 1024 (fun r => s.flag (FWD.RELAY_VALID r) && s.fld (FWD.RELAY_NIDX r) = nidx)
          let orig := if m.orig.1 = 0 then m.orig else shortKey (fieldLe l 3 2) m.orig.2
          let own := m.final = (0, s.nv.eui) || m.final = (1, s.fld MAC.ADDR_SHORT_ADDR)
          let onward := if own then upwardBody d code nidx orig m.orig m.final (p.drop m.len) (h.len + m.len)
            else deliver (s.fld FWD.RING_SEL1_RELAY) d
          match h.form, relay with
          | .uplink, none => deliver (s.fld FWD.RING_SEL1_RELAY) d
          | .uplink, some r => seq [
              when (s.flag (FWD.FWD_GRP_AUTO 3)) (pushLearn orig.1 orig.2 (0x1000 + r) (byteAt (s.record d) 2) false 0 true none), onward]
          | _, _ => onward,
      fwdDrain]))

/-- REASM_TIMEOUT: contexts not complete in time are discarded. -/
def execReasmTimeout := run (inDomain 2 (ask fun s => seq [
  forEach (s.fwd.reasm.filter (fun r => decide (r.since + s.fld FWD.ADAPT_CFG_REASM_TIMEOUT * 1000000000 ≤ s.ns))) reasmDiscard, fwdDrain]))

/-! ### Downward -/

/-- The payloads of a datagram's frames, in order: the compressed packet, or its fragments (R287). `comp` stands for the
first `h` bytes of packet `p`; `room` is one frame's room and `tag` the datagram_tag. -/
def fragments (comp : List Nat) (h : Nat) (p : List Nat) (room tag : Nat) : List (List Nat) :=
  if comp.length + (p.length - h) ≤ room then [comp ++ p.drop h]
  else
    let k0 := (h + (room - 4 - comp.length)) / 8 * 8
    let step := (room - 5) / 8 * 8
    let rec more : Nat → Nat → List (List Nat)
      | 0, _ => []
      | fuel + 1, at_ => if p.length ≤ at_ then [] else
          (fragBytes p.length tag at_ ++ (p.drop at_).take step) :: more fuel (at_ + step)
    (fragBytes p.length tag 0 ++ comp ++ (p.take k0).drop h) :: more p.length k0

/-- Builds frames with their payloads from byte `at_`, one buffer each, and goes on with their descriptors' LEN and BUF; a
refused buffer returns those already taken. -/
def buildFrames (at_ tail : Nat) : List (List Nat) → List (Nat × Nat) → Effect → (List (Nat × Nat) → Effect) → Effect
  | [], done, _, ok => ok done
  | p :: ps, done, refused, ok =>
    let len := at_ + p.length + tail
    withChain ((len + 255) / 256) (seq [forEach done (fun e => freeChain e.2), refused]) fun h => seq [
      ask fun s => setMeta (s.lastBuf h) 24 16 (len - ((len + 255) / 256 - 1) * 256),
      putChain h at_ p, buildFrames at_ tail ps (done ++ [(len, h)]) refused ok]

/-- A packet goes down to node `i`, behind a mesh header where a relay carries it. -/
def downTo (i : Nat) (src dst : LinkAddr) (mesh : List Nat) (p : List Nat) (chain : Nat) : Effect := ask fun s =>
  let level := s.fld FWD.ADAPT_CFG_DOWN_LEVEL
  let mic := micLen level
  let (comp, h) := compress s.ctx src dst p
  let room := 127 - 21 - mic - 2 - mesh.length
  let parts := (fragments comp h p room s.fwd.dgramTag).map (mesh ++ ·)
  let noRoom := seq [count (FWD.COUNT_LO 10)]
  seq [
    when (decide (1 < parts.length)) (setFwd fun f => { f with dgramTag := (f.dgramTag + 1) % 65536 }),
    if 2047 < p.length then seq [noRoom, freeChain chain]
    else buildFrames 21 (mic + 2) parts [] (seq [noRoom, freeChain chain]) fun done => seq [
      freeChain chain,
      withNode i fun n => ask fun s => match s.dlRefusal i n (done.map Prod.fst) with
        | some _ => seq [noRoom, forEach done (fun e => freeChain e.2)]
        | none => forEach done (fun e => seq [pushDl i (mkDesc (6 + e.1 * 2 ^ 16) e.2 level 0), count (FWD.COUNT_HI 10)])]]

/-- A multicast packet is flooded as a job with SEAL (R286). -/
def downMulticast (p : List Nat) (d : Desc) (code : Nat) : Effect := ask fun s =>
  let level := s.fld FWD.ADAPT_CFG_DOWN_LEVEL
  let mic := micLen level
  let (comp, h) := compress s.ctx (1, s.fld MAC.ADDR_SHORT_ADDR) (1, 0xFFFF) p
  let body := comp ++ p.drop h
  if 127 - 21 - mic - 2 < body.length then exception 1 d.len d.buf 0 code 6
  else buildFrames 15 (mic + 2) [body] [] (seq [count (FWD.COUNT_LO 10), freeDesc d]) fun done => seq [
    freeDesc d,
    forEach done (fun e => setFwd fun f => { f with
      jobCount := f.jobCount + 1
      jobs := f.jobs ++ [{ id := f.jobCount, owner := 1, buf := e.2, len := e.1, cring := 0, set := s.fld FWD.ADAPT_CFG_MCAST_SET
                           start := 0, tag := 0#32, level := some level }] })]

/-- ADAPT_DOWNWARD: the adaptation block takes the head of ADAPT_DOWN. -/
def execAdaptDownward := run (inDomain 2 (ask fun s => pop (s.fld FWD.RING_SEL3_ADAPT_DOWN) fun od => match od with
  | none => nothing
  | some d => ask fun s =>
    let rxEth := d.type = 2
    let ip6 := d.type = 4 && bit d.w0.toNat 5
    let code := if rxEth then 0x2000 + b2n (bit d.w0.toNat 5) * 0x1000 else d.w2.toNat % 65536
    let l := s.chainBytes d.buf d.len
    let whole := slice l 14 (d.len - 4)
    let p := whole.take (40 + ofBe ((whole.drop 4).take 2))
    let hop := p.getD 7 0
    if d.poison || !(rxEth || ip6) then seq [count (FWD.COUNT_HI 11), freeDesc d]
    else if slice l 12 14 ≠ [0x86, 0xDD] || p.length < 40 then exception 1 d.len d.buf 0 code 1
    else if hop ≤ 1 then exception 1 d.len d.buf 0 code 3
    else
      let p := p.set 7 (hop - 1)
      seq [putChain d.buf 21 [hop - 1],
        if p.getD 24 0 = 0xFF then downMulticast p d code
        else
          let eui := Nat.xor (ofBe ((p.drop 32).take 8)) (2 ^ 57)
          let own : LinkAddr := (1, s.fld MAC.ADDR_SHORT_ADDR)
          lookupKey 0 eui fun oe => ask fun s => match oe with
            | none => deliver (s.fld FWD.RING_SEL2_DOWNMISS) (ip6Desc 1 d.len d.buf 0 code 0)
            | some e =>
              if e.managed then downTo e.nidx own (0, eui) [] p d.buf
              else if bits e.port 15 12 = 1 then withFree 4 fun f =>
                downTo (s.fld (FWD.RELAY_NIDX (e.port % 1024))) own (0, eui) (meshBytes own.2 eui (f % 15)) p d.buf
              else exception 1 d.len d.buf 0 code 5]))

end Sys2Proof.Machine
end

