-- ==== Sys2Proof/Machine/Acc.lean ====
section
/-!
DEFINITION. Accord time (chapter 11): captures, steering and the servo, holdover, the trigger fabric and the PPS pins.
-/
namespace Sys2Proof.Machine

open Sys2Proof

def setAcc (f : Acc → Acc) : Effect := fun s => [.acc (f s.acc)]

/-! ### Captures (R383) -/

/-- SEC, NS and FRAC of ATB (R380). -/
def State.sec (s : State) : Nat := s.ns / 1000000000
def State.nsec (s : State) : Nat := s.ns % 1000000000
def State.frac (s : State) : Nat := s.acc.atb / 2 ^ 32 % 65536

/-- TIME_NS_READ by master `m`. -/
def timeNsRead (m : Nat) : Effect := ask fun s => seq [
  setReg (banked m ACC.TIME_SEC_LO) s.sec, setReg (banked m ACC.TIME_SEC_HI) (s.sec / 2 ^ 32 % 65536 + s.frac * 65536),
  setReg (banked m ACC.TIME_T_LO) s.now.toNat, setReg (banked m ACC.TIME_T_HI) (s.now.toNat / 2 ^ 32)]
def execTimeNsRead (m : Fin 67) := run (timeNsRead m)

/-- LTB_LO_READ by master `m`. -/
def ltbLoRead (m : Nat) : Effect := ask fun s => setReg (banked m ACC.LTB_HI) (s.acc.ltb / 2 ^ 32)
def execLtbLoRead (m : Fin 67) := run (ltbLoRead m)

/-! ### RATE, FREQ and STATE -/

/-- RATE_MAX, and a rate clamped to it (R381). -/
def State.rateMax (s : State) : Int := (s.fld ACC.ACC_EXP_RATE_MAX_PPM * 2 ^ 48 / 1000000 : Nat)
def State.clampRate (s : State) (r : Int) : Int := clampI (-s.rateMax) s.rateMax r

/-- Sets RATE, clamped. -/
def setRate (r : Int) : Effect := ask fun s =>
  let x := s.clampRate r
  seq [setAcc fun a => { a with rate := x }, setReg ACC.RATE_LO (unsigned 40 x % 2 ^ 32), setReg ACC.RATE_HI (unsigned 40 x / 2 ^ 32)]

/-- FREQ. -/
def State.freq (s : State) : Int := signed 40 (s.pair ACC.FREQ_LO ACC.FREQ_HI)

/-- Sets FREQ, saturating at 40 bits, and updates FREQ_DEV (R395). -/
def setFreq (f : Int) : Effect := ask fun s =>
  let x := clampI (-(2 ^ 39 - 1)) (2 ^ 39 - 1) f
  let ppb : Int := ((x - s.freq).natAbs * 1000000000 / 2 ^ 48 : Nat)
  let dev : Int := s.regN ACC.FREQ_DEV
  seq [setPair ACC.FREQ_LO ACC.FREQ_HI (unsigned 40 x), setReg ACC.FREQ_DEV (dev + (ppb - dev) / 16).toNat]

/-- Sets STATE; every entry into LOCKED from another state raises EV_ACC_LOCKED. -/
def setState (st : Nat) : Effect := ask fun s => seq [
  when (st = 2 && s.fld ACC.ACC_STATUS_STATE ≠ 2) (fire 80 (s.fld ACC.ACC_CTL_SRC)),
  setFld ACC.ACC_STATUS_STATE st, setFlag ACC.CLOCK_HOLDOVER (st = 3)]

/-- Whether HOLD or FORCE_HOLD keeps holdover. -/
def State.held (s : State) : Bool := s.flag ACC.ACC_CTL_HOLD || s.flag ACC.ACC_EXP_FORCE_HOLD

/-- HOLDOVER is entered (R397). -/
def enterHoldover : Effect := ask fun s => when (s.fld ACC.ACC_STATUS_STATE ≠ 3) (seq [
  setState 3, setRate s.freq, setAcc fun a => { a with holdLimitRaised := false }, fire 79 (s.fld ACC.ACC_CTL_SRC * 2)])

/-- ACQUIRE is entered. -/
def enterAcquire : Effect := seq [setState 1, setAcc fun a => { a with measN := 0, lockCount := 0, rejects := 0 }]

/-- STRATUM by SRC (R399). -/
def State.stratum (s : State) : Nat := match s.fld ACC.ACC_CTL_SRC with
  | 1 => min (s.acc.parentStratum + 1) 127
  | 2 => 0
  | 3 => s.fld ACC.CLOCK_SOFT_STRATUM
  | _ => 127

/-- SOURCE_CHANGE (R389). -/
def sourceChange (src : Nat) : Effect := ask fun s => when (decide (src < 4) && src ≠ s.fld ACC.ACC_CTL_SRC) (seq [
  setFld ACC.ACC_CTL_SRC src,
  if src = 1 || src = 2 then (if s.held then setAcc fun a => { a with measN := 0, lockCount := 0, rejects := 0 } else enterAcquire)
  else when (!s.held) (setState 0),
  when (src = 3) (seq [setReg ACC.LAST_OFFSET 0, setAcc fun a => { a with softSince := a.ltb, lastMeas := s.ns }])])
def execSourceChange (src : Fin 8) := run (sourceChange src)

/-- HOLD_WRITE: ACC_CTL.HOLD, or in an unlocked window ACC_EXP.FORCE_HOLD, is written with 1. -/
def execHoldWrite (force : Bool) := run (ask fun s =>
  if force then (if s.flag ACC.EXPERT_UNLOCK_UNLOCKED then seq [setFld ACC.ACC_EXP_FORCE_HOLD 1, enterHoldover] else setFld ACC.EXPERT_UNLOCK_REJECTED 1)
  else seq [setFld ACC.ACC_CTL_HOLD 1, enterHoldover])

/-- RATE_WRITE: the write of RATE_HI applies RATE where source and state allow (R390, R398). -/
def rateWrite (hi : Nat) : Effect := ask fun s =>
  let r := signed 40 (s.regN ACC.RATE_LO + 2 ^ 32 * (hi % 256))
  match s.fld ACC.ACC_CTL_SRC with
  | 0 => when (s.fld ACC.ACC_STATUS_STATE ≠ 3) (setRate r)
  | 3 => when (!s.held) (seq [
      setRate r, setFreq (s.clampRate r), setAcc fun a => { a with softSince := a.ltb, lastMeas := s.ns },
      when (s.fld ACC.ACC_STATUS_STATE = 3) (setReg ACC.HOLD_ERR 0),
      if s.flag ACC.ACC_CTL_SOFT_LOCK then setState 2 else when (s.fld ACC.ACC_STATUS_STATE = 3) (setState 0)])
  | _ => nothing
def execRateWrite (hi : Word) := run (rateWrite hi.toNat)

/-! ### Comparators (R405-R409) -/

/-- The class of a comparator (Tables 11.5, 11.16). -/
def compClass (i : Nat) : Nat := if i < 48 then 0 else if i < 72 then 1 else if i < 80 then 2 else if i < 96 then 3 else 4

/-- ACC arms comparator 75 for PPS_OUT's next edge while it drives it, and frees it otherwise (R411). -/
def State.ppsRuns (s : State) : Bool :=
  s.flag ACC.PPS_CFG_OUT_EN && (s.flag ACC.ACC_STATUS_VALID || s.flag ACC.PPS_CFG_OUT_ALWAYS)
def State.ppsNext (s : State) : Instant :=
  let adj : Int := signed 32 (s.regN ACC.PPS_OUT_ADJ)
  BitVec.ofInt 64 (((s.ns : Int) + adj / 65536) / 1000000000 * 1000000000 + 1000000000 - adj / 65536)
def ppsUpdate : Effect := ask fun s =>
  if s.ppsRuns then when (!(s.comp 75).armed) (arm 75 s.ppsNext)
  else seq [disarm 75, when s.acc.ppsOut (setAcc fun a => { a with ppsOut := false })]

/-- A double error frees a comparator without firing it (R409). -/
def compLost (i : Nat) : Effect := ask fun s => seq [
  setComp i fun c => { c with armed := false, bad := false }, fire 83 (i + 2 ^ 16),
  if i < 48 then match s.bb.staged.find? (fun x => 4 * x.voice + x.place = i) with
    | some x => seq [endTx x 1, count (FE.COUNT_A_TXLATE x.port)]
    | none => nothing
  else when (decide (i < 72)) (
    let p := (i - 48) / 8
    let n := (portLanes p).2 - 1 - (i - 48) % 8
    match (s.lane n).windows with
    | w :: _ => when (!w.opened) (seq [windowCompletion n 0 0 w, setLane n fun l => { l with windows := l.windows.drop 1 }, armWindow n])
    | [] => nothing)]

/-- A comparator's action at its instant: a PROGRAM comparator rings its doorbell or drives its pin and is free; PPS_OUT
makes its edge. The others mark their instant, and their owners act. -/
def compFire (i : Nat) : Effect := ask fun s =>
  let c := s.comp i
  let w := c.action.toNat
  if c.bad then compLost i
  else if 96 ≤ i then seq [
    setComp i fun c => { c with armed := false, fired := true },
    match bits w 31 28 with
    | 1 => ringDoorbell (bits w 14 8) (bits w 3 0) c.at_
    | 2 => gpioAction (bits w 14 8) (bits w 4 4) c.at_
    | _ => nothing]
  else if i = 75 then seq [disarm 75, setAcc fun a => { a with ppsOut := true, ppsOutUntil := a.ltb + s.fld ACC.PPS_CFG_OUT_WIDTH * 1000000 }, ppsUpdate]
  else setComp i fun c => { c with fired := true }

/-- COMPARATOR_FIRE. -/
def execComparatorFire (i : Fin 512) := run (ask fun s =>
  when ((s.comp i).armed && !(s.comp i).fired && s.reached (s.comp i).at_) (compFire i))

/-- COMPARATOR_ECC_ERROR in an armed VOICE, LISTEN or PROGRAM comparator. -/
def execComparatorEccError (i : Fin 512) := run (ask fun s =>
  when ((s.comp i).armed && (compClass i ≠ 2 && compClass i ≠ 3)) (compLost i))

/-! ### Steps and slews (R391-R393) -/

/-- ATB's range, in units of 2^-48 ns. -/
def atbRange : Int := 2 ^ 48 * 1000000000 * 2 ^ 48

/-- ATB becomes `b`: slews end, passed comparators fire (R391, R392). -/
def stepTo (b : Int) : Effect := ask fun s =>
  let old := s.now
  let move : Int := b - s.acc.atb
  seq [
    setAcc fun a => { a with atb := (b % atbRange).toNat, slewLeft := 0, rtcAtSec := (b % atbRange).toNat / 2 ^ 48 / 1000000000 + 1 },
    setFld ACC.ACC_STATUS_SLEWING 0, setFld ACC.ACC_STATUS_VALID 1,
    count (ACC.CNT_HI 1), fire 78 (min (move.natAbs / 2 ^ 48 / 1000) (2 ^ 31 - 1) + b2n (decide (move < 0)) * 2 ^ 31),
    when (decide (0 < move)) (ask fun s =>
      let passed := fun (t : Instant) => s.reached t && decide (0 < tdiff t old)
      let cs := (s.acc.comps.filter (fun e => e.2.armed && !e.2.fired && passed e.2.at_)).map Prod.fst
      let ts := (s.cores.map (fun e => (e.2.timers.filter (fun t => passed t.2)).length)).sum
      seq [countBy (ACC.CNT_HI 3) (cs.length + ts), forEach cs compFire]),
    ppsUpdate]

/-- STEP: STEP_CTL.GO with ABS. -/
def stepGo (abs : Bool) : Effect := ask fun s => seq [
  setFlag ACC.STEP_CTL_ABS abs,
  if abs then stepTo (s.pair ACC.STEP_LO ACC.STEP_HI * 2 ^ 48)
  else stepTo (s.acc.atb + signed 64 (s.pair ACC.STEP_LO ACC.STEP_HI) * 2 ^ 32)]
def execStep (abs : Bool) := run (stepGo abs)

/-- A slew of `u` units of 2^-48 ns starts. -/
def slewBy (u : Int) : Effect := ask fun s => seq [
  setAcc fun a => { a with slewLeft := u, slewRate := s.fld ACC.SLEW_CFG_RATE_PPB * 2 ^ 48 / 1000000000 },
  setFld ACC.ACC_STATUS_SLEWING 1, count (ACC.CNT_LO 1)]
def slewStart (v : Nat) : Effect := seq [setReg ACC.SLEW_NS v, slewBy (signed 32 v * 2 ^ 48)]
def execSlewStart (v : Word) := run (slewStart v.toNat)

/-- SLEW_COMPLETE. -/
def execSlewComplete := run (ask fun s => when (s.flag ACC.ACC_STATUS_SLEWING && s.acc.slewLeft = 0) (setFld ACC.ACC_STATUS_SLEWING 0))

/-- SLEW_LEFT in ns. -/
def State.slewLeftNs (s : State) : Int := Int.tdiv s.acc.slewLeft (2 ^ 48)

/-! ### The servo (R394-R396, R398) -/

/-- step(−θ): a slew while NOSTEP is set. -/
def servoStep (theta : Int) : Effect := ask fun s =>
  if s.flag ACC.ACC_CTL_NOSTEP then slewBy (-theta * 2 ^ 32) else stepTo (s.acc.atb - theta * 2 ^ 32)

/-- R395's g; no result is stated for two measurements of one reference instant. -/
def withG (theta tInt : Int) (k : Int → Effect) : Effect :=
  if tInt = 0 then withFree 40 (fun f => k (signed 40 f)) else k (Int.tdiv (theta * 2 ^ 32) tInt)

/-- An accepted measurement acts. `n` counts it from ACQUIRE, or is none in LOCKED. -/
def servoAct (n : Option Nat) (theta : Int) (tInt : Int) : Effect := withG theta tInt fun g => ask fun s =>
  let far := decide (s.fld ACC.SERVO_THR_LOCK_THRESH * 65536 < theta.natAbs)
  let f3 := s.freq - g / 2 ^ s.fld ACC.SERVO_CFG_KI_SHIFT
  let late := seq [setFreq f3, setRate (f3 - g / 2 ^ s.fld ACC.SERVO_CFG_KP_SHIFT)]
  match n with
  | some 1 => when far (servoStep theta)
  | some 2 => seq [setFreq (s.freq - g), setRate (s.freq - g), when far (servoStep theta)]
  | some _ =>
    let c := if theta.natAbs < s.fld ACC.SERVO_THR_LOCK_THRESH * 65536 then s.acc.lockCount + 1 else 0
    seq [late, setAcc fun a => { a with lockCount := c }, when (decide (s.fld ACC.SERVO_CFG_LOCK_COUNT ≤ c))
      (seq [setState 2, setAcc fun a => { a with rejects := 0 }])]
  | none => late

/-- What every accepted measurement does besides. -/
def accepted (theta ref : Int) : Effect := seq [
  setAcc fun a => { a with lastMeas := ref, rejects := 0 }, count (ACC.CNT_HI 0), setFld ACC.ACC_STATUS_VALID 1,
  setReg ACC.LAST_OFFSET (unsigned 32 (clampI (-(2 ^ 31)) (2 ^ 31 - 1) (Int.tdiv theta 65536)))]

/-- The servo acts on a measurement. -/
def servo (theta ref : Int) : Effect := ask fun s =>
  let tInt := ref - s.acc.lastMeas
  let acquire := seq [ask fun s => servoAct (some (s.acc.measN + 1)) theta tInt, setAcc fun a => { a with measN := a.measN + 1 },
    accepted theta ref]
  match s.fld ACC.ACC_STATUS_STATE with
  | 2 =>
    if s.fld ACC.SERVO_THR_OUTLIER * 1000 * 65536 < theta.natAbs then seq [
      count (ACC.CNT_LO 0), setAcc fun a => { a with rejects := a.rejects + 1 },
      ask fun s => when (decide (s.fld ACC.SERVO_CFG_REJECT_MAX ≤ s.acc.rejects)) enterAcquire]
    else seq [servoAct none theta tInt, accepted theta ref]
  | 3 =>
    if s.held then nothing
    else if theta.natAbs ≤ s.fld ACC.SERVO_THR_LOCK_THRESH * 65536 then seq [setState 2, servoAct none theta tInt, accepted theta ref]
    else seq [enterAcquire, acquire]
  | 1 => acquire
  | _ => nothing

/-- A measurement is handed to the servo: θ in 2^-16 ns and the reference instant, in 2^-16 ns. -/
def handMeasurement (src : Nat) (theta ref : Int) : Effect := setAcc fun a => { a with queue := a.queue ++ [(src, theta, ref / 65536)] }

/-- SERVO_MEASUREMENT: the oldest measurement handed over; one of another source than SRC does nothing. -/
def execServoMeasurement := run (ask fun s => match s.acc.queue with
  | [] => nothing
  | (src, theta, ref) :: rest => seq [setAcc fun a => { a with queue := rest },
      when (s.fld ACC.ACC_CTL_SRC = src) (servo theta ref)])

/-! ### Holdover (R390, R397) -/

/-- SOFT_TIMEOUT. -/
def execSoftTimeout := run (ask fun s =>
  let t := s.fld ACC.ACC_CTL_SOFT_TIMEOUT
  when (s.fld ACC.ACC_CTL_SRC = 3 && t ≠ 0 && decide (s.acc.softSince + t * 1000000000 ≤ s.acc.ltb)) enterHoldover)

/-- HOLD_ERR as R397 computes it now. -/
def State.holdErr (s : State) : Nat :=
  let t := ((s.ns : Int) - s.acc.lastMeas).toNat
  let u := max (s.regN ACC.FREQ_DEV) (s.fld ACC.HOLD_CFG_U_MIN)
  min (2 ^ 32 - 1) ((s.fldI ACC.LAST_OFFSET_NS).natAbs +
    (u * t * (2 * 10 ^ 12) + s.fld ACC.HOLD_CFG_WANDER * t * t) / (2 * 10 ^ 21))

/-- HOLD_ERR_UPDATE. -/
def execHoldErrUpdate := run (ask fun s => when (s.fld ACC.ACC_STATUS_STATE = 3) (seq [
  setReg ACC.HOLD_ERR s.holdErr,
  when (decide (s.fld ACC.HOLD_LIMIT_US * 1000 < s.holdErr) && !s.acc.holdLimitRaised) (seq [
    setAcc fun a => { a with holdLimitRaised := true }, fire 79 (1 + s.fld ACC.ACC_CTL_SRC * 2)])]))

/-- REPLICA_CHECK of island `i`: replicas hold ATB; `large` says whether one had drifted beyond 4 ns (R385). -/
def execReplicaCheck (i : BitVec 16) (large : Bool) := run (when large (fire 83 i.toNat))

/-! ### PPS pins (R410, R411) -/

/-- PPS_IN_EDGE: an active edge at ATB `t`, in 2^-16 ns. -/
def ppsIn (t : Nat) : Effect := ask fun s => when (s.flag ACC.PPS_CFG_IN_EN) (
  let st : Int := t - signed 32 (s.regN ACC.PPS_IN_ADJ)
  let second : Int := 1000000000 * 65536
  let near := (st + second / 2) / second * second
  let ns := (st / 65536 % 1000000000).toNat
  seq [setReg ACC.PPS_IN_STAMP ns, setAcc fun a => { a with ppsInLast := a.ltb },
    when (s.fld ACC.ACC_CTL_SRC = 2) (handMeasurement 2 (st - near) near), fire 81 ns])
def execPpsInEdge (t : Nat) := run (ppsIn t)

/-- PPS_IN_LOSS. -/
def execPpsInLoss := run (ask fun s =>
  when (s.flag ACC.PPS_CFG_IN_EN && !s.flag ACC.PPS_IN_STAMP_LOSS && decide (s.acc.ppsInLast + 1500000000 ≤ s.acc.ltb)) (seq [
    setFld ACC.PPS_IN_STAMP_LOSS 1, fire 81 (s.fld ACC.PPS_IN_STAMP_NS + 2 ^ 31),
    when (s.fld ACC.ACC_CTL_SRC = 2) enterHoldover]))

/-- PPS_OUT_END. -/
def execPpsOutEnd := run (ask fun s =>
  when (s.acc.ppsOut && decide (s.acc.ppsOutUntil ≤ s.acc.ltb)) (setAcc fun a => { a with ppsOut := false }))

/-- A write of PPS_CFG. -/
def ppsCfgWrite (v : Nat) : Effect := ask fun s => seq [
  writeFields ACC.PPS_CFG (putBits v 25 16 (clampN 1 999 (bits v 25 16))),
  when (bit v 0 && !s.flag ACC.PPS_CFG_IN_EN) (setAcc fun a => { a with ppsInLast := a.ltb }), ppsUpdate]

/-! ### The CK_ACC cycle (R381, R382, R393) -/

/-- One cycle of ATB and LTB. -/
def Acc.cycle (a : Acc) : Acc :=
  let step : Int := clampI (-a.slewRate) a.slewRate a.slewLeft
  { a with ltb := (a.ltb + 1) % 2 ^ 64, slewLeft := a.slewLeft - step
           atb := ((a.atb + 2 ^ 48 + a.rate + step) % atbRange).toNat }

end Sys2Proof.Machine
end

