-- ==== Sys2Proof/Machine/Mac.lean ====
section
/-!
DEFINITION. Medium access (chapter 06): the wake calendar, drift tracking and the guard, acknowledgements, lost nodes,
beacons and the time parent, downlink delivery, node operations, and enabling and disabling MAC.
-/
namespace Sys2Proof.Machine

open Sys2Proof

/-- Division rounded to the nearest, halves away from zero (R235). -/
def roundAway (n d : Int) : Int := if 0 ≤ n then (2 * n + d) / (2 * d) else -((-(2 * n) + d) / (2 * d))

/-! ### Turnaround (R223) -/

/-- TA_EXT of a port, in 10 µs units: from the largest LBT_TIME of its valid sub-bands with LBT. -/
def State.taExt (s : State) (p : Nat) : Nat := match s.activeSlot with
  | none => 0
  | some k =>
    let m := ((List.range 6).map (fun j =>
      let e := 6 * p + j
      if bit (s.sub k e 3 1) 0 && bit (s.sub k e 3 1) 1 then s.sub k e 0xE 2 else 0)).foldl max 0
    if m = 0 then 0 else (m + 20 + 9) / 10

/-- TA(mode), and TA_eff, in ns. -/
def State.taMode (s : State) (mode : Nat) : Nat := match mode with
  | 0 | 2 => 192000
  | 1 => 480000
  | 3 => 600000
  | 4 => 300000
  | _ => 2 * s.tSym mode + 1000000
def State.taEff (s : State) (p mode : Nat) : Nat := max (s.taMode mode) (s.taExt p * 10000)

/-! ### Prediction and filing (R232, R237-R239) -/

/-- E and g for node `n`'s wake at `w` with `m` misses. -/
def State.predict (s : State) (n : Node) (w m : Nat) : Int × Int :=
  let d := Int.tdiv ((w : Int) - n.anchor) 1000
  let e := (w : Int) + s.tSfd n.mode + Int.tdiv (n.rate * d) 1000000
  let g := (s.fld MAC.GUARD_CFG_G_BASE * 1000 : Nat) +
    Int.tdiv (d * (s.fld MAC.GUARD_CFG_K_DEV * n.dev + s.fld MAC.GUARD_CFG2_U_FLOOR : Nat)) 1000000
  (e, if 0 < m then min (g * 2 ^ m) (s.fld MAC.GUARD_CFG2_G_MAX * 1000 : Nat) else g)

/-- The entries on the wheel in slot `k`. -/
def State.slotUse (s : State) (k : Nat) : Nat := (s.mac.calendar.filter (fun e => e.slot = k && !e.overflow)).length

/-- Files an entry: on the overflow list beyond the horizon, else in its slot or the nearest with room (R237, R238). A slot
already processed gives way to the next to be processed. -/
def placeEntry (x : CalEntry) : Effect := ask fun s =>
  let k := max x.slot s.mac.slot
  let cap := s.fld MAC.MAC_EXP_SLOT_CAP
  let add := fun (y : CalEntry) => setMac fun m => { m with calendar := m.calendar ++ [y] }
  if 2 ^ 20 - 2 ^ 16 ≤ k - s.ns / 250000 then add { x with slot := k, overflow := true }
  else match (List.range 257).find? (fun j => decide (j ≤ k ∧ s.mac.slot ≤ k - j ∧ s.slotUse (k - j) < cap)) with
    | some 0 => add { x with slot := k, overflow := false }
    | some j => seq [count (MAC.CNT_HI 6), add { x with slot := k - j, overflow := false }]
    | none =>
      let j := ((List.range (s.mac.calendar.length + 2)).find? (fun j => decide (s.slotUse (k + j) < cap))).getD 0
      seq [fire 48 (k % 2 ^ 20), add { x with slot := k + j, overflow := false }]

/-- The slot of a wake: the one that contains E − g − T_sfd. -/
def State.wakeSlot (s : State) (n : Node) (e g : Int) : Nat := ((e - g - s.tSfd n.mode) / 250000).toNat

/-- Node `i`'s main entry leaves the calendar, and its alternate one. -/
def unfileMain (i : Nat) : Effect := setMac fun m => { m with calendar := m.calendar.filter (fun e => e.nidx ≠ i || e.alt) }
def unfileAlt (i : Nat) : Effect := setMac fun m => { m with calendar := m.calendar.filter (fun e => e.nidx ≠ i || !e.alt) }

/-- Files node `i`'s next wake at `w`, replacing its entry (R239). The entry's index is MAC's own: a free value
(assumption 2). -/
def fileWake (i w : Nat) : Effect := withNode i fun n => ask fun s =>
  let (e, g) := s.predict n w n.misses
  withFree 18 fun f => seq [unfileMain i, putNode i { n with wake := w % 2 ^ 64, calEntry := f },
    placeEntry ⟨i, s.wakeSlot n e g, w, false, false⟩]

/-- Files the alternate wake at `w`, with the main wake's guard (R236). -/
def fileAlt (i w : Nat) : Effect := withNode i fun n => ask fun s =>
  let g := (s.predict n n.wake n.misses).2
  let e := (s.predict n w n.misses).1
  seq [unfileAlt i, putNode i { n.setFlagBit 2 true with altWake := w % 2 ^ 64 }, placeEntry ⟨i, s.wakeSlot n e g, w, true, false⟩]

/-! ### Windows -/

/-- Withdraws a window that MAC committed to lane `n`. -/
def dropWindow (n : Nat) (t : Instant) : Effect := ask fun s =>
  let l := s.lane n
  match l.windows with
  | [] => nothing
  | w :: _ =>
    if w.opened && w.from_ = t && !w.byListen then
      (if l.run = .search then endWindow n 0
       else setLane n fun l => { l with windows := match l.windows with
          | w :: ws => { w with closed := true } :: ws
          | [] => [] })
    else seq [setLane n fun l => { l with windows := l.windows.filter (fun x => x.from_ ≠ t || x.byListen || x.opened) }, armWindow n]

/-- Whether an enabled stream of a port covers a channel and mode. -/
def State.covered (s : State) (p chan mode : Nat) : Bool := (List.range (portStreams p)).any (fun k =>
  s.flag (BB.STREAM_EN p k) && s.fld (BB.STREAM_CHAN p k) = chan && s.fld (BB.STREAM_MODE p k) = mode)

/-- MAC commits a listen lane where no stream covers the channel; none free counts NOLANE (R234). -/
def macWindow (p chan mode : Nat) (a : Int) (dur : Nat) (ok : Nat → Effect) : Effect := ask fun s =>
  if s.covered p chan mode then nothing
  else if !s.flag (FE.PORT_CTL_EN p) || !s.flag (FE.PORT_STATUS_READY p) then count (MAC.CNT_LO 1)
  else commitWindow p chan mode (BitVec.ofInt 64 a) dur false (count (MAC.CNT_LO 1)) ok

/-- The start of a watch's window. -/
def State.watchFrom (s : State) (n : Node) (x : Watch) : Int := (x.e : Int) - x.g - s.tSfd n.mode

/-- A watch ends: it leaves, and its window is withdrawn. -/
def endWatch (x : Watch) : Effect := seq [
  setMac fun m => { m with watches := m.watches.erase x },
  match x.lane with
  | some l => withNode x.nidx fun n => ask fun s => dropWindow l (BitVec.ofInt 64 (s.watchFrom n x))
  | none => nothing]

/-- Node `i`'s watches end, all of them or the alternate one. -/
def endWatches (i : Nat) (all : Bool) : Effect := ask fun s =>
  forEach (s.mac.watches.filter (fun x => x.nidx = i && (all || x.alt))) endWatch

/-- MAC processes a WAKE entry: the window, and the watch until its decision. -/
def openWake (x : CalEntry) : Effect := withNode x.nidx fun n => ask fun s =>
  let e := (s.predict n x.wake n.misses).1
  let g := (s.predict n (if x.alt then n.wake else x.wake) n.misses).2
  let tail := s.bodyTime n.mode 40 + s.dDec n.mode + 100000
  let w : Watch := { nidx := x.nidx, wake := x.wake, e := e.toNat, g := g.toNat, decide_ := (e + g + tail).toNat, alt := x.alt, lane := none }
  when (n.state = 2 || n.state = 3) (seq [
    when (!x.alt) (mapNode x.nidx fun n => { n with guard := min ((g.toNat + 999) / 1000) 65535, calEntry := 0xFFFFFFFF }),
    setMac fun m => { m with watches := m.watches ++ [w] },
    macWindow n.port n.chan n.mode (e - g - s.tSfd n.mode) (2 * g.toNat + s.tSfd n.mode) (fun l => setMac fun m => { m with
      watches := m.watches.map (fun y => if y = w then { y with lane := some l } else y) })])

/-! ### Beacons (R240, R243) -/

/-- A sealed frame of MAC's own is staged: `b` its buffer, `l` its bytes before the MIC, `a` the length of its MHR. Refused,
the buffer returns to Flacon. The job's `owner` and `ident` name the staging it belongs to. -/
def stageSealed (owner : TxOwner) (ident b : Nat) (l : List Nat) (a level : Nat) (ref : Nat) (q : TxReq) (refused : Nat → Effect)
    (ok : Nat → Nat → Effect) : Effect := ask fun s =>
  let no := fun c => seq [freeChain b, refused c]
  let r := BitVec.ofNat 32 ref
  if !s.flag CRY.CRY_CTL_EN || !s.on 16 then no 0x0C
  else seq [putBytes (bufAddr b) l, loadNow r (fun st => no (keyCode st)) fun m => ask fun s =>
    drawNow (s.refSlot r) (no 0x10) fun fc =>
      stage q no fun v c => seq [
        submitJob { sealing := true, ref := r, buf := b, cring := 0, len := l.length, hdrLen := a, level := level, alg := 0
                    early := false, tag := 0#32, owner := .mac owner ident, key := some (0, some m), fc := fc },
        ok v c]]

/-- The PROFILE_ID of a slot; 0xFFFF for none. -/
def State.profileId (s : State) (k : Option Nat) : Nat := match k with
  | some k => s.prof k 6 2
  | none => 0xFFFF

/-- A beacon's payload (Table 06.5). -/
def State.beaconBody (s : State) (p bsn time interval : Nat) (recovery : Bool) : List Nat :=
  [1, b2n recovery] ++ leBytes bsn 4 ++ leBytes time 8 ++ leBytes (interval % 65536) 2 ++
    [s.fld (MAC.RV_CFG_CHAN p), s.fld (MAC.RV_CFG_MODE p), s.taExt p, s.stratum + b2n (s.fld ACC.ACC_STATUS_STATE = 3) * 128] ++
    leBytes (s.profileId s.activeSlot) 2 ++
    (match s.fe.armed with
      | some (k, t) => leBytes (s.profileId (some k)) 2 ++ leBytes t.toNat 8
      | none => leBytes 0xFFFF 2 ++ leBytes 0 8) ++
    (if recovery then [s.fld (MAC.RV_SLOT_SLOTS p), s.fld (MAC.RV_SLOT_LEN p)] else [])

/-- Stages a beacon of port `p` with its first chip at `t`. The MHR's sequence number is BSN's low byte. -/
def sendBeacon (p chan mode : Nat) (power : Int) (t interval : Nat) (recovery : Bool) (ok : Effect) : Effect := ask fun s =>
  let level := s.fld MAC.BCN_CFG_LEVEL
  let bsn := getD s.mac.bsn p 0
  let l := leBytes 0x9008 2 ++ [bsn % 256] ++ leBytes (s.fld MAC.ADDR_PAN_ID) 2 ++ leBytes (s.fld MAC.ADDR_SHORT_ADDR) 2
    ++ [level + 8, 0, 0, 0, 0, 0] ++ [0xFF, 0xFF, 0, 0] ++ s.beaconBody p bsn (t + s.tSfd mode) interval recovery
  let owner := if recovery then TxOwner.recovery else TxOwner.beacon
  withMacBuf (beaconSkip p chan) fun b => seq [
    setMac fun m => { m with bsn := putD m.bsn p ((bsn + 1) % 2 ^ 32) 0 },
    stageSealed owner (p * 128 + chan) b l 13 level (s.fld MAC.BCN_CFG_KEY)
      { port := p, chan := chan, mode := mode, request := power, fcs := true, cca := false, buf := b
        len := l.length + micLen level + 2, tag := 0#32, cring := 0, owner := owner, ident := p * 128 + chan
        trig := tplus (BitVec.ofNat 64 t) (-200) }
      (fun c => when (c = 8 || c = 5) (beaconSkip p chan)) (fun _ _ => ok)]

/-- The beacons of a port whose instant is `t`. -/
def beaconsAt (p t : Nat) : Effect := ask fun s =>
  let ms := s.fld MAC.BCN_CFG_INTERVAL_MS * s.fld (MAC.BCN_MODE_DIV p)
  when (t % (ms * 1000000) = 0) (forEach (List.range 4) (fun c =>
    let x := bits (s.regN (MAC.BCN_CH p)) (8 * c + 7) (8 * c)
    when (bit x 7) (sendBeacon p (x % 128) (s.fld (MAC.BCN_MODE_MODE p)) (s.fldI (MAC.BCN_MODE_POWER p)) t ms false nothing)))

/-- SLOT_PROCESS: the entries of the next slot, once ATB has reached LEAD_SLOTS slots before it. -/
def execSlotProcess := run (inDomain 2 (ask fun s =>
  let k := s.mac.slot
  when (s.flag MAC.MAC_CTL_EN && decide (k ≤ s.ns / 250000 + s.fld MAC.MAC_CTL_LEAD_SLOTS)) (
    let due := fun (e : CalEntry) => e.slot = k && !e.overflow
    seq [setMac fun m => { m with slot := k + 1, calendar := m.calendar.filter (fun e => !due e) },
      forEach (s.mac.calendar.filter due) openWake,
      forEach [0, 1, 2] (fun p => beaconsAt p (k * 250000))])))

/-- OVERFLOW_MIGRATE, once in each 2^16 slots. -/
def execOverflowMigrate := run (inDomain 2 (ask fun s =>
  let now := s.ns / 250000
  let due := fun (e : CalEntry) => e.overflow && decide (e.slot < now + 2 ^ 20 - 2 ^ 16)
  when (s.flag MAC.MAC_CTL_EN && s.mac.migrated ≠ now / 2 ^ 16) (seq [
    setMac fun m => { m with migrated := now / 2 ^ 16, calendar := m.calendar.filter (fun e => !due e) },
    forEach (s.mac.calendar.filter due) placeEntry])))

/-- A node's record, cached or in DRAM. -/
def State.nodeNow (s : State) (i : Nat) : Node := match find s.mac.cache i with
  | some n => n
  | none => nodeOf (s.bytes (s.nodeAddr i) 0x80)

/-- RECOVERY_BEACON of port `p`, LEAD_SLOTS before its instant, with its contention slots. -/
def execRecoveryBeacon (p : Fin 3) := run (inDomain 2 (ask fun s =>
  let period := s.fld MAC.MISS_CFG_RV_PERIOD * 1000000000
  let t := (s.ns + period - 1) / period * period
  let wanted := s.flag (MAC.RV_CFG_EN p) && (s.flag MAC.MAC_CTL_RV_ALWAYS || s.mac.search.any (fun i => (s.nodeNow i).port = p.val))
  let chan := s.fld (MAC.RV_CFG_CHAN p)
  let mode := s.fld (MAC.RV_CFG_MODE p)
  let from_ := t + s.airtime mode (53 + micLen (s.fld MAC.BCN_CFG_LEVEL)) + s.taEff p mode
  let span := s.fld (MAC.RV_SLOT_SLOTS p) * s.fld (MAC.RV_SLOT_LEN p) * 250000
  when (s.flag MAC.MAC_CTL_EN && wanted && decide (t ≤ s.ns + s.fld MAC.MAC_CTL_LEAD_SLOTS * 250000) && getD s.mac.recov p.val 0 ≠ t) (seq [
    setMac fun m => { m with recov := insertKey m.recov p t },
    sendBeacon p chan mode (s.fldI (MAC.RV_CFG_POWER p)) t (s.fld MAC.MISS_CFG_RV_PERIOD * 1000) true (seq [
      setMac fun m => { m with contention := m.contention.filter (fun c => decide (s.ns < c.2.1 + c.2.2 + 1000000000)) ++ [(p.val, from_, span)] },
      macWindow p chan mode from_ span (fun _ => nothing)])])))

/-! ### Received frames (R230, R231, R242) -/

/-- Whether a frame was heard in a contention slot. -/
def State.inContention (s : State) (f : MacFrame) : Bool :=
  f.chan = s.fld (MAC.RV_CFG_CHAN f.port) && f.mode = s.fld (MAC.RV_CFG_MODE f.port) &&
    s.mac.contention.any (fun c => c.1 = f.port && decide (c.2.1 ≤ f.sfd ∧ f.sfd < c.2.1 + c.2.2))

/-- The slot boundary nearest `x`, counted from `a`. -/
def nearSlot (a x : Int) : Int := a + (x - a + 125000) / 250000 * 250000

/-- The drift report of a poll: TEMP, TRIM_STEP and LOWBAT. -/
def driftReport (f : MacFrame) (h : Hdr) : Option (Nat × Int × Bool) :=
  if h.form = .poll && decide (24 + micLen h.level + 2 ≤ f.psdu.length) then
    let w := fieldLe f.psdu 22 2
    some (w % 256, signed 7 (bits w 14 8), bit w 15)
  else none

/-- A rate sample: RATE, DEV and DRIFT_VALID after `e` ns against wake `w` (R231). -/
def rateSample (s : State) (n : Node) (w e : Int) (trim : Int) (out : Bool) : Node :=
  let rate0 := if trim ≠ 0 then n.rate - trim * 500 else n.rate
  let d := Int.tdiv (w - n.anchor) 1000
  let sample := Int.tdiv (e * 1000000) d
  let sat := fun (x : Int) => clampI (-(2 ^ 31 - 1)) (2 ^ 31 - 1) x
  let sh : Int := 2 ^ s.fld MAC.GUARD_CFG_DRIFT_SHIFT
  if !n.flagBit 0 then { n.setFlagBit 0 true with rate := sat sample }
  else
    let r := sample - rate0
    if out then { n with rate := sat rate0, dev := min (max n.dev r.natAbs) (2 ^ 32 - 1) }
    else { n with rate := sat (rate0 + r / sh), dev := (clampI 0 (2 ^ 32 - 1) (n.dev + ((r.natAbs : Int) - n.dev) / sh)).toNat }

/-- A managed node's authenticated frame. -/
def authFrame (f : MacFrame) (h : Hdr) (n : Node) : Effect := ask fun s =>
  let i := f.nidx
  let tsfd : Int := s.tSfd f.mode
  let sfd : Int := f.sfd
  let near := nearSlot 0 (sfd - tsfd)
  let hit := fun (alt : Bool) => s.mac.watches.find? (fun x => x.nidx = i && x.alt = alt && decide ((sfd - x.e).natAbs ≤ x.g))
  let w0 := match hit false, hit true with
    | some x, _ => some x
    | none, some x => some x
    | none, none => none
  let scheduled := w0.filter (fun x => decide ((sfd - (x.wake + tsfd)).natAbs ≤ 32000000))
  let w : Int := match scheduled with
    | some x => x.wake
    | none => near
  let e := sfd - (w + tsfd)
  let searched := n.state = 4 || s.inContention f
  let missed := w0.isNone && s.mac.watches.any (fun x => x.nidx = i && !x.alt)
  let rep := driftReport f h
  let trim := match rep with
    | some (_, t, _) => t
    | none => 0
  let synced := getD s.mac.synced i false && !searched
  let n1 := { n with
    lastHeard := f.sfd, rssi := fieldLe f.record 0 2, lqi := byteAt f.record 2, rxCount := (n.rxCount + 1) % 2 ^ 32
    lastErr := unsigned 16 (clampI (-32768) 32767 (roundAway e 1000)), misses := 0
    state := if n.state = 3 || n.state = 4 then 2 else n.state, temp := match rep with
      | some (t, _, _) => t
      | none => n.temp }
  let n2 := match rep with
    | some (_, _, b) => n1.setFlagBit 1 b
    | none => n1
  let n3 := if searched then { n2.setFlagBit 0 false with dev := s.fld MAC.MISS_CFG_DEV_INIT * 10 } else n2
  let w' := nearSlot n.anchor (sfd - tsfd - Int.tdiv (n.rate * (sfd - n.anchor)) 1000000000)
  let n4 :=
    if !synced || s.flag MAC.MAC_EXP_DRIFT_FREEZE then n3
    else match scheduled with
      | some _ => if 1000000000 ≤ w - n.anchor then rateSample s n3 w e trim false else n3
      | none => if decide (1000000000 ≤ w' - n.anchor) && decide ((s.predict n w'.toNat 0).2 < 125000)
          then rateSample s n3 w' (sfd - (w' + tsfd)) trim true else n3
  seq [
    putNode i n4,
    setMac fun m => { m with
      watches := m.watches.map (fun x => if some x = w0 then { x with heard := true } else x)
      search := m.search.filter (· ≠ i), synced := if searched then eraseKey m.synced i else m.synced
      meas := insertKey m.meas i { sfd := f.sfd, wake := w.toNat, err := e, ends := f.sfd + s.bodyTime f.mode f.psdu.length, port := f.port
                                   chan := f.chan, mode := f.mode, level := h.level, seq := h.seqn, searched := searched
                                   kind := if scheduled.isNone then 2 else if (hit false).isSome then 0 else 1 } },
    when missed (count (MAC.CNT_HI 1)),
    when searched (seq [count (MAC.CNT_LO 7), fire 43 i]),
    when (h.form = .poll) (seq [count (MAC.CNT_HI 0), fire 40 (i + f.port * 2 ^ 17 + b2n scheduled.isNone * 2 ^ 19)])]

/-- AUTH_FRAME: the oldest authenticated frame handed to MAC. -/
def execAuthFrame := run (inDomain 2 (ask fun s => match s.mac.inbox with
  | [] => nothing
  | f :: rest => seq [setMac fun m => { m with inbox := rest },
      when (s.flag MAC.MAC_CTL_EN) (match parseHdr f.psdu f.psdu.length with
        | some h => withNode f.nidx fun n => when (n.state ≠ 0) (authFrame f h n)
        | none => nothing)]))

/-! ### Decisions (R233, R236) -/

/-- ALT is cleared: the alternate wake is watched no more. -/
def clearAlt (i : Nat) : Effect := seq [mapNode i fun n => n.setFlagBit 2 false, unfileAlt i, endWatches i false]

/-- WAKE_DECISION of node `i`'s main wake. -/
def execWakeDecision (i : Fin 131072) := run (inDomain 2 (ask fun s =>
  match s.mac.watches.find? (fun x => x.nidx = i.val && !x.alt) with
  | none => nothing
  | some x => when (s.flag MAC.MAC_CTL_EN && decide (x.decide_ ≤ s.ns)) (seq [
      setMac fun m => { m with watches := m.watches.erase x }, clearAlt i,
      when (!x.heard) (withNode i fun n => ask fun s =>
        let k := n.misses + 1
        let n' := { n with misses := k, missTotal := min (n.missTotal + 1) 65535 }
        seq [count (MAC.CNT_LO 0), fire 41 (i + k * 2 ^ 20),
          if s.fld MAC.MISS_CFG_MISS_LIMIT < k then seq [enterSearch i n', endWatches i true]
          else seq [putNode i { n' with state := 3 }, fileWake i (x.wake + n.interval * 250000)]])])))

/-- ALT_WAKE_EXPIRE of node `i`'s alternate wake. -/
def execAltWakeExpire (i : Fin 131072) := run (inDomain 2 (ask fun s =>
  match s.mac.watches.find? (fun x => x.nidx = i.val && x.alt) with
  | none => nothing
  | some x => when (s.flag MAC.MAC_CTL_EN && decide (x.decide_ ≤ s.ns)) (clearAlt i)))

/-! ### Acknowledgements (R235, R236) -/

/-- Whether a MACREQ ACK still waits for its frame's measurement. -/
def State.ackWaits (s : State) (d : Desc) : Bool :=
  s.mac.inbox.any (fun f => f.nidx = d.nidx && f.sfd = d.sfd) ||
    s.cry.ctxs.any (fun e => e.2.decision.nidx = d.nidx && e.2.decision.managed && (match e.2.frame with
      | some x => x.sfd = d.sfd
      | none => false))

/-- The interval the tag holds. -/
def State.tagInterval (s : State) (i : Nat) (n : Node) : Nat := getD s.mac.tagIv i n.interval

/-- The next wake of the tag's unchanged schedule after a frame. -/
def State.oldSchedule (s : State) (i : Nat) (n : Node) (x : Meas) : Nat :=
  let iv := s.tagInterval i n * 250000
  if x.kind ≠ 2 then x.wake + iv
  else if s.mac.calendar.any (fun e => e.nidx = i && !e.alt) then n.wake
  else n.anchor + ((x.sfd - n.anchor) / max iv 1 + 1) * iv

/-- The acknowledgement's bytes before its MIC, and the length of its MHR. -/
def State.ackBytes (s : State) (n : Node) (x : Meas) (fp : Bool) : List Nat × Nat :=
  let fc := (if x.level = 0 then 0x2002 else 0x200A) + b2n fp * 0x10
  let hdr := leBytes fc 2 ++ [x.seq] ++ (if x.level = 0 then [] else [x.level + 8, 0, 0, 0, 0, 0])
  (hdr ++ leBytes (unsigned 16 (roundAway x.err 1000)) 2 ++ leBytes n.interval 4 ++ [n.chan] ++
    leBytes (unsigned 16 (clampI (-32767) 32767 (roundAway n.rate 10))) 2 ++
    [b2n s.fe.armed.isSome + 2 * b2n x.searched], hdr.length)

/-- An acknowledgement is staged: its next wake is filed and ACK_OUT set. -/
def ackStaged (i : Nat) (n : Node) (x : Meas) (fp : Bool) (b : Nat) : Effect := ask fun s =>
  let next := x.wake + n.interval * 250000
  seq [
    setMac fun m => { m with acks := insertKey m.acks i { anchor := x.wake, wake := next, fp := fp, oldAnchor := n.anchor, oldWake := s.oldSchedule i n x, changed := n.interval ≠ s.tagInterval i n, oldState := n.state, buf := b } },
    mapNode i fun n => { n.setFlagBit 3 true with anchor := x.wake },
    fileWake i next, mapNode i fun y => { y with anchor := n.anchor }]

/-- MACREQ ACK on poll descriptor `d` at instant `ta`: goes on with voice and comparator, or a code of Table 03.5. -/
def macAck (d : Desc) (ta : Instant) (fp auto : Bool) (refused : Nat → Effect) (ok : Nat → Nat → Effect) : Effect := ask fun s =>
  let i := d.nidx
  if !s.flag MAC.MAC_CTL_EN then refused 0x0C
  else withNode i fun n => ask fun s =>
    if n.state = 0 then refused 0x0B
    else match (find s.mac.meas i).filter (fun x => x.sfd = d.sfd) with
      | none => refused 0x0F
      | some x =>
        let fp := if auto then !(s.dlRing i).isEmpty else fp
        let (l, a) := s.ackBytes n x fp
        withMacBuf (refused 5) fun b =>
          let q : TxReq := { port := x.port, chan := x.chan, mode := x.mode, request := signed 8 n.txpwr, fcs := true, cca := false
                             buf := b, len := l.length + micLen x.level + 2, tag := 0#32, cring := 0, owner := .ack, ident := i, trig := ta }
          let done := fun v c => seq [ackStaged i n x fp b, ok v c]
          if x.level = 0 then seq [putBytes (bufAddr b) l, stage q (fun c => seq [freeChain b, refused c]) done]
          else stageSealed .ack i b l a x.level (2 ^ 31 + i) q refused done

/-! ### Downlink delivery (R247, R248) -/

def setBurst (i : Nat) (b : Burst) : Effect := setMac fun m => { m with bursts := insertKey m.bursts i b }
def endBurst (i : Nat) : Effect := setMac fun m => { m with bursts := eraseKey m.bursts i }

/-- The head frame of node `i` is dropped. -/
def dropDl (i : Nat) : Effect := ask fun s => match s.dlRing i with
  | [] => nothing
  | f :: _ => seq [popDl i, freeDesc f.d, count (MAC.CNT_LO 4), fire 49 i]

/-- The burst ends with a failure of the head frame. -/
def dlFail (i : Nat) : Effect := seq [endBurst i, withNode i fun n => ask fun s =>
  if s.fld MAC.DL_CFG_DL_RETRIES ≤ n.dlRetry + 1 then dropDl i else putNode i { n with dlRetry := n.dlRetry + 1 }]

/-- The Downlink data MHR (Table 06.1): key index and frame counter are the cipher engine's. -/
def State.dlMhr (s : State) (n : Node) (ar fp : Bool) (level : Nat) : List Nat :=
  leBytes (0x9C49 + b2n ar * 0x20 + b2n fp * 0x10) 2 ++ [n.dsn] ++ leBytes (s.fld MAC.ADDR_PAN_ID) 2 ++ leBytes n.eui 8
    ++ leBytes (s.fld MAC.ADDR_SHORT_ADDR) 2 ++ [level + 8, 0, 0, 0, 0, 0]

/-- The request of a downlink staging, TA_eff after `ends`. -/
def State.dlReq (s : State) (i : Nat) (n : Node) (b : Burst) (owner : TxOwner) (buf len ends : Nat) : TxReq :=
  { port := b.port, chan := b.chan, mode := b.mode, request := signed 8 n.txpwr, fcs := true, cca := false, buf := buf, len := len
    tag := 0#32, cring := 0, owner := owner, ident := i, trig := BitVec.ofNat 64 (ends + s.taEff b.port b.mode - 200) }

/-- MAC sends a NULL frame (R248). -/
def sendNull (i : Nat) (b : Burst) (ends : Nat) : Effect := withNode i fun n => withFree 3 fun f => ask fun s =>
  let level := match find s.mac.meas i with
    | some x => if x.level = 0 then 1 + f % 7 else x.level
    | none => 1 + f % 7
  let l := s.dlMhr n false false level ++ [0x02]
  withMacBuf (endBurst i) fun buf => seq [
    putNode i { n with dsn := (n.dsn + 1) % 256 }, setBurst i { b with isNull := true, await_ := none, seen := none },
    stageSealed .null i buf l 21 level (2 ^ 31 + i) (s.dlReq i n b .null buf (l.length + micLen level + 2) ends)
      (fun _ => endBurst i) (fun _ _ => nothing)]

/-- MAC sends node `i`'s head frame, sealing it at its first sending; an empty ring sends NULL. -/
def sendDl (i : Nat) (b : Burst) (ends : Nat) : Effect := withNode i fun n => ask fun s => match s.dlRing i with
  | [] => sendNull i b ends
  | f :: rest =>
    let q := s.dlReq i n b .downlink f.d.buf f.d.len ends
    let level := bits f.d.w2.toNat 2 0
    let b' := { b with sent := b.sent + 1, isNull := false, await_ := none, seen := none }
    let r := BitVec.ofNat 32 (2 ^ 31 + i)
    if f.sealed then stage q (fun _ => dlFail i) (fun _ _ => setBurst i b')
    else
      let fp := !rest.isEmpty && decide (b.sent + 1 < s.fld MAC.DL_CFG_DL_BURST)
      let lost := seq [endBurst i, dropDl i]
      if !s.flag CRY.CRY_CTL_EN || !s.on 16 then lost
      else seq [putChain f.d.buf 0 (s.dlMhr n (!bit f.d.w2.toNat 3) fp level),
        loadNow r (fun _ => lost) fun m => ask fun s => drawNow (s.refSlot r) lost fun fc =>
          stage q (fun _ => dlFail i) fun _ _ => seq [
            mapNode i fun n => { n with dsn := (n.dsn + 1) % 256 },
            setDl i ({ f with sealed := true, seq := n.dsn, fp := fp } :: rest), setBurst i b',
            submitJob { sealing := true, ref := r, buf := f.d.buf, cring := 0, len := f.d.len - micLen level - 2, hdrLen := 21, level := level
                        alg := 0, early := false, tag := 0#32, owner := .mac .downlink i, key := some (0, some m), fc := fc }]]

/-- The head frame is delivered: the next goes while frame-pending was set, NULL where no data frame follows. -/
def dlDelivered (i : Nat) (b : Burst) (ends : Nat) : Effect := ask fun s => match s.dlRing i with
  | [] => endBurst i
  | f :: rest => seq [popDl i, freeDesc f.d, count (MAC.CNT_HI 4),
      if !f.fp then endBurst i
      else if rest.isEmpty || decide (s.fld MAC.DL_CFG_DL_BURST ≤ b.sent) then sendNull i b ends
      else sendDl i b ends]

/-- TAG_ACK: a tag acknowledgement that FWD handed over. -/
def execTagAck := run (inDomain 2 (ask fun s => match s.mac.tagAcks with
  | [] => nothing
  | f :: rest =>
    let hit := s.mac.bursts.find? (fun e => e.2.port = f.port && e.2.chan = f.chan && (match e.2.await_ with
      | some (_, t) => decide (((f.sfd : Int) - t).natAbs ≤ s.fld MAC.DL_CFG_DL_ACKTOL * 1000)
      | none => false))
    let d := rxDesc f.port f.chan f.psdu.length f.buf f.sfd 0
    seq [setMac fun m => { m with tagAcks := rest }, match hit with
      | some (i, b) =>
        if (b.await_.map Prod.fst) = some (byteAt f.psdu 2) then
          seq [freeChain f.buf, dlDelivered i b (f.sfd + s.bodyTime f.mode f.psdu.length)]
        else seq [deliver (s.fld FWD.RING_SEL0_OTHER) d, dlFail i]
      | none => deliver (s.fld FWD.RING_SEL0_OTHER) d]))

/-- Whether the frame whose SFD instant is `t` is still on its way from lane `n` to MAC. -/
def State.onItsWay (s : State) (n t : Nat) : Bool :=
  (match (s.lane n).frame with
    | some f => f.sfd.toNat = t
    | none => false) || (s.lane n).outq.any (fun e => e.d.sfd = t && e.good) || s.mac.tagAcks.any (fun f => f.sfd = t)

/-- DL_ACK_TIMEOUT of node `i`'s burst. -/
def execDlAckTimeout (i : Fin 131072) := run (inDomain 2 (ask fun s => match find s.mac.bursts i.val with
  | none => nothing
  | some b => match b.await_, b.seen with
    | some (_, t), none => when (decide (t + s.fld MAC.DL_CFG_DL_ACKTOL * 1000 + s.dDec b.mode ≤ s.ns)) (dlFail i)
    | some _, some (n, t) => when (!s.onItsWay n t) (dlFail i)
    | none, _ => nothing))

/-- Takes a transmission's end of one of these owners. -/
def takeDone (p : TxOwner → Bool) (k : TxDone → Effect) : Effect := ask fun s => match s.bb.done.find? (fun x => p x.owner) with
  | none => nothing
  | some x => seq [fun s => [.bb { s.bb with done := s.bb.done.erase x }], k x]

/-- MAC holds no staged transmission after a disable (R251). -/
def macDrain : Effect := ask fun s =>
  when (!s.flag MAC.MAC_CTL_EN && !s.flag MAC.MAC_CTL_DRAINED && s.bb.staged.all (fun x => x.owner = .program || x.owner = .flood) &&
      s.bb.done.isEmpty) (seq [setFld MAC.MAC_CTL_DRAINED 1, fire 51 0])

/-- DL_FRAME_COMPLETION: the end of a downlink or NULL frame's transmission. -/
def execDlFrameCompletion := run (inDomain 2 (takeDone (fun o => o = .downlink || o = .null) fun x => ask fun s =>
  let i := x.ident
  seq [
    if x.owner = .null then seq [freeChain x.buf, endBurst i]
    else match find s.mac.bursts i, s.dlRing i with
      | some b, f :: _ =>
        if x.status = 0 then (
          if bit f.d.w2.toNat 3 then dlDelivered i b x.ends.toNat
          else setBurst i { b with await_ := some (f.seq, x.ends.toNat + s.taEff x.port x.mode + s.tSfd x.mode), seen := none })
        else if x.status = 6 then seq [endBurst i, dropDl i]
        else if x.status = 0x0C then seq [endBurst i, popDl i, freeDesc f.d]
        else dlFail i
      | _, _ => endBurst i,
    macDrain]))

/-- ACK_COMPLETION: the end of an acknowledgement's transmission. -/
def execAckCompletion := run (inDomain 2 (takeDone (· = .ack) fun x => ask fun s =>
  let i := x.ident
  seq [freeChain x.buf, match find s.mac.acks i with
    | none => nothing
    | some a => seq [
        setMac fun m => { m with acks := eraseKey m.acks i },
        withNode i fun n => when (n.state ≠ 0) (
          if x.status = 0 then seq [
            putNode i { n.setFlagBit 3 false with anchor := a.anchor, state := if n.state = 1 then 2 else n.state },
            setMac fun m => { m with synced := insertKey m.synced i true, tagIv := eraseKey m.tagIv i },
            count (MAC.CNT_HI 2),
            when a.changed (fileAlt i a.oldWake),
            when a.fp (sendDl i ⟨x.port, x.chan, x.mode, 0, false, none, none⟩ x.ends.toNat)]
          else seq [
            putNode i { n.setFlagBit 3 false with anchor := a.oldAnchor }, count (MAC.CNT_LO 2),
            if a.oldState = 1 then seq [unfileMain i, mapNode i fun n => { n with calEntry := 0xFFFFFFFF }] else fileWake i a.oldWake])],
    macDrain]))

/-! ### The calendar's and the ring's requests (R128-R130) -/

/-- Goes on with an allocated node's record; MAC disabled or a FREE node refuses. -/
def onNode (i : Nat) (refused : Nat → Effect) (k : Node → Effect) : Effect := ask fun s =>
  if !s.flag MAC.MAC_CTL_EN then refused 0x0C else withNode i fun n => if n.state = 0 then refused 0x0B else k n

/-- A node has a WAKE entry, filed or processed. -/
def State.hasWake (s : State) (i : Nat) : Bool :=
  s.mac.calendar.any (fun e => e.nidx = i && !e.alt) || s.mac.watches.any (fun x => x.nidx = i && !x.alt)

/-- CALUPD ADD. -/
def calAdd (i : Nat) (ta : Instant) (rt : Nat) : Effect := withNode i fun n =>
  let iv := max rt 1
  seq [endWatches i true, unfileAlt i,
    putNode i { n.setFlagBit 2 false with state := 2, interval := iv, misses := 0, anchor := (tplus ta (-(iv * 250000 : Nat))).toNat },
    setMac fun m => { m with search := m.search.filter (· ≠ i), synced := eraseKey m.synced i, tagIv := eraseKey m.tagIv i },
    fileWake i ta.toNat]

/-- CALUPD REMOVE. -/
def calRemove (i : Nat) : Effect := seq [endWatches i true, unfile i,
  mapNode i fun n => { n.setFlagBit 2 false with state := if n.state = 4 then 4 else 1, calEntry := 0xFFFFFFFF }]

/-- CALUPD MOVE. -/
def calMove (i : Nat) (ta : Instant) : Effect := ask fun s => when (s.hasWake i) (seq [
  forEach (s.mac.watches.filter (fun x => x.nidx = i && !x.alt)) endWatch, fileWake i ta.toNat])

/-- CALUPD INTERVAL: the tag keeps the interval it holds until an acknowledgement tells it the new one. -/
def calInterval (i rt : Nat) : Effect := withNode i fun n => ask fun s => seq [
  setMac fun m => { m with tagIv := insertKey m.tagIv i (s.tagInterval i n) }, putNode i { n with interval := max rt 1 }]

/-- MACREQ SEARCH. -/
def macSearch (i : Nat) : Effect := withNode i fun n => when (n.state ≠ 4) (seq [endWatches i true, enterSearch i (n.setFlagBit 2 false)])

/-! ### Node operations (R228) -/

/-- A node operation ends with a RESULT. -/
def nodeDone (r : Nat) : Effect := seq [setFld MAC.NODE_OP_RESULT r, setFld MAC.NODE_OP_BUSY 0]

def nodeAlloc (i : Nat) : Effect := seq [setFld MAC.NODE_OP_NIDX i, withNode i fun n => ask fun s =>
  if n.state ≠ 0 then nodeDone 2
  else seq [putNode i { eui := s.pair MAC.NODE_ARG0 MAC.NODE_ARG1, state := 1, port := s.fld MAC.NODE_ARG2_PORT
                        mode := s.fld MAC.NODE_ARG2_MODE, chan := s.fld MAC.NODE_ARG2_CHAN, txpwr := s.fld MAC.NODE_ARG2_TXPWR
                        interval := s.fld MAC.NODE_ARG3_INTERVAL, dev := s.fld MAC.MISS_CFG_DEV_INIT * 10
                        dlHead := 0xFFFFFFFF, dlTail := 0xFFFFFFFF, calEntry := 0xFFFFFFFF },
    setMac fun m => { m with synced := eraseKey m.synced i, tagIv := eraseKey m.tagIv i, meas := eraseKey m.meas i }, nodeDone 0]]

def nodeRelease (i : Nat) : Effect := seq [setFld MAC.NODE_OP_NIDX i, withNode i fun n => ask fun s =>
  if n.state = 0 then nodeDone 3
  else seq [endWatches i true, unfile i, forEach (s.dlRing i) (fun f => freeDesc f.d),
    setMac fun m => { m with downlink := eraseKey m.downlink i, bursts := eraseKey m.bursts i, search := m.search.filter (· ≠ i)
                             synced := eraseKey m.synced i, meas := eraseKey m.meas i },
    mapNode i fun n => { n with state := 0, dlCount := 0, calEntry := 0xFFFFFFFF, dlHead := 0xFFFFFFFF, dlTail := 0xFFFFFFFF },
    setKey fun q => q.dropCache i, nodeDone 0]]

def nodeFlush (i : Nat) : Effect := seq [setFld MAC.NODE_OP_NIDX i, withNode i fun n =>
  if n.state = 0 then nodeDone 3 else seq [writeBack i, nodeDone 0]]

def nodeLoad (i : Nat) : Effect := seq [setFld MAC.NODE_OP_NIDX i, withNode i fun n =>
  seq [forEach (List.range 32) (fun w => setReg (MAC.NODE_VIEW w) (fieldLe (nodeBytes n) (4 * w) 4)), nodeDone 0]]

def execNodeAlloc (i : Fin 131072) := run (inDomain 2 (nodeAlloc i))
def execNodeRelease (i : Fin 131072) := run (inDomain 2 (nodeRelease i))
def execNodeFlush (i : Fin 131072) := run (inDomain 2 (nodeFlush i))
def execNodeLoad (i : Fin 131072) := run (inDomain 2 (nodeLoad i))

/-- A write of NODE_OP. -/
def nodeOpWrite (op i : Nat) : Effect := match op with
  | 1 => nodeAlloc i | 2 => nodeRelease i | 3 => nodeFlush i | 4 => nodeLoad i | _ => setFld MAC.NODE_OP_NIDX i

/-- RECORD_ERROR: a DRAM error on reading node `i`'s record, which is not in the cache (R252). -/
def execRecordError (i : Fin 131072) := run (inDomain 2 (ask fun s => when ((find s.mac.cache i.val).isNone) (
  let n := (s.nodeNow i).setFlagBit 0 false
  seq [cacheNode i n, enterSearch i n, fire 50 i])))

/-! ### The time parent (R244, R245, R394) -/

/-- While the parent is LOST, every set-aside lane of its port that holds no window gets one of twice its last INTERVAL. -/
def parentSearch : Effect := ask fun s => match s.mac.parent with
  | some (_, iv) => when (s.fld MAC.PARENT_CTL_STATE = 3) (
      let p := s.fld MAC.PARENT_CTL_PORT
      let (lo, hi) := portLanes p
      forEach (((List.range (hi - lo)).map (· + lo)).filter (fun n => s.setAside n && (s.lane n).windows.isEmpty && !(s.lane n).broken)) (fun n =>
        seq [setLane n fun l => { l with windows := addWindow l.windows (⟨tplus s.now 2000, 2 * iv * 1000000, s.fld MAC.PARENT_CTL_CHAN, s.fld MAC.PARENT_CTL_MODE, false, false, false, 0, 0⟩) },
          armWindow n]))
  | none => nothing

/-- PARENT_BEACON: an authenticated beacon of the parent. -/
def execParentBeacon := run (inDomain 2 (ask fun s => match s.mac.beacons with
  | [] => nothing
  | f :: rest => seq [setMac fun m => { m with beacons := rest }, when (s.flag MAC.PARENT_CTL_EN && s.flag MAC.MAC_CTL_EN) (
      let time := fieldLe f.psdu 23 8
      let iv := fieldLe f.psdu 31 2
      let sfd : Int := f.sfd * 65536 + fieldLe f.record 8 2
      let theta := (sfd - signed 32 (s.regN (ACC.INGRESS (2 + f.port)))) - (time * 65536 + signed 32 (s.regN ACC.PARENT_PATH))
      seq [
        when (s.fld MAC.PARENT_CTL_STATE = 3) (fire 45 0),
        setFld MAC.PARENT_CTL_STATE 1, setFld MAC.PARENT_CTL_MISSES 0, setMac fun m => { m with parent := some (time, iv) },
        setAcc fun a => { a with parentStratum := byteAt f.psdu 36 % 128 },
        when (s.fld ACC.ACC_CTL_SRC = 1) (handMeasurement 1 theta (sfd - theta))])]))

/-- PARENT_BEACON_MISS: the expected beacon was not heard within its window. -/
def execParentBeaconMiss := run (inDomain 2 (ask fun s => match s.mac.parent with
  | none => nothing
  | some (time, iv) =>
    let t := time + iv * 1000000
    let k := min (s.fld MAC.PARENT_CTL_MISSES + 1) 15
    when (s.flag MAC.PARENT_CTL_EN && s.flag MAC.MAC_CTL_EN && decide (t + s.fld MAC.PARENT_GUARD_US * 1000 ≤ s.ns)) (seq [
      setMac fun m => { m with parent := some (t, iv) }, setFld MAC.PARENT_CTL_MISSES k,
      if k < 3 then setFld MAC.PARENT_CTL_STATE 2
      else when (s.fld MAC.PARENT_CTL_STATE ≠ 3) (seq [setFld MAC.PARENT_CTL_STATE 3, fire 44 0,
        when (s.fld ACC.ACC_CTL_SRC = 1) enterHoldover]),
      parentSearch])))

/-! ### Enabling and disabling (R251) -/

def macEnable : Effect := ask fun s => when (!s.flag MAC.MAC_CTL_EN) (
  let now := s.ns / 250000
  let past := fun (e : CalEntry) => !e.overflow && decide (e.slot < now)
  seq [setFld MAC.MAC_CTL_EN 1, setFld MAC.MAC_CTL_DRAINED 0,
    setMac fun m => { m with slot := now, calendar := m.calendar.filter (fun e => !past e) },
    forEach (s.mac.calendar.filter past) openWake])

def macDisable : Effect := ask fun s => when (s.flag MAC.MAC_CTL_EN) (seq [
  setFld MAC.MAC_CTL_EN 0,
  forEach s.mac.watches (fun x => seq [endWatch x, when (!x.heard) (setMac fun m => { m with calendar := m.calendar ++ [⟨x.nidx, (x.e - x.g) / 250000, x.wake, x.alt, false⟩] })]),
  forEach (allBelow 96 (fun n => (s.lane n).windows.any (fun w => !w.byListen))) (fun n => ask fun s =>
    forEach ((s.lane n).windows.filter (fun w => !w.byListen)) (fun w => dropWindow n w.from_)),
  forEach (s.bb.staged.filter (fun x => x.owner ≠ .program && x.owner ≠ .flood && x.phase ≠ .onAir)) (fun x => endTx x 0x0C),
  macDrain])
def execMacEnable := run (inDomain 2 macEnable)
def execMacDisable := run (inDomain 2 macDisable)

end Sys2Proof.Machine
end

