-- ==== Sys2Proof/Machine/Fe.lean ====
section
/-!
DEFINITION. The RF front-end's commands (chapter 04): ports and their calibration, the front-end control lines, the
antenna-load monitor, temperature, region profiles and the scheduled switch, and the gain control.
-/
namespace Sys2Proof.Machine

open Sys2Proof

/-! ### Region switches and their end (R171) -/

/-- The last calibration of a switch has ended: EV_FE_PROFSWITCH, and the active slot goes to the regulatory page. -/
def switchEnd (failed : List Nat) (old : Nat) (wasNone : Bool) : Effect := ask fun s => seq [
  fire 23 (s.fld FE.PROF_STATE_ACTIVE + old * 2 ^ 8 + b2n wasNone * 2 ^ 11
    + ((failed.map (fun p => 2 ^ p)).sum) * 2 ^ 12),
  fun s => [.fe { s.fe with switching := none }],
  ask fun s => writeRegState (s.fld FE.PROF_STATE_ACTIVE) s.regLocks]

/-- The switch calibration of port `p` has ended. -/
def switchStep (p : Nat) (ok : Bool) : Effect := ask fun s =>
  match s.fe.switching with
  | none => nothing
  | some (wait, failed, old, wasNone) => when (wait.contains p) (
    let left := wait.filter (· ≠ p)
    let bad := if ok then failed else failed ++ [p]
    if left.isEmpty then switchEnd bad old wasNone
    else fun s => [.fe { s.fe with switching := some (left, bad, old, wasNone) }])

/-! ### Calibration (R143-R152) -/

/-- A calibration of port `p` starts, for one of EV20's causes: the port neither receives nor transmits (R143). -/
def calStart (p cause : Nat) : Effect := seq [
  setPort p (fun x => { x with cal := some cause, pend := none, forcedAt := none, paEn := false }),
  ask fun s => setPort p (fun x => { x with calSince := s.acc.ltb }),
  setFld (FE.PORT_STATUS_CAL_BUSY p) 1, setFld (FE.PORT_STATUS_CAL_WAIT p) 0,
  setFld (FE.PORT_STATUS_READY p) 0, setFld (FE.PORT_STATUS_LOCKED p) 0]

/-- The instants between which a staged transmission is, or will be, on the air. -/
def Staged.air_ (x : Staged) : Instant × Instant :=
  let a := if x.phase = .onAir then x.launched else x.first
  (a, tplus a x.air)

/-- Whether a staged transmission of port `p` overlaps [a, b]. -/
def State.onAirIn (s : State) (p : Nat) (a b : Instant) : Bool :=
  (s.stagedOn p).any (fun x => overlaps x.air_.1 x.air_.2 a b)

/-- Whether CAL_GUARD defers a calibration of port `p` now (R145). -/
def State.guarded (s : State) (p : Nat) : Bool :=
  s.onAirIn p s.now (tplus s.now (s.fld FE.CAL_GUARD_US * 1000))

/-- A command or temperature request: it merges into one pending or running (R144), runs at once, or waits (R145). -/
def calRequest (p cause : Nat) : Effect := ask fun s =>
  let x := s.port p
  if x.cal.isSome || x.pend.isSome || x.retry.isSome then nothing
  else if s.guarded p then seq [
    setPort p (fun x => { x with pend := some cause, pendSince := s.acc.ltb }),
    setFld (FE.PORT_STATUS_CAL_WAIT p) 1, count (FE.COUNT_B_CAL_DEFER p)]
  else calStart p cause

/-- PORT_ENABLE: EN from 0 to 1 starts a start calibration and frees the lanes of the capture pool (R144, R172). -/
def portEnable (p : Nat) : Effect := ask fun s =>
  when (!s.flag (FE.PORT_CTL_EN p)) (seq [setFld (FE.PORT_CTL_EN p) 1, lanesEnable p,
    when ((s.port p).cal = none) (seq [setPort p (fun x => { x with retry := none }), calStart p 0])])
def execPortEnable (p : Fin 3) := run (inDomain (portDomain p) (portEnable p))

/-- The synthesiser of a disabled port stops once no transmission remains (R172). -/
def synthStop (p : Nat) : Effect := ask fun s =>
  when (!s.flag (FE.PORT_CTL_EN p) && (s.stagedOn p).isEmpty) (setFld (FE.PORT_STATUS_LOCKED p) 0)

/-- PORT_DISABLE (R172): what has not launched is flushed, a calibration is cut short, the lanes end (R200). -/
def portDisable (p : Nat) : Effect := ask fun s =>
  when (s.flag (FE.PORT_CTL_EN p)) (seq [
    setFld (FE.PORT_CTL_EN p) 0,
    forEach ((s.stagedOn p).filter (fun x => x.phase ≠ .onAir)) (fun x => endTx x 0x0C),
    setPort p (fun x => { x with cal := none, pend := none, forcedAt := none, retry := none }),
    setFld (FE.PORT_STATUS_CAL_BUSY p) 0, setFld (FE.PORT_STATUS_CAL_WAIT p) 0,
    switchStep p false, synthStop p, lanesDisable p])
def execPortDisable (p : Fin 3) := run (inDomain (portDomain p) (portDisable p))

/-- CAL_REQ on an enabled port; in the state of R151 it runs at once. -/
def calReq (p : Nat) : Effect := ask fun s =>
  when (s.flag (FE.PORT_CTL_EN p)) (if (s.port p).failed && (s.port p).cal = none then calStart p 1 else calRequest p 1)
def execCalReq (p : Fin 3) := run (inDomain (portDomain p) (calReq p))

/-- FE_EXP.CAL_FORCE in an unlocked window: a calibration at once (R148). -/
def calForce (p : Nat) : Effect := ask fun s =>
  when (s.flag FE.EXPERT_UNLOCK_UNLOCKED && s.flag (FE.PORT_CTL_EN p) && (s.port p).cal = none) (calStart p 5)
def execCalForce (p : Fin 3) := run (inDomain (portDomain p) (calForce p))

/-- CALIBRATION_START: a waiting calibration that nothing defers any longer, or a forced one at its instant S. -/
def execCalibrationStart (p : Fin 3) := run (inDomain (portDomain p) (ask fun s =>
  let x := s.port p
  match x.pend, x.forcedAt with
  | some _, some t => when (s.reached t) (calStart p 5)
  | some c, none => when (!s.guarded p) (calStart p c)
  | none, _ => nothing))

/-- The earliest instant from now at which a calibration overlaps no staged transmission (R147). -/
def State.freeInstant (s : State) (p : Nat) : Instant :=
  let d := dCal p + 20000
  let cands := s.now :: ((s.stagedOn p).map (fun x => tplus x.air_.2 1)).filter (fun t => decide (0 ≤ tdiff t s.now))
  let good := cands.filter (fun t => !s.onAirIn p t (tplus t d))
  good.foldl (fun best t => if tdiff t best < 0 then t else best) (good.headD s.now)

/-- CAL_FORCED: a calibration has waited CAL_MAXDEFER (R147). -/
def execCalForced (p : Fin 3) := run (inDomain (portDomain p) (ask fun s =>
  let x := s.port p
  when (x.pend.isSome && x.forcedAt = none && decide (x.pendSince + s.fld (FE.FE_EXP_CAL_MAXDEFER p) * 1000000 ≤ s.acc.ltb))
    (seq [fire 22 p, ask fun s => setPort p (fun x => { x with forcedAt := some (s.freeInstant p) })])))

/-- A calibration ends well (R143 step 8, R152). In the state of R151, READY returns only with a start or command
calibration. -/
def calDone (p cause rej : Nat) : Effect := ask fun s =>
  let still := (s.port p).failed && !(cause = 0 || cause = 1 || cause = 5)
  seq [
    setPort p (fun x => { x with cal := none, retry := none, agc := 0, failed := still }),
    setFld (FE.PORT_STATUS_CAL_BUSY p) 0, setFld (FE.PORT_STATUS_LOCKED p) 1, setFlag (FE.PORT_STATUS_READY p) (!still),
    setFld (FE.CAL_INFO_CAL_TEMP p) (s.fld (FE.PORT_STATUS_TEMP p)), setFld (FE.CAL_INFO_IMG_REJ p) rej,
    setFld (FE.CAL_INFO_CAL_COUNT p) ((s.fld (FE.CAL_INFO_CAL_COUNT p) + 1) % 256),
    fire 20 (p + cause * 2 ^ 2 + rej * 2 ^ 8), switchStep p true]

/-- A calibration fails in `step` (R151): it is repeated once 10 ms later; a second failure leaves the port not READY. -/
def calFail (p cause step : Nat) : Effect := ask fun s =>
  seq [setFld (FE.PORT_STATUS_CAL_BUSY p) 0, setFlag (FE.PORT_STATUS_LOCKED p) (step ≠ 4),
    if (s.port p).retry.isSome then seq [
      setPort p (fun x => { x with cal := none, retry := none, failed := true }), fire 21 (p + step * 2 ^ 8), switchStep p false]
    else setPort p (fun x => { x with cal := none, retry := some (cause, s.acc.ltb + 10000000) })]

/-- CALIBRATION_COMPLETE: the running calibration ends, failing to lock, or with the image rejection it measured in dB. -/
def execCalibrationComplete (p : Fin 3) (locks : Bool) (rej : BitVec 8) := run (inDomain (portDomain p) (ask fun s =>
  match (s.port p).cal with
  | none => nothing
  | some c =>
    if !locks || bits (s.regN PLT.SUPPLY_STATUS) 5 4 ≠ 0 then calFail p c 4
    else if rej.toNat < 45 then calFail p c 5
    else when (decide ((s.port p).calSince + dCal p ≤ s.acc.ltb)) (calDone p c rej.toNat)))

/-- CAL_RETRY: the repeat of a failed calibration begins. -/
def execCalRetry (p : Fin 3) := run (inDomain (portDomain p) (ask fun s =>
  match (s.port p).retry with
  | some (c, t) => when ((s.port p).cal = none && decide (t ≤ s.acc.ltb)) (calStart p c)
  | none => nothing))

/-- SYNTH_LOCK_LOSS: a loss of lock, outside a calibration (R149) or in one (R151). -/
def lockLoss (p : Nat) : Effect := inDomain (portDomain p) (ask fun s =>
  match (s.port p).cal with
  | some c => calFail p c 4
  | none => when (s.flag (FE.PORT_STATUS_LOCKED p)) (seq [
      setFld (FE.PORT_STATUS_LOCKED p) 0, fire 19 p,
      forEach ((s.stagedOn p).filter (fun x => x.phase = .onAir)) (fun x => seq [endTx x 3,
        setPort p (fun y => { y with lastEnd := s.acc.ltb })]),
      setPort p (fun x => { x with retry := none }),
      when (s.flag (FE.PORT_CTL_EN p)) (calStart p 4)]))
def execSynthLockLoss (p : Fin 3) := run (lockLoss p)

/-- TX_LATE_DROP: a voice has waited for lock past its tolerance (R150). -/
def execTxLateDrop (v : Fin 12) (j : Fin 4) := run (inDomain 12 (ask fun s =>
  match s.bb.staged.find? (fun x => x.voice = v.val && x.place = j.val) with
  | some x => when (x.phase = .waitLock && s.reached (tplus x.first ((s.fld FE.TX_LATE_TOL_NS : Int) - 200))) (seq [
      endTx x 1, count (FE.COUNT_A_TXLATE x.port), fire 18 v,
      setPort x.port (fun y => { y with lastEnd := s.acc.ltb })])
  | none => nothing))

/-! ### Fold-back, temperature and the load monitor (R141, R157-R161) -/

/-- A fold-back cause begins: transmissions on the air are capped (R141). -/
def foldBegin (p causeBit : Nat) : Effect := ask fun s => seq [
  setFld (FE.PORT_STATUS_FOLD_CAUSE p) (putBit (s.fld (FE.PORT_STATUS_FOLD_CAUSE p)) causeBit true),
  ask fun s => match s.foldCap p with
    | some c => fun s => [.bb { s.bb with staged := s.bb.staged.map (fun x =>
        if x.port = p ∧ x.phase = .onAir then { x with applied := min x.applied c, folded := true } else x) }]
    | none => nothing]

/-- A fold-back cause ends. -/
def foldEnd (p causeBit : Nat) : Effect := ask fun s =>
  setFld (FE.PORT_STATUS_FOLD_CAUSE p) (putBit (s.fld (FE.PORT_STATUS_FOLD_CAUSE p)) causeBit false)

/-- TEMP_SAMPLE: every 10 ms a port's sensor gives a raw reading, in 0.25 °C (R144, R161). -/
def tempSample (p : Nat) (raw : Int) : Effect := ask fun s =>
  let t := clampI (-512) 511 (raw + s.fldI (FE.TEMP_CAL_X_EFF p))
  let limit := s.fldI (FE.TEMP_MAX_LIMIT p)
  let hot := bit (s.fld (FE.PORT_STATUS_FOLD_CAUSE p)) 1
  seq [setFldI (FE.PORT_STATUS_TEMP p) t,
    when (decide (limit ≤ t) && !hot) (seq [foldBegin p 1, fire 25 (p + unsigned 10 t * 2 ^ 22)]),
    when (decide (t ≤ limit - 20) && hot) (foldEnd p 1),
    when (s.flag (FE.PORT_CTL_EN p) && !s.flag (FE.FE_EXP_TEMPCAL_DIS p) &&
      decide (32 ≤ (t - s.fldI (FE.CAL_INFO_CAL_TEMP p)).natAbs)) (calRequest p 2)]
def execTempSample (p : Fin 3) (raw : BitVec 10) := run (inDomain (portDomain p) (ask fun s =>
  when (s.acc.ltb % 10000000 = 0) (tempSample p raw.toInt)))

/-- The class of a fault by the phase of the reflection coefficient, in units of 1.40625° (R158). -/
def loadClass (phase : Int) : Nat := if phase.natAbs ≤ 32 then 1 else if 96 ≤ phase.natAbs then 2 else 3

/-- One measurement of the antenna load (R157-R160): the return loss before LOADDET_EFF, in 0.25 dB, and the phase. -/
def loadMeasure (p : Nat) (raw phase : Int) : Effect := ask fun s =>
  let rl := (clampI 0 255 (raw + s.fldI (FE.LOADDET_CAL_X_EFF p))).toNat
  let bad := decide (rl < s.fld (FE.LOAD_CTL_RL_MIN p))
  let cls := if bad then loadClass phase else 0
  let x := s.port p
  let folded := bit (s.fld (FE.PORT_STATUS_FOLD_CAUSE p)) 0
  let goods := if bad then 0 else if folded then x.goods + 1 else 0
  let clear := folded && s.flag (FE.FE_EXP_LOAD_AUTOCLR p) && decide (64 ≤ goods)
  seq [setFld (FE.LOAD_MEAS_CLASS p) cls, setFldI (FE.LOAD_MEAS_PHASE p) phase, setFld (FE.LOAD_MEAS_RL p) rl,
    setPort p (fun x => { x with measured := some s.acc.ltb, faults := if bad then x.faults + 1 else 0
                                 goods := if clear then 0 else goods }),
    when (bad && !folded && decide (1 ≤ x.faults)) (seq [foldBegin p 0, fire 16 (p + cls * 2 ^ 2 + rl * 2 ^ 8)]),
    when clear (seq [foldEnd p 0, fire 17 p])]

/-- LOAD_MEASUREMENT, at the end of each 8 µs of a transmission resolved to -10 dBm or more, from 8 µs after its first
chip (R157). -/
def execLoadMeasurement (p : Fin 3) (rl : Int) (phase : BitVec 8) := run (inDomain (portDomain p) (ask fun s =>
  when ((s.stagedOn p).any (fun x => x.phase = .onAir && decide (-20 ≤ x.power) &&
      decide (16000 ≤ tdiff s.now x.launched) && decide (tdiff s.now x.launched % 8000 = 0)))
    (loadMeasure p rl phase.toInt)))

/-- LOAD_CLR (R160). -/
def loadClr (p : Nat) : Effect := seq [foldEnd p 0, setPort p (fun x => { x with faults := 0, goods := 0 })]
def execLoadClr (p : Fin 3) := run (inDomain (portDomain p) (loadClr p))

/-- A write of LOAD_CTL: FOLD_PWR is held to -10 to +10 dBm (Table 04.21). -/
def loadCtlWrite (p v : Nat) : Effect := seq [
  setFldI (FE.LOAD_CTL_FOLD_PWR p) (clampI (-20) 20 (signed 8 (bits v 15 8))), setFld (FE.LOAD_CTL_RL_MIN p) (bits v 7 0),
  when (bit v 24) (loadClr p)]

/-! ### Front-end control lines (R153-R156) -/

/-- PA_LEAD and PA_LAG of a port in ns. -/
def State.paLead (s : State) (p : Nat) : Nat := s.fld (FE.FEC_CTL_PA_LEAD p) * 50
def State.paLag (s : State) (p : Nat) : Nat := s.fld (FE.FEC_CTL_PA_LAG p) * 50

/-- Whether a voice of port `p` is on the air or launches within PA_LEAD. -/
def State.busyAir (s : State) (p : Nat) : Bool := s.onAirIn p s.now (tplus s.now (s.paLead p))

/-- PA_EN_ASSERT: PA_LEAD before a staged transmission's first chip (R155). -/
def execPaEnAssert (p : Fin 3) := run (inDomain (portDomain p) (ask fun s =>
  when ((s.port p).cal = none && (s.stagedOn p).any (fun x => s.reached (tplus x.first (-(s.paLead p : Int)))))
    (setPort p (fun x => { x with paEn := true }))))

/-- PA_EN_RELEASE: PA_LAG after the last chip, unless the next transmission is close (R153). -/
def execPaEnRelease (p : Fin 3) := run (inDomain (portDomain p) (ask fun s =>
  let e := (s.port p).lastEnd
  when (decide (e + s.paLag p ≤ s.acc.ltb) && !(s.stagedOn p).any (fun x =>
      x.phase = .onAir || decide (s.ltbOf x.first < e + s.paLead p + s.paLag p) || s.reached (tplus x.first (-(s.paLead p : Int)))))
    (setPort p (fun x => { x with paEn := false }))))

/-- ANT_SEL_WRITE (R156). -/
def antSelWrite (p v : Nat) : Effect := ask fun s => seq [setFld (FE.ANT_SEL p) v,
  if s.busyAir p then setPort p (fun x => { x with antWait := true })
  else setPort p (fun x => { x with antPins := v % 4, antWait := false })]
def execAntSelWrite (p : Fin 3) (v : BitVec 2) := run (inDomain (portDomain p) (antSelWrite p v.toNat))

/-- ANT_SEL_APPLY: a deferred value reaches the pins. -/
def execAntSelApply (p : Fin 3) := run (inDomain (portDomain p) (ask fun s =>
  when ((s.port p).antWait && !s.busyAir p && decide ((s.port p).lastEnd + s.paLag p ≤ s.acc.ltb))
    (setPort p (fun x => { x with antPins := s.fld (FE.ANT_SEL p), antWait := false }))))

/-! ### Profiles (R163-R167) -/

/-- INSTALL_SRC. -/
def State.installSrc (s : State) : Nat := s.fld FE.INSTALL_SRC_LO_ADDR + 2 ^ 32 * s.fld FE.INSTALL_SRC_HI_ADDR

/-- PROFILE_INSTALL: the record is checked and written; INSTALL_COMPLETE ends it. Ignored while BUSY (R165). -/
def profileInstall : Effect := ask fun s =>
  let k := s.fld FE.INSTALL_CTL_SLOT
  let going := fun r => seq [setFld FE.INSTALL_CTL_BUSY 1, fun s => [.fe { s.fe with install := some (k, r) }]]
  if s.flag FE.INSTALL_CTL_BUSY then nothing
  else if bit (s.fld FE.PROF_STATE_LOCKED) k then going 4
  else if s.activeSlot = some k || (s.fe.armed.map Prod.fst) = some k || (s.fe.arming.map Prod.fst) = some k then going 5
  else engineRead s.installSrc 512 (going 6) (fun r => ask fun s =>
    match s.profileCheck r with
    | 0 => seq [mramWrite (profAddr k) r, going 0]
    | c => going c)
def execProfileInstall := run (inDomain 2 profileInstall)

/-- INSTALL_COMPLETE: the readback check, DONE and RESULT. -/
def execInstallComplete := run (inDomain 2 (ask fun s =>
  match s.fe.install with
  | none => nothing
  | some (k, r) =>
    let res := if r = 0 && s.slotCheck k ≠ 0 then 7 else r
    seq [fun s => [.fe { s.fe with install := none }], setFld FE.INSTALL_CTL_BUSY 0, setFld FE.INSTALL_CTL_DONE 1,
      setFld FE.INSTALL_CTL_RESULT res,
      when (r = 0) (setFld FE.PROF_STATE_VALID (putBit (s.fld FE.PROF_STATE_VALID) k (res = 0))),
      when (res ≠ 0) (fire 24 (k + res * 2 ^ 4))]))

/-- SLOT_LOCK_WRITE: valid slots named are locked for good (R166). -/
def slotLockWrite (v : Nat) : Effect := ask fun s =>
  let locks := s.fld FE.PROF_STATE_LOCKED ||| (v % 256 &&& s.fld FE.PROF_STATE_VALID)
  when (locks ≠ s.fld FE.PROF_STATE_LOCKED) (seq [setFld FE.PROF_STATE_LOCKED locks, setFld FE.SLOT_LOCK_LOCK locks,
    writeRegState s.regActive locks])
def execSlotLockWrite (v : BitVec 8) := run (inDomain 2 (slotLockWrite v.toNat))

/-- Tunes the ports to the centres of slot `k`, or to the default centres (R167). -/
def tuneAll (k : Option Nat) : Effect := ask fun s =>
  forEach (List.range 3) (fun p => setFld (FE.TUNE_CENTRE_KHZ p)
    (match k with | some k => s.profCentre k p | none => centreDefault p))

/-- The start-up check: the slot that was active when the chip last ran, if its record is valid (R167). -/
def profileStart (slot : Nat) : Effect := ask fun s =>
  let valid := (allBelow 8 (fun k => s.slotCheck k = 0))
  let vmask := (valid.map (fun k => 2 ^ k)).sum
  seq [setFld FE.PROF_STATE_VALID vmask, setFld FE.PROF_STATE_LOCKED s.regLocks, setFld FE.SLOT_LOCK_LOCK s.regLocks,
    if slot < 8 && valid.contains slot then
      seq [setFld FE.PROF_STATE_ACTIVE slot, setFld FE.PROF_STATE_NONE 0, tuneAll (some slot)]
    else seq [setFld FE.PROF_STATE_NONE 1, when (decide (slot < 8)) (fire 24 (slot + 0xF * 2 ^ 4)), fire 26 0, tuneAll none]]

/-! ### Scheduled region switch (R169-R171) -/

/-- SWITCH_AT. -/
def State.switchAt (s : State) : Instant := BitVec.ofNat 64 (s.pair FE.SWITCH_AT_LO FE.SWITCH_AT_HI)

/-- SWITCH_ARM (R169): the causes are looked at in the order of its table. -/
def switchArm : Effect := ask fun s =>
  let k := s.fld FE.SWITCH_CTL_NEXT
  let t := s.switchAt
  if tdiff t s.now < 10000000 then setFld FE.SWITCH_CTL_ERR 1
  else if s.slotCheck k ≠ 0 then setFld FE.SWITCH_CTL_ERR 2
  else if s.activeSlot = some k then setFld FE.SWITCH_CTL_ERR 3
  else if s.flag FE.INSTALL_CTL_BUSY then setFld FE.SWITCH_CTL_ERR 4
  else fun s => [.fe { s.fe with arming := some (k, t) }]
def execSwitchArm := run (inDomain 2 switchArm)

/-- SWITCH_CANCEL before SWITCH_AT (R169). -/
def switchCancel : Effect := ask fun s =>
  seq [fun s => [.fe { s.fe with arming := none }],
    match s.fe.armed with
    | some (_, t) => when (!s.reached t) (seq [fun s => [.fe { s.fe with armed := none }], setFld FE.SWITCH_CTL_ARMED 0, disarm 73])
    | none => nothing]
def execSwitchCancel := run (inDomain 2 switchCancel)

/-- Re-checks one staging against the profile of an armed switch (R170). -/
def recheck (k : Nat) (t : Instant) (x : Staged) : Effect := ask fun s =>
  when (x.phase ≠ .onAir && decide (0 ≤ tdiff x.first t)) (
    let retunes := s.profCentre k x.port ≠ s.fld (FE.TUNE_CENTRE_KHZ x.port)
    if retunes && overlaps x.first (tplus x.first x.air) t (tplus t (dCal x.port + 20000)) then endTx x 4
    else match s.permits (some k) x.port x.chan with
      | none => endTx x 4
      | some (_, e) => match s.resolve k e x.port x.request with
        | none => endTx x 4
        | some p => seq [when (p ≠ x.request) (clampCount x.port), setStaged x.voice x.place (fun y => { y with power := p })])

/-- SWITCH_ARMED: an accepted arm sets ARMED, replaces an armed switch, and re-checks the stagings at or after T. -/
def execSwitchArmed := run (inDomain 2 (ask fun s =>
  match s.fe.arming with
  | none => nothing
  | some (k, t) => seq [
      fun s => [.fe { s.fe with arming := none, armed := some (k, t) }], setFld FE.SWITCH_CTL_ARMED 1, arm 73 t,
      forEach s.bb.staged (recheck k t)]))

/-- At SWITCH_AT the new profile is in force and the retuning ports calibrate at their new centres (R171); the airtime
charges move to the sub-bands in which their channels now lie (R250). -/
def regionSwitch : Effect := ask fun s =>
  match s.fe.armed with
  | none => nothing
  | some (k, t) => when ((s.comp 73).armed && s.reached t) (
    let retuned := allBelow 3 (fun p => s.profCentre k p ≠ s.fld (FE.TUNE_CENTRE_KHZ p))
    let cals := retuned.filter (fun p => s.on (portDomain p) && s.flag (FE.PORT_CTL_EN p))
    let old := s.fld FE.PROF_STATE_ACTIVE
    let wasNone := s.flag FE.PROF_STATE_NONE
    seq [
      setComp 73 (fun c => { c with armed := false, fired := true }),
      fun s => [.fe { s.fe with armed := none, switching := some (cals, [], old, wasNone) }],
      setFld FE.SWITCH_CTL_ARMED 0, setFld FE.SWITCH_CTL_DONE 1,
      setFld FE.PROF_STATE_ACTIVE k, setFld FE.PROF_STATE_NONE 0, tuneAll (some k),
      fun s => [.mac { s.mac with charges := s.mac.charges.map (fun c =>
        { c with sub := (s.subOf k c.port c.chan).getD 18 }) }],
      forEach cals (fun p => seq [setPort p (fun x => { x with retry := none }), calStart p 3]),
      when cals.isEmpty (switchEnd [] old wasNone)])
def execRegionSwitch := run (inDomain 2 regionSwitch)

/-! ### Gain control (R138) -/

/-- The port's gain steps; frames in reception note it. -/
def agcTo (p step : Nat) : Effect := seq [setPort p (fun x => { x with agc := step }), fun s =>
  [.bb { s.bb with lanes := s.bb.lanes.map (fun e => if lanePort e.1 = p then
    (e.1, { e.2 with frame := e.2.frame.map (fun f => { f with agcMoved := true }) }) else e) }]]

/-- AGC_STEP_DOWN: the ADC peak has exceeded -1 dBFS on 4 samples. -/
def execAgcStepDown (p : Fin 3) := run (inDomain (portDomain p) (ask fun s =>
  when (!s.flag (FE.FE_EXP_AGC_HOLD p) && decide ((s.port p).agc < 5)) (agcTo p ((s.port p).agc + 1))))

/-- Whether a lane of port `p` holds a frame. -/
def State.holdsFrame (s : State) (p : Nat) : Bool :=
  s.bb.lanes.any (fun e => lanePort e.1 = p && e.2.frame.isSome)

/-- AGC_STEP_UP: the peak has stayed below -20 dBFS for 10 ms and no lane holds a frame. -/
def execAgcStepUp (p : Fin 3) := run (inDomain (portDomain p) (ask fun s =>
  when (!s.flag (FE.FE_EXP_AGC_HOLD p) && decide (0 < (s.port p).agc) && !s.holdsFrame p) (agcTo p ((s.port p).agc - 1))))

end Sys2Proof.Machine
end

