-- ==== Sys2Proof/Machine/Rtc.lean ====
section
/-!
DEFINITION. The real-time clock (chapter 12) and Accord's write of its calendar (R388).
-/
namespace Sys2Proof.Machine

open Sys2Proof

def setRtc (f : Rtc → Rtc) : Effect := fun s => [.rtc (f s.rtc)]

/-! ### The calendar (R415) -/

def leapYear (y : Nat) : Bool := y % 4 = 0 && y ≠ 100
def monthLength (y m : Nat) : Nat :=
  if m = 2 then (if leapYear y then 29 else 28) else if m = 4 || m = 6 || m = 9 || m = 11 then 30 else 31

/-- Days from 2000-01-01 to the start of year `y`, and from there to the start of month `m`. -/
def yearStart (y : Nat) : Nat := 365 * y + (y + 3) / 4 - b2n (decide (100 < y))
def monthStart (y m : Nat) : Nat := ((List.range (m - 1)).map (fun i => monthLength y (i + 1))).sum

/-- A calendar instant, in seconds since 2000-01-01, from the layouts of SET_TIME and SET_DATE (Table 12.6). -/
def calOf (time date : Nat) : Nat :=
  (yearStart (bits date 23 16) + monthStart (bits date 23 16) (bits date 11 8) + bits date 4 0 - 1) * 86400
    + bits time 20 16 * 3600 + bits time 13 8 * 60 + bits time 5 0

/-- SET_ERR's code for fields that fail the checks of R417: 1 FIELD, 2 DATE, 0 for none. -/
def calError (time date : Nat) : Nat :=
  if 24 ≤ bits time 20 16 ∨ 60 ≤ bits time 13 8 ∨ 60 ≤ bits time 5 0 ∨ 200 ≤ bits date 23 16 ∨ bits date 11 8 = 0
    ∨ 12 < bits date 11 8 ∨ bits date 4 0 = 0 then 1
  else if monthLength (bits date 23 16) (bits date 11 8) < bits date 4 0 then 2 else 0

/-- The end of the range: 2200-01-01 00:00:00. -/
def calEnd : Nat := yearStart 200 * 86400

/-- CAP_TIME and CAP_DATE of a calendar instant; 2000-01-01 was weekday 6. -/
def calTime (c : Nat) : Nat := c % 86400 / 3600 * 65536 + c % 3600 / 60 * 256 + c % 60
def calDate (c : Nat) : Nat :=
  let n := c / 86400
  let y := ((List.range 200).filter (fun y => decide (yearStart y ≤ n))).length - 1
  let d := n - yearStart y
  let m := ((List.range 12).filter (fun i => decide (monthStart y (i + 1) ≤ d))).length
  ((n + 5) % 7 + 1) * 2 ^ 24 + y * 65536 + m * 256 + (d - monthStart y m + 1)

/-- NOW_SUBSEC. -/
def State.subsec (s : State) : Nat := s.rtc.sub % 32768

/-- Whether PD_BKP's interface answers: it is locked out below V_LOCK (R423). -/
def inRtc (e : Effect) : Effect := ask fun s => when (!s.rtc.locked && s.on 1) e

/-- NOW_SUBSEC_READ by master `m` (R416). -/
def subsecRead (m : Nat) : Effect := ask fun s => seq [
  setReg (banked m RTC.CAP_TIME) (calTime s.rtc.cal), setReg (banked m RTC.CAP_DATE) (calDate s.rtc.cal),
  setReg (banked m RTC.CAP_ELAPSED_LO) s.rtc.elapsed, setReg (banked m RTC.CAP_ELAPSED_HI) (s.rtc.elapsed / 2 ^ 32)]
def execNowSubsecRead (m : Fin 67) := run (inRtc (subsecRead m))

/-! ### The oscillator's cycles (R419, R420) -/

/-- Ticks of oscillator cycle `c` of a window whose trim is `n`. -/
def trimTicks (n : Int) (c : Nat) : Nat :=
  let k := n.natAbs
  let i := (c * k + 2 ^ 20 - 1) / 2 ^ 20
  if k ≠ 0 ∧ i < k ∧ i * 2 ^ 20 / k = c then (if 0 < n then 2 else 0) else 1

/-- One CK_ACC cycle: a 32.768 kHz oscillator's cycle comes every 30,517.578125 of them (assumption 23). -/
def Rtc.tick (r : Rtc) : Rtc :=
  if r.phase + 32768 < 1000000000 then { r with phase := r.phase + 32768 }
  else
    let t := trimTicks r.trim (r.cycle % 2 ^ 20)
    { r with phase := r.phase + 32768 - 1000000000, cycle := r.cycle + 1, sub := r.sub + t, elapsed := (r.elapsed + t) % 2 ^ 48 }

/-- TRIM_WINDOW. -/
def execTrimWindow := run (ask fun s => when (decide (2 ^ 20 ≤ s.rtc.cycle))
  (setRtc fun r => { r with cycle := r.cycle - 2 ^ 20, trim := r.trimCopy }))

/-! ### Alarms (R426-R432) -/

/-- The present instant alarm `k` is compared with, and its series' unit. -/
def State.alarmNow (s : State) (k : Nat) : Nat := if getD s.rtc.byElapsed k false then s.rtc.elapsed else s.rtc.cal
def State.alarmUnit (s : State) (k : Nat) : Nat := if getD s.rtc.byElapsed k false then 32768 else 1

/-- Whether alarm `k` is armed and its target has been reached. -/
def State.alarmDue (s : State) (k : Nat) : Bool :=
  s.flag (RTC.ALM_CTL_ARM k) && decide (getD s.rtc.target k 0 ≤ s.alarmNow k)

/-- Alarm `k` fires; a series goes on to its first instant after the present one (R427, R428). -/
def alarmFire (skip : Bool) (k : Nat) : Effect := ask fun s =>
  let step := s.regN (RTC.ALM_PERIOD k) * s.alarmUnit k
  let target := getD s.rtc.target k 0
  let q := if step = 0 then 0 else (s.alarmNow k - target) / step
  seq [
    setFld (RTC.ALM_CTL_MISSED k) (min 255 (s.fld (RTC.ALM_CTL_MISSED k) + q + s.fld (RTC.ALM_CTL_FIRED k))),
    setFld (RTC.ALM_CTL_FIRED k) 1, when skip (seq [setFld (RTC.ALM_CTL_SKIPPED k) 1, count RTC.CNT_SKIPS]),
    if step = 0 then setFld (RTC.ALM_CTL_ARM k) 0
    else setRtc fun r => { r with target := putD r.target k (target + (q + 1) * step) 0 }]

/-- The alarms of `l` fire together: EV_RTC_ALARM, at once or when PD_AON next has power. -/
def alarmsFire (skip : Bool) (l : List Nat) : Effect := ask fun s =>
  let mask := (l.map (fun k => 2 ^ k)).sum
  let arg := mask + (if skip then mask * 16 else 0)
  when (!l.isEmpty) (seq [forEach l (alarmFire skip),
    if s.plt.aonHeld then setRtc fun r => { r with owed := r.owed ||| arg } else fire 12 arg])

/-- ALARM_FIRE: every armed alarm whose target has been reached. -/
def execAlarmFire := run (ask fun s => alarmsFire false (allBelow 4 s.alarmDue))

/-- ALARM_ARM: alarm `k` is armed from its registers; a target that is not later fires at once. -/
def alarmArm (k : Nat) : Effect := ask fun s =>
  let time := s.regN (RTC.ALM_TIME k)
  let date := s.regN (RTC.ALM_DATE k)
  let el := s.flag (RTC.ALM_EXP_ELAPSED k)
  if !el && calError time date ≠ 0 then seq [setFld (RTC.ALM_CTL_ARM k) 0, setFld (RTC.ALM_CTL_ERR k) 1]
  else
    let t := if el then time + date % 65536 * 2 ^ 32 else calOf time date
    seq [setFld (RTC.ALM_CTL_ARM k) 1,
      setRtc fun r => { r with target := putD r.target k t 0, byElapsed := putD r.byElapsed k el false },
      ask fun s => when (s.alarmDue k) (alarmsFire true [k])]
def execAlarmArm (k : Fin 4) := run (inRtc (alarmArm k))

/-- ALARM_DISARM. -/
def alarmDisarm (k : Nat) : Effect := setFld (RTC.ALM_CTL_ARM k) 0
def execAlarmDisarm (k : Fin 4) := run (inRtc (alarmDisarm k))

/-- ALARM_CLEAR. -/
def alarmClear (k : Nat) : Effect := seq [
  setFld (RTC.ALM_CTL_FIRED k) 0, setFld (RTC.ALM_CTL_SKIPPED k) 0, setFld (RTC.ALM_CTL_MISSED k) 0]
def execAlarmClear (k : Fin 4) := run (inRtc (alarmClear k))

/-- A write of ALM_CTL_k. -/
def almCtlWrite (k v : Nat) : Effect := seq [
  setFld (RTC.ALM_CTL_WAKE_EN k) (bits v 3 3), when (bit v 1) (alarmClear k),
  if bit v 0 then alarmArm k else alarmDisarm k]

/-! ### Setting the calendar (R417, R429-R431) -/

/-- A SET of the fields `time` and `date`, checked. -/
def calendarSet (time date : Nat) : Effect := ask fun s =>
  let e := calError time date
  if e ≠ 0 then setFld RTC.RTC_STATUS_SET_ERR e
  else if s.flag RTC.RTC_STATUS_SET_PEND then setFld RTC.RTC_STATUS_SET_ERR 3
  else seq [setFld RTC.RTC_STATUS_SET_PEND 1, setRtc fun r => { r with staged := calOf time date }]

/-- RTC_SET. -/
def rtcSet : Effect := ask fun s => calendarSet (s.regN RTC.SET_TIME) (s.regN RTC.SET_DATE)
def execRtcSet := run (inRtc rtcSet)

/-- RTC_SET_LOAD: the accepted SET loads; a forward step fires the armed calendar alarms it reaches or passes. -/
def execRtcSetLoad := run (ask fun s => when (s.flag RTC.RTC_STATUS_SET_PEND && s.on 1) (
  let forward := decide (s.rtc.cal * 32768 + s.rtc.sub < s.rtc.staged * 32768)
  seq [setRtc fun r => { r with cal := r.staged, sub := 0 },
    setFld RTC.RTC_STATUS_SET_PEND 0, setFld RTC.RTC_STATUS_OSF 0, setFld RTC.RTC_STATUS_WRAP 0, count RTC.CNT_SETS,
    when forward (ask fun s => alarmsFire true (allBelow 4 (fun k => s.alarmDue k && !getD s.rtc.byElapsed k false)))]))

/-- OSF is set: EV_RTC_OSF, at once where PD_AON has power, with WRAP. -/
def setOsf (wrap : Bool) : Effect := ask fun s => seq [
  setFld RTC.RTC_STATUS_OSF 1, when wrap (setFld RTC.RTC_STATUS_WRAP 1), when (!s.plt.aonHeld) (fire 13 (2 * b2n wrap))]

/-- CALENDAR_SECOND: 32,768 ticks have passed since the last boundary. -/
def execCalendarSecond := run (ask fun s => when (decide (32768 ≤ s.rtc.sub)) (seq [
  setRtc fun r => { r with sub := r.sub - 32768, cal := (r.cal + 1) % calEnd },
  when (s.rtc.cal + 1 = calEnd) (setOsf true),
  when (!s.plt.aonHeld) (setPair RTC.RTC_ATB_LO RTC.RTC_ATB_HI s.now.toNat)]))

/-! ### Accord's calendar write (R388) -/

/-- RTC_WRITE: ACC_CTL.RTC_WRITE is written with 1. -/
def rtcWrite : Effect := ask fun s => when (s.flag ACC.ACC_STATUS_VALID) (seq [
  setFld ACC.ACC_STATUS_RTC_PEND 1, setAcc fun a => { a with rtcAtSec := s.sec + 1 }])
def execRtcWrite := run rtcWrite

/-- RTC_WRITE_EXECUTE: at the whole ATB second the calendar is set to it minus UTC_OFFSET. -/
def execRtcWriteExecute := run (ask fun s => when (s.flag ACC.ACC_STATUS_RTC_PEND && decide (s.acc.rtcAtSec ≤ s.sec)) (
  let c := s.sec - s.fld ACC.CLOCK_UTC_OFFSET
  seq [setFld ACC.ACC_STATUS_RTC_PEND 0,
    inRtc (if c < 946684800 ∨ 946684800 + calEnd ≤ c then setFld RTC.RTC_STATUS_SET_ERR 1
      else calendarSet (calTime (c - 946684800)) (calDate (c - 946684800)))]))

/-- ATB starts from the calendar when PD_AON powers up (R387). -/
def startFromRtc : Effect := ask fun s =>
  let t := (946684800 + s.rtc.cal + s.fld ACC.CLOCK_UTC_OFFSET) * 1000000000 + s.subsec * 1000000000 / 32768
  if s.flag RTC.RTC_STATUS_OSF then seq [setAcc fun a => { a with atb := 0 }, setFld ACC.ACC_STATUS_VALID 0]
  else seq [setAcc fun a => { a with atb := t * 2 ^ 48 }, setFld ACC.ACC_STATUS_VALID 1]

/-! ### Supply switch, lockout and the oscillator (R422-R425) -/

/-- The oscillator stops: no CK_RTC edges, and OSF. -/
def oscStops : Effect := seq [setFld RTC.RTC_STATUS_OSC_RUN 0, setOsf false]

/-- OSC_STOP. -/
def execOscStop := run (ask fun s => when (s.on 1) oscStops)

/-- RTC_OSC_START. -/
def execRtcOscStart := run (ask fun s => when (s.on 1) (setFld RTC.RTC_STATUS_OSC_RUN 1))

/-- SUPPLY_SWITCH_VBAT: VDD_IO18 falls below V_SW_OFF. A reversed cell is never selected. -/
def execSupplySwitchVbat (reversed : Bool) := run (ask fun s =>
  if reversed then oscStops
  else when (!s.flag RTC.RTC_STATUS_ON_VBAT) (seq [
    setFld RTC.RTC_STATUS_ON_VBAT 1, setRtc fun r => { r with vbatSince := r.elapsed }]))

/-- SUPPLY_SWITCH_MAIN: VDD_IO18 reaches V_SW_ON. -/
def execSupplySwitchMain := run (ask fun s => when (s.flag RTC.RTC_STATUS_ON_VBAT) (seq [
  setFld RTC.RTC_STATUS_ON_VBAT 0, setFld RTC.RTC_STATUS_WAS_ON_VBAT 1,
  setRtc fun r => { r with backup := some ((r.elapsed + 2 ^ 48 - r.vbatSince) % 2 ^ 48 / 32768) }]))

/-- RTC_LOCKOUT: VDD_IO18 falls below V_LOCK. -/
def execRtcLockout := run (setRtc fun r => { r with locked := true })

/-- RTC_LOCKOUT_RELEASE: VDD_IO18 is up and the PD_AON reset has been released. The start read of R387 waits for it, and
EV_RTC_BACKUP and EV_RTC_OSF follow. -/
def lockoutRelease : Effect := ask fun s => when (s.rtc.locked && !s.plt.aonHeld) (seq [
  setRtc fun r => { r with locked := false },
  when s.plt.atbWaits (seq [startFromRtc, fun s => [.plt { s.plt with atbWaits := false }]]),
  match s.rtc.backup with
  | some t => seq [setRtc fun r => { r with backup := none }, fire 15 (min t (2 ^ 24 - 1) + s.fld RTC.RTC_STATUS_OSF * 2 ^ 31)]
  | none => nothing,
  when (s.flag RTC.RTC_STATUS_OSF) (fire 13 (1 + 2 * s.fld RTC.RTC_STATUS_WRAP))])
def execRtcLockoutRelease := run lockoutRelease

/-- PD_BKP's registers and counters as after a power-up from nothing: OSF set, ELAPSED, scratch words and alarms clear. -/
def execBkpPowerUp := run (seq [
  fun s => (s.regs.filter (fun e => regDomain (e.1 % 2 ^ 40) = 1)).map (fun e => Change.reg e.1 (regReset e.1)),
  setRtc fun r => { locked := r.locked }])

/-- TRIM_EFF reaches PD_BKP's copy (R418). -/
def trimLoad : Effect := ask fun s => setRtc fun r => { r with trimCopy := s.fldI RTC.TRIM_CAL_X_EFF }

/-! ### VBAT (R433) -/

/-- VBAT_SAMPLE: the monitor reads `mv` millivolts. -/
def execVbatSample (mv : Int) := run (ask fun s => when (!s.plt.aonHeld) (
  let old := s.regN RTC.VBAT_STAT % 8
  let now := b2n (decide (mv < 2200)) + 2 * b2n (decide (-200 ≤ mv ∧ mv ≤ 500)) + 4 * b2n (decide (mv < -200))
  seq [setReg RTC.VBAT_STAT ((old ||| now) + min 255 (mv.toNat / 20) * 65536),
    when (old ||| now ≠ old) (fire 14 (old ||| now))]))

end Sys2Proof.Machine
end

