-- ==== Sys2Proof/Machine/Yafort.lean ====
section
/-!
DEFINITION. The Yafort core (chapter 02): issue with its guard and decode faults, faults, handlers and dispatch, and the
instructions that act on registers, local memory, control and time. A core instruction's command names the core; the word
is the one its I space holds at its pc, and a command whose row is not that word's row does nothing (assumption 8).
-/
namespace Sys2Proof.Machine

open Sys2Proof

/-! ### The core and its spaces -/

/-- Base and size of the I space and of the L space of core `n` (Tables 01.6 and 02.3, R82). -/
def iBase (n : Nat) : Nat := if n = 64 then 0x104C0000 else 0x10400000 + n / 8 * 0x18000
def iSize (n : Nat) : Nat := if n = 64 then 0x40000 else 0x10000
def lBase (n : Nat) : Nat := if n = 64 then 0x104C0000 else 0x10410000 + n / 8 * 0x18000
def lSize (n : Nat) : Nat := if n = 64 then 0x40000 else 0x8000

/-- The instruction word at the pc of core `n`. A word the management core has stored to since its last FENCE is fetched
as it was before (R82). -/
def State.fetch (s : State) (n : Nat) : Nat :=
  let c := s.core n
  match find c.stale c.pc with
  | some w => w.toNat
  | none => s.word (iBase n + c.pc)

/-- Clock cycles of core `n` in `t` ns: CK_SEQ is 800 MHz, CK_MGT 1 GHz. -/
def cyclesIn (n t : Nat) : Nat := if n = 64 then t else t * 4 / 5

/-- HLEFT: the handler's budget less the cycles since dispatch (R81). -/
def State.hleft (s : State) (n : Nat) : Nat :=
  let c := s.core n
  if c.inHandler && c.run = .running then c.budget - cyclesIn n (s.acc.ltb - c.dispatched) else c.budget

/-- STATUS as special register 1 holds it. -/
def Core.status (c : Core) : Nat := b2n c.cy + 2 * b2n c.be + 4 * b2n c.sat

/-- Whether a posted item has yet to complete at its target. -/
def Posted.waits : Posted → Bool
  | .store _ _ _ | .op _ _ _ _ _ _ => true
  | _ => false

/-- DPOST: posted writes not yet completed (Table 03.4). -/
def Core.dpost (c : Core) : Nat := (c.posted.filter Posted.waits).length

/-- FAULT and FAULT_ADDR of a sequencer core, and HBUDGET of any core. -/
def hbudgetOf (s : State) (n : Nat) : Nat := if n = 64 then s.regN MGT.HBUDGET else s.regN (SEQ.HBUDGET n)

/-! ### Leaving a handler and faults -/

/-- Records FAULT of sequencer core `n`. -/
def recordFault (n pc cause addr : Nat) (init : Bool) (slot : Nat) : Effect :=
  when (n ≠ 64) (seq [setReg (SEQ.FAULT n) (pc % 2 ^ 16 * 2 ^ 16 + b2n init * 2 ^ 15 + slot * 2 ^ 8 + cause),
    setReg (SEQ.FAULT_ADDR n) addr])

/-- Core `n` stops in HALTED with `pc` the first instruction not executed and cause 0 (R71). -/
def halt (n pc : Nat) : Effect := ask fun s =>
  let c := s.core n
  seq [recordFault n pc 0 0 c.init c.slot,
    fun s => [.core n { s.core n with run := .halted, pc := pc, statePc := pc % 2 ^ 16, wait := .none,
                                      budget := s.hleft n, haltReq := false, killReq := false }]]

/-- A fault of sequencer core `n` (R70). `sub` is the DEVICE subcode, if the cause is DEVICE. -/
def seqFault (n pc cause addr : Nat) (sub : Option Nat) : Effect := ask fun s =>
  let c := s.core n
  seq [
    recordFault n pc cause addr c.init c.slot,
    fire 0 (n + cause * 2 ^ 8 + c.slot * 2 ^ 16 + b2n c.init * 2 ^ 20
      + match sub with | some x => 2 ^ 21 + x * 2 ^ 24 | none => 0),
    if s.flag (SEQ.CORE_EXP_FAULT_SKIP n) then
      seq [count (SEQ.CNT_SKIPPED n),
        setCore n (fun c => { c with faulted := true, run := .idle, inHandler := false, init := false, pc := pc
                                     statePc := pc % 2 ^ 16, wait := .none, haltReq := false, killReq := false })]
    else fun s => [.core n { s.core n with faulted := true, run := .halted, pc := pc, statePc := pc % 2 ^ 16
                                           wait := .none, budget := s.hleft n, haltReq := false, killReq := false }]]

/-- A fault of the management core (R72): it continues at FVEC, or in a fault already, halts and causes a CORE reset. -/
def mgtFault (pc cause addr : Nat) (sub : Option Nat) : Effect := ask fun s =>
  let c := s.core 64
  let ev := fire 0 (64 + cause * 2 ^ 8 + c.slot * 2 ^ 16 + b2n c.init * 2 ^ 20
      + match sub with | some x => 2 ^ 21 + x * 2 ^ 24 | none => 0)
  if c.inFault then
    seq [ev, logEntry 0x7F 3 6 c.fpc.toNat 0,
      setCore 64 (fun c => { c with run := .halted, wait := .none }), causeReset 6, coreReset]
  else
    seq [ev, setCore 64 (fun c => { c with
      fcause := BitVec.ofNat 32 cause, fpc := BitVec.ofNat 32 pc, faddr := BitVec.ofNat 32 addr
      fsave := BitVec.ofNat 32 (c.p.toNat + c.status * 2 ^ 8), inFault := true, pc := c.fvec.toNat, wait := .none })]

/-- Core `n` faults with cause `cause`; FAULT.PC or FPC records `pc`. -/
def faultWith (n pc cause addr : Nat) (sub : Option Nat) : Effect :=
  if n = 64 then mgtFault pc cause addr sub else seqFault n pc cause addr sub

/-- The instruction at the pc faults. -/
def fault (n cause addr : Nat) : Effect := ask fun s => faultWith n (s.core n).pc cause addr none

/-- A DEVICE fault (R103): subcode and opcode go to FAULT_ADDR. -/
def deviceFault (n sub op : Nat) : Effect := ask fun s =>
  faultWith n (s.core n).pc 0x0A (sub + op * 2 ^ 8) (some sub)

/-- After an instruction of core `n` has completed: CORE_EXP.STEP halts the core, and a pc past I space faults IRANGE
(R66, Table 02.29). -/
def settleCore (n : Nat) : Effect := ask fun s =>
  let c := s.core n
  if c.run ≠ .running then nothing
  else if iSize n ≤ c.pc then faultWith n (c.pc % iSize n) 5 c.pc none
  else when (n ≠ 64 && s.flag (SEQ.CORE_EXP_STEP n)) (halt n c.pc)

/-- The instruction completes with core changes `f`, and the core goes on at the next word. -/
def retire (n : Nat) (f : Core → Core) : Effect :=
  seq [setCore n (fun c => { f c with pc := c.pc + 4, wait := .none }), settleCore n]

/-- The instruction completes and the core goes on at `pc`, which faults IRANGE if it lies outside I space. -/
def jumpTo (n : Nat) (target : Int) (f : Core → Core) : Effect :=
  if target < 0 ∨ (iSize n : Int) ≤ target then fault n 5 (unsigned 32 target)
  else seq [setCore n (fun c => { f c with pc := target.toNat, wait := .none }), settleCore n]

/-- Issues the instruction at the pc of core `n` under row `r` (R56-R60): decode faults come whatever the guard, and an
instruction whose guard fails changes nothing but the pc. -/
def issue (n : Nat) (r : Row) (e : Nat → Core → Effect) : Effect := ask fun s =>
  let c := s.core n
  if !s.on (coreDomain n) || c.run ≠ .running || c.wait ≠ .none || rowOf (s.fetch n) ≠ r then nothing
  else
    let w := s.fetch n
    match decodeFault (n = 64) c.inFault w with
    | some cause => fault n cause w
    | none => if c.guard w then e w c else retire n id

/-! ### ALU, immediates and predicates (R61-R64) -/

/-- A register-to-register function that leaves the flags. -/
def aluOp (n : Nat) (r : Row) (f : Word → Word → Word) : Effect :=
  issue n r fun w c => retire n (fun k => k.setG (fRd w) (f (c.gr (fRs w)) (c.gr (fRt w))))

/-- A register-to-register function that sets CY. -/
def aluCarry (n : Nat) (r : Row) (f : Word → Word → Bool → Word × Bool) : Effect :=
  issue n r fun w c =>
    let v := f (c.gr (fRs w)) (c.gr (fRt w)) c.cy
    retire n (fun k => { k.setG (fRd w) v.1 with cy := v.2 })

/-- A register and a 14-bit immediate. -/
def immOp (n : Nat) (r : Row) (f : Word → Nat → Word) : Effect :=
  issue n r fun w c => retire n (fun k => k.setG (fRd w) (f (c.gr (fRs w)) (bits w 13 0)))

/-- Sets the predicate an instruction names. -/
def setPred (n w : Nat) (v : Core → Bool) : Effect :=
  retire n (fun k => k.setP (fPd w) (combine (fCb w) (k.pr (fPd w)) (v k)))

def execAdd (n : Fin 65) := run (aluCarry n .add (fun a b _ => addCarry a b false))
def execSub (n : Fin 65) := run (aluCarry n .sub (fun a b _ => subBorrow a b false))
def execAnd (n : Fin 65) := run (aluOp n .and (· &&& ·))
def execOr (n : Fin 65) := run (aluOp n .or (· ||| ·))
def execXor (n : Fin 65) := run (aluOp n .xor (· ^^^ ·))
def execAndn (n : Fin 65) := run (aluOp n .andn (fun a b => a &&& ~~~b))
def execShl (n : Fin 65) := run (aluOp n .shl (fun a b => shiftBy 0 a (b.toNat % 32)))
def execShr (n : Fin 65) := run (aluOp n .shr (fun a b => shiftBy 1 a (b.toNat % 32)))
def execSar (n : Fin 65) := run (aluOp n .sar (fun a b => shiftBy 2 a (b.toNat % 32)))
def execRor (n : Fin 65) := run (aluOp n .ror (fun a b => shiftBy 3 a (b.toNat % 32)))
def execAddc (n : Fin 65) := run (aluCarry n .addc addCarry)
def execSubb (n : Fin 65) := run (aluCarry n .subb subBorrow)
def execMul (n : Fin 65) := run (aluOp n .mul (· * ·))
def execMulh (n : Fin 65) := run (aluOp n .mulh (fun a b => BitVec.ofInt 32 (a.toInt * b.toInt / 2 ^ 32)))
def execMulhu (n : Fin 65) := run (aluOp n .mulhu (fun a b => BitVec.ofNat 32 (a.toNat * b.toNat / 2 ^ 32)))
def execMin (n : Fin 65) := run (aluOp n .min (fun a b => if a.toInt ≤ b.toInt then a else b))
def execMax (n : Fin 65) := run (aluOp n .max (fun a b => if a.toInt ≤ b.toInt then b else a))
def execMinu (n : Fin 65) := run (aluOp n .minu (fun a b => if a.toNat ≤ b.toNat then a else b))
def execMaxu (n : Fin 65) := run (aluOp n .maxu (fun a b => if a.toNat ≤ b.toNat then b else a))
def execClz (n : Fin 65) := run (aluOp n .clz (fun a _ => BitVec.ofNat 32 (leadingZeros a)))
def execPopc (n : Fin 65) := run (aluOp n .popc (fun a _ => BitVec.ofNat 32 (onesIn a)))
def execBswap (n : Fin 65) := run (aluOp n .bswap (fun a _ => byteSwap a))

def execAddi (n : Fin 65) := run (immOp n .addi (fun a i => a + sext 14 i))
def execAndi (n : Fin 65) := run (immOp n .andi (fun a i => a &&& BitVec.ofNat 32 i))
def execOri (n : Fin 65) := run (immOp n .ori (fun a i => a ||| BitVec.ofNat 32 i))
def execXori (n : Fin 65) := run (immOp n .xori (fun a i => a ^^^ BitVec.ofNat 32 i))
/-- SHIFTI: kind in [13:12], amount in [4:0]. -/
def execShifti (n : Fin 65) := run (issue n .shifti fun w c =>
  retire n (fun k => k.setG (fRd w) (shiftBy (bits w 13 12) (c.gr (fRs w)) (bits w 4 0))))
def execLui (n : Fin 65) := run (issue n .lui fun w _ =>
  retire n (fun k => k.setG (fRd w) (BitVec.ofNat 32 (bits w 17 0 * 2 ^ 14))))
def execBfx (n : Fin 65) := run (issue n .bfx fun w c =>
  retire n (fun k => k.setG (fRd w) (bfxOf (c.gr (fRs w)) (bits w 13 9) (bits w 8 4 + 1))))
def execBfi (n : Fin 65) := run (issue n .bfi fun w c =>
  retire n (fun k => k.setG (fRd w) (bfiOf (c.gr (fRd w)) (c.gr (fRs w)) (bits w 13 9) (bits w 8 4 + 1))))

def execCmp (n : Fin 65) := run (issue n .cmp fun w _ =>
  setPred n w (fun k => condition (fCc w) (k.gr (bits w 12 9)) (k.gr (bits w 8 5))))
def execCmpi (n : Fin 65) := run (issue n .cmpi fun w _ =>
  setPred n w (fun k => condition (fCc w) (k.gr (bits w 12 9)) (sext 9 (bits w 8 0))))
def execTcmp (n : Fin 65) := run (issue n .tcmp fun w _ =>
  setPred n w (fun k => timeCondition (bits w 12 10) (k.tr (bits w 16 15)) (k.tr (bits w 14 13))))
def execPlog (n : Fin 65) := run (issue n .plog fun w _ =>
  retire n (fun k => k.setP (fPd w) (plogOf (bits w 12 10) (k.pr (bits w 18 16)) (k.pr (bits w 15 13)))))

/-! ### Special registers (R50, R83, R99) -/

/-- The value MFS reads from special register `i` of core `n` (Tables 02.2, 02.17, 03.4). -/
def specialRead (s : State) (n i : Nat) : Nat :=
  let c := s.core n
  match i with
  | 0 => n
  | 1 => c.status
  | 2 => c.evsrc.toNat
  | 3 => c.evarg.toNat
  | 4 => c.evtime.toNat % 2 ^ 32
  | 5 => c.evtime.toNat / 2 ^ 32
  | 6 => c.xseg
  | 7 => cyclesIn n (s.acc.ltb - c.released) % 2 ^ 32
  | 8 => c.cycleHi.toNat
  | 9 => s.hleft n % 2 ^ 32
  | 10 => putBit c.p.toNat 0 true
  | 11 => c.dstat.toNat
  | 12 => c.derr.toNat
  | 13 => c.dres.toNat
  | 14 => c.dpost
  | 15 => c.dlat.toNat
  | 16 => c.fvec.toNat
  | 17 => c.fcause.toNat
  | 18 => c.fpc.toNat
  | 19 => c.faddr.toNat
  | 20 => c.fsave.toNat
  | 21 => b2n c.inFault
  | _ => c.xcrc.toNat

/-- MFS; a read of CYCLE_LO captures CYCLE_HI. -/
def execMfs (n : Fin 65) := run (issue n .mfs fun w _ => ask fun s =>
  let i := bits w 17 12
  retire n (fun k =>
    let k := if i = 7 then
        { k with cycleHi := BitVec.ofNat 32 (cyclesIn n (s.acc.ltb - k.released) / 2 ^ 32) } else k
    k.setG (fRd w) (BitVec.ofNat 32 (specialRead s n i))))

/-- What MTS leaves in special register `i` (R50, R83, R99). XSEG keeps only [3:0] on a sequencer core; a write of DERR
clears it; FVEC is word-aligned. -/
def specialWrite (mgt : Bool) (c : Core) (i : Nat) (v : Word) : Core :=
  match i with
  | 1 => { c with cy := v.getLsbD 0, be := v.getLsbD 1, sat := v.getLsbD 2 }
  | 6 => { c with xseg := if mgt then v.toNat % 256 else v.toNat % 16 }
  | 10 => { c with p := BitVec.ofNat 8 (putBit (v.toNat % 256) 0 true) }
  | 12 => { c with derr := 0#32 }
  | 16 => { c with fvec := BitVec.ofNat 32 (v.toNat / 4 * 4) }
  | 18 => { c with fpc := v }
  | 22 => { c with xcrc := v }
  | _ => c

def execMts (n : Fin 65) := run (issue n .mts fun w c =>
  retire n (fun k => specialWrite (n = 64) k (bits w 17 12) (c.gr (fRd w))))

/-! ### Local memory (R46, R52, R65) -/

/-- The L address of an IMM or TLS memory instruction: a 32-bit unsigned sum (R52). -/
def lAddr (w : Nat) (c : Core) : Nat := (c.gr (fRs w) + sext 14 (bits w 13 0)).toNat

/-- `e` at an L address that is aligned and in range; otherwise the ALIGN or LRANGE fault. -/
def lAccess (n a width : Nat) (e : Effect) : Effect :=
  if a % width ≠ 0 then fault n 3 a
  else if lSize n ≤ a then fault n 4 a
  else e

/-- Remembers, for the management core, the word a store at L address `a` replaces (R82). -/
def noteStale (n a width : Nat) : Effect := ask fun s =>
  when (n = 64) (forEach (List.range ((width + 3) / 4)) (fun i =>
    let q := a / 4 * 4 + 4 * i
    ask fun s => when (find (s.core n).stale q = none)
      (setCore n (fun c => { c with stale := insertKey c.stale q (BitVec.ofNat 32 (s.word (iBase n + q))) }))))

/-- Stores `width` bytes at L address `a` of core `n`. -/
def lStore (n a width v : Nat) : Effect := seq [noteStale n a width, putMem (lBase n + a) width v]

/-- A load of `width` bytes, extended by `ext`. -/
def loadOp (n : Nat) (r : Row) (width : Nat) (ext : Nat → Word) : Effect := issue n r fun w c =>
  let a := lAddr w c
  lAccess n a width (ask fun s => retire n (fun k => k.setG (fRd w) (ext (s.mem' (lBase n + a) width))))

/-- A store of the low `width` bytes of rd. -/
def storeOp (n : Nat) (r : Row) (width : Nat) : Effect := issue n r fun w c =>
  let a := lAddr w c
  lAccess n a width (seq [lStore n a width (c.gr (fRd w)).toNat, retire n id])

def execLdb (n : Fin 65) := run (loadOp n .ldb 1 (sext 8))
def execLdbu (n : Fin 65) := run (loadOp n .ldbu 1 (BitVec.ofNat 32))
def execLdh (n : Fin 65) := run (loadOp n .ldh 2 (sext 16))
def execLdhu (n : Fin 65) := run (loadOp n .ldhu 2 (BitVec.ofNat 32))
def execLdw (n : Fin 65) := run (loadOp n .ldw 4 (BitVec.ofNat 32))
def execStb (n : Fin 65) := run (storeOp n .stb 1)
def execSth (n : Fin 65) := run (storeOp n .sth 2)
def execStw (n : Fin 65) := run (storeOp n .stw 4)
def execLdt (n : Fin 65) := run (issue n .ldt fun w c =>
  let a := lAddr w c
  lAccess n a 8 (ask fun s => retire n (fun k => k.setT (bits w 21 20) (BitVec.ofNat 64 (s.mem' (lBase n + a) 8)))))
def execStt (n : Fin 65) := run (issue n .stt fun w c =>
  let a := lAddr w c
  lAccess n a 8 (seq [lStore n a 8 (c.tr (bits w 21 20)).toNat, retire n id]))

/-- An AMO: old = L32[rs], written as `f old` says, and rd = old, in one bank operation. -/
def amoOp (n : Nat) (r : Row) (f : Word → Word → Word → Word) : Effect := issue n r fun w c =>
  let a := (c.gr (fRs w)).toNat
  lAccess n a 4 (ask fun s =>
    let old : Word := BitVec.ofNat 32 (s.word (lBase n + a))
    seq [lStore n a 4 (f old (c.gr (fRt w)) (c.gr (fRd w))).toNat, retire n (fun k => k.setG (fRd w) old)])

def execAmoSwap (n : Fin 65) := run (amoOp n .amoSwap (fun _ t _ => t))
def execAmoAdd (n : Fin 65) := run (amoOp n .amoAdd (fun o t _ => o + t))
def execAmoOr (n : Fin 65) := run (amoOp n .amoOr (fun o t _ => o ||| t))
def execAmoCas (n : Fin 65) := run (amoOp n .amoCas (fun o t d => if o = d then t else o))

/-! ### Fabric reads and posted writes (R22-R25, R53-R55) -/

/-- The F address of an LDF or STF (R53). -/
def fAddr (w : Nat) (c : Core) : Nat :=
  c.xseg % 16 * 2 ^ 32 + (c.gr (fRs w) + sext 12 (bits w 11 0)).toNat

/-- Posts a write of core `n`: the core goes on, or with four outstanding stalls at it (R23). -/
def post (n : Nat) (p : Posted) : Effect := ask fun s =>
  if (s.core n).dpost < 4 then
    seq [setCore n (fun c => { c with posted := c.posted ++ [p] }), retire n id]
  else setCore n (fun c => { c with wait := .room p, since := s.acc.ltb })

/-- LDF issues its read and stalls; LDF_RETURN completes it. -/
def execLdf (n : Fin 65) := run (issue n .ldf fun w c =>
  let a := fAddr w c
  let width := 2 ^ bits w 13 12
  if a % width ≠ 0 then fault n 3 (a % 2 ^ 32)
  else ask fun s => setCore n (fun k => { k with wait := .ldf (fRd w) a width, since := s.acc.ltb }))

/-- STF posts its write. -/
def execStf (n : Fin 65) := run (issue n .stf fun w c =>
  let a := fAddr w c
  let width := 2 ^ bits w 13 12
  if a % width ≠ 0 then fault n 3 (a % 2 ^ 32)
  else post n (.store a width ((c.gr (fRd w)).toNat % 2 ^ (8 * width))))

/-- FENCE: the core goes on once every write it issued has completed (R55, R101). After it, the management core fetches
what it has stored (R82). -/
def execFence (n : Fin 65) := run (issue n .fence fun _ c =>
  if c.posted.isEmpty then retire n (fun k => { k with stale := [] })
  else ask fun s => setCore n (fun k => { k with wait := .fence, since := s.acc.ltb }))

/-- The last outstanding write of a fencing core has completed. -/
def execFenceComplete (n : Fin 65) := run (ask fun s =>
  let c := s.core n
  when (c.wait = .fence && c.posted.isEmpty) (retire n (fun k => { k with stale := [] })))

/-! ### Control (R66, R80) -/

def execBr (n : Fin 65) := run (issue n .br fun w c => jumpTo n (c.pc + 4 * signed 22 (bits w 21 0)) id)
def execJal (n : Fin 65) := run (issue n .jal fun w c =>
  jumpTo n (c.pc + 4 * signed 18 (bits w 17 0)) (fun k => k.setG (fRd w) (BitVec.ofNat 32 (c.pc + 4))))
def execJalr (n : Fin 65) := run (issue n .jalr fun w c =>
  let t := (c.gr (fRs w)).toNat
  if t % 4 ≠ 0 then fault n 3 t
  else jumpTo n t (fun k => k.setG (fRd w) (BitVec.ofNat 32 (c.pc + 4))))

/-- Ring slots of core `n` whose rings are still non-empty latch again (R78). -/
def relatchRings (n : Nat) : Effect := ask fun s =>
  forEach (List.range 16) (fun k =>
    let b := s.regN (bindReg n k)
    when (bits b 30 28 = 4 && !(s.ring (bits b 23 16)).q.isEmpty) (latchSlot n k 0))

/-- DONE ends the handler: a halted-at-DONE core halts, a management-core fault handler clears INFAULT, ring slots latch
again, and the core returns to dispatch (R66, R72, R76, R78). -/
def execDone (n : Fin 65) := run (issue n .done fun _ c => seq [
  setCore n (fun k => { k with inHandler := false, init := false, inFault := false, run := .idle
                               statePc := (c.pc + 4) % 2 ^ 16, pc := c.pc + 4 }),
  relatchRings n,
  ask fun s => when (c.haltReq || (n ≠ 64 && s.flag (SEQ.CORE_EXP_STEP n))) (halt n (c.pc + 4))])

/-- EVCTL sets or clears EN or PEND of the slots rs names; the change is made even while WINDOW_LOCK.LOCK is set (R80). -/
def execEvctl (n : Fin 65) := run (issue n .evctl fun w c =>
  let m := (c.gr (fRd w)).toNat
  seq [forEach (allBelow 16 (fun k => bit m k)) (fun k =>
      match bits w 17 16 with
      | 0 => setFld ⟨bindReg n k, 31, 31⟩ 1
      | 1 => setFld ⟨bindReg n k, 31, 31⟩ 0
      | 2 => ask fun s => setCore n (fun k' => { k' with
          pend := BitVec.ofNat 16 (putBit k'.pend.toNat k true), slotArg := putD k'.slotArg k 0#32 0#32
          slotTime := putD k'.slotTime k s.now 0#64 })
      | _ => setCore n (fun k' => { k' with pend := BitVec.ofNat 16 (putBit k'.pend.toNat k false) })),
    retire n id])

/-- BRK and TRAP record the following instruction's address (R71). -/
def execBrk (n : Fin 65) := run (issue n .brk fun _ c => faultWith n (c.pc + 4) 8 0 none)
def execTrap (n : Fin 65) := run (issue n .trap fun w c => faultWith n (c.pc + 4) 9 (bits w 15 0) none)

/-- ERET restores PRED and STATUS from FSAVE, clears INFAULT and continues at FPC (R72). -/
def execEret (n : Fin 65) := run (issue n .eret fun _ c => seq [
  setCore n (fun k => { k with
    p := BitVec.ofNat 8 (putBit (k.fsave.toNat % 256) 0 true), cy := k.fsave.getLsbD 8, be := k.fsave.getLsbD 9
    sat := k.fsave.getLsbD 10, inFault := false, pc := c.fpc.toNat }), settleCore n])

/-! ### Time (R67, R107, R108) -/

def execTnow (n : Fin 65) := run (issue n .tnow fun w _ => ask fun s =>
  retire n (fun k => k.setT (bits w 21 20) s.now))
def execTadd (n : Fin 65) := run (issue n .tadd fun w c =>
  retire n (fun k => k.setT (bits w 21 20) (tplus (c.tr (bits w 19 18)) ((c.gr (fRs w)).toInt * 2 ^ bits w 13 10))))
def execTaddi (n : Fin 65) := run (issue n .taddi fun w c =>
  retire n (fun k => k.setT (bits w 21 20) (tplus (c.tr (bits w 19 18)) (signed 18 (bits w 17 0)))))
def execTdiff (n : Fin 65) := run (issue n .tdiff fun w c =>
  let r := tdiffOf (c.tr (bits w 17 16)) (c.tr (bits w 15 14)) (bits w 13 8)
  retire n (fun k => { k.setG (fRd w) r.1 with sat := k.sat || r.2 }))
def execTmv (n : Fin 65) := run (issue n .tmv fun w c =>
  let t := (c.tr (bits w 17 16)).toNat
  let g := (c.gr (fRd w)).toNat
  retire n (fun k =>
    match bits w 15 14 with
    | 0 => k.setG (fRd w) (BitVec.ofNat 32 t)
    | 1 => k.setG (fRd w) (BitVec.ofNat 32 (t / 2 ^ 32))
    | 2 => k.setT (bits w 17 16) (BitVec.ofNat 64 (putBits t 31 0 g))
    | _ => k.setT (bits w 17 16) (BitVec.ofNat 64 (putBits t 63 32 g))))

/-- DSTAT and DLAT of a completed operation (R100). -/
def Core.setDstat (c : Core) (op code detail lat : Nat) : Core :=
  { c with dstat := BitVec.ofNat 32 (code + op * 2 ^ 8 + detail * 2 ^ 16), dlat := BitVec.ofNat 32 (min lat 0xFFFFFFFF) }

/-- Cycles core `n` has waited. -/
def State.waited (s : State) (n : Nat) : Nat := cyclesIn n (s.acc.ltb - (s.core n).since)

/-- TWAIT stalls until ATB reaches ta, or reports LATE with the lateness in µs at once (R107). -/
def execTwait (n : Fin 65) := run (issue n .twait fun w c => ask fun s =>
  let t := c.tr (fTa w)
  let late := tdiff s.now t
  if 0 < late then retire n (fun k => k.setDstat 0 4 (min (late.toNat / 1000) 0xFFFF) 0)
  else setCore n (fun k => { k with wait := .twait t, since := s.acc.ltb }))

/-- The awaited instant has arrived. -/
def execTwaitExpire (n : Fin 65) := run (ask fun s =>
  match (s.core n).wait with
  | .twait t => when (s.reached t) (retire n (fun k => k.setDstat 0 0 0 (s.waited n)))
  | _ => nothing)

/-- TARM arms core timer sub[1:0], or latches it at once when ta has passed (R108). -/
def execTarm (n : Fin 65) := run (issue n .tarm fun w c => ask fun s =>
  let i := fSub w % 4
  let t := c.tr (fTa w)
  if 0 < tdiff s.now t then
    seq [setCore n (fun k => { k with timers := eraseKey k.timers i }), latchAt n 2 i 0 s.now,
      retire n (fun k => k.setDstat 1 4 0 0)]
  else retire n (fun k => { k.setDstat 1 0 0 0 with timers := insertKey k.timers i t }))

/-- TARM with DISARM cancels the timer; a timer already latched is not affected. -/
def execTarmDisarm (n : Fin 65) := run (issue n .tarmDisarm fun w _ =>
  retire n (fun k => { k.setDstat 1 0 0 0 with timers := eraseKey k.timers (fSub w % 4) }))

/-- A core timer's instant arrives: it latches once, into every slot bound to it. -/
def timerExpire (n i : Nat) : Effect := ask fun s =>
  match find (s.core n).timers i with
  | some t => when (s.reached t) (seq [setCore n (fun k => { k with timers := eraseKey k.timers i }), latchAt n 2 i 0 t])
  | none => nothing
def execCoreTimerExpire (n : Fin 65) (i : Fin 4) := run (inDomain (coreDomain n) (timerExpire n i))

/-! ### Dispatch and core control (R75, R81, R86-R90) -/

/-- The lowest slot of core `n` with PEND and EN both 1. -/
def State.readySlot (s : State) (n : Nat) : Option Nat :=
  firstBelow 16 (fun k => (s.core n).pend.getLsbD k && bit (s.regN (bindReg n k)) 31)

/-- Dispatch of slot `k` (R75). -/
def dispatchSlot (n k : Nat) : Effect := ask fun s =>
  let b := s.regN (bindReg n k)
  seq [when (decide (n < 64)) (yieldUnit 2 n), setCore n (fun c => { c with
    pend := BitVec.ofNat 16 (putBit c.pend.toNat k false), slot := k, init := false, inHandler := true, run := .running
    evsrc := BitVec.ofNat 32 (k + bits b 30 28 * 2 ^ 4 + bits b 23 16 * 2 ^ 8)
    evarg := getD c.slotArg k 0#32, evtime := getD c.slotTime k 0#64
    budget := hbudgetOf s n, dispatched := s.acc.ltb, pc := bits b 15 0 })]
def execDispatch (n : Fin 65) := run (inDomain (coreDomain n) (ask fun s =>
  if (s.core n).run = .idle && !s.forcedOut 2 n.val then
    match s.readySlot n with
    | some k => dispatchSlot n k
    | none => nothing
  else nothing))

/-- HLEFT has reached 0: the core faults WDOG (R81). A core inside a TWAIT abandons it (R107). -/
def execHandlerWdog (n : Fin 65) := run (inDomain (coreDomain n) (ask fun s =>
  let c := s.core n
  when (c.run = .running && c.inHandler && c.budget ≠ 0 && s.hleft n = 0)
    (seq [setCore n (fun c => { c with budget := 0, dispatched := s.acc.ltb }), faultWith n c.pc 7 c.budget none])))

/-- A core leaves HELD: its INIT handler runs if INIT_ENTRY.EN is 1, else it goes to IDLE (R90). -/
def release (n : Nat) : Effect := ask fun s =>
  let init := s.flag (SEQ.INIT_ENTRY_EN n)
  setCore n (fun c => { c with
    marked := false, released := s.acc.ltb, run := if init then .running else .idle, init := init, inHandler := init
    slot := 0, pc := if init then s.fld (SEQ.INIT_ENTRY_ENTRY n) else c.pc
    evsrc := if init then 0xFFFFFFFF#32 else c.evsrc
    budget := s.regN (SEQ.HBUDGET n), dispatched := s.acc.ltb })

/-- CORE_CTL.START (R71, R90). -/
def coreStart (n : Nat) : Effect := ask fun s =>
  let c := s.core n
  match c.run with
  | .held => if s.flag SEQ.START_CTL_ARMED then setCore n (fun c => { c with marked := true }) else release n
  | .halted => setCore n (fun c => { c with
      run := if c.inHandler then .running else .idle, pc := s.fld (SEQ.FAULT_PC n), dispatched := s.acc.ltb })
  | _ => nothing

/-- CORE_CTL.HALT: IDLE halts at once, RUNNING at its next DONE. -/
def coreHalt (n : Nat) : Effect := ask fun s =>
  let c := s.core n
  match c.run with
  | .idle => halt n c.pc
  | .running => setCore n (fun c => { c with haltReq := true })
  | _ => nothing

/-- CORE_CTL.KILL: the handler is abandoned at once; during a Q-class wait, when the response arrives (R134). -/
def coreKill (n : Nat) : Effect := ask fun s =>
  let c := s.core n
  match c.run, c.wait with
  | .running, .query _ _ => setCore n (fun c => { c with killReq := true })
  | .running, .room p => seq [setCore n (fun c => { c with posted := c.posted ++ [p] }), halt n (c.pc + 4)]
  | .running, _ => halt n c.pc
  | .idle, _ => halt n c.pc
  | _, _ => nothing

/-- The registers of a core at reset, with what CORE_CTL.RESET keeps: posted writes still complete. -/
def coreResetState (c : Core) : Core := { ({} : Core) with posted := c.posted, badBind := c.badBind, statePc := c.statePc }

/-- CORE_CTL.RESET of a HELD or HALTED core (Table 02.21, R89, R111). -/
def coreResetCmd (n : Nat) : Effect := ask fun s =>
  let c := s.core n
  when (c.run = .held || c.run = .halted) (seq [
    setCore n coreResetState, setReg (SEQ.CNT n) 0, setReg (SEQ.FAULT n) 0, setReg (SEQ.FAULT_ADDR n) 0,
    freeCompsOf n])

/-- A write of CORE_CTL: only the highest-numbered bit set takes effect (R87). -/
def coreCtlWrite (n v : Nat) : Effect :=
  if bit v 3 then coreResetCmd n else if bit v 2 then coreKill n else if bit v 1 then coreHalt n
  else when (bit v 0) (coreStart n)

def execCoreStart (n : Fin 64) := run (inDomain (coreDomain n) (coreStart n))
def execCoreHalt (n : Fin 64) := run (inDomain (coreDomain n) (coreHalt n))
def execCoreKill (n : Fin 64) := run (inDomain (coreDomain n) (coreKill n))
def execCoreReset (n : Fin 64) := run (inDomain (coreDomain n) (coreResetCmd n))

/-- Every marked core leaves HELD (R90). -/
def releaseMarked : Effect := ask fun s =>
  seq [setFld SEQ.START_CTL_ARMED 0,
    forEach (allBelow 64 (fun n => s.on (coreDomain n) && (s.core n).marked && (s.core n).run = .held)) release]

/-- START_CTL.ARM: arms release at START_AT, or releases at once with LATE if it has passed (Table 02.20, R90). -/
def startArm : Effect := ask fun s =>
  let t : Instant := BitVec.ofNat 64 (s.pair SEQ.START_AT_LO SEQ.START_AT_HI)
  if s.reached t then seq [setFld SEQ.START_CTL_LATE 1, disarm 72, releaseMarked]
  else seq [setFld SEQ.START_CTL_ARMED 1, arm 72 t]
def execStartArm := run (inDomain 2 startArm)

/-- The release instant has arrived. -/
def startRelease : Effect := ask fun s =>
  when (s.flag SEQ.START_CTL_ARMED && (s.comp 72).armed && s.reached (s.comp 72).at_) (seq [disarm 72, releaseMarked])
def execStartRelease := run (inDomain 2 startRelease)

/-- A write of XSEG_INIT sets special register 6 of a HELD core, and is otherwise ignored (R89). -/
def xsegInitWrite (n v : Nat) : Effect := ask fun s =>
  when ((s.core n).run = .held && !s.flag (lockOf (SEQ.XSEG_INIT n)))
    (setCore n (fun c => { c with xseg := v % 16 }))
def execXsegInitWrite (n : Fin 64) (v : Word) := run (inDomain (coreDomain n) (xsegInitWrite n v.toNat))

/-- A write of DOORBELL fires each doorbell it names (R73). -/
def doorbellWrite (n v : Nat) : Effect := ask fun s =>
  forEach (allBelow 16 (fun b => bit v b)) (fun b => ringDoorbell n b s.now)
def execDoorbellWrite (n : Fin 65) (v : Word) := run (inDomain (coreDomain n) (doorbellWrite n v.toNat))

/-- Whether a BIND_k value is refused: a reserved KIND, a SOURCE beyond its range, a misaligned ENTRY (R79). -/
def badBind (v : Nat) : Bool :=
  let src := bits v 23 16
  bits v 1 0 ≠ 0 || match bits v 30 28 with
    | 0 => false
    | 1 => 95 < src
    | 2 => 3 < src
    | 3 => 15 < src
    | 4 => 63 < src
    | _ => true

/-- A write of BIND_k (R79): refused with BADBIND, or taken; a change of KIND or SOURCE clears PEND. RWL: the window lock
stops it. -/
def bindWrite (n k v : Nat) : Effect := ask fun s =>
  let a := bindReg n k
  let old := s.regN a
  if s.flag (lockOf a) then nothing
  else if badBind v then setCore n (fun c => { c with badBind := true })
  else seq [setReg a (v % 2 ^ 24 + bits v 31 28 * 2 ^ 28),
    when (bits old 30 28 ≠ bits v 30 28 || bits old 23 16 ≠ bits v 23 16)
      (setCore n (fun c => { c with pend := BitVec.ofNat 16 (putBit c.pend.toNat k false) })),
    ask fun s => when (bits v 30 28 = 4 && (bits old 30 28 ≠ 4 || bits old 23 16 ≠ bits v 23 16)
      && !(s.ring (bits v 23 16)).q.isEmpty) (latchSlot n k 0)]
def execBindWrite (n : Fin 65) (k : Fin 16) (v : Word) := run (inDomain (coreDomain n) (bindWrite n k v.toNat))

/-- A write of INIT_ENTRY; a misaligned ENTRY is refused with BADBIND (Tables 02.22 and 02.27). -/
def initEntryWrite (n v : Nat) : Effect := ask fun s =>
  if s.flag (lockOf (SEQ.INIT_ENTRY n)) then nothing
  else if bits v 1 0 ≠ 0 then setCore n (fun c => { c with badBind := true })
  else setReg (SEQ.INIT_ENTRY n) (v % 2 ^ 17)

end Sys2Proof.Machine
end

