-- ==== Sys2Proof/Machine/Nv.lean ====
section
/-!
DEFINITION. Device images, boot, the sequencer load, fuses and the life cycle (chapter 15; R91-R94), and the
calibration registers' reload from the factory and user pages (R14-R16).
-/
namespace Sys2Proof.Machine

open Sys2Proof

def setNv (f : Nv → Nv) : Effect := fun s => [.nv (f s.nv)]

/-- Whether `k` bytes of MRAM at `a` read without an uncorrectable error. -/
def State.readable (s : State) (a k : Nat) : Bool := !s.nv.bad.any (fun e => e.2 = 2 && decide (a < e.1 + 8 ∧ e.1 < a + k))

/-! ### Calibration registers (R14-R17, R484, R485) -/

/-- A calibrated register as loaded: X_FACTORY [31:24], X_EFF [23:16] and X_USER [8:0]. -/
def calWord (factory user : Int) : Nat :=
  unsigned 8 factory * 2 ^ 24 + unsigned 8 (clampI (-128) 127 (factory + user)) * 2 ^ 16 + unsigned 9 user

/-- The register of calibrated field `i` of port `p`. -/
def calReg (p i : Nat) : Nat :=
  [FE.TXPWR_CAL p, FE.RXGAIN_CAL p, FE.TEMP_CAL p, FE.LOADDET_CAL p, BB.RXDLY_CAL p, BB.TXDLY_CAL p].getD i 0

/-- Loads the calibrated fields named from the pages. -/
def calLoad (is : List Nat) (p : Nat) : Effect := ask fun s =>
  forEach is (fun i => setReg (calReg p i) (calWord (s.factoryCal p i) (s.userCal p i)))

/-- Loads TRIM, and with it PD_BKP's copy (R418). -/
def trimReload : Effect := ask fun s => seq [
  setReg RTC.TRIM_FACTORY (unsigned 11 s.factoryTrim),
  setReg RTC.TRIM_CAL (unsigned 12 s.userTrim * 2 ^ 16 + unsigned 11 (clampI (-512) 512 (s.factoryTrim + s.userTrim))), trimLoad]

/-! ### The boot record (R495) -/

structure BootRec where
  active : Nat := 0
  states : Nat := 0xA
  pending : Bool := false
  trials : Nat := 0
  floor : Nat := 0
  actAt : Nat := 0
  deriving DecidableEq, Repr

/-- SEQ of the boot record copy at `a`, if it is good. -/
def State.bootCopy (s : State) (a : Nat) : Option Nat :=
  if s.readable a 64 && s.mem' a 4 = 0x44524342 && s.mem' (a + 0x3C) 4 = crc32 (s.bytes a 0x3C) then some (s.mem' (a + 4) 4) else none

/-- The boot record: with no live copy, bank A, both VALID, VER_FLOOR 0 (R496). -/
def State.boot (s : State) : BootRec := match s.liveCopy 0 0x800 s.bootCopy with
  | some a =>
    let b := s.byte (a + 9)
    { active := s.byte (a + 8) % 2, states := b % 16, pending := bit b 4, trials := b / 32, floor := s.mem' (a + 0xC) 4
      actAt := s.mem' (a + 0x10) 8 }
  | none => {}

/-- State of a bank: 0 EMPTY, 1 STAGED, 2 VALID. -/
def BootRec.bank (r : BootRec) (b : Nat) : Nat := bits r.states (2 * b + 1) (2 * b)
def BootRec.setBank (r : BootRec) (b v : Nat) : BootRec := { r with states := putBits r.states (2 * b + 1) (2 * b) v }

/-- Where a bank, and its settings area, lie. -/
def bankAddr (b : Nat) : Nat := if b = 0 then 0xA0000 else 0x220000
def areaAddr (b : Nat) : Nat := if b = 0 then 0x11000 else 0x18800

/-- IMG_VER in a bank. -/
def State.bankVer (s : State) (b : Nat) : Nat := s.mem' (bankAddr b + 8) 4

/-- The registers that mirror the boot record (Table 15.17). -/
def bootMirror : Effect := ask fun s =>
  let r := s.boot
  seq [setFlag PLT.BOOT_INFO_PENDING r.pending, setFld PLT.BOOT_INFO_TRIALS r.trials, setFld PLT.BOOT_INFO_BANKS r.states,
    setReg PLT.BANK_A_VER (if r.bank 0 = 0 then 0 else s.bankVer 0), setReg PLT.BANK_B_VER (if r.bank 1 = 0 then 0 else s.bankVer 1),
    setReg PLT.VER_FLOOR r.floor]

/-- Writes the boot record to the copy that is not live. -/
def writeBoot (r : BootRec) : Effect := seq [ask fun s =>
  let live := s.liveCopy 0 0x800 s.bootCopy
  let a := if live = some 0 then 0x800 else 0
  let n := match live with
    | some x => (s.mem' (x + 4) 4 + 1) % 2 ^ 32
    | none => 1
  let l := leBytes 0x44524342 4 ++ leBytes n 4 ++ [r.active, r.states + b2n r.pending * 16 + r.trials * 32, 0, 0] ++ leBytes r.floor 4
    ++ leBytes r.actAt 8 ++ List.replicate 36 0
  mramWrite a (l ++ leBytes (crc32 l) 4), bootMirror]

/-! ### Header checks (R491-R494) -/

/-- A section entry: TYPE, OFFSET, LEN and CRC. -/
structure Sect where
  ty : Nat
  off : Nat
  len : Nat
  crc : Nat
  deriving DecidableEq, Repr

def sections (h : List Nat) : List Sect := (List.range (fieldLe h 0x16 2)).map (fun i =>
  let e := 0x40 + 16 * i
  ⟨fieldLe h e 2, fieldLe h (e + 4) 4, fieldLe h (e + 8) 4, fieldLe h (e + 12) 4⟩)

/-- LEN's rule by TYPE (Table 15.8). -/
def Sect.lenOk (x : Sect) : Bool := match x.ty with
  | 1 => decide (4 ≤ x.len ∧ x.len ≤ 262144) && x.len % 4 = 0
  | 2 => decide (32 ≤ x.len)
  | 3 => decide (x.len ≤ 30720)
  | 4 => true
  | _ => false

/-- MAGIC, FORMAT, HDR_LEN, zero fields, ranges and section rules. -/
def imageFormat (h : List Nat) : Bool :=
  let n := fieldLe h 0x16 2
  let body := fieldLe h 0x18 4
  let ss := sections h
  fieldLe h 0 4 = 0x4E494755 && fieldLe h 4 2 = 1 && fieldLe h 6 2 = 256 && byteAt h 0xD = 0 && decide (byteAt h 0xC ≤ 64) &&
    decide (2 ≤ n ∧ n ≤ 8) && decide (1 ≤ body ∧ body ≤ 0x17FF00) && zeros h (0x40 + 16 * n) 0xC0 &&
    (List.range n).all (fun i => zeros h (0x42 + 16 * i) (0x44 + 16 * i)) &&
    ss.all (fun x => x.lenOk && x.off % 16 = 0 && decide (x.off + x.len ≤ body)) &&
    ss.Pairwise (fun x y => x.off + x.len ≤ y.off ∨ y.off + y.len ≤ x.off) &&
    ss.countP (fun x => x.ty = 1) = 1 && ss.countP (fun x => x.ty = 2) = 1 && decide (ss.countP (fun x => x.ty = 3) ≤ 1)

/-- The RESULT of checking a header, 0 for OK, in the order of R493. -/
def State.headerCheck (s : State) (h : List Nat) : Nat :=
  if !imageFormat h then 1
  else if !bit (fieldLe h 0x10 4) s.nv.hwClass then 2
  else if byteAt h 0xC < s.nv.epoch then 3
  else if fieldLe h 8 4 < s.boot.floor then 4
  else if !s.signatureOk (fieldLe h 0x1C 4) 0 (slice h 0 0xC0) (slice h 0xC0 0x100) then 5 else 0

/-- Whether a body matches its header: DIGEST and every section CRC. -/
def bodyOk (h body : List Nat) : Bool :=
  sha256 body = slice h 0x20 0x40 && (sections h).all (fun x => crc32 (slice body x.off (x.off + x.len)) = x.crc)

/-! ### IMG_CTL (R493, R494, R499-R503) -/

/-- EV_PLT_IMAGE. -/
def imageEvent (result kind bank : Nat) : Effect := ask fun s =>
  fire 94 (result + kind * 2 ^ 4 + bank * 2 ^ 7 + s.fld PLT.BOOT_INFO_FALLBACK * 2 ^ 8)

/-- An image operation ends with RESULT. -/
def imgResult (r : Nat) : Effect := seq [setFld PLT.IMG_CTL_RESULT r, setFld PLT.IMG_CTL_BUSY 0]

/-- The bank a LOAD writes: the one that is not running; in recovery, with none running, the one that is not ACTIVE
(assumption 24). -/
def State.otherBank (s : State) : Nat := 1 - (if s.nv.runs then s.fld PLT.BOOT_INFO_BANK else s.boot.active)

/-- The standby's answer to a push: IMG_ACT with its RESULT (R532). -/
def pushAnswer (ver result : Nat) : Effect := seq [linkClear, linkSend 6 (leBytes ver 4 ++ leBytes 0 8 ++ [result])]

/-- A LOAD ends. -/
def loadEnd (twin : Bool) (ver result : Nat) : Effect := ask fun s => seq [
  setNv fun n => { n with load := none }, imgResult result, imageEvent result 1 s.otherBank, when twin (pushAnswer ver result)]

/-- LOAD from `src`: the header's checks; an accepted header marks the bank EMPTY, and IMG_LOAD_COMPLETE goes on. -/
def imgLoad (src : Nat) (twin : Bool) : Effect := ask fun s => when (!s.flag PLT.IMG_CTL_BUSY) (
  if s.lifeCycle = 1 || s.lifeCycle = 6 || s.flag PLT.IMG_CTL_ARMED then loadEnd twin 0 8
  else engineRead src 256 (loadEnd twin 0 7) (fun h => ask fun s =>
    match s.headerCheck h with
    | 0 => seq [writeBoot (s.boot.setBank s.otherBank 0), setFld PLT.IMG_CTL_BUSY 1, setNv fun n => { n with load := some (h, src, twin) }]
    | r => loadEnd twin (fieldLe h 8 4) r))

/-- IMG_SRC; its low four bits are 0. -/
def State.imgSrc (s : State) : Nat := s.regN PLT.IMG_SRC_LO / 16 * 16 + 2 ^ 32 * s.fld PLT.IMG_SRC_HI_ADDR
def execImgLoad := run (ask fun s => imgLoad s.imgSrc false)

/-- Writes bytes to MRAM word by word. -/
def mramFill (a : Nat) (l : List Nat) : Effect :=
  forEach (List.range ((l.length + 7) / 8)) (fun i => mramWrite (a + 8 * i) ((l.drop (8 * i)).take 8))

/-- IMG_LOAD_COMPLETE: the body is copied and hashed, the header written last, and the bank read back. -/
def imgLoadComplete : Effect := ask fun s => match s.nv.load with
  | none => nothing
  | some (h, src, twin) =>
    let b := s.otherBank
    let fin := loadEnd twin (fieldLe h 8 4)
    engineRead (src + 256) (fieldLe h 0x18 4) (fin 7) (fun body => seq [
      mramFill (bankAddr b + 256) body,
      if bodyOk h body then seq [mramFill (bankAddr b) h, ask fun s =>
        if s.bytes (bankAddr b) 256 = h && s.bytes (bankAddr b + 256) body.length = body && s.readable (bankAddr b) (256 + body.length)
        then seq [writeBoot (s.boot.setBank b 1), fin 0] else fin 6]
      else fin 6])
def execImgLoadComplete := run (inDomain 2 imgLoadComplete)

/-- The STAGED bank. -/
def State.stagedBank (s : State) : Option Nat := [0, 1].find? (fun b => s.boot.bank b = 1)

/-- What the shadow of a shared activation copies, by register and mask: ROLE, ROLE_EPOCH, EN, TWN_CFG, CABLE, CKPT_CFG,
CKPT_BASE, FC_JUMP, and SYNC and APPLIED of CKPT_STATUS (R534). -/
def twinShadow : List (Nat × Nat) := [(TWN.TWN_STATE, 7), (TWN.ROLE_EPOCH, 0xFFFFFFFF), (TWN.TWN_CTL, 1), (TWN.TWN_CFG, 0xFFFFFFFF),
  (TWN.CABLE, 0xFFFFFFFF), (TWN.CKPT_CFG, 0xFFFFFFFF), (TWN.CKPT_BASE_LO, 0xFFFFFFFF), (TWN.CKPT_BASE_HI, 0xFFFFFFFF),
  (TWN.FC_JUMP, 0xFFFFFFFF), (TWN.CKPT_STATUS, 0xFFFFFF01)]

/-- Activation (R500): the boot record names the staged bank, on trial, and a CORE reset follows. -/
def activate : Effect := ask fun s => match s.stagedBank with
  | none => nothing
  | some b =>
    let keep := s.nv.twinArm && s.on 20 && s.role ≠ 0
    seq [
      writeBoot { s.boot.setBank b 2 with active := b, pending := true, trials := 0, actAt := 0 },
      disarm 74, setFld PLT.IMG_CTL_ARMED 0, setFld PLT.BOOT_INFO_ACT 1,
      when keep (setTwn fun t => { t with shadow := some (twinShadow.map (fun e => (e.1, s.regN e.1 &&& e.2))) }),
      setNv fun n => { n with twinArm := false },
      causeReset 7, coreResetWith keep]

/-- The activation is armed at `t`: ACT_AT goes to the boot record, and comparator 74 is armed. -/
def armActivation (t : Nat) : Effect := ask fun s => seq [
  writeBoot { s.boot with actAt := t }, arm 74 (BitVec.ofNat 64 t), setFld PLT.IMG_CTL_ARMED 1]

/-- The refusal of R499 of an ARM at `t`, 0 for none. -/
def State.armCheck (s : State) (t : Nat) : Nat :=
  if s.stagedBank = none || s.boot.pending then 8
  else if tdiff (BitVec.ofNat 64 t) s.now < 10000000 then 9 else 0

/-- IMG_ACT as an instant. -/
def State.imgAct (s : State) : Nat := s.pair PLT.IMG_ACT_LO PLT.IMG_ACT_HI

/-- ARM. With TWIN it needs the standby's report of a STAGED bank with the same IMG_VER, and sends IMG_ACT (R503, R533). -/
def imgArm : Effect := ask fun s => when (!s.flag PLT.IMG_CTL_BUSY) (
  match s.armCheck s.imgAct with
  | 0 =>
    let ver := (s.stagedBank.map s.bankVer).getD 0
    if s.flag PLT.IMG_CTL_TWIN then
      if s.on 20 && s.fld TWN.TWN_STATE_PEER_ROLE = 2 && s.regN TWN.PEER_IMG = ver && s.fld (TWN.CNT_HI 3) = 0 then seq [
        armActivation s.imgAct, setNv fun n => { n with twinArm := true },
        linkClear, linkSend 6 (leBytes ver 4 ++ leBytes s.imgAct 8 ++ [0]), imgResult 0]
      else imgResult 10
    else seq [armActivation s.imgAct, setNv fun n => { n with twinArm := false }, imgResult 0]
  | r => imgResult r)
def execImgArm := run imgArm

/-- The activation is disarmed, and the bank stays STAGED. -/
def disarmActivation : Effect := ask fun s => seq [
  disarm 74, setFld PLT.IMG_CTL_ARMED 0, setNv fun n => { n with twinArm := false }, writeBoot { s.boot with actAt := 0 }]

/-- CANCEL before IMG_ACT. -/
def imgCancel : Effect := ask fun s => when (!s.flag PLT.IMG_CTL_BUSY) (
  if s.flag PLT.IMG_CTL_ARMED && !s.reached (s.comp 74).at_ then seq [disarmActivation, imgResult 0] else imgResult 8)
def execImgCancel := run imgCancel

/-- RESTART. -/
def imgRestart : Effect := ask fun s => when (!s.flag PLT.IMG_CTL_BUSY) (
  if s.stagedBank = none || s.boot.pending then imgResult 8 else seq [imgResult 0, activate])
def execImgRestart := run imgRestart

/-- IMAGE_ACTIVATION: comparator 74's instant has come. -/
def execImageActivation := run (ask fun s => when (s.flag PLT.IMG_CTL_ARMED && (s.comp 74).armed && s.reached (s.comp 74).at_) activate)

/-- EPOCH fuses are programmed up to `e`; `good` says whether they read back (R502). -/
def programEpoch (e : Nat) (good : Bool) : Effect := ask fun s => when (decide (s.nv.epoch < e)) (
  if good then setNv fun n => { n with epoch := e } else imageEvent 6 4 (s.fld PLT.BOOT_INFO_BANK))

/-- CONFIRM. -/
def imgConfirm (good : Bool) : Effect := ask fun s => when (!s.flag PLT.IMG_CTL_BUSY) (
  let r := s.boot
  let b := s.fld PLT.BOOT_INFO_BANK
  let v := s.bankVer b
  if !r.pending || !s.nv.runs then imgResult 8
  else seq [
    writeBoot { (if s.bankVer (1 - b) < v then r.setBank (1 - b) 0 else r) with pending := false, trials := 0, floor := v },
    imgResult 0, imageEvent 0 3 b, programEpoch (s.byte (bankAddr b + 0xC)) good])
def execImgConfirm (fusesGood : Bool) := run (imgConfirm fusesGood)

/-- A write of IMG_CTL. -/
def imgCtlWrite (v : Nat) (good : Bool) : Effect := seq [setFld PLT.IMG_CTL_TWIN (bits v 23 23), match bits v 26 24 with
  | 1 => ask fun s => imgLoad s.imgSrc false
  | 2 => imgArm | 3 => imgCancel | 4 => imgRestart | 5 => imgConfirm good | _ => nothing]

/-- CONFIRM_TIMEOUT: a PENDING bank is not confirmed in time. -/
def execConfirmTimeout := run (ask fun s =>
  let t := s.fld PLT.CONFIRM_CFG_TIMEOUT
  when (s.nv.runs && s.boot.pending && t ≠ 0 && decide (s.nv.confirmFrom + t * 1000000000 ≤ s.acc.ltb)) (seq [causeReset 7, coreReset]))

/-! ### The sequencer load (R91-R94) -/

/-- The first cluster and step of Table 02.33 that a SEQ section fails, if any. -/
def seqCheck (l : List Nat) : Option (Nat × Nat) :=
  let f := fieldLe l
  let cm := f 8 1
  let km := f 0x10 8
  let ct := f 0x18 4
  let kt := f 0x1C 4
  let size := f 0xC 4
  let cores := allBelow 64 (bit km)
  let rec_ := fun c => (l.drop (ct + 32 * c)).take 32
  let core := fun i => (l.drop (kt + 80 * i)).take 80
  if f 0 4 ≠ 0x53465159 || f 4 2 ≠ 1 || f 6 2 ≠ 1 || !zeros l 9 12 || size ≠ l.length || decide (size < ct + 256) ||
      decide (size < kt + 80 * cores.length) || cores.any (fun n => !bit cm (n / 8)) then some (0, 1)
  else match firstBelow 8 (fun c =>
      let r := fieldLe (rec_ c)
      if bit cm c then r 4 4 % 4 ≠ 0 || decide (65536 < r 4 4) || decide (size < r 0 4 + r 4 4) || r 12 4 % 4 ≠ 0 || r 0x10 2 % 4 ≠ 0 ||
        decide (32768 < r 0x10 2 + r 12 4) || decide (size < r 8 4 + r 12 4) || !zeros (rec_ c) 0x12 0x14 || !zeros (rec_ c) 0x1C 0x20
      else !zeros (rec_ c) 0 32) with
  | some c => some (c, 1)
  | none => match (enumFrom 0 cores).find? (fun e => !zeros (core e.1) 0xA 0x10 || decide (3 < byteAt (core e.1) 9)) with
    | some e => some (e.2 / 8, 1)
    | none => match firstBelow 8 (fun c => bit cm c && crc32 (slice l (fieldLe (rec_ c) 0 4) (fieldLe (rec_ c) 0 4 + fieldLe (rec_ c) 4 4)) ≠ fieldLe (rec_ c) 0x14 4) with
      | some c => some (c, 4)
      | none => match firstBelow 8 (fun c => bit cm c && crc32 (slice l (fieldLe (rec_ c) 8 4) (fieldLe (rec_ c) 8 4 + fieldLe (rec_ c) 12 4)) ≠ fieldLe (rec_ c) 0x18 4) with
        | some c => some (c, 6)
        | none => match (enumFrom 0 cores).find? (fun e => fieldLe (core e.1) 0 4 % 4 ≠ 0 ||
            (List.range 16).any (fun k => badBind (fieldLe (core e.1) (0x10 + 4 * k) 4))) with
          | some e => some (e.2 / 8, 8)
          | none => none

/-- The load itself: clusters powered by vote, their memories filled, core records written, and every loaded core started
at ATB + 20 µs. The 0.6 ms it lasts are not modelled (assumption 26). -/
def seqLoad (l : List Nat) : Effect :=
  let f := fieldLe l
  let cm := f 8 1
  let cores := allBelow 64 (bit (f 0x10 8))
  let rec_ := fun c => (l.drop (f 0x18 4 + 32 * c)).take 32
  let core := fun i => (l.drop (f 0x1C 4 + 80 * i)).take 80
  seq [
    forEach (allBelow 8 (bit cm)) (fun c =>
      let a := 0x10400000 + c * 0x18000
      let r := fieldLe (rec_ c)
      seq [setFld (voteBit (4 + c) 0) 1, setDomain (4 + c) 2,
        putBytes a (List.replicate 65536 0xFF), putBytes a (slice l (r 0 4) (r 0 4 + r 4 4)),
        clearMem (a + 0x10000) (a + 0x18000), putBytes (a + 0x10000 + r 0x10 2) (slice l (r 8 4) (r 8 4 + r 12 4))]),
    forEach (enumFrom 0 cores) (fun e =>
      let r := fieldLe (core e.1)
      seq [initEntryWrite e.2 (r 0 4), setReg (SEQ.HBUDGET e.2) (r 4 4), xsegInitWrite e.2 (r 8 1),
        setReg (SEQ.XSEG_INIT e.2) (r 8 1), forEach (List.range 16) (fun k => bindWrite e.2 k (r (0x10 + 4 * k) 4)),
        setFld (SEQ.CORE_EXP_FAULT_SKIP e.2) (r 9 1 % 2), setFld (SEQ.CORE_EXP_BERR_NOFAULT e.2) (r 9 1 / 2)]),
    setFld (unlockedOf SEQ.START_CTL) 0, setFld (lockOf SEQ.START_CTL) 1,
    ask fun s => setPair SEQ.START_AT_LO SEQ.START_AT_HI (tplus s.now 20000).toNat,
    startArm, forEach cores coreStart]

/-! ### Boot (R496-R498, R501) -/

/-- Whether bank `b` passes its try, apart from the sequencer load. -/
def State.bankGood (s : State) (b : Nat) : Bool :=
  let h := s.bytes (bankAddr b) 256
  s.headerCheck h = 0 && s.readable (bankAddr b) (256 + fieldLe h 0x18 4) && bodyOk h (s.bytes (bankAddr b + 256) (fieldLe h 0x18 4))

/-- The bytes of bank `b`'s section of type `ty`. -/
def State.sectionOf (s : State) (b ty : Nat) : Option (List Nat) :=
  ((sections (s.bytes (bankAddr b) 256)).find? (fun x => x.ty = ty)).map (fun x => s.bytes (bankAddr b + 256 + x.off) x.len)

/-- The settings of a bank on its first trial (R501). -/
def settingsFor (b : Nat) : Effect := ask fun s =>
  let old := areaAddr (1 - b)
  let len := s.mem' (old + 2) 2
  let schema := s.mem' (bankAddr b + 0xE) 2
  if s.mem' old 2 = schema && decide (len ≤ 30712) && s.readable old (8 + len) && crc32 (s.bytes (old + 8) len) = s.mem' (old + 4) 4
  then mramFill (areaAddr b) (s.bytes old 30720)
  else mramFill (areaAddr b) ((s.sectionOf b 3).getD (leBytes schema 2 ++ leBytes 0 2 ++ leBytes (crc32 []) 4))

/-- The user page is cleared when its FORMAT is not the running image's (R501). -/
def userCheck (b : Nat) : Effect := ask fun s =>
  let fmt := s.mem' (bankAddr b + 0x14) 2
  when (s.userFormat ≠ fmt) (seq [
    mramFill 0x5000 (leBytes 0x55464331 4 ++ leBytes fmt 2 ++ List.replicate 10 0), mramFill 0x5010 (List.replicate 0x38 0),
    forEach (List.range 3) (calLoad [0, 1, 2, 3, 4, 5]), trimReload])

/-- Recovery (R498): PD_HIF is powered and the host serves. -/
def recovery : Effect := seq [setFld PLT.BOOT_INFO_RECOVERY 1, setNv fun n => { n with runs := false }, wakeDomains [19]]

/-- Bank `b` starts: MGT program copied, settings and user page seen to, BOOT_INFO, EV_PLT_IMAGE, and the program runs at
private RAM address 0. -/
def startBank (b : Nat) (good : Bool) : Effect := ask fun s =>
  let r := s.boot
  seq [
    putBytes 0x104C0000 ((s.sectionOf b 1).getD []),
    when (r.pending && r.trials = 1 && r.active = b) (settingsFor b), userCheck b,
    when (!r.pending) (programEpoch (s.byte (bankAddr b + 0xC)) good),
    setFld PLT.BOOT_INFO_BANK b, setFld PLT.BOOT_INFO_RECOVERY 0, bootMirror,
    setNv fun n => { n with runs := true, confirmFrom := s.acc.ltb },
    imageEvent 0 2 b,
    setCore 64 fun _ => { run := .running, init := true, inHandler := true, evsrc := 0xFFFFFFFF#32, released := s.acc.ltb, dispatched := s.acc.ltb }]

/-- Tries the banks in turn: the first that passes its checks and whose SEQ section loads is started. -/
def tryBanks (good : Bool) : List Nat → Effect
  | [] => recovery
  | b :: bs => ask fun s =>
    if s.bankGood b then
      match s.sectionOf b 2 with
      | some l => match seqCheck l with
        | some (c, st) => seq [logEntry 0x7F 3 4 (c + st * 2 ^ 8) 0, tryBanks good bs]
        | none => seq [seqLoad l, startBank b good]
      | none => tryBanks good bs
    else tryBanks good bs

/-- BOOT_START: the boot ROM runs, once PD_MGT is ON; `fusesGood` is the readback of EPOCH fuses that it may program. -/
def bootStart (good : Bool) : Effect := ask fun s => when (s.nv.bootDue && s.on 3) (seq [
  setNv fun n => { n with bootDue := false },
  if s.lifeCycle = 1 || s.lifeCycle = 6 then recovery
  else seq [
    -- an activation armed before: re-armed while it lies ahead, otherwise discarded (R500)
    ask fun s => when (s.boot.actAt ≠ 0) (if tdiff (BitVec.ofNat 64 s.boot.actAt) s.now ≤ 0 then disarmActivation
      else seq [arm 74 (BitVec.ofNat 64 s.boot.actAt), setFld PLT.IMG_CTL_ARMED 1]),
    ask fun s =>
      let r := s.boot
      let other := 1 - r.active
      if r.pending then
        if r.trials < s.fld PLT.CONFIRM_CFG_TRIAL_MAX then seq [writeBoot { r with trials := r.trials + 1 },
          tryBanks good (r.active :: (if r.bank other = 2 then [other] else []))]
        else seq [writeBoot { r with active := other, pending := false, trials := 0 }, setFld PLT.BOOT_INFO_FALLBACK 1,
          tryBanks good [other]]
      else tryBanks good (r.active :: (if r.bank other = 2 then [other] else []))],
  bootMirror])
def execBootStart (fusesGood : Bool) := run (bootStart fusesGood)

/-! ### Life cycle (R504-R507) -/

/-- A life-cycle, revocation or fuse operation is refused: its flag is set, and EV4 tells the flags (Table 19.2). -/
def plcRefuse (f : Fld) : Effect := seq [setFld f 1, ask fun s =>
  fire 4 (s.fld PLT.LC_CTL_ERR + 2 * s.fld PLT.FUSE_CTL_ERR + 4 * s.fld PLT.KEYREV_CTL_REJ)]

/-- A FACTORY unit's conditions for PROVISIONED. -/
def State.canProvision (s : State) : Bool :=
  s.nv.rootSet && s.nv.eui ≠ 0 && s.nv.hwSet && s.nv.tktHash ≠ 0 && s.factoryOk && s.tableHash = s.nv.tktHash

/-- Whether a return token opens this unit (Table 15.14). -/
def State.tokenOk (s : State) (t : List Nat) : Bool :=
  ofBe (slice t 0 4) = 0x4B4F5452 && ofBe (slice t 4 6) = 1 && byteAt t 6 = 5 && ofBe (slice t 8 16) = s.nv.eui &&
    some (slice t 0x10 0x20) = s.nv.nonce && zeros t 0x20 0x40 && s.signatureOk (byteAt t 7) 3 (slice t 0 0x40) (slice t 0x40 0x80)

/-- Entering RETURN (R507): stored slots erased, ceilings 0, slot locks, user page and settings cleared. -/
def enterReturn : Effect := ask fun s => seq [
  forEach ((List.range 4096).filter (fun k => (s.kslot k).level ≠ 0)) (fun k => seq [emptySlot k, ask fun s =>
    writeRecord k (s.kslot k) nothing nothing]),
  clearMem 0xC000 0x10000, writeRegState s.regActive 0, clearMem 0x5000 0x9000, clearMem 0x11000 0x20000]

/-- Entering SCRAPPED: every MRAM region but the factory page is erased, and the root no longer reads. -/
def enterScrapped : Effect := seq [clearMem 0 0x1000, clearMem 0x5000 0x400000,
  setNv fun n => { n with root := List.replicate 32 0xFF, bad := [] }]

/-- LIFECYCLE_TRANSITION by master `m`, with CONFIRM and the readback of the fuse. -/
def transition (m target confirm : Nat) (good : Bool) : Effect := ask fun s =>
  let code := s.lifeCycle
  let refused := plcRefuse PLT.LC_CTL_ERR
  let host := m = 65 || m = 64
  let go := fun (fuse : Nat) (e : Effect) => if good then seq [setNv fun n => { n with lcs := putBit n.lcs fuse true }, e, causeReset 5, chipReset]
    else refused
  match target with
  | 2 => if code = 1 && (m = 65 || m = 66) then go 0 nothing else refused
  | 3 => if code = 2 && host && s.canProvision then go 1 nothing else refused
  | 4 => if code = 3 && host && [0, 1].any (fun b => s.boot.bank b = 2) && !s.boot.pending then go 2 nothing else refused
  | 5 => if code = 4 && host then
      engineRead (s.regN PLT.LC_SRC_LO / 16 * 16 + 2 ^ 32 * s.fld PLT.LC_SRC_HI_ADDR) 128 refused
        (fun t => if s.tokenOk t then go 3 enterReturn else refused)
      else refused
  | 6 => if code ≠ 6 && (host || m = 66) && confirm = 0xD5 then go 5 enterScrapped else refused
  | _ => refused
def execLifecycleTransition (m : Fin 67) (target : BitVec 3) (confirm : BitVec 8) (fuseGood : Bool) :=
  run (transition m target.toNat confirm.toNat fuseGood)

/-- LC_NONCE_READ. -/
def nonceRead : Effect := withFreeBytes 16 fun l => seq [setNv fun n => { n with nonce := some l },
  forEach (List.range 4) (fun i => setReg (PLT.LC_NONCE i) (ofBe (slice l (4 * i) (4 * i + 4))))]
def execLcNonceRead := run nonceRead

/-! ### Fuses (R488, R490) -/

/-- KEYREV_REVOKE of key `k`: refused when no unrevoked DEVICE_IMAGE key would be left. -/
def keyRevoke (k : Nat) (good : Bool) : Effect := ask fun s => seq [setFld PLT.KEYREV_CTL_KEY k,
  if good && (List.range 16).any (fun j => j ≠ k && !bit s.nv.keyRev j && bit (s.keyUsage j) 0)
  then setNv fun n => { n with keyRev := putBit n.keyRev k true } else plcRefuse PLT.KEYREV_CTL_REJ]
def execKeyrevRevoke (k : Fin 16) (fuseGood : Bool) := run (keyRevoke k fuseGood)

/-- The first `n` words of FUSE_DATA as one big-endian number. -/
def State.fuseValue (s : State) (n : Nat) : Nat := ofBe ((List.range n).flatMap (fun i => beBytes (getD s.nv.fuseData i 0#32).toNat 4))

/-- FUSE_PROGRAM of bank `b`. -/
def fuseProgram (b : Nat) (good : Bool) : Effect := ask fun s =>
  let refused := plcRefuse PLT.FUSE_CTL_ERR
  let free := match b with
    | 0 => s.nv.eui = 0 | 1 => !s.nv.hwSet | 2 => s.nv.tktHash = 0 | _ => false
  seq [setFld PLT.FUSE_CTL_BANK b,
    if s.lifeCycle = 2 && free && good then match b with
      | 0 => setNv fun n => { n with eui := s.fuseValue 2 }
      | 1 => setNv fun n => { n with hwClass := (getD s.nv.fuseData 0 0#32).toNat % 32, hwSet := true }
      | _ => setNv fun n => { n with tktHash := s.fuseValue 8 }
    else refused]
def execFuseProgram (b : Fin 4) (fuseGood : Bool) := run (fuseProgram b fuseGood)

end Sys2Proof.Machine
end

