-- ==== Sys2Proof/Machine/Power.lean ====
section
/-!
DEFINITION. Votes, Drydown, wake sources, resets and their causes, the watchdog and the supply monitors (chapter 13).
What happens when a domain reads ON again, and accesses that wait for it, are in Machine/Wake.lean.
-/
namespace Sys2Proof.Machine

open Sys2Proof

/-! ### What a domain holds (R440, R441) -/

/-- Vote HW: work that cannot be drained, or the host-select detector's hold of PD_HIF. -/
def State.hwVote (s : State) (d : Nat) : Bool := match d with
  | 2 => s.flag FE.INSTALL_CTL_BUSY || s.nv.load.isSome || !s.cry.ceiling.isEmpty
  | 13 | 14 | 15 => (s.port (d - 13)).pend.isSome || (s.port (d - 13)).cal.isSome
  | 16 => s.flag KEY.KEY_OP_BUSY
  | 19 => (s.hif.selected || s.hif.open_) && (s.on 19 || bit (s.fld PLT.WAKE_EN_EN) 2)
  | _ => false

/-- Vote DEP. -/
def State.depVote (s : State) (d : Nat) : Bool := (dependents d).any (fun e => s.domain e = 2 || s.domain e = 3)

/-- The votes of a domain, as PD_VOTE reads. -/
def State.votes (s : State) (d : Nat) : Nat :=
  putBit (putBit (s.regN (PLT.PD_VOTE d)) 3 (s.hwVote d)) 4 (s.depVote d)

/-- PD_BUSY bit `d`. -/
def State.busy (s : State) (d : Nat) : Bool :=
  s.ist.running.any (fun x => istDomain x.cls x.unit = d) || match d with
  | 2 => s.tm.rings.any (fun e => !e.2.q.isEmpty) || s.fld TM.POOL_STATUS_FREE ≠ 16384 ||
      s.flag MAC.MAC_CTL_EN || !s.flag MAC.MAC_CTL_DRAINED || s.flag FWD.FWD_CTL_EN || !s.flag FWD.FWD_CTL_DRAINED ||
      s.flag DIS.DIS_CTL_EN || !s.flag DIS.DIS_CTL_DRAINED
  | 3 => (s.core 64).run = .running || (s.core 64).inFault
  | 12 => (List.range 3).any (fun p => !s.portDrained p)
  | 13 | 14 | 15 => !s.portDrained (d - 13) || (s.port (d - 13)).cal.isSome
  | 16 => s.flag CRY.CRY_CTL_EN || !s.flag CRY.CRY_CTL_DRAINED || s.flag KEY.KEY_CTL_EN || !s.keyDrained
  | 17 => !s.flag DDR.DDR_STATUS_SELFREF
  | 18 => s.fld ETH.ETH_CTL_EN ≠ 0 || s.fld ETH.ETH_CTL_DRAINED ≠ 3
  | 19 => s.hif.open_
  | 20 => s.flag TWN.TWN_CTL_EN
  | _ => decide (4 ≤ d ∧ d < 12) && (List.range 8).any (fun i =>
      let c := s.core (8 * (d - 4) + i)
      c.run = .running || !c.posted.isEmpty || (match c.wait with | .query _ _ => true | _ => false))

/-! ### Wake (R447-R449) -/

/-- The enabled wake sources now active, bits as WAKE_EN. -/
def State.wakeSources (s : State) : Nat :=
  let alarm := (List.range 4).any (fun k => s.flag (RTC.ALM_CTL_FIRED k) && s.flag (RTC.ALM_CTL_WAKE_EN k))
  let vote := (List.range 21).any (fun d => decide (2 ≤ d) && decide (s.domain d < 2) && (s.votes d &&& 0x2F) ≠ 0 && bit s.plt.levels 6)
  (b2n (bit s.plt.levels 0) + 2 * b2n s.gpioWakes + 4 * b2n s.hif.selected + 8 * b2n alarm + 16 * b2n (bit s.plt.levels 4) +
    32 * b2n s.plt.edge.isSome) &&& s.fld PLT.WAKE_EN_EN ||| 64 * b2n vote

/-- The domains that votes name. -/
def State.votedDoms (s : State) : List Nat :=
  (List.range 21).filter (fun d => decide (2 ≤ d) && decide (s.domain d < 2) && (s.votes d &&& 0x2F) ≠ 0)

/-- The last domain of a wake reads ON: the source is recorded, EV_PLT_WAKE raised, and STATE returns to IDLE. -/
def wakeEnd : Effect := ask fun s => seq [
  setReg PLT.WAKE_SRC (s.plt.wakeSrc + s.plt.wakeEvent * 2 ^ 8), fire 9 (s.plt.wakeSrc + s.plt.wakeEvent * 2 ^ 8),
  setFld PLT.DD_CTL_STATE 0, setFld PLT.WAKE_PEND_EDGE 0, setPlt fun p => { p with wakeSrc := 0, wakeEvent := 0 }]

/-- A wake of the domains `ds` begins, for the sources `src`. -/
def beginWake (ds : List Nat) (src : Nat) : Effect := ask fun s => seq [
  setPlt fun p => { p with wakeSrc := p.wakeSrc ||| src, wakeEvent := if bit src 5 then p.edge.getD 0 else p.wakeEvent
                           edge := none, levels := putBit p.levels 6 false },
  wakeDomains ds, ask fun t => when (t.plt.waking.isEmpty && s.plt.waking.isEmpty) wakeEnd]

/-- The wake controller acts in ASLEEP, outside the entry window: the domains of WAKE_DOMS and those that votes name. -/
def wakeCheck : Effect := ask fun s =>
  when (s.fld PLT.DD_CTL_STATE = 3 && !s.plt.entryWindow && s.plt.waking.isEmpty && s.wakeSources ≠ 0)
    (beginWake (allBelow 21 (bit (s.fld PLT.WAKE_DOMS_DOMS)) ++ s.votedDoms) s.wakeSources)

/-- WAKE_SOURCE: the WAKE_N ball's level, or the twin's held loss, as it is now; with `src` neither, a source that the
state holds already. -/
def execWakeSource (src : Fin 7) (active : Bool) := run (seq [
  when (src.val = 0) (setPlt fun p => { p with levels := putBit p.levels 0 active }), wakeCheck])

/-- ENTRY_WINDOW_END (R446): what is pending takes effect. -/
def execEntryWindowEnd := run (ask fun s => when s.plt.entryWindow (seq [
  setPlt fun p => { p with entryWindow := false }, wakeCheck]))

/-! ### Votes -/

/-- The bits of PD_VOTE that a master writes (R440). -/
def voteMask (m : Nat) : Nat := if m < 64 then 4 else if m = 64 then 0x21 else if m = 65 then 2 else 0

/-- A vote has been set on domain `d`: a stopped one wakes, unless Drydown runs, where it is a refusal or a reasserted
vote (R440, R444). -/
def voteSet (d : Nat) : Effect := ask fun s => match s.fld PLT.DD_CTL_STATE with
  | 1 => when (s.plt.ddStopped.any (fun x => x.1 = d)) (setPlt fun p => { p with reasserted := some (p.reasserted.getD d) })
  | 2 => nothing
  | 3 => seq [setPlt fun p => { p with levels := putBit p.levels 6 true }, when (!s.plt.entryWindow && decide (s.domain d < 2)) (beginWake [d] 64)]
  | _ => when (decide (s.domain d < 2)) (beginWake [d] 64)

/-- VOTE_WRITE of domain `d` by master `m`. -/
def voteWrite (m d v : Nat) : Effect := ask fun s =>
  let old := s.regN (PLT.PD_VOTE d)
  let new := (old &&& (0x3F - voteMask m)) ||| (v &&& voteMask m)
  when (decide (2 ≤ d ∧ d ≤ 20)) (seq [setReg (PLT.PD_VOTE d) new, when (new &&& (0x3F - old) ≠ 0) (voteSet d)])
def execVoteWrite (m : Fin 67) (d : Fin 21) (v : BitVec 6) := run (voteWrite m d v.toNat)

/-! ### Drydown (R442-R446) -/

/-- Whether Drydown passes over domain `d` with these settings. -/
def State.passesOver (s : State) (keep d : Nat) : Bool := s.domain d = 0 || bit keep d

/-- DRYDOWN_GO. -/
def drydownGo : Effect := ask fun s =>
  let keep := s.fld PLT.DD_KEEP_KEEP
  let stops := drydownOrder.filter (fun d => !s.passesOver keep d)
  let refused := fun (cause : Nat) => seq [setFld PLT.DD_STATUS_ABORT 1, setFld PLT.DD_STATUS_CAUSE cause]
  if s.fld PLT.DD_CTL_STATE = 1 || s.fld PLT.DD_CTL_STATE = 2 || !s.plt.waking.isEmpty then refused 5
  else if stops.any (fun d => (s.regN (PLT.PD_VOTE d) &&& 0x27) ≠ 0) then refused 3
  else if drydownOrder.any (fun e => bit keep e && (dependsOn e).any stops.contains) then refused 4
  else seq [setFld PLT.DD_CTL_STATE 1, setPlt fun p => { p with
    ddPos := 0, ddSince := s.acc.ltb, ddKeep := keep, ddRetain := s.fld PLT.DD_RETAIN_RETAIN, ddStopped := [], reasserted := none, entryWindow := false }]
def execDrydownGo := run drydownGo

/-- Rollback's next restart, or its end (R445). -/
def rollbackNext : Effect := ask fun s => match s.plt.rollback with
  | (d, off) :: rest => seq [setDomain d 3, setPlt fun p => { p with
      rollback := rest, powering := insertKey p.powering d (s.acc.ltb + (if off then powerNs d else 1000)), warm := if off then p.warm else p.warm ++ [d] }]
  | [] => seq [setFld PLT.DD_STATUS_ABORT 1, setFld PLT.DD_STATUS_DOM s.plt.abortDom, setFld PLT.DD_STATUS_CAUSE s.plt.abortCause,
      fire 10 (s.plt.abortDom + s.plt.abortCause * 2 ^ 5), setFld PLT.DD_CTL_STATE 0, setFld PLT.WAKE_PEND_EDGE 0,
      setPlt fun p => { p with edge := none, ddStopped := [] }]

/-- A domain refuses: rollback of everything stopped in this run, last first. -/
def drydownRefuse (d cause : Nat) : Effect := ask fun s => seq [
  setFld PLT.DD_CTL_STATE 2, setPlt fun p => { p with abortDom := d, abortCause := cause, rollback := s.plt.ddStopped, reasserted := none }, rollbackNext]

/-- The domain whose turn it is, and its position: the first from `ddPos` that is not passed over. -/
def State.drydownTurn (s : State) : Option (Nat × Nat) :=
  ((enumFrom 0 drydownOrder).filter (fun e => decide (s.plt.ddPos ≤ e.1))).find? (fun e => !s.passesOver s.plt.ddKeep e.2)

/-- Drydown has passed its last position: ASLEEP and the entry window. -/
def drydownAsleep : Effect := ask fun s => seq [
  setFld PLT.DD_CTL_STATE 3, setFld PLT.WAKE_DOMS_DOMS ((s.plt.ddStopped.map (fun x => 2 ^ x.1)).sum),
  setPlt fun p => { p with entryWindow := true, ddStopped := [] }]

/-- DRYDOWN_TURN: the votes and then PD_BUSY of the domain whose turn it is; a ready domain is stopped, and the next
position begins 2 µs after this one did, or now if it waited longer (assumption 27). -/
def drydownTurn : Effect := ask fun s => when (s.fld PLT.DD_CTL_STATE = 1 && decide (s.plt.ddSince ≤ s.acc.ltb)) (
  match s.drydownTurn with
  | none => drydownAsleep
  | some (pos, d) =>
    match s.plt.reasserted with
    | some v => drydownRefuse v 1
    | none =>
      if (s.votes d &&& 0x2F) ≠ 0 then drydownRefuse d 1
      else when (!s.busy d) (
        let off := !bit s.plt.ddRetain d
        seq [if off then powerOff d else seq [isolate d, setDomain d 1],
          setFld PLT.DD_STATUS_LAST d,
          setPlt fun p => { p with ddPos := pos + 1, ddSince := max (p.ddSince + 2000) s.acc.ltb, ddStopped := (d, off) :: p.ddStopped },
          ask fun s => when s.drydownTurn.isNone drydownAsleep]))
def execDrydownTurn := run drydownTurn

/-- DRYDOWN_BUSY_TIMEOUT. -/
def execDrydownBusyTimeout := run (ask fun s => when (s.fld PLT.DD_CTL_STATE = 1 && decide (s.plt.ddSince + 200000 ≤ s.acc.ltb)) (
  match s.drydownTurn with
  | some (_, d) => when (s.busy d && (s.votes d &&& 0x2F) = 0 && s.plt.reasserted.isNone) (drydownRefuse d 2)
  | none => nothing))

/-! ### Retention, resets, watchdog (R453-R456) -/

/-- PAD_RELEASE_ANT and PAD_RELEASE_H. -/
def execPadReleaseAnt := run (padRetWrite 4)
def execPadReleaseH := run (padRetWrite 8)

/-- POWER_ON_RESET: PD_AON gains power. -/
def execPowerOnReset := run (powerOnReset 0)

/-- AON_RESET_RELEASE: rails and CK_REF meet their thresholds. ATB starts from the calendar unless the RTC is locked out,
alarms that fired without PD_AON are reported, and PD_CORE, PD_MGT and PD_DDR power up. -/
def execAonResetRelease := run (ask fun s => when s.plt.aonHeld (seq [
  setPlt fun p => { p with aonHeld := false, resetUp := true, wdogStart := s.ltbMs }, trimReload,
  when (!s.rtc.locked) (seq [startFromRtc, setPlt fun p => { p with atbWaits := false },
    when (s.flag RTC.RTC_STATUS_OSF) (fire 13 (1 + 2 * s.fld RTC.RTC_STATUS_WRAP))]),
  when (s.rtc.owed ≠ 0) (seq [fire 12 s.rtc.owed, setRtc fun r => { r with owed := 0 }]),
  wakeDomains [2, 3, 17]]))

/-- RESET_PIN: RESET_N has been low for `ns`; a pulse under 100 ns is ignored, and one of 1 µs resets. What one between
them does is not said. -/
def execResetPin (ns : Nat) := run (
  let hit := seq [causeReset 2, chipReset]
  if 1000 ≤ ns then hit else if ns < 100 then nothing else withFree 1 fun f => when (f = 1) hit)

/-- RESET_CHIP, RESET_CORE and RESET_DOM by RST_CTL. -/
def execResetChip := run (seq [causeReset 4, chipReset])
def execResetCore := run (seq [causeReset 7, coreReset])
def domResetCmd (d : Nat) : Effect := seq [setFld PLT.RST_CTL_DOMAIN d, when (decide (3 ≤ d ∧ d ≤ 20)) (seq [causeReset 8, domReset d])]
def execResetDom (d : BitVec 5) := run (domResetCmd d.toNat)

/-- A write of RST_CTL: only the widest scope takes effect. -/
def rstCtlWrite (v : Nat) : Effect := seq [setFld PLT.RST_CTL_DOMAIN (bits v 12 8),
  if bit v 0 then seq [causeReset 4, chipReset] else if bit v 1 then seq [causeReset 7, coreReset]
  else when (bit v 2) (domResetCmd (bits v 12 8))]

/-- WDOG_KICK. -/
def wdogKick (v : Nat) : Effect := ask fun s => when (v = 0x4B1C) (setPlt fun p => { p with wdogStart := s.ltbMs })
def execWdogKick (v : Word) := run (wdogKick v.toNat)

/-- WATCHDOG_EXPIRE. -/
def execWatchdogExpire := run (ask fun s =>
  when (s.flag PLT.WDOG_CTL_EN && decide (s.plt.wdogStart + s.fld PLT.WDOG_CTL_TIMEOUT ≤ s.ltbMs)) (seq [causeReset 3, chipReset]))

/-- A write of WDOG_CTL: the count starts with EN. -/
def wdogCtlWrite (v : Nat) : Effect := ask fun s => seq [
  writeFields PLT.WDOG_CTL (if bits v 15 0 = 0 then v + 1 else v),
  when (bit v 16 && !s.flag PLT.WDOG_CTL_EN && !s.flag (lockOf PLT.WDOG_CTL)) (setPlt fun p => { p with wdogStart := s.ltbMs })]

/-! ### Supply monitors (R457) -/

/-- SUPPLY_FAULT of a rail of Table 13.8. -/
def execSupplyFault (rail : Fin 8) := run (ask fun s => when (!bit (s.regN PLT.SUPPLY_STATUS) rail && !s.plt.aonHeld) (seq [
  setFld PLT.SUPPLY_STATUS_FAULT (putBit (s.fld PLT.SUPPLY_STATUS_FAULT) rail true),
  setFld PLT.SUPPLY_LOG_FAULT (putBit (s.fld PLT.SUPPLY_LOG_FAULT) rail true),
  fire 11 (2 ^ rail.val),
  if rail.val < 3 then ask fun s => seq [dyingHb, powerOnReset 1, setFld PLT.SUPPLY_STATUS_FAULT (s.fld PLT.SUPPLY_STATUS_FAULT)]
  else if rail.val = 4 || rail.val = 5 then forEach (List.range 3) lockLoss
  else when (decide (6 ≤ rail.val)) (setPlt fun p => { p with dramDead := true })]))

/-- SUPPLY_RECOVER. -/
def execSupplyRecover (rail : Fin 8) := run (ask fun s =>
  setFld PLT.SUPPLY_STATUS_FAULT (putBit (s.fld PLT.SUPPLY_STATUS_FAULT) rail false))

/-- A write of RWL and RW registers of PLT that hold fixed bits: DD_KEEP, DD_RETAIN, WAKE_EN, WAKE_DOMS. -/
def fixedBits (a v : Nat) : Nat :=
  if a = PLT.DD_KEEP then v ||| 3 else if a = PLT.DD_RETAIN ∨ a = PLT.WAKE_DOMS ∨ a = IST.BIST_DOMS then v / 4 * 4
  else if a = PLT.WAKE_EN then v ||| 64 else v

end Sys2Proof.Machine
end

