-- ==== Sys2Proof/Machine/Ddr.lean ====
section
/-!
DEFINITION. The DRAM controller's commands (R580-R584): training, self-refresh, the MR4 reading. Accesses are in
Machine/Space.lean.
-/
namespace Sys2Proof.Machine

open Sys2Proof

/-- Sets the controller's working state. -/
def setDdr (f : Ddr → Ddr) : Effect := fun s => [.ddr (f s.ddr)]

/-- Whether INIT takes the fast path at die temperature `temp` (°C): valid results, within 10 °C of them, and a
self-refresh that the controller entered itself (R580). -/
def State.fastTraining (s : State) (temp : Int) : Bool :=
  s.ddr.trained && decide ((temp - s.ddr.temp).natAbs ≤ 10) && s.ddr.refreshing && !s.flag DDR.DDR_EXP_COLD

/-- INIT written with 1. The cold path resets the DRAM, which loses its contents. -/
def ddrInit (temp : Int) : Effect := ask fun s =>
  let fast := s.fastTraining temp
  when (s.fld DDR.DDR_STATUS_STATE ≠ 1) (seq [
    setFld DDR.DDR_STATUS_STATE 1, setFld DDR.DDR_STATUS_KEPT 0, setFld DDR.DDR_STATUS_SELFREF 0,
    setDdr fun d => { d with since := s.acc.ltb, fast := fast },
    when (!fast) (seq [clearMem 0x100000000 0x200000000, setDdr fun d => { d with bad := [], refreshing := false }])])

/-- DDR_INIT: DDR_CTL.INIT written with 1 while the die is at `temp` °C. -/
def execDdrInit (temp : Int) := run (inDomain 17 (ddrInit temp))

/-- DDR_TRAINING_END: training ends READY (`ok`), with the die at `temp` °C, or fails at a step of Table 18.6. -/
def execDdrTrainingEnd (ok : Bool) (step : Fin 11) (temp : Int) := run (inDomain 17 (ask fun s =>
  when (s.fld DDR.DDR_STATUS_STATE = 1) (
    if ok then seq [setFld DDR.DDR_STATUS_STATE 2, setFlag DDR.DDR_STATUS_KEPT s.ddr.fast,
      setDdr fun d => { d with trained := true, temp := temp, refreshing := false, accessed := s.acc.ltb }]
    else seq [setFld DDR.DDR_STATUS_STATE 3, setFld DDR.DDR_STATUS_STEP step, setDdr fun d => { d with refreshing := false },
      fire 86 (2 + step * 2 ^ 4)])))

/-- The DRAM enters self-refresh. -/
def enterSelfRefresh : Effect := seq [setFld DDR.DDR_STATUS_SELFREF 1, setDdr fun d => { d with refreshing := true }]

/-- SR written with 1. -/
def ddrSelfRefresh : Effect := ask fun s =>
  seq [setFld DDR.DDR_CTL_SR 1, when (s.fld DDR.DDR_STATUS_STATE = 2) enterSelfRefresh]

/-- DDR_SELF_REFRESH. -/
def execDdrSelfRefresh := run (inDomain 17 ddrSelfRefresh)

/-- DDR_SR_IDLE: SR_IDLE µs without an access, after an access that left self-refresh. -/
def execDdrSrIdle := run (inDomain 17 (ask fun s =>
  when (s.fld DDR.DDR_STATUS_STATE = 2 && s.flag DDR.DDR_CTL_SR_AUTO && s.flag DDR.DDR_CTL_SR && !s.flag DDR.DDR_STATUS_SELFREF
    && decide (s.ddr.accessed + s.fld DDR.DDR_CFG_SR_IDLE * 1000 ≤ s.acc.ltb)) enterSelfRefresh))

/-- DDR_MR4_POLL: `hot` says that MR4 reports a temperature above the device's upper limit. -/
def execDdrMr4Poll (hot : Bool) := run (inDomain 17 (ask fun s =>
  when (s.fld DDR.DDR_STATUS_STATE = 2 && hot) (fire 86 3)))

/-- A write of DDR_CTL. The die temperature that an INIT among its bits meets is a free value. -/
def ddrCtlWrite (v : Nat) : Effect := seq [
  setFlag DDR.DDR_CTL_SR_AUTO (bit v 2),
  if bit v 1 then ddrSelfRefresh else setFld DDR.DDR_CTL_SR 0,
  when (bit v 0) (withFree 8 fun t => ddrInit (signed 8 t))]

/-- A write of DDR_CFG: only while STATE is OFF (R579). -/
def ddrCfgWrite (v : Nat) : Effect := ask fun s =>
  when (s.fld DDR.DDR_STATUS_STATE = 0) (writeFields DDR.DDR_CFG v)

end Sys2Proof.Machine
end

