-- ==== Sys2Proof/Machine/Dis.lean ====
section
/-!
DEFINITION. Node image dissemination (chapter 14): campaigns, targets and notices, bursts and rounds, NACKs, activation,
block requests, and the cipher jobs whose end DIS waits for.
-/
namespace Sys2Proof.Machine

open Sys2Proof

/-! ### The DRAM area (Tables 14.1 and 14.4) -/

/-- Where campaign `c`'s store begins. -/
def State.disBase (s : State) (c : Nat) : Nat := s.fld DIS.DRAM_BASE_LO_ADDR + 2 ^ 32 * s.fld DIS.DRAM_BASE_HI_ADDR + c * 0x1000000

def setDis (f : Dis → Dis) : Effect := fun s => [.dis (f s.dis)]
def State.camp (s : State) (c : Nat) : Camp := getD s.dis.camps c {}
def setCamp (c : Nat) (f : Camp → Camp) : Effect := setDis fun x => { x with camps := insertKey x.camps c (f (getD x.camps c {})) }

/-- The state of a campaign. -/
def State.campState (s : State) (c : Nat) : Nat := s.fld (DIS.CMP_CTL_STATE c)
def setCampState (c st : Nat) : Effect := setFld (DIS.CMP_CTL_STATE c) st

/-- Bit `i` of the round set S, and of the progress map. -/
def State.inRound (s : State) (c i : Nat) : Bool := bit (s.byte (s.disBase c + 0x100000 + i / 8)) (i % 8)
def markOffered (c i : Nat) : Effect := ask fun s =>
  let a := s.disBase c + 0x102000 + i / 8
  putMem a 1 (putBit (s.byte a) (i % 8) true)

/-- Writes the round set, with nothing offered yet, and its size. -/
def putRound (c : Nat) (l : List Nat) : Effect := ask fun s => seq [
  forEach (List.range 8192) (fun b => putMem (s.disBase c + 0x100000 + b) 1 (((List.range 8).map (fun j => if l.contains (8 * b + j) then 2 ^ j else 0)).sum)),
  putBytes (s.disBase c + 0x102000) (List.replicate 8192 0),
  setFld (DIS.CMP_NFRAG_SET c) (min l.length 0xFFFF)]

/-- A node record. -/
structure DisNode where
  st : Nat := 0
  flags : Nat := 0
  lastRound : Nat := 0
  silent : Nat := 0
  base : Nat := 0
  missing : Nat := 0
  lastNack : Nat := 0
  target : Nat := 0
  map : List Nat := []
  deriving DecidableEq, Repr

def disAddr (s : State) (c i : Nat) : Nat := s.disBase c + 0x800000 + i * 0x40

/-- Node `i`'s record in campaign `c`. -/
def State.disNode (s : State) (c i : Nat) : DisNode :=
  let l := s.bytes (disAddr s c i) 64
  let f := fieldLe l
  { st := f 0 1, flags := f 1 1, lastRound := f 2 1, silent := f 3 1, base := f 4 2, missing := f 6 2, lastNack := f 8 4
    target := f 0xC 1, map := slice l 16 64 }

def DisNode.bytes (n : DisNode) : List Nat :=
  [n.st, n.flags, n.lastRound, n.silent] ++ leBytes n.base 2 ++ leBytes n.missing 2 ++ leBytes n.lastNack 4 ++ [n.target, 0, 0, 0]
    ++ (n.map ++ List.replicate 48 0).take 48

/-- Stores a record, and follows it in TARGETS and COMPLETE. -/
def putDis (c i : Nat) (n : DisNode) : Effect := ask fun s =>
  let old := s.disNode c i
  seq [putBytes (disAddr s c i) n.bytes,
    setFld (DIS.CMP_TGT_TARGETS c) (s.fld (DIS.CMP_TGT_TARGETS c) + b2n (n.st ≠ 0) - b2n (old.st ≠ 0)),
    setFld (DIS.CMP_DONE_COMPLETE c) (s.fld (DIS.CMP_DONE_COMPLETE c) + b2n (n.st = 3) - b2n (old.st = 3))]

/-- The nodes of a campaign whose state is one of `sts`, lowest first. -/
def State.disNodes (s : State) (c : Nat) (sts : List Nat) : List Nat := allBelow 131072 (fun i => sts.contains (s.byte (disAddr s c i)))

/-- What DIS does with its DRAM area needs the DRAM (R581). -/
def withDram (e : Effect) : Effect := ask fun s => if s.dramReady then seq [dramTouch, e] else dramNotReady

/-! ### Floors (R463) -/

def floorAddr (k : Nat) : Nat := 0xB000 + 8 * k
def State.floorValid (s : State) (k : Nat) : Bool := bit (s.byte (floorAddr k + 2)) 0
def State.floorId (s : State) (k : Nat) : Nat := s.mem' (floorAddr k) 2
def State.floorVer (s : State) (k : Nat) : Nat := s.mem' (floorAddr k + 4) 4

/-- The floor entry of an image family. -/
def State.floorOf (s : State) (img : Nat) : Option Nat := firstBelow 16 (fun k => s.floorValid k && s.floorId k = img)

/-- Stores a floor entry. -/
def putFloor (k img ver : Nat) (valid : Bool) : Effect := mramWrite (floorAddr k) (leBytes (img + b2n valid * 2 ^ 16 + ver * 2 ^ 32) 8)

/-- A write of FLOOR_VER_k: it raises the floor or does nothing. -/
def floorWrite (k v : Nat) : Effect := ask fun s => when (decide (s.floorVer k < v)) (putFloor k (s.floorId k) v (s.floorValid k))
def execFloorWrite (k : Fin 16) (v : Word) := run (inDomain 2 (floorWrite k v.toNat))

/-! ### Operations and their results (R475, Table 14.6) -/

def cmpDone (c r : Nat) : Effect := setFld (DIS.CMP_CTL_RESULT c) r

/-- An operation is refused. -/
def cmpRefused (c r : Nat) (load : Bool) : Effect := seq [cmpDone c r, fire 57 (c + r * 2 ^ 4 + b2n load * 2 ^ 8)]

/-- An operation runs only while BUSY is 0; one that needs the DRAM area ends with BUSERR where the DRAM does not answer. -/
def cmpOp (c : Nat) (e : Effect) : Effect := ask fun s => when (!s.flag (DIS.CMP_CTL_BUSY c)) e
def cmpOpDram (c : Nat) (load : Bool) (e : Effect) : Effect := cmpOp c (ask fun s =>
  if s.dramReady then seq [dramTouch, e] else seq [dramNotReady, cmpRefused c 6 load])

def State.imgLen (s : State) (c : Nat) : Nat := 128 + s.mem' (s.disBase c + 0x10) 4
def State.imgId (s : State) (c : Nat) : Nat := s.fld (DIS.CMP_IMG_IMG_ID c)
def State.imgVer (s : State) (c : Nat) : Nat := s.regN (DIS.CMP_VER c)
def fragsOf (len frag : Nat) : Nat := (len + frag - 1) / frag

/-! ### Loading (R461, R462) -/

/-- The first failing check of a header: a RESULT of Table 14.6, or 0. -/
def State.tagHeader (s : State) (h : List Nat) (fragLen : Nat) : Nat :=
  let f := fieldLe h
  let body := f 0x10 4
  if f 0 4 ≠ 0x474D494E || f 4 2 ≠ 1 || !zeros h 0x18 0x20 then 1
  else if f 6 2 = 0xFFFF || f 0xC 4 = 0 || body = 0 || decide (1048448 < body) || fragLen = 0 || decide (65535 < fragsOf (128 + body) fragLen) then 2
  else if !s.signatureOk (f 0x14 4) 2 (h.take 64) (slice h 64 128) then 3
  else match s.floorOf (f 6 2) with
    | some k => if f 8 4 < s.floorVer k then 4 else 0
    | none => 0

/-- CMP_LOAD: the header. -/
def cmpLoad (c : Nat) : Effect := cmpOpDram c true (ask fun s =>
  if s.campState c ≠ 0 then cmpRefused c 7 true
  else
    let src := s.fld (DIS.CMP_SRC_LO_ADDR c) / 16 * 16 + 2 ^ 32 * s.fld (DIS.CMP_SRC_HI_ADDR c)
    engineRead src 128 (cmpRefused c 6 true) fun h => ask fun s =>
      let r := s.tagHeader h (s.fld (DIS.CMP_CFG_FRAG_LEN c))
      if r ≠ 0 then cmpRefused c r true
      else seq [putBytes (s.disBase c) h, setFld (DIS.CMP_CTL_BUSY c) 1, setCampState c 1, setFld DIS.DIS_CTL_DRAINED 0,
        setFld (DIS.CMP_IMG_IMG_ID c) (fieldLe h 6 2), setReg (DIS.CMP_VER c) (fieldLe h 8 4),
        setFld (DIS.CMP_NFRAG_NFRAG c) (fragsOf (128 + fieldLe h 0x10 4) (s.fld (DIS.CMP_CFG_FRAG_LEN c))),
        setCamp c fun _ => { loading := true, src := src }])
def execCmpLoad (c : Fin 4) := run (inDomain 2 (cmpLoad c))

/-- DRAINED follows once a disabled DIS has no work left (R477). -/
def disDrain : Effect := ask fun s => when (!s.flag DIS.DIS_CTL_EN && s.dis.jobs.isEmpty && s.dis.camps.all (fun e => !e.2.loading))
  (setFld DIS.DIS_CTL_DRAINED 1)

/-- CMP_LOAD_COMPLETE: the body has been read and hashed. -/
def execCmpLoadComplete (c : Fin 4) := run (inDomain 2 (ask fun s =>
  let ends := fun (r : Nat) => seq [setFld (DIS.CMP_CTL_BUSY c) 0, setCamp c fun x => { x with loading := false },
    setCampState c (if r = 0 then 2 else 0), if r = 0 then cmpDone c 0 else cmpRefused c r true, disDrain]
  when ((s.camp c).loading) (if !s.dramReady then seq [dramNotReady, ends 6]
    else engineRead ((s.camp c).src + 128) (s.imgLen c - 128) (ends 6) fun l => ask fun s => seq [
      putBytes (s.disBase c + 128) l, ends (if sha256 l = s.bytes (s.disBase c + 0x20) 32 then 0 else 5)])))

/-! ### Frames to one node (R465, R467, R473) -/

/-- The flood set that a campaign uses. -/
def State.campSet (s : State) (c : Nat) : Nat := if s.campState c < 3 then s.fld (DIS.CMP_CFG_SET c) else (s.camp c).set

/-- The listen target of a node on port `p`. -/
def State.listenTarget (s : State) (c p : Nat) : Option Nat :=
  firstBelow 16 (fun t => s.flag (FWD.FSET_EN (s.campSet c) t) && s.fld (FWD.FSET_PORT (s.campSet c) t) = p)

/-- DIS_FRAG's bytes before its DATA, the ETYPE byte first. -/
def State.fragHead (s : State) (c round frag : Nat) : List Nat :=
  [0x10] ++ leBytes (s.imgId c) 2 ++ leBytes (s.imgVer c) 4 ++ [round] ++ leBytes frag 2 ++ leBytes (s.fld (DIS.CMP_NFRAG_NFRAG c)) 2

/-- A notice's payload for target `t`. -/
def State.noticeBytes (s : State) (c t : Nat) : List Nat :=
  let x := s.camp c
  let k := x.set
  s.fragHead c 0 0xFFFF ++ leBytes x.at_.toNat 8 ++ leBytes (x.period * 1000) 4 ++ leBytes x.len 2 ++ leBytes (x.gap * 250) 2 ++
    [s.fld (FWD.FSET_CHAN k t), s.fld (FWD.FSET_MODE k t) + s.fld (FWD.FSET_PORT k t) * 16] ++ leBytes x.fragLen 2 ++ leBytes (s.imgLen c) 4

/-- DIS_ACT's payload. -/
def State.actBytes (s : State) (c : Nat) : List Nat :=
  [0x12] ++ leBytes (s.imgId c) 2 ++ leBytes (s.imgVer c) 4 ++ leBytes (s.pair (DIS.CMP_ACT_LO c) (DIS.CMP_ACT_HI c)) 8

/-- A node leaves a campaign. -/
def disRemove (c i : Nat) : Effect := ask fun s => putDis c i { s.disNode c i with st := 0 }

/-- A frame that MAC refused is offered again 60 s later (R467). -/
def disLater (c i kind : Nat) : Effect := ask fun s => setCamp c fun x => { x with retry := x.retry ++ [(i, kind, s.acc.ltb + 60000000000)] }

/-- Queues a payload at MAC as a downlink frame to node `i`. -/
def disDownlink (c i kind : Nat) (pay : List Nat) (ok : Effect) : Effect := ask fun s =>
  let level := (s.camp c).level
  let l := List.replicate 21 0 ++ pay ++ List.replicate (micLen level + 2) 0
  withBytes l (disLater c i kind) fun b =>
    dlQueue i (mkDesc (6 + l.length * 2 ^ 16) b level 0) (fun code => if code = 0xB then disRemove c i else disLater c i kind) ok

/-- Queues a notice to node `i`, or finds the node unreachable. -/
def notice (c i : Nat) : Effect := withNode i fun n =>
  if n.state = 0 then disRemove c i
  else ask fun s => match s.listenTarget c n.port with
    | none => putDis c i { s.disNode c i with st := 5 }
    | some t => seq [putDis c i { s.disNode c i with target := t }, disDownlink c i 0 (s.noticeBytes c t) (count (DIS.CNT_HI 3))]

/-- Queues a DIS_ACT to node `i`. -/
def disAct (c i : Nat) : Effect := ask fun s => disDownlink c i 1 (s.actBytes c) (ask fun s => seq [
  count (DIS.CNT_LO 3), putDis c i { s.disNode c i with flags := putBit (s.disNode c i).flags 1 true }])

/-- NOTICE_RETRY: the frames of campaign `c` whose 60 s have passed, to nodes still in the state that called for them. -/
def execNoticeRetry (c : Fin 4) := run (inDomain 2 (withDram (ask fun s =>
  let due := (s.camp c).retry.filter (fun e => decide (e.2.2 ≤ s.acc.ltb))
  seq [setCamp c fun x => { x with retry := x.retry.filter (fun e => decide (s.acc.ltb < e.2.2)) },
    forEach due (fun e => ask fun s =>
      let st := (s.disNode c e.1).st
      if e.2.1 = 0 then when (st = 1 || st = 4) (notice c e.1) else when (st = 3 && s.flag (DIS.CMP_CTL_ACTIVATING c)) (disAct c e.1))])))

/-! ### Targets (R465) -/

def tgtEnds (c i r : Nat) : Effect := seq [setFld DIS.TGT_OP_CAMP c, setFld DIS.TGT_OP_NIDX i, setFld DIS.TGT_OP_RESULT r]

def tgtAdd (c i : Nat) : Effect := withDram (ask fun s => if s.campState c = 7 then tgtEnds c i 1 else withNode i fun n =>
  if n.state = 0 then tgtEnds c i 2
  else ask fun s => seq [tgtEnds c i 0, match s.listenTarget c n.port with
    | some t => putDis c i { st := 1, target := t }
    | none => putDis c i { st := 5 }])
def tgtRemove (c i : Nat) : Effect := withDram (seq [tgtEnds c i 0, disRemove c i])
def tgtQuery (c i : Nat) : Effect := withDram (ask fun s =>
  let n := s.disNode c i
  seq [tgtEnds c i 0, setReg DIS.TGT_STATE (n.st % 8 + b2n (bit n.flags 0) * 8 + n.lastRound * 2 ^ 8 + n.missing * 2 ^ 16)])
def execTgtAdd (c : Fin 4) (i : Fin 131072) := run (inDomain 2 (tgtAdd c i))
def execTgtRemove (c : Fin 4) (i : Fin 131072) := run (inDomain 2 (tgtRemove c i))
def execTgtQuery (c : Fin 4) (i : Fin 131072) := run (inDomain 2 (tgtQuery c i))

/-- A write of TGT_OP. -/
def tgtOpWrite (v : Nat) : Effect := match bits v 27 24 with
  | 1 => tgtAdd (bits v 21 20) (bits v 16 0)
  | 2 => tgtRemove (bits v 21 20) (bits v 16 0)
  | 3 => tgtQuery (bits v 21 20) (bits v 16 0)
  | _ => seq [setFld DIS.TGT_OP_CAMP (bits v 21 20), setFld DIS.TGT_OP_NIDX (bits v 16 0)]

/-! ### Starting, pausing, clearing (R468, R475) -/

/-- The largest FRAG_LEN that fits a target of mode `mode` at a level (R464). -/
def fragRoom (mode level : Nat) : Nat := maxPsdu mode - 21 - 12 - micLen level - 2

/-- A full fragment frame's length: the Broadcast MHR of 15 bytes (assumption 18). -/
def fragFrame (fragLen level : Nat) : Nat := 15 + 12 + fragLen + micLen level + 2

/-- The targets of a flood set, on one port. -/
def State.setOn (s : State) (set p : Nat) : List Target := (s.floodSet set none).filter (fun t => t.port = p)

/-- The time that one frame takes on port `p` of a flood set (R280), in ns. -/
def State.floodTime (s : State) (set len p : Nat) : Nat :=
  let ts := s.groupLaunch len (s.fld FWD.ATOM_CFG_PAR + 1) (s.fld FWD.ATOM_CFG_ATOM_GAP * 10000) 16 0 (s.setOn set p)
  (ts.map (fun t => t.launch + s.airtime t.mode len)).foldl max 0

/-- Why START is refused: a RESULT of Table 14.6, or 0 (assumption 15). -/
def State.startRefusal (s : State) (c : Nat) : Nat :=
  let n := s.fld (DIS.CMP_CFG_FRAG_LEN c)
  let level := s.fld (DIS.CMP_CFG_LEVEL c)
  let set := s.fld (DIS.CMP_CFG_SET c)
  if s.campState c ≠ 2 then 7
  else if tdiff (BitVec.ofNat 64 (s.pair (DIS.CMP_AT_LO c) (DIS.CMP_AT_HI c))) s.now < 60000000000 then 9
  else if n % 8 ≠ 0 || decide (n < 32 ∨ 216 < n) || decide (65535 < fragsOf (s.imgLen c) n) ||
      (s.floodSet set none).any (fun t => decide (fragRoom t.mode level < n)) then 2
  else if (List.range 3).any (fun p => decide (s.fld (DIS.CMP_SCHED_FRAG_GAP c) * 250000 < s.floodTime set (fragFrame n level) p)) then 8
  else 0

/-- CMP_START. -/
def cmpStart (c : Nat) : Effect := cmpOpDram c false (ask fun s =>
  let r := s.startRefusal c
  if r ≠ 0 then cmpRefused c r false
  else
    let n := fragsOf (s.imgLen c) (s.fld (DIS.CMP_CFG_FRAG_LEN c))
    seq [cmpDone c 0, setCampState c 3, setFld (DIS.CMP_CTL_ROUND c) 1, setFld (DIS.CMP_NFRAG_NFRAG c) n,
      setCamp c fun _ => {
        at_ := BitVec.ofNat 64 (s.pair (DIS.CMP_AT_LO c) (DIS.CMP_AT_HI c)), period := s.fld (DIS.CMP_SCHED_BURST_PERIOD c)
        len := s.fld (DIS.CMP_SCHED_BURST_LEN c), gap := s.fld (DIS.CMP_SCHED_FRAG_GAP c), fragLen := s.fld (DIS.CMP_CFG_FRAG_LEN c)
        level := s.fld (DIS.CMP_CFG_LEVEL c), set := s.fld (DIS.CMP_CFG_SET c), keySel := s.fld (DIS.CMP_CFG_KEY_SEL c)
        keySlot := s.fld (DIS.CMP_CFG_KEY_SLOT c) },
      putRound c (List.range n), ask fun s => forEach (s.disNodes c [1]) (notice c)])
def execCmpStart (c : Fin 4) := run (inDomain 2 (cmpStart c))

/-- CMP_PAUSE. -/
def cmpPause (c : Nat) : Effect := cmpOp c (ask fun s =>
  if s.campState c = 3 then seq [cmpDone c 0, setCampState c 4] else cmpRefused c 7 false)
def execCmpPause (c : Fin 4) := run (inDomain 2 (cmpPause c))

/-- CMP_RESUME: on from PAUSED, and from EXHAUSTED with one round more. -/
def cmpResume (c : Nat) : Effect := cmpOp c (ask fun s => match s.campState c with
  | 4 => seq [cmpDone c 0, setCampState c 3]
  | 6 => seq [cmpDone c 0, setFld (DIS.CMP_NACK_ROUNDS_MAX c) (min (s.fld (DIS.CMP_NACK_ROUNDS_MAX c) + 1) 255), setCampState c 3,
      setCamp c fun x => { x with rebuild := true }]
  | _ => cmpRefused c 7 false)
def execCmpResume (c : Fin 4) := run (inDomain 2 (cmpResume c))

/-- CMP_CLEAR. -/
def cmpClear (c : Nat) : Effect := cmpOpDram c false (ask fun s => seq [
  forEach (s.disNodes c [1, 2, 3, 4, 5]) (disRemove c), cmpDone c 0, setCampState c 0, setFld (DIS.CMP_CTL_ACTIVATING c) 0,
  setFld (DIS.CMP_CTL_ROUND c) 0, setCamp c fun _ => {}])
def execCmpClear (c : Fin 4) := run (inDomain 2 (cmpClear c))

/-! ### Bursts (R468, R469) -/

/-- Burst instant `k`. -/
def Camp.instant (x : Camp) (k : Nat) : Instant := tplus x.at_ (k * x.period * 1000000000)

/-- The number of the first burst instant not before `t`. -/
def Camp.burstFrom (x : Camp) (t : Instant) : Nat :=
  let d := tdiff t x.at_
  let p := (max x.period 1) * 1000000000
  if d ≤ 0 then 0 else (d.toNat + p - 1) / p

/-- The number of the last burst instant not after `t`, if there is one. -/
def Camp.burstAt (x : Camp) (t : Instant) : Option Nat :=
  let d := tdiff t x.at_
  if d < 0 then none else some (d.toNat / ((max x.period 1) * 1000000000))

/-- The fragments of the round still to be sent, in order. -/
def State.fragsLeft (s : State) (c : Nat) : List Nat :=
  (allBelow (s.fld (DIS.CMP_NFRAG_NFRAG c)) (fun i => decide ((s.camp c).next ≤ i) && s.inRound c i))

/-- A fragment is passed over in this burst. -/
def fragSkip : Effect := count (DIS.CNT_LO 0)

/-- Sixteen seal failures in a row pause the campaign. -/
def sealFailed (c : Nat) : Effect := seq [count (DIS.CNT_LO 2), fragSkip, setCamp c fun x => { x with fails := x.fails + 1 },
  ask fun s => when (s.campState c = 3 && decide (16 ≤ (s.camp c).fails)) (seq [setCampState c 4, setCamp c fun x => { x with fails := 0 }, cmpRefused c 12 false])]

/-- A fragment's seal has ended: its FLOOD job goes to the Atomiser. -/
def fragSealed (id st : Nat) : Effect := ask fun s => match s.dis.jobs.find? (fun j => j.id = id) with
  | none => nothing
  | some j =>
    let drop := seq [setDis fun x => { x with jobs := x.jobs.filter (fun y => y.id ≠ id) }, freeChain j.buf]
    let x := s.camp j.camp
    let ring := s.fld FWD.RING_SEL2_ATOM
    if st ≠ 0 then seq [drop, sealFailed j.camp, disDrain]
    else seq [setCamp j.camp fun x => { x with fails := 0 }, pointerCheck ring, ask fun s =>
      if !s.hasRoom ring then seq [drop, overflow ring, fragSkip, disDrain]
      else
        let wait := tdiff j.at_ s.now
        let start := if wait ≤ 0 then 1 else max 1 ((wait.toNat + 249999) / 250000)
        let len := fragFrame 0 x.level + (min x.fragLen (s.imgLen j.camp - j.frag * x.fragLen))
        seq [setDis fun y => { y with jobs := y.jobs.map (fun z => if z.id = id then { z with flooded := true } else z) },
          markOffered j.camp j.frag,
          append ring (mkDesc (7 + len * 2 ^ 16) (j.buf + s.fld DIS.DIS_CFG_CRING * 2 ^ 16 + x.set * 2 ^ 22) (start * 2 ^ 16) id)]]

/-- DIS serves the seals that have ended. -/
def disSealed : Effect := ask fun s => when (!s.cry.disDone.isEmpty) (seq [
  setCry fun c => { c with disDone := [] }, forEach s.cry.disDone (fun e => fragSealed e.1 e.2)])

/-- CIPHER_JOB_END and LANE_PARITY_ERROR (chapter 09), with what DIS does at once when a seal of its own ends. -/
def execCipherJobEnd (cl : Fin 24) := run (seq [inDomain 16 (jobEnd cl), disSealed])
def execLaneParityError (cl : Fin 24) (a : Fin 16) := run (seq [inDomain 16 (laneParity cl a), disSealed])

/-- Builds fragment `i` in a buffer of its own and has it sealed, to launch at `t`. -/
def fragBuild (c i : Nat) (t : Instant) : Effect := withBuf 0 fragSkip fun b => ask fun s =>
  let x := s.camp c
  let data := s.bytes (s.disBase c + i * x.fragLen) (min x.fragLen (s.imgLen c - i * x.fragLen))
  let pay := s.fragHead c (s.fld (DIS.CMP_CTL_ROUND c)) i ++ data
  let len := 15 + pay.length + micLen x.level + 2
  let id := s.dis.nextId
  seq [putChain b 0 (s.bcastMhr s.fwd.atomSeq x.level ++ pay), setFwd fun f => { f with atomSeq := (f.atomSeq + 1) % 256 },
    setDis fun y => { y with nextId := id + 1, jobs := y.jobs ++ [{ id := id, camp := c, frag := i, buf := b, at_ := t }] },
    submitJob (bcastJob b len x.level (if x.keySel = 0 then s.fld MAC.BCN_CFG_KEY else x.keySlot) (.dis id))]

/-- BURST_PREPARE: in the 100 ms before a burst instant, up to BURST_LEN fragments. -/
def execBurstPrepare (c : Fin 4) := run (inDomain 2 (withDram (ask fun s =>
  let x := s.camp c
  let k := max x.burst (x.burstFrom s.now)
  let l := (s.fragsLeft c).take x.len
  when (s.flag DIS.DIS_CTL_EN && s.campState c = 3 && x.nackEnd.isNone && !x.rebuild && !l.isEmpty &&
      decide (tdiff (x.instant k) s.now ≤ 100000000)) (seq [
    setCamp c fun y => { y with burst := k + 1, next := l.getLastD 0 + 1 },
    forEach (enumFrom 0 l) (fun e => fragBuild c e.2 (tplus (x.instant k) (e.1 * x.gap * 250000))), disSealed]))))

/-- FRAG_COMPLETION: DIS pops its completion ring and frees the fragment's chain. -/
def execFragCompletion := run (inDomain 2 (ask fun s => when (s.dis.jobs.any (fun j => j.flooded))
  (pop (s.fld DIS.DIS_CFG_CRING) fun od => match od with
    | none => nothing
    | some d => ask fun s => match s.dis.jobs.find? (fun j => j.flooded && j.buf = d.buf && j.id % 2 ^ 32 = d.w3.toNat) with
      | some j => seq [setDis fun x => { x with jobs := x.jobs.filter (fun y => y.id ≠ j.id) }, freeChain d.buf,
          when (d.type = 5 && bits d.w0.toNat 15 8 = 0) (count (DIS.CNT_HI 0)), disDrain]
      | none => freeDesc d)))

/-! ### Rounds (R470) -/

/-- NACK_PHASE_OPEN: a burst instant after the last fragment of the round. -/
def execNackPhaseOpen (c : Fin 4) := run (inDomain 2 (withDram (ask fun s =>
  let x := s.camp c
  match x.burstAt s.now with
  | some k => when (s.flag DIS.DIS_CTL_EN && s.campState c = 3 && x.nackEnd.isNone && !x.rebuild && decide (x.burst ≤ k) && (s.fragsLeft c).isEmpty &&
        !s.dis.jobs.any (fun j => j.camp = c.val && !j.flooded))
      (setCamp c fun y => { y with burst := k + 1, nackEnd := some (tplus (x.instant k) (s.fld (DIS.CMP_NACK_NACK_WINDOW c) * 1000000000)) })
  | none => nothing)))

/-- A node that was silent in a round. -/
def silentNode (c i : Nat) : Effect := ask fun s =>
  let n := s.disNode c i
  let k := min (n.silent + 1) 255
  if s.fld DIS.DIS_CFG_NACK_MISS_MAX ≤ k then seq [putDis c i { n with silent := k, st := 4 }, notice c i]
  else putDis c i { n with silent := k }

/-- The fragments that a node's stored window reports missing. -/
def DisNode.missed (n : DisNode) : List Nat := (allBelow 384 (fun j => bit (byteAt n.map (j / 8)) (j % 8))).map (· + n.base)

/-- ROUND_START: the pass between two rounds, in the preparation of a burst instant at or after the NACK phase's end. -/
def roundStart (c k : Nat) : Effect := ask fun s =>
  let r := s.fld (DIS.CMP_CTL_ROUND c)
  seq [
    forEach ((s.disNodes c [1, 2]).filter (fun i => !(s.camp c).heard.contains i)) (silentNode c),
    setCamp c fun x => { x with nackEnd := none, rebuild := false, heard := [], next := 0, burst := k },
    ask fun s =>
      let n := s.fld (DIS.CMP_NFRAG_NFRAG c)
      let miss := (s.disNodes c [2]).flatMap (fun i => (s.disNode c i).missed)
      let l := allBelow n miss.contains
      seq [putRound c l,
        if l.isEmpty then seq [setCampState c 5, fire 59 c]
        else if s.fld (DIS.CMP_NACK_ROUNDS_MAX c) ≤ r then seq [setCampState c 6, fire 59 (c + 4)]
        else seq [setFld (DIS.CMP_CTL_ROUND c) (r + 1), fire 58 (c + (r + 1) % 256 * 2 ^ 8 + min l.length 0xFFFF * 2 ^ 16),
          ask fun s => forEach (s.disNodes c [1]) (notice c)]]]
def execRoundStart (c : Fin 4) := run (inDomain 2 (withDram (ask fun s =>
  let x := s.camp c
  let k := match x.nackEnd with
    | some e => max x.burst (x.burstFrom e)
    | none => max x.burst (x.burstFrom s.now)
  when (s.flag DIS.DIS_CTL_EN && s.campState c = 3 && (x.nackEnd.isSome || x.rebuild) && decide (tdiff (x.instant k) s.now ≤ 100000000))
    (roundStart c k))))

/-! ### NACKs (R471) -/

/-- The ones of a map. -/
def onesOf (l : List Nat) : Nat := (allBelow (8 * l.length) (fun j => bit (byteAt l (j / 8)) (j % 8))).length

/-- NACK_RX: DIS consumes a DIS_NACK. -/
def execNackRx := run (inDomain 2 (ask fun s => when (s.flag DIS.DIS_CTL_EN) (pop (s.fld FWD.RING_SEL1_DIS) fun od => match od with
  | none => nothing
  | some d => ask fun s =>
    let l := s.chainBytes d.buf d.len
    let at_ := (match parseHdr l d.len with
      | some h => (h.len, h.level)
      | none => (21, 0))
    let p := slice l at_.1 (d.len - micLen at_.2 - 2)
    let f := fieldLe p
    let i := d.nidx
    let c := firstBelow 4 (fun c => decide (2 ≤ s.campState c) && s.imgId c = f 1 2 && s.imgVer c = f 3 4)
    let foreign := count (DIS.CNT_HI 2)
    seq [freeDesc d, match c with
      | none => foreign
      | some c => withDram (
        let n := s.disNode c i
        let round := f 7 1
        let n' := { n with silent := 0, lastRound := round, lastNack := s.ns / 1000000000 % 2 ^ 32 }
        let heard := seq [count (DIS.CNT_HI 1), setCamp c fun x => { x with heard := x.heard.filter (· ≠ i) ++ [i] }]
        if d.poison || byteAt p 0 ≠ 0x11 || n.st = 0 || n.st = 5 || decide (s.fld (DIS.CMP_CTL_ROUND c) < round) then foreign
        else if round < n.lastRound then count (DIS.CNT_LO 1)
        else if bit (byteAt p 8) 0 then seq [putDis c i { n' with st := 3 }, heard, when (s.flag (DIS.CMP_CTL_ACTIVATING c)) (disAct c i)]
        else
          let map := p.drop 11
          let more := bit (byteAt p 8) 1 || (map.drop 48).any (· ≠ 0)
          let k := onesOf (map.take 48)
          seq [putDis c i { n' with st := 2, base := f 9 2, map := map.take 48, missing := k, flags := putBit n.flags 0 more }, heard,
            when ((s.campState c = 5 || s.campState c = 6) && (decide (0 < k) || more)) (seq [
              when (s.campState c = 6) (setFld (DIS.CMP_NACK_ROUNDS_MAX c) (min (s.fld (DIS.CMP_CTL_ROUND c) + 1) 255)),
              setCampState c 3, setCamp c fun x => { x with rebuild := true }])])])))

/-! ### Activation (R473, R474) -/

/-- CMP_ACTIVATE. -/
def cmpActivate (c : Nat) : Effect := cmpOpDram c false (ask fun s =>
  let st := s.campState c
  let img := s.imgId c
  let ver := s.imgVer c
  if st ≠ 3 && st ≠ 5 && st ≠ 6 then cmpRefused c 7 false
  else if tdiff (BitVec.ofNat 64 (s.pair (DIS.CMP_ACT_LO c) (DIS.CMP_ACT_HI c))) s.now < s.fld DIS.DIS_CFG_ACT_LEAD * 1000000000 then
    cmpRefused c 10 false
  else match (match s.floorOf img with
      | some k => some k
      | none => firstBelow 16 (fun k => !s.floorValid k)) with
    | none => cmpRefused c 11 false
    | some k => seq [cmpDone c 0,
        when (!s.floorValid k || decide (s.floorVer k < ver)) (putFloor k img ver true),
        setFld (DIS.CMP_CTL_ACTIVATING c) 1,
        forEach (s.disNodes c [3]) (disAct c),
        forEach ((List.range 4).filter (fun e => e ≠ c && decide (2 ≤ s.campState e ∧ s.campState e ≤ 6) && s.imgId e = img && decide (s.imgVer e < ver)))
          (fun e => seq [setCampState e 7, setFld (DIS.CMP_CTL_ACTIVATING e) 0, fire 59 (e + 12)])])
def execCmpActivate (c : Fin 4) := run (inDomain 2 (cmpActivate c))

/-- ACTIVATION_INSTANT. -/
def execActivationInstant (c : Fin 4) := run (inDomain 2 (ask fun s =>
  when (s.flag (DIS.CMP_CTL_ACTIVATING c) && s.reached (BitVec.ofNat 64 (s.pair (DIS.CMP_ACT_LO c) (DIS.CMP_ACT_HI c))))
    (seq [setCampState c 7, setFld (DIS.CMP_CTL_ACTIVATING c) 0, fire 59 (c + 8)])))

/-- A write of CMP_CTL. -/
def cmpCtlWrite (c v : Nat) : Effect := match bits v 26 24 with
  | 1 => cmpLoad c
  | 2 => cmpStart c
  | 3 => cmpPause c
  | 4 => cmpResume c
  | 5 => cmpActivate c
  | 6 => cmpClear c
  | _ => nothing

/-! ### Block requests (R476) -/

/-- BLOCK_REQUEST: BLK_REQ.GO by master `m`. -/
def blockRequest (m : Nat) : Effect := ask fun s =>
  let c := s.fld (DIS.BLK_REQ_CAMP.of m)
  let szx := s.fld (DIS.BLK_REQ_SZX.of m)
  let size := 2 ^ (szx + 4)
  let off := s.fld (DIS.BLK_REQ_NUM.of m) * size
  let len := min size (s.imgLen c - off)
  let buf := s.fld (DIS.BLK_DST_BUF.of m)
  let dst := s.fld (DIS.BLK_DST_OFFSET.of m)
  let ends := fun (r more n : Nat) => seq [setFld (DIS.BLK_RES_RESULT.of m) r, setFld (DIS.BLK_RES_MORE.of m) more, setFld (DIS.BLK_RES_LEN.of m) n]
  if s.campState c < 2 then ends 1 0 0
  else if !s.dramReady then seq [dramNotReady, ends 4 0 0]
  else if szx = 7 || decide (s.imgLen c ≤ off) then ends 2 0 0
  else if s.chainLen buf < dst + len then ends 3 0 0
  else seq [dramTouch, putChain buf dst (s.bytes (s.disBase c + off) len), ends 0 (b2n (off + len < s.imgLen c)) len]
def execBlockRequest (m : Fin 67) := run (inDomain 2 (blockRequest m))

/-! ### Enabling and disabling (R477) -/

/-- RUNNING campaigns become PAUSED. -/
def pauseAll : Effect := forEach (List.range 4) (fun c => ask fun s => when (s.campState c = 3) (setCampState c 4))
def disEnable : Effect := ask fun s => when (!s.flag DIS.DIS_CTL_EN) (seq [setFld DIS.DIS_CTL_EN 1, setFld DIS.DIS_CTL_DRAINED 0, pauseAll])
def disDisable : Effect := ask fun s => when (s.flag DIS.DIS_CTL_EN) (seq [setFld DIS.DIS_CTL_EN 0, pauseAll, disDrain])
def execDisEnable := run (inDomain 2 disEnable)
def execDisDisable := run (inDomain 2 disDisable)

end Sys2Proof.Machine
end

