-- ==== Sys2Proof/Machine/Eth.lean ====
section
/-!
DEFINITION. Ethernet (R572-R578) with its time stamps and one-step insertion (R401-R404), and the MDIO master.
-/
namespace Sys2Proof.Machine

open Sys2Proof

/-- Port `q`'s working state. -/
def State.ethPort (s : State) (q : Nat) : EthPort := getD s.eth.ports q {}
def setEth (q : Nat) (f : EthPort → EthPort) : Effect :=
  fun s => [.eth { s.eth with ports := putD s.eth.ports q (f (s.ethPort q)) {} }]

def State.ethEn (s : State) (q : Nat) : Bool := bit (s.fld ETH.ETH_CTL_EN) q
def State.ethUp (s : State) (q : Nat) : Bool := s.flag (ETH.PORT_STATUS_LINK q)

/-- The station address, byte 0 first. -/
def State.station (s : State) (q : Nat) : List Nat := leBytes (s.regN (ETH.SA_LO q)) 4 ++ leBytes (s.fld (ETH.SA_HI_ADDR q)) 2

/-! ### Headers -/

/-- The big-endian number of the `k` bytes at `o`. -/
def fieldBe (l : List Nat) (o k : Nat) : Nat := ofBe (slice l o (o + k))

/-- Where the EtherType stands: after at most one 802.1Q tag. -/
def etypeAt (l : List Nat) : Nat := if fieldBe l 12 2 = 0x8100 then 16 else 12
def etypeOf (l : List Nat) : Nat := fieldBe l (etypeAt l) 2

/-- Where the UDP header stands in an unfragmented IPv4 packet with protocol 17, or an IPv6 packet whose fixed header names
next header 17 (R574). -/
def udpAt (l : List Nat) : Option Nat :=
  let ip := etypeAt l + 2
  if etypeOf l = 0x0800 then
    if byteAt l (ip + 9) = 17 && fieldBe l (ip + 6) 2 % 2 ^ 14 = 0 then some (ip + byteAt l ip % 16 * 4) else none
  else if etypeOf l = 0x86DD then (if byteAt l (ip + 6) = 17 then some (ip + 40) else none)
  else none

/-- The destination UDP port of a frame that `udpAt` finds. -/
def udpPort (l : List Nat) : Option Nat := (udpAt l).map (fun o => fieldBe l (o + 2) 2)

/-! ### Receiving (R573, R574) -/

/-- The ring for a frame of port `q`: that of the lowest rule that matches, else RX_RING. -/
def State.ethRing (s : State) (q : Nat) (l : List Nat) : Nat :=
  match firstBelow 8 (fun k => bit (s.fld (ETH.RULE_PORTS k)) q && s.fld (ETH.RULE_ETYPE k) = etypeOf l &&
      (s.fld (ETH.RULE_UDP_PORT k) = 0 || udpPort l = some (s.fld (ETH.RULE_UDP_PORT k)))) with
  | some k => s.fld (ETH.RULE_RING k)
  | none => s.fld (ETH.PORT_CFG_RX_RING q)

/-- A good FCS and a length that the port takes. -/
def State.ethSound (s : State) (q : Nat) (l : List Nat) : Bool :=
  decide (64 ≤ l.length ∧ l.length ≤ s.fld (ETH.PORT_CFG_MAX_LEN q)) && crc32 (l.take (l.length - 4)) = fieldLe l (l.length - 4) 4

/-- A PAUSE frame of Annex 31B. -/
def State.isPause (s : State) (q : Nat) (l : List Nat) : Bool :=
  fieldBe l 12 2 = 0x8808 && fieldBe l 14 2 = 1 && (l.take 6 = [0x01, 0x80, 0xC2, 0, 0, 1] || l.take 6 = s.station q)

/-- A destination that the port takes. -/
def State.ethMine (s : State) (q : Nat) (l : List Nat) : Bool :=
  l.take 6 = s.station q || l.take 6 = List.replicate 6 0xFF || (byteAt l 0 % 2 = 1 && s.flag (ETH.PORT_CFG_MC_ALL q))

/-- Nanoseconds of `n` × 512 bit times in the port's mode, rounded up. -/
def State.quantaNs (s : State) (q n : Nat) : Nat := if s.flag (ETH.PORT_CFG_MODE q) then (n * 1024 + 4) / 5 else n * 512

/-- A received PAUSE holds the transmitter (R576). -/
def pauseRx (q n : Nat) : Effect := ask fun s => when (s.flag (ETH.PORT_CFG_PAUSE_EN q)) (seq [
  setEth q fun p => { p with pause := s.acc.ltb + s.quantaNs q n }, setFlag (ETH.PORT_STATUS_PAUSED q) (n ≠ 0)])

/-- The RXETH descriptor but for BUF: ingress instant in whole ns, after compensation. -/
def rxeth (q len buf : Nat) (t : Int) : Desc :=
  let sec := unsigned 48 (t / 1000000000)
  mkDesc (2 + q * 2 ^ 5 + len * 2 ^ 16) (buf + sec / 2 ^ 32 * 2 ^ 16) (t % 1000000000).toNat (sec % 2 ^ 32)

/-- ETH_RX_FRAME: a frame from destination address to FCS, and the ATB nanosecond of its first bit after the SFD at the
balls. -/
def execEthRxFrame (q : Fin 2) (frame : List Nat) (stamp : Nat) := run (inDomain 18 (ask fun s =>
  let drop := count (ETH.CNT_RX_DROP q)
  when (s.ethEn q && s.ethUp q) (
    if !s.ethSound q frame then drop
    else if s.isPause q frame then seq [drop, pauseRx q (fieldBe frame 16 2)]
    else if !s.ethMine q frame then drop
    else if !s.on 2 then drop
    else withBytes frame drop fun b =>
      let t := ((stamp : Int) * 65536 - signed 32 (s.regN (ACC.INGRESS q))) / 65536
      let r := s.ethRing q frame
      ask fun u => seq [deliver r (rxeth q frame.length b t), ask fun v =>
        when (decide ((u.ring r).q.length < (v.ring r).q.length)) (count (ETH.CNT_RX_FRAMES q))])))

/-! ### One-step insertion (R404) -/

/-- Where the PTP header of a version 2 Sync message with twoStepFlag 0 stands, and the place of its UDP checksum. -/
def oneStepAt (l : List Nat) : Option (Nat × Option Nat) :=
  let at_ := if etypeOf l = 0x88F7 then some (etypeAt l + 2, none)
    else if udpPort l = some 319 then (udpAt l).map (fun o => (o + 8, some (o + 6))) else none
  match at_ with
  | some (p, c) => if byteAt l p % 16 = 0 && byteAt l (p + 1) % 16 = 2 && !bit (byteAt l (p + 6)) 1 then some (p, c) else none
  | none => none

/-- The list with bytes `x` in place from `o`. -/
def patch (l : List Nat) (o : Nat) (x : List Nat) : List Nat := l.take o ++ x ++ l.drop (o + x.length)

/-- Sum of the 16-bit words of the bytes `a` up to `b`, or of their complements. -/
def words16 (l : List Nat) (a b : Nat) : List Nat := (List.range ((b - a) / 2)).map (fun i => fieldBe l (a + 2 * i) 2)

/-- Folds a sum to 16 bits of ones' complement. -/
def fold16 (n : Nat) : Nat := let a := n % 65536 + n / 65536; let b := a % 65536 + a / 65536; b % 65536 + b / 65536

/-- The checksum of RFC 1624 (equation 3) after the bytes `a` up to `b` of `l` became those of `m`; `c` and the range share
their alignment to 16 bits within the datagram. -/
def fixChecksum (old : Nat) (l m : List Nat) (a b : Nat) : Nat :=
  0xFFFF - fold16 ((0xFFFF - old) + ((words16 l a b).map (fun x => 0xFFFF - x)).sum + (words16 m a b).sum)

/-- The frame with egress instant `t` (2^-16 ns) inserted. -/
def insertOneStep (l : List Nat) (t : Nat) : List Nat := match oneStepAt l with
  | none => l
  | some (p, c) =>
    let m := patch (patch l (p + 34) (beBytes (t / 65536 / 1000000000) 6 ++ beBytes (t / 65536 % 1000000000) 4))
      (p + 8) (beBytes (fieldBe l (p + 8) 8 + t % 65536) 8)
    match c with
    | none => m
    | some o => if fieldBe l o 2 = 0 then m else patch m o (beBytes (fixChecksum (fieldBe l o 2) l m (p + 8) (p + 44)) 2)

/-! ### Sending (R575) -/

/-- The egress instant of a frame whose first bit after the SFD leaves at ATB nanosecond `ns`, in 2^-16 ns. -/
def State.egress (s : State) (q ns : Nat) : Nat := unsigned 80 ((ns : Int) * 65536 + signed 32 (s.regN (ACC.EGRESS q)))

/-- Whether the transmitter may take a descriptor. -/
def State.ethMayTx (s : State) (q : Nat) : Bool := s.ethEn q && s.ethUp q && !s.flag (ETH.PORT_STATUS_PAUSED q) &&
  (s.ethPort q).tx.isNone && !s.holds 5 q && s.on 2

/-- The COMPLETION of a STAMP descriptor: `t` is the egress instant in whole ns. -/
def ethComplete (q status len buf t : Nat) (d : Desc) : Effect :=
  complete 5 q (bits d.w1.toNat 21 16) (completion 5 status len buf (q + bits t 41 32 * 2 ^ 6) (bits t 31 0) d.w3.toNat)

/-- A descriptor that is not sent. Its chain is freed; a report of it has no egress instant (a free value). -/
def ethRefuse (q status : Nat) (d : Desc) : Effect := seq [freeDesc d, count (ETH.CNT_TX_TX_DROP q),
  when (d.type = 3 && bit d.w0.toNat 7) (withFree 42 fun t => ethComplete q status 0 0 t d)]

/-- ETH_TX_FRAME: the transmitter pops a descriptor. `sfd` is the ATB nanosecond at which the first bit after the SFD of
its frame leaves the balls. -/
def execEthTxFrame (q : Fin 2) (sfd : Nat) := run (inDomain 18 (ask fun s => when (s.ethMayTx q)
  (pop (s.fld (ETH.PORT_CFG_TX_RING q)) fun od => match od with
    | none => nothing
    | some d =>
      if d.type ≠ 3 then ethRefuse q 1 d
      else if d.poison then ethRefuse q 2 d
      else if d.len < 64 || s.fld (ETH.PORT_CFG_MAX_LEN q) < d.len then ethRefuse q 1 d
      else seq [
        when (bit d.w0.toNat 8) (putChain d.buf 6 (s.station q)), reportShort d.buf d.len,
        ask fun s =>
          let l := (s.chainBytes d.buf d.len).take (d.len - 4)
          let m := if bit (s.fld ACC.PTP_CFG_ONESTEP) q then insertOneStep l (s.egress q sfd) else l
          setEth q fun p => { p with tx := some (d, m ++ leBytes (crc32 m) 4, sfd) }])))

/-- DRAINED of a port follows (R577). -/
def ethDrain (q : Nat) : Effect := ask fun s => when (!s.ethEn q && (s.ethPort q).tx.isNone)
  (setFld ETH.ETH_CTL_DRAINED (putBit (s.fld ETH.ETH_CTL_DRAINED) q true))

/-- The frame on the wire ends, with a status of Table 18.5. -/
def ethTxEnd (q status : Nat) : Effect := ask fun s => match (s.ethPort q).tx with
  | none => nothing
  | some (d, _, sfd) => seq [
      setEth q fun p => { p with tx := none },
      when (status = 0) (count (ETH.CNT_TX_FRAMES q)),
      if bit d.w0.toNat 7 then ethComplete q status d.len d.buf (s.egress q sfd / 65536) d else freeDesc d,
      ethDrain q]

/-- ETH_TX_END. -/
def execEthTxEnd (q : Fin 2) := run (inDomain 18 (ethTxEnd q 0))

/-- ETH_LINK_CHANGE: the link comes up or goes down; `speedErr` tells of another speed or half duplex at SGMII. A frame on
the wire ends with the link. -/
def execEthLinkChange (q : Fin 2) (up speedErr : Bool) := run (inDomain 18 (ask fun s =>
  let err := speedErr && !s.flag (ETH.PORT_CFG_MODE q)
  let on := up && !err
  seq [setFlag (ETH.PORT_STATUS_SPEEDERR q) err,
    when (on ≠ s.ethUp q) (seq [setFlag (ETH.PORT_STATUS_LINK q) on, fire 85 (q + 2 * b2n on + 4 * b2n err),
      when (!on) (ethTxEnd q 3)])]))

/-- PAUSE_END. -/
def execPauseEnd (q : Fin 2) := run (inDomain 18 (ask fun s =>
  when (s.flag (ETH.PORT_STATUS_PAUSED q) && decide ((s.ethPort q).pause ≤ s.acc.ltb)) (setFld (ETH.PORT_STATUS_PAUSED q) 0)))

/-! ### Register behaviours -/

/-- EN of port `q` written with 1, and with 0. -/
def ethEnable (q : Nat) : Effect := ask fun s => when (!s.ethEn q) (seq [
  setFld ETH.ETH_CTL_EN (putBit (s.fld ETH.ETH_CTL_EN) q true), setFld ETH.ETH_CTL_DRAINED (putBit (s.fld ETH.ETH_CTL_DRAINED) q false)])
def ethDisable (q : Nat) : Effect := ask fun s => seq [setFld ETH.ETH_CTL_EN (putBit (s.fld ETH.ETH_CTL_EN) q false), ethDrain q]
def execEthDisable (q : Fin 2) := run (inDomain 18 (ethDisable q))
def ethCtlWrite (v : Nat) : Effect := forEach (List.range 2) (fun q => if bit v q then ethEnable q else ethDisable q)

/-- Whether a write of MODE is refused (R572): the port enabled, or CK_ETH would change (R33) with a port enabled. -/
def State.modeRefused (s : State) (q : Nat) (m : Bool) : Bool :=
  let other := s.flag (ETH.PORT_CFG_MODE (1 - q))
  let old := s.flag (ETH.PORT_CFG_MODE q)
  s.ethEn q || ((old || other) ≠ (m || other) && s.ethEn (1 - q))

/-- A write of MODE. -/
def ethModeWrite (q : Nat) (m : Bool) : Effect := ask fun s => when (m ≠ s.flag (ETH.PORT_CFG_MODE q))
  (if s.modeRefused q m then setFld ETH.ETH_CTL_MODEREJ 1 else setFlag (ETH.PORT_CFG_MODE q) m)
def execEthModeWrite (q : Fin 2) (mode : Bool) := run (inDomain 18 (ethModeWrite q mode))

/-- A write of PORT_CFG. -/
def portCfgWrite (q v : Nat) : Effect := seq [ethModeWrite q (bit v 31), ask fun s =>
  writeFields (ETH.PORT_CFG q) (putBits (putBit v 31 (s.flag (ETH.PORT_CFG_MODE q))) 27 14 (clampN 64 9216 (bits v 27 14)))]

/-! ### MDIO (R578) -/

/-- A write of MDIO_CMD. GO while a frame is sent starts none. -/
def mdioWrite (v : Nat) : Effect := seq [
  setFld ETH.MDIO_CMD_CL45 (bits v 28 28), setFld ETH.MDIO_CMD_OP (bits v 27 26), setFld ETH.MDIO_CMD_DIV (max 2 (bits v 25 18)),
  setFld ETH.MDIO_CMD_PHYAD (bits v 14 10), setFld ETH.MDIO_CMD_REGAD (bits v 9 5),
  ask fun s => when (bit v 29 && !s.flag ETH.MDIO_CMD_BUSY) (seq [setFld ETH.MDIO_CMD_BUSY 1,
    fun s => [.eth { s.eth with mdio := some (if bit v 28 then decide (2 ≤ bits v 27 26) else bits v 27 26 = 2) }]])]

/-- MDIO_FRAME: a write of MDIO_CMD with GO. -/
def execMdioFrame (v : Word) := run (inDomain 18 (mdioWrite (putBit v.toNat 29 true)))

/-- MDIO_FRAME_END: whether the PHY drove the turnaround bit low, and the data that a read brought. -/
def execMdioFrameEnd (ack : Bool) (data : BitVec 16) := run (inDomain 18 (ask fun s => when (s.flag ETH.MDIO_CMD_BUSY) (seq [
  setFld ETH.MDIO_CMD_BUSY 0, setFlag ETH.MDIO_CMD_NOACK (s.eth.mdio = some true && !ack),
  when (s.eth.mdio = some true) (setFld ETH.MDIO_DATA_DATA data.toNat),
  fun s => [.eth { s.eth with mdio := none }]])))

end Sys2Proof.Machine
end

