-- ==== Sys2Proof/Machine/Evt.lean ====
section
/-!
DEFINITION. The event router's commands (chapter 19): serving a firing, delivery, hold-off, the host event queue, the log's
clear, held firings, and the software and test firings.
-/
namespace Sys2Proof.Machine

open Sys2Proof

/-- A firing routed to the host enters its queue, and HIF_ATTN.EVT becomes 1 (R605, R606). -/
def hostEnqueue (n arg : Nat) : Effect := ask fun s =>
  if s.evt.hostQ.length < 32 then seq [fun s => [.evt { s.evt with hostQ := s.evt.hostQ ++ [(n, arg)] }], setFld HIF.HIF_ATTN_EVT 1]
  else seq [count EVT.HOST_EVQ_LOST,
    when (!s.evt.hostLostRaised) (seq [fun s => [.evt { s.evt with hostLostRaised := true }],
      ask fun s => fire 5 (s.fld EVT.HOST_EVQ_LOST)])]

/-- The core a ONE route of event `n` chooses (R602). -/
def State.chooseOne (s : State) (n : Nat) : Option Nat :=
  let mask := s.pair (EVT.CORES_LO n) (EVT.CORES_HI n)
  let ok := allBelow 64 (fun c => bit mask c && s.on (coreDomain c))
  match find s.evt.lastOne n with
  | none => ok.head?
  | some l => match ok.find? (fun c => decide (l < c)) with
    | some c => some c
    | none => ok.head?

/-- Queues deliveries of a firing to cores. -/
def queueDeliveries (n arg : Nat) (cores : List Nat) : Effect :=
  fun s => [.evt { s.evt with deliveries := s.evt.deliveries ++ cores.map (fun c => ⟨n, arg, c⟩) }]

/-- Whether EV0 goes to the management core whatever ROUTE_0 holds (R603). -/
def State.mgtFirst (s : State) (n arg : Nat) : Bool :=
  n = 0 && arg % 2 ^ 7 < 64 && !s.flag (SEQ.CORE_EXP_FAULT_SKIP (arg % 2 ^ 7))

/-- Delivers a firing to the destinations ROUTE_n names (R601 step 5), and starts the hold-off (R604). -/
def deliverEvent (n arg : Nat) : Effect := ask fun s =>
  let mask := s.pair (EVT.CORES_LO n) (EVT.CORES_HI n)
  let hold := s.fld (EVT.ROUTE_HOLDOFF n)
  seq [
    if s.flag (EVT.ROUTE_ONE n) then
      match s.chooseOne n with
      | some c => seq [fun s => [.evt { s.evt with lastOne := insertKey s.evt.lastOne n c }], queueDeliveries n arg [c]]
      | none => count EVT.EVT_CNT_NODEST
    else queueDeliveries n arg (allBelow 64 (bit mask)),
    when (s.flag (EVT.ROUTE_MGT n) && !s.mgtFirst n arg) (queueDeliveries n arg [64]),
    when (s.flag (EVT.ROUTE_HOST n)) (hostEnqueue n arg),
    when (hold ≠ 0) (fun s => [.evt { s.evt with
      holdoff := insertKey s.evt.holdoff n (s.acc.ltb + hold * 10000, none) }])]

/-- Serves the firing at the head of the router's queue (R601). -/
def serveFiring : Effect := ask fun s =>
  match s.evt.queue with
  | [] => nothing
  | f :: rest => seq [
      fun s => [.evt { s.evt with queue := rest }],
      count (EVT.STAT_FIRED f.event),
      setReg (EVT.LAST_ARG f.event) f.arg,
      when (!f.logged) (logEvent f.event f.arg),
      ask fun s => when (s.mgtFirst f.event f.arg) (queueDeliveries f.event f.arg [64]),
      ask fun s => when (s.flag (EVT.ROUTE_EN f.event))
        (match find s.evt.holdoff f.event with
         | some (t, held) =>
           if s.acc.ltb < t || held.isSome then
             seq [count (EVT.STAT_COAL f.event), fun s => [.evt { s.evt with
               holdoff := insertKey s.evt.holdoff f.event (t, some f.arg) }]]
           else deliverEvent f.event f.arg
         | none => deliverEvent f.event f.arg)]

/-- EVENT_FIRING. -/
def execEventFiring := run (inDomain 2 serveFiring)

/-- A delivery reaches its core (R602): it latches into every slot of KIND 1 bound to the event. -/
def deliverAt (d : Delivery) : Effect := ask fun s =>
  let slots := (s.boundSlots 1 d.event).filter (fun e => e.1 = d.core)
  if slots.isEmpty || !s.on (coreDomain d.core) || (s.core d.core).run = .held then count EVT.EVT_CNT_NOBIND
  else forEach slots (fun e => latchSlot e.1 e.2 d.arg)

/-- EVENT_DELIVERY: the `i`th delivery under way completes, unless an earlier one of the same event to the same core has
not (R601). -/
def execEventDelivery (i : Nat) := run (inDomain 2 (ask fun s =>
  match s.evt.deliveries[i]? with
  | none => nothing
  | some d =>
    when (!(s.evt.deliveries.take i).any (fun x => x.event = d.event && x.core = d.core))
      (seq [fun s => [.evt { s.evt with deliveries := s.evt.deliveries.eraseIdx i }], deliverAt d])))

/-- The hold-off of event `n` ends: a held firing is delivered and a new hold-off starts (R604). -/
def holdoffEnd (n : Nat) : Effect := ask fun s =>
  match find s.evt.holdoff n with
  | none => nothing
  | some (_, held) => seq [fun s => [.evt { s.evt with holdoff := eraseKey s.evt.holdoff n }],
      match held with
      | some arg => deliverEvent n arg
      | none => nothing]

/-- HOLDOFF_EXPIRE of event `n`, at or after its instant. -/
def execHoldoffExpire (n : Fin 96) := run (inDomain 2 (ask fun s =>
  match find s.evt.holdoff n with
  | some (t, _) => when (decide (t ≤ s.acc.ltb)) (holdoffEnd n)
  | none => nothing))

/-- A write to ROUTE_n: HOLDOFF 0 delivers a held firing at once (R604). -/
def routeWrite (n v : Nat) : Effect :=
  seq [writeFields (EVT.ROUTE n) v, when (bits v 23 16 = 0) (holdoffEnd n)]

/-- What a read of HOST_EVQ returns. -/
def State.hostEvqValue (s : State) : Nat :=
  match s.evt.hostQ with
  | [] => s.fld EVT.HOST_EVQ_LOST * 2 ^ 16
  | (n, _) :: _ => 2 ^ 31 + s.fld EVT.HOST_EVQ_LOST * 2 ^ 16 + n

/-- A read of HOST_EVQ removes the head and copies its argument (R605). -/
def hostEvqRead : Effect := seq [
  ask fun s => match s.evt.hostQ with
    | [] => nothing
    | (_, arg) :: rest => seq [setReg EVT.HOST_EVQ_ARG arg, fun s => [.evt { s.evt with hostQ := rest }]],
  setFld EVT.HOST_EVQ_LOST 0,
  fun s => [.evt { s.evt with hostLostRaised := false }]]

/-- HOST_EVQ_READ. -/
def execHostEvqRead := run hostEvqRead

/-- LOG_CLEAR: LOG_CTL.CLEAR empties the log (R609). -/
def logClear : Effect := fun s => [.evt { s.evt with log := [] }]
def execLogClear := run logClear

/-- Held firings pass to the router in ascending event number, ahead of later firings of the same event, which merge with
them (R600, R610). -/
def heldRelease : Effect := ask fun s => seq [
  forEach s.evt.latches (fun e => ask fun s =>
    if s.evt.queue.any (fun f => f.event = e.1) then count (EVT.STAT_COAL e.1)
    else fun s => [.evt { s.evt with queue := s.evt.queue ++ [⟨e.1, e.2, true⟩] }]),
  fun s => [.evt { s.evt with latches := [] }]]

/-- HELD_RELEASE: EVT_CTL.REL. -/
def execHeldRelease := run (inDomain 2 heldRelease)

/-- EVT_SOFT0_WRITE and EVT_SOFT1_WRITE (R598). -/
def execEvtSoft0Write (v : Word) := run (inDomain 2 (fire 6 v.toNat))
def execEvtSoft1Write (v : Word) := run (inDomain 2 (fire 7 v.toNat))

/-- A write to EVT_EXP: in an unlocked window it stores NUM and ARG, and GO fires event NUM (Table 19.9). -/
def evtExpWrite (v : Nat) : Effect := ask fun s =>
  seq [writeFields EVT.EVT_EXP (putBit v 31 false),
    when (s.flag EVT.EXPERT_UNLOCK_UNLOCKED && bit v 31 && decide (bits v 6 0 < 96)) (raise (bits v 6 0) (bits v 23 8))]

/-- EVT_EXP_FIRE. -/
def execEvtExpFire (v : Word) := run (inDomain 2 (evtExpWrite v.toNat))

end Sys2Proof.Machine
end

