-- ==== Sys2Proof/Machine/Twn.lean ====
section
/-!
DEFINITION. Twin operation (chapter 16) and the twin link's frames and DATA path (R585-R587): roles, heartbeats,
checkpoints, takeover and restore, handover, shared activation.
-/
namespace Sys2Proof.Machine

open Sys2Proof

/-! ### Roles (R510-R512) -/

/-- A role change: EV_TWN_ROLE, and the loss level ends when ROLE leaves TAKEOVER (R518). -/
def roleTo (r : Nat) (fenced : Bool) : Effect := ask fun s => when (s.role ≠ r) (seq [
  setFld TWN.TWN_STATE_ROLE r, fire 93 (r + s.role * 8 + b2n fenced * 64),
  when (s.role = 5) (setPlt fun p => { p with levels := putBit p.levels 4 false })])

/-- The next multiple of `step` ns after now. -/
def State.nextMultiple (s : State) (step : Nat) : Instant := BitVec.ofNat 64 ((s.ns / step + 1) * step)

def State.ckPeriod (s : State) : Nat := s.fld TWN.CKPT_CFG_PERIOD_MS * 1000000

/-- The unit becomes ACTIVE: checkpoints start, and nothing has gone unkicked. -/
def becomeActive : Effect := ask fun s => seq [
  roleTo 2 false, setTwn fun t => { t with unkicked := 0, missed := 0 }, arm 77 (s.nextMultiple s.ckPeriod)]

/-- SYNCING begins with a JOIN (R511, R535). -/
def becomeSyncing : Effect := seq [roleTo 3 false, setTwn fun t => { t with missed := 0, measN := 0, jlen := 0, jcount := 0, jcrc := 0 }, linkSend 7 []]

/-- Fencing (R524): the ports fall silent, groups ANT and H are retained, and ROLE becomes FENCED. -/
def fence : Effect := ask fun s => seq [
  forEach s.bb.staged (fun x => if x.phase = .onAir then seq [endTx x 3, setPort x.port fun y => { y with lastEnd := s.acc.ltb }] else endTx x 0x0C),
  forEach (List.range 3) (fun p => setPort p fun x => { x with paEn := false }),
  holdAnt, holdH, roleTo 6 true, disarm 76, disarm 77, setTwn fun t => { t with handover := false }]

/-- The first HB number not yet judged, as things stand at a start: windows before now are not judged. -/
def State.hbNow (s : State) : Nat := s.ns / 10000000

/-- TWIN_ENABLE. -/
def twinEnable : Effect := ask fun s => when (!s.flag TWN.TWN_CTL_EN) (seq [
  setFld TWN.TWN_CTL_EN 1, setFld TWN.TWN_STATE_RESTORED 0, setFld TWN.TWN_STATE_PEER_ROLE 0,
  setTwn fun t => { seqs := t.seqs, outs := t.outs, shadow := t.shadow, ck := t.ck, joinSince := s.acc.ltb, judged := s.hbNow },
  arm 78 (s.nextMultiple 10000000), roleTo 1 false])
def execTwinEnable := run (inDomain 20 twinEnable)

/-- TWIN_DISABLE. -/
def twinDisable : Effect := ask fun s => when (s.flag TWN.TWN_CTL_EN) (seq [
  setFld TWN.TWN_CTL_EN 0, roleTo 0 false, disarm 76, disarm 77, disarm 78,
  setTwn fun t => { seqs := t.seqs, outs := t.outs, shadow := t.shadow, ck := t.ck, dirty := [], dirtyMap := [] }])
def execTwinDisable := run (inDomain 20 twinDisable)

/-- The outcome of listening, once JOIN_WAIT has passed (R511). -/
def joinDecide : Effect := ask fun s =>
  let waited := s.acc.ltb - s.twn.joinSince
  let w := s.fld TWN.TWN_CFG_JOIN_WAIT * 10000000
  let primary := s.flag TWN.TWN_CFG_PRIMARY
  when (s.role = 1 && decide (w ≤ waited)) (
    if s.twn.peer = 2 then becomeSyncing
    else if s.twn.peer = 1 then when primary becomeActive
    else when (primary || decide (3 * w ≤ waited)) becomeActive)
def execJoinWaitExpire := run (inDomain 20 (seq [linkClear, joinDecide]))

/-! ### Received frames (R513) -/

/-- A frame received while the link is in sync: a bad CRC counts; a good one of TYPE `ty` goes on with its ROLE_EPOCH and
payload, and settles two active units (R512): `active` says that its sender is ACTIVE or TAKEOVER. -/
def rxFrame (l : List Nat) (ty : Nat) (active : List Nat → Bool) (k : Nat → List Nat → Effect) : Effect :=
  inDomain 20 (ask fun s => when (s.flag TWN.LINK_STATUS_SYNC) (
    let n := l.length - 4
    if l.length < 20 || fieldLe l 2 2 + 20 ≠ l.length || decide (2032 < fieldLe l 2 2) || crc32 (l.take n) ≠ fieldLe l n 4 then count (TWN.CNT_LO 0)
    else
      let epoch := fieldLe l 8 4
      let pay := slice l 16 n
      let own := s.regN TWN.ROLE_EPOCH
      when (byteAt l 0 = ty) (seq [linkClear,
        when ((s.role = 2 || s.role = 5) && active pay && (decide (own < epoch) || (own = epoch && !s.flag TWN.TWN_CFG_PRIMARY))) fence,
        k epoch pay])))

/-! ### Loss of the peer (R515, R523) -/

/-- Three HBs have been missed, or one came DYING. -/
def hbLoss (dying : Bool) : Effect := ask fun s =>
  let down := !s.flag TWN.LINK_STATUS_SYNC
  match s.role with
  | 2 => fire 92 (2 * b2n down + 4 * b2n dying)
  | 4 => when (dying || !down || s.flag TWN.TWN_CFG_LINKDOWN_TAKE) (seq [
      fire 92 (1 + 2 * b2n down + 4 * b2n dying),
      setPlt fun p => { p with levels := putBit p.levels 4 true },
      setReg TWN.ROLE_EPOCH (s.twn.ckEpoch + 1), setTwn fun t => { t with missed := 0 }, roleTo 5 false, wakeCheck])
  | _ => nothing

/-- HB_MISS: the window of the newest HB instant has closed with no good HB in it. -/
def execHbMiss := run (inDomain 20 (ask fun s =>
  let tol := s.fld TWN.TWN_CFG_HB_TOL * 100000
  let k := (s.ns - tol) / 10000000
  when (decide (2 ≤ s.role ∧ s.role ≤ 4) && (s.role ≠ 2 || s.twn.lastHb.isSome) && decide (s.twn.judged < k) && decide (s.twn.heard < k)) (seq [
    setTwn fun t => { t with judged := k, missed := t.missed + 1 }, count (TWN.CNT_HI 0),
    ask fun s => when (if s.role = 2 then s.twn.missed = 3 else decide (3 ≤ s.twn.missed)) (hbLoss false)])))

/-! ### Heartbeats (R514-R516) -/

/-- Whether the next HB carries ALIVE: an ACTIVE unit's needs a kick, or the grace after a shared activation. -/
def State.inGrace (s : State) : Bool := match s.twn.grace with
  | some t => decide (s.acc.ltb < t)
  | none => false
def State.alive (s : State) : Bool := s.role ≠ 2 || s.twn.kicked || s.inGrace

/-- HB_SEND: comparator 78's instant. A third HB in a row without a kick fences an ACTIVE unit. -/
def execHbSend := run (inDomain 20 (ask fun s => when (s.role ≠ 0 && (s.comp 78).armed && s.reached (s.comp 78).at_) (seq [
  linkClear, arm 78 (s.nextMultiple 10000000), sendHb s.alive false,
  when (s.role = 5) (linkSend 8 (leBytes (s.regN TWN.ROLE_EPOCH) 4)),
  setTwn fun t => { t with kicked := false, unkicked := if s.alive then 0 else t.unkicked + 1 },
  ask fun t => when (s.role = 2 && decide (3 ≤ t.twn.unkicked)) fence])))

/-- HB_KICK. -/
def hbKick (v : Nat) : Effect := when (v = 0x7A11) (setTwn fun t => { t with kicked := true, grace := none })
def execHbKick (v : Word) := run (inDomain 20 (hbKick v.toNat))

/-- PEER_ROLE by the role an HB gives. -/
def peerCode (r : Nat) : Nat := if r = 2 then 1 else if r = 3 ∨ r = 4 then 2 else 3

/-- TWN's write of RATE (R516). -/
def twinRate (r : Int) : Effect := ask fun s =>
  let u := unsigned 40 (s.clampRate r)
  seq [setReg ACC.RATE_LO (u % 2 ^ 32), rateWrite (u / 2 ^ 32)]

/-- One HB as a measurement, with R395's arithmetic. -/
def twinSteer (theta ref : Int) : Effect := ask fun s => when (s.fld ACC.ACC_CTL_SRC = 3 && !s.held) (
  let far := decide (s.fld ACC.SERVO_THR_LOCK_THRESH * 65536 < theta.natAbs)
  seq [
    match s.twn.measN with
    | 0 => when far (servoStep theta)
    | n + 1 => withG theta (ref - s.twn.lastRef) fun g =>
        let f3 := s.twn.freq - g / 2 ^ s.fld ACC.SERVO_CFG_KI_SHIFT
        if n = 0 then seq [setTwn fun t => { t with freq := t.freq - g }, twinRate (s.twn.freq - g), when far (servoStep theta)]
        else seq [setTwn fun t => { t with freq := f3 }, twinRate (f3 - g / 2 ^ s.fld ACC.SERVO_CFG_KP_SHIFT)],
    setTwn fun t => { t with measN := t.measN + 1, lastRef := ref }])

/-- HB_RX: an HB whose first bit reached the balls at ATB instant `stamp`, in 2^-16 ns. -/
def hbRx (l : List Nat) (stamp : Nat) : Effect := rxFrame l 1 (fun p => byteAt p 10 = 2 || byteAt p 10 = 5) fun _ p => ask fun s =>
  let role := byteAt p 10
  let good := role ≠ 2 || bit (byteAt p 11) 0
  let k := (s.ns + 5000000) / 10000000
  let off := ((s.ns : Int) - (k * 10000000 : Nat)).natAbs
  let hb : Int := fieldLe p 0 8 * 65536 + fieldLe p 8 2
  let theta := ((stamp : Int) - signed 32 (s.regN (ACC.INGRESS 5))) - (hb + signed 32 (s.regN TWN.CABLE))
  when (s.role ≠ 0) (seq [
    setTwn fun t => { t with lastHb := some s.acc.ltb, peer := role },
    setFld TWN.TWN_STATE_PEER_ROLE (peerCode role),
    when (good && decide (off ≤ s.fld TWN.TWN_CFG_HB_TOL * 100000)) (setTwn fun t => { t with heard := max t.heard k, missed := 0 }),
    when ((s.role = 3 || s.role = 4) && role = 2) (twinSteer theta (fieldLe p 0 8)),
    joinDecide,
    when (bit (byteAt p 11) 1) (hbLoss true)])
def execHbRx (frame : List Nat) (stamp : Nat) := run (hbRx frame stamp)

/-! ### Capturing a checkpoint (R519, R520) -/

/-- A record as a CK_DATA frame carries it: one record to a frame (the model's packing). -/
def ckRecord (kind : Nat) (l : List Nat) : List Nat := [kind, 0] ++ leBytes l.length 2 ++ l

/-- CONF (the model's layout of Table 16.3's contents). -/
def State.confRecord (s : State) : List Nat :=
  let k := s.activeSlot
  let of := fun (o n : Nat) => match k with
    | some k => s.prof k o n
    | none => 0
  leBytes (s.fld FWD.HASH_SEED_SEED) 4 ++ leBytes (s.fld FWD.SIL_SEED_SEED) 4 ++ leBytes (s.regN MAC.ADDR) 4 ++ [k.getD 0xFF, 0] ++
    leBytes (of 6 2) 2 ++ leBytes (of 0xC 4) 4 ++ [(s.fe.armed.map (fun x => x.1)).getD 0xFF, 0, 0, 0] ++
    leBytes ((s.fe.armed.map (fun x => x.2.toNat)).getD 0) 8 ++ [s.fld ACC.ACC_CTL_SRC] ++
    (List.range 3).map (fun p => s.fld (FE.ANT_SEL p)) ++
    [((List.range 8).map (fun i => b2n (s.pinOut (16 + i) = some true) * 2 ^ i)).sum, ((List.range 8).map (fun i => b2n (s.pinOut (16 + i)).isSome * 2 ^ i)).sum, 0, 0]

/-- The SLOT record of slot `k`. -/
def State.slotRec (s : State) (k : Nat) : List Nat :=
  let x := s.kslot k
  leBytes k 2 ++ [0, 0] ++ leBytes x.epoch 4 ++ kcvOf x.material ++ leBytes (s.live k) 4

/-- Takes every CKPT descriptor of the ring and goes on with their USER records; `fuel` is their number. -/
def takeUser (ring : Nat) (k : List (List Nat) → Effect) : Nat → List (List Nat) → Effect
  | 0, l => k l
  | n + 1, l => pop ring fun od => match od with
    | none => k l
    | some d => ask fun s =>
      let ok := !d.poison && d.type = 0xA && decide (1 ≤ d.len ∧ d.len ≤ 2016) && d.w2.toNat % 16 = 0 && decide (d.w2.toNat + d.len ≤ 2 ^ 24)
      seq [freeDesc d, when (!ok) (count (TWN.CNT_LO 1)),
        takeUser ring k n (if ok then l ++ [ckRecord 5 (leBytes d.w2.toNat 4 ++ s.chainBytes d.buf d.len)] else l)]

/-- Checkpoint `n` is captured and sent. -/
def capture : Effect := ask fun s =>
  let n := s.twn.ck + 1
  let nodes := s.twn.dirty
  let maps := s.twn.dirtyMap
  withBuf 1 (count (TWN.CNT_LO 1)) fun b => seq [freeChain b,
    forEach nodes writeBack, ask fun s =>
      takeUser (s.fld TWN.CKPT_CFG_RING) (fun users => ask fun s =>
        let slots := if s.on 16 then allBelow 4096 (fun k => (s.kslot k).level ≠ 0) else []
        let recs := nodes.map (fun i => ckRecord 1 (leBytes i 4 ++ s.bytes (s.nodeAddr i) 128)) ++
          maps.map (fun i => ckRecord 2 (leBytes i 4 ++ leBytes (s.nmap i) 2 ++ [0, 0])) ++ slots.map (fun k => ckRecord 3 (s.slotRec k)) ++
          [ckRecord 4 s.confRecord] ++ users
        let total := (recs.map (fun r => r.length + 20)).sum + 32
        let ns := if s.twn.baseline then total * 800 / max 1 (s.fld TWN.CKPT_CFG_BASE_RATE) else total * 8
        seq [
          forEach recs (linkSend 2),
          linkSend 3 (leBytes n 4 ++ leBytes recs.length 4 ++ leBytes (crc32 recs.flatten) 4),
          setTwn fun t => { t with ck := n, ckBusy := s.acc.ltb + ns, ckLate := false, baseline := false, carried := nodes, carriedMap := maps },
          count (TWN.CNT_HI 1)]) (s.ring (s.fld TWN.CKPT_CFG_RING)).q.length []]

/-- CHECKPOINT_CAPTURE: comparator 77's instant, or a capture that waited for the checkpoint before it. -/
def execCheckpointCapture := run (inDomain 20 (ask fun s =>
  let due := (s.comp 77).armed && s.reached (s.comp 77).at_
  let busy := decide (s.acc.ltb < s.twn.ckBusy)
  when (s.role = 2 && (due || s.twn.ckLate)) (seq [
    linkClear, when due (arm 77 (s.nextMultiple s.ckPeriod)),
    if s.flag TWN.TWN_EXP_CK_HOLD then nothing
    else if busy then when due (seq [count (TWN.CNT_LO 2), setTwn fun t => { t with ckLate := true }])
    else capture])))

/-- CK_ACK_RX. -/
def execCkAckRx (frame : List Nat) := run (rxFrame frame 4 (fun _ => false) fun _ p => ask fun s =>
  let n := fieldLe p 0 4
  when ((s.role = 2 || s.role = 6) && n = s.twn.ck % 2 ^ 32) (seq [
    setFld TWN.CKPT_STATUS_APPLIED (n % 2 ^ 24),
    setTwn fun t => { t with dirty := t.dirty.filter (fun i => !t.carried.contains i), carried := [], carriedMap := [],
                             dirtyMap := t.dirtyMap.filter (fun i => !t.carriedMap.contains i) }]))

/-- Every record is dirty, and the next checkpoint is a baseline (R534, R535). -/
def allDirty : Effect := setTwn fun t => { t with
  dirty := List.range 131072, dirtyMap := List.range 131072, carried := [], carriedMap := [], baseline := true }

/-- JOIN_RX. -/
def execJoinRx (frame : List Nat) := run (rxFrame frame 7 (fun _ => false) fun _ _ => ask fun s => when (s.role = 2) allDirty)

/-! ### Receiving a checkpoint (R521) -/

/-- The standby's DRAM area. -/
def State.ckBase (s : State) : Nat := s.fld TWN.CKPT_BASE_LO_ADDR + 2 ^ 32 * s.fld TWN.CKPT_BASE_HI_ADDR

/-- The records of a list of bytes; `fuel` bounds their number. -/
def ckRecords : Nat → List Nat → List (Nat × List Nat)
  | 0, _ => []
  | fuel + 1, l => if l.length < 4 then []
    else
      let n := fieldLe l 2 2
      (byteAt l 0, slice l 4 (4 + n)) :: ckRecords fuel (l.drop (4 + n))

/-- CK_DATA_RX: the records go to the journal. -/
def execCkDataRx (frame : List Nat) := run (rxFrame frame 2 (fun _ => true) fun _ p => ask fun s =>
  when (s.role = 3 || s.role = 4) (seq [
    when (decide (s.twn.jlen + p.length ≤ 2 ^ 24)) (writeMem (s.ckBase + 0x2000000 + s.twn.jlen) p nothing nothing),
    setTwn fun t => { t with jlen := t.jlen + p.length, jcount := t.jcount + (ckRecords p.length p).length, jcrc := crc32From t.jcrc p }]))

/-- One record goes to the mirror. -/
def applyRecord (r : Nat × List Nat) : Effect := ask fun s =>
  let b := s.ckBase
  let f := fieldLe r.2
  match r.1 with
  | 1 => putBytes (b + f 0 4 % 131072 * 0x80) ((slice r.2 4 132))
  | 2 => putBytes (b + 0x1000000 + f 0 4 % 131072 * 2) (slice r.2 4 6)
  | 3 => putBytes (b + 0x1040000 + f 0 2 % 4096 * 16) (slice r.2 4 20)
  | 4 => putBytes (b + 0x1050000) r.2
  | 5 => putBytes (b + 0x3000000 + f 0 4 % 2 ^ 24) (r.2.drop 4)
  | _ => nothing

/-- Whether slot `k` here has the EPOCH and KCV of the slot table's entry (R526). -/
def State.slotMatches (s : State) (k : Nat) : Bool :=
  let x := s.kslot k
  let a := s.ckBase + 0x1040000 + k * 16
  x.level ≠ 0 && x.epoch = s.mem' a 4 && kcvOf x.material = s.bytes (a + 4) 8

/-- The slots that the table has an entry for: one that is not all 0. -/
def State.slotsSent (s : State) : List Nat := allBelow 4096 (fun k => !(s.bytes (s.ckBase + 0x1040000 + k * 16) 16).all (· = 0))

/-- Mismatched slots are counted and reported. -/
def reportMismatch (ks : List Nat) : Effect := forEach ks (fun _ => seq [count (TWN.CNT_LO 3),
  ask fun s => fire 95 (b2n (s.flag TWN.CKPT_STATUS_SYNC) + 4 + s.fld (TWN.CNT_LO 3) * 2 ^ 16)])

/-- CK_END_RX: with the right count and CRC the checkpoint is applied to the mirror; otherwise it is discarded whole. -/
def execCkEndRx (frame : List Nat) := run (rxFrame frame 3 (fun _ => true) fun epoch p => ask fun s =>
  when (s.role = 3 || s.role = 4) (
    let t := s.twn
    let clear := setTwn fun t => { t with jlen := 0, jcount := 0, jcrc := 0 }
    if t.jcount = fieldLe p 4 4 && t.jcrc = fieldLe p 8 4 && decide (t.jlen ≤ 2 ^ 24) && s.dramReady then
      let l := s.bytes (s.ckBase + 0x2000000) t.jlen
      seq [clear,
        setTwn fun x => { x with applying := some (fieldLe p 0 4), ckEpoch := epoch, resleep := s.flag DDR.DDR_STATUS_SELFREF },
        setFld DDR.DDR_STATUS_SELFREF 0,
        putBytes (s.ckBase + 0x1040000) (List.replicate 65536 0),
        forEach (ckRecords l.length l) applyRecord,
        ask fun s => when (s.role = 3 && s.on 16) (reportMismatch (s.slotsSent.filter (fun k => !s.slotMatches k)))]
    else seq [clear, fire 95 (b2n (s.flag TWN.CKPT_STATUS_SYNC) + 2 + s.fld (TWN.CNT_LO 3) * 2 ^ 16)]))

/-- In STANDBY groups ANT and H are driven, retained, with CONF's values (R530). -/
def driveStandby : Effect := ask fun s =>
  let c := s.bytes (s.ckBase + 0x1050000) 44
  seq [fun s => [.gpio { s.gpio with heldAnt := byteAt c 33 % 4 + byteAt c 34 % 4 * 4 + byteAt c 35 % 4 * 16, heldH := byteAt c 36, drivenH := byteAt c 37 }],
    setFld PLT.PAD_RET_HOLD_ANT 1, setFld PLT.PAD_RET_HOLD_H 1]

/-- CHECKPOINT_APPLY_END. -/
def execCheckpointApplyEnd := run (inDomain 20 (ask fun s => match s.twn.applying with
  | none => nothing
  | some n => seq [
      linkClear, setTwn fun t => { t with applying := none, resleep := false },
      setFld TWN.CKPT_STATUS_SYNC 1, setFld TWN.CKPT_STATUS_APPLIED (n % 2 ^ 24), count (TWN.CNT_HI 2), linkSend 4 (leBytes n 4),
      when s.twn.resleep (setFld DDR.DDR_STATUS_SELFREF 1),
      when (s.role = 3) (seq [roleTo 4 false, fire 95 (1 + s.fld (TWN.CNT_LO 3) * 2 ^ 16)]),
      when (s.role = 3 || s.role = 4) driveStandby]))

/-- TAKEOVER_RX: rxFrame has fenced a unit with a lower ROLE_EPOCH. -/
def execTakeoverRx (frame : List Nat) := run (rxFrame frame 8 (fun _ => true) fun _ _ => nothing)

/-! ### Restore (R525-R527) -/

/-- TWIN_RESTORE. -/
def twinRestore : Effect := ask fun s => when (s.role = 5 && !s.twn.restoring) (setTwn fun t => { t with restoring := true })
def execTwinRestore := run (inDomain 20 twinRestore)

/-- Step 3: frame counters. -/
def restoreSlot (k : Nat) : Effect := ask fun s =>
  if s.slotMatches k then
    let v := min (s.mem' (s.ckBase + 0x1040000 + k * 16 + 12) 4 + s.regN TWN.FC_JUMP) 0xFFFFFFFF
    seq [setLive k (max (s.live k) v), startCeiling k]
  else reportMismatch [k]

/-- A profile slot becomes the active one. -/
def activateSlot (k : Nat) : Effect := seq [setFld FE.PROF_STATE_ACTIVE k, setFld FE.PROF_STATE_NONE 0, tuneAll (some k),
  ask fun s => writeRegState k s.regLocks]

/-- Step 4: the region profile. -/
def restoreProfile : Effect := ask fun s =>
  let c := s.bytes (s.ckBase + 0x1050000) 44
  let k := byteAt c 12
  let next := byteAt c 20
  let at_ := BitVec.ofNat 64 (fieldLe c 24 8)
  if k < 8 && s.slotCheck k = 0 && s.prof k 6 2 = fieldLe c 14 2 && s.prof k 0xC 4 = fieldLe c 16 4 then
    if 8 ≤ next then activateSlot k
    else if 10000000 < tdiff at_ s.now then seq [activateSlot k, setFld FE.SWITCH_CTL_NEXT next, setFld FE.SWITCH_CTL_ARMED 1,
      setPair FE.SWITCH_AT_LO FE.SWITCH_AT_HI at_.toNat, arm 73 at_, fun s => [.fe { s.fe with armed := some (next, at_) }]]
    else activateSlot next
  else seq [setFld FE.PROF_STATE_NONE 1, fire 26 0, tuneAll none,
    fire 95 (b2n (s.flag TWN.CKPT_STATUS_SYNC) + 4 + s.fld (TWN.CNT_LO 3) * 2 ^ 16)]

/-- Steps 5 and 6 for one record: its managed entry, and its place in the calendar or in SEARCH. -/
def restoreNode (i : Nat) : Effect := ask fun s =>
  let n := nodeOf (s.bytes (s.nodeAddr i) 128)
  when (n.state ≠ 0) (seq [
    insertEnt { key := n.eui, nidx := i, managed := true, kind := 0, valid := true, hit := true, hold := true
                port := rfCode n.port n.chan, lqi := n.lqi, stamp := s.tick } nothing nothing,
    if n.state = 4 then setMac fun m => { m with search := m.search ++ [i] }
    else when (n.state ≠ 1) (seq [fileWake i n.wake, when (n.flagBit 2) (fileAlt i n.altWake)])])

/-- RESTORE_COMPLETE: the steps of R525, and ROLE ACTIVE. -/
def execRestoreComplete := run (inDomain 20 (ask fun s => when (s.twn.restoring && s.role = 5 && s.twn.applying.isNone) (
  let b := s.ckBase
  seq [linkClear,
    setMac fun m => { m with cache := [], calendar := [], watches := [], search := [], synced := [], meas := [] },
    forEach (List.range 131072) (fun i => ask fun s => seq [putBytes (s.nodeAddr i) (s.bytes (b + i * 0x80) 128),
      putMem (nmapAddr i) 2 (s.mem' (b + 0x1000000 + 2 * i) 2)]),
    ask fun s => seq [hashSeedWrite (s.mem' (b + 0x1050000) 4), setFld FWD.SIL_SEED_SEED (s.mem' (b + 0x1050004) 4)],
    ask fun s => forEach s.slotsSent restoreSlot,
    restoreProfile,
    forEach (List.range 131072) restoreNode,
    setTwn fun t => { t with restoring := false },
    setFld TWN.TWN_STATE_RESTORED 1, becomeActive, ask fun s => linkSend 8 (leBytes (s.regN TWN.ROLE_EPOCH) 4)])))

/-! ### Handover (R531) -/

/-- HANDOVER. -/
def handover : Effect := ask fun s => when (s.role = 2) (
  let t := BitVec.ofNat 64 (s.pair TWN.HO_AT_LO TWN.HO_AT_HI)
  if s.twn.peer ≠ 4 || decide (tdiff t s.now < 2 * s.ckPeriod) then setFld TWN.CKPT_STATUS_HO_ERR 1
  else seq [arm 76 t, setTwn fun x => { x with handover := true }])
def execHandover := run (inDomain 20 handover)

/-- HANDOVER_INSTANT. -/
def execHandoverInstant := run (inDomain 20 (ask fun s =>
  when (s.twn.handover && s.role = 2 && (s.comp 76).armed && s.reached (s.comp 76).at_) (seq [linkClear, fence, capture, sendHb false true])))

/-! ### Shared images (R532-R534) -/

/-- IMG_PUSH. -/
def imgPush : Effect := ask fun s => match (if s.role = 2 && s.twn.peer = 4 then s.stagedBank else none) with
  | none => setFld TWN.CKPT_STATUS_IMG_ERR 1
  | some bank =>
    let a := bankAddr bank
    let n := 256 + s.mem' (a + 0x18) 4
    forEach (List.range ((n + 1023) / 1024)) (fun i =>
      linkSend 5 (leBytes (1024 * i) 4 ++ s.bytes (a + 1024 * i) (min 1024 (n - 1024 * i))))
def execImgPush := run (inDomain 20 (seq [linkClear, imgPush]))

/-- IMG_DATA_RX: bytes go to the staging area, and with the last of them the standby's own LOAD begins. -/
def execImgDataRx (frame : List Nat) := run (rxFrame frame 5 (fun _ => true) fun _ p => ask fun s =>
  let a := s.ckBase + 0x1060000
  let o := fieldLe p 0 4
  when (s.role = 4 && decide (o + (p.length - 4) ≤ 0x200000)) (writeMem (a + o) (p.drop 4) nothing (ask fun s =>
    when (decide (256 ≤ o + (p.length - 4)) && o + (p.length - 4) = 256 + s.mem' (a + 0x18) 4) (imgLoad a true))))

/-- IMG_ACT_RX: on the standby the instant of a shared ARM; on the active unit an answer. -/
def execImgActRx (frame : List Nat) := run (rxFrame frame 6 (fun _ => false) fun _ p => ask fun s =>
  let ver := fieldLe p 0 4
  let t := fieldLe p 4 8
  let r := byteAt p 12
  seq [
    setReg TWN.PEER_IMG ver, setFld (TWN.CNT_HI 3) r,
    when (s.role = 4) (match s.armCheck t with
      | 0 => seq [armActivation t, setNv fun n => { n with twinArm := true }, linkSend 6 (leBytes ver 4 ++ leBytes t 8 ++ [0])]
      | c => linkSend 6 (leBytes ver 4 ++ leBytes t 8 ++ [c])),
    when (s.role = 2 && r ≠ 0 && t ≠ 0 && s.flag PLT.IMG_CTL_ARMED && s.nv.twinArm) (seq [disarmActivation, imgResult 10])])

/-- PD_TWN reads ON after a shared activation: the shadow's registers and role come back (R534). -/
def restoreShadow : Effect := ask fun s => match s.twn.shadow with
  | none => nothing
  | some l => seq [setTwn fun t => { t with shadow := none }, when (s.flag PLT.BOOT_INFO_ACT) (seq [
      fun _ => l.map (fun e => Change.reg e.1 (BitVec.ofNat 32 e.2)),
      setTwn fun t => { t with grace := some (s.acc.ltb + 2000000000), judged := s.hbNow, missed := 0 },
      arm 78 (s.nextMultiple 10000000),
      ask fun s => when (s.role = 2) (seq [allDirty, arm 77 (s.nextMultiple s.ckPeriod)])])]

/-- A write of TWN_CTL. -/
def twnCtlWrite (v : Nat) : Effect := seq [
  if bit v 0 then twinEnable else twinDisable, linkClear,
  when (bit v 2) twinRestore, when (bit v 3) handover, when (bit v 4) imgPush]

/-- Values that TWN_CFG and CKPT_CFG store (Tables 16.10 and 16.11). -/
def twnStores (a v : Nat) : Nat :=
  if a = TWN.TWN_CFG then putBits (putBits v 23 16 (max 1 (bits v 23 16))) 15 8 (clampN 1 50 (bits v 15 8))
  else if a = TWN.CKPT_CFG then putBits (putBits v 31 24 (clampN 5 100 (bits v 31 24))) 15 0 (clampN 100 60000 (bits v 15 0))
  else v

/-! ### The link (R585, R587) -/

/-- LINK_SYNC_ACQUIRE: `commas` commas with no invalid code group between them. -/
def execLinkSyncAcquire (commas : Nat) := run (inDomain 20 (ask fun s =>
  when (decide (3 ≤ commas) && !s.flag TWN.LINK_STATUS_SYNC) (setFld TWN.LINK_STATUS_SYNC 1)))

/-- LINK_SYNC_LOSS: `bad` invalid code groups within 16, or `ns` without a comma. -/
def execLinkSyncLoss (bad ns : Nat) := run (inDomain 20 (ask fun s =>
  when ((decide (4 ≤ bad) || decide (2000 ≤ ns)) && s.flag TWN.LINK_STATUS_SYNC)
    (seq [setFld TWN.LINK_STATUS_SYNC 0, count TWN.LINK_CNT_SYNC_LOST])))

/-- TWIN_DATA_RX. -/
def execTwinDataRx (frame : List Nat) := run (rxFrame frame 9 (fun _ => false) fun _ p => ask fun s => when (s.on 2) (
  let w0 := putBit (fieldLe p 0 4) 4 false
  let n := bits w0 31 16
  let ring := s.fld TWN.LINK_RINGS_RX
  let put := fun b => deliver ring (mkDesc w0 (putBits (fieldLe p 4 4) 13 0 b) (fieldLe p 8 4) (fieldLe p 12 4))
  if n = 0 then put (bits (fieldLe p 4 4) 13 0)
  else withBytes ((p.drop 16).take n) nothing put))

/-- TWIN_DATA_TX: the head of LINK_RINGS.TX goes out as a DATA frame. -/
def execTwinDataTx := run (inDomain 20 (ask fun s => when (s.on 2 && s.role ≠ 0 && s.flag TWN.LINK_CTL_EN) (seq [linkClear,
  pop (s.fld TWN.LINK_RINGS_TX) fun od => match od with
    | none => nothing
    | some d => ask fun s => seq [
        if d.type = 0xA || d.type = 0xF || decide (2016 < d.len) then count TWN.LINK_CNT_DATA_DROP
        else linkSend 9 (d.words.flatMap (fun w => leBytes w.toNat 4) ++ (if d.len = 0 then [] else s.chainBytes d.buf d.len)),
        freeDesc d]])))

end Sys2Proof.Machine
end

