-- ==== Sys2Proof/Machine/Ist.lean ====
section
/-!
DEFINITION. In-service test and repair (chapter 17): slices and their admission, outcomes and repairs, requests and FORCE,
pin results, BURN, full BIST.
-/
namespace Sys2Proof.Machine

open Sys2Proof

/-! ### Idle units and admission (R538, R539, R543, R544) -/

def State.classOn (s : State) (c : Nat) : Bool := bit (s.fld IST.IST_CFG_CLASS_EN) c

/-- Whether a unit is idle at a boundary. What the memories, the fabric ports and the balls have carried lately is not in
the state: `busy` lists the units of those classes, as class * 256 + unit, that are not idle. -/
def State.unitIdle (s : State) (busy : List Nat) (c u : Nat) : Bool := !busy.contains (c * 256 + u) && (match c with
  | 0 => (s.lane u).run = .free
  | 1 => !s.bb.staged.any (fun x => x.voice = u)
  | 2 => (s.core u).run = .idle && (s.readySlot u).isNone
  | 3 => s.laneIdle u
  | 4 => !s.fwd.learns.any (fun x => x.bank = u) && (match s.fwd.flush with
    | some (_, banks) => !banks.contains u
    | none => true)
  | 8 => !s.hif.selected
  | _ => true)

/-- Whether a unit out of service holds no work (R547): a memory, fabric port or interface has none to finish. -/
def State.unitFree (s : State) (c u : Nat) : Bool := match c with
  | 0 => ((s.lane u).run = .free || (s.lane u).run = .search) && (s.lane u).frame.isNone
  | 1 => !s.bb.staged.any (fun x => x.voice = u)
  | 2 => (s.core u).run = .idle
  | 3 => s.laneIdle u
  | _ => true

/-- Slice and ballast current now, in mA. -/
def State.istMa (s : State) : Nat := (s.ist.running.map (fun x => istCurrent x.cls)).sum +
  ((s.ist.ballast.filter (fun b => decide (s.acc.ltb < b.2))).map Prod.fst).sum

/-- The current that starts at boundary instant `b`, and the current due to end at `e`. -/
def State.maStarting (s : State) (b : Nat) : Nat :=
  ((s.ist.running.filter (fun x => x.ends = b + istLength x.cls)).map (fun x => istCurrent x.cls)).sum
def State.maEnding (s : State) (e : Nat) : Nat := ((s.ist.running.filter (fun x => x.ends = e)).map (fun x => istCurrent x.cls)).sum +
  ((s.ist.ballast.filter (fun b => b.2 = e)).map Prod.fst).sum

/-- Whether a slice of class `c` may start at boundary instant `b`. -/
def State.admits (s : State) (c b : Nat) : Bool :=
  let half := s.fld IST.IST_EXP_STEP_LIMIT / 2
  decide (s.maStarting b + istCurrent c ≤ half ∧ s.maEnding (b + istLength c) + istCurrent c ≤ half ∧ s.istMa + istCurrent c ≤ 400)

/-- Whether domain `d`'s turn in Drydown has begun (R556). -/
def State.turnBegun (s : State) (d : Nat) : Bool := s.fld PLT.DD_CTL_STATE = 1 && (s.drydownTurn.map Prod.snd) = some d

/-- A slice starts at boundary instant `b` where it may. A unit held by a full BIST takes none. -/
def sliceTry (busy : List Nat) (b : Nat) (x : Nat × Nat × Bool) : Effect := ask fun s =>
  let (c, u, forced) := x
  let d := istDomain c u
  when (s.classOn c && s.on d && !s.turnBegun d && !s.ist.running.any (fun y => y.cls = c && y.unit = u) &&
      !(s.ist.bist.any (fun m => bit m d)) && (if forced then s.unitFree c u else s.unitIdle busy c u) && s.admits c b) (seq [
    when (c = 0) (setLane u fun l => { l with run := .free, stream := none }),
    setIst fun t => { t with
      running := t.running ++ [⟨c, u, b + istLength c, forced⟩]
      queue := t.queue.filter (fun q => q.1 ≠ c || q.2.1 ≠ u), offered := insertKey t.offered (c * 256 + u) b }])

/-- The units due an offer in normal service (R543), in class and unit order. -/
def State.offersDue (s : State) (b : Nat) : List (Nat × Nat × Bool) :=
  (List.range 9).flatMap (fun c => ((List.range (istUnits c)).filter (fun u => match find s.ist.offered (c * 256 + u) with
    | some t => decide (t + s.fld IST.IST_CFG_SLICE_INTERVAL * 1000000 ≤ b)
    | none => true)).map (fun u => (c, u, false)))

/-- SLICE_START: the newest 10 µs boundary of LTB. What has been asked for goes first, then the offers of normal service. -/
def execSliceStart (busy : List Nat) := run (ask fun s =>
  let b := s.acc.ltb / 10000 * 10000
  when (s.flag IST.IST_CTL_EN && s.lifeCycle ≠ 6 && decide (s.ist.boundary < b)) (seq [
    setIst fun t => { t with boundary := b, ballast := t.ballast.filter (fun x => decide (b < x.2)) },
    forEach s.ist.queue (sliceTry busy b), forEach (s.offersDue b) (sliceTry busy b)]))

/-! ### Outcomes (R541, R548, R549) -/

/-- The spare rows of a bank or MEM segment in use, and the next free one. -/
def State.repairs (s : State) : List Nat := s.nv.repair ++ s.ist.soft
def State.freeSpare (s : State) (c u : Nat) : Option Nat := firstBelow (if c = 4 then 4 else 2) (fun k =>
  !s.repairs.any (fun e => bit e 29 = decide (c = 5) && bits e 28 21 = u && bits e 15 12 = k))

/-- A unit of the start-up sweep has ended PASS or FAIL (R545). -/
def sweepEnd (c u : Nat) : Effect := ask fun s => when (s.ist.sweep.contains (c, u)) (seq [
  setIst fun t => { t with sweep := t.sweep.filter (· ≠ (c, u)) },
  ask fun s => when s.ist.sweep.isEmpty (setFld IST.IST_CTL_SWEEP_DONE 1)])

/-- A soft repair of row `row`, or none free. -/
def softRepair (c u row : Nat) : Effect := ask fun s => match s.freeSpare c u with
  | some k => seq [
      setIst fun t => { t with soft := t.soft ++ [2 ^ 31 + b2n (c = 5) * 2 ^ 29 + u * 2 ^ 21 + k * 2 ^ 12 + row % 4096] },
      setUnit c u fun r => { r with repaired := true }, count (IST.CNT_HI 3)]
  | none => count (IST.CNT_LO 3)

/-- What IST does about a failed unit, by class. -/
def failAction (c u row : Nat) : Effect := match c with
  | 0 => inDomain 12 (seq [setLane u fun l => { l with run := .off, stream := none, paused := false, broken := true }, portLanesOff (lanePort u)])
  | 1 => setIst fun t => { t with voices := t.voices.filter (· ≠ u) ++ [u] }
  | 3 => inDomain 16 (ask fun s => seq [setFld CRY.LANE_FAULT_MAP (putBit (s.fld CRY.LANE_FAULT_MAP) u true), fire 72 u])
  | 4 | 5 => softRepair c u row
  | _ => nothing

/-- A ball's result, coded as EV89's argument. A change from OK is reported (R553). -/
def pinResult (x : Nat) : Effect := ask fun s =>
  let ball := bits x 6 0
  let new := (bits x 10 8, bits x 17 11)
  let old := getD s.ist.pins ball (7, 0)
  seq [setIst fun t => { t with pins := putD t.pins ball new (7, 0) },
    when (old.1 = 0 && new.1 ≠ 0) (seq [fire 89 (x % 2 ^ 18), logEntry 0x7F (s.fld (EVT.ROUTE_SEV 89)) 5 (x % 2 ^ 18) 0])]

/-- The balls that class 7 or 8 tests in service. -/
def ballOf (c x : Nat) : Bool := if c = 7 then bits x 6 0 < 58 else c = 8 && decide (64 ≤ bits x 6 0 ∧ bits x 6 0 < 70)

/-- A unit's test ends with DONE set: PASS or FAIL by its signature. -/
def testEnd (c u : Nat) (forced bist : Bool) (sig : Word) (row : Nat) : Effect :=
  let pass := decide (sig = Config.istExpected c)
  seq [
    setUnit c u fun r => { r with outcome := if pass then 1 else 2, done := true, repaired := false, forced := forced, incRun := 0, sig := sig
                                  passes := if pass then (r.passes + 1) % 65536 else r.passes },
    if pass then count (IST.CNT_HI 0)
    else seq [count (IST.CNT_LO 0), failAction c u row, ask fun s =>
      fire 88 (c + u * 2 ^ 4 + b2n (s.istUnit c u).repaired * 2 ^ 12 + b2n forced * 2 ^ 13 + b2n bist * 2 ^ 14)],
    sweepEnd c u]

/-- SLICE_END of a unit whose slice has reached its end: whether its pattern counter reached the count, its signature, the
failing row of a memory, and the results of balls. -/
def execSliceEnd (cls : Fin 9) (unit : Fin 256) (finished : Bool) (sig : Word) (row : Fin 4096) (balls : List Nat) := run (ask fun s =>
  match s.ist.running.find? (fun x => x.cls = cls.val && x.unit = unit.val) with
  | none => nothing
  | some x => when (decide (x.ends ≤ s.acc.ltb)) (
      if !finished then seq [sliceInc x, setUnit x.cls x.unit fun r => { r with sig := sig }]
      else seq [
        setIst fun t => { t with running := t.running.filter (fun y => y.cls ≠ x.cls || y.unit ≠ x.unit) },
        forEach (balls.filter (ballOf x.cls)) pinResult,
        testEnd x.cls x.unit x.forced false sig row]))

/-- SLICE_YIELD: work reaches a unit in a slice. -/
def execSliceYield (cls : Fin 9) (unit : Fin 256) := run (yieldUnit cls unit)

/-! ### Requests and FORCE (R546, R547) -/

/-- Why a unit cannot be asked for: a RESULT of IST_REQ, or 0. -/
def State.istRefusal (s : State) (c u : Nat) : Nat :=
  if 9 ≤ c || istUnits c ≤ u then 1 else if !s.on (istDomain c u) then 2 else 0

/-- IST_REQUEST. -/
def istRequest (c u : Nat) : Effect := ask fun s => seq [
  setFld IST.IST_REQ_CLASS c, setFld IST.IST_REQ_UNIT u, setFld IST.IST_REQ_RESULT (s.istRefusal c u),
  when (s.istRefusal c u = 0 && !s.ist.running.any (fun x => x.cls = c && x.unit = u) && !s.ist.queue.any (fun q => q.1 = c && q.2.1 = u))
    (setIst fun t => { t with queue := t.queue ++ [(c, u, false)] })]
def execIstRequest (cls : BitVec 4) (unit : BitVec 8) := run (istRequest cls.toNat unit.toNat)

/-- IST_FORCE, in an unlocked window. -/
def istForce (c u : Nat) : Effect := ask fun s =>
  if !s.flag IST.EXPERT_UNLOCK_UNLOCKED then setFld IST.EXPERT_UNLOCK_REJECTED 1
  else seq [setFld IST.IST_FORCE_CLASS c, setFld IST.IST_FORCE_UNIT u,
    if s.istRefusal c u ≠ 0 then setFld IST.IST_REQ_RESULT (s.istRefusal c u)
    else seq [count (IST.CNT_HI 2), setIst fun t =>
      if t.running.any (fun x => x.cls = c && x.unit = u) then
        { t with running := t.running.map (fun x => if x.cls = c && x.unit = u then { x with forced := true } else x) }
      else { t with queue := t.queue.filter (fun q => q.1 ≠ c || q.2.1 ≠ u) ++ [(c, u, true)] }]]
def execIstForce (cls : BitVec 4) (unit : BitVec 8) := run (istForce cls.toNat unit.toNat)

/-! ### The sweep (R545), BURN (R550) and full BIST (R555) -/

/-- The sweep's slices for the units of the domains in `ds` that have come ON. -/
def queueSweep (ds : List Nat) : Effect := ask fun s =>
  let us := (List.range 9).flatMap (fun c => if s.classOn c then
    ((List.range (istUnits c)).filter (fun u => ds.contains (istDomain c u))).map (fun u => (c, u)) else [])
  when (!us.isEmpty) (seq [setFld IST.IST_CTL_SWEEP_DONE 0, setIst fun t => { t with
    queue := t.queue ++ (us.filter (fun x => !t.queue.any (fun q => q.1 = x.1 && q.2.1 = x.2))).map (fun x => (x.1, x.2, false))
    sweep := t.sweep.filter (fun x => !us.contains x) ++ us }])

/-- REPAIR_BURN: `readback` is what the fuses hold afterwards. -/
def repairBurn (readback : List Nat) : Effect := ask fun s =>
  let want := s.ist.soft.map (fun e => putBit e 30 true)
  if s.lifeCycle ≠ 2 && s.lifeCycle ≠ 5 then setFld IST.REPAIR_CTL_RESULT 1
  else if 64 < s.nv.repair.length + want.length then setFld IST.REPAIR_CTL_RESULT 2
  else seq [setNv fun n => { n with repair := n.repair ++ readback.take want.length },
    if readback = want then seq [setIst fun t => { t with soft := [] }, setFld IST.REPAIR_CTL_RESULT 0] else setFld IST.REPAIR_CTL_RESULT 3]
def execRepairBurn (readback : List Nat) := run (repairBurn readback)

/-- Whether a block of domain `d` has EN 1 or DRAINED 0, or a core of its cluster is not HELD. -/
def State.blockBusy (s : State) (d : Nat) : Bool :=
  let b := fun (en drained : Fld) => s.flag en || !s.flag drained
  match d with
  | 2 => b MAC.MAC_CTL_EN MAC.MAC_CTL_DRAINED || b FWD.FWD_CTL_EN FWD.FWD_CTL_DRAINED || b DIS.DIS_CTL_EN DIS.DIS_CTL_DRAINED
  | 13 | 14 | 15 => s.flag (FE.PORT_CTL_EN (d - 13)) || !s.portDrained (d - 13)
  | 16 => b CRY.CRY_CTL_EN CRY.CRY_CTL_DRAINED || s.flag KEY.KEY_CTL_EN || !s.keyDrained
  | 18 => s.fld ETH.ETH_CTL_EN ≠ 0 || s.fld ETH.ETH_CTL_DRAINED ≠ 3
  | 20 => s.flag TWN.TWN_CTL_EN
  | _ => decide (4 ≤ d ∧ d < 12) && (List.range 8).any (fun i => (s.core (8 * (d - 4) + i)).run ≠ .held)

/-- FULL_BIST. -/
def fullBist : Effect := ask fun s =>
  let doms := s.fld IST.BIST_DOMS_DOMS / 4 * 4
  when (!s.flag IST.BIST_CTL_BUSY) (
    if (s.lifeCycle ≠ 1 && s.lifeCycle ≠ 2 && s.lifeCycle ≠ 5) || (allBelow 21 (bit doms)).any s.blockBusy then setFld IST.BIST_CTL_RESULT 1
    else seq [setFld IST.BIST_CTL_BUSY 1, setFld IST.IST_STATUS_BIST_BUSY 1, setIst fun t => { t with bist := some doms }])
def execFullBist := run fullBist

/-- BIST_COMPLETE: the units found failing (each class, unit * 2^4 and failing row * 2^12), and the results of balls. The
domains have been through OFF; the repairs made hold from then on. The signature of a failing unit is not said. -/
def execBistComplete (failing : List Nat) (balls : List Nat) := run (ask fun s => match s.ist.bist with
  | none => nothing
  | some m =>
    let doms := allBelow 21 (bit m)
    let units := (List.range 9).flatMap (fun c => ((List.range (istUnits c)).filter (fun u => doms.contains (istDomain c u))).map (fun u => (c, u)))
    let fails := failing.filter (fun x => units.contains (bits x 3 0, bits x 11 4))
    let bad := fun (x : Nat × Nat) => fails.find? (fun y => bits y 3 0 = x.1 && bits y 11 4 = x.2)
    seq [
      setIst fun t => { t with bist := none }, setFld IST.BIST_CTL_BUSY 0, setFld IST.IST_STATUS_BIST_BUSY 0,
      setFld IST.BIST_CTL_RESULT (if fails.isEmpty then 0 else 2),
      forEach (drydownOrder.filter doms.contains) (fun d => ask fun s => when (s.domain d ≠ 0) (powerOff d)),
      forEach (balls.filter (fun x => decide (bits x 6 0 ≤ 70))) pinResult,
      forEach units (fun x => match bad x with
        | none => seq [setUnit x.1 x.2 fun r => { r with outcome := 1, done := true, repaired := false, forced := false, incRun := 0
                                                         sig := Config.istExpected x.1, passes := (r.passes + 1) % 65536 }, sweepEnd x.1 x.2]
        | some y => withFree 32 fun g => seq [
            setUnit x.1 x.2 fun r => { r with outcome := 2, done := true, repaired := false, forced := false, incRun := 0, sig := BitVec.ofNat 32 g },
            count (IST.CNT_LO 0), failAction x.1 x.2 (y / 2 ^ 12), ask fun s =>
              fire 88 (x.1 + x.2 * 2 ^ 4 + b2n (s.istUnit x.1 x.2).repaired * 2 ^ 12 + 2 ^ 14), sweepEnd x.1 x.2]),
      wakeDomains doms])

/-- IST_DISABLE (R557). -/
def istDisable : Effect := ask fun s => seq [setFld IST.IST_CTL_EN 0,
  forEach s.ist.running (fun x => seq [sliceInc x, setIst fun t => { t with ballast := t.ballast ++ [(istCurrent x.cls, x.ends)] }])]
def execIstDisable := run istDisable

/-- IST_CTL.DRAINED. -/
def State.istDrained (s : State) : Bool := s.ist.running.isEmpty && !s.ist.ballast.any (fun b => decide (s.acc.ltb < b.2))

/-- Values that IST_CFG and IST_EXP store (Tables 17.8 and 17.11). -/
def State.istStores (s : State) (a v : Nat) : Nat :=
  if a = IST.IST_CFG then putBits (putBits v 31 24 (max 1 (bits v 31 24))) 23 16 (max 1 (bits v 23 16))
  else if a = IST.IST_EXP ∧ (bits v 8 0 < 100 ∨ 300 < bits v 8 0) then putBits v 8 0 (s.fld IST.IST_EXP_STEP_LIMIT) else v

/-- IST watches the host's data balls (R552): `nibbles` are host-driven beats, oldest first. -/
def watchBeat (runs : FMap (Nat × Nat)) (x : Nat) : FMap (Nat × Nat) := (List.range 4).map (fun i =>
  let old := getD runs i (x / 2 ^ i % 2, 0)
  let v := x / 2 ^ i % 2
  (i, (v, if old.1 = v then old.2 + 1 else 1)))
def hostBeats (nibbles : List Nat) : Effect := ask fun s => when (s.classOn 8) (
  let runs := nibbles.foldl watchBeat s.ist.hostRuns
  let n := fun (i : Nat) => (getD runs i (0, 0)).2
  seq [setIst fun t => { t with hostRuns := runs },
    forEach ((List.range 4).filter (fun i => decide (65536 ≤ n i) && (List.range 4).any (fun j => decide (n j < 65536)) &&
      (getD s.ist.pins (66 + i) (7, 0)).1 ≠ 5)) (fun i => pinResult (66 + i + 5 * 2 ^ 8))])

end Sys2Proof.Machine
end

