-- ==== Sys2Proof/Machine/Bb.lean ====
section
/-!
DEFINITION. The baseband's commands (chapter 05): streams, receive lanes from preamble to delivery, listen windows and
transmit voices.
-/
namespace Sys2Proof.Machine

open Sys2Proof

/-! ### Streams (R189-R193) -/

/-- A refused stream write. -/
def streamError (p k code : Nat) : Effect :=
  seq [setFld (BB.STREAM_ERR_STREAM p) k, setFld (BB.STREAM_ERR_CODE p) code, fire 32 (p + k * 2 ^ 8 + code * 2 ^ 16)]

/-- Releases a stream's lanes that search or are in SYNC (R190). -/
def streamRelease (p k : Nat) : Effect := ask fun s => forEach (s.streamLanes p k) (fun n => ask fun s =>
  match (s.lane n).run with
  | .search => setLane n fun l => { l with run := .free, stream := none, paused := false }
  | .sync => seq [dropFrame n, setLane n fun l => { l with run := .free, stream := none, paused := false }]
  | _ => nothing)

/-- A write of STREAM_k (R189, R190). -/
def streamWrite (p k : Nat) (en : Bool) (chan mode : Nat) : Effect := ask fun s =>
  let set := seq [setFld (BB.STREAM_CHAN p k) chan, setFld (BB.STREAM_MODE p k) mode]
  if s.flag (BB.STREAM_EN p k) then seq [
    when (chan ≠ s.fld (BB.STREAM_CHAN p k) || mode ≠ s.fld (BB.STREAM_MODE p k)) (streamError p k 4),
    when (!en) (seq [setFld (BB.STREAM_EN p k) 0, streamRelease p k])]
  else if !en then set
  else if !modeOk p mode then seq [set, streamError p k 2]
  else if !validChan p chan then seq [set, streamError p k 1]
  else if (List.range (portStreams p)).any (fun j => j ≠ k && s.flag (BB.STREAM_EN p j) &&
      s.fld (BB.STREAM_CHAN p j) = chan && s.fld (BB.STREAM_MODE p j) = mode) then seq [set, streamError p k 3]
  else seq [set, setFld (BB.STREAM_EN p k) 1]

/-- Whether stream `k` exists on port `p`. -/
def streamOn (p k : Nat) (e : Effect) : Effect := when (decide (k < portStreams p)) (inDomain 12 e)

def execStreamEnable (p : Fin 3) (k : Fin 32) (chan : BitVec 7) (mode : BitVec 4) :=
  run (streamOn p k (streamWrite p k true chan.toNat mode.toNat))
def execStreamDisable (p : Fin 3) (k : Fin 32) (chan : BitVec 7) (mode : BitVec 4) :=
  run (streamOn p k (streamWrite p k false chan.toNat mode.toNat))

/-- LANE_ATTACH: a port's allocator serves one stream (R193). Which FREE lane it takes is not said (assumption 20). -/
def execLaneAttach (p : Fin 3) := run (inDomain 12 (ask fun s =>
  let on := (List.range (portStreams p)).filter (fun k => s.flag (BB.STREAM_EN p k))
  let bare := on.filter (fun k => (s.streamLanes p k).isEmpty)
  let lacking := on.filter (fun k => (s.searchers p k).isEmpty && decide ((s.streamLanes p k).length < 4))
  let (lo, hi) := portLanes p
  let free := (List.range (hi - lo)).map (· + lo) |>.filter (fun n => (s.lane n).run = .free)
  let inService := free.filter (fun n => !s.inSlice 0 n)
  let free := if inService.isEmpty then (s.allot 0 free).toList else inService
  let silent := bare.filter (fun k => !s.bb.noSearch.contains (p * 32 + k))
  seq [
    -- a stream that holds a lane again has ended its period without one
    fun s => [.bb { s.bb with noSearch := s.bb.noSearch.filter (fun x => x / 32 ≠ p || bare.contains (x % 32)) }],
    match (bare ++ lacking).head? with
    | none => nothing
    | some k => withFree 8 fun f => match free[f % max free.length 1]? with
      | some n => seq [yieldUnit 0 n, setLane n fun l => { l with run := .search, stream := some k, paused := s.bb.blanked.contains p },
          fun s => [.bb { s.bb with noSearch := s.bb.noSearch.filter (· ≠ p * 32 + k) }]]
      | none => forEach silent (fun k => seq [fire 33 (p + k * 2 ^ 8),
          fun s => [.bb { s.bb with noSearch := s.bb.noSearch ++ [p * 32 + k] }]])]))

/-! ### Detection and capture (R194, R195, R202, R203) -/

/-- Channel and mode a lane searches. -/
def State.laneTune (s : State) (n : Nat) : Nat × Nat :=
  match (s.lane n).stream, (s.lane n).windows with
  | some k, _ => (s.fld (BB.STREAM_CHAN (lanePort n) k), s.fld (BB.STREAM_MODE (lanePort n) k))
  | none, w :: _ => (w.chan, w.mode)
  | none, [] => (0, 0)

/-- The other lanes of a lane's stream in SYNC or RECEIVE. -/
def State.rivals (s : State) (n : Nat) : List Nat := match (s.lane n).stream with
  | some k => (s.streamLanes (lanePort n) k).filter (fun m => m ≠ n && ((s.lane m).run = .sync || (s.lane m).run = .receive))
  | none => []

/-- PEAK of a lane's frame. -/
def State.peakOf (s : State) (n : Nat) : Int := ((s.lane n).frame.map RxFrame.peak).getD 0

/-- A lane enters SYNC on a preamble. -/
def enterSync (n : Nat) (peak : Int) (captured preempted : Bool) : Effect := ask fun s =>
  let (chan, mode) := s.laneTune n
  let p := lanePort n
  seq [setLane n fun l => { l with
      run := .sync, since := s.acc.ltb, acquired := s.bb.acquisitions
      frame := some { port := p, chan := chan, mode := mode, peak := peak, captured := captured, preempted := preempted
                      listen := l.stream.isNone, agc := (s.port p).agc } },
    fun s => [.bb { s.bb with acquisitions := s.bb.acquisitions + 1 }]]

/-- PREAMBLE_DETECT: a searcher detects a preamble of correlation power `peak`, in 0.25 dB (R202). -/
def execPreambleDetect (n : Fin 96) (peak : Int) := run (inDomain 12 (ask fun s =>
  let l := s.lane n
  let p := lanePort n
  let others := s.rivals n
  when (l.run = .search && !l.paused) (
    if others.all (fun m => decide (s.peakOf m + s.fld BB.RX_CTL_CAPTURE_DELTA ≤ peak)) then seq [
      count (BB.COUNT_HI p 0), when (!others.isEmpty) (count (BB.COUNT_HI p 3)),
      forEach others (fun m => setLane m fun l => { l with frame := l.frame.map (fun f => { f with overlap := true }) }),
      enterSync n peak (!others.isEmpty) false]
    else count (BB.COUNT_LO p 3))))

/-- CAPTURE_PREEMPT: a lane's background detector finds a preamble of power `peak` (R203). -/
def execCapturePreempt (n : Fin 96) (peak : Int) := run (inDomain 12 (ask fun s =>
  let l := s.lane n
  let p := lanePort n
  match l.stream with
  | none => nothing
  | some k =>
    when ((l.run = .sync || l.run = .receive) && (s.searchers p k).isEmpty &&
        (s.rivals n).all (fun m => decide ((s.lane m).acquired < l.acquired)) &&
        decide (s.peakOf n + s.fld BB.RX_CTL_CAPTURE_DELTA ≤ peak)) (
      if s.flag BB.RX_CTL_CAPTURE_PREEMPT then seq [
        count (BB.COUNT_HI p 4), fireFirst (BB.COUNT p 4) 0 29 (p + n * 2 ^ 8),
        dropFrame n, enterSync n peak false true]
      else seq [count (BB.COUNT_LO p 4), fireFirst (BB.COUNT p 4) 1 30 (p + n * 2 ^ 8)])))

/-- SFD_TIMEOUT (R195). -/
def execSfdTimeout (n : Fin 96) := run (inDomain 12 (ask fun s =>
  let l := s.lane n
  let p := lanePort n
  let sec := s.ns / 1000000000
  match l.run, l.frame with
  | .sync, some f => when (decide (l.since + s.fld BB.RX_CTL_SFD_TIMEOUT * s.searchUnit f.mode ≤ s.acc.ltb)) (
      let (t, c, raised) := getD s.bb.falseDet p (0, 0, false)
      let (c, raised) := if t = sec then (c + 1, raised) else (1, false)
      let alarm := !raised && decide (s.fld (BB.PORT_RX_FD_ALARM p) < c)
      seq [count (BB.COUNT_LO p 0),
        fun s => [.bb { s.bb with falseDet := insertKey s.bb.falseDet p (sec, c, raised || alarm) }],
        when alarm (fire 31 (p + min c 65535 * 2 ^ 16)),
        abandon n])
  | _, _ => nothing))

/-! ### Reception (R196-R198, R204-R208) -/

/-- Changes a lane's frame. -/
def setFrame (n : Nat) (f : RxFrame → RxFrame) : Effect := setLane n fun l => { l with frame := l.frame.map f }

/-- No buffer: the frame is abandoned (R197). -/
def noBuf (n : Nat) : Effect := ask fun s =>
  let p := lanePort n
  seq [count (BB.COUNT_LO p 2), fireFirst (BB.COUNT p 2) 0 28 (p + (s.lane n).streamN * 2 ^ 8), abandon n]

/-- D_ana of a port, and k_p in dBm (R204, R208). -/
def dAna (p : Nat) : Nat := if p = 0 then 820 else if p = 1 then 390 else 140
def kP (p : Nat) : Int := if p = 2 then -18 else -20

/-- SFD_DETECT: the SFD's interpolated instant, D_filt removed, in 2^-16 ns, and the mean stream power against full scale
in 0.05 dB. -/
def execSfdDetect (n : Fin 96) (raw : Nat) (power : Int) := run (inDomain 12 (ask fun s =>
  let l := s.lane n
  let p := lanePort n
  match l.run, l.frame with
  | .sync, some f =>
    let t := ((raw : Int) - dAna p * 65536 - s.fldI (BB.RXDLY_CAL_X_EFF p) * 8192) % 2 ^ 80
    let sfd := t.toNat / 65536
    let rssi := (power + kP p * 20 + 120 * f.agc - s.fldI (FE.RXGAIN_CAL_X_EFF p) * 2) / 5
    withBuf 0 (noBuf n) (fun b => seq [
      setLane n fun l => { l with run := .receive },
      setFrame n fun f => { f with sfd := BitVec.ofNat 64 sfd, frac := t.toNat % 65536, rssi := rssi, buf := some b },
      setMac fun m => { m with bursts := m.bursts.map (fun e => match e.2.await_ with
        | some (_, x) => if e.2.seen = none ∧ e.2.port = p ∧ e.2.chan = f.chan ∧
            (tdiff (BitVec.ofNat 64 sfd) (BitVec.ofNat 64 x)).natAbs ≤ s.fld MAC.DL_CFG_DL_ACKTOL * 1000
          then (e.1, { e.2 with seen := some (n, sfd % 2 ^ 64) }) else e
        | none => e) }])
  | _, _ => nothing))

/-- PHR_DECODE (R196). -/
def execPhrDecode (n : Fin 96) (phr : BitVec 16) := run (inDomain 12 (ask fun s =>
  let l := s.lane n
  match l.run, l.frame with
  | .receive, some f => when (f.len = 0) (
      let v := phr.toNat
      let len := if f.mode < 8 then v % 128 else v % 256
      let bad := if f.mode < 8 then decide (len < 3) else decide (len = 0) || v / 256 ≠ lrCrc8 len
      if bad then seq [count (BB.COUNT_HI (lanePort n) 2), abandon n]
      else setFrame n fun f => { f with len := len })
  | _, _ => nothing))

/-- UNIT_REPORT: one PSDU byte is written to the chain (R197, R638). -/
def execUnitReport (n : Fin 96) (b : BitVec 8) := run (inDomain 12 (ask fun s =>
  let l := s.lane n
  match l.run, l.frame with
  | .receive, some f => match f.buf with
    | some h => when (decide (f.got < f.len)) (seq [
        putChain h f.got [b.toNat],
        setFrame n fun f => { f with got := f.got + 1, psdu := f.psdu ++ [b.toNat] }])
    | none => nothing
  | _, _ => nothing))

/-- The 16 bytes of the reception record (Table 05.7); ρ in 2^-16, EVM in 0.25 %, CFO in 10 Hz, SNR in 0.25 dB. -/
def recordBytes (n : Nat) (f : RxFrame) (good : Bool) (rho evm : Nat) (cfo snr : Int) : List Nat :=
  let lqi := (clampI 0 255 ((340 * (rho : Int) + 32768) / 65536 - 85)).toNat
  let flags := b2n good + 2 * b2n f.captured + 4 * b2n f.preempted + 8 * b2n f.overlap + 16 * b2n f.listen + 32 * b2n f.agcMoved
  leBytes (unsigned 16 f.rssi) 2 ++ [lqi, flags] ++ leBytes (min evm 65535) 2 ++ [f.mode + f.agc * 16, n] ++ leBytes f.frac 2
    ++ leBytes (unsigned 16 cfo) 2 ++ leBytes (unsigned 16 snr) 2 ++ leBytes (unsigned 16 f.peak) 2

/-- The lane hands its frame on, or keeps it in DONE while its output queue is full (R198). -/
def handOn (n : Nat) : Effect := ask fun s => match (s.lane n).frame with
  | none => nothing
  | some f =>
    let b := f.buf.getD 0
    let d := rxDesc f.port f.chan f.len b f.sfd.toNat 0
    let bypass := f.fcsOk && ((s.decisionOn b).map Decision.opened).getD false
    if bypass || decide ((s.lane n).outq.length < 8) then seq [
      setLane n fun l => { l with windows := match l.windows with
        | w :: ws => { w with frames := w.frames + 1 } :: ws
        | [] => [] },
      setLane n fun l => { l with frame := none },
      if f.fcsOk then frameGood n d else seq [setLane n fun l => { l with outq := l.outq ++ [⟨d, false⟩] }, serveOut n],
      ask fun s => when ((s.lane n).outq.length = 8) (setLane n fun l => { l with fullSince := some s.acc.ltb }),
      leave n]
    else setLane n fun l => { l with run := .done }

/-- FRAME_END: after the last PSDU byte (R198, R207). -/
def execFrameEnd (n : Fin 96) (rho : Fin 65537) (evm : Nat) (cfo snr : Int) := run (inDomain 12 (ask fun s =>
  let l := s.lane n
  let p := lanePort n
  match l.run, l.frame with
  | .receive, some f => match f.buf with
    | none => nothing
    | some h => when (decide (0 < f.len) && f.got = f.len) (
        let good := crc16 (f.psdu.take (f.len - 2)) = fieldLe f.psdu (f.len - 2) 2
        let finish := fun (k : Effect) =>
          let fill := seq [ask fun s => setMeta (s.lastBuf h) 24 16 (f.len + 16 - 256 * ((f.len + 15) / 256)),
            putChain h f.len (recordBytes n f good rho evm cfo snr), setFrame n fun f => { f with fcsOk := good }, k]
          if f.len + 16 ≤ 256 then fill else withBuf 0 (noBuf n) (fun b => seq [linkBuf h b, fill])
        let put := seq [ask fun s => when (decide (8 ≤ (s.lane n).outq.length) &&
            !((s.decisionOn h).map Decision.opened).getD false) (count (BB.COUNT_LO p 5)), handOn n]
        if good then finish (seq [count (BB.COUNT_HI p 1), put])
        else seq [count (BB.COUNT_LO p 1), withdraw h,
          if s.flag BB.BB_EXP_KEEP_BADFCS then finish put else abandon n])
  | _, _ => nothing))

/-- OUTQ_RELEASE: a lane in DONE finds room. -/
def execOutqRelease (n : Fin 96) := run (inDomain 12 (ask fun s =>
  when ((s.lane n).run = .done && decide ((s.lane n).outq.length < 8)) (handOn n)))

/-- OUTQ_STALL: an output queue has been full for 100 µs. -/
def execOutqStall (n : Fin 96) := run (inDomain 12 (ask fun s => match (s.lane n).fullSince with
  | some t => when (decide (t + 100000 ≤ s.acc.ltb)) (seq [setLane n fun l => { l with fullSince := none }, fire 36 n])
  | none => nothing))

/-! ### Blanking and faults (R191, R199, R216) -/

/-- Whether a port's receiver is to be blanked: a voice on the air, or a calibration. -/
def State.mustBlank (s : State) (p : Nat) : Bool :=
  (s.port p).cal.isSome || (s.stagedOn p).any (fun x => x.phase = .onAir)

def execRxBlankStart (p : Fin 3) := run (inDomain 12 (ask fun s => when (s.mustBlank p) (blank p)))
def execRxBlankEnd (p : Fin 3) := run (inDomain 12 (ask fun s => when (!s.mustBlank p) (unblank p)))

/-- SAMPLE_PARITY_ERROR in a stream's bank. -/
def execSampleParityError (p : Fin 3) (k : Fin 32) := run (streamOn p k (ask fun s => seq [
  forEach (s.streamLanes p k) (fun n => ask fun s =>
    when ((s.lane n).run = .sync || (s.lane n).run = .receive) (abandon n)),
  fire 38 (p + k * 2 ^ 8)]))

/-- LANE_CHECK_FAIL. -/
def execLaneCheckFail (n : Fin 96) := run (inDomain 12 (seq [
  dropFrame n, setLane n fun l => { l with run := .off, stream := none, paused := false, broken := true },
  fire 39 n, portLanesOff (lanePort n)]))

/-! ### Listen windows (R201, R234) -/

/-- LISTEN_WINDOW_OPEN: a window is due and its lane is free. -/
def execListenWindowOpen (n : Fin 96) := run (inDomain 12 (ask fun s => match (s.lane n).windows with
  | w :: ws => when (!w.opened && s.reached w.from_ && !(s.lane n).broken && (s.lane n).run = .off) (seq [
      setLane n fun l => { l with run := .search, stream := none, paused := s.bb.blanked.contains (lanePort n)
                                  windows := { w with opened := true } :: ws },
      armWindow n])
  | [] => nothing))

/-- LISTEN_WINDOW_CLOSE: a frame under way is received to its end. -/
def execListenWindowClose (n : Fin 96) := run (inDomain 12 (ask fun s => match (s.lane n).windows with
  | w :: ws => when (w.opened && !w.closed && s.reached (tplus w.from_ w.dur)) (
      match (s.lane n).run with
      | .sync | .receive | .done => setLane n fun l => { l with windows := { w with closed := true } :: ws }
      | _ => endWindow n 0)
  | [] => nothing))

/-! ### Transmit voices (R150, R210-R214) -/

/-- A late transmission is dropped (R150). -/
def dropLate (x : Staged) : Effect := ask fun s => seq [
  endTx x 1, count (FE.COUNT_A_TXLATE x.port), fire 18 x.voice, setPort x.port fun y => { y with lastEnd := s.acc.ltb }, synthStop x.port]

/-- The lateness a transmission may have: none for beacons (R243). -/
def State.tolerance (s : State) (x : Staged) : Nat :=
  if x.owner = .beacon || x.owner = .recovery then 0 else s.fld FE.TX_LATE_TOL_NS

/-- The port budget at launch (R213): the power applied, or none where the transmission is withheld. -/
def State.budget (s : State) (x : Staged) (want : Int) : Option Int :=
  let on := ((s.stagedOn x.port).filter (fun y => y.phase = .onAir)).map (fun y => halfDbPow y.applied)
  let b := halfDbPow (s.fldI (BB.PWR_BUDGET_BUDGET x.port))
  if b ≤ on.sum then none
  else match floorHalfDb (b - on.sum) paMin (want - paMin + 1).toNat with
    | none => none
    | some q => let p := min want q
      if want - p > s.fld (BB.PWR_BUDGET_MAXCUT x.port) || p < paMin then none else some p

/-- Whether any part of the assessment interval was blanked: another voice on the air, or one or a calibration that ended
within it. -/
def State.blankedFor (s : State) (x : Staged) (time : Nat) : Bool :=
  let from_ := s.ltbOf x.first - 1000 * time - 1000
  s.bb.blanked.contains x.port || (s.stagedOn x.port).any (fun y => y.phase = .onAir) ||
    (decide (0 < (s.port x.port).lastEnd) && decide (from_ ≤ (s.port x.port).lastEnd))

/-- A voice launches a transmission: channel assessment, fold-back, budget, first chip (R150, R211-R213); `power` is the
mean power measured in the channel, in dBm. -/
def launch (x : Staged) (power : Int) : Effect := ask fun s =>
  let at_ := if 0 ≤ tdiff x.first (tplus s.now 200) then x.first else tplus s.now 200
  let late := (tdiff at_ x.first).toNat
  if s.tolerance x < late then dropLate x
  else
    let busy := match s.permits (s.profileAt x.first) x.port x.chan with
      | some (k, e) => (match s.assess k e x.cca with
        | some (thresh, time) => decide (thresh < power) || s.blankedFor x time
        | none => false)
      | none => false
    if busy then seq [endTx x 2, count (BB.COUNT_LO x.port 6), fireFirst (BB.COUNT x.port 6) 0 35 x.voice]
    else
      let want := match s.foldCap x.port with
        | some c => min x.power c
        | none => x.power
      match s.budget x want with
      | none => seq [endTx x 5, count (BB.COUNT_LO x.port 7), fireFirst (BB.COUNT x.port 7) 0 34 (x.voice + 2 ^ 4)]
      | some p => seq [
          when (p < want) (seq [count (BB.COUNT_HI x.port 7), fireFirst (BB.COUNT x.port 7) 0 34 x.voice]),
          when (decide (0 < late)) (count (FE.COUNT_A_LATE_SENT x.port)),
          setPort x.port fun y => { y with faults := 0 },
          setStaged x.voice x.place fun y => { y with
            phase := .onAir, launched := at_, late := late, applied := p, cut := p < want, folded := (s.foldCap x.port).isSome
            air := s.airtime x.mode x.len }]

/-- VOICE_TRIGGER: a voice's trigger fires, or the port it waits for has locked. -/
def execVoiceTrigger (v : Fin 12) (j : Fin 4) (power : Int) := run (inDomain 12 (ask fun s =>
  match s.bb.staged.find? (fun x => x.voice = v.val && x.place = j.val) with
  | none => nothing
  | some x => match x.phase with
    | .armed => when ((s.comp (4 * v + j)).armed && s.reached x.trig) (seq [
        disarm (4 * v + j),
        if s.portLocked x.port then launch x power
        else if s.tolerance x = 0 then dropLate x
        else setStaged v j fun y => { y with phase := .waitLock }])
    | .waitLock => when (s.portLocked x.port) (launch x power)
    | .onAir => nothing))

/-- TX_END: the last chip of a transmission has left. -/
def execTxEnd (v : Fin 12) (j : Fin 4) := run (inDomain 12 (ask fun s =>
  match s.bb.staged.find? (fun x => x.voice = v.val && x.place = j.val) with
  | some x => when (x.phase = .onAir && s.reached (tplus x.launched x.air)) (seq [
      endTx x 0, setPort x.port fun y => { y with lastEnd := s.acc.ltb }, synthStop x.port])
  | none => nothing))

/-- A write of PORT_RX.LISTEN_LANES moves lanes between the capture pool and the set-aside ones (R192); one that would
take a lane with a window out of those is ignored. -/
def portRxWrite (p v : Nat) : Effect := ask fun s =>
  let k := bits v 19 16
  let (lo, hi) := portLanes p
  let all := (List.range (hi - lo)).map (· + lo)
  let keep := all.any (fun n => decide (n + k < hi) && !(s.lane n).windows.isEmpty)
  seq [setFld (BB.PORT_RX_FD_ALARM p) (bits v 15 0),
    when (!keep) (seq [setFld (BB.PORT_RX_LISTEN_LANES p) k, forEach all (fun n => ask fun s =>
      let l := s.lane n
      if s.setAside n then (match l.run with
        | .free => setLane n fun l => { l with run := .off, stream := none }
        | .search => when (l.stream.isSome) (setLane n fun l => { l with run := .off, stream := none, paused := false })
        | .sync => when (l.stream.isSome) (seq [dropFrame n, setLane n fun l => { l with run := .off, stream := none }])
        | _ => nothing)
      else when (l.run = .off && !l.broken && s.flag (FE.PORT_CTL_EN p)) (setLane n fun l => { l with run := .free }))])]

end Sys2Proof.Machine
end

