-- ==== Sys2Proof/Machine/Tm.lean ====
section
/-!
DEFINITION. The traffic manager's commands and register behaviours (chapter 08): LINK_DATA, ring enables and flushes,
scheduler moves, shaping credits, latency samples and the end of a reclaim.
-/
namespace Sys2Proof.Machine

open Sys2Proof

/-! ### LINK_DATA (R294) -/

/-- The buffer that master `m`'s LINK_SEL names. -/
def State.linkSel (s : State) (m : Nat) : Nat := s.fld (TM.LINK_SEL_BUF.of m)

/-- A write of `v` to LINK_DATA while the writer's LINK_SEL names `b`. -/
def linkWrite (b v : Nat) : Effect := ask fun s =>
  let fill := bits v 24 16
  let last := bit v 14
  let next := bits v 13 0
  if s.isFree b || fill = 0 || 256 < fill || (!last && (s.isFree next || !s.isHead next || next = b)) then
    chainError b 1
  else
    let old := s.nextBuf b
    seq [when (!last) (setMeta next 15 15 0),
      when (!s.isLast b && (last || next ≠ old)) (seq [setMeta old 15 15 1, setHolder old 0x40]),
      setMeta b 24 16 fill, setMeta b 14 14 (b2n last), setMeta b 13 0 next]

/-- LINK_DATA_WRITE: master `m` (0-63 the sequencer cores, 64 the management core, 65 the host port, 66 IST) writes
LINK_DATA. -/
def execLinkDataWrite (m : Fin 67) (v : Word) := run (inDomain 2 (ask fun s => linkWrite (s.linkSel m) v.toNat))

/-! ### Rings (R304, R305, R315) -/

/-- EN written with 1 takes effect at once; DRAINED becomes 0 (R315). -/
def ringEnable (n : Nat) : Effect :=
  seq [setFld (TM.RING_CTL_EN n) 1, setFld (TM.RING_CTL_DRAINED n) 0, placeHeld n]

/-- EN written with 0 (R315): pushes are refused, and an empty ring is drained. -/
def ringDisable (n : Nat) : Effect := seq [setFld (TM.RING_CTL_EN n) 0, ringDrained n]

/-- FLUSH written with 1 while EN is 0 (R315). -/
def ringFlush (n : Nat) : Effect := ask fun s =>
  let q := (s.ring n).q
  when (!s.flag (TM.RING_CTL_EN n)) (seq [
    setRing n { s.ring n with q := [] },
    forEach q (fun e => freeDesc (s.delivered n e).1),
    countBy (TM.RING_CNT_A_FLUSHED n) q.length,
    reclaim n, ringDrained n])

def execRingEnable (n : Fin 64) := run (inDomain 2 (ringEnable n))
def execRingDisable (n : Fin 64) := run (inDomain 2 (ringDisable n))
def execRingFlush (n : Fin 64) := run (inDomain 2 (ringFlush n))

/-- A write to RING_CTL. -/
def ringCtlWrite (n v : Nat) : Effect :=
  seq [if bit v 0 then ringEnable n else ringDisable n, when (bit v 1) (ringFlush n)]

/-- A write to RING_CFG: DEPTH only while the ring is disabled and empty (R315). -/
def ringCfgWrite (n v : Nat) : Effect := ask fun s =>
  seq [setFlag (TM.RING_CFG_LAT_EN n) (bit v 17),
    when (!s.flag (TM.RING_CTL_EN n) && (s.ring n).q.isEmpty) (seq [
      setFld (TM.RING_CFG_DEPTH n) (bits v 15 0),
      setFlag (TM.RING_CFG_SHALLOW n) (decide (bits v 15 0 ≠ 0 ∧ bits v 15 0 ≤ 256)),
      setRing n { s.ring n with tail := 0 }])]

/-- RECLAIM_COMPLETE: the scan started by a ring reset ends (R305). -/
def execReclaimComplete (n : Fin 64) := run (inDomain 2 (ask fun s =>
  when (s.ring n).reclaiming (seq [reclaim n, ask fun s => setRing n { s.ring n with reclaiming := false },
    placeHeld n])))

/-! ### Schedulers (R307-R311, R316) -/

/-- CREDIT of ring `n`, signed. -/
def State.credit (s : State) (n : Nat) : Int := s.fldI (TM.RING_CREDIT_CREDIT n)

/-- The member rings of scheduler `k`. -/
def State.members (s : State) (k : Nat) : List Nat :=
  allBelow 64 (bit (s.pair (TM.SCH_MEM_LO k) (TM.SCH_MEM_HI k)))

/-- An eligible member: not empty, and with credit where it is shaped (R308). -/
def State.eligible (s : State) (n : Nat) : Bool :=
  !(s.ring n).q.isEmpty && (s.fld (TM.RING_SHAPE_RATE n) = 0 || decide (0 ≤ s.credit n))

/-- Whether finish tag `a` comes before `b`, by the sign of their 32-bit difference. -/
def tagBefore (a b : Nat) : Bool := decide (signed 32 (a + 2 ^ 32 - b) < 0)

/-- The member a move takes (R309). -/
def State.chosenMember (s : State) (k : Nat) : Option Nat :=
  let el := (s.members k).filter s.eligible
  match el.find? (fun n => s.flag (TM.RING_WFQ_PRIO n)) with
  | some n => some n
  | none => el.foldl (fun best n => match best with
      | none => some n
      | some m => if tagBefore (s.regN (TM.RING_FTAG n)) (s.regN (TM.RING_FTAG m)) then some n else some m) none

/-- What a move from a member without PRIO does to V and the tags (R310); `f` is the moved head's finish tag. -/
def afterMove (k n f : Nat) : Effect := seq [
  setReg (TM.SCH_VT k) f,
  ask fun s => match (s.ring n).q with
    | e :: _ => newHeadTag n e.d.len
    | [] => nothing,
  ask fun s => forEach (s.members k) (fun j =>
    when (decide ((2 ^ 30 : Int) < signed 32 (f + 2 ^ 32 - s.regN (TM.RING_FTAG j)))) (setReg (TM.RING_FTAG j) f))]

/-- One scheduler move: the head of the chosen member goes to DST (R308-R311). -/
def schedulerMove (k : Nat) : Effect := ask fun s =>
  let dst := s.fld (TM.SCH_CTL_DST k)
  match s.chosenMember k with
  | none => nothing
  | some n =>
    when (s.flag (TM.SCH_CTL_EN k) && s.hasRoom dst && decide ((s.ring dst).q.length < s.fld (TM.SCH_CTL_DST_LOW k)))
      (pop n (fun d => match d with
        | none => nothing
        | some d => seq [
            when (!s.flag (TM.RING_WFQ_PRIO n)) (afterMove k n (s.regN (TM.RING_FTAG n))),
            when (s.fld (TM.RING_SHAPE_RATE n) ≠ 0) (setFldI (TM.RING_CREDIT_CREDIT n)
              (max (-65535000) (s.credit n - (max d.len 1 * 1000 : Nat)))),
            pointerCheck dst, append dst d]))

/-- SCHEDULER_MOVE: nothing where no move is due. -/
def execSchedulerMove (k : Fin 8) := run (inDomain 2 (schedulerMove k))

/-- SCH_CTL.EN written with 1 or 0 (R316). -/
def schedulerEnable (k : Nat) : Effect := seq [setFld (TM.SCH_CTL_EN k) 1, setFld (TM.SCH_CTL_DRAINED k) 0]
def schedulerDisable (k : Nat) : Effect := ask fun s =>
  seq [setFld (TM.SCH_CTL_EN k) 0,
    when (!s.flag (TM.SCH_CTL_DRAINED k)) (seq [setFld (TM.SCH_CTL_DRAINED k) 1, fire 67 (k + 2 ^ 6)])]
def execSchedulerEnable (k : Fin 8) := run (inDomain 2 (schedulerEnable k))
def execSchedulerDisable (k : Fin 8) := run (inDomain 2 (schedulerDisable k))

/-- Whether ring `n` is the DST of some scheduler. -/
def State.isDst (s : State) (n : Nat) : Bool := (allBelow 8 (fun k => s.fld (TM.SCH_CTL_DST k) = n)) ≠ []

/-- A write to SCH_CTL: one that would change DST while EN is 1, or name a member ring, is ignored (R307). -/
def schCtlWrite (k v : Nat) : Effect := ask fun s =>
  let dst := bits v 21 16
  if dst ≠ s.fld (TM.SCH_CTL_DST k) && (s.flag (TM.SCH_CTL_EN k) || (s.schedulerOf dst).isSome) then
    setFld TM.POOL_STATUS_SCHREJ 1
  else seq [setFld (TM.SCH_CTL_DST k) dst, setFld (TM.SCH_CTL_DST_LOW k) (max 1 (bits v 3 0)),
    if bit v 31 then schedulerEnable k else schedulerDisable k]

/-- A write to SCH_MEM_LO (`half` 0) or SCH_MEM_HI (1), under R307. -/
def schMemWrite (k half v : Nat) : Effect := ask fun s =>
  let a := if half = 0 then TM.SCH_MEM_LO k else TM.SCH_MEM_HI k
  let rings := (allBelow 32 (fun i => bit v i && !bit (s.regN a) i)).map (· + 32 * half)
  if v ≠ s.regN a && (s.flag (TM.SCH_CTL_EN k) || rings.any (fun n => s.isDst n || (s.schedulerOf n).isSome)) then
    setFld TM.POOL_STATUS_SCHREJ 1
  else setReg a v

/-- A write to RING_SHAPE: RATE 0 ends shaping (R311). -/
def ringShapeWrite (n v : Nat) : Effect :=
  seq [setFld (TM.RING_SHAPE_RATE n) v, when (bits v 18 0 = 0) (setReg (TM.RING_CREDIT n) 0)]

/-- Writes to RING_WFQ and RING_BURST: a 0 stores 1. -/
def ringWfqWrite (n v : Nat) : Effect :=
  seq [setFlag (TM.RING_WFQ_PRIO n) (bit v 8), setFld (TM.RING_WFQ_WEIGHT n) (max 1 (bits v 7 0))]
def ringBurstWrite (n v : Nat) : Effect := setFld (TM.RING_BURST_BURST n) (max 1 (bits v 15 0))

/-- A write to TM_EXP while the window is unlocked (Table 08.20). -/
def tmExpWrite (v : Nat) : Effect := seq [
  when (decide (64 ≤ bits v 26 16 ∧ bits v 26 16 ≤ 1024)) (seq [setFld TM.TM_EXP_CTRL_RES (bits v 26 16), poolMarks]),
  fun s => [.tm { s.tm with ptrInject := s.tm.ptrInject || bit v 1, parInject := s.tm.parInject || bit v 0 }]]

/-- A microsecond boundary of LTB at shaped ring `n` (R311). -/
def creditTick (n : Nat) : Effect := ask fun s =>
  let rate : Int := s.fld (TM.RING_SHAPE_RATE n)
  let c := s.credit n
  when (rate ≠ 0) (setFldI (TM.RING_CREDIT_CREDIT n)
    (if !(s.ring n).q.isEmpty then min (c + rate) (s.fld (TM.RING_BURST_BURST n) * 1000 : Nat)
     else if 0 < c then 0 else min (c + rate) 0))

/-- SHAPER_CREDIT_TICK, at a microsecond boundary of LTB. -/
def execShaperCreditTick := run (inDomain 2 (ask fun s =>
  when (s.acc.ltb % 1000 = 0) (forEach (List.range 64) creditTick)))

/-! ### Latency sampling (R312) -/

/-- The sampler at ring `n`. -/
def latencySample (n : Nat) : Effect := ask fun s =>
  let r := s.ring n
  let sec := s.acc.ltb / 1000000000
  let good := match r.q with
    | [] => true
    | e :: _ => (s.delivered n e).2.2.2
  let soj := match r.q with
    | [] => 0
    | e :: _ => min ((s.ltbUs + 2 ^ 32 - e.stamp) % 2 ^ 32) (2 ^ 24 - 1)
  let limit := s.fld (TM.LAT_LIMIT_US n)
  let late := good && decide (limit ≠ 0 ∧ limit < soj)
  when (s.flag (TM.RING_CTL_EN n) && s.flag (TM.RING_CFG_LAT_EN n)) (seq [
    setFld (TM.LAT_DEPTH_DEPTH n) r.q.length,
    when good (setFld (TM.LAT_SOJ_US n) soj),
    when late (count (TM.RING_CNT_C_LATE n)),
    when (late && r.lateSec ≠ sec + 1) (seq [setRing n { r with lateSec := sec + 1 }, fire 65 (n + soj * 2 ^ 8)])])

/-- LATENCY_SAMPLE, at a millisecond boundary of LTB. -/
def execLatencySample := run (inDomain 2 (ask fun s =>
  when (s.flag TM.LAT_CFG_SAMPLE_EN && s.acc.ltb % 1000000 = 0) (forEach (List.range 64) latencySample)))

end Sys2Proof.Machine
end

