-- ==== Sys2Proof/Machine/RegWrite.lean ====
section
/-!
DEFINITION. What a master's write does at a register whose write has behaviour of its own, window by window: FE, BB, MAC,
FWD, TM, CRY, KEY, ACC and RTC. Every other register takes the write field by field (Table 00.3, `writeFields`).
-/
namespace Sys2Proof.Machine

open Sys2Proof

/-! ### Values a field does not take as written -/

/-- A field whose write of 0 stores 1. -/
def orOne (f : Fld) (v : Nat) : Nat := putBits v f.hi f.lo (max 1 (bits v f.hi f.lo))

/-- A field whose writes outside lo..hi are clamped. -/
def clampFld (f : Fld) (lo hi v : Nat) : Nat := putBits v f.hi f.lo (clampN lo hi (bits v f.hi f.lo))

/-- The written word with a field as it stands: a write that leaves the field. -/
def State.holding (s : State) (f : Fld) (v : Nat) : Nat := putBits v f.hi f.lo (s.fld f)

/-- A field that ignores writes outside lo..hi (stated, or a range with no rule for what lies outside it: assumption
28). -/
def State.inside (s : State) (f : Fld) (lo hi v : Nat) : Nat :=
  if lo ≤ bits v f.hi f.lo ∧ bits v f.hi f.lo ≤ hi then v else s.holding f v

/-- `e` while the window of `a` is expert-unlocked; otherwise the write is rejected (R10). -/
def unlocked (a : Nat) (e : Effect) : Effect := ask fun s => if s.flag (unlockedOf a) then e else setFld (rejectedOf a) 1

/-- An EX bit that acts when written 1 and reads 0: the other fields of its register are stored, then it acts. -/
def pulse (a v i : Nat) (e : Effect) : Effect := seq [writeFields a (putBit v i false),
  ask fun s => when (bit v i && s.flag (unlockedOf a)) e]

/-- Registers with a write of their own: the address of the register's first copy, and the write's effect at its copy
(i, j). -/
abbrev RegActs := List (Nat × (Nat → Nat → Effect))

/-! ### EXPERT_UNLOCK (R8) -/

/-- A write of EXPERT_UNLOCK of the window that holds `a`. -/
def unlockWrite (a v : Nat) : Effect := ask fun s =>
  let key := v % 256
  if s.flag (unlockedOf a) then when (key = 0) (setFld (unlockedOf a) 0)
  else if key = 0x5A then setFld (armedOf a) 1
  else seq [when (key = 0xA5 && s.flag (armedOf a)) (setFld (unlockedOf a) 1), setFld (armedOf a) 0]

/-! ### Calibrated fields (R14-R16) -/

/-- Writes a user offset through to the MRAM user page. A page without its MAGIC becomes one of FORMAT 0 with every other
offset 0 (R485). -/
def userStore (a : Nat) (z : Int) : Effect := ask fun s => seq [
  when (s.mem' 0x5000 4 ≠ 0x55464331) (seq [mramWrite 0x5000 (leBytes 0x55464331 8),
    forEach (List.range 7) (fun i => mramWrite (0x5010 + 8 * i) (List.replicate 8 0))]),
  mramWrite a (leBytes (unsigned 16 z) 2)]

/-- A write of X_USER of calibrated field `i` of port `p`. -/
def calUserWrite (p i v : Nat) : Effect := seq [userStore (0x5010 + 16 * p + 2 * i) (signed 9 (bits v 8 0)), calLoad [i] p]

/-- A write of TRIM_CAL.X_USER. -/
def trimUserWrite (v : Nat) : Effect := seq [userStore 0x5040 (signed 12 (bits v 27 16)), trimReload]

/-! ### FE, BB -/

/-- FE (Tables 04.9 to 04.24). -/
def feWrites (v : Nat) : RegActs := [
  (FE.SWITCH_CTL, fun _ _ => seq [writeFields FE.SWITCH_CTL v, when (bit v 9) switchCancel, when (bit v 8) switchArm]),
  (FE.INSTALL_CTL, fun _ _ => seq [writeFields FE.INSTALL_CTL v, when (bit v 8) profileInstall]),
  (FE.SLOT_LOCK, fun _ _ => slotLockWrite v),
  (FE.CAL_GUARD, fun _ _ => writeFields FE.CAL_GUARD (clampFld FE.CAL_GUARD_US 1000 65535 v)),
  (FE.PORT_CTL 0, fun p _ => seq [if bit v 0 then portEnable p else portDisable p, when (bit v 3) (calReq p)]),
  (FE.ANT 0, fun p _ => antSelWrite p (v % 4)),
  (FE.LOAD_CTL 0, fun p _ => loadCtlWrite p v),
  (FE.TXPWR_CAL 0, fun p _ => calUserWrite p 0 v), (FE.RXGAIN_CAL 0, fun p _ => calUserWrite p 1 v),
  (FE.TEMP_CAL 0, fun p _ => calUserWrite p 2 v), (FE.LOADDET_CAL 0, fun p _ => calUserWrite p 3 v),
  (FE.FE_EXP 0, fun p _ => ask fun s =>
    pulse (FE.FE_EXP p) (s.inside (FE.FE_EXP_CAL_MAXDEFER p) 10 65535 v) 1 (calForce p))]

/-- The nibbles of a MODE_FILT write that lie in their set's range; the others stay. -/
def nibbles (old v : Nat) (ok : Nat → Bool) : Nat :=
  (List.range 8).foldl (fun w c => let n := bits v (4 * c + 3) (4 * c); if ok n then putBits w (4 * c + 3) (4 * c) n else w) old

/-- PORT_RX: LISTEN_LANES is RWL; above 8 it is ignored. -/
def portRx (p v : Nat) : Effect := ask fun s =>
  portRxWrite p (if s.flag BB.WINDOW_LOCK_LOCK then s.holding (BB.PORT_RX_LISTEN_LANES p) v
    else s.inside (BB.PORT_RX_LISTEN_LANES p) 0 8 v)

/-- BB (Tables 05.11 to 05.23). -/
def bbWrites (v : Nat) : RegActs := [
  (BB.RX_CTL, fun _ _ => writeFields BB.RX_CTL (orOne BB.RX_CTL_SFD_TIMEOUT v)),
  (BB.CCA_CFG, fun _ _ => ask fun s => writeFields BB.CCA_CFG (s.inside BB.CCA_CFG_TIME 16 65535 v)),
  (BB.STREAM 0 0, fun p k => when (decide (k < portStreams p)) (streamWrite p k (bit v 31) (bits v 14 8) (bits v 19 16))),
  (BB.PORT_RX 0, fun p _ => portRx p v),
  (BB.PWR_BUDGET 0, fun p _ => writeFields (BB.PWR_BUDGET p)
    (putBits v 7 0 (unsigned 8 (min (signed 8 (bits v 7 0)) (paMax p))))),
  (BB.RXDLY_CAL 0, fun p _ => calUserWrite p 4 v), (BB.TXDLY_CAL 0, fun p _ => calUserWrite p 5 v),
  (BB.MODE_FILT_RX, fun _ _ => ask fun s => writeFields BB.MODE_FILT_RX (nibbles (s.regN BB.MODE_FILT_RX) v (· < 8))),
  (BB.MODE_FILT_TX, fun _ _ => ask fun s => writeFields BB.MODE_FILT_TX (nibbles (s.regN BB.MODE_FILT_TX) v (8 ≤ ·))),
  (BB.VOICE_CFG 0 0, fun p j => ask fun s =>
    writeFields (BB.VOICE_CFG p j) (s.inside (BB.VOICE_CFG_FILT p j) 8 15 v))]

/-- FILT_s_k: 16 EX bits (Table 05.24); `a` lies in the filter sets. -/
def isFilt (a : Nat) : Bool := decide (0x4001A000 ≤ a ∧ a < 0x4001A800) && decide ((a - 0x4001A000) % 0x80 / 4 < 24)
def filtWrite (a v : Nat) : Effect := unlocked a (setReg a (v % 65536))

/-! ### MAC, FWD -/

/-- PARENT_CTL: EN written 0 leaves the parent (R244). -/
def parentCtlWrite (v : Nat) : Effect := seq [writeFields MAC.PARENT_CTL v,
  when (!bit v 0) (seq [setFld MAC.PARENT_CTL_STATE 0, setFld MAC.PARENT_CTL_MISSES 0, setMac fun m => { m with parent := none }])]

/-- MAC (Tables 06.15 to 06.29). -/
def macWrites (v : Nat) : RegActs := [
  (MAC.MAC_CTL, fun _ _ => seq [ask fun s => writeFields MAC.MAC_CTL (s.holding MAC.MAC_CTL_EN (orOne MAC.MAC_CTL_LEAD_SLOTS v)),
    if bit v 0 then macEnable else macDisable]),
  (MAC.BCN_CFG, fun _ _ => writeFields MAC.BCN_CFG (orOne MAC.BCN_CFG_LEVEL (clampFld MAC.BCN_CFG_INTERVAL_MS 50 10000 v))),
  (MAC.GUARD_CFG, fun _ _ => writeFields MAC.GUARD_CFG (orOne MAC.GUARD_CFG_DRIFT_SHIFT v)),
  (MAC.MISS_CFG, fun _ _ => writeFields MAC.MISS_CFG (orOne MAC.MISS_CFG_RV_PERIOD (orOne MAC.MISS_CFG_MISS_LIMIT v))),
  (MAC.DL_CFG, fun _ _ => writeFields MAC.DL_CFG
    (orOne MAC.DL_CFG_DL_BURST (orOne MAC.DL_CFG_DL_RETRIES (orOne MAC.DL_CFG_DL_MAX v)))),
  (MAC.PARENT_CTL, fun _ _ => parentCtlWrite v),
  (MAC.NODE_OP, fun _ _ => nodeOpWrite (bits v 27 24) (bits v 16 0)),
  (MAC.NODE_ARG3, fun _ _ => writeFields MAC.NODE_ARG3 (max 1 v)),
  (MAC.BCN_MODE 0, fun p _ => writeFields (MAC.BCN_MODE p) (orOne (MAC.BCN_MODE_DIV p) v)),
  (MAC.RV_SLOT 0, fun p _ => ask fun s => writeFields (MAC.RV_SLOT p)
    (s.inside (MAC.RV_SLOT_LEN p) 1 255 (s.inside (MAC.RV_SLOT_SLOTS p) 1 255 v))),
  (MAC.MAC_EXP, fun _ _ => ask fun s => writeFields MAC.MAC_EXP (s.inside MAC.MAC_EXP_SLOT_CAP 1 64 v))]

/-- FWD (Tables 07.14 to 07.26). -/
def fwdWrites (v : Nat) : RegActs := [
  (FWD.FWD_CTL, fun _ _ => if bit v 0 then fwdEnable else fwdDisable),
  (FWD.HASH_SEED, fun _ _ => hashSeedWrite v),
  (FWD.SIL_SEED, fun _ _ => ask fun s => when (!s.flag FWD.FWD_CTL_EN) (writeFields FWD.SIL_SEED v)),
  (FWD.TABLE_OP, fun _ _ => tableOpWrite (bits v 27 24) (v % 2)),
  (FWD.ATOM_CFG, fun _ _ => writeFields FWD.ATOM_CFG (orOne FWD.ATOM_CFG_ATOM_LEAD v)),
  (FWD.SIL_CFG, fun _ _ => writeFields FWD.SIL_CFG (orOne FWD.SIL_CFG_SIL_TTL v)),
  (FWD.ADAPT_CFG, fun _ _ => writeFields FWD.ADAPT_CFG (orOne FWD.ADAPT_CFG_DOWN_LEVEL (orOne FWD.ADAPT_CFG_REASM_PER_SRC
    (clampFld FWD.ADAPT_CFG_REASM_TIMEOUT 1 60 v)))),
  (FWD.FWD_GRP 0, fun g _ => writeFields (FWD.FWD_GRP g) (if 4 ≤ g then putBit v 31 false else v)),
  (FWD.FWD_EXP, fun _ _ => ask fun s => writeFields FWD.FWD_EXP (s.inside FWD.FWD_EXP_RELOC_MAX 1 15 v))]

/-! ### TM, CRY, KEY -/

/-- TM (Tables 08.9 to 08.20), written by master `m`. -/
def tmWrites (m v : Nat) : RegActs := [
  (TM.LINK_DATA, fun _ _ => ask fun s => linkWrite (s.linkSel m) v),
  (TM.RING_CFG 0, fun n _ => ringCfgWrite n v), (TM.RING_CTL 0, fun n _ => ringCtlWrite n v),
  (TM.RING_WFQ 0, fun n _ => ringWfqWrite n v), (TM.RING_SHAPE 0, fun n _ => ringShapeWrite n v),
  (TM.RING_BURST 0, fun n _ => ringBurstWrite n v),
  (TM.SCH_CTL 0, fun k _ => schCtlWrite k v), (TM.SCH_MEM_LO 0, fun k _ => schMemWrite k 0 v),
  (TM.SCH_MEM_HI 0, fun k _ => schMemWrite k 1 v),
  (TM.TM_EXP, fun _ _ => unlocked TM.TM_EXP (tmExpWrite v))]

/-- CRY (Tables 09.11 to 09.18). -/
def cryWrites (v : Nat) : RegActs := [
  (CRY.CRY_CTL, fun _ _ => if bit v 0 then cryEnable else cryDisable),
  (CRY.CRY_EXP, fun _ _ => ask fun s => writeFields CRY.CRY_EXP
    (s.inside CRY.CRY_EXP_MAX_WHOLE 1 23 (orOne CRY.CRY_EXP_FC_BLOCK v)))]

/-- KEY (Tables 10.11 to 10.19), written by master `m`. The root's readback is good or not by a free value (R358). -/
def keyWrites (m v : Nat) : RegActs := [
  (KEY.KEY_OP, fun _ _ => keyOpWrite m v),
  (KEY.KEY_DATA 0, fun i _ => keyDataWrite m i (BitVec.ofNat 32 v)),
  (KEY.NMAP_DATA, fun _ _ => nmapWrite m v),
  (KEY.ROOT_CTL, fun _ _ => when (bit v 0) (withFree 1 fun good => rootGen (good = 1))),
  (KEY.KEY_EXP, fun _ _ => unlocked KEY.KEY_EXP (keyExpWrite v))]

/-! ### ACC, RTC -/

/-- HOLD and FORCE_HOLD both 0: a holdover with SRC FREE ends (R389, R397); with another source it ends by R398. -/
def holdEnds : Effect := ask fun s =>
  when (!s.held && s.fld ACC.ACC_CTL_SRC = 0 && s.fld ACC.ACC_STATUS_STATE = 3) (setState 0)

/-- ACC_CTL. -/
def accCtlWrite (v : Nat) : Effect := seq [
  setFld ACC.ACC_CTL_SOFT_TIMEOUT (bits v 15 8), setFld ACC.ACC_CTL_SOFT_LOCK (bits v 5 5), setFld ACC.ACC_CTL_NOSTEP (bits v 3 3),
  sourceChange (bits v 2 0), setFld ACC.ACC_CTL_HOLD (bits v 4 4), if bit v 4 then enterHoldover else holdEnds,
  when (bit v 6) rtcWrite]

/-- ACC_EXP: RATE_MAX_PPM, FORCE_HOLD and ECC_INJECT. -/
def accExpWrite (v : Nat) : Effect := ask fun s => pulse ACC.ACC_EXP (s.inside ACC.ACC_EXP_RATE_MAX_PPM 1 1000 v) 17
  (setAcc fun a => { a with eccInject := true })

/-- ACC (Tables 11.9 to 11.18). -/
def accWrites (v : Nat) : RegActs := [
  (ACC.ACC_CTL, fun _ _ => accCtlWrite v),
  (ACC.RATE_HI, fun _ _ => seq [setReg ACC.RATE_HI (v % 256), rateWrite (v % 256)]),
  (ACC.STEP_CTL, fun _ _ => seq [setFld ACC.STEP_CTL_ABS (bits v 1 1), when (bit v 0) (stepGo (bit v 1))]),
  (ACC.SLEW_NS, fun _ _ => slewStart v),
  (ACC.SLEW_CFG, fun _ _ => writeFields ACC.SLEW_CFG (clampFld ACC.SLEW_CFG_RATE_PPB 1 100000 v)),
  (ACC.SERVO_CFG, fun _ _ => writeFields ACC.SERVO_CFG (orOne ACC.SERVO_CFG_REJECT_MAX (orOne ACC.SERVO_CFG_LOCK_COUNT v))),
  (ACC.PPS_CFG, fun _ _ => ppsCfgWrite v),
  (ACC.ACC_EXP, fun _ _ => seq [accExpWrite v, ask fun s => when (s.flag ACC.EXPERT_UNLOCK_UNLOCKED)
    (if bit v 16 then enterHoldover else holdEnds)])]

/-- RTC (Tables 12.5 to 12.13). -/
def rtcWrites (v : Nat) : RegActs := [
  (RTC.RTC_CTL, fun _ _ => when (bit v 0) rtcSet),
  (RTC.TRIM_CAL, fun _ _ => trimUserWrite v),
  (RTC.ALM_CTL 0, fun k _ => almCtlWrite k v)]

end Sys2Proof.Machine
end

