-- ==== Sys2Proof/Machine/RegWrite2.lean ====
section
/-!
DEFINITION. Registers whose write has behaviour of its own, continued: SEQ, MGT, HIF, ETH, DDR, TWN, PLT, DIS, IST, EVT
and GPIO; and a master's write of any register.
-/
namespace Sys2Proof.Machine

open Sys2Proof

/-! ### SEQ, MGT -/

/-- A write of PEND discards the pending firings it names (Table 02.24). -/
def pendWrite (n v : Nat) : Effect := setCore n fun c => { c with pend := c.pend &&& ~~~(BitVec.ofNat 16 v) }

/-- SEQ and MGT (Tables 02.19 to 02.34). -/
def seqWrites (v : Nat) : RegActs := [
  (SEQ.START_CTL, fun _ _ => when (bit v 0) startArm),
  (SEQ.CORE_CTL 0, fun n _ => coreCtlWrite n v), (SEQ.PEND 0, fun n _ => pendWrite n v),
  (SEQ.DOORBELL 0, fun n _ => doorbellWrite n v), (SEQ.INIT_ENTRY 0, fun n _ => initEntryWrite n v),
  (SEQ.XSEG_INIT 0, fun n _ => xsegInitWrite n v), (SEQ.BIND 0 0, fun n k => bindWrite n k v)]
def mgtWrites (v : Nat) : RegActs := [
  (MGT.PEND, fun _ _ => pendWrite 64 v), (MGT.DOORBELL, fun _ _ => doorbellWrite 64 v),
  (MGT.BIND 0, fun k _ => bindWrite 64 k v)]

/-! ### HIF, ETH, DDR, TWN -/

/-- A write of HIF_ATTN: EVT stays 1 while the host event queue holds an entry (R606). -/
def attnWrite (v : Nat) : Effect := ask fun s => writeFields HIF.HIF_ATTN (if s.evt.hostQ.isEmpty then v else putBit v 1 false)

/-- A write of HIF_ATTN_SET (R569), and of HIF_FREE (R568). -/
def attnSetWrite (v : Nat) : Effect := when (bit v 2) (setFld HIF.HIF_ATTN_SW 1)
def hifFreeWrite (v : Nat) : Effect := freeChain (bits v 13 0)

/-- HIF, ETH, DDR and TWN (Tables 18.9 to 18.16, 16.9 to 16.13). -/
def hifWrites (v : Nat) : RegActs := [
  (HIF.HIF_ATTN, fun _ _ => attnWrite v), (HIF.HIF_ATTN_SET, fun _ _ => attnSetWrite v), (HIF.HIF_FREE, fun _ _ => hifFreeWrite v)]
def ethWrites (v : Nat) : RegActs := [
  (ETH.ETH_CTL, fun _ _ => ethCtlWrite v), (ETH.MDIO_CMD, fun _ _ => mdioWrite v), (ETH.PORT_CFG 0, fun q _ => portCfgWrite q v)]
def ddrWrites (v : Nat) : RegActs := [
  (DDR.DDR_CTL, fun _ _ => ddrCtlWrite v), (DDR.DDR_CFG, fun _ _ => ddrCfgWrite v),
  (DDR.DDR_EXP, fun _ _ => pulse DDR.DDR_EXP v 0 (setDdr fun d => { d with inject := true }))]
def twnWrites (v : Nat) : RegActs := [
  (TWN.TWN_CTL, fun _ _ => twnCtlWrite v), (TWN.HB_KICK, fun _ _ => hbKick v),
  (TWN.TWN_CFG, fun _ _ => writeFields TWN.TWN_CFG (twnStores TWN.TWN_CFG v)),
  (TWN.CKPT_CFG, fun _ _ => writeFields TWN.CKPT_CFG (twnStores TWN.CKPT_CFG v)),
  (TWN.ROLE_EPOCH, fun _ _ => ask fun s => when (!s.flag TWN.TWN_CTL_EN) (writeFields TWN.ROLE_EPOCH v))]

/-! ### PLT -/

/-- MRAM_EXP: the two injections await the next program-area word. -/
def mramExpWrite (v : Nat) : Effect := unlocked PLT.MRAM_EXP (setNv fun n =>
  { n with inject1 := n.inject1 || bit v 0, inject2 := n.inject2 || bit v 1 })

/-- A fuse operation whose readback is good or not by a free value. -/
def fuseOp (e : Bool → Effect) : Effect := withFree 1 fun good => e (good = 1)

/-- PLT (Tables 13.10 to 13.18, 15.16 to 15.20), written by master `m`. -/
def pltWrites (m v : Nat) : RegActs := [
  (PLT.DD_KEEP, fun _ _ => writeFields PLT.DD_KEEP (fixedBits PLT.DD_KEEP v)),
  (PLT.DD_RETAIN, fun _ _ => writeFields PLT.DD_RETAIN (fixedBits PLT.DD_RETAIN v)),
  (PLT.WAKE_EN, fun _ _ => writeFields PLT.WAKE_EN (fixedBits PLT.WAKE_EN v)),
  (PLT.WAKE_DOMS, fun _ _ => writeFields PLT.WAKE_DOMS (fixedBits PLT.WAKE_DOMS v)),
  (PLT.DD_CTL, fun _ _ => when (bit v 0) drydownGo), (PLT.RST_CTL, fun _ _ => rstCtlWrite v),
  (PLT.WDOG_CTL, fun _ _ => wdogCtlWrite v), (PLT.WDOG_KICK, fun _ _ => wdogKick v),
  (PLT.PAD_RET, fun _ _ => padRetWrite v), (PLT.PD_VOTE 0, fun d _ => voteWrite m d v),
  (PLT.IMG_CTL, fun _ _ => fuseOp (imgCtlWrite v)),
  (PLT.CONFIRM_CFG, fun _ _ => writeFields PLT.CONFIRM_CFG (orOne PLT.CONFIRM_CFG_TRIAL_MAX v)),
  (PLT.LC_CTL, fun _ _ => fuseOp (transition m (bits v 2 0) (bits v 15 8))),
  (PLT.KEYREV_CTL, fun _ _ => if bit v 4 then fuseOp (keyRevoke (bits v 3 0)) else writeFields PLT.KEYREV_CTL v),
  (PLT.FUSE_CTL, fun _ _ => if bit v 0 then fuseOp (fuseProgram (bits v 3 2)) else writeFields PLT.FUSE_CTL v),
  (PLT.FUSE_DATA 0, fun i _ => setNv fun n => { n with fuseData := putD n.fuseData i (BitVec.ofNat 32 v) 0#32 }),
  (PLT.MRAM_EXP, fun _ _ => mramExpWrite v)]

/-! ### DIS, IST, EVT, GPIO -/

/-- DIS (Tables 14.10 to 14.15), written by master `m`. -/
def disWrites (m v : Nat) : RegActs := [
  (DIS.DIS_CTL, fun _ _ => if bit v 0 then disEnable else disDisable),
  (DIS.DIS_CFG, fun _ _ => writeFields DIS.DIS_CFG (orOne DIS.DIS_CFG_NACK_MISS_MAX v)),
  (DIS.BLK_REQ, fun _ _ => seq [writeFields (banked m DIS.BLK_REQ) v, when (bit v 31) (blockRequest m)]),
  (DIS.TGT_OP, fun _ _ => tgtOpWrite v), (DIS.FLOOR_VER 0, fun k _ => floorWrite k v),
  (DIS.CMP_CTL 0, fun c _ => cmpCtlWrite c v),
  (DIS.CMP_CFG 0, fun c _ => writeFields (DIS.CMP_CFG c) (orOne (DIS.CMP_CFG_LEVEL c) v)),
  (DIS.CMP_SCHED 0, fun c _ => writeFields (DIS.CMP_SCHED c) (orOne (DIS.CMP_SCHED_BURST_LEN c)
    (orOne (DIS.CMP_SCHED_FRAG_GAP c) (orOne (DIS.CMP_SCHED_BURST_PERIOD c) v)))),
  (DIS.CMP_NACK 0, fun c _ => writeFields (DIS.CMP_NACK c) (orOne (DIS.CMP_NACK_ROUNDS_MAX c) v))]

/-- REPAIR_CTL.BURN with what the fuses then hold: the repairs, or free words. -/
def repairWrite : Effect := ask fun s =>
  let want := s.ist.soft.map (fun e => putBit e 30 true)
  withFree 1 fun good => if good = 1 then repairBurn want
    else withFreeBytes (4 * want.length) fun l => repairBurn ((List.range want.length).map (fun i => fieldLe l (4 * i) 4))

/-- IST (Tables 17.8 to 17.11). -/
def istWrites (v : Nat) : RegActs := [
  (IST.IST_CTL, fun _ _ => if bit v 0 then setFld IST.IST_CTL_EN 1 else istDisable),
  (IST.IST_CFG, fun _ _ => ask fun s => writeFields IST.IST_CFG (s.istStores IST.IST_CFG v)),
  (IST.IST_EXP, fun _ _ => ask fun s => writeFields IST.IST_EXP (s.istStores IST.IST_EXP v)),
  (IST.IST_REQ, fun _ _ => if bit v 31 then istRequest (bits v 23 20) (bits v 7 0) else writeFields IST.IST_REQ v),
  (IST.IST_FORCE, fun _ _ => if bit v 31 then istForce (bits v 23 20) (bits v 7 0) else writeFields IST.IST_FORCE v),
  (IST.REPAIR_CTL, fun _ _ => when (bit v 0) repairWrite), (IST.BIST_CTL, fun _ _ => when (bit v 0) fullBist),
  (IST.BIST_DOMS, fun _ _ => writeFields IST.BIST_DOMS (fixedBits IST.BIST_DOMS v))]

/-- EVT (Tables 19.6 to 19.9) and GPIO (Table 18.17). -/
def evtWrites (v : Nat) : RegActs := [
  (EVT.EVT_CTL, fun _ _ => seq [writeFields EVT.EVT_CTL v, when (bit v 0) heldRelease]),
  (EVT.EVT_SOFT0, fun _ _ => fire 6 v), (EVT.EVT_SOFT1, fun _ _ => fire 7 v),
  (EVT.LOG_CTL, fun _ _ => when (bit v 0) logClear), (EVT.ROUTE 0, fun n _ => routeWrite n v),
  (EVT.EVT_EXP, fun _ _ => evtExpWrite v)]
def gpioWrites (v : Nat) : RegActs := [(GPIO.PIN 0, fun n _ => pinWrite n v)]

/-! ### Any register -/

/-- The writes of their own of window `w` (Table 01.7's order), by master `m`. -/
def windowWrites (w m v : Nat) : RegActs := match w with
  | 0 => feWrites v | 1 => bbWrites v | 2 => macWrites v | 3 => fwdWrites v | 4 => tmWrites m v | 5 => cryWrites v
  | 6 => keyWrites m v | 7 => accWrites v | 8 => rtcWrites v | 9 => seqWrites v | 10 => mgtWrites v | 11 => hifWrites v
  | 12 => ethWrites v | 13 => ddrWrites v | 14 => twnWrites v | 15 => pltWrites m v | 16 => disWrites m v
  | 17 => istWrites v | 18 => evtWrites v | _ => gpioWrites v

/-- Registers with a copy for each master (R294, R361, R383, R416, R476). -/
def bankedRegs : List Nat := [TM.LINK_SEL, KEY.NMAP_SEL, ACC.TIME_SEC_LO, ACC.TIME_SEC_HI, ACC.TIME_T_LO, ACC.TIME_T_HI,
  ACC.LTB_HI, RTC.CAP_TIME, RTC.CAP_DATE, RTC.CAP_ELAPSED_LO, RTC.CAP_ELAPSED_HI, DIS.BLK_REQ, DIS.BLK_DST, DIS.BLK_RES]

/-- The key of the register that master `m` reaches at `a`. -/
def keyOf (m a : Nat) : Nat := if bankedRegs.contains a then banked m a else a

/-- The copy (i, j) of row `r` at address `a`. -/
def copyOf (r : RegRow) (a : Nat) : Nat × Nat :=
  let i := (rowIndex r a).getD 0
  (i, if r.s2 = 0 then 0 else (a - r.base - i * r.s1) / r.s2)

/-- Master `m` writes the register word `v` at `a`: its own behaviour, or its fields' types (R3, R5). -/
def regWrite (m a v : Nat) : Effect :=
  if a % 0x10000 = 0x7FFC then unlockWrite a v
  else if isFilt a then filtWrite a v
  else match findRow a with
    | none => nothing
    | some r => match find (windowWrites (a / 0x10000 - 0x4000) m v) r.base with
      | some act => act (copyOf r a).1 (copyOf r a).2
      | none => writeFields (keyOf m a) v

end Sys2Proof.Machine
end

