-- ==== Sys2Proof/Machine/RegView.lean ====
section
/-!
DEFINITION. What a master reads at a register whose content is the block's present state rather than a stored word, window
by window, and what a read changes besides the register's RC fields.
-/
namespace Sys2Proof.Machine

open Sys2Proof

/-- Registers read from the state: the address of the register's first copy, and the value of its copy (i, j), given the
stored word. -/
abbrev RegViews := List (Nat × (Nat → Nat → Nat))

/-- The bits of `f` over 0..n-1 as a map. -/
def bitmap (n : Nat) (f : Nat → Bool) : Nat := ((allBelow n f).map (fun i => 2 ^ i)).sum

/-! ### FE, BB -/

/-- LOAD_MEAS.AGE. -/
def State.loadAge (s : State) (p : Nat) : Nat := match (s.port p).measured with
  | some t => min 255 ((s.acc.ltb - t) / 1000000000)
  | none => 255

def LaneRun.code : LaneRun → Nat
  | .off => 0 | .free => 1 | .search => 2 | .sync => 3 | .receive => 4 | .done => 5

/-- LANE_STATE_n (Table 05.20). -/
def State.laneState (s : State) (n : Nat) : Nat :=
  let l := s.lane n
  l.run.code * 2 ^ 29 + b2n (!l.windows.isEmpty) * 2 ^ 28 + lanePort n * 2 ^ 26 + l.streamN * 2 ^ 16

/-- What a voice does with a staged transmission (Table 05.19). -/
def State.txState (s : State) (x : Staged) : Nat := match x.phase with
  | .onAir => 4
  | .waitLock => 2
  | .armed => if x.lead ≠ 0 && s.reached x.from_ then 3 else 1

/-- VOICE_STATE_v of port `p`: the transmission on the air, or the next one. -/
def State.voiceState (s : State) (p v : Nat) : Nat :=
  let l := s.stagedAt (4 * p + v)
  match l.foldl (fun (b : Option Staged) x => match b with
      | none => some x
      | some y => if y.phase ≠ .onAir && (x.phase = .onAir || decide (tdiff x.trig y.trig < 0)) then some x else some y) none with
  | none => 0
  | some x => l.length * 2 ^ 24 + x.chan * 2 ^ 8 + s.txState x

def State.feView (s : State) (w : Nat) : RegViews := [
  (FE.PORT_STATUS 0, fun p _ => putBit w 7 (s.portDrained p)),
  (FE.LOAD_MEAS 0, fun p _ => putBits w 7 0 (s.loadAge p))]

def State.bbView (s : State) (w : Nat) : RegViews := [
  (BB.DRAIN_STATUS, fun _ _ => bitmap 3 (fun p => (s.stagedOn p).isEmpty) * 2 ^ 8 +
    bitmap 6 (fun c => (List.range 16).all (fun i => (s.lane (16 * c + i)).frame.isNone))),
  (BB.STREAM 0 0, fun p k => putBit (putBits w 22 20 (s.streamLanes p k).length) 0 (!(s.searchers p k).isEmpty)),
  (BB.VOICE_STATE 0 0, fun p v => s.voiceState p v), (BB.LANE_STATE 0, fun n _ => s.laneState n)]

/-! ### MAC, FWD, TM -/

/-- DUTY_USE_j: the charges over the 17 bins ending with the present one, in 0.01 % of DUTY_WINDOW (R249). -/
def State.dutyUse (s : State) (j : Nat) : Nat := match s.activeSlot with
  | none => 0
  | some k =>
    let w := s.sub k j 6 2
    if w = 0 then 0 else min 65535
      (charged (s.mac.charges.filter (fun c => c.port = j / 6 && c.sub = j)) (w * 62500000) 16 s.ns * 10000 / (w * 1000000000))

def State.macView (s : State) : RegViews := [
  (MAC.EUI64_LO, fun _ _ => s.nv.eui), (MAC.EUI64_HI, fun _ _ => s.nv.eui / 2 ^ 32),
  (MAC.DUTY_USE 0, fun j _ => s.dutyUse j), (MAC.TA 0, fun p _ => s.taExt p % 256)]

def State.tmView (s : State) (m : Nat) : RegViews := [
  (TM.LINK_DATA, fun _ _ => s.meta (s.linkSel m)),
  (TM.RING_DRAINED_LO, fun _ _ => bitmap 32 (fun n => s.flag (TM.RING_CTL_DRAINED n))),
  (TM.RING_DRAINED_HI, fun _ _ => bitmap 32 (fun n => s.flag (TM.RING_CTL_DRAINED (n + 32)))),
  (TM.RING_OCC 0, fun n _ => (s.ring n).q.length)]

/-! ### CRY, KEY -/

/-- LANE_STATE_n of the cipher engine (Table 09.17). -/
def State.cryLane (s : State) (n : Nat) : Nat :=
  let st := if s.laneFault n then 3 else if s.wholeOn n then 2 else if s.contexts n ≠ 0 then 1 else 0
  let job := match find s.cry.whole n with
    | none => 0
    | some j =>
      let src := match j.owner with | .mac _ _ => 1 | .atom _ => 2 | .dis _ => 3 | .program => 4
      let (slot, gen) := match j.key with
        | some (_, some k) => ((k.slots.head?.map Prod.fst).getD 0, k.gen)
        | _ => (0, 0)
      src * 2 ^ 21 + b2n j.early * 2 ^ 20 + slot * 2 ^ 8 + gen
  st * 2 ^ 29 + s.contexts n * 2 ^ 24 + job

def State.cryView (s : State) : RegViews :=
  let k := s.fld CRY.FC_SEL_SLOT
  [(CRY.FC_LIVE, fun _ _ => s.live k), (CRY.FC_CEIL, fun _ _ => s.ceil k),
   (CRY.LANE_RX, fun _ _ => bitmap 24 (fun n => s.contexts n ≠ 0)), (CRY.LANE_WHOLE, fun _ _ => bitmap 24 s.wholeOn),
   (CRY.JOBQ, fun _ _ => s.cry.jobq.length), (CRY.LANE_STATE 0, fun n _ => s.cryLane n)]

/-- ATTEST_PUB_i: word `i` of X then Y, byte 4i in [31:24] (Table 10.19, R374). -/
def State.attestPub (s : State) (i : Nat) : Nat :=
  if s.nv.rootSet then
    let q := ecdsaPublic s.attestKey
    fieldBe4 (beBytes q.1 32 ++ beBytes q.2 32) i
  else 0
where fieldBe4 (l : List Nat) (i : Nat) : Nat := ofBe ((l.drop (4 * i)).take 4)

def State.keyView (s : State) (m w : Nat) : RegViews :=
  let k := s.fld KEY.SLOT_SEL_SLOT
  let x := s.kslot k
  [(KEY.KEY_STATUS, fun _ _ => putBit (putBit w 0 s.keyDrained) 2 s.nv.rootSet),
   (KEY.NMAP_DATA, fun _ _ => s.nmap (s.fld (KEY.NMAP_SEL_NIDX.of m))),
   (KEY.SLOT_INFO, fun _ _ => x.parent * 2 ^ 16 + b2n (s.orphaned k) * 2 ^ 15 + x.level * 2 ^ 8 +
     x.los / 4 % 16 * 2 ^ 4 + x.attr % 16),
   (KEY.SLOT_EPOCH, fun _ _ => x.epoch), (KEY.ROOT_CTL, fun _ _ => 2 * b2n s.nv.rootSet),
   (KEY.ATTEST_PUB 0, fun i _ => s.attestPub i)]

/-! ### ACC, RTC -/

def State.accView (s : State) (w : Nat) : RegViews :=
  let n := s.fld ACC.TRIG_SEL_N
  let c := s.comp n
  [(ACC.TIME_NS, fun _ _ => s.nsec), (ACC.LTB_LO, fun _ _ => s.acc.ltb), (ACC.SLEW_LEFT, fun _ _ => unsigned 32 s.slewLeftNs),
   (ACC.CLOCK, fun _ _ => putBits (putBit w 23 (s.fld ACC.ACC_STATUS_STATE = 3)) 22 16 s.stratum),
   (ACC.TRIG_CFG, fun _ _ => putBits w 8 0 s.freeComps),
   (ACC.TRIG_INFO, fun _ _ => b2n c.armed * 2 ^ 31 + compClass n * 2 ^ 28 + (if compClass n = 4 then c.owner * 2 ^ 16 else 0)),
   (ACC.TRIG_AT_LO, fun _ _ => c.at_.toNat), (ACC.TRIG_AT_HI, fun _ _ => c.at_.toNat / 2 ^ 32)]

def State.rtcView (s : State) : RegViews := [(RTC.NOW_SUBSEC, fun _ _ => s.subsec)]

/-! ### SEQ, MGT -/

def CoreRun.code : CoreRun → Nat
  | .held => 0 | .idle => 1 | .running => 2 | .halted => 3

/-- DOP_STATE (Table 03.15). -/
def Core.dopState (c : Core) : Nat :=
  (match c.wait with | .query q _ => 2 ^ 24 + (q.opcode - 0x30) * 2 ^ 16 | _ => 0) + c.dpost

/-- CORE_STATE (Table 02.22). -/
def Core.state (c : Core) : Nat :=
  c.statePc * 2 ^ 16 + b2n c.badBind * 2 ^ 8 + b2n c.faulted * 2 ^ 4 + b2n c.marked * 2 ^ 3 + c.run.code

def State.seqView (s : State) : RegViews := [
  (SEQ.CORE_STATE 0, fun n _ => (s.core n).state), (SEQ.PEND 0, fun n _ => (s.core n).pend.toNat),
  (SEQ.DOP_ERR 0, fun n _ => (s.core n).derr.toNat), (SEQ.DOP_STATE 0, fun n _ => (s.core n).dopState),
  (SEQ.XSEG_INIT 0, fun n _ => (s.core n).xseg)]
def State.mgtView (s : State) : RegViews := [(MGT.PEND, fun _ _ => (s.core 64).pend.toNat)]

/-! ### HIF, TWN, PLT -/

/-- HIF_ATTN (R569). -/
def State.hifAttn (s : State) : Nat :=
  let ring := (List.range 64).any (fun n => bit (s.pair HIF.HIF_RINGS_OUT_LO HIF.HIF_RINGS_OUT_HI) n &&
    bit (s.pair HIF.ATTN_MASK_LO HIF.ATTN_MASK_HI) n && !(s.ring n).q.isEmpty)
  putBit (putBit (s.regN HIF.HIF_ATTN) 0 ring) 3 (s.flag PLT.BOOT_INFO_RECOVERY)

def State.hifView (s : State) : RegViews := [
  (HIF.HIF_ATTN, fun _ _ => s.hifAttn), (HIF.HIF_ATTN_SET, fun _ _ => 4 * s.fld HIF.HIF_ATTN_SW)]

/-- CKPT_STATUS.BUSY: a checkpoint is being sent or applied. -/
def State.ckptBusy (s : State) : Bool := if s.role = 2 then decide (s.acc.ltb < s.twn.ckBusy) else s.twn.applying.isSome

def State.twnView (s : State) (w : Nat) : RegViews := [
  (TWN.TWN_STATE, fun _ _ => putBit (putBit w 7 (match s.twn.lastHb with
      | some t => decide (s.acc.ltb ≤ t + 30000000) | none => false)) 6 (s.fld ACC.ACC_STATUS_STATE = 2)),
  (TWN.CKPT_STATUS, fun _ _ => putBit w 1 s.ckptBusy)]

/-- FUSE_INFO (Table 15.19). -/
def State.fuseInfo (s : State) : Nat :=
  s.nv.keyRev * 2 ^ 16 + b2n (s.nv.tktHash ≠ 0) * 2 ^ 12 + b2n (s.nv.eui ≠ 0) * 2 ^ 11 +
    b2n (s.tableHash = s.nv.tktHash) * 2 ^ 10 + s.nv.hwClass

/-- LC_NONCE_i: word `i` of the nonce drawn last. -/
def State.nonceWord (s : State) (i : Nat) : Nat := match s.nv.nonce with
  | some l => ofBe ((l.drop (4 * i)).take 4)
  | none => 0

def State.pltView (s : State) : RegViews := [
  (PLT.PD_BUSY, fun _ _ => bitmap 21 (fun d => 2 ≤ d && s.busy d)),
  (PLT.PD_VOTE 0, fun d _ => if d < 2 then 0 else s.votes d),
  (PLT.EPOCH, fun _ _ => s.nv.epoch), (PLT.LC_STATE, fun _ _ => s.lifeCycle), (PLT.FUSE_INFO, fun _ _ => s.fuseInfo),
  (PLT.LC_NONCE 0, fun i _ => s.nonceWord i)]

/-! ### DIS, IST, EVT, GPIO -/

def State.disView (s : State) : RegViews := [
  (DIS.FLOOR_ID 0, fun k _ => b2n (s.floorValid k) * 2 ^ 31 + s.floorId k), (DIS.FLOOR_VER 0, fun k _ => s.floorVer k)]

/-- Whether unit `u` of class `c` holds a soft repair. -/
def State.softRepaired (s : State) (c u : Nat) : Bool :=
  (c = 4 || c = 5) && s.ist.soft.any (fun e => bit e 29 = decide (c = 5) && bits e 28 21 = u)

/-- RES (Table 17.9). -/
def IstUnit.res (r : IstUnit) (soft : Bool) : Nat :=
  r.outcome * 2 ^ 30 + b2n r.done * 2 ^ 29 + b2n r.repaired * 2 ^ 28 + b2n soft * 2 ^ 27 + b2n r.forced * 2 ^ 26 +
    min r.incRun 255 * 2 ^ 16 + r.passes

def State.istView (s : State) (w : Nat) : RegViews :=
  let c := s.fld IST.RES_SEL_CLASS
  let u := s.fld IST.RES_SEL_UNIT
  let r := s.istUnit c u
  let pin := getD s.ist.pins (s.fld IST.PIN_SEL_BALL) (7, 0)
  [(IST.IST_CTL, fun _ _ => putBit w 2 s.istDrained),
   (IST.IST_STATUS, fun _ _ => putBits (putBits w 24 16 s.istMa) 15 8 s.ist.running.length),
   (IST.RES, fun _ _ => r.res (s.softRepaired c u)), (IST.RES_SIG, fun _ _ => r.sig.toNat), (IST.RES_EXP, fun _ _ => (Config.istExpected c).toNat),
   (IST.PIN_RES, fun _ _ => pin.2 * 2 ^ 16 + pin.1), (IST.REPAIR_ENT, fun _ _ => s.repairs.getD (s.fld IST.REPAIR_SEL_ENTRY) 0)]

/-- LOG_Wi of the selected entry; 0 beyond COUNT. -/
def State.logWord (s : State) (i : Nat) : Nat := match s.evt.log[s.fld EVT.LOG_SEL_ENTRY]? with
  | some e => [e.w0, e.w1, e.w2, e.w3].getD i 0
  | none => 0

def State.evtView (s : State) (w : Nat) : RegViews := [
  (EVT.EVT_CTL, fun _ _ => putBit w 1 (!s.evt.latches.isEmpty)), (EVT.HOST_EVQ, fun _ _ => s.hostEvqValue),
  (EVT.LOG_STAT, fun _ _ => putBits w 6 0 s.evt.log.length), (EVT.LOG_W 0, fun i _ => s.logWord i)]
def State.gpioView (s : State) (w : Nat) : RegViews := [
  (GPIO.PIN 0, fun n _ => putBit w 4 (bit (s.regN GPIO.GPIO_IN) n))]

/-! ### Any register -/

/-- The views of window `n`, for master `m` and stored word `w`. -/
def State.windowViews (s : State) (n m w : Nat) : RegViews := match n with
  | 0 => s.feView w | 1 => s.bbView w | 2 => s.macView | 4 => s.tmView m | 5 => s.cryView | 6 => s.keyView m w
  | 7 => s.accView w | 8 => s.rtcView | 9 => s.seqView | 10 => s.mgtView | 11 => s.hifView | 14 => s.twnView w
  | 15 => s.pltView | 16 => s.disView | 17 => s.istView w | 18 => s.evtView w | 19 => s.gpioView w | _ => []

/-- The word master `m` reads at register address `a`. -/
def State.regRead (s : State) (m a : Nat) : Nat :=
  if isFilt a then s.regN a else match findRow a with
  | none => 0
  | some r =>
    let w := s.readStored (keyOf m a)
    match find (s.windowViews (a / 0x10000 - 0x4000) m w) r.base with
    | some f => f (copyOf r a).1 (copyOf r a).2 % 2 ^ 32
    | none => w

/-- What the read changes: its RC fields, the captures, the queue's head (R3, R383, R416, R605). -/
def readEffect (m a : Nat) : Effect := seq [
  afterRead (keyOf m a),
  if a = ACC.TIME_NS then timeNsRead m else if a = ACC.LTB_LO then ltbLoRead m else if a = RTC.NOW_SUBSEC then subsecRead m
  else if a = EVT.HOST_EVQ then hostEvqRead
  else match findRow a with
    | some r => when (r.base = SEQ.CORE_STATE 0) (setCore (copyOf r a).1 fun c => { c with badBind := false })
    | none => nothing]

/-- Master `m` reads the register at `a` and goes on with the word. A read of LC_NONCE_0 draws a new nonce first (R506). -/
def regReading (m a : Nat) (k : Nat → Effect) : Effect :=
  seq [when (a = PLT.LC_NONCE 0) nonceRead, ask fun s => seq [readEffect m a, k (s.regRead m a)]]

end Sys2Proof.Machine
end

