-- ==== Sys2Proof/Machine/Bus.lean ====
section
/-!
DEFINITION. An access of a master over the fabric: Table 01.8's permissions, bus errors (R4, R40, R41, R88, R482), accesses
to stopped domains with and without AUTO_WAKE (R450, R451), and the access itself; the commands that stand for a register
write or read by a master (R3, R7, R8, R16).
-/
namespace Sys2Proof.Machine

open Sys2Proof

/-! ### Permission -/

/-- Table 01.8: whether master `m` may read, or write, at address `a`. -/
def mayAccess (m a : Nat) (write : Bool) : Bool :=
  match regionOf a with
  | .mram => !write || m = 64
  | .flacon | .dram => true
  | .seqI _ | .seqD _ => m = 64 || (!write && decide (65 ≤ m))
  | .mgt => m = 64
  | .engine => !write && (m = 64 || m = 66)
  | .window w =>
    if w = 15 ∧ 0x400F0108 ≤ a ∧ a ≤ 0x400F0150 then !write || decide (m ≤ 65)
    else if w = 10 ∨ w = 15 ∨ w = 17 then !write || decide (64 ≤ m)
    else !write || decide (m ≤ 65)
  | .unmapped => false

/-- Where the management core may write MRAM (R482). -/
def State.mramWritable (s : State) (a : Nat) : Bool :=
  let area := areaAddr (s.fld PLT.BOOT_INFO_BANK)
  decide (0x3A0000 ≤ a) ||
  (s.lifeCycle = 2 && (decide (0x1000 ≤ a ∧ a < 0x5000) || decide (0x10000 ≤ a ∧ a < 0x11000))) ||
  (s.nv.runs && decide (area ≤ a ∧ a < area + 30720))

/-- Whether an access of `k` bytes is refused under R40 or R41: a bus error that the error log records. -/
def State.busRefused (s : State) (m a k : Nat) (write : Bool) : Bool :=
  !mayAccess m a write ||
  (match regionOf a with
    | .mram => write && !s.mramWritable a
    | .dram => decide (s.dramTop < a + k)
    | _ => false) ||
  (decide (4 < k) && !sameRegion a k)

/-- Whether an access breaks the width rule of register windows (R4) or writes an instruction RAM in use (R88). -/
def State.busUnfit (s : State) (a k : Nat) (write : Bool) : Bool := match regionOf a with
  | .window _ => k ≠ 4 || a % 4 ≠ 0
  | .seqI c => write && (List.range 8).any (fun i =>
      let r := (s.core (8 * c + i)).run
      r = .idle || r = .running)
  | _ => false

/-- The power domain an access consults (R6, R38). -/
def busDomain (a : Nat) : Nat := match regionOf a with
  | .seqI c | .seqD c => 4 + c
  | .mgt => 3
  | .dram => 17
  | .window _ => regDomain a
  | _ => 2

/-- Whether a domain answers accesses: ON, and for PD_BKP the interface not locked out (R423). -/
def State.answers (s : State) (d : Nat) : Bool := s.on d && !(d = 1 && s.rtc.locked)

/-! ### Stopped domains (R450) -/

/-- An access to a stopped domain fails: OFF_LOG and OFF_ADDR, EV_PLT_OFFACCESS, and its log entry. -/
def offAccess (m d a : Nat) (write auto : Bool) : Effect := seq [
  ask fun s => when (!s.flag PLT.OFF_LOG_VALID) (seq [
    setReg PLT.OFF_LOG (2 ^ 31 + m * 2 ^ 14 + b2n auto * 2 ^ 13 + b2n write * 2 ^ 12 + d),
    setReg PLT.OFF_ADDR_LO (a % 2 ^ 32), setReg PLT.OFF_ADDR_HI (a / 2 ^ 32)]),
  fire 8 (d + b2n write * 2 ^ 5 + b2n auto * 2 ^ 6 + m * 2 ^ 7),
  logEntry 0x7F 2 3 (a % 2 ^ 32) (a / 2 ^ 32 % 16 + m * 2 ^ 4 + b2n write * 2 ^ 11 + d * 2 ^ 12)]

/-- An access stalls on domain `d` and sets vote AUTO, unless the domain is waking already (R451). -/
def stallOn (kind m d a k : Nat) (write : Bool) (v : Nat) : Effect := ask fun s => seq [
  when (!s.plt.waking.contains d) (seq [setFld (voteBit d 5) 1, voteSet d]),
  setPlt fun p => { p with stalled := p.stalled ++ [⟨kind, m, d, a, k, write, v, s.acc.ltb⟩] }]

/-- Whether domain `d` has AUTO_WAKE. -/
def State.autoWake (s : State) (d : Nat) : Bool := decide (3 ≤ d) && bit (s.regN PLT.PLT_EXP) d

/-! ### Accesses -/

/-- A read that its target serves. -/
def busServeRead (m a k : Nat) (bad : Effect) (ok : Nat → Effect) : Effect := match regionOf a with
  | .window _ => regReading m a ok
  | _ => readMem a k bad (fun l => ok (ofLe l))

/-- A write that its target serves. -/
def busServeWrite (m a k v : Nat) (bad ok : Effect) : Effect := match regionOf a with
  | .window _ => seq [regWrite m a v, ok]
  | .mgt => seq [noteStale 64 (a - 0x104C0000) k, writeMem a (leBytes v k) bad ok]
  | _ => writeMem a (leBytes v k) bad ok

/-- The checks of an access: `bad` after a bus error, `stall` where it waits for an AUTO_WAKE domain, else `serve`. -/
def busAccess (m a k : Nat) (write : Bool) (bad stall serve : Effect) : Effect := ask fun s =>
  let d := busDomain a
  if s.busRefused m a k write then seq [logBusError m a write, bad]
  else if s.busUnfit a k write then bad
  else if s.answers d then serve
  else if s.autoWake d then stall
  else seq [offAccess m d a write false, bad]

/-- Master `m` reads `k` bytes at `a`. -/
def busRead (kind m a k : Nat) (bad : Effect) (ok : Nat → Effect) : Effect :=
  busAccess m a k false bad (stallOn kind m (busDomain a) a k false 0) (busServeRead m a k bad ok)

/-- Master `m` writes the `k` bytes of `v` at `a`. -/
def busWrite (kind m a k v : Nat) (bad ok : Effect) : Effect :=
  busAccess m a k true bad (stallOn kind m (busDomain a) a k true v) (busServeWrite m a k v bad ok)

/-! ### Register accesses by themselves -/

/-- Whether master `m` has power, and PD_CORE is ON for any master but IST (R451). -/
def State.masterUp (s : State) (m : Nat) : Bool :=
  m = 66 || (s.on 2 && s.on (if m < 65 then coreDomain m else 19))

/-- In recovery the ROM alone serves the host port, and this command is not one of its operations. -/
def State.masterActs (s : State) (m : Nat) : Bool := s.masterUp m && !(m = 65 && s.flag PLT.BOOT_INFO_RECOVERY)

/-- REGISTER_WRITE: master `m` writes 2^`size` bytes of `v` at an address of a register window. -/
def registerWrite (m a size v : Nat) : Effect := ask fun s =>
  when (s.masterActs m && (match regionOf a with | .window _ => true | _ => false))
    (busWrite 0 m a (2 ^ size) (v % 2 ^ (8 * 2 ^ size)) nothing nothing)
def execRegisterWrite (m : Fin 67) (a : BitVec 36) (size : Fin 4) (v : BitVec 64) := run (registerWrite m a.toNat size v.toNat)

/-- RC_FIELD_READ: master `m` reads the register at `a`. -/
def execRcFieldRead (m : Fin 67) (a : BitVec 36) := run (ask fun s =>
  when (s.masterActs m && (match regionOf a.toNat with | .window _ => true | _ => false))
    (busRead 0 m a.toNat 4 nothing (fun _ => nothing)))

/-- WINDOW_LOCK_SET: a write of 1 to LOCK of window `w`. -/
def windowLockSet (m w : Nat) : Effect := registerWrite m (0x40007FF8 + w * 0x10000) 2 1
def execWindowLockSet (m : Fin 67) (w : Fin 20) := run (windowLockSet m w)

/-- EXPERT_UNLOCK_WRITE of window `w`. -/
def expertUnlockWrite (m w v : Nat) : Effect := registerWrite m (0x40007FFC + w * 0x10000) 2 v
def execExpertUnlockWrite (m : Fin 67) (w : Fin 20) (v : Word) := run (expertUnlockWrite m w v.toNat)

/-- The register of calibrated field `i` of port `p` (Table 15.4), 6 being TRIM. -/
def calRegister (p i : Nat) : Nat :=
  [FE.TXPWR_CAL p, FE.RXGAIN_CAL p, FE.TEMP_CAL p, FE.LOADDET_CAL p, BB.RXDLY_CAL p, BB.TXDLY_CAL p].getD i RTC.TRIM_CAL

/-- CAL_USER_WRITE: a write of a register that holds an X_USER field (R16). -/
def execCalUserWrite (m : Fin 67) (p : Fin 3) (i : Fin 7) (v : Word) := run (registerWrite m (calRegister p i) 2 v.toNat)

end Sys2Proof.Machine
end

