-- ==== Sys2Proof/Machine/Targets.lean ====
section
/-!
DEFINITION. What device operations do at the engines that serve them, Q-class and P-class (chapter 03), and how their
answers and errors come back to a core; posted writes that complete (R22-R27), LDF's return and STF's bus error (R54).
-/
namespace Sys2Proof.Machine

open Sys2Proof

/-! ### Targets -/

/-- The power domain and the window base of the engine that serves an opcode (Table 01.7). -/
def islandDomain (op : Nat) : Nat := match op with
  | 0x32 => 0 | 0x37 | 0x38 | 0x39 => 16 | 0x3A | 0x3B => 12 | _ => 2
def islandBase (op : Nat) : Nat := match op with
  | 0x32 => 0x40070000 | 0x33 | 0x34 | 0x3E => 0x40040000 | 0x35 | 0x36 => 0x40030000 | 0x37 => 0x40060000
  | 0x38 | 0x39 => 0x40050000 | 0x3A | 0x3B => 0x40010000 | _ => 0x40020000

/-- The target of a device operation: a stopped domain is met as an access to the base of its window (R105). -/
def opAccess (kind n op : Nat) (write : Bool) (bad serve : Effect) : Effect := ask fun s =>
  let d := islandDomain op
  if s.answers d then serve
  else if s.autoWake d then stallOn kind n d (islandBase op) 0 write 0
  else seq [offAccess n d (islandBase op) write false, bad]

/-- Whether an access of core `n` at `a` waits for its domain. -/
def State.stalledAt (s : State) (kind n a : Nat) : Bool :=
  s.plt.stalled.any (fun e => e.kind = kind && e.master = n && e.addr = a)

/-! ### Answers -/

/-- The target answers the Q-class operation core `n` waits for. -/
def answer (n code : Nat) (rd dres : Word) (blk : List Word) : Effect := setCore n fun c => match c.wait with
  | .query q _ => { c with wait := .query q (some ⟨code, 0, rd, dres, blk, false⟩) }
  | _ => c

/-- A refusal whose rd the spec does not state. -/
def answerFree (n code : Nat) : Effect := withFree 32 fun f => answer n code (BitVec.ofNat 32 f) 0#32 []

/-- A bus error answers it (R104). -/
def answerBusError (n : Nat) : Effect := setCore n fun c => match c.wait with
  | .query q _ => { c with wait := .query q (some ⟨0x0D, 0, 0xFFFFFFFF#32, 0#32, [], true⟩) }
  | _ => c

/-! ### Triggers (R109, R110, R405-R409) -/

/-- A free PROGRAM comparator, the search starting at `f`: which of several is not said (assumption 30). -/
def State.freeComp (s : State) (f : Nat) : Option Nat :=
  ((List.range 416).map (fun i => 96 + (f + i) % 416)).find? (fun i => !(s.comp i).armed)

/-- The comparators core `n` holds armed. -/
def State.compsHeld (s : State) (n : Nat) : Nat :=
  (s.acc.comps.filter (fun e => decide (96 ≤ e.1) && e.2.armed && e.2.owner = n)).length

/-- TRIG ARM of action word `w` at instant `t`. -/
def trigArm (n : Nat) (w : Word) (t : Instant) : Effect := withFree 9 fun f => ask fun s =>
  let busy := fun (quota : Bool) => seq [count (ACC.CNT_LO 2), fireFirst (ACC.CNT 2) 0 82 (n + b2n quota * 2 ^ 7),
    answer n 5 0xFFFFFFFF#32 0#32 []]
  match s.freeComp f with
  | none => busy false
  | some i =>
    if s.fld ACC.TRIG_CFG_QUOTA ≠ 0 && decide (s.fld ACC.TRIG_CFG_QUOTA ≤ s.compsHeld n) then busy true
    else if tdiff t s.now < 100 then seq [count (ACC.CNT_HI 2), answer n 4 0xFFFFFFFF#32 0#32 []]
    else seq [setComp i fun _ => ⟨true, t, n, true, false, w, s.acc.eccInject⟩, setAcc fun a => { a with eccInject := false },
      answer n 0 (BitVec.ofNat 32 i) 0#32 []]

/-- TRIG CANCEL of comparator `i`: only the latest arming, and only its own core's, counts. -/
def trigCancel (n i : Nat) : Effect := ask fun s =>
  let c := s.comp i
  if i < 96 || !c.everArmed || c.owner ≠ n then answer n 0 0#32 0#32 []
  else if c.fired then answer n 0x0A 0#32 0#32 []
  else seq [disarm i, answer n 0 0#32 0#32 []]

/-! ### Rings and buffers (R114, R115, R118) -/

/-- A program's push: an idle item is discarded. -/
def programPush (r : Nat) (d : Desc) (full disabled ok : Effect) : Effect :=
  if d.type = 0xF then seq [idlePush, ok]
  else seq [pointerCheck r, ask fun s =>
    if !s.flag (TM.RING_CTL_EN r) then disabled else if s.hasRoom r then seq [append r d, ok] else full]

/-- A posted push that is dropped: counted, its chain returned. -/
def pushDrop (r : Nat) (d : Desc) : Effect := seq [overflow r, freeDesc d]

/-- The descriptor an L block holds. -/
def descOf (l : List Word) : Desc := ⟨l.getD 0 0#32, l.getD 1 0#32, l.getD 2 0#32, l.getD 3 0#32⟩

/-- POP's answer. -/
def popAnswer (n : Nat) (x : Option Desc) : Effect := match x with
  | none => answer n 1 idleItem.w0 idleItem.w1 idleItem.words
  | some d => answer n (if d.poison then 9 else 0) d.w0 d.w1 d.words

/-! ### Node table, keys, radio, MAC -/

/-- LOOKUP's answer (Table 03.10). -/
def lookupServe (n sub : Nat) (a b : Word) : Effect := ask fun s =>
  if !s.flag FWD.FWD_CTL_EN then answerFree n 0x0C
  else lookupKey sub (a.toNat + if sub = 0 then b.toNat * 2 ^ 32 else 0) fun e => match e with
    | some e => answer n 0 (BitVec.ofNat 32 (e.nidx + b2n e.managed * 2 ^ 17)) (BitVec.ofNat 32 (e.port + e.gen % 16 * 2 ^ 16)) []
    | none => answer n 3 0xFFFFFFFF#32 0#32 []

/-- The transmission that a TXAT block and its instant name (Table 03.13). -/
def txatReq (l : List Word) (t : Instant) : TxReq :=
  let w := fun i => (l.getD i 0#32).toNat
  { port := bits (w 0) 1 0, chan := bits (w 0) 8 2, mode := bits (w 0) 12 9, request := signed 8 (bits (w 0) 20 13)
    fcs := bit (w 0) 21, cca := bit (w 0) 22, buf := bits (w 1) 13 0, len := bits (w 2) 7 0, tag := l.getD 3 0#32
    cring := bits (w 1) 27 22, owner := .program, ident := 0, trig := t }

/-- TXAT. -/
def txatServe (n : Nat) (l : List Word) (t : Instant) : Effect :=
  stage (txatReq l t) (answerFree n) (fun v c => answer n 0 (BitVec.ofNat 32 v) (BitVec.ofNat 32 c) [])

/-- LISTEN. -/
def listenServe (n : Nat) (l : List Word) (t : Instant) : Effect :=
  let w0 := (l.getD 0 0#32).toNat
  listen (bits w0 1 0) (bits w0 8 2) (bits w0 12 9) t (bits (l.getD 1 0#32).toNat 19 0) (answerFree n)
    (fun v => answer n 0 (BitVec.ofNat 32 v) 0#32 [])

/-- MACREQ DLCOUNT. -/
def dlCountServe (n i : Nat) : Effect := onNode i (answerFree n)
  (fun _ => ask fun s => answer n 0 (BitVec.ofNat 32 (s.dlRing i).length) 0#32 [])

/-- MACREQ ACK; it is not answered while its frame's measurement is awaited. -/
def ackServe (n : Nat) (l : List Word) (flags : Word) (t : Instant) : Effect := ask fun s =>
  when (!(s.flag MAC.MAC_CTL_EN && s.ackWaits (descOf l))) (macAck (descOf l) t (flags.getLsbD 0) (flags.getLsbD 1) (answerFree n)
    (fun v c => answer n 0 (BitVec.ofNat 32 v) (BitVec.ofNat 32 c) []))

/-- The cipher job of a block of Table 03.12. -/
def jobOf (sealing : Bool) (l : List Word) : CryJob :=
  let w := fun i => (l.getD i 0#32).toNat
  { sealing := sealing, ref := l.getD 0 0#32, buf := bits (w 1) 13 0, cring := bits (w 1) 21 16
    len := if bits (w 2) 16 0 = 0 then 65536 else bits (w 2) 16 0, hdrLen := bits (w 2) 24 17, level := bits (w 2) 27 25
    alg := bits (w 2) 30 28, early := bit (w 2) 31, tag := l.getD 3 0#32, owner := .program }

/-! ### Serving -/

/-- What a Q-class operation does at its target. -/
def serveAt (n : Nat) (q : QReq) : Effect := match q.opcode with
  | 0x32 => if q.sub = 0 then trigArm n q.a q.ta else trigCancel n q.a.toNat
  | 0x33 => programPush q.a.toNat (descOf q.blk) (answer n 2 0#32 0#32 []) (answer n 0x0C 0#32 0#32 []) (answer n 0 0#32 0#32 [])
  | 0x34 => pop q.a.toNat (popAnswer n)
  | 0x35 => lookupServe n q.sub q.a q.b
  | 0x37 => queueLoad (.kfetch n) q.a
  | 0x3A => txatServe n q.blk q.ta
  | 0x3B => listenServe n q.blk q.ta
  | 0x3D => if q.sub = 0 then dlCountServe n q.a.toNat else ackServe n q.blk q.b q.ta
  | _ => withBuf q.a.toNat (answer n 2 0xFFFFFFFF#32 0#32 []) (fun b => answer n 0 (BitVec.ofNat 32 b) 0#32 [])

/-- Whether the KFETCH of core `n` waits at KEY. -/
def State.fetching (s : State) (n : Nat) : Bool :=
  s.key.loads.any (fun l => l.1 = .kfetch n) || s.key.derivations.any (fun d => d.users.any (fun u => u.1 = .kfetch n))

/-- The request of core `n` reaches its target, once all its earlier writes have completed (R24). -/
def serveQuery (n : Nat) : Effect := ask fun s => match (s.core n).wait with
  | .query q none => when ((s.core n).dpost = 0 && !s.stalledAt 3 n (islandBase q.opcode) && !s.fetching n)
      (opAccess 3 n q.opcode false (answerBusError n) (serveAt n q))
  | _ => nothing

/-- What a P-class operation does at its target; `done` takes the code of Table 03.5 it ends with. An operation whose
handshake the target holds open does nothing yet. -/
def postAt (op sub : Nat) (a b : Word) (l : List Word) (t : Instant) (done : Nat → Effect) : Effect := ask fun s =>
  let i := a.toNat
  match op with
  | 0x33 => programPush i (descOf l) (seq [pushDrop i (descOf l), done 2]) (seq [pushDrop i (descOf l), done 0x0C]) (done 0)
  | 0x36 =>
    let w := fun i => (l.getD i 0#32).toNat
    if !s.flag FWD.FWD_CTL_EN then done 0x0C
    else seq [pushLearn (bits (w 2) 24 24) (w 0 + w 1 * 2 ^ 32) (bits (w 2) 15 0) (bits (w 2) 23 16) (bit (w 3) 17)
      (bits (w 3) 16 0) false none, done 0]
  | 0x38 | 0x39 =>
    let j := jobOf (op = 0x38) l
    if !s.flag CRY.CRY_CTL_EN then seq [freeChain j.buf, done 0x0C]
    else when (decide (s.cry.jobq.length < 64)) (seq [submitJob j, done 0])
  | 0x3C =>
    if !s.flag MAC.MAC_CTL_EN then done 0x0C
    else seq [match sub with
      | 0 => calAdd i t b.toNat
      | 1 => calRemove i
      | 2 => calMove i t
      | _ => calInterval i b.toNat, done 0]
  | 0x3D =>
    if sub = 2 then if !s.flag MAC.MAC_CTL_EN then seq [freeDesc (descOf l), done 0x0C] else onNode i
        (fun c => seq [freeDesc (descOf l), done c]) (fun _ => dlQueue i (descOf l) done (done 0))
    else onNode i done (fun _ => seq [macSearch i, done 0])
  | _ => if 16384 ≤ i then done 0x0E else if s.isFree i then seq [freeChain i, done 0x0E] else seq [freeChain i, done 0]

/-! ### Posted writes (R22-R25, R54, R100) -/

/-- The target that orders a posted item, and the address by which a stalled one is known. -/
def Posted.address : Posted → Nat
  | .store a _ _ => a
  | .op o _ _ _ _ _ => islandBase o
  | _ => 0

/-- The items of a core that wait to complete, with their places in its queue. -/
def Core.waiting (c : Core) : List (Nat × Posted) := (enumFrom 0 c.posted).filter (fun e => e.2.waits)

/-- What a completed posted write lets go on: a core stalled at its fifth write, or a request behind the last one. -/
def postedRoom (n : Nat) : Effect := ask fun s => match (s.core n).wait with
  | .room p => when (decide ((s.core n).dpost < 4)) (seq [setCore n fun c => { c with posted := c.posted ++ [p] }, retire n id])
  | .query _ none => serveQuery n
  | _ => nothing

/-- The item at place `j` leaves the queue, or stays in it as an error response `r`. -/
def endPosted (n j : Nat) (r : Option Posted) : Effect := seq [
  setCore n fun c => { c with posted := match r with
    | some p => c.posted.set j p
    | none => c.posted.eraseIdx j },
  postedRoom n]

/-- Posted item `i` of core `n` completes at its target, if no earlier one has the same target. -/
def postedComplete (n i : Nat) : Effect := ask fun s =>
  let ws := (s.core n).waiting
  match ws[i]? with
  | none => nothing
  | some (j, p) =>
    if (ws.take i).any (fun e => regionOf e.2.address = regionOf p.address) || s.stalledAt 2 n p.address then nothing
    else match p with
      | .store a k v => busWrite 2 n a k v (endPosted n j (some .busError)) (endPosted n j none)
      | .op o sub a b l t => opAccess 2 n o true (endPosted n j (some .busError)) (postAt o sub a b l t
          (fun c => endPosted n j (if c = 0 then none else some (.refused (o - 0x30) c))))
      | _ => nothing
def execPostedWriteComplete (n : Fin 65) (i : Fin 4) := run (postedComplete n i)

/-- The place of the first posted item that `p` names. -/
def Core.firstPosted (c : Core) (p : Posted → Bool) : Option (Nat × Posted) := (enumFrom 0 c.posted).find? (fun e => p e.2)

def Posted.isBusError : Posted → Bool
  | .busError => true
  | _ => false
def Posted.isRefused : Posted → Bool
  | .refused _ _ => true
  | _ => false

/-- STF_BUS_ERROR: the error response of a posted write reaches the core (R54, R104). -/
def stfBusError (n : Nat) : Effect := ask fun s => match (s.core n).firstPosted Posted.isBusError with
  | some (j, _) => setCore n fun c => { c with posted := c.posted.eraseIdx j, be := true }
  | none => nothing
def execStfBusError (n : Fin 65) := run (stfBusError n)

/-- DERR after an error of code `code` of an operation (R100). -/
def derrAfter (d : Word) (op code : Nat) : Word :=
  let n := min (bits d.toNat 31 16 + 1) 0xFFFF
  if d.getLsbD 15 then BitVec.ofNat 32 (putBits d.toNat 31 16 n)
  else BitVec.ofNat 32 (code + op * 2 ^ 8 + 2 ^ 15 + n * 2 ^ 16)

/-- ASYNC_ERROR_RESPONSE: a P-class operation's error reaches DERR. -/
def asyncError (n : Nat) : Effect := ask fun s => match (s.core n).firstPosted Posted.isRefused with
  | some (j, .refused op code) => setCore n fun c => { c with posted := c.posted.eraseIdx j, derr := derrAfter c.derr op code }
  | _ => nothing
def execAsyncErrorResponse (n : Fin 65) := run (asyncError n)

/-! ### LDF (R24, R54) -/

/-- Whether core `n` absorbs bus errors. -/
def State.absorbs (s : State) (n : Nat) : Bool := n ≠ 64 && s.flag (SEQ.CORE_EXP_BERR_NOFAULT n)

/-- The bus error of an LDF into register `rd` at `a`. -/
def ldfBad (n rd a : Nat) : Effect := ask fun s =>
  if s.absorbs n then retire n (fun c => { c.setG rd 0xFFFFFFFF#32 with be := true })
  else seq [setCore n fun c => { c with wait := .none }, fault n 6 (a % 2 ^ 32)]

/-- LDF_RETURN: the read is served and its value, or bus error, arrives. -/
def ldfReturn (n : Nat) : Effect := ask fun s => match (s.core n).wait with
  | .ldf rd a k => when ((s.core n).dpost = 0 && !s.stalledAt 1 n a)
      (busRead 1 n a k (ldfBad n rd a) (fun v => retire n (fun c => c.setG rd (BitVec.ofNat 32 v))))
  | _ => nothing
def execLdfReturn (n : Fin 65) := run (ldfReturn n)

/-! ### The end of a Q-class operation (R96-R104, R134) -/

/-- The operation ends with core changes `f`: the core goes on, or a KILL that came while it waited takes effect. -/
def queryEnd (n : Nat) (f : Core → Core) : Effect := ask fun s =>
  if (s.core n).killReq then seq [setCore n fun c => { f c with pc := c.pc + 4, wait := .none }, ask fun t => halt n (t.core n).pc]
  else retire n f

/-- The output block of a POP is written before the next instruction. -/
def outWrite (n a : Nat) (l : List Word) : Effect := forEach (enumFrom 0 l) (fun e => lStore n (a + 4 * e.1) 4 e.2.toNat)

/-- A CANCEL writes no rd. -/
def QReq.writesRd (q : QReq) : Bool := q.opcode ≠ 0x32 || q.sub = 0

/-- The answer of a Q-class operation reaches the core. -/
def queryFinish (n : Nat) (q : QReq) (r : Resp) : Effect := ask fun s =>
  let op := q.opcode - 0x30
  let lat := s.waited n
  if !r.busErr then seq [outWrite n q.outBlk r.blk, queryEnd n fun c =>
    { (if q.writesRd then c.setG q.rd r.rd else c).setDstat op r.code r.detail lat with dres := r.dres }]
  else if s.absorbs n then seq [when (q.opcode = 0x34) (outWrite n q.outBlk idleItem.words), queryEnd n fun c =>
    { (c.setG q.rd 0xFFFFFFFF#32).setDstat op 0x0D 0 lat with dres := 0#32, be := true }]
  else seq [setCore n fun c => { c with wait := .none }, deviceFault n 3 op, ask fun t =>
    when ((s.core n).killReq && (t.core n).run = .idle) (halt n (t.core n).pc)]

/-- Q_RESPONSE: the answer arrives; a request not yet served is served first, if it can be. -/
def qResponse (n : Nat) : Effect := seq [serveQuery n, ask fun s => match (s.core n).wait with
  | .query q (some r) => queryFinish n q r
  | _ => nothing]
def execQResponse (n : Fin 65) := run (qResponse n)

end Sys2Proof.Machine
end

