-- ==== Sys2Proof/Machine/DeviceOps.lean ====
section
/-!
DEFINITION. Device operations as a core issues them (R95-R130): the checks at issue with their ALIGN, LRANGE and DEVICE
faults, the request sent or posted; and the management core's XCOPY (R84).
-/
namespace Sys2Proof.Machine

open Sys2Proof

/-! ### Checks at issue (R97, R103) -/

/-- Reads the L block at `a`. -/
def lBlock (n a : Nat) (k : List Word → Effect) : Effect := ask fun s =>
  if a % 16 ≠ 0 then fault n 3 a
  else if lSize n < a + 16 then fault n 4 a
  else k ((List.range 4).map (fun i => BitVec.ofNat 32 (s.word (lBase n + a + 4 * i))))

/-- `e` where `ok` holds, otherwise the DEVICE fault RANGE of opcode `op`. -/
def inRange (n op : Nat) (ok : Bool) (e : Effect) : Effect := if ok then e else deviceFault n 1 (op - 0x30)

/-- A key reference has no reserved bit set (R121). -/
def keyRefOk (r : Word) : Bool := if r.getLsbD 31 then bits r.toNat 30 17 = 0 else bits r.toNat 30 12 = 0

/-- An action word of Table 03.8. -/
def actionOk (w : Word) : Bool :=
  let v := w.toNat
  bits v 27 15 = 0 && bits v 7 5 = 0 && match bits v 31 28 with
    | 1 => decide (bits v 14 8 ≤ 64) && !bit v 4
    | 2 => decide (bits v 14 8 ≤ 23) && bits v 3 0 = 0
    | _ => false

/-- A port code that LEARN may name (R261). -/
def State.portCodeOk (s : State) (c : Nat) : Bool := match bits c 15 12 with
  | 0 => bits c 11 10 = 0 && bits c 9 8 ≠ 3 && !bit c 7 && validChan (bits c 9 8) (bits c 6 0)
  | 1 => bits c 11 10 = 0 && s.flag (FWD.RELAY_VALID (bits c 9 0))
  | 2 | 3 | 4 | 5 => bits c 11 0 = 0
  | _ => false

/-- The fields of a learn block (Table 03.11). -/
def State.learnOk (s : State) (l : List Word) : Bool :=
  let w := fun i => (l.getD i 0#32).toNat
  bits (w 2) 31 25 = 0 && bits (w 3) 31 18 = 0 && (bits (w 2) 24 24 = 0 || w 1 = 0) && s.portCodeOk (bits (w 2) 15 0)

/-- The fields of a job block (Table 03.12). -/
def jobOk (l : List Word) : Bool :=
  let w := fun i => (l.getD i 0#32).toNat
  keyRefOk (l.getD 0 0#32) && bits (w 1) 15 14 = 0 && bits (w 1) 31 22 = 0 && decide (bits (w 2) 30 28 ≤ 3)

/-- The fields of a TXAT block, and of a LISTEN block (Table 03.13, R177). -/
def txatOk (l : List Word) : Bool :=
  let w := fun i => (l.getD i 0#32).toNat
  bits (w 0) 31 23 = 0 && bits (w 1) 21 14 = 0 && bits (w 1) 31 28 = 0 && bits (w 2) 31 8 = 0 &&
    radioOk (bits (w 0) 1 0) (bits (w 0) 8 2) (bits (w 0) 12 9) &&
    decide (1 ≤ bits (w 2) 7 0 ∧ bits (w 2) 7 0 ≤ maxPsdu (bits (w 0) 12 9))
def listenOk (l : List Word) : Bool :=
  let w := fun i => (l.getD i 0#32).toNat
  bits (w 0) 31 13 = 0 && bits (w 1) 31 20 = 0 && w 2 = 0 && w 3 = 0 && bits (w 1) 19 0 ≠ 0 &&
    radioOk (bits (w 0) 1 0) (bits (w 0) 8 2) (bits (w 0) 12 9)

/-! ### Requests -/

/-- Core `n` sends a Q-class request and stalls; with no earlier write outstanding it reaches its target now. -/
def request (n : Nat) (q : QReq) : Effect := seq [
  ask fun s => setCore n fun c => { c with wait := .query q none, since := s.acc.ltb }, serveQuery n]

/-- The request of the instruction word `w` of a core, with block `l` and output block `out`. -/
def reqOf (w : Nat) (c : Core) (l : List Word) (out : Nat) : QReq :=
  ⟨opcode w, fSub w, fRd w, c.gr (fRs w), c.gr (fRt w), l, out, c.tr (fTa w)⟩

/-- The posted operation of the instruction word `w`, with block `l`. -/
def postOf (w : Nat) (c : Core) (l : List Word) : Posted := .op (opcode w) (fSub w) (c.gr (fRs w)) (c.gr (fRt w)) l (c.tr (fTa w))

/-- A ring number, and a NIDX, in range (R103). -/
def ringOk (r : Word) : Bool := decide (r.toNat ≤ 63)
def nidxOk (r : Word) : Bool := decide (r.toNat ≤ 131071)

/-! ### The operations -/

/-- TRIG ARM: an action word outside Table 03.8 faults ACTION. -/
def execTrigArm (n : Fin 65) := run (issue n .trigArm fun w c =>
  if actionOk (c.gr (fRs w)) then request n (reqOf w c [] 0) else deviceFault n 2 2)
def execTrigCancel (n : Fin 65) := run (issue n .trigCancel fun w c =>
  inRange n 0x32 (decide ((c.gr (fRs w)).toNat ≤ 511)) (request n (reqOf w c [] 0)))

/-- PUSH, posted, or with WAIT a request. -/
def execPush (n : Fin 65) := run (issue n .push fun w c =>
  inRange n 0x33 (ringOk (c.gr (fRs w))) (lBlock n (c.gr (fRt w)).toNat fun l =>
    if fSub w = 1 then request n (reqOf w c l 0) else post n (postOf w c l)))
def execPop (n : Fin 65) := run (issue n .pop fun w c =>
  inRange n 0x34 (ringOk (c.gr (fRs w))) (lBlock n (c.gr (fRt w)).toNat fun _ => request n (reqOf w c [] (c.gr (fRt w)).toNat)))

def execLookupEui64 (n : Fin 65) := run (issue n .lookupEui fun w c => request n (reqOf w c [] 0))
def execLookupShort (n : Fin 65) := run (issue n .lookupShort fun w c => request n (reqOf w c [] 0))
def execLearn (n : Fin 65) := run (issue n .learn fun w c => lBlock n (c.gr (fRs w)).toNat fun l => ask fun s =>
  inRange n 0x36 (s.learnOk l) (post n (postOf w c l)))

def execKfetch (n : Fin 65) := run (issue n .kfetch fun w c =>
  inRange n 0x37 (keyRefOk (c.gr (fRs w))) (request n (reqOf w c [] 0)))
def execSeal (n : Fin 65) := run (issue n .seal fun w c => lBlock n (c.gr (fRs w)).toNat fun l =>
  inRange n 0x38 (jobOk l) (post n (postOf w c l)))
def execOpenJob (n : Fin 65) := run (issue n .open_ fun w c => lBlock n (c.gr (fRs w)).toNat fun l =>
  inRange n 0x39 (jobOk l) (post n (postOf w c l)))

def execTxat (n : Fin 65) := run (issue n .txat fun w c => lBlock n (c.gr (fRs w)).toNat fun l =>
  inRange n 0x3A (txatOk l) (request n (reqOf w c l 0)))
def execListen (n : Fin 65) := run (issue n .listen fun w c => lBlock n (c.gr (fRs w)).toNat fun l =>
  inRange n 0x3B (listenOk l) (request n (reqOf w c l 0)))

/-- CALUPD: an interval of 0 is out of range. -/
def execCalupdAdd (n : Fin 65) := run (issue n .calAdd fun w c =>
  inRange n 0x3C (nidxOk (c.gr (fRs w)) && c.gr (fRt w) ≠ 0#32) (post n (postOf w c [])))
def execCalupdRemove (n : Fin 65) := run (issue n .calRemove fun w c => inRange n 0x3C (nidxOk (c.gr (fRs w))) (post n (postOf w c [])))
def execCalupdMove (n : Fin 65) := run (issue n .calMove fun w c => inRange n 0x3C (nidxOk (c.gr (fRs w))) (post n (postOf w c [])))
def execCalupdInterval (n : Fin 65) := run (issue n .calInterval fun w c =>
  inRange n 0x3C (nidxOk (c.gr (fRs w)) && c.gr (fRt w) ≠ 0#32) (post n (postOf w c [])))

def execMacreqDlcount (n : Fin 65) := run (issue n .macDlcount fun w c =>
  inRange n 0x3D (nidxOk (c.gr (fRs w))) (request n (reqOf w c [] 0)))
/-- MACREQ ACK: flags other than FP and AUTOFP are out of range. -/
def execMacreqAck (n : Fin 65) := run (issue n .macAck fun w c => lBlock n (c.gr (fRs w)).toNat fun l =>
  inRange n 0x3D (decide ((c.gr (fRt w)).toNat < 4)) (request n (reqOf w c l 0)))
/-- MACREQ DLQUEUE: a TYPE other than DLMAC is out of range (R246). -/
def execMacreqDlqueue (n : Fin 65) := run (issue n .macDlqueue fun w c =>
  inRange n 0x3D (nidxOk (c.gr (fRs w))) (lBlock n (c.gr (fRt w)).toNat fun l =>
    inRange n 0x3D ((descOf l).type = 6) (post n (postOf w c l))))
def execMacreqSearch (n : Fin 65) := run (issue n .macSearch fun w c => inRange n 0x3D (nidxOk (c.gr (fRs w))) (post n (postOf w c [])))

/-- BUF ALLOC: classes 0 and 1 only. -/
def execBufAlloc (n : Fin 65) := run (issue n .bufAlloc fun w c =>
  inRange n 0x3E (decide ((c.gr (fRs w)).toNat ≤ 1)) (request n (reqOf w c [] 0)))
def execBufFree (n : Fin 65) := run (issue n .bufFree fun w c => post n (postOf w c []))

/-! ### XCOPY (R84) -/

/-- An XCOPY's access: a domain with AUTO_WAKE is waited for before anything moves, so one still stopped fails (R451). -/
def xcopyAccess (a : Nat) (write : Bool) (stop serve : Effect) : Effect :=
  busAccess 64 a 4 write stop (seq [offAccess 64 (busDomain a) a write true, stop]) serve

/-- The words of an XCOPY of mode `mode` from `src` to `dst`, `k` words left; `stop` takes the failing address. -/
def xcopyWords (mode : Nat) (pat : Word) (stop : Nat → Effect) : Nat → Nat → Nat → Effect
  | 0, _, _ => retire 64 id
  | k + 1, src, dst => ask fun s =>
    let go := xcopyWords mode pat stop k (src + 4) (dst + 4)
    let put := fun (v : Nat) (e : Effect) => xcopyAccess dst true (stop dst) (busServeWrite 64 dst 4 v (stop dst) e)
    let fold := fun (v : Nat) => setCore 64 fun c => { c with xcrc := BitVec.ofNat 32 (crc32From c.xcrc.toNat (leBytes v 4)) }
    if (s.core 64).run ≠ .running then nothing
    else if mode = 3 then put pat.toNat go
    else xcopyAccess src false (stop src) (busServeRead 64 src 4 (stop src) fun v =>
      if mode = 0 then put v go else seq [fold v, if mode = 1 then put v go else go])

/-- The first address of an XCOPY of `k` words whose domain must wake first. -/
def State.xcopyWaits (s : State) (mode k src dst : Nat) : Option (Nat × Bool) :=
  let waits := fun (a : Nat) (write : Bool) => !s.busRefused 64 a 4 write && !s.answers (busDomain a) && s.autoWake (busDomain a)
  match (List.range k).find? (fun i => mode ≠ 3 && waits (src + 4 * i) false) with
  | some i => some (src + 4 * i, false)
  | none => ((List.range k).find? (fun i => mode ≠ 2 && waits (dst + 4 * i) true)).map (fun i => (dst + 4 * i, true))

/-- The addresses of an XCOPY, with their [35:32] from XSEG. -/
def xSrc (c : Core) (w : Nat) : Nat := (c.gr (fRs w)).toNat + c.xseg % 16 * 2 ^ 32
def xDst (c : Core) (w : Nat) : Nat := (c.gr (fRt w)).toNat + c.xseg / 16 % 16 * 2 ^ 32

/-- XCOPY's move with its checks done; `wake` says whether it may wait for a domain. A bus error faults FBUS. -/
def xcopyMove (mode : Nat) (wake : Bool) (w : Nat) (c : Core) : Effect := ask fun s =>
  let k := (c.gr (fRd w)).toNat / 4
  match if wake then s.xcopyWaits mode k (xSrc c w) (xDst c w) else none with
  | some (a, write) => stallOn 5 64 (busDomain a) a 4 write 0
  | none => xcopyWords mode (c.gr (fRs w)) (fun a => fault 64 6 (a % 2 ^ 32)) k (xSrc c w) (xDst c w)

/-- XCOPY in mode `mode`: length and addresses multiples of 4, a length of at most 0x10_0000 (assumption 29). Earlier
writes complete first (R24). -/
def xcopyOp (n : Nat) (r : Row) (mode : Nat) : Effect := ask fun s => when
    ((s.core n).dpost = 0 && !s.plt.stalled.any (fun e => e.kind = 5)) (issue n r fun w c =>
  let len := (c.gr (fRd w)).toNat
  if len % 4 ≠ 0 then fault n 3 len
  else if mode ≠ 3 ∧ xSrc c w % 4 ≠ 0 then fault n 3 (c.gr (fRs w)).toNat
  else if mode ≠ 2 ∧ xDst c w % 4 ≠ 0 then fault n 3 (c.gr (fRt w)).toNat
  else if 0x100000 < len then fault n 3 len
  else xcopyMove mode true w c)
def execXcopyCopy (n : Fin 65) := run (xcopyOp n .xcopyCopy 0)
def execXcopyCopycrc (n : Fin 65) := run (xcopyOp n .xcopyCopyCrc 1)
def execXcopyCrc (n : Fin 65) := run (xcopyOp n .xcopyCrc 2)
def execXcopyFill (n : Fin 65) := run (xcopyOp n .xcopyFill 3)

/-- The domain an XCOPY waited for did not wake in time: the copy runs as far as it can. -/
def xcopyTimeout : Effect := ask fun s =>
  let mode := match rowOf (s.fetch 64) with
    | .xcopyCopy => 0 | .xcopyCopyCrc => 1 | .xcopyCrc => 2 | _ => 3
  when ((s.core 64).run = .running) (xcopyMove mode false (s.fetch 64) (s.core 64))

end Sys2Proof.Machine
end

