-- ==== Sys2Proof/Machine/Hif.lean ====
section
/-!
DEFINITION. The host port (R559-R570): select, transactions with their header, checks, accesses and responses, aborts, and
the registers it acts on. Multi-byte fields of a transaction are little-endian.
-/
namespace Sys2Proof.Machine

open Sys2Proof

def setHif (f : Hif → Hif) : Effect := fun s => [.hif (f s.hif)]

/-- HRDY (R561): with HSEL_N deasserted, low for attention; with it asserted, high when HIF is ready for the next phase. -/
def State.hrdyHigh (s : State) : Bool :=
  if s.hif.selected then s.on 19 && s.hif.stall.isNone && !s.hif.spent else s.hifAttn = 0

/-! ### Header (R563, R564) -/

/-- CRC-16 with polynomial 0x1021 from 0xFFFF, highest bit first. -/
def hcrc (l : List Nat) : Nat :=
  l.foldl (fun c b => (List.range 8).foldl (fun x _ => if 0x8000 ≤ x then Nat.xor (2 * x % 65536) 0x1021 else 2 * x % 65536)
    (Nat.xor c (b % 256 * 256))) 0xFFFF

/-- The fields of a header: CMD, ARG, ADDR. -/
def hCmd (h : List Nat) : Nat := fieldLe h 0 1
def hArg (h : List Nat) : Nat := fieldLe h 1 1
def hAddr (h : List Nat) : Nat := fieldLe h 2 4
def hOp (h : List Nat) : Nat := hCmd h % 16

/-- Whether a header's command is malformed (R564, Table 18.1). -/
def badCmd (h : List Nat) : Bool :=
  let op := hOp h
  !(1 ≤ op ∧ op ≤ 5) || hCmd h / 32 ≠ 0 || (bit (hCmd h) 4 && op ≠ 4) ||
  (if op ≤ 2 then hAddr h % 4 ≠ 0 || (decide (hAddr h < 2 ^ 31) && decide (2 ^ 31 < hAddr h + 4 * (hArg h + 1)))
   else hAddr h ≠ 0 || (op = 3 && hArg h ≠ 0))

/-- The physical address of a host address (R566). -/
def State.hostPhys (s : State) (h : Nat) : Nat :=
  if h < 2 ^ 31 then h else s.fld HIF.HIF_WIN_BASE * 2 ^ 31 + h % 2 ^ 31

/-- Whether an access of `k` words from `a` is one that recovery serves (R498). -/
def recoveryAccess (a k : Nat) (write : Bool) : Bool := (List.range k).all fun i => match regionOf (a + 4 * i) with
  | .window w => w = 11 || w = 13 || w = 15 || w = 17
  | .mram => !write
  | .dram | .flacon | .seqI _ | .seqD _ | .mgt | .engine => write
  | .unmapped => false

/-! ### Responses -/

/-- The response: status block, payload and RCRC; the transaction is in its response phase. -/
def respond (st done : Nat) (payload : List Nat) : Effect := setHif fun h =>
  let l := [st, 0] ++ leBytes done 2 ++ payload
  { h with resp := l ++ leBytes (crc32 l) 4, open_ := true, stall := none }

/-- A status with nothing performed. -/
def refuseHost (st : Nat) : Effect := respond st 0 []

/-- A counted failure, with EV_HIF_ERROR at the first since HIF_CNT was read: causes 0 HCRC, 1 DCRC, 2 abort, 3 BADCMD. -/
def hostError (f : Fld) (cause : Nat) : Effect := seq [count f, fireFirst HIF.HIF_CNT 0 84 cause]

/-! ### Transactions -/

/-- The beats of host bytes, high nibble first. -/
def nibblesOf (l : List Nat) : List Nat := l.flatMap (fun b => [b / 16 % 16, b % 16])

/-- Whether a transaction may begin. -/
def State.hostReady (s : State) : Bool := s.hif.selected && !s.hif.open_ && !s.hif.spent && s.hif.stall.isNone && s.on 19

/-- A transaction of operation `op` with header `h`: its checks, then `k`. A good header that names another operation is
another command's, and does nothing here. `served` says whether recovery serves it. -/
def hostBegin (op : Nat) (h : List Nat) (served : State → Bool) (k : Effect) : Effect := ask fun s =>
  if !s.hostReady || h.length ≠ 8 then nothing
  else if hcrc (h.take 6) ≠ fieldLe h 6 2 then seq [hostBeats (nibblesOf h), hostError HIF.HIF_CNT_CRC_ERR 0, refuseHost 1]
  else if decide (1 ≤ hOp h ∧ hOp h ≤ 5) && hOp h ≠ op then nothing
  else seq [hostBeats (nibblesOf h),
    if badCmd h then seq [hostError HIF.HIF_CNT_BADCMD 3, refuseHost 4]
    else if s.flag PLT.BOOT_INFO_RECOVERY && !served s then refuseHost 7
    else k]

/-- The host's data bytes with DCRC, checked, then `k` on the bytes without it. -/
def hostData (len : Nat) (data : List Nat) (k : List Nat → Effect) : Effect :=
  if data.length ≠ len + 4 then nothing
  else seq [hostBeats (nibblesOf data),
    if crc32 ((data.take len).map (· % 256)) ≠ fieldLe data len 4 then seq [hostError HIF.HIF_CNT_CRC_ERR 1, refuseHost 2]
    else k ((data.take len).map (· % 256))]

/-! ### READ and WRITE (R565) -/

/-- A READ or WRITE ends with status `st`: words not read are 0xFFFF_FFFF. A reset that covered PD_HIF leaves no
response. -/
def hostEnd (r : HostRun) (st : Nat) : Effect := inDomain 19
  (respond st r.done (if r.write then [] else r.data ++ List.replicate (4 * r.left) 0xFF))

/-- The bytes of the next access: one word of a window, or up to 32 aligned bytes of memory. -/
def HostRun.piece (r : HostRun) : Nat := match regionOf r.addr with
  | .window _ => 4
  | _ => min (32 - r.addr % 32) (4 * r.left)

/-- The accesses still to be made, in ascending order, at most `fuel` of them. -/
def hostAccesses : Nat → HostRun → Effect
  | 0, r => hostEnd r 0
  | fuel + 1, r =>
    if r.left = 0 then hostEnd r 0
    else
      let k := r.piece
      let bad := hostEnd r 3
      let v := ofLe (r.rest.take k)
      let next := { r with addr := r.addr + k, left := r.left - k / 4, rest := r.rest.drop k, done := r.done + k / 4 }
      let stall := seq [stallOn 4 65 (busDomain r.addr) r.addr k r.write v, setHif fun h => { h with stall := some r }]
      inDomain 19 (busAccess 65 r.addr k r.write bad stall
        (if r.write then busServeWrite 65 r.addr k v bad (hostAccesses fuel next)
         else busServeRead 65 r.addr k bad (fun x => hostAccesses fuel { next with data := r.data ++ leBytes x k })))

/-- Starts or resumes a run; a run has at most 256 words. -/
def hostRun (r : HostRun) : Effect := hostAccesses 256 r

/-- HOST_WRITE. -/
def hostWrite (h data : List Nat) : Effect := hostBegin 1 h
  (fun s => recoveryAccess (s.hostPhys (hAddr h)) (hArg h + 1) true)
  (hostData (4 * (hArg h + 1)) data fun l => ask fun s => hostRun ⟨true, s.hostPhys (hAddr h), hArg h + 1, l, 0, []⟩)
def execHostWrite (header data : List Nat) := run (hostWrite header data)

/-- HOST_READ. -/
def hostRead (h : List Nat) : Effect := hostBegin 2 h
  (fun s => recoveryAccess (s.hostPhys (hAddr h)) (hArg h + 1) false)
  (ask fun s => hostRun ⟨false, s.hostPhys (hAddr h), hArg h + 1, [], 0, []⟩)
def execHostRead (header : List Nat) := run (hostRead header)

/-- HOST_STATUS: HIF_ATTN. What DONE then holds is not said. -/
def hostStatus (h : List Nat) : Effect := hostBegin 3 h (fun _ => true)
  (withFree 16 fun f => ask fun s => respond 0 f (leBytes s.hifAttn 4))
def execHostStatus (header : List Nat) := run (hostStatus header)

/-! ### POP and PUSH (R567, R568) -/

/-- Whether a mask names ring `r`. -/
def State.ringOpen (s : State) (lo hi r : Nat) : Bool := decide (r < 64) && bit (s.pair lo hi) r

/-- A length padded to a multiple of 4. -/
def pad4 (n : Nat) : Nat := (n + 3) / 4 * 4

/-- The response of a POP that delivers `d`. -/
def popRespond (r : Nat) (d : Desc) (stream : Bool) : Effect := withFree 16 fun f => ask fun s =>
  let words := d.words.flatMap (fun w => leBytes w.toNat 4)
  let send := stream && d.len ≠ 0
  seq [when send (reportShort d.buf d.len),
    respond 0 f (words ++ if send then s.chainBytes d.buf d.len ++ List.replicate (pad4 d.len - d.len) 0 else []),
    setHif fun h => { h with popped := some (r, d, stream) }]

/-- HOST_POP: a descriptor in the ring's return slot comes before the ring's head. -/
def hostPop (h : List Nat) : Effect := hostBegin 4 h (fun _ => false) (ask fun s =>
  let r := hArg h
  let stream := bit (hCmd h) 4
  if !s.ringOpen HIF.HIF_RINGS_OUT_LO HIF.HIF_RINGS_OUT_HI r then refuseHost 8
  else match find s.hif.returned r with
    | some d => seq [setHif fun x => { x with returned := eraseKey x.returned r }, count HIF.HIF_CNT_RETURNED, popRespond r d stream]
    | none => pop r fun x => match x with
      | some d => popRespond r d stream
      | none => withFree 16 fun f => respond 5 f (idleItem.words.flatMap (fun w => leBytes w.toNat 4)))
def execHostPop (header : List Nat) := run (hostPop header)

/-- The descriptor of a PUSH. -/
def pushDesc (l : List Nat) : Desc := mkDesc (fieldLe l 0 4) (fieldLe l 4 4) (fieldLe l 8 4) (fieldLe l 12 4)

/-- A host push of a descriptor whose chain, if it has one, is built: FULL returns it. -/
def hostAppend (r : Nat) (d : Desc) : Effect := seq [pointerCheck r, ask fun s =>
  if s.hasRoom r then seq [append r d, withFree 16 fun f => respond 0 f []]
  else seq [overflow r, freeDesc d, refuseHost 6]]

/-- HOST_PUSH. -/
def hostPush (h data : List Nat) : Effect := hostBegin 5 h (fun _ => false) (ask fun s =>
  let r := hArg h
  let len := (pushDesc data).len
  if !s.ringOpen HIF.HIF_RINGS_IN_LO HIF.HIF_RINGS_IN_HI r then refuseHost 8
  else hostData (16 + pad4 len) data fun l =>
    let d := pushDesc l
    let clean : Desc := { d with w0 := BitVec.ofNat 32 (putBit d.w0.toNat 4 false) }
    if d.type = 0xF ∨ 4096 < len then seq [hostError HIF.HIF_CNT_BADCMD 3, refuseHost 4]
    else if len = 0 then hostAppend r clean
    else withBytes (slice l 16 (16 + len)) (refuseHost 6) fun b =>
      hostAppend r { clean with w1 := BitVec.ofNat 32 (putBits d.w1.toNat 13 0 b) })
def execHostPush (header data : List Nat) := run (hostPush header data)

/-! ### Select, deselect, abort (R562, R570) -/

/-- HOST_SELECT: HSEL_N asserts. A slice of the host-port balls yields (R552); PD_HIF is held, or woken where WAKE_EN lets
the select wake it. -/
def hostSelect : Effect := ask fun s => when (!s.hif.selected) (seq [
  setHif fun h => { h with selected := true, open_ := false, spent := false },
  yieldUnit 8 0,
  when (!s.on 19 && bit (s.fld PLT.WAKE_EN_EN) 2) (if s.fld PLT.DD_CTL_STATE = 3 then wakeCheck else voteSet 19)])
def execHostSelect := run hostSelect

/-- HOST_DESELECT: HSEL_N deasserts after the response's last byte; the chain of a streamed POP returns to Flacon. -/
def hostDeselect : Effect := ask fun s => when (s.hif.selected && (s.hif.open_ || s.hif.spent)) (seq [
  match s.hif.popped with
  | some (_, d, true) => freeDesc d
  | _ => nothing,
  setHif fun h => { h with selected := false, open_ := false, spent := false, popped := none }])
def execHostDeselect := run hostDeselect

/-- HOST_ABORT: HSEL_N deasserts early, or HCLK has been silent for 10 µs. A POP whose response is cut short is kept in its
ring's return slot; accesses still to be made are not. -/
def hostAbort (silent : Bool) : Effect := ask fun s => when (s.hif.selected && !s.hif.spent) (
  if !s.on 19 then when (!silent) (setHif fun h => { h with selected := false })
  else seq [
    setHif fun h => { h with
      selected := silent, spent := silent, open_ := false, stall := none, popped := none
      returned := match h.popped with
        | some (r, d, _) => insertKey h.returned r d
        | none => h.returned },
    setPlt fun p => { p with stalled := p.stalled.filter (fun e => e.kind ≠ 4) },
    hostError HIF.HIF_CNT_ABORT 2])
def execHostAbort (silent : Bool) := run (hostAbort silent)

/-! ### Registers -/

/-- HIF_FREE_WRITE and HIF_ATTN_SET_WRITE; HIF_ATTN_SET lies in PD_AON (R593). -/
def execHifFreeWrite (b : Fin 16384) := run (inDomain 19 (hifFreeWrite b))
def execHifAttnSetWrite := run (attnSetWrite 4)

end Sys2Proof.Machine
end

