-- ==== Sys2Proof/Machine/Wake.lean ====
section
/-!
DEFINITION. A domain reads ON again (R447, R454): what its blocks do at power-up, the next power-ups or the end of the wake,
and the accesses that waited for it; accesses to AUTO_WAKE domains and their time limit (R451).
-/
namespace Sys2Proof.Machine

open Sys2Proof

/-- What the blocks of a domain do when it comes back without its logic state: FE's start-up check and the reset event,
the boot, the calibration loads, a shared activation's role. -/
def domainInit (d : Nat) : Effect := ask fun s => match d with
  | 2 => seq [profileStart s.regActive, when s.plt.resetUp (fire 1 (s.regN PLT.RST_CAUSE))]
  | 3 => setNv fun n => { n with bootDue := true }
  | 12 => forEach [0, 1, 2] (calLoad [4, 5])
  | 13 | 14 | 15 => seq [calLoad [0, 1, 2, 3] (d - 13), tuneAll s.activeSlot]
  | 20 => restoreShadow
  | _ => nothing

/-- The accesses that waited for domain `d` complete; a core's own goes on with its return or completion. -/
def stalledGo (d : Nat) : Effect := ask fun s => seq [
  setPlt fun p => { p with stalled := p.stalled.filter (fun e => e.domain ≠ d) },
  forEach (s.plt.stalled.filter (fun e => e.domain = d)) (fun e => match e.kind with
    | 0 => if e.write then busWrite 0 e.master e.addr e.width e.value nothing nothing
        else busRead 0 e.master e.addr e.width nothing (fun _ => nothing)
    | 4 => ask fun t => match t.hif.stall with
        | some r => seq [setHif fun h => { h with stall := none }, hostRun r]
        | none => nothing
    | _ => nothing)]

/-- The next power-ups start; the last domain of a wake ends it. A rollback goes on to its next restart. -/
def powerNext : Effect := ask fun s =>
  if s.fld PLT.DD_CTL_STATE = 2 then rollbackNext
  else seq [startPowering, ask fun t => when t.plt.waking.isEmpty (seq [
    setPlt fun p => { p with resetUp := false }, when (t.plt.wakeSrc ≠ 0) wakeEnd])]

/-- DOMAIN_POWER_UP. -/
def domainPowerUp (d : Nat) : Effect := ask fun s => match find s.plt.powering d with
  | none => nothing
  | some t => when (decide (t ≤ s.acc.ltb)) (seq [
      setDomain d 2,
      setPlt fun p => { p with powering := eraseKey p.powering d, warm := p.warm.filter (· ≠ d), waking := p.waking.filter (· ≠ d) },
      when (!s.plt.warm.contains d) (domainInit d),
      queueSweep [d], powerNext, stalledGo d])
def execDomainPowerUp (d : Fin 21) := run (domainPowerUp d)

/-- AUTO_WAKE_ACCESS: an access of master `m` to a domain that its AUTO_WAKE bit wakes. -/
def autoWakeAccess (m a size : Nat) (write : Bool) (v : Nat) : Effect := ask fun s =>
  let d := busDomain a
  when (s.masterActs m && s.autoWake d && !s.answers d)
    (if write then busWrite 0 m a (2 ^ size) (v % 2 ^ (8 * 2 ^ size)) nothing nothing
     else busRead 0 m a (2 ^ size) nothing (fun _ => nothing))
def execAutoWakeAccess (m : Fin 67) (a : BitVec 36) (size : Fin 4) (write : Bool) (v : BitVec 64) :=
  run (autoWakeAccess m a.toNat size write v.toNat)

/-- A stalled access fails: the bus error reaches whoever made it. -/
def stalledFails (e : Stalled) : Effect := ask fun s => match e.kind with
  | 1 => match (s.core e.master).wait with
      | .ldf rd a _ => ldfBad e.master rd a
      | _ => nothing
  | 2 => match (s.core e.master).firstPosted (fun p => p.waits && p.address = e.addr) with
      | some (j, _) => endPosted e.master j (some .busError)
      | none => nothing
  | 3 => answerBusError e.master
  | 4 => match s.hif.stall with
      | some r => hostEnd r 3
      | none => nothing
  | 5 => xcopyTimeout
  | _ => nothing

/-- AUTO_WAKE_TIMEOUT: the access has waited 40 µs; the wake goes on. -/
def autoWakeTimeout (m : Nat) : Effect := ask fun s =>
  match s.plt.stalled.find? (fun e => e.master = m && decide (e.since + 40000 ≤ s.acc.ltb)) with
  | none => nothing
  | some e => seq [
      setPlt fun p => { p with stalled := p.stalled.erase e }, when (e.kind ≠ 5) (offAccess m e.domain e.addr e.write true),
      stalledFails e]
def execAutoWakeTimeout (m : Fin 67) := run (autoWakeTimeout m)

end Sys2Proof.Machine
end

