-- ==== Sys2Proof/Machine/Dispatch.lean ====
section
/-!
DEFINITION. The meaning of each command, arm by arm.
-/
namespace Sys2Proof.Machine

open Sys2Proof

/-- The effect of a command on everything but the queue. -/
def exec (i : Instr) (s : State) : Host.Outcome State Fault Refusal :=
  match i with
  | .registerWrite m a size v => Sys2Proof.Machine.execRegisterWrite m a size v s
  | .rcFieldRead m a => Sys2Proof.Machine.execRcFieldRead m a s
  | .windowLockSet m w => Sys2Proof.Machine.execWindowLockSet m w s
  | .expertUnlockWrite m w v => Sys2Proof.Machine.execExpertUnlockWrite m w v s
  | .calUserWrite m p x v => Sys2Proof.Machine.execCalUserWrite m p x v s
  | .add n => Sys2Proof.Machine.execAdd n s
  | .sub n => Sys2Proof.Machine.execSub n s
  | .and n => Sys2Proof.Machine.execAnd n s
  | .or n => Sys2Proof.Machine.execOr n s
  | .xor n => Sys2Proof.Machine.execXor n s
  | .andn n => Sys2Proof.Machine.execAndn n s
  | .shl n => Sys2Proof.Machine.execShl n s
  | .shr n => Sys2Proof.Machine.execShr n s
  | .sar n => Sys2Proof.Machine.execSar n s
  | .ror n => Sys2Proof.Machine.execRor n s
  | .addc n => Sys2Proof.Machine.execAddc n s
  | .subb n => Sys2Proof.Machine.execSubb n s
  | .mul n => Sys2Proof.Machine.execMul n s
  | .mulh n => Sys2Proof.Machine.execMulh n s
  | .mulhu n => Sys2Proof.Machine.execMulhu n s
  | .min n => Sys2Proof.Machine.execMin n s
  | .max n => Sys2Proof.Machine.execMax n s
  | .minu n => Sys2Proof.Machine.execMinu n s
  | .maxu n => Sys2Proof.Machine.execMaxu n s
  | .clz n => Sys2Proof.Machine.execClz n s
  | .popc n => Sys2Proof.Machine.execPopc n s
  | .bswap n => Sys2Proof.Machine.execBswap n s
  | .addi n => Sys2Proof.Machine.execAddi n s
  | .andi n => Sys2Proof.Machine.execAndi n s
  | .ori n => Sys2Proof.Machine.execOri n s
  | .xori n => Sys2Proof.Machine.execXori n s
  | .shifti n => Sys2Proof.Machine.execShifti n s
  | .lui n => Sys2Proof.Machine.execLui n s
  | .bfx n => Sys2Proof.Machine.execBfx n s
  | .bfi n => Sys2Proof.Machine.execBfi n s
  | .cmp n => Sys2Proof.Machine.execCmp n s
  | .cmpi n => Sys2Proof.Machine.execCmpi n s
  | .tcmp n => Sys2Proof.Machine.execTcmp n s
  | .plog n => Sys2Proof.Machine.execPlog n s
  | .mfs n => Sys2Proof.Machine.execMfs n s
  | .mts n => Sys2Proof.Machine.execMts n s
  | .ldb n => Sys2Proof.Machine.execLdb n s
  | .ldbu n => Sys2Proof.Machine.execLdbu n s
  | .ldh n => Sys2Proof.Machine.execLdh n s
  | .ldhu n => Sys2Proof.Machine.execLdhu n s
  | .ldw n => Sys2Proof.Machine.execLdw n s
  | .stb n => Sys2Proof.Machine.execStb n s
  | .sth n => Sys2Proof.Machine.execSth n s
  | .stw n => Sys2Proof.Machine.execStw n s
  | .ldt n => Sys2Proof.Machine.execLdt n s
  | .stt n => Sys2Proof.Machine.execStt n s
  | .ldf n => Sys2Proof.Machine.execLdf n s
  | .ldfReturn n => Sys2Proof.Machine.execLdfReturn n s
  | .stf n => Sys2Proof.Machine.execStf n s
  | .stfBusError n => Sys2Proof.Machine.execStfBusError n s
  | .amoSwap n => Sys2Proof.Machine.execAmoSwap n s
  | .amoAdd n => Sys2Proof.Machine.execAmoAdd n s
  | .amoOr n => Sys2Proof.Machine.execAmoOr n s
  | .amoCas n => Sys2Proof.Machine.execAmoCas n s
  | .xcopyCopy n => Sys2Proof.Machine.execXcopyCopy n s
  | .xcopyCopycrc n => Sys2Proof.Machine.execXcopyCopycrc n s
  | .xcopyCrc n => Sys2Proof.Machine.execXcopyCrc n s
  | .xcopyFill n => Sys2Proof.Machine.execXcopyFill n s
  | .br n => Sys2Proof.Machine.execBr n s
  | .jal n => Sys2Proof.Machine.execJal n s
  | .jalr n => Sys2Proof.Machine.execJalr n s
  | .done n => Sys2Proof.Machine.execDone n s
  | .evctl n => Sys2Proof.Machine.execEvctl n s
  | .fence n => Sys2Proof.Machine.execFence n s
  | .fenceComplete n => Sys2Proof.Machine.execFenceComplete n s
  | .brk n => Sys2Proof.Machine.execBrk n s
  | .trap n => Sys2Proof.Machine.execTrap n s
  | .eret n => Sys2Proof.Machine.execEret n s
  | .tnow n => Sys2Proof.Machine.execTnow n s
  | .tadd n => Sys2Proof.Machine.execTadd n s
  | .taddi n => Sys2Proof.Machine.execTaddi n s
  | .tdiff n => Sys2Proof.Machine.execTdiff n s
  | .tmv n => Sys2Proof.Machine.execTmv n s
  | .handlerWdog n => Sys2Proof.Machine.execHandlerWdog n s
  | .dispatch n => Sys2Proof.Machine.execDispatch n s
  | .doorbellWrite n v => Sys2Proof.Machine.execDoorbellWrite n v s
  | .bindWrite n k v => Sys2Proof.Machine.execBindWrite n k v s
  | .coreStart n => Sys2Proof.Machine.execCoreStart n s
  | .coreHalt n => Sys2Proof.Machine.execCoreHalt n s
  | .coreKill n => Sys2Proof.Machine.execCoreKill n s
  | .coreReset n => Sys2Proof.Machine.execCoreReset n s
  | .startArm => Sys2Proof.Machine.execStartArm s
  | .startRelease => Sys2Proof.Machine.execStartRelease s
  | .xsegInitWrite n v => Sys2Proof.Machine.execXsegInitWrite n v s
  | .twait n => Sys2Proof.Machine.execTwait n s
  | .twaitExpire n => Sys2Proof.Machine.execTwaitExpire n s
  | .tarm n => Sys2Proof.Machine.execTarm n s
  | .tarmDisarm n => Sys2Proof.Machine.execTarmDisarm n s
  | .coreTimerExpire n x => Sys2Proof.Machine.execCoreTimerExpire n x s
  | .trigArm n => Sys2Proof.Machine.execTrigArm n s
  | .trigCancel n => Sys2Proof.Machine.execTrigCancel n s
  | .push n => Sys2Proof.Machine.execPush n s
  | .pop n => Sys2Proof.Machine.execPop n s
  | .qResponse n => Sys2Proof.Machine.execQResponse n s
  | .asyncErrorResponse n => Sys2Proof.Machine.execAsyncErrorResponse n s
  | .lookupEui64 n => Sys2Proof.Machine.execLookupEui64 n s
  | .lookupShort n => Sys2Proof.Machine.execLookupShort n s
  | .learn n => Sys2Proof.Machine.execLearn n s
  | .kfetch n => Sys2Proof.Machine.execKfetch n s
  | .seal n => Sys2Proof.Machine.execSeal n s
  | .openJob n => Sys2Proof.Machine.execOpenJob n s
  | .txat n => Sys2Proof.Machine.execTxat n s
  | .listen n => Sys2Proof.Machine.execListen n s
  | .calupdAdd n => Sys2Proof.Machine.execCalupdAdd n s
  | .calupdRemove n => Sys2Proof.Machine.execCalupdRemove n s
  | .calupdMove n => Sys2Proof.Machine.execCalupdMove n s
  | .calupdInterval n => Sys2Proof.Machine.execCalupdInterval n s
  | .macreqDlcount n => Sys2Proof.Machine.execMacreqDlcount n s
  | .macreqAck n => Sys2Proof.Machine.execMacreqAck n s
  | .macreqDlqueue n => Sys2Proof.Machine.execMacreqDlqueue n s
  | .macreqSearch n => Sys2Proof.Machine.execMacreqSearch n s
  | .bufAlloc n => Sys2Proof.Machine.execBufAlloc n s
  | .bufFree n => Sys2Proof.Machine.execBufFree n s
  | .portEnable p => Sys2Proof.Machine.execPortEnable p s
  | .portDisable p => Sys2Proof.Machine.execPortDisable p s
  | .calReq p => Sys2Proof.Machine.execCalReq p s
  | .calForce p => Sys2Proof.Machine.execCalForce p s
  | .calibrationStart p => Sys2Proof.Machine.execCalibrationStart p s
  | .calForced p => Sys2Proof.Machine.execCalForced p s
  | .calibrationComplete p locks rej => Sys2Proof.Machine.execCalibrationComplete p locks rej s
  | .calRetry p => Sys2Proof.Machine.execCalRetry p s
  | .tempSample p raw => Sys2Proof.Machine.execTempSample p raw s
  | .synthLockLoss p => Sys2Proof.Machine.execSynthLockLoss p s
  | .txLateDrop v j => Sys2Proof.Machine.execTxLateDrop v j s
  | .loadMeasurement p rl phase => Sys2Proof.Machine.execLoadMeasurement p rl phase s
  | .loadClr p => Sys2Proof.Machine.execLoadClr p s
  | .antSelWrite p v => Sys2Proof.Machine.execAntSelWrite p v s
  | .antSelApply p => Sys2Proof.Machine.execAntSelApply p s
  | .paEnAssert p => Sys2Proof.Machine.execPaEnAssert p s
  | .paEnRelease p => Sys2Proof.Machine.execPaEnRelease p s
  | .profileInstall => Sys2Proof.Machine.execProfileInstall s
  | .installComplete => Sys2Proof.Machine.execInstallComplete s
  | .slotLockWrite v => Sys2Proof.Machine.execSlotLockWrite v s
  | .switchArm => Sys2Proof.Machine.execSwitchArm s
  | .switchCancel => Sys2Proof.Machine.execSwitchCancel s
  | .switchArmed => Sys2Proof.Machine.execSwitchArmed s
  | .regionSwitch => Sys2Proof.Machine.execRegionSwitch s
  | .agcStepDown p => Sys2Proof.Machine.execAgcStepDown p s
  | .agcStepUp p => Sys2Proof.Machine.execAgcStepUp p s
  | .streamEnable p k chan mode => Sys2Proof.Machine.execStreamEnable p k chan mode s
  | .streamDisable p k chan mode => Sys2Proof.Machine.execStreamDisable p k chan mode s
  | .laneAttach p => Sys2Proof.Machine.execLaneAttach p s
  | .preambleDetect n peak => Sys2Proof.Machine.execPreambleDetect n peak s
  | .capturePreempt n peak => Sys2Proof.Machine.execCapturePreempt n peak s
  | .sfdDetect n raw power => Sys2Proof.Machine.execSfdDetect n raw power s
  | .sfdTimeout n => Sys2Proof.Machine.execSfdTimeout n s
  | .phrDecode n phr => Sys2Proof.Machine.execPhrDecode n phr s
  | .unitReport n b => Sys2Proof.Machine.execUnitReport n b s
  | .frameEnd n rho evm cfo snr => Sys2Proof.Machine.execFrameEnd n rho evm cfo snr s
  | .outqRelease n => Sys2Proof.Machine.execOutqRelease n s
  | .outqStall n => Sys2Proof.Machine.execOutqStall n s
  | .rxBlankStart p => Sys2Proof.Machine.execRxBlankStart p s
  | .rxBlankEnd p => Sys2Proof.Machine.execRxBlankEnd p s
  | .sampleParityError p k => Sys2Proof.Machine.execSampleParityError p k s
  | .laneCheckFail n => Sys2Proof.Machine.execLaneCheckFail n s
  | .listenWindowOpen n => Sys2Proof.Machine.execListenWindowOpen n s
  | .listenWindowClose n => Sys2Proof.Machine.execListenWindowClose n s
  | .voiceTrigger v j power => Sys2Proof.Machine.execVoiceTrigger v j power s
  | .txEnd v j => Sys2Proof.Machine.execTxEnd v j s
  | .macEnable => Sys2Proof.Machine.execMacEnable s
  | .macDisable => Sys2Proof.Machine.execMacDisable s
  | .nodeAlloc x => Sys2Proof.Machine.execNodeAlloc x s
  | .nodeRelease x => Sys2Proof.Machine.execNodeRelease x s
  | .nodeFlush x => Sys2Proof.Machine.execNodeFlush x s
  | .nodeLoad x => Sys2Proof.Machine.execNodeLoad x s
  | .slotProcess => Sys2Proof.Machine.execSlotProcess s
  | .overflowMigrate => Sys2Proof.Machine.execOverflowMigrate s
  | .authFrame => Sys2Proof.Machine.execAuthFrame s
  | .wakeDecision x => Sys2Proof.Machine.execWakeDecision x s
  | .altWakeExpire x => Sys2Proof.Machine.execAltWakeExpire x s
  | .ackCompletion => Sys2Proof.Machine.execAckCompletion s
  | .recoveryBeacon p => Sys2Proof.Machine.execRecoveryBeacon p s
  | .parentBeacon => Sys2Proof.Machine.execParentBeacon s
  | .parentBeaconMiss => Sys2Proof.Machine.execParentBeaconMiss s
  | .tagAck => Sys2Proof.Machine.execTagAck s
  | .dlAckTimeout x => Sys2Proof.Machine.execDlAckTimeout x s
  | .dlFrameCompletion => Sys2Proof.Machine.execDlFrameCompletion s
  | .recordError x => Sys2Proof.Machine.execRecordError x s
  | .fwdDecision n ns => Sys2Proof.Machine.execFwdDecision n ns s
  | .learnCommit bank => Sys2Proof.Machine.execLearnCommit bank s
  | .holdSweep => Sys2Proof.Machine.execHoldSweep s
  | .ageVisit bank => Sys2Proof.Machine.execAgeVisit bank s
  | .ageRemoval bank => Sys2Proof.Machine.execAgeRemoval bank s
  | .hashSeedWrite v => Sys2Proof.Machine.execHashSeedWrite v s
  | .tableDelete kind => Sys2Proof.Machine.execTableDelete kind s
  | .tableUnpin kind => Sys2Proof.Machine.execTableUnpin kind s
  | .flushGroup => Sys2Proof.Machine.execFlushGroup s
  | .flushPort => Sys2Proof.Machine.execFlushPort s
  | .payselDelivery => Sys2Proof.Machine.execPayselDelivery s
  | .floodJob => Sys2Proof.Machine.execFloodJob s
  | .floodRetry => Sys2Proof.Machine.execFloodRetry s
  | .adaptUpward => Sys2Proof.Machine.execAdaptUpward s
  | .reasmTimeout => Sys2Proof.Machine.execReasmTimeout s
  | .adaptDownward => Sys2Proof.Machine.execAdaptDownward s
  | .fwdEnable => Sys2Proof.Machine.execFwdEnable s
  | .fwdDisable => Sys2Proof.Machine.execFwdDisable s
  | .linkDataWrite m v => Sys2Proof.Machine.execLinkDataWrite m v s
  | .schedulerMove k => Sys2Proof.Machine.execSchedulerMove k s
  | .latencySample => Sys2Proof.Machine.execLatencySample s
  | .reclaimComplete n => Sys2Proof.Machine.execReclaimComplete n s
  | .ringEnable n => Sys2Proof.Machine.execRingEnable n s
  | .ringDisable n => Sys2Proof.Machine.execRingDisable n s
  | .ringFlush n => Sys2Proof.Machine.execRingFlush n s
  | .schedulerEnable k => Sys2Proof.Machine.execSchedulerEnable k s
  | .schedulerDisable k => Sys2Proof.Machine.execSchedulerDisable k s
  | .rxJob => Sys2Proof.Machine.execRxJob s
  | .wholeLaneDispatch => Sys2Proof.Machine.execWholeLaneDispatch s
  | .keyLoad => Sys2Proof.Machine.execKeyLoad s
  | .rxJobFinish cl a => Sys2Proof.Machine.execRxJobFinish cl a s
  | .fcCeilingComplete k => Sys2Proof.Machine.execFcCeilingComplete k s
  | .cipherJobEnd cl => Sys2Proof.Machine.execCipherJobEnd cl s
  | .laneParityError cl a => Sys2Proof.Machine.execLaneParityError cl a s
  | .cryEnable => Sys2Proof.Machine.execCryEnable s
  | .cryDisable => Sys2Proof.Machine.execCryDisable s
  | .keyGenerate k => Sys2Proof.Machine.execKeyGenerate k s
  | .keyImport m k => Sys2Proof.Machine.execKeyImport m k s
  | .keyUnwrap k => Sys2Proof.Machine.execKeyUnwrap k s
  | .keyDerive k => Sys2Proof.Machine.execKeyDerive k s
  | .keyErase k => Sys2Proof.Machine.execKeyErase k s
  | .keyExport k => Sys2Proof.Machine.execKeyExport k s
  | .keyExportNode k => Sys2Proof.Machine.execKeyExportNode k s
  | .keyAttest k => Sys2Proof.Machine.execKeyAttest k s
  | .keyOpEnd => Sys2Proof.Machine.execKeyOpEnd s
  | .rootGen good => Sys2Proof.Machine.execRootGen good s
  | .keyStoreLoad => Sys2Proof.Machine.execKeyStoreLoad s
  | .nmapWrite m v => Sys2Proof.Machine.execNmapWrite m v s
  | .nodeKeyDerive e => Sys2Proof.Machine.execNodeKeyDerive e s
  | .rngFail => Sys2Proof.Machine.execRngFail s
  | .keyParityError kind x => Sys2Proof.Machine.execKeyParityError kind x s
  | .keyEnable => Sys2Proof.Machine.execKeyEnable s
  | .keyDisable => Sys2Proof.Machine.execKeyDisable s
  | .timeNsRead m => Sys2Proof.Machine.execTimeNsRead m s
  | .ltbLoRead m => Sys2Proof.Machine.execLtbLoRead m s
  | .rtcWrite => Sys2Proof.Machine.execRtcWrite s
  | .rtcWriteExecute => Sys2Proof.Machine.execRtcWriteExecute s
  | .sourceChange src => Sys2Proof.Machine.execSourceChange src s
  | .holdWrite force => Sys2Proof.Machine.execHoldWrite force s
  | .rateWrite hi => Sys2Proof.Machine.execRateWrite hi s
  | .step abs => Sys2Proof.Machine.execStep abs s
  | .slewStart v => Sys2Proof.Machine.execSlewStart v s
  | .slewComplete => Sys2Proof.Machine.execSlewComplete s
  | .servoMeasurement => Sys2Proof.Machine.execServoMeasurement s
  | .softTimeout => Sys2Proof.Machine.execSoftTimeout s
  | .holdErrUpdate => Sys2Proof.Machine.execHoldErrUpdate s
  | .replicaCheck x large => Sys2Proof.Machine.execReplicaCheck x large s
  | .comparatorFire x => Sys2Proof.Machine.execComparatorFire x s
  | .comparatorEccError x => Sys2Proof.Machine.execComparatorEccError x s
  | .ppsInEdge t => Sys2Proof.Machine.execPpsInEdge t s
  | .ppsInLoss => Sys2Proof.Machine.execPpsInLoss s
  | .ppsOutEnd => Sys2Proof.Machine.execPpsOutEnd s
  | .nowSubsecRead m => Sys2Proof.Machine.execNowSubsecRead m s
  | .rtcSet => Sys2Proof.Machine.execRtcSet s
  | .rtcSetLoad => Sys2Proof.Machine.execRtcSetLoad s
  | .trimWindow => Sys2Proof.Machine.execTrimWindow s
  | .calendarSecond => Sys2Proof.Machine.execCalendarSecond s
  | .alarmArm k => Sys2Proof.Machine.execAlarmArm k s
  | .alarmDisarm k => Sys2Proof.Machine.execAlarmDisarm k s
  | .alarmFire => Sys2Proof.Machine.execAlarmFire s
  | .alarmClear k => Sys2Proof.Machine.execAlarmClear k s
  | .supplySwitchVbat reversed => Sys2Proof.Machine.execSupplySwitchVbat reversed s
  | .supplySwitchMain => Sys2Proof.Machine.execSupplySwitchMain s
  | .rtcLockout => Sys2Proof.Machine.execRtcLockout s
  | .rtcLockoutRelease => Sys2Proof.Machine.execRtcLockoutRelease s
  | .oscStop => Sys2Proof.Machine.execOscStop s
  | .bkpPowerUp => Sys2Proof.Machine.execBkpPowerUp s
  | .vbatSample mv => Sys2Proof.Machine.execVbatSample mv s
  | .voteWrite m d v => Sys2Proof.Machine.execVoteWrite m d v s
  | .drydownGo => Sys2Proof.Machine.execDrydownGo s
  | .drydownTurn => Sys2Proof.Machine.execDrydownTurn s
  | .drydownBusyTimeout => Sys2Proof.Machine.execDrydownBusyTimeout s
  | .entryWindowEnd => Sys2Proof.Machine.execEntryWindowEnd s
  | .wakeSource src active => Sys2Proof.Machine.execWakeSource src active s
  | .domainPowerUp d => Sys2Proof.Machine.execDomainPowerUp d s
  | .autoWakeAccess m a size write v => Sys2Proof.Machine.execAutoWakeAccess m a size write v s
  | .autoWakeTimeout m => Sys2Proof.Machine.execAutoWakeTimeout m s
  | .padReleaseAnt => Sys2Proof.Machine.execPadReleaseAnt s
  | .padReleaseH => Sys2Proof.Machine.execPadReleaseH s
  | .powerOnReset => Sys2Proof.Machine.execPowerOnReset s
  | .aonResetRelease => Sys2Proof.Machine.execAonResetRelease s
  | .resetPin ns => Sys2Proof.Machine.execResetPin ns s
  | .resetChip => Sys2Proof.Machine.execResetChip s
  | .resetCore => Sys2Proof.Machine.execResetCore s
  | .resetDom d => Sys2Proof.Machine.execResetDom d s
  | .wdogKick v => Sys2Proof.Machine.execWdogKick v s
  | .watchdogExpire => Sys2Proof.Machine.execWatchdogExpire s
  | .supplyFault rail => Sys2Proof.Machine.execSupplyFault rail s
  | .supplyRecover rail => Sys2Proof.Machine.execSupplyRecover rail s
  | .cmpLoad c => Sys2Proof.Machine.execCmpLoad c s
  | .cmpStart c => Sys2Proof.Machine.execCmpStart c s
  | .cmpPause c => Sys2Proof.Machine.execCmpPause c s
  | .cmpResume c => Sys2Proof.Machine.execCmpResume c s
  | .cmpActivate c => Sys2Proof.Machine.execCmpActivate c s
  | .cmpClear c => Sys2Proof.Machine.execCmpClear c s
  | .tgtAdd c x => Sys2Proof.Machine.execTgtAdd c x s
  | .tgtRemove c x => Sys2Proof.Machine.execTgtRemove c x s
  | .tgtQuery c x => Sys2Proof.Machine.execTgtQuery c x s
  | .burstPrepare c => Sys2Proof.Machine.execBurstPrepare c s
  | .fragCompletion => Sys2Proof.Machine.execFragCompletion s
  | .nackPhaseOpen c => Sys2Proof.Machine.execNackPhaseOpen c s
  | .roundStart c => Sys2Proof.Machine.execRoundStart c s
  | .nackRx => Sys2Proof.Machine.execNackRx s
  | .noticeRetry c => Sys2Proof.Machine.execNoticeRetry c s
  | .activationInstant c => Sys2Proof.Machine.execActivationInstant c s
  | .blockRequest m => Sys2Proof.Machine.execBlockRequest m s
  | .floorWrite k v => Sys2Proof.Machine.execFloorWrite k v s
  | .disEnable => Sys2Proof.Machine.execDisEnable s
  | .disDisable => Sys2Proof.Machine.execDisDisable s
  | .imgLoad => Sys2Proof.Machine.execImgLoad s
  | .imgArm => Sys2Proof.Machine.execImgArm s
  | .imgCancel => Sys2Proof.Machine.execImgCancel s
  | .imgRestart => Sys2Proof.Machine.execImgRestart s
  | .imgConfirm fusesGood => Sys2Proof.Machine.execImgConfirm fusesGood s
  | .imageActivation => Sys2Proof.Machine.execImageActivation s
  | .bootStart fusesGood => Sys2Proof.Machine.execBootStart fusesGood s
  | .confirmTimeout => Sys2Proof.Machine.execConfirmTimeout s
  | .lifecycleTransition m target confirm fuseGood => Sys2Proof.Machine.execLifecycleTransition m target confirm fuseGood s
  | .lcNonceRead => Sys2Proof.Machine.execLcNonceRead s
  | .keyrevRevoke k fuseGood => Sys2Proof.Machine.execKeyrevRevoke k fuseGood s
  | .fuseProgram b fuseGood => Sys2Proof.Machine.execFuseProgram b fuseGood s
  | .twinEnable => Sys2Proof.Machine.execTwinEnable s
  | .twinDisable => Sys2Proof.Machine.execTwinDisable s
  | .joinWaitExpire => Sys2Proof.Machine.execJoinWaitExpire s
  | .hbSend => Sys2Proof.Machine.execHbSend s
  | .hbKick v => Sys2Proof.Machine.execHbKick v s
  | .hbRx frame stamp => Sys2Proof.Machine.execHbRx frame stamp s
  | .hbMiss => Sys2Proof.Machine.execHbMiss s
  | .checkpointCapture => Sys2Proof.Machine.execCheckpointCapture s
  | .ckDataRx frame => Sys2Proof.Machine.execCkDataRx frame s
  | .ckEndRx frame => Sys2Proof.Machine.execCkEndRx frame s
  | .checkpointApplyEnd => Sys2Proof.Machine.execCheckpointApplyEnd s
  | .ckAckRx frame => Sys2Proof.Machine.execCkAckRx frame s
  | .takeoverRx frame => Sys2Proof.Machine.execTakeoverRx frame s
  | .joinRx frame => Sys2Proof.Machine.execJoinRx frame s
  | .imgDataRx frame => Sys2Proof.Machine.execImgDataRx frame s
  | .imgActRx frame => Sys2Proof.Machine.execImgActRx frame s
  | .twinDataRx frame => Sys2Proof.Machine.execTwinDataRx frame s
  | .twinDataTx => Sys2Proof.Machine.execTwinDataTx s
  | .twinRestore => Sys2Proof.Machine.execTwinRestore s
  | .restoreComplete => Sys2Proof.Machine.execRestoreComplete s
  | .handover => Sys2Proof.Machine.execHandover s
  | .handoverInstant => Sys2Proof.Machine.execHandoverInstant s
  | .imgPush => Sys2Proof.Machine.execImgPush s
  | .linkSyncAcquire commas => Sys2Proof.Machine.execLinkSyncAcquire commas s
  | .linkSyncLoss bad ns => Sys2Proof.Machine.execLinkSyncLoss bad ns s
  | .sliceStart busy => Sys2Proof.Machine.execSliceStart busy s
  | .sliceEnd cls unit finished sig row balls => Sys2Proof.Machine.execSliceEnd cls unit finished sig row balls s
  | .sliceYield cls unit => Sys2Proof.Machine.execSliceYield cls unit s
  | .istRequest cls unit => Sys2Proof.Machine.execIstRequest cls unit s
  | .istForce cls unit => Sys2Proof.Machine.execIstForce cls unit s
  | .repairBurn readback => Sys2Proof.Machine.execRepairBurn readback s
  | .fullBist => Sys2Proof.Machine.execFullBist s
  | .istDisable => Sys2Proof.Machine.execIstDisable s
  | .hostSelect => Sys2Proof.Machine.execHostSelect s
  | .hostWrite header data => Sys2Proof.Machine.execHostWrite header data s
  | .hostRead header => Sys2Proof.Machine.execHostRead header s
  | .hostStatus header => Sys2Proof.Machine.execHostStatus header s
  | .hostPop header => Sys2Proof.Machine.execHostPop header s
  | .hostPush header data => Sys2Proof.Machine.execHostPush header data s
  | .hostAbort silent => Sys2Proof.Machine.execHostAbort silent s
  | .hifFreeWrite b => Sys2Proof.Machine.execHifFreeWrite b s
  | .hifAttnSetWrite => Sys2Proof.Machine.execHifAttnSetWrite s
  | .ethRxFrame q frame stamp => Sys2Proof.Machine.execEthRxFrame q frame stamp s
  | .ethTxFrame q sfd => Sys2Proof.Machine.execEthTxFrame q sfd s
  | .ethTxEnd q => Sys2Proof.Machine.execEthTxEnd q s
  | .ethLinkChange q up speedErr => Sys2Proof.Machine.execEthLinkChange q up speedErr s
  | .pauseEnd q => Sys2Proof.Machine.execPauseEnd q s
  | .ethDisable q => Sys2Proof.Machine.execEthDisable q s
  | .ethModeWrite q mode => Sys2Proof.Machine.execEthModeWrite q mode s
  | .mdioFrame v => Sys2Proof.Machine.execMdioFrame v s
  | .mdioFrameEnd ack data => Sys2Proof.Machine.execMdioFrameEnd ack data s
  | .ddrInit temp => Sys2Proof.Machine.execDdrInit temp s
  | .ddrTrainingEnd ok step temp => Sys2Proof.Machine.execDdrTrainingEnd ok step temp s
  | .ddrSelfRefresh => Sys2Proof.Machine.execDdrSelfRefresh s
  | .ddrSrIdle => Sys2Proof.Machine.execDdrSrIdle s
  | .ddrMr4Poll hot => Sys2Proof.Machine.execDdrMr4Poll hot s
  | .gpioPinWrite n v => Sys2Proof.Machine.execGpioPinWrite n v s
  | .gpioEdge n rising => Sys2Proof.Machine.execGpioEdge n rising s
  | .eventFiring => Sys2Proof.Machine.execEventFiring s
  | .eventDelivery x => Sys2Proof.Machine.execEventDelivery x s
  | .holdoffExpire n => Sys2Proof.Machine.execHoldoffExpire n s
  | .hostEvqRead => Sys2Proof.Machine.execHostEvqRead s
  | .logClear => Sys2Proof.Machine.execLogClear s
  | .heldRelease => Sys2Proof.Machine.execHeldRelease s
  | .evtSoft0Write v => Sys2Proof.Machine.execEvtSoft0Write v s
  | .evtSoft1Write v => Sys2Proof.Machine.execEvtSoft1Write v s
  | .evtExpFire v => Sys2Proof.Machine.execEvtExpFire v s
  | .postedWriteComplete n x => Sys2Proof.Machine.execPostedWriteComplete n x s
  | .shaperCreditTick => Sys2Proof.Machine.execShaperCreditTick s
  | .hostDeselect => Sys2Proof.Machine.execHostDeselect s
  | .rtcOscStart => Sys2Proof.Machine.execRtcOscStart s
  | .cmpLoadComplete c => Sys2Proof.Machine.execCmpLoadComplete c s
  | .imgLoadComplete => Sys2Proof.Machine.execImgLoadComplete s
  | .bistComplete failing balls => Sys2Proof.Machine.execBistComplete failing balls s
  | .tableFlushBank => Sys2Proof.Machine.execTableFlushBank s

end Sys2Proof.Machine
end

