-- ==== Sys2Proof/Machine/Tick.lean ====
section
/-!
DEFINITION. One CK_ACC cycle, which `step` runs while no command waits: ATB and LTB count, the oscillator, learning credits,
trigger-driven pins, and what a block does of itself as soon as its condition holds (drains, PPS_OUT's next edge, DIS's
seals, the search for a parent).
-/
namespace Sys2Proof.Machine

open Sys2Proof

/-- Learning credits rise by RATE at every millisecond of ATB (R269); `before` is ATB's millisecond a cycle ago. -/
def creditRise (before : Nat) : Effect := ask fun s =>
  let k := s.ns / 1000000 - before
  when (k ≠ 0 && s.on 2) (setFwd fun f => { f with
    spent := f.spent.filterMap (fun e =>
      let v := e.2 - k * s.fld (FWD.FWD_GRP_RATE_RATE e.1)
      if v = 0 then none else some (e.1, v)) })

/-- The time bases' cycle; PD_AON held in reset does not count. -/
def timeCycle : Effect := seq [
  ask fun s => when (!s.plt.aonHeld) (setAcc Acc.cycle),
  ask fun s => when (s.flag RTC.RTC_STATUS_OSC_RUN && s.on 1) (setRtc Rtc.tick)]

/-- What blocks do of themselves. -/
def settleBlocks : Effect := seq [
  gpioTick, ppsUpdate, inDomain 16 cryDrain, inDomain 2 fwdDrain, inDomain 2 macDrain, inDomain 2 parentSearch, inDomain 2 disSealed]

/-- One CK_ACC cycle. -/
def tick : Effect := ask fun s => seq [timeCycle, creditRise (s.ns / 1000000), settleBlocks]

end Sys2Proof.Machine
end

