-- ==== Sys2Proof/Safety.lean ====
section
/-!
DEFINITION. The terms claims use: what a command answers, the canonical form of memory and of the register file, and runs
that go on.
-/
namespace Sys2Proof.Machine

open Sys2Proof

/-- The canonical form of memory: addresses strictly rising, and no byte equal to what an unlisted address reads as. -/
def Memory.wf (m : List Host.Cell) : Bool := canonical memDefault m

/-- The canonical form of the whole state: memory, the register file, the cores and the once-per-read marks. -/
def State.Inv (s : State) : Prop :=
  Memory.wf s.mem = true ∧ canonical regReset s.regs = true ∧ canonical (fun _ => ({} : Core)) s.cores = true ∧
    canonical (fun _ => false) s.firsts = true

/-- Command `c` in state `s` answers a next state of which `P` holds. -/
def Answers (c : Instr) (s : State) (P : State → Prop) : Prop := ∃ t, exec c s = .next t ∧ P t

/-- A run of `n` steps from `s` goes on to the end: no step stops the block. -/
def GoesOn : Nat → State → Prop
  | 0, _ => True
  | n + 1, s => ∃ t, step s = .next t ∧ GoesOn n t

/-! ### Cores and the words they run -/

/-- An instruction word (R56): guard bits PN and PG, the opcode, and the operand bits [21:0]. -/
def instrWord (pn : Bool) (pg op rest : Nat) : Nat := b2n pn * 2 ^ 31 + pg * 2 ^ 28 + op * 2 ^ 22 + rest

/-- Core `n` is about to run an instruction with opcode `op` and operand bits `rest`: its domain is ON, it is RUNNING and
waits for nothing, that word lies at its pc, and the guard p[PG] XOR PN is 1 (R57). -/
def Runs (s : State) (n op rest : Nat) : Prop :=
  s.on (coreDomain n) = true ∧ (s.core n).run = .running ∧ (s.core n).wait = .none ∧
    ∃ pn pg, pg < 8 ∧ xor ((s.core n).pr pg) pn = true ∧ s.fetch n = instrWord pn pg op rest

/-- After the present instruction core `n` goes on at the next word: it lies in I space, and CORE_EXP.STEP is 0. -/
def Flows (s : State) (n : Nat) : Prop :=
  (s.core n).pc + 4 < iSize n ∧ (n = 64 ∨ s.flag (SEQ.CORE_EXP_STEP n) = false)

/-- The state in which core `n` holds `c`, and nothing else differs. -/
def State.withCore (s : State) (n : Nat) (c : Core) : State := s.apply (.core n c)

/-- Command `i`, issued while core `n` is about to run the word of `op` and `rest`, changes that core as `k` says, moves its
pc to the next word, and changes nothing else. -/
def RunsTo (i : Instr) (s : State) (n op rest : Nat) (k : Core → Core) : Prop :=
  Runs s n op rest → Flows s n → exec i s = .next (s.withCore n { k (s.core n) with pc := (s.core n).pc + 4 })

/-- The command that issues the instructions of a row of the opcode map at core `n`. -/
def coreCommand (r : Row) (n : Fin 65) : Instr := match r with
  | .add => .add n | .sub => .sub n | .and => .and n | .or => .or n | .xor => .xor n | .andn => .andn n
  | .shl => .shl n | .shr => .shr n | .sar => .sar n | .ror => .ror n | .addc => .addc n | .subb => .subb n
  | .mul => .mul n | .mulh => .mulh n | .mulhu => .mulhu n | .min => .min n | .max => .max n | .minu => .minu n
  | .maxu => .maxu n | .clz => .clz n | .popc => .popc n | .bswap => .bswap n | .addi => .addi n | .andi => .andi n
  | .ori => .ori n | .xori => .xori n | .shifti => .shifti n | .lui => .lui n | .bfx => .bfx n | .bfi => .bfi n
  | .cmp => .cmp n | .cmpi => .cmpi n | .tcmp => .tcmp n | .plog => .plog n | .mfs => .mfs n | .mts => .mts n
  | .ldb => .ldb n | .ldbu => .ldbu n | .ldh => .ldh n | .ldhu => .ldhu n | .ldw => .ldw n | .stb => .stb n
  | .sth => .sth n | .stw => .stw n | .ldt => .ldt n | .stt => .stt n | .ldf => .ldf n | .stf => .stf n
  | .amoSwap => .amoSwap n | .amoAdd => .amoAdd n | .amoOr => .amoOr n | .amoCas => .amoCas n
  | .xcopyCopy => .xcopyCopy n | .xcopyCopyCrc => .xcopyCopycrc n | .xcopyCrc => .xcopyCrc n
  | .xcopyFill => .xcopyFill n | .br => .br n | .jal => .jal n | .jalr => .jalr n | .done => .done n
  | .evctl => .evctl n | .fence => .fence n | .brk => .brk n | .trap => .trap n | .eret => .eret n | .tnow => .tnow n
  | .tadd => .tadd n | .taddi => .taddi n | .tdiff => .tdiff n | .tmv => .tmv n | .twait => .twait n
  | .tarm => .tarm n | .tarmDisarm => .tarmDisarm n | .trigArm => .trigArm n | .trigCancel => .trigCancel n
  | .push => .push n | .pop => .pop n | .lookupEui => .lookupEui64 n | .lookupShort => .lookupShort n
  | .learn => .learn n | .kfetch => .kfetch n | .seal => .seal n | .open_ => .openJob n | .txat => .txat n
  | .listen => .listen n | .calAdd => .calupdAdd n | .calRemove => .calupdRemove n | .calMove => .calupdMove n
  | .calInterval => .calupdInterval n | .macDlcount => .macreqDlcount n | .macAck => .macreqAck n
  | .macDlqueue => .macreqDlqueue n | .macSearch => .macreqSearch n | .bufAlloc => .bufAlloc n
  | .bufFree => .bufFree n

/-- Only core `n` differs: every other field of the state, and every other core, is as before. -/
def OnlyCore (n : Nat) (s t : State) : Prop := t = { s with cores := t.cores } ∧ ∀ m, m ≠ n → t.core m = s.core m

/-- The bytes of memory that differ between two states all lie in the `k` bytes at `a`. -/
def MemOnly (a k : Nat) (s t : State) : Prop := ∀ x, x < a ∨ a + k ≤ x → t.byte x = s.byte x

/-- All of memory reads as before. -/
def MemSame (s t : State) : Prop := ∀ x, t.byte x = s.byte x

/-! ### Counts, events, rings and lanes -/

/-- A saturating counter has counted one. -/
def Counted (f : Fld) (s t : State) : Prop := t.fld f = min (s.fld f + 1) (2 ^ (f.hi - f.lo + 1) - 1)

/-- The router holds a firing of event `n` with argument `arg`. -/
def State.raised (t : State) (n arg : Nat) : Prop := ∃ f ∈ t.evt.queue, f.event = n ∧ f.arg = arg

/-- Ring `n` takes a push at once: it has room, no completion is held for it and its pointers agree. -/
def State.takes (s : State) (n : Nat) : Prop :=
  s.hasRoom n = true ∧ (s.ring n).ptrFault = 0 ∧ s.tm.held.any (fun h => h.ring = n) = false

/-- Ring `n` holds what it held, and after it descriptor `d`. -/
def Pushed (n : Nat) (d : Desc) (s t : State) : Prop :=
  (t.ring n).q = (s.ring n).q ++ [⟨d, s.ltbUs % 2 ^ 32, (s.ring n).tail⟩]

/-- Of the receive lanes, lane `n` alone differs, and is now `l`. -/
def LaneIs (n : Nat) (l : Lane) (s t : State) : Prop := t.lane n = l ∧ ∀ m, m ≠ n → t.lane m = s.lane m

/-- A transmission can be staged now (R125, R140, R146, R168, R210, R249): its port is enabled and ready, no reserved
interval meets it, the profile permits it with power `p` and without channel assessment, voice `v` has room, neither duty
nor dwell is breached, its trigger is at least 2 µs ahead, and no voice is under test. -/
def State.stageable (s : State) (r : TxReq) (v : Nat) (p : Int) : Prop :=
  let l := tplus r.trig 200
  let air := s.airtime r.mode r.len
  s.flag (FE.PORT_CTL_EN r.port) = true ∧ s.flag (FE.PORT_STATUS_READY r.port) = true ∧ s.reserved r.port l air = false ∧
    2000 ≤ tdiff r.trig s.now ∧ s.ist.running = [] ∧ s.voiceFor r.port r.chan l (tplus l (air + 10000)) = some v ∧
    ∃ k e, s.permits (s.profileAt l) r.port r.chan = some (k, e) ∧ s.resolve k e r.port r.request = some p ∧
      s.assess k e r.cca = none ∧ s.dutyBreach k e l.toNat air = false ∧ s.dwellBreach k e r.port r.chan l.toNat air = false

/-- The transmission of request `r` is staged on voice `v` with power `p`, its trigger armed. -/
def Staging (r : TxReq) (v : Nat) (p : Int) (t : State) : Prop :=
  ∃ y ∈ t.bb.staged, y.voice = v ∧ y.port = r.port ∧ y.chan = r.chan ∧ y.mode = r.mode ∧ y.power = p ∧ y.len = r.len ∧
    y.owner = r.owner ∧ y.ident = r.ident ∧ y.trig = r.trig ∧ (t.comp (4 * v + y.place)).armed = true ∧
    (t.comp (4 * v + y.place)).at_ = r.trig

end Sys2Proof.Machine
end

