-- ==== Sys2Proof/Certificates/Slice0/Obligations.lean ====
section
/-!
DEFINITION. The statements for the provers: what each family of commands does, what every step keeps, and the state after reset.
-/
open Sys2Proof Sys2Proof.Machine

/-- One step runs the command at the front of the queue on the state with the queue's rest. -/
def Obligations.StepRunsFront : Prop :=
  ∀ (s : State) (c : Instr) (cs : List Instr), step { s with pending := c :: cs } = exec c { s with pending := cs }

/-- No command and no idle cycle stops the block: every command answers a next state with the queue as it was given,
so every run goes on (the chapters give each command an effect; a bus error or a refused operation is one). -/
def Obligations.RunsGoOn : Prop :=
  (∀ (c : Instr) (s : State), ∃ t, exec c s = .next t ∧ t.pending = s.pending) ∧
  (∀ (s : State), s.pending = [] → ∃ t, step s = .next t ∧ t.pending = []) ∧
  ∀ n s, GoesOn n s

/-- Every step keeps the canonical form of memory, of the register file, of the cores and of the once-per-read marks.
-/
def Obligations.InvKept : Prop := ∀ s t : State, State.Inv s → step s = .next t → State.Inv t

/-- The machine right after reset: its values by the register tables of chapters 00 to 19, the cores' by R43 and R86,
the domains' by R454 and R455. -/
def Obligations.ResetValues : Prop :=
  let s := State.reset
  State.Inv s ∧ s.pending = [] ∧ s.evt = {} ∧ s.bb.staged = [] ∧ s.acc.ltb = 0 ∧
    (∀ n : Fin 65, (s.core n).run = .held ∧ (s.core n).p = 1#8 ∧ (s.core n).pend = 0#16 ∧ ∀ r : Fin 16, (s.core n).gr r = 0#32) ∧
    s.domain 0 = 2 ∧ s.domain 1 = 2 ∧ s.domain 2 = 3 ∧ (∀ d : Fin 21, 3 ≤ d.val → s.domain d = 0) ∧
    (∀ w : Fin 20, let k : Nat := 0x40007FF8 + w * 0x10000; s.flag (lockOf k) = false ∧ s.flag (unlockedOf k) = false ∧
      s.flag (armedOf k) = false ∧ s.flag (rejectedOf k) = false) ∧
    (∀ n : Fin 64, s.fld (SEQ.HBUDGET_CYCLES n) = 0x10000) ∧
    s.fld FE.TX_LATE_TOL_NS = 2000 ∧ s.fld FE.CAL_GUARD_US = 3000 ∧ s.flag FE.PROF_STATE_NONE = true ∧
    (∀ p : Fin 3, s.fldI (FE.TEMP_MAX_LIMIT p) = 480) ∧
    s.fld BB.RX_CTL_SFD_TIMEOUT = 10 ∧ s.fldI BB.CCA_CFG_THRESH = -85 ∧ s.fld BB.CCA_CFG_TIME = 128 ∧
    s.regN BB.MODE_FILT_RX = 0x76543210 ∧ s.regN BB.MODE_FILT_TX = 0xFEDCBA98 ∧
    s.fld MAC.ADDR_PAN_ID = 0xFFFF ∧ s.fld MAC.BCN_CFG_INTERVAL_MS = 250 ∧ s.fld MAC.GUARD_CFG_G_BASE = 64 ∧
    s.fld MAC.NODE_ARG3_INTERVAL = 240000 ∧ s.fld FWD.AGE_CFG_AGE_PERIOD = 300 ∧ s.fld FWD.SIL_CFG_SIL_TTL = 60 ∧
    s.fld TM.POOL_CFG_LOW_MARK = 1024 ∧ (∀ n : Fin 64, s.fld (TM.RING_CFG_DEPTH n) = 64) ∧
    s.regN CRY.FC_WARN = 0xF0000000 ∧ s.fld KEY.OP_PARENT_SLOT = 0xFFFF ∧
    s.fld ACC.HOLD_CFG_U_MIN = 10 ∧ s.fld ACC.CLOCK_UTC_OFFSET = 37 ∧ s.freeComps = 416 ∧ s.flag RTC.RTC_STATUS_OSF = true

/-- The unlock sequence of a register window (R8). -/
def Obligations.UnlockSequence : Prop :=
  ∀ (s : State) (m : Fin 67) (w : Fin 20) (v : Word),
    let k : Nat := 0x40007FFC + w * 0x10000
    let unlocked := s.flag (unlockedOf k)
    let armed := s.flag (armedOf k)
    let key := v.toNat % 256
    s.masterActs m = true → mayAccess m k true = true → s.answers (regDomain k) = true →
    Answers (.expertUnlockWrite m w v) s (fun t => t = { s with regs := t.regs } ∧ (∀ x, x ≠ k → t.reg x = s.reg x) ∧
      t.flag (rejectedOf k) = s.flag (rejectedOf k) ∧
      (unlocked = false → key = 0x5A → t.flag (armedOf k) = true ∧ t.flag (unlockedOf k) = false) ∧
      (unlocked = false → key = 0xA5 → armed = true → t.flag (unlockedOf k) = true ∧ t.flag (armedOf k) = false) ∧
      (unlocked = false → key ≠ 0x5A → ¬(key = 0xA5 ∧ armed = true) → t.flag (armedOf k) = false ∧ t.flag (unlockedOf k) = false) ∧
      (unlocked = true → key = 0 → t.flag (unlockedOf k) = false) ∧ (unlocked = true → key ≠ 0 → t.flag (unlockedOf k) = true))

/-- The register-to-register functions of Table 02.6 (R61) and the immediate and bit-field instructions (R62): each
writes its result to rd, ADD, SUB, ADDC and SUBB set CY as well, and nothing else changes but the pc. -/
def Obligations.AluAndImmediateResults : Prop :=
  (∀ (n : Fin 65) (s : State) (rd rs rt : Nat), rd < 16 → rs < 16 → rt < 16 →
    let a := (s.core n).gr rs
    let b := (s.core n).gr rt
    let cy := (b2n (s.core n).cy)
    let alu := fun (i : Instr) (fn r : Nat) (v : Word) =>
      RunsTo i s n 0 (rd * 2 ^ 18 + rs * 2 ^ 14 + r * 2 ^ 10 + fn * 2 ^ 5) (fun c => c.setG rd v)
    let carry := fun (i : Instr) (fn : Nat) (v : Word) (out : Bool) =>
      RunsTo i s n 0 (rd * 2 ^ 18 + rs * 2 ^ 14 + rt * 2 ^ 10 + fn * 2 ^ 5) (fun c => { c.setG rd v with cy := out })
    carry (.add n) 0x00 (a + b) (decide (2 ^ 32 ≤ a.toNat + b.toNat)) ∧
    carry (.sub n) 0x01 (a - b) (decide (a.toNat < b.toNat)) ∧
    alu (.and n) 0x02 rt (a &&& b) ∧ alu (.or n) 0x03 rt (a ||| b) ∧ alu (.xor n) 0x04 rt (a ^^^ b) ∧
    alu (.andn n) 0x05 rt (a &&& ~~~b) ∧
    alu (.shl n) 0x06 rt (a <<< (b.toNat % 32)) ∧ alu (.shr n) 0x07 rt (a >>> (b.toNat % 32)) ∧
    alu (.sar n) 0x08 rt (a.sshiftRight (b.toNat % 32)) ∧ alu (.ror n) 0x09 rt (a.rotateRight (b.toNat % 32)) ∧
    carry (.addc n) 0x0A (BitVec.ofNat 32 (a.toNat + b.toNat + cy)) (decide (2 ^ 32 ≤ a.toNat + b.toNat + cy)) ∧
    carry (.subb n) 0x0B (BitVec.ofInt 32 (a.toNat - b.toNat - cy)) (decide (a.toNat < b.toNat + cy)) ∧
    alu (.mul n) 0x0C rt (BitVec.ofNat 32 (a.toNat * b.toNat)) ∧
    alu (.mulh n) 0x0D rt (BitVec.ofInt 32 (a.toInt * b.toInt / 2 ^ 32)) ∧
    alu (.mulhu n) 0x0E rt (BitVec.ofNat 32 (a.toNat * b.toNat / 2 ^ 32)) ∧
    alu (.min n) 0x0F rt (if a.slt b then a else b) ∧ alu (.max n) 0x10 rt (if a.slt b then b else a) ∧
    alu (.minu n) 0x11 rt (if a.ult b then a else b) ∧ alu (.maxu n) 0x12 rt (if a.ult b then b else a) ∧
    (∀ z ≤ 32, (∀ i < z, a.getMsbD i = false) → (z < 32 → a.getMsbD z = true) →
      alu (.clz n) 0x13 0 (BitVec.ofNat 32 z)) ∧
    alu (.popc n) 0x14 0 (BitVec.ofNat 32 ((List.range 32).countP a.getLsbD)) ∧
    alu (.bswap n) 0x15 0 (a.extractLsb' 0 8 ++ a.extractLsb' 8 8 ++ a.extractLsb' 16 8 ++ a.extractLsb' 24 8)) ∧
  (∀ (n : Fin 65) (s : State) (rd rs : Nat), rd < 16 → rs < 16 →
    let a := (s.core n).gr rs
    let old := (s.core n).gr rd
    (∀ imm < 2 ^ 14,
      let op := fun (i : Instr) (o : Nat) (v : Word) =>
        RunsTo i s n o (rd * 2 ^ 18 + rs * 2 ^ 14 + imm) (fun c => c.setG rd v)
      op (.addi n) 0x01 (a + (BitVec.ofNat 14 imm).signExtend 32) ∧ op (.andi n) 0x02 (a &&& BitVec.ofNat 32 imm) ∧
      op (.ori n) 0x03 (a ||| BitVec.ofNat 32 imm) ∧ op (.xori n) 0x04 (a ^^^ BitVec.ofNat 32 imm)) ∧
    (∀ imm < 2 ^ 18, RunsTo (.lui n) s n 0x06 (rd * 2 ^ 18 + imm) (fun c => c.setG rd (BitVec.ofNat 32 imm <<< 14))) ∧
    (∀ kind < 4, ∀ sa < 32, RunsTo (.shifti n) s n 0x05 (rd * 2 ^ 18 + rs * 2 ^ 14 + kind * 2 ^ 12 + sa) (fun c => c.setG rd
      ([a <<< sa, a >>> sa, a.sshiftRight sa, a.rotateRight sa].getD kind 0))) ∧
    (∀ pos < 32, ∀ wm1 < 32,
      let m : Word := BitVec.ofNat 32 (2 ^ (wm1 + 1) - 1)
      RunsTo (.bfx n) s n 0x07 (rd * 2 ^ 18 + rs * 2 ^ 14 + pos * 2 ^ 9 + wm1 * 2 ^ 4)
        (fun c => c.setG rd ((a >>> pos) &&& m)) ∧
      RunsTo (.bfi n) s n 0x08 (rd * 2 ^ 18 + rs * 2 ^ 14 + pos * 2 ^ 9 + wm1 * 2 ^ 4)
        (fun c => c.setG rd ((old &&& ~~~(m <<< pos)) ||| ((a <<< pos) &&& (m <<< pos))))))

/-- CMP, CMPI and TCMP combine a condition of Table 02.7 into a predicate (R63); PLOG sets one from two (R64). -/
def Obligations.PredicateResults : Prop :=
  ∀ (n : Fin 65) (s : State) (pd : Nat), pd < 8 →
    let c := s.core n
    let conds := fun (a b : Word) => [decide (a = b), decide (a ≠ b), a.slt b, b.sle a, a.sle b, b.slt a, a.ult b, b.ule a,
      a.ule b, b.ult a, decide (a &&& b ≠ 0), decide (a &&& b = 0)]
    let into := fun (cb : Nat) (v : Bool) => [v, c.pr pd && v, c.pr pd || v].getD cb false
    (∀ cb < 3, ∀ cc < 12, ∀ rs < 16, ∀ rt < 16,
      RunsTo (.cmp n) s n 0x09 (pd * 2 ^ 19 + cb * 2 ^ 17 + cc * 2 ^ 13 + rs * 2 ^ 9 + rt * 2 ^ 5)
        (fun k => k.setP pd (into cb ((conds (c.gr rs) (c.gr rt)).getD cc false)))) ∧
    (∀ cb < 3, ∀ cc < 12, ∀ rs < 16, ∀ imm < 2 ^ 9,
      RunsTo (.cmpi n) s n 0x0A (pd * 2 ^ 19 + cb * 2 ^ 17 + cc * 2 ^ 13 + rs * 2 ^ 9 + imm)
        (fun k => k.setP pd (into cb ((conds (c.gr rs) ((BitVec.ofNat 9 imm).signExtend 32)).getD cc false)))) ∧
    (∀ cb < 3, ∀ cc < 6, ∀ ta < 4, ∀ tb < 4,
      RunsTo (.tcmp n) s n 0x2E (pd * 2 ^ 19 + cb * 2 ^ 17 + ta * 2 ^ 15 + tb * 2 ^ 13 + cc * 2 ^ 10)
        (fun k => k.setP pd (into cb (let d := (c.tr ta - c.tr tb).toInt
          [decide (d = 0), decide (d ≠ 0), decide (d < 0), decide (0 ≤ d), decide (d ≤ 0), decide (0 < d)].getD cc false)))) ∧
    (∀ op < 8, ∀ pa < 8, ∀ pb < 8,
      RunsTo (.plog n) s n 0x0B (pd * 2 ^ 19 + pa * 2 ^ 16 + pb * 2 ^ 13 + op * 2 ^ 10)
        (fun k => k.setP pd (let a := c.pr pa
          let b := c.pr pb
          [a && b, a || b, xor a b, a && !b, a || !b, !a, false, true].getD op false)))

/-- The register files of Table 02.1: a write is read back, g0 and p0 keep their constants, and a write leaves every
other register alone. MFS and MTS (R50, R83, R99): what each special register reads, and what a write leaves. -/
def Obligations.RegistersReadAndWritten : Prop :=
  (∀ (c : Core) (i : Nat),
    (∀ (v : Word) (j : Nat), (c.setG i v).gr j = if j = 0 then 0 else if j = i then v else c.gr j) ∧
    (∀ (b : Bool) (j : Nat), i < 8 → j < 8 → (c.setP i b).pr j = if j = 0 then true else if j = i then b else c.pr j) ∧
    (∀ (v : Instant) (j : Nat), (c.setT i v).tr j = if j = i then v else c.tr j)) ∧
  (∀ (n : Fin 65) (s : State) (g : Nat), g < 16 →
    let c := s.core n
    let mfs := fun (sn : Nat) (v : Nat) => RunsTo (.mfs n) s n 0x0C (g * 2 ^ 18 + sn * 2 ^ 12)
      (fun k => k.setG g (BitVec.ofNat 32 v))
    let mts := fun (sn : Nat) (f : Word → Core → Core) => RunsTo (.mts n) s n 0x0C (g * 2 ^ 18 + sn * 2 ^ 12 + 2 ^ 11)
      (f (c.gr g))
    let cycles := if n.val = 64 then s.acc.ltb - c.released else (s.acc.ltb - c.released) * 4 / 5
    mfs 0 n ∧ mfs 1 (b2n c.cy + 2 * b2n c.be + 4 * b2n c.sat) ∧ mfs 2 c.evsrc.toNat ∧ mfs 3 c.evarg.toNat ∧
    mfs 4 (c.evtime.toNat % 2 ^ 32) ∧ mfs 5 (c.evtime.toNat / 2 ^ 32) ∧ mfs 6 c.xseg ∧
    RunsTo (.mfs n) s n 0x0C (g * 2 ^ 18 + 7 * 2 ^ 12)
      (fun k => { k with cycleHi := BitVec.ofNat 32 (cycles / 2 ^ 32) }.setG g (BitVec.ofNat 32 cycles)) ∧
    mfs 8 c.cycleHi.toNat ∧ mfs 9 (s.hleft n) ∧ mfs 10 (c.p.toNat ||| 1) ∧ mfs 11 c.dstat.toNat ∧ mfs 12 c.derr.toNat ∧
    mfs 13 c.dres.toNat ∧ mfs 14 (c.posted.countP Posted.waits) ∧ mfs 15 c.dlat.toNat ∧
    (n.val = 64 → mfs 16 c.fvec.toNat ∧ mfs 17 c.fcause.toNat ∧ mfs 18 c.fpc.toNat ∧ mfs 19 c.faddr.toNat ∧
      mfs 20 c.fsave.toNat ∧ mfs 21 (b2n c.inFault) ∧ mfs 22 c.xcrc.toNat ∧
      mts 6 (fun v k => { k with xseg := v.toNat % 256 }) ∧ mts 16 (fun v k => { k with fvec := v &&& ~~~3#32 }) ∧
      mts 18 (fun v k => { k with fpc := v }) ∧ mts 22 (fun v k => { k with xcrc := v })) ∧
    mts 1 (fun v k => { k with cy := v.getLsbD 0, be := v.getLsbD 1, sat := v.getLsbD 2 }) ∧
    (n.val < 64 → mts 6 (fun v k => { k with xseg := v.toNat % 16 })) ∧
    mts 10 (fun v k => { k with p := (v ||| 1#32).setWidth 8 }) ∧ mts 12 (fun _ k => { k with derr := 0 }))

/-- Loads from L space (R52, R65): the bytes at rs plus the sign-extended offset, little-endian, extended as each form
says. Stores to L space and AMO (R46, R52, R65): the bytes at the computed address take the value, every other byte of
memory and every other register keeps its value, and AMO returns the old word. -/
def Obligations.LocalLoadsAndStores : Prop :=
  (∀ (n : Fin 65) (s : State) (rd rs imm : Nat), rd < 16 → rs < 16 → imm < 2 ^ 14 →
    let a := ((s.core n).gr rs + (BitVec.ofNat 14 imm).signExtend 32).toNat
    let b := fun i => s.byte (lBase n + a + i)
    let w := rd * 2 ^ 18 + rs * 2 ^ 14 + imm
    let half := BitVec.ofNat 16 (b 0 + 2 ^ 8 * b 1)
    let low := b 0 + 2 ^ 8 * b 1 + 2 ^ 16 * b 2 + 2 ^ 24 * b 3
    let high := b 4 + 2 ^ 8 * b 5 + 2 ^ 16 * b 6 + 2 ^ 24 * b 7
    a < lSize n →
      RunsTo (.ldb n) s n 0x10 w (fun c => c.setG rd ((BitVec.ofNat 8 (b 0)).signExtend 32)) ∧
      RunsTo (.ldbu n) s n 0x11 w (fun c => c.setG rd (BitVec.ofNat 32 (b 0))) ∧
      (a % 2 = 0 → RunsTo (.ldh n) s n 0x12 w (fun c => c.setG rd (half.signExtend 32)) ∧
        RunsTo (.ldhu n) s n 0x13 w (fun c => c.setG rd (half.setWidth 32))) ∧
      (a % 4 = 0 → RunsTo (.ldw n) s n 0x14 w (fun c => c.setG rd (BitVec.ofNat 32 low))) ∧
      (a % 8 = 0 → ∀ td < 4, rd = td * 4 →
        RunsTo (.ldt n) s n 0x18 w (fun c => c.setT td (BitVec.ofNat 64 (low + 2 ^ 32 * high))))) ∧
  (∀ (n : Fin 65) (s : State) (rd rs rt imm : Nat), rd < 16 → rs < 16 → rt < 16 → imm < 2 ^ 14 → Flows s n →
    let c := s.core n
    let a := (c.gr rs + (BitVec.ofNat 14 imm).signExtend 32).toNat
    let v := (c.gr rd).toNat
    let stores := fun (i : Instr) (op w at_ k x : Nat) (f : Core → Core) => Runs s n op w → at_ % k = 0 → at_ < lSize n →
      Answers i s (fun t => t = { s with mem := t.mem, cores := t.cores } ∧ MemOnly (lBase n + at_) k s t ∧
        (∀ j < k, t.byte (lBase n + at_ + j) = x / 2 ^ (8 * j) % 256) ∧ (∀ m, m ≠ n.val → t.core m = s.core m) ∧
        t.core n = { f c with pc := c.pc + 4, stale := (t.core n).stale } ∧ (n.val < 64 → (t.core n).stale = c.stale))
    let w := rd * 2 ^ 18 + rs * 2 ^ 14 + imm
    stores (.stb n) 0x15 w a 1 v id ∧ stores (.sth n) 0x16 w a 2 v id ∧ stores (.stw n) 0x17 w a 4 v id ∧
    (∀ td < 4, rd = td * 4 → stores (.stt n) 0x19 w a 8 (c.tr td).toNat id) ∧
    (let l := (c.gr rs).toNat
     let old : Word := BitVec.ofNat 32 (s.byte (lBase n + l) + 2 ^ 8 * s.byte (lBase n + l + 1) +
       2 ^ 16 * s.byte (lBase n + l + 2) + 2 ^ 24 * s.byte (lBase n + l + 3))
     let amo := fun (i : Instr) (op : Nat) (x : Word) =>
       stores i 0x1C (rd * 2 ^ 18 + rs * 2 ^ 14 + rt * 2 ^ 10 + op * 2 ^ 8) l 4 x.toNat (fun k => k.setG rd old)
     amo (.amoSwap n) 0 (c.gr rt) ∧ amo (.amoAdd n) 1 (old + c.gr rt) ∧ amo (.amoOr n) 2 (old ||| c.gr rt) ∧
     amo (.amoCas n) 3 (if old = c.gr rd then c.gr rt else old)))

/-- Control transfers (R66): the pc of BR, JAL and JALR, and the link. How handlers end, and faults (R66, R69-R72,
R80): DONE returns the core to dispatch, BRK and TRAP halt a sequencer core with the next address in FAULT.PC, ERET
continues at FPC, EVCTL clears a slot's PEND. -/
def Obligations.JumpsAndHandlerControl : Prop :=
  (∀ (n : Fin 65) (s : State) (rd rs : Nat) (o : Int), rd < 16 → rs < 16 → (n.val = 64 ∨ s.flag (SEQ.CORE_EXP_STEP n) = false) →
    let c := s.core n
    let target := (c.pc : Int) + 4 * o
    let link := BitVec.ofNat 32 (c.pc + 4)
    (0 ≤ target → target < iSize n →
      (-2 ^ 21 ≤ o → o < 2 ^ 21 → Runs s n 0x20 (o % 2 ^ 22).toNat →
        exec (.br n) s = .next (s.withCore n { c with pc := target.toNat })) ∧
      (-2 ^ 17 ≤ o → o < 2 ^ 17 → Runs s n 0x21 (rd * 2 ^ 18 + (o % 2 ^ 18).toNat) →
        exec (.jal n) s = .next (s.withCore n { c.setG rd link with pc := target.toNat }))) ∧
    (Runs s n 0x22 (rd * 2 ^ 18 + rs * 2 ^ 14) → (c.gr rs).toNat % 4 = 0 → (c.gr rs).toNat < iSize n →
      exec (.jalr n) s = .next (s.withCore n { c.setG rd link with pc := (c.gr rs).toNat }))) ∧
  (∀ (s : State),
    (∀ (n : Fin 65), let c := s.core n
      Runs s n 0x24 0 → c.haltReq = false → (n.val = 64 ∨ s.flag (SEQ.CORE_EXP_STEP n) = false) →
      Answers (.done n) s (fun t => let k := t.core n
        k.run = .idle ∧ k.inHandler = false ∧ k.inFault = false ∧ k.g = c.g ∧ k.p = c.p ∧ k.t = c.t ∧ t.mem = s.mem ∧
          (∀ i < 16, c.pend.getLsbD i = true → k.pend.getLsbD i = true))) ∧
    (∀ (n : Fin 64), let c := s.core n
      s.flag (SEQ.CORE_EXP_FAULT_SKIP n) = false →
      let stops := fun (i : Instr) (cause addr : Nat) => Answers i s (fun t => let k := t.core n
        k.run = .halted ∧ k.faulted = true ∧ k.g = c.g ∧ k.p = c.p ∧ k.t = c.t ∧ t.mem = s.mem ∧
          t.regN (SEQ.FAULT n) = (c.pc + 4) % 2 ^ 16 * 2 ^ 16 + b2n c.init * 2 ^ 15 + c.slot % 16 * 2 ^ 8 + cause ∧
          t.regN (SEQ.FAULT_ADDR n) = addr)
      c.slot < 16 →
      (Runs s n 0x28 0 → stops (.brk n.castSucc) 8 0) ∧
      (∀ code < 2 ^ 16, Runs s n 0x29 code → stops (.trap n.castSucc) 9 code)) ∧
    (let c := s.core 64
     c.inFault = true → c.fpc.toNat < iSize 64 → Runs s 64 0x0E 0 →
      exec (.eret 64) s = .next (s.withCore 64 { c with
        p := (c.fsave ||| 1#32).setWidth 8, cy := c.fsave.getLsbD 8, be := c.fsave.getLsbD 9, sat := c.fsave.getLsbD 10
        inFault := false, pc := c.fpc.toNat })) ∧
    (∀ (n : Fin 65) (rs : Nat), rs < 16 → let c := s.core n
      let m := c.gr rs
      Flows s n →
      (∀ op < 2, Runs s n 0x25 (rs * 2 ^ 18 + op * 2 ^ 16) →
        Answers (.evctl n) s (fun t => t = { s with regs := t.regs, cores := t.cores } ∧
          (∀ k < 16, t.regN (bindReg n k) = if m.getLsbD k then putBit (s.regN (bindReg n k)) 31 (op = 0)
            else s.regN (bindReg n k)) ∧
          (∀ a, (∀ k < 16, a ≠ bindReg n k) → t.reg a = s.reg a) ∧
          (∀ i, t.core i = if i = n.val then { c with pc := c.pc + 4 } else s.core i))) ∧
      (Runs s n 0x25 (rs * 2 ^ 18 + 2 * 2 ^ 16) →
        Answers (.evctl n) s (fun t => OnlyCore n s t ∧ (t.core n).pc = c.pc + 4 ∧ (t.core n).g = c.g ∧
          ∀ k < 16, (t.core n).pend.getLsbD k = (c.pend.getLsbD k || m.getLsbD k) ∧
            (m.getLsbD k = true → getD (t.core n).slotArg k 0 = 0))) ∧
      (Runs s n 0x25 (rs * 2 ^ 18 + 3 * 2 ^ 16) →
        Answers (.evctl n) s (fun t => OnlyCore n s t ∧ t.core n = { c with pc := c.pc + 4, pend := (t.core n).pend } ∧
          ∀ k < 16, (t.core n).pend.getLsbD k = (c.pend.getLsbD k && !m.getLsbD k)))))

/-- Time instructions (R67), TWAIT (R107) and TARM (R108) on instants not yet past, and the end of a TWAIT. -/
def Obligations.TimeResults : Prop :=
  ∀ (n : Fin 65) (s : State) (td ts rs rd : Nat), td < 4 → ts < 4 → rs < 16 → rd < 16 →
    let c := s.core n
    let ns := BitVec.ofNat 64 (s.acc.atb / 2 ^ 48)
    RunsTo (.tnow n) s n 0x2A (td * 2 ^ 20) (fun k => k.setT td ns) ∧
    (∀ sh < 16, RunsTo (.tadd n) s n 0x2B (td * 2 ^ 20 + ts * 2 ^ 18 + rs * 2 ^ 14 + sh * 2 ^ 10)
      (fun k => k.setT td (c.tr ts + ((c.gr rs).signExtend 64 <<< sh)))) ∧
    (∀ imm < 2 ^ 18, RunsTo (.taddi n) s n 0x2C (td * 2 ^ 20 + ts * 2 ^ 18 + imm)
      (fun k => k.setT td (c.tr ts + (BitVec.ofNat 18 imm).signExtend 64))) ∧
    (∀ sh < 64, let d := (c.tr td - c.tr ts).toInt / 2 ^ sh
      RunsTo (.tdiff n) s n 0x2D (rd * 2 ^ 18 + td * 2 ^ 16 + ts * 2 ^ 14 + sh * 2 ^ 8) (fun k =>
        { k.setG rd (BitVec.ofInt 32 (max (-2 ^ 31) (min (2 ^ 31 - 1) d))) with
          sat := k.sat || decide (d < -2 ^ 31 ∨ 2 ^ 31 - 1 < d) })) ∧
    (let tmv := fun (op : Nat) (f : Core → Core) => RunsTo (.tmv n) s n 0x2F (rd * 2 ^ 18 + td * 2 ^ 16 + op * 2 ^ 14) f
     tmv 0 (fun k => k.setG rd ((c.tr td).setWidth 32)) ∧ tmv 1 (fun k => k.setG rd ((c.tr td).extractLsb' 32 32)) ∧
     tmv 2 (fun k => k.setT td ((c.tr td).extractLsb' 32 32 ++ c.gr rd)) ∧
     tmv 3 (fun k => k.setT td (c.gr rd ++ (c.tr td).setWidth 32))) ∧
    ((ns - c.tr td).toInt ≤ 0 →
      (Runs s n 0x30 (td * 2 ^ 8) →
        exec (.twait n) s = .next (s.withCore n { c with wait := .twait (c.tr td), since := s.acc.ltb })) ∧
      (∀ i < 4, RunsTo (.tarm n) s n 0x31 (td * 2 ^ 8 + i * 2 ^ 4) (fun k =>
        { k with dstat := 0x00000100#32, dlat := 0, timers := insertKey k.timers i (c.tr td) }))) ∧
    (∀ i < 4, RunsTo (.tarmDisarm n) s n 0x31 (td * 2 ^ 8 + (4 + i) * 2 ^ 4) (fun k =>
        { k with dstat := 0x00000100#32, dlat := 0, timers := eraseKey k.timers i })) ∧
    (∀ t, c.wait = .twait t → 0 ≤ (ns - t).toInt → Flows s n →
      Answers (.twaitExpire n) s (fun u => OnlyCore n s u ∧
        u.core n = { c with wait := .none, pc := c.pc + 4, dstat := 0, dlat := (u.core n).dlat }))

/-- Fabric reads and posted writes (R23, R53-R55): LDF waits for its value and takes it when it returns; STF is posted
and the core goes on; FENCE goes on once nothing is outstanding; a bus error of an STF sets STATUS.BE and never
faults. -/
def Obligations.FabricResults : Prop :=
  ∀ (n : Fin 65) (s : State) (rd rs w imm : Nat), rd < 16 → rs < 16 → w < 3 → imm < 2 ^ 12 →
    let c := s.core n
    let a := c.xseg % 16 * 2 ^ 32 + (c.gr rs + (BitVec.ofNat 12 imm).signExtend 32).toNat
    let rest := rd * 2 ^ 18 + rs * 2 ^ 14 + w * 2 ^ 12 + imm
    (a % 2 ^ w = 0 →
      (Runs s n 0x1A rest →
        exec (.ldf n) s = .next (s.withCore n { c with wait := .ldf rd a (2 ^ w), since := s.acc.ltb })) ∧
      (c.posted.countP Posted.waits < 4 → RunsTo (.stf n) s n 0x1B rest (fun k =>
        { k with posted := k.posted ++ [.store a (2 ^ w) ((c.gr rd).toNat % 2 ^ (8 * 2 ^ w))] }))) ∧
    (∀ b k, c.wait = .ldf rd b k → c.dpost = 0 → s.plt.stalled = [] → s.on 2 = true → Flows s n →
      regionOf b = .flacon → regionOf (b + (k - 1)) = .flacon →
      exec (.ldfReturn n) s = .next (s.withCore n
        { c.setG rd (BitVec.ofNat 32 (s.mem' b k)) with wait := .none, pc := c.pc + 4 })) ∧
    (c.posted = [] → RunsTo (.fence n) s n 0x26 0 (fun k => { k with stale := [] })) ∧
    (c.posted = [] → c.wait = .fence → Flows s n →
      exec (.fenceComplete n) s = .next (s.withCore n { c with wait := .none, stale := [], pc := c.pc + 4 })) ∧
    (∀ l, c.posted = .busError :: l →
      exec (.stfBusError n) s = .next (s.withCore n { c with posted := l, be := true })) ∧
    (∀ b v l, c.posted = .store b (2 ^ w) v :: l → c.wait = .none → s.plt.stalled = [] → s.on 2 = true →
      regionOf b = .flacon → regionOf (b + (2 ^ w - 1)) = .flacon →
      Answers (.postedWriteComplete n 0) s (fun t => t = { s with mem := t.mem, cores := t.cores } ∧
        MemOnly b (2 ^ w) s t ∧ (∀ j < 2 ^ w, t.byte (b + j) = v / 2 ^ (8 * j) % 256) ∧
        t.core n = { c with posted := l } ∧ ∀ m, m ≠ n.val → t.core m = s.core m))

/-- XCOPY between two parts of Flacon (R84): COPY and FILL write the destination, COPYCRC and CRC fold what they read
into XCRC, and every byte outside the destination keeps its value. -/
def Obligations.XcopyResults : Prop :=
  ∀ (s : State) (rd rs rt : Nat), rd < 16 → rs < 16 → rt < 16 → Flows s 64 → (s.core 64).dpost = 0 → s.plt.stalled = [] →
    s.on 2 = true →
    let c := s.core 64
    let len := (c.gr rd).toNat
    let src := (c.gr rs).toNat + c.xseg % 16 * 2 ^ 32
    let dst := (c.gr rt).toNat + c.xseg / 16 % 16 * 2 ^ 32
    let inside := fun a => 0x10000000 ≤ a ∧ a + len ≤ 0x10400000
    let rest := fun op => rd * 2 ^ 18 + rs * 2 ^ 14 + rt * 2 ^ 10 + op * 2 ^ 8
    let only := fun t : State => t = { s with mem := t.mem, cores := t.cores } ∧ ∀ m, m ≠ 64 → t.core m = s.core m
    let crc := BitVec.ofNat 32 (crc32From c.xcrc.toNat (s.bytes src len))
    len % 4 = 0 → len ≤ 0x100000 → dst % 4 = 0 → inside dst →
      (src % 4 = 0 → inside src →
        (src + len ≤ dst ∨ dst + len ≤ src →
          (Runs s 64 0x1D (rest 0) → Answers (.xcopyCopy 64) s (fun t => only t ∧ MemOnly dst len s t ∧
            (∀ i < len, t.byte (dst + i) = s.byte (src + i)) ∧ t.core 64 = { c with pc := c.pc + 4 })) ∧
          (Runs s 64 0x1D (rest 1) → Answers (.xcopyCopycrc 64) s (fun t => only t ∧ MemOnly dst len s t ∧
            (∀ i < len, t.byte (dst + i) = s.byte (src + i)) ∧ t.core 64 = { c with pc := c.pc + 4, xcrc := crc }))) ∧
        (Runs s 64 0x1D (rest 2) →
          exec (.xcopyCrc 64) s = .next (s.withCore 64 { c with pc := c.pc + 4, xcrc := crc }))) ∧
      (Runs s 64 0x1D (rest 3) → Answers (.xcopyFill 64) s (fun t => only t ∧ MemOnly dst len s t ∧
        (∀ i < len, t.byte (dst + i) = (c.gr rs).toNat / 2 ^ (8 * (i % 4)) % 256) ∧ t.core 64 = { c with pc := c.pc + 4 }))

/-- Dispatch, timers, the handler watchdog and doorbells (R73-R77, R81, R108). -/
def Obligations.DispatchResults : Prop :=
  ∀ (s : State) (n : Fin 65), s.on (coreDomain n) = true →
    let c := s.core n
    (∀ k < 16, c.run = .idle → s.ist.running = [] → s.ist.queue = [] → c.pend.getLsbD k = true → bit (s.regN (bindReg n k)) 31 = true →
      (∀ j < k, c.pend.getLsbD j = false ∨ bit (s.regN (bindReg n j)) 31 = false) →
      let b := s.regN (bindReg n k)
      Answers (.dispatch n) s (fun t => OnlyCore n s t ∧ let d := t.core n
        d.run = .running ∧ d.slot = k ∧ d.pc = b % 2 ^ 16 ∧ d.pend.getLsbD k = false ∧
          (∀ j < 16, j ≠ k → d.pend.getLsbD j = c.pend.getLsbD j) ∧
          d.evsrc.toNat = k + b / 2 ^ 28 % 8 * 2 ^ 4 + b / 2 ^ 16 % 256 * 2 ^ 8 ∧ d.g = c.g ∧ d.p = c.p ∧ d.t = c.t ∧
          d.budget = (if n.val = 64 then s.regN MGT.HBUDGET else s.regN (SEQ.HBUDGET n)))) ∧
    (∀ (i : Fin 4) t, find c.timers i = some t → 0 ≤ (BitVec.ofNat 64 (s.acc.atb / 2 ^ 48) - t).toInt → s.boundSlots 2 i = [] →
      exec (.coreTimerExpire n i) s = .next (s.withCore n { c with timers := eraseKey c.timers i })) ∧
    (∀ b k, b < 16 → k < 16 → c.run ≠ .held → c.pend.getLsbD k = false → s.boundSlots 3 b = [(n.val, k)] →
      Answers (.doorbellWrite n (BitVec.ofNat 32 (2 ^ b))) s (fun t => OnlyCore n s t ∧
        (t.core n).pend.getLsbD k = true ∧ (t.core n).run = c.run)) ∧
    (n.val < 64 → c.run = .running → c.inHandler = true → c.budget ≠ 0 → s.hleft n = 0 →
      s.flag (SEQ.CORE_EXP_FAULT_SKIP n) = false → c.slot < 16 →
      Answers (.handlerWdog n) s (fun t => (t.core n).run = .halted ∧
        t.regN (SEQ.FAULT n) = c.pc % 2 ^ 16 * 2 ^ 16 + b2n c.init * 2 ^ 15 + c.slot * 2 ^ 8 + 7))

/-- Commands to a core from outside it: START, HALT, KILL and RESET (R86-R90, R111), the release instant, BIND and
XSEG_INIT (R79, R89). -/
def Obligations.CoreControl : Prop :=
  ∀ (s : State) (n : Fin 64), s.on (coreDomain n) = true →
    let c := s.core n
    (c.run = .held → s.flag SEQ.START_CTL_ARMED = false → s.flag (SEQ.INIT_ENTRY_EN n) = false →
      Answers (.coreStart n) s (fun t => OnlyCore n s t ∧ (t.core n).run = .idle)) ∧
    (c.run = .held → s.flag SEQ.START_CTL_ARMED = true →
      exec (.coreStart n) s = .next (s.withCore n { c with marked := true })) ∧
    (c.run = .halted → exec (.coreStart n) s = .next (s.withCore n { c with
      run := if c.inHandler then .running else .idle, pc := s.regN (SEQ.FAULT n) / 2 ^ 16, dispatched := s.acc.ltb })) ∧
    (c.run = .idle → c.slot < 16 → Answers (.coreHalt n) s (fun t => (t.core n).run = .halted ∧ (t.core n).g = c.g ∧
      t.regN (SEQ.FAULT n) = c.pc % 2 ^ 16 * 2 ^ 16 + b2n c.init * 2 ^ 15 + c.slot * 2 ^ 8)) ∧
    (c.run = .running → exec (.coreHalt n) s = .next (s.withCore n { c with haltReq := true })) ∧
    (c.run = .running → c.wait = .none → Answers (.coreKill n) s (fun t => (t.core n).run = .halted ∧ (t.core n).g = c.g)) ∧
    (c.run = .halted → Answers (.coreReset n) s (fun t => (t.core n).run = .held ∧ (t.core n).g = [] ∧ (t.core n).pend = 0 ∧
      (t.core n).timers = [] ∧ t.regN (SEQ.FAULT n) = 0)) ∧
    (s.on 2 = true → s.reached (BitVec.ofNat 64 (s.pair SEQ.START_AT_LO SEQ.START_AT_HI)) = false →
      Answers .startArm s (fun t => t.flag SEQ.START_CTL_ARMED = true ∧ t.cores = s.cores)) ∧
    (s.on 2 = true → s.flag SEQ.START_CTL_ARMED = true → (s.comp 72).armed = true → s.reached (s.comp 72).at_ = true →
      c.marked = true → c.run = .held →
      Answers .startRelease s (fun t => t.flag SEQ.START_CTL_ARMED = false ∧
        (t.core n).run = (if s.flag (SEQ.INIT_ENTRY_EN n) then .running else .idle) ∧ (t.core n).marked = false)) ∧
    (∀ v : Word, c.run = .held → s.flag (lockOf (SEQ.XSEG_INIT n)) = false →
      exec (.xsegInitWrite n v) s = .next (s.withCore n { c with xseg := v.toNat % 16 })) ∧
    (∀ (k : Fin 16) (v : Word), s.flag (lockOf (bindReg n k)) = false → bits v.toNat 30 28 = 1 → bits v.toNat 23 16 ≤ 95 →
      v.toNat % 4 = 0 →
      Answers (.bindWrite n.castSucc k v) s (fun t => t.regN (SEQ.BIND n k) = v.toNat % 2 ^ 24 + v.toNat / 2 ^ 28 * 2 ^ 28 ∧
        t.mem = s.mem ∧ ∀ j < 16, j ≠ k.val → (t.core n).pend.getLsbD j = c.pend.getLsbD j))

/-- P-class operations at issue (R96, R97, R115, R118, R120, R123, R128, R130): with fewer than four writes
outstanding the core posts the operation with its operands and goes on; nothing else changes. Q-class operations at
issue while earlier writes are outstanding (R24, R96): the core stalls with its request, which carries its operands
and its block, and nothing else changes. -/
def Obligations.DeviceOperationsAtIssue : Prop :=
  (∀ (n : Fin 65) (s : State) (rs rt ta : Nat), rs < 16 → rt < 16 → ta < 4 → (s.core n).posted.countP Posted.waits < 4 →
    let c := s.core n
    let a := c.gr rs
    let b := c.gr rt
    let block := fun (x : Word) => (List.range 4).map (fun i => BitVec.ofNat 32 (s.word (lBase n + x.toNat + 4 * i)))
    let inL := fun (x : Word) => x.toNat % 16 = 0 ∧ x.toNat + 16 ≤ lSize n
    let posts := fun (i : Instr) (op sub r t : Nat) (l : List Word) =>
      RunsTo i s n op (rs * 2 ^ 14 + r * 2 ^ 10 + t * 2 ^ 8 + sub * 2 ^ 4) (fun k =>
        { k with posted := k.posted ++ [.op op sub a (c.gr r) l (c.tr t)] })
    (a.toNat ≤ 63 → inL b → posts (.push n) 0x33 0 rt 0 (block b)) ∧
    (inL a → s.learnOk (block a) = true → posts (.learn n) 0x36 0 0 0 (block a)) ∧
    (inL a → jobOk (block a) = true → posts (.seal n) 0x38 0 0 0 (block a) ∧ posts (.openJob n) 0x39 0 0 0 (block a)) ∧
    (a.toNat ≤ 131071 →
      (b ≠ 0 → posts (.calupdAdd n) 0x3C 0 rt ta [] ∧ posts (.calupdInterval n) 0x3C 3 rt 0 []) ∧
      posts (.calupdRemove n) 0x3C 1 0 0 [] ∧ posts (.calupdMove n) 0x3C 2 0 ta [] ∧
      (inL b → (descOf (block b)).type = 6 → posts (.macreqDlqueue n) 0x3D 2 rt 0 (block b)) ∧
      posts (.macreqSearch n) 0x3D 3 0 0 []) ∧
    posts (.bufFree n) 0x3E 1 0 0 []) ∧
  (∀ (n : Fin 65) (s : State) (rd rs rt ta : Nat), rd < 16 → rs < 16 → rt < 16 → ta < 4 → (s.core n).dpost ≠ 0 →
    let c := s.core n
    let a := c.gr rs
    let b := c.gr rt
    let block := fun (x : Word) => (List.range 4).map (fun i => BitVec.ofNat 32 (s.word (lBase n + x.toNat + 4 * i)))
    let inL := fun (x : Word) => x.toNat % 16 = 0 ∧ x.toNat + 16 ≤ lSize n
    let stalls := fun (i : Instr) (op sub d r t : Nat) (l : List Word) (out : Nat) =>
      Runs s n op (d * 2 ^ 18 + rs * 2 ^ 14 + r * 2 ^ 10 + t * 2 ^ 8 + sub * 2 ^ 4) →
        exec i s = .next (s.withCore n { c with wait := .query ⟨op, sub, d, a, c.gr r, l, out, c.tr t⟩ none, since := s.acc.ltb })
    (actionOk a = true → stalls (.trigArm n) 0x32 0 rd 0 ta [] 0) ∧
    (a.toNat ≤ 511 → stalls (.trigCancel n) 0x32 1 rd 0 0 [] 0) ∧
    (a.toNat ≤ 63 → inL b → stalls (.push n) 0x33 1 0 rt 0 (block b) 0 ∧ stalls (.pop n) 0x34 0 rd rt 0 [] b.toNat) ∧
    stalls (.lookupEui64 n) 0x35 0 rd rt 0 [] 0 ∧ stalls (.lookupShort n) 0x35 1 rd 0 0 [] 0 ∧
    (keyRefOk a = true → stalls (.kfetch n) 0x37 0 rd 0 0 [] 0) ∧
    (inL a → txatOk (block a) = true → stalls (.txat n) 0x3A 0 rd 0 ta (block a) 0) ∧
    (inL a → listenOk (block a) = true → stalls (.listen n) 0x3B 0 rd 0 ta (block a) 0) ∧
    (a.toNat ≤ 131071 → stalls (.macreqDlcount n) 0x3D 0 rd 0 0 [] 0) ∧
    (inL a → b.toNat < 4 → stalls (.macreqAck n) 0x3D 1 rd rt ta (block a) 0) ∧
    (a.toNat ≤ 1 → stalls (.bufAlloc n) 0x3E 0 rd 0 0 [] 0))

/-- Q-class operations with no earlier write outstanding, at TM and ACC (R109, R110, R114, R115, R118): POP removes
the head of its ring, PUSH with WAIT appends, BUF ALLOC takes a free buffer, TRIG ARM arms a free comparator with the
action word and its core, TRIG CANCEL frees it; each is answered, and the core waits for the answer. -/
def Obligations.ServedAtTmAndAcc : Prop :=
  ∀ (n : Fin 65) (s : State) (rd rs rt ta : Nat), rd < 16 → rs < 16 → rt < 16 → ta < 4 → (s.core n).dpost = 0 →
    s.plt.stalled = [] → s.fetching n = false → s.on 2 = true → s.on 0 = true →
    let c := s.core n
    let a := c.gr rs
    let b := c.gr rt
    let r := a.toNat
    let block := fun (x : Word) => (List.range 4).map (fun i => BitVec.ofNat 32 (s.word (lBase n + x.toNat + 4 * i)))
    let inL := fun (x : Word) => x.toNat % 16 = 0 ∧ x.toNat + 16 ≤ lSize n
    let word := fun (d r t sub : Nat) => d * 2 ^ 18 + rs * 2 ^ 14 + r * 2 ^ 10 + t * 2 ^ 8 + sub * 2 ^ 4
    let waits := fun (t : State) (q : QReq) (x : Resp) =>
      t.core n = { c with wait := .query q (some x), since := s.acc.ltb }
    (∀ e l, Runs s n 0x34 (word rd rt 0 0) → r ≤ 63 → inL b → s.shallow r = true → (s.ring r).ptrFault = 0 →
      (s.ring r).q = e :: l → s.tm.held = [] → s.flag (TM.RING_CTL_EN r) = true →
      Answers (.pop n) s (fun t => (t.ring r).q = l ∧
        waits t ⟨0x34, 0, rd, a, b, [], b.toNat, c.tr 0⟩ ⟨if e.d.poison then 9 else 0, 0, e.d.w0, e.d.w1, e.d.words, false⟩)) ∧
    (Runs s n 0x34 (word rd rt 0 0) → r ≤ 63 → inL b → (s.ring r).ptrFault = 0 → (s.ring r).q = [] →
      exec (.pop n) s = .next (s.withCore n { c with
        wait := .query ⟨0x34, 0, rd, a, b, [], b.toNat, c.tr 0⟩ (some ⟨1, 0, 0xF#32, 0#32, [0xF#32, 0#32, 0#32, 0#32], false⟩)
        since := s.acc.ltb })) ∧
    (Runs s n 0x33 (word 0 rt 0 1) → r ≤ 63 → inL b → (s.ring r).ptrFault = 0 → (s.ring r).reclaiming = false →
      s.flag (TM.RING_CTL_EN r) = true → (descOf (block b)).type ≠ 0xF →
      ((s.ring r).q.length < s.depth r → Answers (.push n) s (fun t =>
        (t.ring r).q = (s.ring r).q ++ [⟨descOf (block b), s.ltbUs % 2 ^ 32, (s.ring r).tail⟩] ∧
        (t.core n).wait = .query ⟨0x33, 1, 0, a, b, block b, 0, c.tr 0⟩ (some ⟨0, 0, 0, 0, [], false⟩))) ∧
      (s.depth r ≤ (s.ring r).q.length → exec (.push n) s = .next (s.withCore n { c with
        wait := .query ⟨0x33, 1, 0, a, b, block b, 0, c.tr 0⟩ (some ⟨2, 0, 0, 0, [], false⟩), since := s.acc.ltb }))) ∧
    (Runs s n 0x3E (word rd 0 0 0) → r ≤ 1 → s.classThreshold r < s.fld TM.POOL_STATUS_FREE →
      (∃ x < 16384, s.isFree x = true) →
      Answers (.bufAlloc n) s (fun t => ∃ x < 16384, s.isFree x = true ∧ t.meta x = 0x40 * 2 ^ 25 + 256 * 2 ^ 16 + 2 ^ 15 + 2 ^ 14 ∧
        MemOnly (metaAddr x) 4 s t ∧ t.fld TM.POOL_STATUS_FREE = s.fld TM.POOL_STATUS_FREE - 1 ∧
        waits t ⟨0x3E, 0, rd, a, c.gr 0, [], 0, c.tr 0⟩ ⟨0, 0, BitVec.ofNat 32 x, 0, [], false⟩)) ∧
    (Runs s n 0x32 (word rd 0 ta 0) → actionOk a = true → s.fld ACC.TRIG_CFG_QUOTA = 0 →
      (∃ x, 96 ≤ x ∧ x < 512 ∧ (s.comp x).armed = false) → 100 ≤ tdiff (c.tr ta) s.now →
      Answers (.trigArm n) s (fun t => ∃ x, 96 ≤ x ∧ x < 512 ∧ (s.comp x).armed = false ∧ (t.comp x).armed = true ∧
        (t.comp x).at_ = c.tr ta ∧ (t.comp x).owner = n.val ∧ (t.comp x).action = a ∧
        (∀ y, y ≠ x → t.comp y = s.comp y) ∧ t.mem = s.mem ∧ t.regs = s.regs ∧
        waits t ⟨0x32, 0, rd, a, c.gr 0, [], 0, c.tr ta⟩ ⟨0, 0, BitVec.ofNat 32 x, 0, [], false⟩)) ∧
    (Runs s n 0x32 (word rd 0 0 1) → 96 ≤ r → r ≤ 511 → (s.comp r).armed = true → (s.comp r).everArmed = true →
      (s.comp r).owner = n.val → (s.comp r).fired = false →
      Answers (.trigCancel n) s (fun t => (t.comp r).armed = false ∧ (∀ y, y ≠ r → t.comp y = s.comp y) ∧
        t.mem = s.mem ∧ t.regs = s.regs ∧
        waits t ⟨0x32, 1, rd, a, c.gr 0, [], 0, c.tr 0⟩ ⟨0, 0, 0, 0, [], false⟩))

/-- Q-class operations with no earlier write outstanding, at FWD, KEY, BB and MAC (R119, R122, R125, R127, R128):
LOOKUP finds the entry and sets HIT or misses, KFETCH queues a key load, TXAT stages a transmission and arms its
trigger, LISTEN commits a lane, MACREQ DLCOUNT counts the node's downlink ring. MACREQ ACK of a measured unsecured
poll (R128, R235): the acknowledgement is built in a buffer of MAC's, staged on a voice at the instant given, and the
core is answered with voice and comparator. -/
def Obligations.ServedAtOtherEngines : Prop :=
  (∀ (n : Fin 65) (s : State) (rd rs rt ta : Nat), rd < 16 → rs < 16 → rt < 16 → ta < 4 → (s.core n).dpost = 0 →
    s.plt.stalled = [] → s.fetching n = false → s.on 2 = true → s.on 12 = true → s.on 16 = true →
    let c := s.core n
    let a := c.gr rs
    let b := c.gr rt
    let block := (List.range 4).map (fun i => BitVec.ofNat 32 (s.word (lBase n + a.toNat + 4 * i)))
    let inL := a.toNat % 16 = 0 ∧ a.toNat + 16 ≤ lSize n
    let word := fun (r t sub : Nat) => rd * 2 ^ 18 + rs * 2 ^ 14 + r * 2 ^ 10 + t * 2 ^ 8 + sub * 2 ^ 4
    let waits := fun (t : State) (q : QReq) (x : Resp) =>
      t.core n = { c with wait := .query q (some x), since := s.acc.ltb }
    let lookups := fun (i : Instr) (sub key : Nat) (r : Nat) => Runs s n 0x35 (word r 0 sub) →
      s.flag FWD.FWD_CTL_EN = true →
      (∀ w < 4, entParOk (s.bytes (entAddr (s.buckets sub key).1 w) 16) = true ∧
        entParOk (s.bytes (entAddr (s.buckets sub key).2 w) 16) = true) →
      (∀ bk w, s.findEnt sub key = some (bk, w) → let e := s.ent bk w
        Answers i s (fun t => MemOnly (entAddr bk w) 16 s t ∧
          waits t ⟨0x35, sub, rd, a, c.gr r, [], 0, c.tr 0⟩ ⟨0, 0, BitVec.ofNat 32 (e.nidx + b2n e.managed * 2 ^ 17),
            BitVec.ofNat 32 (e.port + e.gen % 16 * 2 ^ 16), [], false⟩)) ∧
      (s.findEnt sub key = none → exec i s = .next (s.withCore n { c with
        wait := .query ⟨0x35, sub, rd, a, c.gr r, [], 0, c.tr 0⟩ (some ⟨3, 0, 0xFFFFFFFF#32, 0, [], false⟩), since := s.acc.ltb }))
    lookups (.lookupEui64 n) 0 (a.toNat + b.toNat * 2 ^ 32) rt ∧ lookups (.lookupShort n) 1 a.toNat 0 ∧
    (Runs s n 0x37 (word 0 0 0) → keyRefOk a = true →
      Answers (.kfetch n) s (fun t => t.key = { s.key with loads := s.key.loads ++ [(.kfetch n, a)] } ∧ t.regs = s.regs ∧
        t.core n = { c with wait := .query ⟨0x37, 0, rd, a, c.gr 0, [], 0, c.tr 0⟩ none, since := s.acc.ltb })) ∧
    (∀ ln, let w0 := (block.getD 0 0).toNat
      let p := bits w0 1 0
      let dur := bits (block.getD 1 0).toNat 19 0 * 1000
      Runs s n 0x3B (word 0 ta 0) → inL → listenOk block = true → s.flag (FE.PORT_CTL_EN p) = true →
      s.flag (FE.PORT_STATUS_READY p) = true → 2000 ≤ tdiff (c.tr ta) s.now →
      s.listenLane p (c.tr ta) (tplus (c.tr ta) dur) = some ln →
      Answers (.listen n) s (fun t => (∃ w ∈ (t.lane ln).windows, w.from_ = c.tr ta ∧ w.dur = dur ∧ w.chan = bits w0 8 2 ∧
          w.mode = bits w0 12 9 ∧ w.byListen = true ∧ w.opened = false) ∧ t.regs = s.regs ∧ t.mem = s.mem ∧
        waits t ⟨0x3B, 0, rd, a, c.gr 0, block, 0, c.tr ta⟩ ⟨0, 0, BitVec.ofNat 32 ln, 0, [], false⟩)) ∧
    (∀ k e v, let r := txatReq block (c.tr ta)
      let l := tplus r.trig 200
      let air := s.airtime r.mode r.len
      Runs s n 0x3A (word 0 ta 0) → inL → txatOk block = true → s.flag (FE.PORT_CTL_EN r.port) = true →
      s.flag (FE.PORT_STATUS_READY r.port) = true → s.reserved r.port l air = false →
      s.permits (s.profileAt l) r.port r.chan = some (k, e) → s.resolve k e r.port r.request = some r.request →
      s.assess k e r.cca = none → s.voiceFor r.port r.chan l (tplus l (air + 10000)) = some v →
      s.dutyBreach k e l.toNat air = false → s.dwellBreach k e r.port r.chan l.toNat air = false →
      2000 ≤ tdiff r.trig s.now → s.ist.running = [] →
      Answers (.txat n) s (fun t => (∃ x ∈ t.bb.staged, x.voice = v ∧ x.port = r.port ∧ x.chan = r.chan ∧ x.mode = r.mode ∧
          x.buf = r.buf ∧ x.len = r.len ∧ x.power = r.request ∧ x.trig = c.tr ta ∧ x.tag = r.tag ∧
          (t.comp (4 * v + x.place)).armed = true ∧ (t.comp (4 * v + x.place)).at_ = c.tr ta ∧
          waits t ⟨0x3A, 0, rd, a, c.gr 0, block, 0, c.tr ta⟩ ⟨0, 0, BitVec.ofNat 32 v, BitVec.ofNat 32 (4 * v + x.place), [], false⟩) ∧
        t.bb.staged.length = s.bb.staged.length + 1 ∧ t.regs = s.regs ∧ t.mem = s.mem)) ∧
    (∀ x, Runs s n 0x3D (word 0 0 0) → a.toNat ≤ 131071 → s.flag MAC.MAC_CTL_EN = true →
      find s.mac.cache a.toNat = some x → x.state ≠ 0 →
      exec (.macreqDlcount n) s = .next (s.withCore n { c with
        wait := .query ⟨0x3D, 0, rd, a, c.gr 0, [], 0, c.tr 0⟩ (some ⟨0, 0, BitVec.ofNat 32 (s.dlRing a.toNat).length, 0, [], false⟩)
        since := s.acc.ltb }))) ∧
  (∀ (n : Fin 65) (s : State) (rd rs rt ta : Nat) (x : Node) (m : Meas) (k e v : Nat), rd < 16 → rs < 16 → rt < 16 → ta < 4 →
    (s.core n).dpost = 0 → s.plt.stalled = [] → s.fetching n = false → s.on 2 = true →
    let c := s.core n
    let a := c.gr rs
    let block := (List.range 4).map (fun i => BitVec.ofNat 32 (s.word (lBase n + a.toNat + 4 * i)))
    let d := descOf block
    let i := d.nidx
    let l := tplus (c.tr ta) 200
    let air := s.airtime m.mode ((s.ackBytes x m (c.gr rt).toNat.bodd).1.length + 2)
    Runs s n 0x3D (rd * 2 ^ 18 + rs * 2 ^ 14 + rt * 2 ^ 10 + ta * 2 ^ 8 + 2 ^ 4) → a.toNat % 16 = 0 → a.toNat + 16 ≤ lSize n →
    (c.gr rt).toNat < 2 → s.flag MAC.MAC_CTL_EN = true → s.mac.inbox = [] → s.cry.ctxs = [] →
    find s.mac.cache i = some x → x.state = 2 → find s.mac.meas i = some m → m.sfd = d.sfd → m.level = 0 →
    64 < s.fld TM.POOL_STATUS_FREE → (∃ y < 16384, s.isFree y = true) →
    s.flag (FE.PORT_CTL_EN m.port) = true → s.flag (FE.PORT_STATUS_READY m.port) = true → m.port < 3 →
    s.reserved m.port l air = false → s.permits (s.profileAt l) m.port m.chan = some (k, e) →
    (s.resolve k e m.port (signed 8 x.txpwr)).isSome = true → s.assess k e false = none →
    s.voiceFor m.port m.chan l (tplus l (air + 10000)) = some v → s.dutyBreach k e l.toNat air = false →
    s.dwellBreach k e m.port m.chan l.toNat air = false → 2000 ≤ tdiff (c.tr ta) s.now →
    Answers (.macreqAck n) s (fun t => ∃ y ∈ t.bb.staged, y.voice = v ∧ y.port = m.port ∧ y.chan = m.chan ∧ y.mode = m.mode ∧
      y.trig = c.tr ta ∧ s.isFree y.buf = true ∧
      (t.core n).wait = .query ⟨0x3D, 1, rd, a, c.gr rt, block, 0, c.tr ta⟩
        (some ⟨0, 0, BitVec.ofNat 32 v, BitVec.ofNat 32 (4 * v + y.place), [], false⟩)))

/-- The end of device operations (R96, R99, R100, R104): the answer of a Q-class operation writes rd, DRES and DSTAT
and the core goes on; a bus error absorbed under BERR_NOFAULT gives 0xFFFFFFFF and sets STATUS.BE; the error of a
P-class operation counts in DERR, which keeps the first. -/
def Obligations.OperationEnds : Prop :=
  ∀ (n : Fin 65) (s : State),
    let c := s.core n
    (∀ q code detail rd dres, c.wait = .query q (some ⟨code, detail, rd, dres, [], false⟩) → c.killReq = false → Flows s n →
      (q.opcode ≠ 0x32 ∨ q.sub = 0) → 0x30 ≤ q.opcode → q.opcode < 0x3F → code < 256 → detail < 65536 →
      Answers (.qResponse n) s (fun t => OnlyCore n s t ∧ let k := t.core n
        k = { c.setG q.rd rd with pc := c.pc + 4, wait := .none, dres := dres, dlat := k.dlat
                                  dstat := BitVec.ofNat 32 (code + (q.opcode - 0x30) * 2 ^ 8 + detail * 2 ^ 16) })) ∧
    (∀ q, n.val < 64 → c.wait = .query q (some ⟨0x0D, 0, 0xFFFFFFFF#32, 0, [], true⟩) → c.killReq = false → Flows s n →
      s.flag (SEQ.CORE_EXP_BERR_NOFAULT n) = true → 0x30 ≤ q.opcode → q.opcode < 0x3F → q.opcode ≠ 0x34 →
      Answers (.qResponse n) s (fun t => OnlyCore n s t ∧ let k := t.core n
        k = { c.setG q.rd 0xFFFFFFFF#32 with pc := c.pc + 4, wait := .none, dres := 0, be := true, dlat := k.dlat
                                             dstat := BitVec.ofNat 32 (0x0D + (q.opcode - 0x30) * 2 ^ 8) })) ∧
    (∀ op code l, c.posted = .refused op code :: l → op < 15 → code < 256 →
      let cnt := min (c.derr.toNat / 2 ^ 16 + 1) 0xFFFF
      let derr := if c.derr.getLsbD 15 = true then c.derr.toNat % 2 ^ 16 + cnt * 2 ^ 16 else code + op * 2 ^ 8 + 2 ^ 15 + cnt * 2 ^ 16
      exec (.asyncErrorResponse n) s = .next (s.withCore n { c with posted := l, derr := BitVec.ofNat 32 derr }))

/-- A word whose guard fails changes nothing but the pc, whatever its row (R57); decode faults come whatever the
guard, with the word in FAULT_ADDR, and change no register and no memory (R50, R57, R58, R60, R69, R70). Where decode
faults lie (R57, R58, R60): a Yafort-P opcode or a privileged special register on a sequencer core is PRIV; a guard of
PN 1 and PG 0, an opcode of no row, a reserved condition and a field that must be 0 are ILLEGAL; ERET outside a fault
handler is ILLEGAL; the two words of fixed meaning. -/
def Obligations.DecodeFaults : Prop :=
  (∀ (n : Fin 65) (s : State) (r : Row), s.on (coreDomain n) = true → (s.core n).run = .running → (s.core n).wait = .none →
    rowOf (s.fetch n) = r → (s.core n).dpost = 0 → s.plt.stalled = [] →
    let c := s.core n
    (decodeFault (n.val = 64) c.inFault (s.fetch n) = none → c.guard (s.fetch n) = false → Flows s n →
      exec (coreCommand r n) s = .next (s.withCore n { c with pc := c.pc + 4 })) ∧
    (∀ cause, decodeFault (n.val = 64) c.inFault (s.fetch n) = some cause → n.val < 64 → c.slot < 16 →
      s.flag (SEQ.CORE_EXP_FAULT_SKIP n) = false →
      Answers (coreCommand r n) s (fun t => let k := t.core n
        k.run = .halted ∧ k.faulted = true ∧ k.g = c.g ∧ k.p = c.p ∧ k.t = c.t ∧ k.pend = c.pend ∧ t.mem = s.mem ∧
          t.regN (SEQ.FAULT n) = c.pc % 2 ^ 16 * 2 ^ 16 + b2n c.init * 2 ^ 15 + c.slot * 2 ^ 8 + cause ∧
          t.regN (SEQ.FAULT_ADDR n) = s.fetch n))) ∧
  ((∀ (b f : Bool) (g op rest : Nat), g < 8 → rest < 2 ^ 22 → op = 0x0E ∨ op = 0x1D →
    decodeFault false f (instrWord b g op rest) = some 2) ∧
  (∀ (b f : Bool) (g r sn dir : Nat), g < 8 → r < 16 → 16 ≤ sn → sn ≤ 22 → dir < 2 →
    decodeFault false f (instrWord b g 0x0C (r * 2 ^ 18 + sn * 2 ^ 12 + dir * 2 ^ 11)) = some 2) ∧
  (∀ (f : Bool) (op rest : Nat), op < 64 → rest < 2 ^ 22 → decodeFault true f (instrWord true 0 op rest) = some 1) ∧
  (∀ (b m f : Bool) (g op rest : Nat), g < 8 → rest < 2 ^ 22 →
    op ∈ [0x0D, 0x0F, 0x1E, 0x1F, 0x23, 0x27, 0x3F] → decodeFault m f (instrWord b g op rest) = some 1) ∧
  (∀ (b m f : Bool) (g low : Nat), g < 8 → 0 < low → low < 32 → decodeFault m f (instrWord b g 0 low) = some 1) ∧
  (∀ (b m f : Bool) (g cc : Nat), g < 8 → 12 ≤ cc → cc < 16 → decodeFault m f (instrWord b g 9 (cc * 2 ^ 13)) = some 1) ∧
  (∀ (b : Bool) (g : Nat), g < 8 → decodeFault true false (instrWord b g 0x0E 0) = some 1) ∧
  rowOf 0 = .add ∧ (∀ m f, decodeFault m f 0 = none) ∧ (∀ m f, decodeFault m f 0xFFFFFFFF = some 1) ∧
  rowOf 0x05084040 = .ldw ∧ rowOf 0x0288C4FF = .cmpi ∧ rowOf 0x10488001 = .addi ∧ rowOf 0x15C84040 = .stw ∧
  rowOf 0x09000000 = .done ∧ rowOf 0x0D063000 = .pop ∧ rowOf 0x0F5B1910 = .macAck)

/-- Faults of an instruction's own at a sequencer core (R52, R66, R69, R70, R97, R103): misaligned and out-of-range L
addresses, a jump outside I space or to an unaligned register target, a misaligned fabric access, an L block that is
misaligned or reaches out of L space, and operands out of range. The instruction performs nothing, and the core halts.
A fault of the management core (R72): outside a fault handler it writes FCAUSE, FPC, FADDR and FSAVE, sets INFAULT and
continues at FVEC, its registers as they were. -/
def Obligations.ExecutionAndManagementFaults : Prop :=
  (∀ (n : Fin 64) (s : State) (rd rs rt : Nat), rd < 16 → rs < 16 → rt < 16 → (s.core n).slot < 16 →
    s.flag (SEQ.CORE_EXP_FAULT_SKIP n) = false →
    let c := s.core n
    let a := (c.gr rs).toNat
    let faults := fun (i : Instr) (op rest cause addr : Nat) => Runs s n op rest → Answers i s (fun t => let k := t.core n
      k.run = .halted ∧ k.faulted = true ∧ k.g = c.g ∧ k.p = c.p ∧ k.t = c.t ∧ k.posted = c.posted ∧ t.mem = s.mem ∧
        t.regN (SEQ.FAULT n) = c.pc % 2 ^ 16 * 2 ^ 16 + b2n c.init * 2 ^ 15 + c.slot * 2 ^ 8 + cause ∧
        t.regN (SEQ.FAULT_ADDR n) = addr)
    let m := n.castSucc
    let imm := rd * 2 ^ 18 + rs * 2 ^ 14
    (a % 2 ≠ 0 → faults (.ldh m) 0x12 imm 3 a ∧ faults (.ldhu m) 0x13 imm 3 a ∧ faults (.sth m) 0x16 imm 3 a ∧
      faults (.ldf m) 0x1A (imm + 2 ^ 12) 3 a ∧ faults (.stf m) 0x1B (imm + 2 ^ 12) 3 a) ∧
    (a % 4 ≠ 0 → faults (.ldw m) 0x14 imm 3 a ∧ faults (.stw m) 0x17 imm 3 a ∧ faults (.jalr m) 0x22 imm 3 a ∧
      faults (.amoSwap m) 0x1C imm 3 a ∧ faults (.amoCas m) 0x1C (imm + 3 * 2 ^ 8) 3 a) ∧
    (a % 8 = 0 → 0x8000 ≤ a → faults (.ldb m) 0x10 imm 4 a ∧ faults (.ldbu m) 0x11 imm 4 a ∧ faults (.stb m) 0x15 imm 4 a ∧
      faults (.ldw m) 0x14 imm 4 a ∧ faults (.stw m) 0x17 imm 4 a ∧ faults (.ldt m) 0x18 (rs * 2 ^ 14) 4 a ∧
      faults (.stt m) 0x19 (rs * 2 ^ 14) 4 a ∧ faults (.amoAdd m) 0x1C (imm + 2 ^ 8) 4 a) ∧
    (a % 4 = 0 → 0x10000 ≤ a → faults (.jalr m) 0x22 imm 5 a) ∧
    (a % 16 ≠ 0 → faults (.seal m) 0x38 (rs * 2 ^ 14) 3 a ∧ faults (.txat m) 0x3A imm 3 a) ∧
    (a % 16 = 0 → 0x8000 ≤ a → faults (.openJob m) 0x39 (rs * 2 ^ 14) 4 a ∧ faults (.listen m) 0x3B imm 4 a) ∧
    (63 < a → faults (.pop m) 0x34 (imm + rt * 2 ^ 10) 0x0A 0x401 ∧ faults (.push m) 0x33 (rs * 2 ^ 14 + rt * 2 ^ 10) 0x0A 0x301) ∧
    (131071 < a → faults (.macreqDlcount m) 0x3D imm 0x0A 0xD01 ∧ faults (.calupdRemove m) 0x3C (rs * 2 ^ 14 + 2 ^ 4) 0x0A 0xC01) ∧
    (511 < a → faults (.trigCancel m) 0x32 (imm + 2 ^ 4) 0x0A 0x201) ∧
    (1 < a → faults (.bufAlloc m) 0x3E imm 0x0A 0xE01) ∧
    (a < 2 ^ 28 → faults (.trigArm m) 0x32 imm 0x0A 0x202)) ∧
  (∀ (s : State) (code : Nat), code < 2 ^ 16 → (s.core 64).inFault = false →
    let c := s.core 64
    let enters := fun (i : Instr) (cause addr : Nat) => Answers i s (fun t => let k := t.core 64
      k.fcause = BitVec.ofNat 32 cause ∧ k.fpc = BitVec.ofNat 32 (c.pc + 4) ∧ k.faddr = BitVec.ofNat 32 addr ∧
        k.fsave = BitVec.ofNat 32 (c.p.toNat + (b2n c.cy + 2 * b2n c.be + 4 * b2n c.sat) * 2 ^ 8) ∧ k.inFault = true ∧
        k.pc = c.fvec.toNat ∧ k.run = .running ∧ k.g = c.g ∧ k.p = c.p ∧ k.t = c.t ∧ t.mem = s.mem)
    (Runs s 64 0x28 0 → enters (.brk 64) 8 0) ∧ (Runs s 64 0x29 code → enters (.trap 64) 9 code))

/-- A port and its calibration (R143-R145, R147, R148, R151, R172): enabling starts a calibration, disabling ends it
and flushes what has not launched, requests start one at once or wait behind the guard, a forced one has its instant,
the end sets LOCKED and READY and records it, a failure is repeated. A port's sensors and control lines (R138,
R153-R156, R158, R160, R161): temperature, antenna load, the antenna-select pins, PA_EN and the AGC step. -/
def Obligations.PortsAndTheirLines : Prop :=
  (∀ (p : Fin 3) (s : State), s.on (portDomain p) = true →
    let x := s.port p
    let starts := fun (i : Instr) (cause : Nat) => Answers i s (fun t => (t.port p).cal = some cause ∧
      (t.port p).calSince = s.acc.ltb ∧ (t.port p).pend = none ∧ (t.port p).paEn = false ∧
      t.flag (FE.PORT_STATUS_CAL_BUSY p) = true ∧ t.flag (FE.PORT_STATUS_CAL_WAIT p) = false ∧
      t.flag (FE.PORT_STATUS_READY p) = false ∧ t.flag (FE.PORT_STATUS_LOCKED p) = false)
    (s.flag (FE.PORT_CTL_EN p) = false → x.cal = none → starts (.portEnable p) 0 ∧
      Answers (.portEnable p) s (fun t => t.flag (FE.PORT_CTL_EN p) = true ∧ t.mem = s.mem ∧ t.cores = s.cores)) ∧
    (s.flag (FE.PORT_CTL_EN p) = true → Answers (.portDisable p) s (fun t => t.flag (FE.PORT_CTL_EN p) = false ∧
      (t.port p).cal = none ∧ (t.port p).pend = none ∧ t.flag (FE.PORT_STATUS_CAL_BUSY p) = false ∧
      ∀ y ∈ t.bb.staged, y.port = p.val → y.phase = .onAir)) ∧
    (s.flag (FE.PORT_CTL_EN p) = true → x.failed = false → x.cal = none → x.pend = none → x.retry = none →
      (s.guarded p = false → starts (.calReq p) 1) ∧
      (s.guarded p = true → Answers (.calReq p) s (fun t => (t.port p).pend = some 1 ∧ (t.port p).cal = none ∧
        t.flag (FE.PORT_STATUS_CAL_WAIT p) = true ∧ t.mem = s.mem ∧ t.cores = s.cores))) ∧
    (s.flag FE.EXPERT_UNLOCK_UNLOCKED = true → s.flag (FE.PORT_CTL_EN p) = true → x.cal = none → starts (.calForce p) 5) ∧
    (∀ c, x.pend = some c →
      (x.forcedAt = none → s.guarded p = false → starts (.calibrationStart p) c) ∧
      (∀ a, x.forcedAt = some a → s.reached a = true → starts (.calibrationStart p) 5) ∧
      (x.forcedAt = none → x.pendSince + s.fld (FE.FE_EXP_CAL_MAXDEFER p) * 1000000 ≤ s.acc.ltb →
        Answers (.calForced p) s (fun t => (t.port p).forcedAt = some (s.freeInstant p) ∧ t.mem = s.mem ∧ t.cores = s.cores))) ∧
    (∀ c (rej : BitVec 8), x.cal = some c →
      (45 ≤ rej.toNat → bits (s.regN PLT.SUPPLY_STATUS) 5 4 = 0 → x.failed = false → x.calSince + dCal p ≤ s.acc.ltb →
        Answers (.calibrationComplete p true rej) s (fun t => (t.port p).cal = none ∧
          t.flag (FE.PORT_STATUS_CAL_BUSY p) = false ∧ t.flag (FE.PORT_STATUS_LOCKED p) = true ∧
          t.flag (FE.PORT_STATUS_READY p) = true ∧ t.fld (FE.CAL_INFO_IMG_REJ p) = rej.toNat ∧
          t.fld (FE.CAL_INFO_CAL_TEMP p) = s.fld (FE.PORT_STATUS_TEMP p) ∧
          t.fld (FE.CAL_INFO_CAL_COUNT p) = (s.fld (FE.CAL_INFO_CAL_COUNT p) + 1) % 256)) ∧
      (x.retry = none → Answers (.calibrationComplete p false rej) s (fun t => (t.port p).cal = none ∧
        (t.port p).retry = some (c, s.acc.ltb + 10000000) ∧ t.flag (FE.PORT_STATUS_CAL_BUSY p) = false ∧
        t.flag (FE.PORT_STATUS_LOCKED p) = false))) ∧
    (∀ c a, x.retry = some (c, a) → x.cal = none → a ≤ s.acc.ltb → starts (.calRetry p) c) ∧
    (x.cal = none → s.flag (FE.PORT_STATUS_LOCKED p) = true → s.flag (FE.PORT_CTL_EN p) = true →
      Answers (.synthLockLoss p) s (fun t => (t.port p).cal = some 4 ∧ t.flag (FE.PORT_STATUS_LOCKED p) = false ∧
        ∀ y ∈ t.bb.staged, y.port = p.val → y.phase ≠ .onAir))) ∧
  (∀ (p : Fin 3) (s : State), s.on (portDomain p) = true →
    let x := s.port p
    let lines := fun (i : Instr) (q : FePort → Prop) => Answers i s (fun t => q (t.port p) ∧ t.mem = s.mem ∧ t.cores = s.cores ∧
      ∀ r, r ≠ p.val → t.port r = s.port r)
    (∀ raw : BitVec 10, s.acc.ltb % 10000000 = 0 → Answers (.tempSample p raw) s (fun t =>
      t.fldI (FE.PORT_STATUS_TEMP p) = max (-512) (min 511 (raw.toInt + s.fldI (FE.TEMP_CAL_X_EFF p))) ∧ t.mem = s.mem ∧
        t.cores = s.cores)) ∧
    (∀ (rl : Int) (phase : BitVec 8), (∃ y ∈ s.stagedOn p, y.phase = .onAir ∧ -20 ≤ y.power ∧
        16000 ≤ tdiff s.now y.launched ∧ tdiff s.now y.launched % 8000 = 0) →
      Answers (.loadMeasurement p rl phase) s (fun t => let v := max 0 (min 255 (rl + s.fldI (FE.LOADDET_CAL_X_EFF p)))
        (t.fld (FE.LOAD_MEAS_RL p) : Int) = v ∧
        t.fld (FE.LOAD_MEAS_CLASS p) = (if v < s.fld (FE.LOAD_CTL_RL_MIN p) then
          (if phase.toInt.natAbs ≤ 32 then 1 else if 96 ≤ phase.toInt.natAbs then 2 else 3) else 0) ∧
        t.mem = s.mem ∧ t.cores = s.cores)) ∧
    lines (.loadClr p) (fun y => y.faults = 0 ∧ y.goods = 0) ∧
    Answers (.loadClr p) s (fun t => bit (t.fld (FE.PORT_STATUS_FOLD_CAUSE p)) 0 = false) ∧
    (∀ v : BitVec 2, (s.busyAir p = false → lines (.antSelWrite p v) (fun y => y.antPins = v.toNat ∧ y.antWait = false)) ∧
      (s.busyAir p = true → lines (.antSelWrite p v) (fun y => y.antPins = x.antPins ∧ y.antWait = true)) ∧
      Answers (.antSelWrite p v) s (fun t => t.fld (FE.ANT_SEL p) = v.toNat)) ∧
    (x.antWait = true → s.busyAir p = false → x.lastEnd + s.paLag p ≤ s.acc.ltb →
      lines (.antSelApply p) (fun y => y.antPins = s.fld (FE.ANT_SEL p) ∧ y.antWait = false)) ∧
    (x.cal = none → (∃ y ∈ s.stagedOn p, s.reached (tplus y.first (-(s.paLead p : Int))) = true) →
      lines (.paEnAssert p) (fun y => y.paEn = true)) ∧
    (s.stagedOn p = [] → x.lastEnd + s.paLag p ≤ s.acc.ltb → lines (.paEnRelease p) (fun y => y.paEn = false)) ∧
    (s.flag (FE.FE_EXP_AGC_HOLD p) = false →
      (x.agc < 5 → lines (.agcStepDown p) (fun y => y.agc = x.agc + 1)) ∧
      (0 < x.agc → s.holdsFrame p = false → lines (.agcStepUp p) (fun y => y.agc = x.agc - 1))))

/-- Region profiles and the scheduled switch (R165, R166, R169-R171), and a transmission dropped late (R150). -/
def Obligations.ProfilesAndSwitch : Prop :=
  ∀ (s : State), s.on 2 = true →
    (let k := s.fld FE.INSTALL_CTL_SLOT
     let src := s.installSrc
     s.flag FE.INSTALL_CTL_BUSY = false → bit (s.fld FE.PROF_STATE_LOCKED) k = false → s.activeSlot ≠ some k →
      s.fe.armed = none → s.fe.arming = none → 0x10000000 ≤ src → src + 512 ≤ 0x10400000 → s.profileCheck (s.bytes src 512) = 0 →
      Answers .profileInstall s (fun t => t.flag FE.INSTALL_CTL_BUSY = true ∧ t.fe.install = some (k, 0) ∧
        t.bytes (profAddr k) 512 = s.bytes src 512 ∧ MemOnly (profAddr k) 512 s t ∧ t.cores = s.cores)) ∧
    (∀ k r, s.fe.install = some (k, r) → r < 16 → k < 8 → Answers .installComplete s (fun t => t.fe.install = none ∧
      t.flag FE.INSTALL_CTL_BUSY = false ∧ t.flag FE.INSTALL_CTL_DONE = true ∧
      t.fld FE.INSTALL_CTL_RESULT = (if r = 0 ∧ s.slotCheck k ≠ 0 then 7 else r) ∧ t.mem = s.mem)) ∧
    (∀ v : BitVec 8, Answers (.slotLockWrite v) s (fun t =>
      t.fld FE.PROF_STATE_LOCKED = (s.fld FE.PROF_STATE_LOCKED ||| (v.toNat &&& s.fld FE.PROF_STATE_VALID)) ∧
        t.cores = s.cores)) ∧
    (let k := s.fld FE.SWITCH_CTL_NEXT
     let lead := tdiff s.switchAt s.now
     (10000000 ≤ lead → s.slotCheck k = 0 → s.activeSlot ≠ some k → s.flag FE.INSTALL_CTL_BUSY = false →
       Answers .switchArm s (fun t => t = { s with fe := t.fe } ∧ t.fe.arming = some (k, s.switchAt) ∧ t.fe.armed = s.fe.armed)) ∧
     (lead < 10000000 → Answers .switchArm s (fun t => t.fld FE.SWITCH_CTL_ERR = 1 ∧ t.fe = s.fe)) ∧
     (10000000 ≤ lead → s.slotCheck k ≠ 0 → Answers .switchArm s (fun t => t.fld FE.SWITCH_CTL_ERR = 2 ∧ t.fe = s.fe)) ∧
     (10000000 ≤ lead → s.slotCheck k = 0 → s.activeSlot = some k →
       Answers .switchArm s (fun t => t.fld FE.SWITCH_CTL_ERR = 3 ∧ t.fe = s.fe)) ∧
     (10000000 ≤ lead → s.slotCheck k = 0 → s.activeSlot ≠ some k → s.flag FE.INSTALL_CTL_BUSY = true →
       Answers .switchArm s (fun t => t.fld FE.SWITCH_CTL_ERR = 4 ∧ t.fe = s.fe))) ∧
    (∀ k a, s.fe.armed = some (k, a) → s.reached a = false → Answers .switchCancel s (fun t => t.fe.armed = none ∧
      t.fe.arming = none ∧ t.flag FE.SWITCH_CTL_ARMED = false ∧ (t.comp 73).armed = false ∧ t.mem = s.mem)) ∧
    (∀ k a, s.fe.arming = some (k, a) → s.bb.staged = [] → Answers .switchArmed s (fun t => t.fe.armed = some (k, a) ∧
      t.fe.arming = none ∧ t.flag FE.SWITCH_CTL_ARMED = true ∧ (t.comp 73).armed = true ∧ (t.comp 73).at_ = a ∧ t.mem = s.mem)) ∧
    (∀ k a, s.fe.armed = some (k, a) → k < 8 → (s.comp 73).armed = true → s.reached a = true →
      Answers .regionSwitch s (fun t => t.fe.armed = none ∧ t.flag FE.SWITCH_CTL_ARMED = false ∧
        t.flag FE.SWITCH_CTL_DONE = true ∧ t.fld FE.PROF_STATE_ACTIVE = k ∧ t.flag FE.PROF_STATE_NONE = false ∧
        ∀ p : Fin 3, s.profCentre k p < 2 ^ 22 → t.fld (FE.TUNE_CENTRE_KHZ p) = s.profCentre k p)) ∧
    (∀ (v : Fin 12) (j : Fin 4) x, s.on 12 = true → s.bb.staged.find? (fun x => x.voice = v.val ∧ x.place = j.val) = some x →
      x.phase = .waitLock → s.reached (tplus x.first ((s.fld FE.TX_LATE_TOL_NS : Int) - 200)) = true →
      Answers (.txLateDrop v j) s (fun t => ∀ y ∈ t.bb.staged, ¬(y.voice = v.val ∧ y.place = j.val)))

/-- Streams (R189, R190, R193): enabling judges mode, channel and duplicates and records a refusal, a stream that is
enabled keeps CHAN and MODE, disabling releases the lanes that search or synchronise, and the allocator gives a stream
without lanes a FREE one (which, the spec leaves open: assumption 20) or reports that none is free. -/
def Obligations.StreamControl : Prop :=
  ∀ (p : Fin 3) (k : Fin 32) (chan : BitVec 7) (mode : BitVec 4) (s : State), s.on 12 = true →
    let en := fun (j : Nat) => s.flag (BB.STREAM_EN p j) = true
    let same := fun (j : Nat) => s.fld (BB.STREAM_CHAN p j) = chan.toNat ∧ s.fld (BB.STREAM_MODE p j) = mode.toNat
    let dup := ∃ j, j < portStreams p ∧ j ≠ k ∧ en j ∧ same j
    let stored := fun (t : State) => t.fld (BB.STREAM_CHAN p k) = chan.toNat ∧ t.fld (BB.STREAM_MODE p k) = mode.toNat
    let kept := fun (t : State) => t.fld (BB.STREAM_CHAN p k) = s.fld (BB.STREAM_CHAN p k) ∧
      t.fld (BB.STREAM_MODE p k) = s.fld (BB.STREAM_MODE p k)
    let quiet := fun (t : State) => t.bb = s.bb ∧ t.mem = s.mem ∧ t.cores = s.cores
    let refused := fun (code : Nat) (t : State) => t.fld (BB.STREAM_ERR_CODE p) = code ∧ t.fld (BB.STREAM_ERR_STREAM p) = k ∧
      (s.on 2 = true → t.raised 32 (p + k * 2 ^ 8 + code * 2 ^ 16)) ∧ quiet t
    let enables := Answers (.streamEnable p k chan mode) s
    let disables := Answers (.streamDisable p k chan mode) s
    (k < portStreams p →
      (¬en k →
        (modeOk p mode.toNat = true → validChan p chan.toNat = true → ¬dup →
          enables (fun t => t.flag (BB.STREAM_EN p k) = true ∧ stored t ∧ quiet t ∧ t.evt = s.evt)) ∧
        (modeOk p mode.toNat = false → validChan p chan.toNat = true → enables (fun t => t.flag (BB.STREAM_EN p k) = false ∧ stored t ∧ refused 2 t)) ∧
        (modeOk p mode.toNat = true → validChan p chan.toNat = false →
          enables (fun t => t.flag (BB.STREAM_EN p k) = false ∧ stored t ∧ refused 1 t)) ∧
        (modeOk p mode.toNat = true → validChan p chan.toNat = true → dup →
          enables (fun t => t.flag (BB.STREAM_EN p k) = false ∧ stored t ∧ refused 3 t)) ∧
        disables (fun t => t.flag (BB.STREAM_EN p k) = false ∧ stored t ∧ quiet t)) ∧
      (en k →
        (¬same k → enables (fun t => t.flag (BB.STREAM_EN p k) = true ∧ kept t ∧ refused 4 t)) ∧
        (same k → enables (fun t => t = s)) ∧
        disables (fun t => t.flag (BB.STREAM_EN p k) = false ∧ kept t ∧ ∀ m < 96, t.lane m =
          if s.laneOn p k m then (match (s.lane m).run with
            | .search => { s.lane m with run := .free, stream := none, paused := false }
            | .sync => { s.lane m with run := .free, stream := none, paused := false, frame := none }
            | _ => s.lane m) else s.lane m))) ∧
    (portStreams p ≤ k → enables (fun t => t = s) ∧ disables (fun t => t = s)) ∧
    (let lo := (portLanes p).1
     let hi := (portLanes p).2
     let bare := fun (j : Nat) => j < portStreams p ∧ en j ∧ s.streamLanes p j = []
     let lacks := fun (j : Nat) => j < portStreams p ∧ en j ∧ s.searchers p j = [] ∧ (s.streamLanes p j).length < 4
     let gets := fun (j : Nat) => Answers (.laneAttach p) s (fun t => ∃ n, lo ≤ n ∧ n < hi ∧ (s.lane n).run = .free ∧
       LaneIs n { s.lane n with run := .search, stream := some j, paused := s.bb.blanked.contains p } s t ∧
       t.regs = s.regs ∧ t.mem = s.mem ∧ t.cores = s.cores)
     (∀ u, s.inSlice 0 u = false) →
     (∀ j, (∃ n, lo ≤ n ∧ n < hi ∧ (s.lane n).run = .free) →
       (bare j → (∀ i, bare i → j ≤ i) → gets j) ∧
       (lacks j → (∀ i, ¬bare i) → (∀ i, lacks i → j ≤ i) → gets j)) ∧
     (∀ j, bare j → (∀ n, lo ≤ n → n < hi → (s.lane n).run ≠ .free) → Answers (.laneAttach p) s (fun t =>
       t.bb.lanes = s.bb.lanes ∧ t.bb.noSearch.contains (p * 32 + j) = true ∧ t.mem = s.mem ∧ t.cores = s.cores)))

/-- From preamble to PSDU (R194-R197, R202-R204, R208, R638): a searcher accepts or refuses a detection, a receiver is
preempted or misses, SYNC times out, the SFD is stamped and takes a buffer, the PHR is checked, each PSDU byte goes to
the chain. -/
def Obligations.LaneReception : Prop :=
  ∀ (n : Fin 96) (s : State), s.on 12 = true →
    let l := s.lane n
    let p := lanePort n
    let delta := s.fld BB.RX_CTL_CAPTURE_DELTA
    let gone := fun (c : Fld) (t : State) => Counted c s t ∧ (t.lane n).frame = none ∧ ∀ m, m ≠ n.val → t.lane m = s.lane m
    (∀ peak : Int, l.run = .search → l.paused = false →
      ((∀ m ∈ s.rivals n, s.peakOf m + delta ≤ peak) → Answers (.preambleDetect n peak) s (fun t =>
        t.lane n = { l with
          run := .sync, since := s.acc.ltb, acquired := s.bb.acquisitions
          frame := some { port := p, chan := (s.laneTune n).1, mode := (s.laneTune n).2, peak := peak
                          captured := !(s.rivals n).isEmpty, listen := l.stream.isNone, agc := (s.port p).agc } } ∧
        Counted (BB.COUNT_HI p 0) s t ∧ (s.rivals n ≠ [] → Counted (BB.COUNT_HI p 3) s t) ∧
        (∀ m ∈ s.rivals n, t.lane m = { s.lane m with frame := (s.lane m).frame.map (fun f => { f with overlap := true }) }) ∧
        (∀ m, m ≠ n.val → m ∉ s.rivals n → t.lane m = s.lane m) ∧ t.mem = s.mem ∧ t.cores = s.cores)) ∧
      ((∃ m ∈ s.rivals n, peak < s.peakOf m + delta) → Answers (.preambleDetect n peak) s (fun t =>
        t = { s with regs := t.regs } ∧ Counted (BB.COUNT_LO p 3) s t))) ∧
    (∀ (peak : Int) k, l.stream = some k → l.run = .sync ∨ l.run = .receive → s.searchers p k = [] →
      (∀ m ∈ s.rivals n, (s.lane m).acquired < l.acquired) → s.peakOf n + delta ≤ peak →
      (s.flag BB.RX_CTL_CAPTURE_PREEMPT = true → Answers (.capturePreempt n peak) s (fun t => (t.lane n).run = .sync ∧
        (t.lane n).since = s.acc.ltb ∧ Counted (BB.COUNT_HI p 4) s t ∧ (∀ m, m ≠ n.val → t.lane m = s.lane m) ∧
        ∃ f, (t.lane n).frame = some f ∧ f.peak = peak ∧ f.preempted = true ∧ f.captured = false ∧ f.buf = none)) ∧
      (s.flag BB.RX_CTL_CAPTURE_PREEMPT = false → Answers (.capturePreempt n peak) s (fun t =>
        t.bb = s.bb ∧ Counted (BB.COUNT_LO p 4) s t ∧ t.mem = s.mem ∧ t.cores = s.cores))) ∧
    (∀ f, l.run = .sync → l.frame = some f →
      (l.since + s.fld BB.RX_CTL_SFD_TIMEOUT * s.searchUnit f.mode ≤ s.acc.ltb → l.broken = false → l.windows = [] →
        s.setAside n = false → s.flag (FE.PORT_CTL_EN p) = true → ∀ k, l.stream = some k →
        Answers (.sfdTimeout n) s (fun t => gone (BB.COUNT_LO p 0) t ∧
          (t.lane n).run = (if s.flag (BB.STREAM_EN p k) = true ∧ s.searchers p k = [] then .search else .free))) ∧
      (∀ (raw : Nat) (power : Int),
        (s.classThreshold 0 < s.fld TM.POOL_STATUS_FREE → (∃ b < 16384, s.isFree b = true) →
          Answers (.sfdDetect n raw power) s (fun t => (t.lane n).run = .receive ∧ (∀ m, m ≠ n.val → t.lane m = s.lane m) ∧
            t.cores = s.cores ∧ ∃ g b, (t.lane n).frame = some g ∧ g.buf = some b ∧ b < 16384 ∧ s.isFree b = true ∧
              t.meta b = 0x40 * 2 ^ 25 + 256 * 2 ^ 16 + 2 ^ 15 + 2 ^ 14 ∧ MemOnly (metaAddr b) 4 s t ∧ g.peak = f.peak ∧
              (g.sfd.toNat * 2 ^ 16 + g.frac : Int) =
                ((raw : Int) - dAna p * 2 ^ 16 - s.fldI (BB.RXDLY_CAL_X_EFF p) * 2 ^ 13) % 2 ^ 80 ∧
              g.rssi = (power + kP p * 20 + 6 * 20 * f.agc - s.fldI (FE.RXGAIN_CAL_X_EFF p) * 2) / 5)) ∧
        (s.fld TM.POOL_STATUS_FREE ≤ s.classThreshold 0 →
          Answers (.sfdDetect n raw power) s (fun t => gone (BB.COUNT_LO p 2) t)))) ∧
    (∀ (phr : BitVec 16) f, l.run = .receive → l.frame = some f → f.len = 0 →
      let lr := phr.toNat % 256
      let reads := fun (v : Nat) => Answers (.phrDecode n phr) s (fun t => t = { s with bb := t.bb } ∧
        LaneIs n { l with frame := some { f with len := v } } s t)
      let bad := Answers (.phrDecode n phr) s (gone (BB.COUNT_HI p 2))
      (f.mode < 8 → (3 ≤ phr.toNat % 128 → reads (phr.toNat % 128)) ∧ (phr.toNat % 128 < 3 → bad)) ∧
      (8 ≤ f.mode → (lr ≠ 0 → phr.toNat / 256 = lrCrc8 lr → reads lr) ∧ (phr.toNat / 256 ≠ lrCrc8 lr → bad))) ∧
    (∀ (b : BitVec 8) f h, l.run = .receive → l.frame = some f → f.buf = some h → f.got < f.len →
      Answers (.unitReport n b) s (fun t => LaneIs n { l with frame := some { f with
          got := f.got + 1, psdu := f.psdu ++ [b.toNat] } } s t ∧ t.cores = s.cores ∧ t.regs = s.regs ∧
        ∀ x, s.chainAddr h f.got = some x → t.byte x = b.toNat ∧ MemOnly x 1 s t))

/-- The end of a reception (R198, R205, R207): the record of Table 05.7 after the last FCS byte and the descriptor in
the lane's output queue, or with a bad FCS the frame gone; a lane in DONE hands on once there is room; a stall is
reported. -/
def Obligations.LaneDelivery : Prop :=
  ∀ (n : Fin 96) (s : State), s.on 12 = true →
    let l := s.lane n
    let p := lanePort n
    (∀ (rho : Fin 65537) (evm : Nat) (cfo snr : Int) f h, l.run = .receive → l.frame = some f → f.buf = some h → 0 < f.len →
      f.got = f.len → f.psdu.length = f.len → f.mode < 16 → f.agc < 8 → h < 16384 → s.isFree h = false → s.isLast h = true →
      f.len + 16 ≤ 256 → (∀ w ∈ l.windows, w.closed = false) →
      let good := crc16 (f.psdu.take (f.len - 2)) = fieldLe f.psdu (f.len - 2) 2
      let ends := Answers (.frameEnd n rho evm cfo snr) s
      (good → s.decisionOn h = none → l.outq = [] → s.flag FWD.FWD_CTL_EN = true → ends (fun t =>
        let a := bufAddr h + f.len
        Counted (BB.COUNT_HI p 1) s t ∧ (t.lane n).frame = none ∧
        (t.lane n).outq = [⟨rxDesc f.port f.chan f.len h f.sfd.toNat 0, true⟩] ∧ t.fill h = f.len + 16 ∧
        t.mem' a 2 = unsigned 16 f.rssi ∧
        (t.byte (a + 2) : Int) = clampI 0 255 ((340 * (rho.val : Int) + 32768) / 65536 - 85) ∧
        t.byte (a + 3) = 1 + 2 * b2n f.captured + 4 * b2n f.preempted + 8 * b2n f.overlap + 16 * b2n f.listen + 32 * b2n f.agcMoved ∧
        t.mem' (a + 4) 2 = min evm 65535 ∧ t.byte (a + 6) = f.mode + f.agc * 16 ∧ t.byte (a + 7) = n ∧
        t.mem' (a + 8) 2 = f.frac % 2 ^ 16 ∧ t.mem' (a + 10) 2 = unsigned 16 cfo ∧ t.mem' (a + 12) 2 = unsigned 16 snr ∧
        t.mem' (a + 14) 2 = unsigned 16 f.peak)) ∧
      (¬good → s.flag BB.BB_EXP_KEEP_BADFCS = false → ends (fun t =>
        Counted (BB.COUNT_LO p 1) s t ∧ (t.lane n).frame = none ∧ ∀ m, m ≠ n.val → t.lane m = s.lane m))) ∧
    (∀ f h e rest, l.run = .done → l.frame = some f → f.buf = some h → h < 16384 → (∀ w ∈ l.windows, w.closed = false) → f.fcsOk = true → s.decisionOn h = none →
      l.outq = e :: rest → l.outq.length < 8 → e.good = true → find s.fwd.decisions e.d.buf = none →
      s.flag FWD.FWD_CTL_EN = true → Answers (.outqRelease n) s (fun t => (t.lane n).frame = none ∧
        (t.lane n).outq = l.outq ++ [⟨rxDesc f.port f.chan f.len h f.sfd.toNat 0, true⟩] ∧ t.mem = s.mem)) ∧
    (∀ x, l.fullSince = some x → x + 100000 ≤ s.acc.ltb → s.on 2 = true → Answers (.outqStall n) s (fun t =>
      LaneIs n { l with fullSince := none } s t ∧ t.raised 36 n ∧ t.mem = s.mem ∧ t.cores = s.cores))

/-- Blanks, faults and listen windows (R191, R199, R201, R216): searchers pause and resume, receiving lanes abandon
their frames, a failed lane goes OFF, a window opens at its instant and closes with its completion. -/
def Obligations.BlanksFaultsAndWindows : Prop :=
  ∀ (s : State), s.on 12 = true →
    (∀ (p : Fin 3), let inPort := fun (m : Nat) => (portLanes p).1 ≤ m ∧ m < (portLanes p).2
      (s.mustBlank p = true → s.bb.blanked.contains p.val = false → Answers (.rxBlankStart p) s (fun t =>
        t.bb.blanked = s.bb.blanked ++ [p.val] ∧ ∀ m,
          (inPort m → (s.lane m).run = .search → t.lane m = { s.lane m with paused := true }) ∧
          (inPort m → (s.lane m).run = .sync ∨ (s.lane m).run = .receive → (t.lane m).frame = none ∧
            ((t.lane m).run = .search → (t.lane m).paused = true)) ∧
          (¬inPort m → t.lane m = s.lane m))) ∧
      (s.mustBlank p = false → Answers (.rxBlankEnd p) s (fun t => t = { s with bb := t.bb } ∧
        t.bb.blanked.contains p.val = false ∧ ∀ m,
          (inPort m → t.lane m = { s.lane m with paused := false }) ∧ (¬inPort m → t.lane m = s.lane m))) ∧
      (∀ k : Fin 32, k < portStreams p → s.on 2 = true → Answers (.sampleParityError p k) s (fun t =>
        t.raised 38 (p + k * 2 ^ 8) ∧ ∀ m < 96,
          (s.laneOn p k m = true → (s.lane m).run = .sync ∨ (s.lane m).run = .receive → (t.lane m).frame = none) ∧
          (s.laneOn p k m = false → t.lane m = s.lane m)))) ∧
    (∀ (n : Fin 96), let l := s.lane n
      let p := lanePort n
      (s.on 2 = true → Answers (.laneCheckFail n) s (fun t => t.raised 39 n ∧
        LaneIs n { l with run := .off, stream := none, paused := false, broken := true, frame := none } s t)) ∧
      (∀ w ws, l.windows = w :: ws →
        (w.opened = false → s.reached w.from_ = true → l.broken = false → l.run = .off →
          Answers (.listenWindowOpen n) s (fun t => t.mem = s.mem ∧ t.regs = s.regs ∧ t.cores = s.cores ∧
            LaneIs n { l with run := .search, stream := none, paused := s.bb.blanked.contains p
                              windows := { w with opened := true } :: ws } s t)) ∧
        (w.opened = true → w.closed = false → s.reached (tplus w.from_ w.dur) = true →
          (l.run = .sync ∨ l.run = .receive ∨ l.run = .done → Answers (.listenWindowClose n) s (fun t =>
            t = { s with bb := t.bb } ∧ LaneIs n { l with windows := { w with closed := true } :: ws } s t)) ∧
          (l.run = .search → w.byListen = true → s.takes (s.fld BB.LISTEN_RING_RING) →
            Answers (.listenWindowClose n) s (fun t => (t.lane n).run = .off ∧ (t.lane n).windows.length = ws.length ∧
              (∀ m, m ≠ n.val → t.lane m = s.lane m) ∧
              let past := (tdiff s.now (tplus w.from_ w.dur)).toNat / 1000
              Pushed (s.fld BB.LISTEN_RING_RING) (completion 3 0 0 0 (n - (portLanes p).1)
                (p + min w.frames 255 * 2 ^ 8 + min (if past = 0 then w.late else past) 65535 * 2 ^ 16) 0) s t)))))

/-- A voice's trigger and the end of its transmission (R150, R211-R214): launched at its instant with the power
resolved, withheld on a busy channel, waiting for or dropped without lock, and completed as SENT on its ring. -/
def Obligations.VoiceLaunch : Prop :=
  ∀ (v : Fin 12) (j : Fin 4) (s : State) (x : Staged), s.on 12 = true →
    s.bb.staged.find? (fun y => y.voice = v.val ∧ y.place = j.val) = some x →
    let at_ := if 0 ≤ tdiff x.first (tplus s.now 200) then x.first else tplus s.now 200
    let late := (tdiff at_ x.first).toNat
    let gone := fun (t : State) => ∀ y ∈ t.bb.staged, ¬(y.voice = v.val ∧ y.place = j.val)
    (∀ power : Int, x.phase = .armed → (s.comp (4 * v + j)).armed = true → s.reached x.trig = true →
      let fires := Answers (.voiceTrigger v j power) s
      (s.portLocked x.port = true →
        (s.tolerance x < late → fires (fun t => gone t ∧ Counted (FE.COUNT_A_TXLATE x.port) s t)) ∧
        (late ≤ s.tolerance x → ∀ k e, s.permits (s.profileAt x.first) x.port x.chan = some (k, e) →
          (∀ thresh time, s.assess k e x.cca = some (thresh, time) → thresh < power →
            fires (fun t => gone t ∧ Counted (BB.COUNT_LO x.port 6) s t)) ∧
          (s.assess k e x.cca = none → s.foldCap x.port = none → (∀ y ∈ s.stagedOn x.port, y.phase ≠ .onAir) →
            paMin ≤ x.power → x.power ≤ s.fldI (BB.PWR_BUDGET_BUDGET x.port) →
            fires (fun t => (t.comp (4 * v + j)).armed = false ∧
              t.bb.staged = s.bb.staged.map (fun y => if y.voice = v.val ∧ y.place = j.val then { y with
                phase := .onAir, launched := at_, late := late, applied := x.power, cut := false, folded := false
                air := s.airtime x.mode x.len } else y) ∧ t.mem = s.mem ∧ t.cores = s.cores)))) ∧
      (s.portLocked x.port = false →
        (s.tolerance x = 0 → fires (fun t => gone t ∧ Counted (FE.COUNT_A_TXLATE x.port) s t)) ∧
        (s.tolerance x ≠ 0 → fires (fun t => t.regs = s.regs ∧ t.mem = s.mem ∧
          t.bb.staged = s.bb.staged.map (fun y => if y.voice = v.val ∧ y.place = j.val then { y with phase := .waitLock } else y))))) ∧
    (x.phase = .onAir → s.reached (tplus x.launched x.air) = true →
      Answers (.txEnd v j) s (fun t => gone t ∧ Counted (BB.COUNT_HI x.port 6) s t ∧
        (x.owner = .program → s.takes x.cring → Pushed x.cring (completion 1 0 x.len x.buf x.voice
          (x.late % 2 ^ 16 + unsigned 8 x.applied * 2 ^ 16 + b2n x.cut * 2 ^ 24 + b2n x.folded * 2 ^ 25) x.tag.toNat) s t)))

/-- Node operations (R226, R228): on a node whose record is cached, ALLOC makes a FREE record IDLE with its arguments,
RELEASE frees it and takes its entries away, FLUSH writes its 128 bytes to DRAM, LOAD shows them in NODE_VIEW; each
leaves RESULT, 2 INUSE or 3 FREE where it refuses. -/
def Obligations.NodeOperations : Prop :=
  ∀ (i : Fin 131072) (n : Node) (s : State), s.on 2 = true → find s.mac.cache i.val = some n →
    let ends := fun (r : Nat) (t : State) => t.fld MAC.NODE_OP_RESULT = r ∧ t.flag MAC.NODE_OP_BUSY = false ∧
      ∀ j, j ≠ i.val → find t.mac.cache j = find s.mac.cache j
    let refused := fun (c : Instr) (r : Nat) => Answers c s (fun t => ends r t ∧ t.mac = s.mac ∧ t.mem = s.mem)
    (n.state = 0 → Answers (.nodeAlloc i) s (fun t => ends 0 t ∧ t.mem = s.mem ∧ t.cores = s.cores ∧
        find t.mac.cache i.val = some {
          eui := s.pair MAC.NODE_ARG0 MAC.NODE_ARG1, state := 1, port := s.fld MAC.NODE_ARG2_PORT
          mode := s.fld MAC.NODE_ARG2_MODE, chan := s.fld MAC.NODE_ARG2_CHAN, txpwr := s.fld MAC.NODE_ARG2_TXPWR
          interval := s.fld MAC.NODE_ARG3_INTERVAL, dev := s.fld MAC.MISS_CFG_DEV_INIT * 10
          dlHead := 0xFFFFFFFF, dlTail := 0xFFFFFFFF, calEntry := 0xFFFFFFFF }) ∧
      refused (.nodeRelease i) 3 ∧ refused (.nodeFlush i) 3) ∧
    (n.state ≠ 0 → refused (.nodeAlloc i) 2 ∧
      Answers (.nodeRelease i) s (fun t => ends 0 t ∧ t.dlRing i = [] ∧ (∀ e ∈ t.mac.calendar, e.nidx ≠ i) ∧
        (∀ w ∈ t.mac.watches, w.nidx ≠ i) ∧ t.cores = s.cores ∧
        find t.mac.cache i.val = some { n with state := 0, dlCount := 0, calEntry := 0xFFFFFFFF, dlHead := 0xFFFFFFFF, dlTail := 0xFFFFFFFF }) ∧
      (regionOf (s.nodeAddr i) = .dram → s.nodeAddr i + 128 ≤ s.dramTop → s.dramReady = true →
        Answers (.nodeFlush i) s (fun t => ends 0 t ∧ t.bytes (s.nodeAddr i) 128 = (nodeBytes n).map (· % 256) ∧
          MemOnly (s.nodeAddr i) 128 s t ∧ t.mac = s.mac ∧ t.cores = s.cores))) ∧
    Answers (.nodeLoad i) s (fun t => ends 0 t ∧ t.mac = s.mac ∧ t.mem = s.mem ∧
      (∀ w < 32, t.regN (MAC.NODE_VIEW w) = fieldLe (nodeBytes n) (4 * w) 4 % 2 ^ 32) ∧
      t.regN (MAC.NODE_VIEW 10) = n.interval % 2 ^ 32 ∧ t.regN (MAC.NODE_VIEW 12) = n.dev % 2 ^ 32)

/-- The calendar (R237-R239, R251): a slot is processed once LEAD_SLOTS before it and puts its wakes under watch with
E and g of R232, the overflow list moves onto the wheel, MAC is enabled and disabled. -/
def Obligations.Calendar : Prop :=
  ∀ (s : State), s.on 2 = true →
    let now := s.ns / 250000
    (s.flag MAC.MAC_CTL_EN = true →
      (let k := s.mac.slot
       let due := fun (e : CalEntry) => e.slot = k && !e.overflow
       k ≤ now + s.fld MAC.MAC_CTL_LEAD_SLOTS → Answers .slotProcess s (fun t => t.mac.slot = k + 1 ∧
         (∀ e ∈ t.mac.calendar, due e = false ∧ e ∈ s.mac.calendar) ∧
         ∀ x n, s.mac.calendar.filter due = [x] → x.alt = false → find s.mac.cache x.nidx = some n → n.state = 2 → n.misses = 0 →
           let d := Int.tdiv ((x.wake : Int) - n.anchor) 1000
           let e := (x.wake : Int) + s.tSfd n.mode + Int.tdiv (n.rate * d) 1000000
           let g := (s.fld MAC.GUARD_CFG_G_BASE * 1000 : Nat) +
             Int.tdiv (d * (s.fld MAC.GUARD_CFG_K_DEV * n.dev + s.fld MAC.GUARD_CFG2_U_FLOOR : Nat)) 1000000
           (∃ w ∈ t.mac.watches, w.nidx = x.nidx ∧ w.wake = x.wake ∧ w.e = e.toNat ∧ w.g = g.toNat ∧ w.alt = false ∧ w.heard = false) ∧
           ∃ m, find t.mac.cache x.nidx = some m ∧ m.guard = min ((g.toNat + 999) / 1000) 65535 ∧ m.state = 2)) ∧
      (s.mac.migrated ≠ now / 2 ^ 16 → Answers .overflowMigrate s (fun t => t.mac.migrated = now / 2 ^ 16 ∧
        t.mac.calendar.length = s.mac.calendar.length ∧
        ∀ e ∈ t.mac.calendar, e.overflow = true → now + 2 ^ 20 - 2 ^ 16 ≤ e.slot)) ∧
      Answers .macDisable s (fun t => t.flag MAC.MAC_CTL_EN = false ∧ t.mac.watches = [] ∧ t.mac.downlink = s.mac.downlink ∧
        ∀ y ∈ t.bb.staged, y.owner = .program ∨ y.owner = .flood ∨ y.phase = .onAir)) ∧
    (s.flag MAC.MAC_CTL_EN = false → Answers .macEnable s (fun t => t.flag MAC.MAC_CTL_EN = true ∧ t.mac.slot = now ∧
      t.flag MAC.MAC_CTL_DRAINED = false))

/-- A node's frame and its wake's decision (R230-R233, R236): the record of a node whose frame is authenticated, with
the rate sample of a scheduled wake; a heard wake leaves without a miss, a missed one widens the guard or sends the
node to SEARCH; an unheard alternate wake is withdrawn alone. -/
def Obligations.FramesAndWakes : Prop :=
  ∀ (s : State), s.on 2 = true → s.flag MAC.MAC_CTL_EN = true →
    (∀ f rest h n, s.mac.inbox = f :: rest → parseHdr f.psdu f.psdu.length = some h → find s.mac.cache f.nidx = some n →
      n.state ≠ 0 → Answers .authFrame s (fun t => t.mac.inbox = rest ∧ t.mem = s.mem ∧ t.cores = s.cores ∧
        ∃ m, find t.mac.cache f.nidx = some m ∧ m.lastHeard = f.sfd ∧ m.rxCount = (n.rxCount + 1) % 2 ^ 32 ∧ m.misses = 0 ∧
          m.state = (if n.state = 3 ∨ n.state = 4 then 2 else n.state) ∧ m.rssi = fieldLe f.record 0 2 ∧
          m.lqi = byteAt f.record 2 ∧ m.anchor = n.anchor ∧
          ∀ x, s.mac.watches = [x] → x.nidx = f.nidx → x.alt = false → ((f.sfd : Int) - x.e).natAbs ≤ x.g →
            ((f.sfd : Int) - (x.wake + s.tSfd f.mode)).natAbs ≤ 32000000 →
            let e := (f.sfd : Int) - (x.wake + s.tSfd f.mode)
            let sample := Int.tdiv (e * 1000000) (Int.tdiv ((x.wake : Int) - n.anchor) 1000)
            let r := sample - n.rate
            let sh : Int := 2 ^ s.fld MAC.GUARD_CFG_DRIFT_SHIFT
            m.lastErr = unsigned 16 (clampI (-32768) 32767 (roundAway e 1000)) ∧
            (h.form = .uplink → n.state ≠ 4 → s.inContention f = false → getD s.mac.synced f.nidx false = true →
              s.flag MAC.MAC_EXP_DRIFT_FREEZE = false → 1000000000 ≤ (x.wake : Int) - n.anchor →
              (n.flagBit 0 = false → m.rate = clampI (-(2 ^ 31 - 1)) (2 ^ 31 - 1) sample ∧ m.flagBit 0 = true) ∧
              (n.flagBit 0 = true → m.rate = clampI (-(2 ^ 31 - 1)) (2 ^ 31 - 1) (n.rate + r / sh) ∧
                (m.dev : Int) = clampI 0 (2 ^ 32 - 1) (n.dev + ((r.natAbs : Int) - n.dev) / sh))))) ∧
    (∀ (i : Fin 131072) x n, find s.mac.cache i.val = some n → x.decide_ ≤ s.ns →
      (s.mac.watches.find? (fun y => y.nidx = i.val && !y.alt) = some x →
        let missed := fun (q : Node → State → Prop) => x.heard = false → Answers (.wakeDecision i) s (fun t =>
          t.raised 41 (i + (n.misses + 1) * 2 ^ 20) ∧ Counted (MAC.CNT_LO 0) s t ∧ ∃ m, find t.mac.cache i.val = some m ∧
            m.misses = n.misses + 1 ∧ m.missTotal = min (n.missTotal + 1) 65535 ∧ m.anchor = n.anchor ∧ m.flagBit 2 = false ∧ q m t)
        (x.heard = true → Answers (.wakeDecision i) s (fun t => t.mac.watches.length < s.mac.watches.length ∧
          find t.mac.cache i.val = some (n.setFlagBit 2 false) ∧ t.fld (MAC.CNT_LO 0) = s.fld (MAC.CNT_LO 0))) ∧
        (s.fld MAC.MISS_CFG_MISS_LIMIT < n.misses + 1 → n.misses < 255 → missed (fun m t => m.state = 4 ∧
          m.searchSince = s.ns % 2 ^ 64 ∧ i.val ∈ t.mac.search ∧ ∀ e ∈ t.mac.calendar, e.nidx ≠ i)) ∧
        (n.misses + 1 ≤ s.fld MAC.MISS_CFG_MISS_LIMIT → n.misses < 255 → missed (fun m t => m.state = 3 ∧
          m.wake = (x.wake + n.interval * 250000) % 2 ^ 64 ∧
          ∃ e ∈ t.mac.calendar, e.nidx = i ∧ e.alt = false ∧ e.wake = x.wake + n.interval * 250000))) ∧
      (s.mac.watches.find? (fun y => y.nidx = i.val && y.alt) = some x →
        Answers (.altWakeExpire i) s (fun t => find t.mac.cache i.val = some (n.setFlagBit 2 false) ∧ t.fld (MAC.CNT_LO 0) = s.fld (MAC.CNT_LO 0) ∧
          (∀ y ∈ t.mac.watches, ¬(y.nidx = i ∧ y.alt = true)) ∧ ∀ e ∈ t.mac.calendar, ¬(e.nidx = i ∧ e.alt = true))))

/-- Acknowledgements and downlink frames as they end (R236, R247, R252): a SENT acknowledgement anchors the node and
any other outcome restores it; a tag's acknowledgement delivers the head frame, a deadline or a failed sending keeps
or drops it; a node whose record cannot be read goes to SEARCH. -/
def Obligations.AcksAndDownlink : Prop :=
  ∀ (s : State), s.on 2 = true →
    (∀ x a n, s.bb.done.find? (fun y => decide (y.owner = .ack)) = some x → find s.mac.acks x.ident = some a →
      find s.mac.cache x.ident = some n → n.state ≠ 0 →
      (x.status = 0 → a.changed = false → a.fp = false → Answers .ackCompletion s (fun t => find t.mac.acks x.ident = none ∧
        getD t.mac.synced x.ident false = true ∧ Counted (MAC.CNT_HI 2) s t ∧
        find t.mac.cache x.ident = some { n.setFlagBit 3 false with anchor := a.anchor, state := if n.state = 1 then 2 else n.state })) ∧
      (x.status ≠ 0 → a.oldState ≠ 1 → Answers .ackCompletion s (fun t => find t.mac.acks x.ident = none ∧
        Counted (MAC.CNT_LO 2) s t ∧ ∃ m, find t.mac.cache x.ident = some m ∧ m.anchor = a.oldAnchor ∧ m.wake = a.oldWake % 2 ^ 64 ∧
          m.flagBit 3 = false ∧ m.state = n.state))) ∧
    (∀ (i : Fin 131072) n b r q l, find s.mac.cache i.val = some n → find s.mac.bursts i.val = some b → s.dlRing i = r :: q →
      let kept := fun (t : State) => find t.mac.bursts i.val = none ∧
        if s.fld MAC.DL_CFG_DL_RETRIES ≤ n.dlRetry + 1 then t.dlRing i = q ∧ Counted (MAC.CNT_LO 4) s t
        else t.dlRing i = r :: q ∧ find t.mac.cache i.val = some { n with dlRetry := n.dlRetry + 1 }
      let gone := fun (t : State) => find t.mac.bursts i.val = none ∧ t.dlRing i = q ∧ Counted (MAC.CNT_HI 4) s t
      (∀ f sq t0, s.mac.tagAcks = f :: l → b.await_ = some (sq, t0) → f.port = b.port → f.chan = b.chan →
        s.mac.bursts.find? (fun e => e.2.port = f.port && e.2.chan = f.chan && (match e.2.await_ with
          | some (_, t) => decide (((f.sfd : Int) - t).natAbs ≤ s.fld MAC.DL_CFG_DL_ACKTOL * 1000)
          | none => false)) = some (i.val, b) →
        (byteAt f.psdu 2 = sq → r.fp = false → Answers .tagAck s (fun t => t.mac.tagAcks = l ∧ gone t)) ∧
        (byteAt f.psdu 2 ≠ sq → Answers .tagAck s (fun t => t.mac.tagAcks = l ∧ kept t))) ∧
      (∀ sq t0, b.await_ = some (sq, t0) → b.seen = none → t0 + s.fld MAC.DL_CFG_DL_ACKTOL * 1000 + s.dDec b.mode ≤ s.ns →
        Answers (.dlAckTimeout i) s kept) ∧
      (∀ x, s.bb.done.find? (fun y => decide (y.owner = .downlink) || decide (y.owner = .null)) = some x → x.owner = .downlink → x.ident = i →
        (x.status = 0 → bit r.d.w2.toNat 3 = true → r.fp = false → Answers .dlFrameCompletion s gone) ∧
        (x.status = 0 → bit r.d.w2.toNat 3 = false → Answers .dlFrameCompletion s (fun t => t.dlRing i = r :: q ∧
          find t.mac.bursts i.val = some { b with
            await_ := some (r.seq, x.ends.toNat + s.taEff x.port x.mode + s.tSfd x.mode), seen := none })) ∧
        (x.status ∈ [1, 2, 3, 4, 5] → Answers .dlFrameCompletion s kept))) ∧
    (∀ (i : Fin 131072), find s.mac.cache i.val = none → Answers (.recordError i) s (fun t => t.raised 50 i ∧
      i.val ∈ t.mac.search ∧ (∀ e ∈ t.mac.calendar, e.nidx ≠ i) ∧
      ∃ m, find t.mac.cache i.val = some m ∧ m.state = 4 ∧ m.flagBit 0 = false ∧ m.searchSince = s.ns % 2 ^ 64))

/-- Recovery beacons and the time parent (R240, R243-R245): a recovery beacon is sealed and staged at its instant with
the next sequence number and its contention span noted; a parent's beacon locks and hands its time on; the third
beacon missed in a row makes the parent LOST. -/
def Obligations.RecoveryAndParent : Prop :=
  ∀ (s : State), s.on 2 = true → s.flag MAC.MAC_CTL_EN = true →
    (∀ (p : Fin 3) m v w, let period := s.fld MAC.MISS_CFG_RV_PERIOD * 1000000000
      let at_ := (s.ns + period - 1) / period * period
      let mode := s.fld (MAC.RV_CFG_MODE p)
      let chan := s.fld (MAC.RV_CFG_CHAN p)
      let level := s.fld MAC.BCN_CFG_LEVEL
      let key := s.fld MAC.BCN_CFG_KEY
      let req : TxReq := { port := p, chan := chan, mode := mode, request := s.fldI (MAC.RV_CFG_POWER p), fcs := true, cca := false
                           buf := 0, len := 53 + micLen level, tag := 0#32, cring := 0, owner := .recovery, ident := p * 128 + chan
                           trig := tplus (BitVec.ofNat 64 at_) (-200) }
      s.flag (MAC.RV_CFG_EN p) = true → s.flag MAC.MAC_CTL_RV_ALWAYS = true →
      at_ ≤ s.ns + s.fld MAC.MAC_CTL_LEAD_SLOTS * 250000 → getD s.mac.recov p.val 0 ≠ at_ →
      64 < s.fld TM.POOL_STATUS_FREE → (∃ b < 16384, s.isFree b = true) → s.flag CRY.CRY_CTL_EN = true → s.on 16 = true →
      s.findKey (BitVec.ofNat 32 key) = .key m → s.live key + 17 < s.ceil key → s.stageable req v w →
      Answers (.recoveryBeacon p) s (fun t => getD t.mac.recov p.val 0 = at_ ∧ Staging req v w t ∧
        getD t.mac.bsn p.val 0 = (getD s.mac.bsn p.val 0 + 1) % 2 ^ 32 ∧ t.live key = s.live key + 1 ∧
        (p.val, at_ + s.airtime mode (53 + micLen level) + s.taEff p mode,
          s.fld (MAC.RV_SLOT_SLOTS p) * s.fld (MAC.RV_SLOT_LEN p) * 250000) ∈ t.mac.contention ∧
        ∃ j, t.cry.macq = s.cry.macq ++ [j] ∧ j.sealing = true ∧ j.level = level ∧ j.hdrLen = 13 ∧ j.fc = s.live key)) ∧
    (∀ f rest, s.mac.beacons = f :: rest → s.flag MAC.PARENT_CTL_EN = true →
      Answers .parentBeacon s (fun t => t.mac.beacons = rest ∧ t.fld MAC.PARENT_CTL_STATE = 1 ∧ t.fld MAC.PARENT_CTL_MISSES = 0 ∧
        t.mac.parent = some (fieldLe f.psdu 23 8, fieldLe f.psdu 31 2) ∧
        (s.fld MAC.PARENT_CTL_STATE = 3 → t.raised 45 0) ∧ t.mem = s.mem ∧ t.cores = s.cores ∧
        (s.fld ACC.ACC_CTL_SRC = 1 → t.acc.queue.length = s.acc.queue.length + 1) ∧
        (s.fld ACC.ACC_CTL_SRC ≠ 1 → t.acc.queue = s.acc.queue))) ∧
    (∀ time iv, s.mac.parent = some (time, iv) → s.flag MAC.PARENT_CTL_EN = true →
      time + iv * 1000000 + s.fld MAC.PARENT_GUARD_US * 1000 ≤ s.ns →
      let k := min (s.fld MAC.PARENT_CTL_MISSES + 1) 15
      Answers .parentBeaconMiss s (fun t => t.mac.parent = some (time + iv * 1000000, iv) ∧ t.fld MAC.PARENT_CTL_MISSES = k ∧
        (k < 3 → t.fld MAC.PARENT_CTL_STATE = 2) ∧
        (3 ≤ k → t.fld MAC.PARENT_CTL_STATE = 3 ∧ (s.fld MAC.PARENT_CTL_STATE ≠ 3 → t.raised 44 0))))

/-- Learning (R260, R267): the oldest learn of a bank commits as an insert, refresh, pin, move, replacement, duplicate
or refusal, by the entry found, its port, its window and LQI. -/
def Obligations.LearnOutcomes : Prop :=
  ∀ (bank : Fin 16) (s : State) (x : Learn), s.on 2 = true →
    s.fwd.learns.find? (fun y => decide (y.bank = bank.val)) = some x → x.after = none →
    x.kind < 2 → x.key < 2 ^ 64 → x.port < 2 ^ 16 → x.lqi < 256 → x.nidx < 2 ^ 17 →
    let b1 := (s.buckets x.kind x.key).1
    let b2 := (s.buckets x.kind x.key).2
    (∀ w < 4, entParOk (s.bytes (entAddr b1 w) 16) = true ∧ entParOk (s.bytes (entAddr b2 w) 16) = true) →
    let commits := fun (q : State → Prop) => Answers (.learnCommit bank) s (fun t => t.fwd.learns = s.fwd.learns.erase x ∧
      t.cores = s.cores ∧ q t)
    (∀ b w, s.findEnt x.kind x.key = some (b, w) →
      let e := s.ent b w
      let becomes := fun (c : Fld) (f : Ent) => commits (fun t => t.ent b w = f ∧ Counted c s t ∧ MemOnly (entAddr b w) 16 s t)
      let pin := x.managed && !e.managed
      let up := (e.gen + 1) % 16
      let pinned := fun (y : Ent) => if pin then { y with managed := true, nidx := x.nidx, gen := up } else y
      let moved := pinned { e with port := x.port, lqi := x.lqi, stamp := s.ns / 2000000 % 256, hold := true, hit := true, strike := false, gen := up }
      let within := e.hold = true ∧ (s.ns / 2000000 % 256 + 256 - e.stamp) % 256 * 2 < s.fld FWD.MOVE_CFG_MOVE_HOLD
      let conflict := x.managed = true ∧ e.managed = true ∧ e.nidx ≠ x.nidx
      let replaces := s.flag FWD.FWD_EXP_MOVE_EXPERT = true ∧ e.lqi + s.fld FWD.FWD_EXP_MOVE_MARGIN ≤ x.lqi
      (conflict → becomes (FWD.COUNT_LO 2) { e with hit := true }) ∧
      (¬conflict → e.port = x.port → becomes (FWD.COUNT_LO 0) (pinned { e with hit := true, strike := false, lqi := x.lqi })) ∧
      (¬conflict → e.port ≠ x.port → within → ¬replaces → becomes (FWD.COUNT_LO 1) (pinned { e with hit := true })) ∧
      (¬conflict → e.port ≠ x.port → within → replaces → becomes (FWD.COUNT_HI 2) moved) ∧
      (¬conflict → e.port ≠ x.port → ¬within → becomes (FWD.COUNT_HI 1) moved)) ∧
    (s.findEnt x.kind x.key = none →
      let g := portGroup x.port % 8
      let full := s.fld (FWD.FWD_GRP_MAX_ENTRIES g) ≤ s.fld (FWD.GRP_USE_ENTRIES g)
      let poor := s.fld (FWD.FWD_GRP_RATE_BURST g) * 1000 - getD s.fwd.spent g 0 < 1000
      (x.managed = false → full → commits (fun t => t.mem = s.mem ∧ Counted (FWD.COUNT_LO 3) s t)) ∧
      (x.managed = false → ¬full → poor → commits (fun t => t.mem = s.mem ∧ Counted (FWD.COUNT_HI 3) s t)) ∧
      (x.managed = true ∨ (¬full ∧ ¬poor) → ∀ b, (b = b1 ∧ ∃ w < 4, (s.ent b w).valid = false) ∨
          ((∀ w < 4, (s.ent b1 w).valid = true) ∧ b = b2 ∧ ∃ w < 4, (s.ent b w).valid = false) →
        commits (fun t => Counted (FWD.COUNT_HI 0) s t ∧ ∃ w < 4, (s.ent b w).valid = false ∧ MemOnly (entAddr b w) 16 s t ∧
          t.ent b w = {
            key := x.key, kind := x.kind, valid := true, hit := true, hold := true, port := x.port, lqi := x.lqi
            stamp := s.ns / 2000000 % 256, managed := x.managed, nidx := if x.managed then x.nidx else 0
            gen := ((s.ent b w).gen + 1) % 16 } ∧
          (x.managed = false → getD t.fwd.spent g 0 = getD s.fwd.spent g 0 + 1000))))

/-- Passes and operations on the node table (R259, R268, R271, R274): HOLD is swept, aging clears, strikes and
removes, HASH_SEED is guarded, DELETE and UNPIN act on TKEY's entry, a flush passes bank by bank. -/
def Obligations.TablePasses : Prop :=
  ∀ (s : State), s.on 2 = true → (∀ b w, b < 65536 → w < 4 → entParOk (s.bytes (entAddr b w) 16) = true) →
    (let age := fun (e : Ent) => (s.ns / 2000000 % 256 + 256 - e.stamp) % 256
     s.fwd.holdAt ≠ some (s.ns / 64000000) → Answers .holdSweep s (fun t => t.fwd.holdAt = some (s.ns / 64000000) ∧
       ∀ b w, b < 65536 → w < 4 → let e := s.ent b w
         t.ent b w = if e.valid = true ∧ e.hold = true ∧ 128 ≤ age e then { e with hold := false } else e)) ∧
    (∀ (bank : Fin 16) pos last, find s.fwd.sweep bank.val = some (pos, last) → pos < 16384 → 0 < s.fld FWD.AGE_CFG_AGE_PERIOD →
      last + s.fld FWD.AGE_CFG_AGE_PERIOD * 1953125 ≤ s.ns * 32 →
      let b := pos / 4 * 16 + bank
      let w := pos % 4
      let e := s.ent b w
      let visits := fun (q : State → Prop) => Answers (.ageVisit bank) s (fun t =>
        (find t.fwd.sweep bank.val).map Prod.fst = some ((pos + 1) % 16384) ∧ t.cores = s.cores ∧ q t)
      (s.flag FWD.FWD_EXP_AGE_FREEZE = true ∨ e.valid = false ∨ e.managed = true →
        visits (fun t => t.mem = s.mem ∧ t.fwd.removals = s.fwd.removals)) ∧
      (s.flag FWD.FWD_EXP_AGE_FREEZE = false → e.valid = true → e.managed = false →
        (e.hit = true → visits (fun t => t.ent b w = { e with hit := false, strike := false } ∧ MemOnly (entAddr b w) 16 s t)) ∧
        (e.hit = false → e.strike = false → visits (fun t => t.ent b w = { e with strike := true } ∧ MemOnly (entAddr b w) 16 s t)) ∧
        (e.hit = false → e.strike = true → visits (fun t => t.mem = s.mem ∧
          t.fwd.removals = s.fwd.removals ++ [(bank.val, pos / 4, w, e.gen)])))) ∧
    (∀ (bank : Fin 16) r, s.fwd.removals.find? (fun r => decide (r.1 = bank.val)) = some r → r.2.1 < 4096 → r.2.2.1 < 4 →
      let b := r.2.1 * 16 + bank
      let w := r.2.2.1
      let e := s.ent b w
      let still := e.valid = true ∧ e.gen = r.2.2.2 ∧ e.hit = false
      (still → Answers (.ageRemoval bank) s (fun t => t.ent b w = { gen := e.gen } ∧ MemOnly (entAddr b w) 16 s t ∧
        Counted (FWD.COUNT_HI 5) s t ∧ t.fwd.removals = s.fwd.removals.erase r)) ∧
      (¬still → Answers (.ageRemoval bank) s (fun t => t = { s with fwd := t.fwd } ∧ t.fwd.removals = s.fwd.removals.erase r))) ∧
    (∀ v : Word, s.flag FWD.WINDOW_LOCK_LOCK = false →
      (s.flag FWD.FWD_CTL_EN = false → s.fld FWD.STATUS_ENTRIES = 0 → Answers (.hashSeedWrite v) s (fun t =>
        t.fld FWD.HASH_SEED_SEED = v.toNat ∧ t.mem = s.mem ∧ t.fwd = s.fwd)) ∧
      (s.flag FWD.FWD_CTL_EN = true ∨ s.fld FWD.STATUS_ENTRIES ≠ 0 → Answers (.hashSeedWrite v) s (fun t =>
        t.flag FWD.STATUS_SEEDREJ = true ∧ t.fld FWD.HASH_SEED_SEED = s.fld FWD.HASH_SEED_SEED))) ∧
    (s.flag FWD.TABLE_OP_BUSY = false →
      (∀ kind : Bool, s.fwd.learns.filter (fun x => x.bank = (s.buckets (b2n kind) s.tkey).1 % 16) = [] →
        (∀ b w, s.findEnt (b2n kind) s.tkey = some (b, w) →
          let e := s.ent b w
          let becomes := fun (c : Instr) (f : Ent) => Answers c s (fun t => t.ent b w = f ∧ MemOnly (entAddr b w) 16 s t ∧
            t.fld FWD.TABLE_OP_RESULT = 0)
          becomes (.tableDelete kind) { gen := e.gen } ∧
          becomes (.tableUnpin kind) { e with managed := false, nidx := 0, gen := (e.gen + 1) % 16 }) ∧
        (let finds_none := fun (c : Instr) => Answers c s (fun t => t.fld FWD.TABLE_OP_RESULT = 1 ∧ t.mem = s.mem)
         s.findEnt (b2n kind) s.tkey = none → finds_none (.tableDelete kind) ∧ finds_none (.tableUnpin kind))) ∧
      (let begins := fun (op : Nat) (c : Instr) => Answers c s (fun t =>
         t.flag FWD.TABLE_OP_BUSY = true ∧ t.fwd.flush = some (op, List.range 16) ∧ t.mem = s.mem)
       begins 3 .flushGroup ∧ begins 4 .flushPort)) ∧
    (∀ op bank rest, s.fwd.flush = some (op, bank :: rest) → op = 3 ∨ op = 4 → bank < 16 →
      s.fwd.learns.filter (fun x => x.bank = bank) = [] → Answers .tableFlushBank s (fun t =>
        (rest = [] → t.fwd.flush = none ∧ t.flag FWD.TABLE_OP_BUSY = false ∧ t.fld FWD.TABLE_OP_RESULT = 0) ∧
        (rest ≠ [] → t.fwd.flush = some (op, rest)) ∧
        ∀ b w, b < 65536 → w < 4 → let e := s.ent b w
          t.ent b w = if b % 16 = bank ∧ e.valid = true ∧ e.managed = false ∧ (if op = 3 then portGroup e.port = s.fld FWD.TPORT_CODE % 8
            else e.port = s.fld FWD.TPORT_CODE) then { gen := e.gen } else e))

/-- The forwarding decision and delivery by payload (R262-R265): the class of a frame whose header a lane has shown,
by its form, level and source entry, with the receive job of one that is opened; an opened frame handed back goes by
its first payload byte; FWD is enabled and disabled (R288). -/
def Obligations.ForwardingDecisions : Prop :=
  ∀ (s : State), s.on 2 = true →
    (s.flag FWD.FWD_CTL_EN = true → ∀ (n : Fin 96) (ns : BitVec 16) f buf, (s.lane n).run = .receive → (s.lane n).frame = some f →
      f.buf = some buf → f.headerSeen = true → s.decisionOn buf = none → s.takes (s.fld FWD.RING_SEL1_CRY) →
      let hdr := parseHdr f.psdu f.len
      let src := hdr.bind Hdr.src
      let keys := src.toList ++ (hdr.bind Hdr.dst).toList
      (∀ k ∈ keys, ∀ w < 4, entParOk (s.bytes (entAddr (s.buckets k.1 k.2).1 w) 16) = true ∧
        entParOk (s.bytes (entAddr (s.buckets k.1 k.2).2 w) 16) = true) →
      let entry := (src.bind (fun k => s.findEnt k.1 k.2)).map (fun x => s.ent x.1 x.2)
      let form := hdr.map Hdr.form
      let level := (hdr.map Hdr.level).getD 0
      let cls : FwdClass :=
        if form = none ∨ form = some .ack then .other
        else if form = some .tagAck then .tagAck
        else if level = 0 ∧ s.flag MAC.MAC_EXP_ACCEPT_L0 = false then .other
        else match entry with
          | none => if form = some .beacon then .beacon else .miss
          | some e => if e.managed then (if form = some .poll then .poll else if form = some .uplink then .uplink else .other)
            else if form = some .beacon then .beacon else if form = some .bcast then .bcast else .peer
      let nidx := match entry with
        | some e => if e.managed then e.nidx else 0
        | none => 0
      let key := if level = 0 then none
        else if cls = .poll ∨ cls = .uplink then some (2 ^ 31 + nidx)
        else if cls = .beacon ∨ cls = .bcast then some (s.fld MAC.BCN_CFG_KEY)
        else if cls = .peer ∧ s.flag FWD.KEY_CFG_PEER_EN = true then some (s.fld FWD.KEY_CFG_PEER_KEY) else none
      Answers (.fwdDecision n ns) s (fun t => t.bb = s.bb ∧ Counted (FWD.COUNT_HI 6) s t ∧
        t.fld FWD.DEC_MAX_NS = max (s.fld FWD.DEC_MAX_NS) ns.toNat ∧
        ∃ d, t.decisionOn buf = some d ∧ d.lane = n ∧ d.cls = cls ∧ d.nidx = nidx ∧ d.opened = key.isSome ∧ d.src = src ∧
          (∀ k, key = some k → d.ref = BitVec.ofNat 32 k ∧ t.key = { s.key with loads := s.key.loads ++ [(.decision buf, d.ref)] } ∧
            Pushed (s.fld FWD.RING_SEL1_CRY) (cryRx d f.len) s t) ∧
          (key = none → t.key = s.key ∧ t.tm = s.tm))) ∧
    (∀ d a b rest, s.fwd.paysel = (d, a, b) :: rest →
      let l := s.chainBytes d.buf d.len
      ∀ h, parseHdr l d.len = some h → h.len + micLen h.level + 2 < d.len →
        let first := byteAt l h.len
        let goes := fun (q : State → Prop) => Answers .payselDelivery s (fun t => t.fwd.paysel = rest ∧ t.cores = s.cores ∧ q t)
        (first = 0x11 → s.hasRoom (s.fld FWD.RING_SEL1_DIS) = true → (s.ring (s.fld FWD.RING_SEL1_DIS)).ptrFault = 0 →
          s.boundSlots 4 (s.fld FWD.RING_SEL1_DIS) = [] → goes (fun t => Pushed (s.fld FWD.RING_SEL1_DIS) d s t)) ∧
        (first ≠ 0x11 → first < 0x40 → s.hasRoom (s.fld FWD.RING_SEL0_UPLINK) = true →
          (s.ring (s.fld FWD.RING_SEL0_UPLINK)).ptrFault = 0 → s.boundSlots 4 (s.fld FWD.RING_SEL0_UPLINK) = [] →
          goes (fun t => Pushed (s.fld FWD.RING_SEL0_UPLINK) d s t)) ∧
        (0x40 ≤ first → goes (fun t => t.fwd.upward = s.fwd.upward ++ [(d, rfCode d.port d.chan, d.nidx)] ∧ t.tm = s.tm))) ∧
    (s.flag FWD.FWD_CTL_EN = false → Answers .fwdEnable s (fun t => t.flag FWD.FWD_CTL_EN = true ∧
      t.flag FWD.FWD_CTL_DRAINED = false ∧ t.fwd = s.fwd ∧ t.mem = s.mem ∧ t.cores = s.cores)) ∧
    (s.flag FWD.FWD_CTL_EN = true → Answers .fwdDisable s (fun t => t.flag FWD.FWD_CTL_EN = false ∧ t.fwd.learns = [] ∧
      t.fwd.reasm = [] ∧ ∀ j ∈ t.fwd.jobs, j.stage ≠ 0))

/-- The Atomiser (R277, R279-R281): a FLOOD descriptor is taken, tested in Sillage, its hop limit looked at, sealed or
staged on its targets; a target that was refused BUSY is staged again. The adaptation block (R278, R283-R287): an
opened 6LoWPAN frame goes on as a packet with one hop less, joins its datagram or goes to the exception ring, a
datagram that is not complete in time is discarded, and a downward packet is compressed into its node's downlink ring
or goes to DOWNMISS. -/
def Obligations.FloodsAndAdaptation : Prop :=
  (∀ (s : State), s.on 2 = true →
    (∀ e q, let r := s.fld FWD.RING_SEL2_ATOM
      let j := s.floodOf e.d
      let done := fun (status : Nat) => s.takes j.cring → j.cring ≠ r → Answers .floodJob s (fun t => (t.ring r).q = q ∧
        t.fwd.jobs = s.fwd.jobs ∧ Pushed j.cring (completion 4 status j.len j.buf 0 0 j.tag.toNat) s t)
      s.fwd.jobs.find? (fun j => j.stage = 0) = none → (∀ x ∈ s.fwd.jobs, x.id ≠ s.fwd.jobCount) →
      s.flag FWD.FWD_CTL_EN = true → s.flag (TM.RING_CTL_EN r) = true → s.tm.held = [] → s.shallow r = true →
      (s.ring r).ptrFault = 0 → (s.ring r).q = e :: q → e.d.type = 7 → e.d.poison = false →
      (∀ o k sq c w, j.sil = some (o, k, sq, c) → w < 4 →
        let a := silAddr (s.silSet o k sq c) w
        s.bytes a 8 = leBytes o 8 → s.mem' (a + 8) 4 % 2 ^ 26 = sq % 2 ^ 16 + c * 2 ^ 16 + k * 2 ^ 24 + 2 ^ 25 →
        0 < signed 32 (s.mem' (a + 12) 4 + 2 ^ 32 - s.ns / 1000000000 % 2 ^ 32) → done 1) ∧
      (∀ at_ left, let fc := fieldLe (s.chainBytes j.buf j.len) 0 2
        j.sil = none → j.hopdec = true → j.level = none → s.isFree j.buf = false →
        s.hops j.buf j.len (((formOf fc).map (formLen fc)).getD 0) = some (at_, left) → left ≤ 1 → done 2) ∧
      (j.sil = none → j.hopdec = false → ∀ level, j.level = some level → s.flag CRY.CRY_CTL_EN = true →
        Answers .floodJob s (fun t => (t.ring r).q = q ∧ t.fwd.atomSeq = (s.fwd.atomSeq + 1) % 256 ∧
          (∃ x ∈ t.fwd.jobs, x.id = s.fwd.jobCount ∧ x.stage = 1) ∧ ∃ x, t.cry.atomq = s.cry.atomq ++ [x] ∧ x.sealing = true ∧
            x.buf = j.buf ∧ x.level = level ∧ x.hdrLen = 15 ∧ x.len = j.len - micLen level - 2)) ∧
      (j.sil = none → j.hopdec = false → j.level = none → ∀ g v p, s.floodSet j.set none = [g] →
        radioOk g.port g.chan g.mode = true → j.len ≤ maxPsdu g.mode →
        let launch := s.ns + (if j.start = 0 then s.fld FWD.ATOM_CFG_ATOM_LEAD else j.start) * 250000
        let req : TxReq := { port := g.port, chan := g.chan, mode := g.mode, request := g.power, fcs := true, cca := false, buf := j.buf
                             len := j.len, tag := j.tag, cring := j.cring, owner := .flood, ident := s.fwd.jobCount * 16 + g.index
                             trig := tplus (BitVec.ofNat 64 launch) (-200) }
        s.stageable req v p → Answers .floodJob s (fun t => (t.ring r).q = q ∧ Staging req v p t ∧
          ∃ x ∈ t.fwd.jobs, x.id = s.fwd.jobCount ∧ x.stage = 2 ∧ x.targets.map Target.st = [1]))) ∧
    (∀ j g v p, s.fwd.jobs = [j] → j.stage = 2 → j.targets = [g] → g.st = 0 → 0 < g.tries → g.retryAt ≤ s.ns →
      radioOk g.port g.chan g.mode = true → j.len ≤ maxPsdu g.mode →
      let req : TxReq := { port := g.port, chan := g.chan, mode := g.mode, request := g.power, fcs := true, cca := false, buf := j.buf
                           len := j.len, tag := j.tag, cring := j.cring, owner := .flood, ident := j.id * 16 + g.index
                           trig := tplus (BitVec.ofNat 64 g.launch) (-200) }
      (s.stageable req v p → Answers .floodRetry s (fun t => Staging req v p t ∧
        t.fwd.jobs = [{ j with targets := [{ g with st := 1 }] }])) ∧
      (s.flag (FE.PORT_CTL_EN g.port) = true → s.flag (FE.PORT_STATUS_READY g.port) = false → g.tries < 8 →
        Answers .floodRetry s (fun t => t = { s with fwd := t.fwd } ∧
          t.fwd.jobs = [{ j with targets := [{ g with tries := g.tries + 1, retryAt := s.ns + 1000000 }] }])))) ∧
  (∀ (s : State), s.on 2 = true →
    (∀ d code nidx rest h, s.fwd.upward = (d, code, nidx) :: rest →
      let l := s.chainBytes d.buf d.len
      let p := slice l h.len (d.len - micLen h.level - 2)
      let src := linkOf (h.src.getD (1, 0))
      let dst := linkOf (h.dst.getD (1, 0))
      let up := fun (q : State → Prop) => Answers .adaptUpward s (fun t => t.fwd.upward = rest ∧ q t)
      parseHdr l d.len = some h → parseMesh p = none →
      (∀ ip pay, p.getD 0 0 ≠ 0x50 → parseFrag p = none → decompress s.ctx src dst p = .ok (ip, pay) → ip.elided = false →
        let hop := ip.head.getD 7 0
        let hdr := ({ ip with head := ip.head.set 7 (hop - 1) } : IpHdr).finish pay
        (1 < hop → 14 + hdr.length ≤ 256 → s.classThreshold 0 < s.fld TM.POOL_STATUS_FREE → (∃ b < 16384, s.isFree b = true) →
          s.takes (s.fld FWD.RING_SEL2_IP6) → s.shallow (s.fld FWD.RING_SEL2_IP6) = true → (walk s 16384 d.buf).2 = true → up (fun t => ∃ hb < 16384, s.isFree hb = true ∧
            t.bytes (bufAddr hb + 14) hdr.length = hdr.map (· % 256) ∧
            Pushed (s.fld FWD.RING_SEL2_IP6) (ip6Desc 0 (hdr.length + pay.length + 18) hb nidx code 0) s t)) ∧
        (hop ≤ 1 → s.takes (s.fld FWD.RING_SEL2_EXC) → up (fun t => Counted (FWD.COUNT_HI 11) s t ∧
          Pushed (s.fld FWD.RING_SEL2_EXC) (ip6Desc 0 d.len d.buf nidx code 3) s t))) ∧
      (∀ size tag off n, p.getD 0 0 ≠ 0x50 → parseFrag p = some (size, tag, off, n) → isFrag1 p = false →
        s.fwd.reasm.find? (fun r => decide (r.src = src) && decide (r.dst = dst) && decide (r.tag = tag)) = none →
        s.fwd.reasm.length < 256 →
        (s.fwd.reasm.filter (fun r => decide (r.src = src))).length < s.fld FWD.ADAPT_CFG_REASM_PER_SRC →
        (p.drop n).length < size → off + (p.drop n).length ≤ size →
        up (fun t => t.fwd.reasm = s.fwd.reasm ++ [⟨src, dst, size, tag, s.ns, nidx, code, [(off, (p.drop n).length, d.buf)]⟩])) ∧
      (p.getD 0 0 / 32 ≠ 3 → p.getD 0 0 ≠ 0x50 → p.getD 0 0 ≠ 0x41 → parseFrag p = none → s.takes (s.fld FWD.RING_SEL2_EXC) →
        up (fun t => Counted (FWD.COUNT_HI 11) s t ∧
          Pushed (s.fld FWD.RING_SEL2_EXC) (ip6Desc 0 d.len d.buf nidx code 1) s t))) ∧
    Answers .reasmTimeout s (fun t =>
      t.fwd.reasm = s.fwd.reasm.filter (fun r => decide (s.ns < r.since + s.fld FWD.ADAPT_CFG_REASM_TIMEOUT * 1000000000))) ∧
    (∀ e q, let r := s.fld FWD.RING_SEL3_ADAPT_DOWN
      let d := e.d
      let l := s.chainBytes d.buf d.len
      let whole := slice l 14 (d.len - 4)
      let p := whole.take (40 + ofBe ((whole.drop 4).take 2))
      let eui := Nat.xor (ofBe ((p.drop 32).take 8)) (2 ^ 57)
      s.flag (TM.RING_CTL_EN r) = true → s.tm.held = [] → s.shallow r = true → (s.ring r).ptrFault = 0 → (s.ring r).q = e :: q →
      d.type = 4 → s.isFree d.buf = false → bit d.w0.toNat 5 = true → d.poison = false → slice l 12 14 = [0x86, 0xDD] → 40 ≤ p.length →
      1 < p.getD 7 0 → p.getD 24 0 ≠ 0xFF →
      (∀ w < 4, entParOk (s.bytes (entAddr (s.buckets 0 eui).1 w) 16) = true ∧
        entParOk (s.bytes (entAddr (s.buckets 0 eui).2 w) 16) = true) →
      (s.findEnt 0 eui = none → s.takes (s.fld FWD.RING_SEL2_DOWNMISS) → s.fld FWD.RING_SEL2_DOWNMISS ≠ r →
        Answers .adaptDownward s (fun t => (t.ring r).q = q ∧
          Pushed (s.fld FWD.RING_SEL2_DOWNMISS) (ip6Desc 1 d.len d.buf 0 (d.w2.toNat % 65536) 0) s t)) ∧
      (∀ b w n, s.findEnt 0 eui = some (b, w) → (s.ent b w).managed = true → find s.mac.cache (s.ent b w).nidx = some n →
        let i := (s.ent b w).nidx
        let level := s.fld FWD.ADAPT_CFG_DOWN_LEVEL
        let low := compress s.ctx (1, s.fld MAC.ADDR_SHORT_ADDR) (0, eui) (p.set 7 (p.getD 7 0 - 1))
        let body := low.1.length + (p.length - low.2)
        let len := 21 + body + micLen level + 2
        body ≤ 104 - micLen level → s.dlRefusal i n [len] = none → s.classThreshold 0 < s.fld TM.POOL_STATUS_FREE →
        (∃ x < 16384, s.isFree x = true) →
        Answers .adaptDownward s (fun t => (t.ring r).q = q ∧ Counted (FWD.COUNT_HI 10) s t ∧ ∃ x < 16384, s.isFree x = true ∧
          t.dlRing i = s.dlRing i ++ [{ d := mkDesc (6 + len * 2 ^ 16) x level 0 }]))))

/-- LINK_DATA (R294): a write changes FILL, LAST and NEXT of the buffer the master's own LINK_SEL names, takes HEAD
from the buffer linked and gives it back to one unlinked; a write that names what it may not is ignored and counted.
Rings and schedulers (R304, R305, R307-R311, R315, R316): EN, DRAINED and FLUSH of a ring, the end of a reclaim, and a
scheduler's move of its chosen member's head to DST with what it does to V and the credit. Shaping and sampling at
LTB's boundaries (R311, R312): every shaped ring's credit, every sampled ring's occupancy, sojourn and LATE count. -/
def Obligations.TrafficManager : Prop :=
  (∀ (m : Fin 67) (v : Word) (s : State), s.on 2 = true →
    let b := s.fld (TM.LINK_SEL_BUF.of m)
    let fill := bits v.toNat 24 16
    let last := bit v.toNat 14
    let next := bits v.toNat 13 0
    let old := s.nextBuf b
    let bad := s.isFree b = true ∨ fill = 0 ∨ 256 < fill ∨
      (last = false ∧ (s.isFree next = true ∨ s.isHead next = false ∨ next = b))
    (bad → Answers (.linkDataWrite m v) s (fun t => t.mem = s.mem ∧ t.cores = s.cores ∧ Counted TM.POOL_CNT_C_CHAINERR s t)) ∧
    (¬bad → b < 16384 → Answers (.linkDataWrite m v) s (fun t => t.regs = s.regs ∧ t.cores = s.cores ∧
      t.fill b = fill ∧ t.isLast b = last ∧ t.nextBuf b = next ∧ (last = false → t.isHead next = false) ∧
      (s.isLast b = false → old < 16384 → (last = true ∨ next ≠ old) → t.isHead old = true ∧ t.holder old = 0x40) ∧
      ∀ x, x < 16384 → x ≠ b → x ≠ next → x ≠ old → t.meta x = s.meta x))) ∧
  (∀ (s : State), s.on 2 = true →
    (∀ (n : Fin 64),
      (s.tm.held = [] → Answers (.ringEnable n) s (fun t => t.flag (TM.RING_CTL_EN n) = true ∧
        t.flag (TM.RING_CTL_DRAINED n) = false ∧ t.tm = s.tm ∧ t.mem = s.mem ∧ t.cores = s.cores)) ∧
      (∀ h, s.tm.held = [h] → h.ring = n → (s.ring n).q.length < s.depth n → (s.ring n).reclaiming = false →
        Answers (.ringEnable n) s (fun t => t.flag (TM.RING_CTL_EN n) = true ∧ t.tm.held = [] ∧ Pushed n h.d s t)) ∧
      Answers (.ringDisable n) s (fun t => t.flag (TM.RING_CTL_EN n) = false ∧ t.tm = s.tm ∧ t.mem = s.mem ∧
        ((s.ring n).q = [] → t.flag (TM.RING_CTL_DRAINED n) = true ∧
          (s.flag (TM.RING_CTL_DRAINED n) = false → t.raised 67 n)) ∧
        ((s.ring n).q ≠ [] → t.fld (TM.RING_CTL_DRAINED n) = s.fld (TM.RING_CTL_DRAINED n))) ∧
      (s.flag (TM.RING_CTL_EN n) = false → Answers (.ringFlush n) s (fun t => (t.ring n).q = [] ∧
        t.flag (TM.RING_CTL_DRAINED n) = true ∧ (∀ b < 16384, t.holder b = n → t.isHead b = false) ∧
        t.fld (TM.RING_CNT_A_FLUSHED n) = min (s.fld (TM.RING_CNT_A_FLUSHED n) + (s.ring n).q.length) 65535)) ∧
      (s.flag (TM.RING_CTL_EN n) = true → exec (.ringFlush n) s = .next s) ∧
      ((s.ring n).reclaiming = true → s.tm.held = [] → Answers (.reclaimComplete n) s (fun t => (t.ring n).reclaiming = false ∧
        (t.ring n).q = (s.ring n).q ∧ ∀ b < 16384, t.holder b = n → t.isHead b = false))) ∧
    (∀ (k : Fin 8),
      Answers (.schedulerEnable k) s (fun t => t.flag (TM.SCH_CTL_EN k) = true ∧ t.flag (TM.SCH_CTL_DRAINED k) = false ∧
        t = { s with regs := t.regs }) ∧
      Answers (.schedulerDisable k) s (fun t => t.flag (TM.SCH_CTL_EN k) = false ∧ t.flag (TM.SCH_CTL_DRAINED k) = true ∧
        t.tm = s.tm ∧ t.regN (TM.SCH_VT k) = s.regN (TM.SCH_VT k)) ∧
      (∀ n e rest, let dst := s.fld (TM.SCH_CTL_DST k)
        let el := fun (m : Nat) => m < 64 ∧ bit (s.pair (TM.SCH_MEM_LO k) (TM.SCH_MEM_HI k)) m = true ∧ s.eligible m = true
        let prio := fun (m : Nat) => s.flag (TM.RING_WFQ_PRIO m) = true
        let tag := fun (m : Nat) => s.regN (TM.RING_FTAG m)
        let chosen := (prio n ∧ ∀ m, el m → prio m → n ≤ m) ∨
          ((∀ m, el m → ¬prio m) ∧ ∀ m, el m → m ≠ n → tagBefore (tag m) (tag n) = false ∧ (m < n → tagBefore (tag n) (tag m) = true))
        el n → chosen → s.flag (TM.SCH_CTL_EN k) = true → s.hasRoom dst = true → (s.ring dst).ptrFault = 0 →
        (s.ring dst).q.length < s.fld (TM.SCH_CTL_DST_LOW k) → n ≠ dst → s.tm.held = [] → s.shallow n = true →
        (s.ring n).ptrFault = 0 → (s.ring n).q = e :: rest → Answers (.schedulerMove k) s (fun t => (t.ring n).q = rest ∧
          Pushed dst e.d s t ∧ (¬prio n → t.regN (TM.SCH_VT k) = tag n) ∧
          (prio n → t.regN (TM.SCH_VT k) = s.regN (TM.SCH_VT k)) ∧
          (s.fld (TM.RING_SHAPE_RATE n) ≠ 0 → t.credit n = max (-65535000) (s.credit n - (max e.d.len 1 * 1000 : Nat))) ∧
          (s.fld (TM.RING_SHAPE_RATE n) = 0 → t.credit n = s.credit n))))) ∧
  (∀ (s : State), s.on 2 = true →
    (s.acc.ltb % 1000 = 0 → Answers .shaperCreditTick s (fun t => t = { s with regs := t.regs } ∧ ∀ n < 64,
      let rate : Int := s.fld (TM.RING_SHAPE_RATE n)
      t.credit n = if rate = 0 then s.credit n
        else if (s.ring n).q ≠ [] then min (s.credit n + rate) (s.fld (TM.RING_BURST_BURST n) * 1000 : Nat)
        else if 0 < s.credit n then 0 else min (s.credit n + rate) 0)) ∧
    (s.flag TM.LAT_CFG_SAMPLE_EN = true → s.acc.ltb % 1000000 = 0 → Answers .latencySample s (fun t => t.mem = s.mem ∧
      t.cores = s.cores ∧ ∀ n < 64, (t.ring n).q = (s.ring n).q ∧
        (s.flag (TM.RING_CTL_EN n) = true → s.flag (TM.RING_CFG_LAT_EN n) = true →
          ((s.ring n).q = [] → t.fld (TM.LAT_DEPTH_DEPTH n) = 0 ∧ t.fld (TM.LAT_SOJ_US n) = 0) ∧
          (∀ e rest, (s.ring n).q = e :: rest → s.shallow n = true → (s.ring n).q.length ≤ 256 →
            let soj := min ((s.ltbUs + 2 ^ 32 - e.stamp) % 2 ^ 32) (2 ^ 24 - 1)
            t.fld (TM.LAT_DEPTH_DEPTH n) = rest.length + 1 ∧ t.fld (TM.LAT_SOJ_US n) = soj ∧
            (s.fld (TM.LAT_LIMIT_US n) ≠ 0 → s.fld (TM.LAT_LIMIT_US n) < soj → Counted (TM.RING_CNT_C_LATE n) s t))) ∧
        (s.flag (TM.RING_CTL_EN n) = false ∨ s.flag (TM.RING_CFG_LAT_EN n) = false →
          t.fld (TM.LAT_DEPTH_DEPTH n) = s.fld (TM.LAT_DEPTH_DEPTH n) ∧ t.fld (TM.LAT_SOJ_US n) = s.fld (TM.LAT_SOJ_US n)))))

/-- Receive jobs (R323, R325, R336, R339-R341, R348): what RX_JOB does with the head of RX_RING, and how RX_JOB_FINISH
ends a context: the plaintext in place and the RXRADIO descriptor on its ring, or the chain back to Flacon with its
cause counted. -/
def Obligations.CipherReceive : Prop :=
  ∀ (s : State), s.on 16 = true →
    let r := s.fld CRY.RX_CFG_RX_RING
    ((s.ring r).q ≠ [] → s.flag CRY.CRY_CTL_EN = true → s.freeCtx = none → exec .rxJob s = .next s) ∧
    (∀ e rest, (s.ring r).q = e :: rest → (s.ring r).ptrFault = 0 → s.shallow r = true → s.tm.held = [] →
      s.flag (TM.RING_CTL_EN r) = true →
      (∀ x i, find s.fwd.decisions e.d.buf = some x → x.opened = true → x.lost = false → x.lane = bits e.d.w3.toNat 12 6 →
        s.flag CRY.CRY_CTL_EN = true → cryRxOk e.d = true → s.freeCtx = some i →
        Answers .rxJob s (fun t => (t.ring r).q = rest ∧ find t.fwd.decisions e.d.buf = none ∧
          find t.cry.ctxs i = some { lane := x.lane, d := e.d, frame := x.frame, decision := x })) ∧
      (∀ x, find s.fwd.decisions e.d.buf = some x → x.opened = true → x.lost = false → x.lane = bits e.d.w3.toNat 12 6 →
        x.frame = none → s.flag CRY.CRY_CTL_EN = false → Answers .rxJob s (fun t => (t.ring r).q = rest ∧
          Counted (CRY.CNT_HI 6) s t ∧ find t.fwd.decisions e.d.buf = some { x with lost := true })) ∧
      (find s.fwd.decisions e.d.buf = none → (s.flag CRY.CRY_CTL_EN = false ∨ ∃ i, s.freeCtx = some i) →
        Answers .rxJob s (fun t => (t.ring r).q = rest ∧ Counted (CRY.CNT_HI 5) s t ∧ t.cry = s.cry ∧
          (e.d.len ≠ 0 → s.isHead e.d.buf = true → t.isFree e.d.buf = true)))) ∧
    (∀ (cl : Fin 24) (a : Fin 16) x, find s.cry.ctxs (cl * 16 + a) = some x →
      (x.frame = none → exec (.rxJobFinish cl a) s = .next s) ∧
      (∀ d st, x.frame = some d → (x.dead = some st ∨ (x.dead = none ∧ x.decision.key = some (st, none))) →
        s.isFree d.buf = false → s.isHead d.buf = true →
        Answers (.rxJobFinish cl a) s (fun t => find t.cry.ctxs (cl * 16 + a) = none ∧ t.isFree d.buf = true ∧
          (st = 4 ∨ st = 5 ∨ st = 8 → Counted (CRY.CNT_LO 3) s t) ∧ (st = 6 → Counted (CRY.CNT_LO 2) s t))) ∧
      (∀ d st m, x.frame = some d → x.dead = none → x.decision.key = some (st, some m) → x.verified = false →
        let l := s.chainBytes d.buf d.len
        ∀ h, secHdr l = some h →
        let n := d.len - 2 - micLen h.level
        let v := s.runStar false h.level none l n 0 m
        (v.status = 1 → s.isFree d.buf = false → s.isHead d.buf = true → Answers (.rxJobFinish cl a) s (fun t =>
          find t.cry.ctxs (cl * 16 + a) = none ∧ t.isFree d.buf = true ∧ Counted (CRY.CNT_LO 0) s t ∧
          ∀ b < 0x10A40000, t.byte b = s.byte b)) ∧
        (∀ o p, v.status = 0 → v.writes = [(o, p)] → refNode x.decision.ref = none → x.decision.managed = false →
          x.decision.learn = 2 → x.decision.paysel = false → x.decision.cls = .peer → (s.chainAddrs d.buf).Nodup →
          let c := s.fld FWD.RING_SEL1_PEER
          x.decision.ring = c → s.takes c → s.shallow c = true → Answers (.rxJobFinish cl a) s (fun t =>
            find t.cry.ctxs (cl * 16 + a) = none ∧ Counted (CRY.CNT_HI 0) s t ∧ Pushed c (d.withNidx x.decision.nidx) s t ∧
            ∀ i b, i < p.length → (s.chainAddrs d.buf)[o + i]? = some b → t.byte b = p.getD i 0 % 256)) ∧
        (∀ node r, v.status = 0 → refNode x.decision.ref = some node → find s.mac.cache node = some r →
          (v.detail ≠ 0xFFFFFFFF → (r.fcRx < v.detail ∨ r.rxCount = 0) → Answers (.rxJobFinish cl a) s (fun t =>
            find t.mac.cache node = some { r with fcRx := v.detail } ∧ t.fld (CRY.CNT_LO 1) = s.fld (CRY.CNT_LO 1))) ∧
          (v.detail < r.fcRx → r.rxCount ≠ 0 → s.isFree d.buf = false → s.isHead d.buf = true →
            Answers (.rxJobFinish cl a) s (fun t => find t.mac.cache node = some r ∧ Counted (CRY.CNT_LO 1) s t ∧
              find t.cry.ctxs (cl * 16 + a) = none ∧ t.isFree d.buf = true)))))

/-- Whole-lane jobs and the engine's switch (R324, R333-R335, R338, R339, R346-R348): which job a lane takes, what a
key load gives it, the ceiling write, how the job ends with its completion, a lane's parity error, and CRY_CTL.EN. -/
def Obligations.CipherJobs : Prop :=
  ∀ (s : State), s.on 16 = true → s.on 2 = true →
    (∀ cl, s.allot 3 (allBelow 24 s.laneIdle) = some cl → s.cry.whole.length < s.fld CRY.CRY_EXP_MAX_WHOLE →
      (∀ j rest, s.cry.macq = j :: rest → Answers .wholeLaneDispatch s (fun t => t.cry.macq = rest ∧
        find t.cry.whole cl = some j ∧ (j.key = none → t.key.loads = s.key.loads ++ [(.whole cl, j.ref)]))) ∧
      (∀ d j rest, s.cry.macq = [] → 1 ≤ d → d ≤ 3 → (∀ e, 1 ≤ e → e < d → s.cry.queue ((s.cry.rr + e) % 3) = []) →
        s.cry.queue ((s.cry.rr + d) % 3) = j :: rest → Answers .wholeLaneDispatch s (fun t =>
          t.cry.queue ((s.cry.rr + d) % 3) = rest ∧ t.cry.rr = (s.cry.rr + d) % 3 ∧ find t.cry.whole cl = some j))) ∧
    (∀ cl j r, s.key.loads = [(.whole cl, r)] → s.flag KEY.KEY_STATUS_READY = true → find s.cry.whole cl = some j →
      s.loadWaits (.whole cl) r = false →
      (s.findKey r = .refused 4 → (j.sealing && j.alg = 0) = false → Answers .keyLoad s (fun t => t.key.loads = [] ∧
        Counted (KEY.CNT_LO 0) s t ∧ find t.cry.whole cl = some { j with key := some (4, none) })) ∧
      (∀ m, s.findKey r = .key m → refNode r = none →
        ((j.sealing && j.alg = 0) = false → Answers .keyLoad s (fun t => t.key.loads = [] ∧
          find t.cry.whole cl = some { j with key := some (0, some m) })) ∧
        ((j.sealing && j.alg = 0) = true → let k := bits r.toNat 11 0
          s.live k ≠ 0xFFFFFFFF → Answers .keyLoad s (fun t => t.key.loads = [] ∧ t.live k = s.live k + 1 ∧
            find t.cry.whole cl = some { j with key := some (0, some m), fc := s.live k } ∧
            (s.fld CRY.FC_WARN_VALUE < s.live k + 1 → k ∉ s.cry.warned → k ∈ t.cry.warned ∧ t.raised 70 k))) ∧
        ((j.sealing && j.alg = 0) = true → s.live (bits r.toNat 11 0) = 0xFFFFFFFF → Answers .keyLoad s (fun t =>
          t.key.loads = [] ∧ Counted (CRY.CNT_LO 5) s t ∧ find t.cry.whole cl = some { j with key := some (9, none) }))) ∧
      (∀ i g, s.findKey r = .miss i g → (j.sealing && j.alg = 0) = false → s.cacheHit i g = none →
        (∀ d ∈ s.key.derivations, d.nidx ≠ i) → Answers .keyLoad s (fun t => t.key.loads = [] ∧
          t.key.derivations = s.key.derivations ++ [s.derivation i g [(.whole cl, r)]]))) ∧
    (∀ (k : Fin 4096) v, find s.cry.ceiling k = some v → Answers (.fcCeilingComplete k) s (fun t =>
      t.ceil k = v % 2 ^ 32 ∧ find t.cry.ceiling k = none ∧ t.regs = s.regs)) ∧
    (∀ (cl : Fin 24) j, find s.cry.whole cl = some j → j.owner = .program → j.buf < 16384 → j.cring < 64 →
      s.takes j.cring → s.shallow j.cring = true →
      (∀ st, j.dead = none → j.key = some (st, none) → Answers (.cipherJobEnd cl) s (fun t => find t.cry.whole cl = none ∧
        Pushed j.cring (completion 2 st j.len j.buf cl 0 j.tag.toNat) s t ∧
        (st = 4 ∨ st = 5 ∨ st = 8 → Counted (CRY.CNT_LO 3) s t))) ∧
      (∀ st m, j.dead = none → j.key = some (st, some m) → j.early = false → let v := s.runJob j m
        (∀ o p, v.status = 0 → v.writes = [(o, p)] → (s.chainAddrs j.buf).Nodup → Answers (.cipherJobEnd cl) s (fun t =>
          find t.cry.whole cl = none ∧ Counted (if j.sealing then CRY.CNT_HI 1 else CRY.CNT_HI 0) s t ∧
          Pushed j.cring (completion 2 0 (if j.sealing then j.len + j.tagLen (s.chainBytes j.buf 0x20) else j.len) j.buf cl
            v.detail j.tag.toNat) s t ∧
          ∀ i b, i < p.length → (s.chainAddrs j.buf)[o + i]? = some b → t.byte b = p.getD i 0 % 256)) ∧
        (v.status = 1 → Answers (.cipherJobEnd cl) s (fun t => find t.cry.whole cl = none ∧ Counted (CRY.CNT_LO 0) s t ∧
          Pushed j.cring (completion 2 1 j.len j.buf cl v.detail j.tag.toNat) s t ∧ ∀ b < 0x10A00000, t.byte b = s.byte b))) ∧
      (∀ (a : Fin 16), Answers (.laneParityError cl a) s (fun t => t.laneFault cl = true ∧ t.raised 72 cl ∧
        find t.cry.whole cl = none ∧ Counted (CRY.CNT_LO 6) s t ∧
        Pushed j.cring (completion 2 0x0F j.len j.buf cl 0 j.tag.toNat) s t))) ∧
    (∀ (cl : Fin 24) (a : Fin 16) x, find s.cry.whole cl = none → find s.cry.ctxs (cl * 16 + a) = some x →
      Answers (.laneParityError cl a) s (fun t => t.laneFault cl = true ∧ t.raised 72 cl ∧ Counted (CRY.CNT_LO 6) s t ∧
        find t.cry.ctxs (cl * 16 + a) = some { x with dead := some 0x0F })) ∧
    Answers .cryEnable s (fun t => t.flag CRY.CRY_CTL_EN = true ∧ t.flag CRY.CRY_CTL_DRAINED = false ∧
      t = { s with regs := t.regs }) ∧
    (s.flag CRY.CRY_CTL_EN = false → exec .cryDisable s = .next s) ∧
    (s.flag CRY.CRY_CTL_EN = true → s.cry.macq = [] → s.cry.atomq = [] → s.cry.disq = [] →
      (∀ j, s.cry.jobq = [j] → j.owner = .program → j.cring < 64 → s.takes j.cring → Answers .cryDisable s (fun t =>
        t.flag CRY.CRY_CTL_EN = false ∧ t.cry.jobq = [] ∧ t.cry.whole = s.cry.whole ∧ t.cry.ctxs = s.cry.ctxs ∧
        Pushed j.cring (completion 2 0x0C j.len j.buf 0 0 j.tag.toNat) s t)) ∧
      (s.cry.jobq = [] → s.tm.held = [] → Answers .cryDisable s (fun t => t.flag CRY.CRY_CTL_EN = false ∧
        (s.cry.ctxs = [] → s.cry.whole = [] → s.flag CRY.CRY_CTL_DRAINED = false →
          t.flag CRY.CRY_CTL_DRAINED = true ∧ t.raised 73 0) ∧
        (s.cry.ctxs ≠ [] ∨ s.cry.whole ≠ [] → t.fld CRY.CRY_CTL_DRAINED = s.fld CRY.CRY_CTL_DRAINED))))

/-- Key operations (R352, R353, R358-R360, R366, R367, R370, R372-R375): each operation's new slot, the record it
wraps or signs, and the RESULT its end reports; ignored while another runs. -/
def Obligations.KeyOperations : Prop :=
  ∀ (s : State) (m : Fin 67) (k : Fin 4096), s.on 16 = true →
    let ran := fun (op res : Nat) (kcv : Option (List Nat)) (t : State) =>
      t.key.op = some ⟨op, k, res, kcv⟩ ∧ t.flag KEY.KEY_OP_BUSY = true ∧ t.fld KEY.KEY_OP_SLOT = k
    let all : List (Nat × Instr) := [(1, .keyGenerate k), (2, .keyImport m k), (3, .keyUnwrap k), (4, .keyDerive k), (5, .keyErase k),
      (6, .keyExport k), (7, .keyExportNode k), (8, .keyAttest k)]
    let rootless := s.lifeCycle = 1 ∨ s.lifeCycle = 6 ∨ (s.lifeCycle = 2 ∧ s.nv.rootSet = false)
    let old := s.kslot k
    let p := s.opParent
    let up := s.kslot p
    let fits := fun (mat : List Nat) => attrForbidden old s.opAttr = false ∧ old.epoch ≠ 0xFFFFFFFF ∧
      (s.flag KEY.OP_ATTR_VERIFY = true → kcvOf mat = s.opKcv)
    let made := fun (op level origin parent pepoch attr : Nat) (mat : List Nat) (t : State) => ran op 0 (some (kcvOf mat)) t ∧
      t.kslot k = { epoch := old.epoch + 1, level := level, origin := origin, big := decide (mat.length = 32), attr := attr
                    parent := parent, pepoch := pepoch, material := mat, live := 1 - old.live } ∧
      t.live k = 0 ∧ ∀ j, j ≠ k.val → t.kslot j = s.kslot j
    let wraps := up.level ≠ 0 ∧ up.transport = true ∧ s.orphaned p = false ∧ p < 4096
    let out := fun (w : List Nat) (t : State) => MemOnly s.opAddr w.length s t ∧
      ∀ i, i < w.length → t.byte (s.opAddr + i) = w.getD i 0 % 256
    let room := fun (n : Nat) => regionOf s.opAddr = .flacon ∧ sameRegion s.opAddr n = true
    (s.flag KEY.KEY_OP_BUSY = true → ∀ c ∈ all, exec c.2 s = .next s) ∧
    (s.flag KEY.KEY_OP_BUSY = false → rootless → ∀ c ∈ all, Answers c.2 s (fun t => ran c.1 10 none t ∧ t.mem = s.mem ∧
      t.key.slots = s.key.slots)) ∧
    (s.flag KEY.KEY_OP_BUSY = false → ¬rootless →
      (s.flag KEY.KEY_STATUS_RNG_OK = true → fits (s.freeBytes s.opSize) → Answers (.keyGenerate k) s
        (made 1 1 1 0xFFFF 0 (s.opAttr + 16) (s.freeBytes s.opSize))) ∧
      (s.flag KEY.KEY_STATUS_RNG_OK = false → Answers (.keyGenerate k) s (fun t => ran 1 6 none t ∧ t.key.slots = s.key.slots) ∧
        (old.level ≠ 0 → Answers (.keyAttest k) s (fun t => ran 8 6 none t ∧ t.mem = s.mem))) ∧
      (m.val ≠ 64 ∨ s.lifeCycle = 4 → Answers (.keyImport m k) s (fun t => ran 2 4 none t ∧ t.key.slots = s.key.slots)) ∧
      (m.val = 64 → s.lifeCycle ≠ 4 → fits s.keyData → Answers (.keyImport m k) s (made 2 1 2 0xFFFF 0 s.opAttr s.keyData)) ∧
      (m.val = 64 → s.lifeCycle ≠ 4 →
        (attrForbidden old s.opAttr = true → Answers (.keyImport m k) s (fun t => ran 2 2 none t ∧ t.key.slots = s.key.slots)) ∧
        (attrForbidden old s.opAttr = false → s.flag KEY.OP_ATTR_VERIFY = true → kcvOf s.keyData ≠ s.opKcv →
          Answers (.keyImport m k) s (fun t => ran 2 3 none t ∧ t.key.slots = s.key.slots)) ∧
        (attrForbidden old s.opAttr = false → s.flag KEY.OP_ATTR_VERIFY = false → old.epoch = 0xFFFFFFFF →
          Answers (.keyImport m k) s (fun t => ran 2 9 none t ∧ t.key.slots = s.key.slots))) ∧
      (wraps → room (s.opSize + 8) → let u := keyUnwrap up.material (s.bytes s.opAddr (s.opSize + 8))
        (u.2 = true → fits u.1 → Answers (.keyUnwrap k) s (made 3 1 3 0xFFFF 0 s.opAttr u.1)) ∧
        (u.2 = false → Answers (.keyUnwrap k) s (fun t => ran 3 5 none t ∧ t.key.slots = s.key.slots))) ∧
      (¬wraps → Answers (.keyUnwrap k) s (fun t => ran 3 1 none t ∧ t.key.slots = s.key.slots)) ∧
      (p = 0xFFFF → let d := kdf s.nv.root "ELT-SLOT" (s.opCtx 4) (8 * s.opSize)
        fits d → Answers (.keyDerive k) s (made 4 1 4 0xFFFF 0 (s.opAttr + 16) d)) ∧
      (p < 4096 → up.level = 1 → up.transport = false →
        let d := kdf up.material "ELT-SLOT" (s.opCtx 4) (8 * s.opSize)
        let attr := s.opAttr ||| b2n up.noexport
        attrForbidden old attr = false → old.epoch ≠ 0xFFFFFFFF → s.flag KEY.OP_ATTR_VERIFY = false →
          Answers (.keyDerive k) s (made 4 2 4 p up.epoch (attr + b2n up.internal * 16) d)) ∧
      (p < 4096 → (up.level = 0 ∨ up.level = 3 ∨ up.transport = true ∨ s.orphaned p = true) →
        Answers (.keyDerive k) s (fun t => ran 4 1 none t ∧ t.key.slots = s.key.slots)) ∧
      Answers (.keyErase k) s (fun t => ran 5 0 none t ∧ t.mem = s.mem ∧
        t.kslot k = { epoch := min (old.epoch + 1) 0xFFFFFFFF, live := old.live } ∧
        ∀ cl j, find s.cry.whole cl = some j → j.dead = none → boundTo k j.key = true →
          find t.cry.whole cl = some { j with dead := some 6 }) ∧
      (old.level ≠ 0 → s.orphaned k = false → wraps →
        (old.noexport = true ∨ old.transport = true → Answers (.keyExport k) s (fun t => ran 6 8 none t ∧ t.mem = s.mem)) ∧
        (old.noexport = false → old.transport = false → let w := keyWrap up.material old.material
          room w.length → Answers (.keyExport k) s (fun t => ran 6 0 none t ∧ out w t)) ∧
        (old.group = false ∨ old.nodexport = false → Answers (.keyExportNode k) s (fun t => ran 7 8 none t ∧ t.mem = s.mem)) ∧
        (old.group = true → old.nodexport = true →
          let key := kdf old.material "ELT-NODE" (s.opCtx 2) (8 * old.material.length)
          let w := keyWrap up.material key
          room w.length → Answers (.keyExportNode k) s (fun t => ran 7 0 (some (kcvOf key)) t ∧ out w t))) ∧
      (old.level = 0 → Answers (.keyAttest k) s (fun t => ran 8 1 none t ∧ t.mem = s.mem)) ∧
      (old.level ≠ 0 → s.flag KEY.KEY_STATUS_RNG_OK = true → let w := s.statement k
        let sig := ecdsaSign s.attestKey (ofBe (s.freeBytes 32) % (p256N - 1) + 1) (sha256 w)
        room (w ++ sig).length → Answers (.keyAttest k) s (fun t => ran 8 0 none t ∧ out (w ++ sig) t))) ∧
    (∀ o, s.key.op = some o → s.on 2 = true → o.op < 16 → o.slot < 4096 → o.result < 16 →
      Answers .keyOpEnd s (fun t => t.key.op = none ∧ t.key.data = [] ∧ t.flag KEY.KEY_OP_BUSY = false ∧
        t.fld KEY.KEY_OP_RESULT = o.result ∧
        (o.result = 0 → Counted (KEY.CNT_HI 2) s t ∧
          (o.op ≤ 5 → t.raised 74 (o.slot + o.op * 2 ^ 12 + (s.kslot o.slot).gen * 2 ^ 16))) ∧
        (o.result ≠ 0 → Counted (KEY.CNT_LO 2) s t ∧ t.raised 75 (o.result + o.op * 2 ^ 4 + o.slot * 2 ^ 8)) ∧
        (o.op = 5 → o.result = 0 → t.kslot o.slot = { s.kslot o.slot with live := 1 - (s.kslot o.slot).live })))

/-- The key store (R357, R358, R360-R364, R371, R376, R377): the load at start, a derivation's end and its place in
the cache, the root, the node map, and parity errors. -/
def Obligations.KeyStore : Prop :=
  ∀ (s : State), s.on 16 = true → s.on 2 = true →
    (s.flag KEY.KEY_STATUS_READY = true → exec .keyStoreLoad s = .next s) ∧
    (s.flag KEY.KEY_STATUS_READY = false → Answers .keyStoreLoad s (fun t => t.flag KEY.KEY_STATUS_READY = true ∧ t.mem = s.mem ∧
      ∀ k < 4096, t.kslot k = match s.slotCopy k 0, s.slotCopy k 1 with
        | some a, some b => s.slotFrom k (if b < a then 0 else 1)
        | some _, none => s.slotFrom k 0
        | none, some _ => s.slotFrom k 1
        | none, none => {})) ∧
    (∀ (e : Fin 4) d n cl r j, s.key.derivations[e.val]? = some d → find s.mac.cache d.nidx = some n →
      d.users = [(.whole cl, r)] → find s.cry.whole cl = some j →
      (n.state = 0 → Answers (.nodeKeyDerive e) s (fun t => t.key.derivations = s.key.derivations.eraseIdx e ∧
        t.key.cache = s.key.cache ∧ find t.cry.whole cl = some { j with key := some (8, none) })) ∧
      (∀ g x, n.state ≠ 0 → d.bound = (g, x) :: d.bound.drop 1 → Answers (.nodeKeyDerive e) s (fun t =>
        t.key.derivations = s.key.derivations.eraseIdx e ∧ Counted (KEY.CNT_HI 0) s t ∧
        find t.cry.whole cl = some { j with key := some (0, some ⟨d.derive n.eui, d.bound, x % 256, some n.eui⟩) } ∧
        (d.uncached = false → s.flag KEY.KEY_EXP_CACHE_DIS = false → s.nmap d.nidx = d.slot + 2 ^ 15 →
          (∀ b ∈ d.bound, (s.kslot b.1).epoch = b.2 ∧ (s.kslot b.1).level ≠ 0) →
          ⟨d.nidx, d.slot, (s.kslot d.slot).epoch, d.derive n.eui, s.key.parInject⟩ ∈ t.key.cache) ∧
        (d.uncached = true ∨ s.nmap d.nidx ≠ d.slot + 2 ^ 15 ∨ (∃ b ∈ d.bound, (s.kslot b.1).epoch ≠ b.2) →
          t.key.cache = s.key.cache)))) ∧
    (∀ good, (s.lifeCycle ≠ 2 ∨ s.nv.rootSet = true → exec (.rootGen good) s = .next s) ∧
      (s.lifeCycle = 2 → s.nv.rootSet = false →
        (s.flag KEY.KEY_STATUS_RNG_OK = true → good = true → Answers (.rootGen good) s (fun t => t.nv.rootSet = true ∧
          t.nv.root = s.freeBytes 32 ∧ t.regs = s.regs)) ∧
        (s.flag KEY.KEY_STATUS_RNG_OK = true → good = false → Answers (.rootGen good) s (fun t => t.nv.rootSet = false ∧
          t.fld KEY.KEY_OP_RESULT = 3 ∧ t.raised 75 3)) ∧
        (s.flag KEY.KEY_STATUS_RNG_OK = false → Answers (.rootGen good) s (fun t => t.nv = s.nv ∧
          t.fld KEY.KEY_OP_RESULT = 6 ∧ t.raised 75 6)))) ∧
    (∀ (m : Fin 67) (v : Word), let i := s.fld (KEY.NMAP_SEL_NIDX.of m)
      let g := bits v.toNat 11 0
      (bit v.toNat 15 = true → (s.kslot g).group = false → Answers (.nmapWrite m v) s (fun t =>
        t.flag KEY.KEY_STATUS_NMAPREJ = true ∧ t = { s with regs := t.regs })) ∧
      (bit v.toNat 15 = false ∨ (s.kslot g).group = true → Answers (.nmapWrite m v) s (fun t => t.regs = s.regs ∧
        t.nmap i = g + b2n (bit v.toNat 15) * 2 ^ 15 ∧ (∀ e ∈ t.key.cache, e.nidx ≠ i) ∧
        (∀ e ∈ s.key.cache, e.nidx ≠ i → e ∈ t.key.cache) ∧ (∀ d ∈ t.key.derivations, d.nidx = i → d.uncached = true) ∧
        MemOnly (nmapAddr i) 2 s t))) ∧
    Answers .rngFail s (fun t => t.flag KEY.KEY_STATUS_RNG_OK = false ∧ t.raised 77 0 ∧ t.key = s.key ∧ t.mem = s.mem) ∧
    (∀ (x : Fin 131072), let k := x.val % 4096
      (s.slotCopy k 0 = none → s.slotCopy k 1 = none → Answers (.keyParityError 0 x) s (fun t => t.kslot k = {} ∧
        t.raised 76 (k + 2 ^ 18) ∧ Counted (KEY.CNT_LO 3) s t)) ∧
      (∀ a, s.slotCopy k 0 = some a → s.slotCopy k 1 = none → Answers (.keyParityError 0 x) s (fun t =>
        t.kslot k = s.slotFrom k 0 ∧ t.raised 76 (k + 2 ^ 18))) ∧
      (∀ e ∈ s.key.cache, e.nidx = x → Answers (.keyParityError 1 x) s (fun t => t.raised 76 (x + 2 * 2 ^ 18) ∧
        (∀ e ∈ t.key.cache, e.nidx ≠ x) ∧ Counted (KEY.CNT_LO 3) s t)) ∧
      Answers (.keyParityError 2 x) s (fun t => t.nmap x = 0 ∧ t.raised 76 (x + 3 * 2 ^ 18) ∧ MemOnly (nmapAddr x) 2 s t)) ∧
    Answers .keyEnable s (fun t => t.flag KEY.KEY_CTL_EN = true ∧ t = { s with regs := t.regs }) ∧
    Answers .keyDisable s (fun t => t.flag KEY.KEY_CTL_EN = false ∧ t = { s with regs := t.regs })

/-- Accord's captures, sources, RATE, steps and slews (R383, R389-R393, R397): what each write makes of ATB, RATE,
FREQ and STATE, and where it is ignored. -/
def Obligations.AccordSteering : Prop :=
  ∀ (s : State), s.on 2 = true →
    let src := s.fld ACC.ACC_CTL_SRC
    let st := s.fld ACC.ACC_STATUS_STATE
    (∀ (m : Fin 67),
      Answers (.timeNsRead m) s (fun t => t = { s with regs := t.regs } ∧
        t.regN (banked m ACC.TIME_SEC_LO) + 2 ^ 32 * (t.regN (banked m ACC.TIME_SEC_HI) % 65536) = s.sec % 2 ^ 48 ∧
        t.regN (banked m ACC.TIME_SEC_HI) / 65536 = s.frac ∧
        t.regN (banked m ACC.TIME_T_LO) + 2 ^ 32 * t.regN (banked m ACC.TIME_T_HI) = s.ns % 2 ^ 64) ∧
      Answers (.ltbLoRead m) s (fun t => t = { s with regs := t.regs } ∧
        t.regN (banked m ACC.LTB_HI) = s.acc.ltb / 2 ^ 32 % 2 ^ 32)) ∧
    (∀ (n : Fin 8),
      (4 ≤ n.val ∨ n.val = src → exec (.sourceChange n) s = .next s) ∧
      (n.val < 4 → n.val ≠ src → Answers (.sourceChange n) s (fun t => t.fld ACC.ACC_CTL_SRC = n ∧ t.acc.rate = s.acc.rate ∧
        t.freq = s.freq ∧ t.regN ACC.FREQ_DEV = s.regN ACC.FREQ_DEV ∧ t.acc.atb = s.acc.atb ∧
        (s.held = true → t.fld ACC.ACC_STATUS_STATE = st) ∧
        (s.held = false → t.fld ACC.ACC_STATUS_STATE = if n.val = 1 ∨ n.val = 2 then 1 else 0) ∧
        (n.val = 3 → t.fldI ACC.LAST_OFFSET_NS = 0 ∧ t.acc.softSince = s.acc.ltb)))) ∧
    Answers (.holdWrite false) s (fun t => t.flag ACC.ACC_CTL_HOLD = true ∧ t.fld ACC.ACC_STATUS_STATE = 3 ∧
      t.acc.slewLeft = s.acc.slewLeft ∧ (st ≠ 3 → t.acc.rate = s.clampRate s.freq ∧ t.raised 79 (src * 2)) ∧
      (st = 3 → t.acc = s.acc)) ∧
    (s.flag ACC.EXPERT_UNLOCK_UNLOCKED = true → Answers (.holdWrite true) s (fun t => t.flag ACC.ACC_EXP_FORCE_HOLD = true ∧
      t.fld ACC.ACC_STATUS_STATE = 3)) ∧
    (s.flag ACC.EXPERT_UNLOCK_UNLOCKED = false → Answers (.holdWrite true) s (fun t =>
      t.flag ACC.EXPERT_UNLOCK_REJECTED = true ∧ t = { s with regs := t.regs } ∧ t.fld ACC.ACC_EXP_FORCE_HOLD = s.fld ACC.ACC_EXP_FORCE_HOLD)) ∧
    (∀ (hi : Word), let r := signed 40 (s.regN ACC.RATE_LO + 2 ^ 32 * (hi.toNat % 256))
      ((src = 0 ∧ st = 3) ∨ src = 1 ∨ src = 2 ∨ (src = 3 ∧ s.held = true) → exec (.rateWrite hi) s = .next s) ∧
      (src = 0 → st ≠ 3 → Answers (.rateWrite hi) s (fun t => t.acc.rate = s.clampRate r ∧ t.freq = s.freq)) ∧
      (src = 3 → s.held = false → Answers (.rateWrite hi) s (fun t => t.acc.rate = s.clampRate r ∧ t.freq = s.clampRate r ∧
        t.acc.softSince = s.acc.ltb ∧ (st = 3 → t.regN ACC.HOLD_ERR = 0) ∧
        (s.flag ACC.ACC_CTL_SOFT_LOCK = true → t.fld ACC.ACC_STATUS_STATE = 2 ∧ (st ≠ 2 → t.raised 80 3)) ∧
        (s.flag ACC.ACC_CTL_SOFT_LOCK = false → t.fld ACC.ACC_STATUS_STATE = if st = 3 then 0 else st)))) ∧
    (∀ abs, let v := s.pair ACC.STEP_LO ACC.STEP_HI
      let b : Int := if abs then v * 2 ^ 48 else s.acc.atb + signed 64 v * 2 ^ 32
      let move : Int := b - s.acc.atb
      Answers (.step abs) s (fun t => t.acc.atb = (b % atbRange).toNat ∧ t.acc.ltb = s.acc.ltb ∧ t.acc.slewLeft = 0 ∧
        t.flag ACC.ACC_STATUS_SLEWING = false ∧ t.flag ACC.ACC_STATUS_VALID = true ∧ Counted (ACC.CNT_HI 1) s t ∧
        t.raised 78 (min (move.natAbs / 2 ^ 48 / 1000) (2 ^ 31 - 1) + b2n (decide (move < 0)) * 2 ^ 31) ∧
        (move ≤ 0 → ∀ i, i ≠ 75 → t.comp i = s.comp i) ∧
        (0 < move → ∀ i, 96 ≤ i → (s.comp i).armed = true → (s.comp i).fired = false → (s.comp i).bad = false →
          t.reached (s.comp i).at_ = true → 0 < tdiff (s.comp i).at_ s.now →
          (t.comp i).armed = false ∧ (t.comp i).fired = true))) ∧
    (∀ (v : Word), Answers (.slewStart v) s (fun t => t.acc.slewLeft = signed 32 v.toNat * 2 ^ 48 ∧
      t.acc.slewRate = s.fld ACC.SLEW_CFG_RATE_PPB * 2 ^ 48 / 1000000000 ∧ t.flag ACC.ACC_STATUS_SLEWING = true ∧
      Counted (ACC.CNT_LO 1) s t ∧ t.acc.rate = s.acc.rate ∧ t.acc.atb = s.acc.atb)) ∧
    (s.flag ACC.ACC_STATUS_SLEWING = true → s.acc.slewLeft = 0 → Answers .slewComplete s (fun t =>
      t.flag ACC.ACC_STATUS_SLEWING = false ∧ t = { s with regs := t.regs })) ∧
    (s.acc.slewLeft ≠ 0 → exec .slewComplete s = .next s)

/-- The servo and holdover (R385, R394-R398): what a measurement does in each state, and when HOLDOVER is entered. -/
def Obligations.ServoAndHoldover : Prop :=
  ∀ (s : State), s.on 2 = true →
    let src := s.fld ACC.ACC_CTL_SRC
    let st := s.fld ACC.ACC_STATUS_STATE
    let limit := s.fld ACC.SERVO_THR_LOCK_THRESH * 65536
    let fit : Int → Int := clampI (-(2 ^ 39 - 1)) (2 ^ 39 - 1)
    (∀ k (theta ref : Int) rest, s.acc.queue = (k, theta, ref) :: rest → let tInt := ref - s.acc.lastMeas
      let g := Int.tdiv (theta * 2 ^ 32) tInt
      let f3 := s.freq - g / 2 ^ s.fld ACC.SERVO_CFG_KI_SHIFT
      let taken := fun (t : State) => t.acc.queue = rest ∧ t.acc.lastMeas = ref ∧ t.acc.rejects = 0 ∧ Counted (ACC.CNT_HI 0) s t ∧
        t.flag ACC.ACC_STATUS_VALID = true ∧
        t.fldI ACC.LAST_OFFSET_NS = clampI (-(2 ^ 31)) (2 ^ 31 - 1) (Int.tdiv theta 65536)
      let late := fun (t : State) => t.freq = fit f3 ∧ t.acc.rate = s.clampRate (f3 - g / 2 ^ s.fld ACC.SERVO_CFG_KP_SHIFT)
      (k ≠ src ∨ st = 0 → Answers .servoMeasurement s (fun t => t = { s with acc := t.acc } ∧ t.acc.queue = rest ∧
        t.acc.rate = s.acc.rate ∧ t.acc.atb = s.acc.atb)) ∧
      (k = src → st = 2 → s.fld ACC.SERVO_THR_OUTLIER * 1000 * 65536 < theta.natAbs → Answers .servoMeasurement s (fun t =>
        Counted (ACC.CNT_LO 0) s t ∧ t.acc.rate = s.acc.rate ∧ t.freq = s.freq ∧ t.acc.atb = s.acc.atb ∧
        t.fld ACC.ACC_STATUS_STATE = if s.fld ACC.SERVO_CFG_REJECT_MAX ≤ s.acc.rejects + 1 then 1 else 2)) ∧
      (k = src → st = 2 → theta.natAbs ≤ s.fld ACC.SERVO_THR_OUTLIER * 1000 * 65536 → tInt ≠ 0 →
        Answers .servoMeasurement s (fun t => taken t ∧ late t ∧ t.fld ACC.ACC_STATUS_STATE = 2)) ∧
      (k = src → st = 1 → s.acc.measN = 0 → s.flag ACC.ACC_CTL_NOSTEP = false → tInt ≠ 0 →
        Answers .servoMeasurement s (fun t => taken t ∧ t.acc.measN = 1 ∧ t.freq = s.freq ∧ t.acc.rate = s.acc.rate ∧
          t.acc.atb = if limit < theta.natAbs then ((s.acc.atb - theta * 2 ^ 32) % atbRange).toNat else s.acc.atb)) ∧
      (k = src → st = 1 → s.acc.measN = 1 → s.flag ACC.ACC_CTL_NOSTEP = true → tInt ≠ 0 →
        Answers .servoMeasurement s (fun t => taken t ∧ t.acc.measN = 2 ∧ t.freq = fit (s.freq - g) ∧
          t.acc.rate = s.clampRate (s.freq - g) ∧ t.acc.atb = s.acc.atb ∧
          t.acc.slewLeft = if limit < theta.natAbs then -theta * 2 ^ 32 else s.acc.slewLeft)) ∧
      (k = src → st = 1 → 2 ≤ s.acc.measN → tInt ≠ 0 → Answers .servoMeasurement s (fun t => taken t ∧ late t ∧
        t.acc.lockCount = (if theta.natAbs < limit then s.acc.lockCount + 1 else 0) ∧
        (s.fld ACC.SERVO_CFG_LOCK_COUNT ≤ t.acc.lockCount → t.fld ACC.ACC_STATUS_STATE = 2 ∧ t.raised 80 src) ∧
        (t.acc.lockCount < s.fld ACC.SERVO_CFG_LOCK_COUNT → t.fld ACC.ACC_STATUS_STATE = 1))) ∧
      (k = src → st = 3 → s.held = false → theta.natAbs ≤ limit → tInt ≠ 0 → Answers .servoMeasurement s (fun t =>
        taken t ∧ late t ∧ t.fld ACC.ACC_STATUS_STATE = 2 ∧ t.raised 80 src)) ∧
      (k = src → st = 3 → s.held = true → Answers .servoMeasurement s (fun t => t = { s with acc := t.acc } ∧
        t.acc.rate = s.acc.rate))) ∧
    (let soft := src = 3 ∧ s.fld ACC.ACC_CTL_SOFT_TIMEOUT ≠ 0 ∧
        s.acc.softSince + s.fld ACC.ACC_CTL_SOFT_TIMEOUT * 1000000000 ≤ s.acc.ltb;
      (soft → st ≠ 3 → Answers .softTimeout s (fun t => t.fld ACC.ACC_STATUS_STATE = 3 ∧ t.acc.rate = s.clampRate s.freq ∧
        t.raised 79 6)) ∧ (¬soft ∨ st = 3 → exec .softTimeout s = .next s)) ∧
    (st ≠ 3 → exec .holdErrUpdate s = .next s) ∧
    (st = 3 → let since := ((s.ns : Int) - s.acc.lastMeas).toNat
      let u := max (s.regN ACC.FREQ_DEV) (s.fld ACC.HOLD_CFG_U_MIN)
      let e := min (2 ^ 32 - 1) ((s.fldI ACC.LAST_OFFSET_NS).natAbs +
        (u * since * (2 * 10 ^ 12) + s.fld ACC.HOLD_CFG_WANDER * since * since) / (2 * 10 ^ 21))
      Answers .holdErrUpdate s (fun t => t.regN ACC.HOLD_ERR = e ∧
        (s.fld ACC.HOLD_LIMIT_US * 1000 < e → s.acc.holdLimitRaised = false → t.raised 79 (1 + src * 2)))) ∧
    (∀ (i : BitVec 16), Answers (.replicaCheck i true) s (fun t => t.raised 83 i.toNat ∧ t.acc = s.acc ∧ t.mem = s.mem) ∧
      exec (.replicaCheck i false) s = .next s)

/-- The trigger fabric and the PPS pins (R392, R405, R407, R409-R411): a comparator at its instant, a double error in
its word, the edges of PPS_IN and PPS_OUT. -/
def Obligations.TriggersAndPps : Prop :=
  ∀ (s : State), s.on 2 = true →
    (∀ (i : Fin 512), let c := s.comp i
      let due := c.armed = true ∧ c.fired = false ∧ s.reached c.at_ = true
      let kind := bits c.action.toNat 31 28
      let n := bits c.action.toNat 14 8
      (¬due → exec (.comparatorFire i) s = .next s) ∧
      (due → c.bad = false →
        (96 ≤ i.val → Answers (.comparatorFire i) s (fun t => t.comp i = { c with armed := false, fired := true } ∧
          (∀ j, j ≠ i.val → t.comp j = s.comp j) ∧
          (kind = 2 → s.fld (GPIO.PIN_FUNC n) = 2 → t.gpio.moves = s.gpio.moves ++ [(n, bits c.action.toNat 4 4, tplus c.at_ 200)]) ∧
          (∀ k, kind = 1 → s.boundSlots 3 (bits c.action.toNat 3 0) = [(n, k)] → s.on (coreDomain n) = true →
            (s.core n).run ≠ .held → (s.core n).pend.getLsbD k = false → k < 16 →
            (t.core n).pend.getLsbD k = true ∧ getD (t.core n).slotTime k 0#64 = c.at_))) ∧
        (i.val < 96 → i.val ≠ 75 → Answers (.comparatorFire i) s (fun t => t.comp i = { c with fired := true } ∧
          t = { s with acc := t.acc } ∧ ∀ j, j ≠ i.val → t.comp j = s.comp j)) ∧
        (i.val = 75 → s.ppsRuns = true → Answers (.comparatorFire i) s (fun t => t.acc.ppsOut = true ∧
          t.acc.ppsOutUntil = s.acc.ltb + s.fld ACC.PPS_CFG_OUT_WIDTH * 1000000 ∧ (t.comp 75).armed = true ∧
          (t.comp 75).at_ = s.ppsNext))) ∧
      (c.armed = true → 96 ≤ i.val → Answers (.comparatorEccError i) s (fun t => (t.comp i).armed = false ∧
        t.cores = s.cores ∧ t.gpio = s.gpio ∧ t.raised 83 (i + 2 ^ 16))) ∧
      (c.armed = false ∨ (72 ≤ i.val ∧ i.val < 96) → exec (.comparatorEccError i) s = .next s)) ∧
    (∀ (e : Nat), let st : Int := e - signed 32 (s.regN ACC.PPS_IN_ADJ)
      let near := (st + 32768000000000) / 65536000000000 * 65536000000000
      let ns := (st / 65536 % 1000000000).toNat
      (s.flag ACC.PPS_CFG_IN_EN = false → exec (.ppsInEdge e) s = .next s) ∧
      (s.flag ACC.PPS_CFG_IN_EN = true → Answers (.ppsInEdge e) s (fun t => t.fld ACC.PPS_IN_STAMP_NS = ns ∧
        t.flag ACC.PPS_IN_STAMP_LOSS = false ∧ t.raised 81 ns ∧ t.acc.ppsInLast = s.acc.ltb ∧
        t.acc.queue = if s.fld ACC.ACC_CTL_SRC = 2 then s.acc.queue ++ [(2, st - near, near / 65536)] else s.acc.queue))) ∧
    (let lost := s.flag ACC.PPS_CFG_IN_EN = true ∧ s.flag ACC.PPS_IN_STAMP_LOSS = false ∧ s.acc.ppsInLast + 1500000000 ≤ s.acc.ltb;
      (¬lost → exec .ppsInLoss s = .next s) ∧
      (lost → Answers .ppsInLoss s (fun t => t.flag ACC.PPS_IN_STAMP_LOSS = true ∧ t.raised 81 (s.fld ACC.PPS_IN_STAMP_NS + 2 ^ 31) ∧
        (s.fld ACC.ACC_CTL_SRC = 2 → t.fld ACC.ACC_STATUS_STATE = 3) ∧
        (s.fld ACC.ACC_CTL_SRC ≠ 2 → t.fld ACC.ACC_STATUS_STATE = s.fld ACC.ACC_STATUS_STATE)))) ∧
    (s.acc.ppsOut = true → s.acc.ppsOutUntil ≤ s.acc.ltb →
      Answers .ppsOutEnd s (fun t => t = { s with acc := { s.acc with ppsOut := false } })) ∧
    (s.acc.ppsOut = false ∨ s.acc.ltb < s.acc.ppsOutUntil → exec .ppsOutEnd s = .next s)

/-- The calendar, its alarms and its supply (R387, R388, R415-R417, R419-R433): captures, SETs and their load, second
boundaries, the alarms at their targets and across steps, the switch to VBAT, the lockout and the oscillator's flag.
-/
def Obligations.RealTimeClock : Prop :=
  ∀ (s : State), s.on 1 = true → s.on 2 = true → s.plt.aonHeld = false →
    let time := s.regN RTC.SET_TIME
    let date := s.regN RTC.SET_DATE
    let held := fun (k : Nat) => (s.flag (RTC.ALM_CTL_ARM k) = true ∧ getD s.rtc.target k 0 ≤ s.alarmNow k)
    let step := fun (k : Nat) => s.regN (RTC.ALM_PERIOD k) * s.alarmUnit k
    (∀ (m : Fin 67), (s.rtc.locked = true → exec (.nowSubsecRead m) s = .next s) ∧
      (s.rtc.locked = false → Answers (.nowSubsecRead m) s (fun t => t = { s with regs := t.regs } ∧
        t.regN (banked m RTC.CAP_TIME) = calTime s.rtc.cal % 2 ^ 32 ∧ t.regN (banked m RTC.CAP_DATE) = calDate s.rtc.cal % 2 ^ 32 ∧
        t.regN (banked m RTC.CAP_ELAPSED_LO) = s.rtc.elapsed % 2 ^ 32 ∧
        t.regN (banked m RTC.CAP_ELAPSED_HI) = s.rtc.elapsed / 2 ^ 32 % 2 ^ 32))) ∧
    (s.rtc.locked = true → exec .rtcSet s = .next s) ∧
    (s.rtc.locked = false →
      let good := bits time 20 16 < 24 ∧ bits time 13 8 < 60 ∧ bits time 5 0 < 60 ∧ bits date 23 16 < 200 ∧
        1 ≤ bits date 11 8 ∧ bits date 11 8 ≤ 12 ∧ 1 ≤ bits date 4 0;
      let fits := bits date 4 0 ≤ monthLength (bits date 23 16) (bits date 11 8);
      let refused := fun (e : Nat) => Answers .rtcSet s (fun t => t.fld RTC.RTC_STATUS_SET_ERR = e ∧ t = { s with regs := t.regs } ∧
        t.fld RTC.RTC_STATUS_SET_PEND = s.fld RTC.RTC_STATUS_SET_PEND);
      (¬good → refused 1) ∧ (good → ¬fits → refused 2) ∧
      (good → fits → s.flag RTC.RTC_STATUS_SET_PEND = true → refused 3) ∧
      (good → fits → s.flag RTC.RTC_STATUS_SET_PEND = false → Answers .rtcSet s (fun t =>
        t.flag RTC.RTC_STATUS_SET_PEND = true ∧ t.rtc = { s.rtc with staged := calOf time date }))) ∧
    (s.flag RTC.RTC_STATUS_SET_PEND = false → exec .rtcSetLoad s = .next s) ∧
    (s.flag RTC.RTC_STATUS_SET_PEND = true → Answers .rtcSetLoad s (fun t => t.rtc.cal = s.rtc.staged ∧ t.rtc.sub = 0 ∧
      t.rtc.elapsed = s.rtc.elapsed ∧ t.rtc.cycle = s.rtc.cycle ∧ t.flag RTC.RTC_STATUS_SET_PEND = false ∧
      t.flag RTC.RTC_STATUS_OSF = false ∧ t.flag RTC.RTC_STATUS_WRAP = false ∧ Counted RTC.CNT_SETS s t ∧
      ∀ k < 4, let target := getD s.rtc.target k 0
        let per := s.regN (RTC.ALM_PERIOD k)
        let hit := s.flag (RTC.ALM_CTL_ARM k) = true ∧ getD s.rtc.byElapsed k false = false ∧ target ≤ s.rtc.staged ∧
          s.rtc.cal * 32768 + s.rtc.sub < s.rtc.staged * 32768
        (hit → t.flag (RTC.ALM_CTL_FIRED k) = true ∧ t.flag (RTC.ALM_CTL_SKIPPED k) = true ∧
          (per = 0 → t.flag (RTC.ALM_CTL_ARM k) = false) ∧
          (per ≠ 0 → let q := (s.rtc.staged - target) / per
            getD t.rtc.target k 0 = target + (q + 1) * per ∧
            t.fld (RTC.ALM_CTL_MISSED k) = min 255 (s.fld (RTC.ALM_CTL_MISSED k) + q + s.fld (RTC.ALM_CTL_FIRED k)))) ∧
        (¬hit → t.reg (RTC.ALM_CTL k) = s.reg (RTC.ALM_CTL k) ∧ getD t.rtc.target k 0 = target))) ∧
    (s.rtc.cycle < 2 ^ 20 → exec .trimWindow s = .next s) ∧
    (2 ^ 20 ≤ s.rtc.cycle → exec .trimWindow s = .next { s with rtc := { s.rtc with
      cycle := s.rtc.cycle - 2 ^ 20, trim := s.rtc.trimCopy } }) ∧
    (s.rtc.sub < 32768 → exec .calendarSecond s = .next s) ∧
    (32768 ≤ s.rtc.sub → Answers .calendarSecond s (fun t => t.rtc.sub = s.rtc.sub - 32768 ∧
      t.regN RTC.RTC_ATB_LO + 2 ^ 32 * t.regN RTC.RTC_ATB_HI = s.now.toNat ∧
      (s.rtc.cal + 1 ≠ calEnd → t.rtc.cal = (s.rtc.cal + 1) % calEnd ∧ t.fld RTC.RTC_STATUS_OSF = s.fld RTC.RTC_STATUS_OSF) ∧
      (s.rtc.cal + 1 = calEnd → t.rtc.cal = 0 ∧ t.flag RTC.RTC_STATUS_OSF = true ∧ t.flag RTC.RTC_STATUS_WRAP = true ∧
        t.raised 13 2))) ∧
    (∀ (k : Fin 4), let tm := s.regN (RTC.ALM_TIME k)
      let dt := s.regN (RTC.ALM_DATE k)
      let el := s.flag (RTC.ALM_EXP_ELAPSED k)
      let target := if el then tm + dt % 65536 * 2 ^ 32 else calOf tm dt
      let now := if el then s.rtc.elapsed else s.rtc.cal
      s.rtc.locked = false →
      (el = false → calError tm dt ≠ 0 → Answers (.alarmArm k) s (fun t => t.flag (RTC.ALM_CTL_ARM k) = false ∧
        t.flag (RTC.ALM_CTL_ERR k) = true ∧ t.rtc = s.rtc)) ∧
      (el = true ∨ calError tm dt = 0 → now < target → Answers (.alarmArm k) s (fun t => t.flag (RTC.ALM_CTL_ARM k) = true ∧
        getD t.rtc.target k 0 = target ∧ getD t.rtc.byElapsed k false = el ∧
        t.fld (RTC.ALM_CTL_FIRED k) = s.fld (RTC.ALM_CTL_FIRED k))) ∧
      (el = true ∨ calError tm dt = 0 → target ≤ now → Answers (.alarmArm k) s (fun t =>
        t.flag (RTC.ALM_CTL_FIRED k) = true ∧ t.flag (RTC.ALM_CTL_SKIPPED k) = true ∧ t.raised 12 (2 ^ k.val + 2 ^ k.val * 16) ∧
        Counted RTC.CNT_SKIPS s t ∧ (s.regN (RTC.ALM_PERIOD k) = 0 → t.flag (RTC.ALM_CTL_ARM k) = false) ∧
        (s.regN (RTC.ALM_PERIOD k) ≠ 0 → t.flag (RTC.ALM_CTL_ARM k) = true ∧ now < getD t.rtc.target k 0))) ∧
      Answers (.alarmDisarm k) s (fun t => t.flag (RTC.ALM_CTL_ARM k) = false ∧ t = { s with regs := t.regs } ∧
        t.fld (RTC.ALM_CTL_FIRED k) = s.fld (RTC.ALM_CTL_FIRED k)) ∧
      Answers (.alarmClear k) s (fun t => t.flag (RTC.ALM_CTL_FIRED k) = false ∧ t.flag (RTC.ALM_CTL_SKIPPED k) = false ∧
        t.fld (RTC.ALM_CTL_MISSED k) = 0 ∧ t.fld (RTC.ALM_CTL_ARM k) = s.fld (RTC.ALM_CTL_ARM k))) ∧
    ((∀ k < 4, ¬held k) → exec .alarmFire s = .next s) ∧
    ((∃ k < 4, held k) → Answers .alarmFire s (fun t =>
      t.raised 12 (((allBelow 4 s.alarmDue).map (fun k => 2 ^ k)).sum) ∧ ∀ k < 4,
        (held k → t.flag (RTC.ALM_CTL_FIRED k) = true ∧ t.fld (RTC.ALM_CTL_SKIPPED k) = s.fld (RTC.ALM_CTL_SKIPPED k) ∧
          (step k = 0 → t.flag (RTC.ALM_CTL_ARM k) = false) ∧
          (step k ≠ 0 → t.flag (RTC.ALM_CTL_ARM k) = true ∧ getD t.rtc.target k 0 =
            getD s.rtc.target k 0 + ((s.alarmNow k - getD s.rtc.target k 0) / step k + 1) * step k)) ∧
        (¬held k → t.reg (RTC.ALM_CTL k) = s.reg (RTC.ALM_CTL k) ∧ getD t.rtc.target k 0 = getD s.rtc.target k 0))) ∧
    Answers (.supplySwitchVbat true) s (fun t => t.flag RTC.RTC_STATUS_OSC_RUN = false ∧ t.flag RTC.RTC_STATUS_OSF = true ∧
      t.fld RTC.RTC_STATUS_ON_VBAT = s.fld RTC.RTC_STATUS_ON_VBAT) ∧
    (s.flag RTC.RTC_STATUS_ON_VBAT = false → Answers (.supplySwitchVbat false) s (fun t =>
      t.flag RTC.RTC_STATUS_ON_VBAT = true ∧ t.rtc = { s.rtc with vbatSince := s.rtc.elapsed } ∧
      t.fld RTC.RTC_STATUS_OSF = s.fld RTC.RTC_STATUS_OSF)) ∧
    (s.flag RTC.RTC_STATUS_ON_VBAT = true → Answers .supplySwitchMain s (fun t => t.flag RTC.RTC_STATUS_ON_VBAT = false ∧
      t.flag RTC.RTC_STATUS_WAS_ON_VBAT = true ∧
      t.rtc.backup = some ((s.rtc.elapsed + 2 ^ 48 - s.rtc.vbatSince) % 2 ^ 48 / 32768))) ∧
    exec .rtcLockout s = .next { s with rtc := { s.rtc with locked := true } } ∧
    (s.rtc.locked = true → Answers .rtcLockoutRelease s (fun t => t.rtc.locked = false ∧ t.plt.atbWaits = false ∧
      (s.plt.atbWaits = true → s.flag RTC.RTC_STATUS_OSF = true → t.acc.atb = 0 ∧ t.flag ACC.ACC_STATUS_VALID = false) ∧
      (s.plt.atbWaits = true → s.flag RTC.RTC_STATUS_OSF = false → t.flag ACC.ACC_STATUS_VALID = true ∧
        t.acc.atb = ((946684800 + s.rtc.cal + s.fld ACC.CLOCK_UTC_OFFSET) * 1000000000 + s.subsec * 1000000000 / 32768) * 2 ^ 48) ∧
      (s.flag RTC.RTC_STATUS_OSF = true → t.raised 13 (1 + 2 * s.fld RTC.RTC_STATUS_WRAP)) ∧
      ∀ n, s.rtc.backup = some n → t.rtc.backup = none ∧
        t.raised 15 (min n (2 ^ 24 - 1) + s.fld RTC.RTC_STATUS_OSF * 2 ^ 31))) ∧
    Answers .oscStop s (fun t => t.flag RTC.RTC_STATUS_OSC_RUN = false ∧ t.flag RTC.RTC_STATUS_OSF = true ∧ t.raised 13 0 ∧
      t.rtc = s.rtc) ∧
    Answers .rtcOscStart s (fun t => t.flag RTC.RTC_STATUS_OSC_RUN = true ∧ t = { s with regs := t.regs } ∧
      t.fld RTC.RTC_STATUS_OSF = s.fld RTC.RTC_STATUS_OSF) ∧
    Answers .bkpPowerUp s (fun t => t.rtc = { locked := s.rtc.locked } ∧ t.flag RTC.RTC_STATUS_OSF = true ∧
      (∀ i < 8, t.regN (RTC.BKP_SCRATCH i) = 0) ∧ ∀ k < 4, t.flag (RTC.ALM_CTL_ARM k) = false) ∧
    (∀ (mv : Int), let old := s.regN RTC.VBAT_STAT % 8
      Answers (.vbatSample mv) s (fun t => t.fld RTC.VBAT_STAT_MV = min 255 (mv.toNat / 20) ∧
        (t.flag RTC.VBAT_STAT_LOW = true ↔ mv < 2200 ∨ bit old 0 = true) ∧
        (t.flag RTC.VBAT_STAT_ABSENT = true ↔ (-200 ≤ mv ∧ mv ≤ 500) ∨ bit old 1 = true) ∧
        (t.flag RTC.VBAT_STAT_REVERSED = true ↔ mv < -200 ∨ bit old 2 = true) ∧
        (t.regN RTC.VBAT_STAT % 8 ≠ old → t.raised 14 (t.regN RTC.VBAT_STAT % 8)))) ∧
    (s.flag ACC.ACC_STATUS_VALID = false → exec .rtcWrite s = .next s) ∧
    (s.flag ACC.ACC_STATUS_VALID = true → Answers .rtcWrite s (fun t => t.flag ACC.ACC_STATUS_RTC_PEND = true ∧
      t.acc.rtcAtSec = s.sec + 1 ∧ t.rtc = s.rtc)) ∧
    (s.flag ACC.ACC_STATUS_RTC_PEND = false ∨ s.sec < s.acc.rtcAtSec → exec .rtcWriteExecute s = .next s) ∧
    (s.flag ACC.ACC_STATUS_RTC_PEND = true → s.acc.rtcAtSec ≤ s.sec → s.rtc.locked = false →
      s.flag RTC.RTC_STATUS_SET_PEND = false → let c := s.sec - s.fld ACC.CLOCK_UTC_OFFSET
      946684800 ≤ c → c < 946684800 + calEnd → calError (calTime (c - 946684800)) (calDate (c - 946684800)) = 0 →
      Answers .rtcWriteExecute s (fun t => t.flag ACC.ACC_STATUS_RTC_PEND = false ∧
        t.flag RTC.RTC_STATUS_SET_PEND = true ∧
        t.rtc.staged = calOf (calTime (c - 946684800)) (calDate (c - 946684800))))

/-- Votes, Drydown, wakes and stopped domains (R440, R443-R449, R451, R453): a master's vote bit and the wake it
causes, GO and its refusals, a domain's turn, the wake of WAKE_DOMS, a domain reading ON, AUTO_WAKE's stall and its
limit, retention's end. -/
def Obligations.PowerDomains : Prop :=
  ∀ (s : State), s.on 2 = true →
    let mode := s.fld PLT.DD_CTL_STATE
    let quiet := s.plt.waking = [] ∧ s.plt.powering = []
    -- domain `d` powers up now: TRANSIT, ON after its time
    let starts := fun (d : Nat) (t : State) => t.domain d = 3 ∧
      find t.plt.powering d = some (s.acc.ltb + if s.domain d = 1 then 1000 else powerNs d)
    let stopped := fun (d : Nat) => 3 ≤ d ∧ d ≤ 20 ∧ s.domain d < 2 ∧ (dependsOn d).all s.on = true
    let refused := fun (cause : Nat) (t : State) => t = { s with regs := t.regs } ∧ t.flag PLT.DD_STATUS_ABORT = true ∧
      t.fld PLT.DD_STATUS_CAUSE = cause
    let stops := drydownOrder.filter (fun d => !s.passesOver (s.fld PLT.DD_KEEP_KEEP) d)
    let rolledBack := fun (d cause : Nat) (t : State) => t.flag PLT.DD_STATUS_ABORT = true ∧ t.fld PLT.DD_STATUS_DOM = d ∧
      t.fld PLT.DD_STATUS_CAUSE = cause ∧ t.raised 10 (d + cause * 2 ^ 5) ∧ t.fld PLT.DD_CTL_STATE = 0
    (∀ (m : Fin 67) (d : Fin 21) (v : BitVec 6),
      (d.val < 2 → exec (.voteWrite m d v) s = .next s) ∧
      (2 ≤ d.val → let old := s.regN (PLT.PD_VOTE d)
        let mask := if m.val < 64 then 4 else if m.val = 64 then 0x21 else if m.val = 65 then 2 else 0
        let new := (old &&& (0x3F - mask)) ||| (v.toNat &&& mask)
        Answers (.voteWrite m d v) s (fun t => t.regN (PLT.PD_VOTE d) = new ∧ t.mem = s.mem ∧ t.cores = s.cores ∧
          (new &&& (0x3F - old) = 0 → t = { s with regs := t.regs } ∧ t.domain d = s.domain d) ∧
          (new &&& (0x3F - old) ≠ 0 → mode = 0 → quiet → stopped d → starts d t) ∧
          (new &&& (0x3F - old) ≠ 0 → mode = 1 → s.plt.reasserted = none → s.plt.ddStopped.any (fun x => x.1 = d.val) = true →
            t.plt.reasserted = some d.val)))) ∧
    (mode = 1 ∨ mode = 2 ∨ s.plt.waking ≠ [] → Answers .drydownGo s (refused 5)) ∧
    (mode ≠ 1 → mode ≠ 2 → s.plt.waking = [] →
      ((∃ d ∈ stops, (s.regN (PLT.PD_VOTE d) &&& 0x27) ≠ 0) → Answers .drydownGo s (refused 3)) ∧
      ((∀ d ∈ stops, (s.regN (PLT.PD_VOTE d) &&& 0x27) = 0) →
        ((∃ e ∈ drydownOrder, bit (s.fld PLT.DD_KEEP_KEEP) e = true ∧ ∃ d ∈ stops, d ∈ dependsOn e) →
          Answers .drydownGo s (refused 4)) ∧
        ((∀ e ∈ drydownOrder, bit (s.fld PLT.DD_KEEP_KEEP) e = true → ∀ d ∈ stops, d ∉ dependsOn e) →
          Answers .drydownGo s (fun t => t.fld PLT.DD_CTL_STATE = 1 ∧ t.plt.ddKeep = s.fld PLT.DD_KEEP_KEEP ∧
            t.plt.ddRetain = s.fld PLT.DD_RETAIN_RETAIN ∧ t.plt.ddStopped = [] ∧ t.plt.ddPos = 0 ∧ t.mem = s.mem ∧
            ∀ d < 21, t.domain d = s.domain d)))) ∧
    (mode ≠ 1 → exec .drydownTurn s = .next s ∧ exec .drydownBusyTimeout s = .next s) ∧
    (∀ pos d, mode = 1 → s.plt.ddSince ≤ s.acc.ltb → s.drydownTurn = some (pos, d) →
      (s.plt.reasserted = none → (s.votes d &&& 0x2F) ≠ 0 → s.plt.ddStopped = [] → Answers .drydownTurn s (rolledBack d 1)) ∧
      (∀ e, s.plt.reasserted = some e → e < 21 → s.plt.ddStopped = [] → Answers .drydownTurn s (rolledBack e 1)) ∧
      (∀ e off rest, s.plt.reasserted = none → (s.votes d &&& 0x2F) ≠ 0 → s.plt.ddStopped = (e, off) :: rest → e < 21 →
        Answers .drydownTurn s (fun t => t.fld PLT.DD_CTL_STATE = 2 ∧ t.domain e = 3 ∧ t.plt.rollback = rest ∧
          find t.plt.powering e = some (s.acc.ltb + if off then powerNs e else 1000))) ∧
      (s.plt.reasserted = none → (s.votes d &&& 0x2F) = 0 → s.busy d = true → exec .drydownTurn s = .next s) ∧
      (s.plt.reasserted = none → (s.votes d &&& 0x2F) = 0 → s.busy d = true → s.plt.ddStopped = [] →
        s.plt.ddSince + 200000 ≤ s.acc.ltb → Answers .drydownBusyTimeout s (rolledBack d 2)) ∧
      (s.plt.reasserted = none → (s.votes d &&& 0x2F) = 0 → s.busy d = false → let off := !bit s.plt.ddRetain d
        Answers .drydownTurn s (fun t => t.domain d = (if off then 0 else 1) ∧ t.fld PLT.DD_STATUS_LAST = d ∧
          t.plt.ddPos = pos + 1 ∧ (t.fld PLT.DD_CTL_STATE = 1 → t.plt.ddStopped = (d, off) :: s.plt.ddStopped) ∧
          (off = false → t.mem = s.mem) ∧
          (off = true → ∀ k, regDomain (k % 2 ^ 40) = d → t.reg k = regReset k)))) ∧
    (mode = 1 → s.plt.ddSince ≤ s.acc.ltb → s.drydownTurn = none → Answers .drydownTurn s (fun t =>
      t.fld PLT.DD_CTL_STATE = 3 ∧ t.plt.entryWindow = true ∧
      t.fld PLT.WAKE_DOMS_DOMS = ((s.plt.ddStopped.map (fun x => 2 ^ x.1)).sum) % 2 ^ 21)) ∧
    (mode = 1 → s.acc.ltb < s.plt.ddSince + 200000 → exec .drydownBusyTimeout s = .next s) ∧
    (s.plt.entryWindow = false → exec .entryWindowEnd s = .next s) ∧
    (s.plt.entryWindow = true → s.wakeSources = 0 →
      exec .entryWindowEnd s = .next { s with plt := { s.plt with entryWindow := false } }) ∧
    (∀ d, mode = 3 → quiet → stopped d → allBelow 21 (bit (s.fld PLT.WAKE_DOMS_DOMS)) = [d] → s.votedDoms = [] →
      (s.plt.entryWindow = true → s.wakeSources ≠ 0 → Answers .entryWindowEnd s (fun t => t.plt.entryWindow = false ∧ starts d t ∧
        t.plt.wakeSrc = s.plt.wakeSrc ||| s.wakeSources)) ∧
      (∀ (k : Fin 7) a, k.val ≠ 0 → s.plt.entryWindow = false → s.wakeSources ≠ 0 → Answers (.wakeSource k a) s (fun t =>
        starts d t ∧ t.plt.wakeSrc = s.plt.wakeSrc ||| s.wakeSources)) ∧
      (s.plt.entryWindow = false → bit (s.fld PLT.WAKE_EN_EN) 0 = true → Answers (.wakeSource 0 true) s (fun t => starts d t ∧
        bit t.plt.wakeSrc 0 = true))) ∧
    (mode ≠ 3 → ∀ (k : Fin 7) a, Answers (.wakeSource k a) s (fun t => t.regs = s.regs ∧
      (k.val = 0 → bit t.plt.levels 0 = a) ∧ (k.val ≠ 0 → t = s))) ∧
    (∀ (d : Fin 21), 2 ≤ d.val →
      (find s.plt.powering d = none → exec (.domainPowerUp d) s = .next s) ∧
      (∀ at_, find s.plt.powering d = some at_ →
        (s.acc.ltb < at_ → exec (.domainPowerUp d) s = .next s) ∧
        (at_ ≤ s.acc.ltb → mode ≠ 2 → s.plt.stalled = [] → Answers (.domainPowerUp d) s (fun t => t.domain d = 2 ∧
          find t.plt.powering d = none ∧ (s.plt.waking = [d.val] → s.plt.wakeSrc ≠ 0 → t.fld PLT.DD_CTL_STATE = 0 ∧
            t.regN PLT.WAKE_SRC = (s.plt.wakeSrc + s.plt.wakeEvent * 2 ^ 8) % 2 ^ 32 ∧
            t.raised 9 ((s.plt.wakeSrc + s.plt.wakeEvent * 2 ^ 8) % 2 ^ 32)))))) ∧
    (∀ (m : Fin 67) (a : BitVec 36) (size : Fin 4) write (v : BitVec 64), let d := busDomain a.toNat
      (s.masterActs m = false ∨ s.autoWake d = false ∨ s.answers d = true → exec (.autoWakeAccess m a size write v) s = .next s) ∧
      (s.masterActs m = true → s.autoWake d = true → s.answers d = false → s.busRefused m a.toNat (2 ^ size.val) write = false →
        s.busUnfit a.toNat (2 ^ size.val) write = false → Answers (.autoWakeAccess m a size write v) s (fun t =>
          t.plt.stalled = s.plt.stalled ++
            [⟨0, m, d, a.toNat, 2 ^ size.val, write, if write then v.toNat % 2 ^ (8 * 2 ^ size.val) else 0, s.acc.ltb⟩] ∧
          t.mem = s.mem ∧ (d ∉ s.plt.waking → t.flag (voteBit d 5) = true) ∧
          (d ∉ s.plt.waking → mode = 0 → quiet → stopped d → starts d t)))) ∧
    (∀ (m : Fin 67),
      ((∀ e ∈ s.plt.stalled, e.master = m.val → s.acc.ltb < e.since + 40000) → exec (.autoWakeTimeout m) s = .next s) ∧
      (∀ e rest, s.plt.stalled = e :: rest → e.master = m.val → e.kind = 0 → e.since + 40000 ≤ s.acc.ltb → e.domain < 21 →
        Answers (.autoWakeTimeout m) s (fun t => t.plt.stalled = rest ∧
          t.raised 8 (e.domain + b2n e.write * 2 ^ 5 + 2 ^ 6 + m * 2 ^ 7) ∧
          (s.flag PLT.OFF_LOG_VALID = false → t.flag PLT.OFF_LOG_VALID = true ∧ t.flag PLT.OFF_LOG_AUTO = true ∧
            t.fld PLT.OFF_LOG_DOMAIN = e.domain)))) ∧
    Answers .padReleaseAnt s (fun t => t.flag PLT.PAD_RET_HOLD_ANT = false ∧ t = { s with regs := t.regs } ∧
      t.fld PLT.PAD_RET_HOLD_H = s.fld PLT.PAD_RET_HOLD_H) ∧
    Answers .padReleaseH s (fun t => t.flag PLT.PAD_RET_HOLD_H = false ∧ t = { s with regs := t.regs } ∧
      t.fld PLT.PAD_RET_HOLD_ANT = s.fld PLT.PAD_RET_HOLD_ANT)

/-- Resets and supplies (R387, R405, R453-R457): what each scope returns to its reset value and what it spares, its
bit in RST_CAUSE, the domains that power up, the watchdog, and the rails. -/
def Obligations.ResetsAndSupplies : Prop :=
  ∀ (s : State), s.on 0 = true →
    let cause := fun (b : Nat) (t : State) => t.regN PLT.RST_CAUSE = putBit (s.regN PLT.RST_CAUSE) b true
    -- every domain but PD_AON and PD_BKP has gone through OFF, and PD_CORE powers up
    let down := fun (t : State) => (∀ d, 3 ≤ d → d ≤ 20 → t.domain d = 0) ∧ t.domain 2 = 3 ∧ t.plt.waking = [2, 3, 17] ∧
      find t.plt.powering 2 = some (s.acc.ltb + 20000) ∧ t.nv.bootDue = true ∧ (∀ n, s.domain (coreDomain n) ≠ 0 → n < 65 → t.core n = {}) ∧
      (s.domain 2 ≠ 0 → ∀ a, 0x10000000 ≤ a → a < 0x10400000 → t.byte a = memDefault a) ∧
      (s.domain 2 ≠ 0 → ∀ k, regDomain (k % 2 ^ 40) = 2 → t.reg k = regReset k)
    let backup := fun (t : State) => t.rtc = s.rtc ∧ ∀ k, regDomain (k % 2 ^ 40) = 1 → t.reg k = s.reg k
    let clock := fun (t : State) => t.acc.atb = s.acc.atb ∧ t.acc.ltb = s.acc.ltb ∧ t.acc.rate = s.acc.rate ∧ t.comp 75 = s.comp 75
    let chip := fun (b : Nat) (t : State) => cause b t ∧ down t ∧ backup t ∧ clock t ∧
      (∀ i, i ≠ 75 → (t.comp i).armed = false) ∧ t.flag PLT.PAD_RET_HOLD_H = true ∧ t.flag PLT.PAD_RET_HOLD_ANT = true ∧
      t.evt.log = [] ∧ ∀ k, regDomain (k % 2 ^ 40) = 0 → chipSpares (k % 2 ^ 40) = false → t.reg k = regReset k
    Answers .powerOnReset s (fun t => t.plt.aonHeld = true ∧ t.plt.atbWaits = true ∧ t.acc = {} ∧ t.regN PLT.RST_CAUSE = 1 ∧
      backup t ∧ (∀ d, 2 ≤ d → d ≤ 20 → t.domain d = 0) ∧
      ∀ k, regDomain (k % 2 ^ 40) = 0 → k ∉ [PLT.RST_CAUSE, PLT.PD_STATE_LO, PLT.PD_STATE_HI] → t.reg k = regReset k) ∧
    (s.plt.aonHeld = false → exec .aonResetRelease s = .next s) ∧
    (s.plt.aonHeld = true → s.plt.waking = [] → s.plt.powering = [] → (∀ d, 2 ≤ d → d ≤ 20 → s.domain d = 0) →
      Answers .aonResetRelease s (fun t => t.plt.aonHeld = false ∧ t.domain 2 = 3 ∧ t.plt.waking = [2, 3, 17] ∧
        find t.plt.powering 2 = some (s.acc.ltb + 20000) ∧ t.plt.wdogStart = s.ltbMs ∧
        (s.rtc.locked = false → s.flag RTC.RTC_STATUS_OSF = false → t.flag ACC.ACC_STATUS_VALID = true ∧
          t.acc.atb = ((946684800 + s.rtc.cal + s.fld ACC.CLOCK_UTC_OFFSET) * 1000000000 + s.subsec * 1000000000 / 32768) * 2 ^ 48) ∧
        (s.rtc.locked = false → s.flag RTC.RTC_STATUS_OSF = true → t.flag ACC.ACC_STATUS_VALID = false ∧ t.acc.atb = 0))) ∧
    (∀ ns, (ns < 100 → exec (.resetPin ns) s = .next s) ∧ (1000 ≤ ns → Answers (.resetPin ns) s (chip 2))) ∧
    Answers .resetChip s (chip 4) ∧
    (s.ist.running = [] → Answers .resetCore s (fun t => cause 7 t ∧ down t ∧ backup t ∧ clock t ∧ t.comp 74 = s.comp 74 ∧
      t.flag PLT.PAD_RET_HOLD_ANT = true ∧ t.flag PLT.PAD_RET_HOLD_H = s.flag PLT.PAD_RET_HOLD_H ∧
      ∀ k, regDomain (k % 2 ^ 40) = 0 → k ∉ [PLT.RST_CAUSE, PLT.PD_STATE_LO, PLT.PD_STATE_HI, PLT.DD_CTL, PLT.IMG_CTL, PLT.PAD_RET] →
        t.reg k = s.reg k)) ∧
    (∀ (d : BitVec 5),
      (d.toNat < 3 ∨ 20 < d.toNat → Answers (.resetDom d) s (fun t => t = { s with regs := t.regs } ∧
        t.fld PLT.RST_CTL_DOMAIN = d.toNat ∧ ∀ k, k ≠ PLT.RST_CTL → t.reg k = s.reg k)) ∧
      (3 ≤ d.toNat → d.toNat ≤ 20 → s.domain d.toNat ≠ 0 → (dependsOn d.toNat).all s.on = true → s.plt.waking = [] →
        s.plt.powering = [] → Answers (.resetDom d) s (fun t => cause 8 t ∧ t.domain d.toNat = 3 ∧ t.plt.waking = [d.toNat] ∧
          find t.plt.powering d.toNat = some (s.acc.ltb + if (dependents d.toNat).any s.on then 2000 else powerNs d.toNat) ∧
          (∀ e, 2 ≤ e → e ≤ 20 → e ≠ d.toNat → t.domain e = s.domain e) ∧
          ∀ k, regDomain (k % 2 ^ 40) = d.toNat → t.reg k = regReset k))) ∧
    (∀ (v : Word), (v ≠ 0x4B1C#32 → exec (.wdogKick v) s = .next s) ∧
      (v = 0x4B1C#32 → exec (.wdogKick v) s = .next { s with plt := { s.plt with wdogStart := s.ltbMs } })) ∧
    (s.flag PLT.WDOG_CTL_EN = false ∨ s.ltbMs < s.plt.wdogStart + s.fld PLT.WDOG_CTL_TIMEOUT →
      exec .watchdogExpire s = .next s) ∧
    (s.flag PLT.WDOG_CTL_EN = true → s.plt.wdogStart + s.fld PLT.WDOG_CTL_TIMEOUT ≤ s.ltbMs →
      Answers .watchdogExpire s (chip 3)) ∧
    (∀ (r : Fin 8),
      (bit (s.regN PLT.SUPPLY_STATUS) r = true → exec (.supplyFault r) s = .next s) ∧
      (bit (s.regN PLT.SUPPLY_STATUS) r = false → s.plt.aonHeld = false →
        (r.val < 3 → Answers (.supplyFault r) s (fun t => t.plt.aonHeld = true ∧ t.regN PLT.RST_CAUSE = 2 ∧ t.acc = {} ∧
          backup t ∧ bit (t.fld PLT.SUPPLY_STATUS_FAULT) r = true)) ∧
        (3 ≤ r.val → s.on 2 = true → Answers (.supplyFault r) s (fun t => bit (t.fld PLT.SUPPLY_STATUS_FAULT) r = true ∧
          bit (t.fld PLT.SUPPLY_LOG_FAULT) r = true ∧ t.raised 11 (2 ^ r.val) ∧ (r.val = 3 ∨ 6 ≤ r.val → t.mem = s.mem) ∧
          (6 ≤ r.val → t.plt.dramDead = true) ∧
          (r.val = 4 ∨ r.val = 5 → ∀ p < 3, s.on (13 + p) = true → (∀ q < 3, (s.port q).cal = none) →
            t.flag (FE.PORT_STATUS_LOCKED p) = false)))) ∧
      Answers (.supplyRecover r) s (fun t => bit (t.fld PLT.SUPPLY_STATUS_FAULT) r = false ∧ t = { s with regs := t.regs } ∧
        ∀ i, i < 8 → i ≠ r.val → bit (t.fld PLT.SUPPLY_STATUS_FAULT) i = bit (s.fld PLT.SUPPLY_STATUS_FAULT) i))

/-- Dissemination, a campaign's life (R462, R463, R465, R468, R473-R477): LOAD by its header, START, PAUSE, RESUME,
ACTIVATE and CLEAR with their refusals, the targets, the floors, and DIS_CTL.EN. -/
def Obligations.Campaigns : Prop :=
  ∀ (s : State) (c : Fin 4), s.on 2 = true → s.dramReady = true → s.flag (DIS.CMP_CTL_BUSY c) = false →
    let st := s.campState c
    let result := fun (r : Nat) (t : State) => t.fld (DIS.CMP_CTL_RESULT c) = r
    let refused := fun (r : Nat) (load : Bool) (t : State) => result r t ∧ t.campState c = st ∧
      t.raised 57 (c + r * 2 ^ 4 + b2n load * 2 ^ 8) ∧ t.mem = s.mem
    let src := s.fld (DIS.CMP_SRC_LO_ADDR c) / 16 * 16 + 2 ^ 32 * s.fld (DIS.CMP_SRC_HI_ADDR c)
    let head := s.bytes src 128
    let frag := s.fld (DIS.CMP_CFG_FRAG_LEN c)
    let load := s.tagHeader head frag
    let rec_ := disAddr s c
    let stateOf := fun (i : Nat) (t : State) => t.byte (rec_ i)
    (st ≠ 0 → Answers (.cmpLoad c) s (refused 7 true)) ∧
    (st = 0 → regionOf src = .flacon → sameRegion src 128 = true →
      (load ≠ 0 → Answers (.cmpLoad c) s (refused load true)) ∧
      (load = 0 → Answers (.cmpLoad c) s (fun t => t.flag (DIS.CMP_CTL_BUSY c) = true ∧ t.campState c = 1 ∧
        t.imgId c = fieldLe head 6 2 ∧ t.imgVer c = fieldLe head 8 4 ∧
        t.fld (DIS.CMP_NFRAG_NFRAG c) = fragsOf (128 + fieldLe head 0x10 4) frag ∧ (t.camp c).loading = true ∧
        (t.camp c).src = src ∧ ∀ i < 128, t.byte (s.disBase c + i) = head.getD i 0))) ∧
    (let r := s.startRefusal c;
      (r ≠ 0 → Answers (.cmpStart c) s (refused r false)) ∧
      (r = 0 → Answers (.cmpStart c) s (fun t => result 0 t ∧ t.campState c = 3 ∧ t.fld (DIS.CMP_CTL_ROUND c) = 1 ∧
        t.fld (DIS.CMP_NFRAG_NFRAG c) = fragsOf (s.imgLen c) frag ∧
        (s.disNodes c [1] = [] → (∀ i < fragsOf (s.imgLen c) frag, t.inRound c i = true) ∧
          (t.camp c).at_ = BitVec.ofNat 64 (s.pair (DIS.CMP_AT_LO c) (DIS.CMP_AT_HI c)) ∧ (t.camp c).next = 0)))) ∧
    (st = 3 → Answers (.cmpPause c) s (fun t => result 0 t ∧ t.campState c = 4 ∧ t.dis = s.dis ∧ t.mem = s.mem)) ∧
    (st ≠ 3 → Answers (.cmpPause c) s (refused 7 false)) ∧
    (st = 4 → Answers (.cmpResume c) s (fun t => result 0 t ∧ t.campState c = 3 ∧ t.dis = s.dis)) ∧
    (st = 6 → Answers (.cmpResume c) s (fun t => result 0 t ∧ t.campState c = 3 ∧ (t.camp c).rebuild = true ∧
      t.fld (DIS.CMP_NACK_ROUNDS_MAX c) = min (s.fld (DIS.CMP_NACK_ROUNDS_MAX c) + 1) 255)) ∧
    (st ≠ 4 → st ≠ 6 → Answers (.cmpResume c) s (refused 7 false)) ∧
    (let lead := tdiff (BitVec.ofNat 64 (s.pair (DIS.CMP_ACT_LO c) (DIS.CMP_ACT_HI c))) s.now
      let near : Int := s.fld DIS.DIS_CFG_ACT_LEAD * 1000000000
      let may := st = 3 ∨ st = 5 ∨ st = 6;
      (¬may → Answers (.cmpActivate c) s (refused 7 false)) ∧
      (may → lead < near → Answers (.cmpActivate c) s (refused 10 false)) ∧
      (may → near ≤ lead → s.floorOf (s.imgId c) = none → (∀ k < 16, s.floorValid k = true) →
        Answers (.cmpActivate c) s (refused 11 false)) ∧
      (∀ k, may → near ≤ lead → s.floorOf (s.imgId c) = some k → s.disNodes c [3] = [] → Answers (.cmpActivate c) s (fun t =>
        result 0 t ∧ t.flag (DIS.CMP_CTL_ACTIVATING c) = true ∧ t.floorVer k = max (s.floorVer k) (s.imgVer c) ∧
        ∀ e < 4, e ≠ c.val → 2 ≤ s.campState e → s.campState e ≤ 6 → s.imgId e = s.imgId c → s.imgVer e < s.imgVer c →
          t.campState e = 7 ∧ t.flag (DIS.CMP_CTL_ACTIVATING e) = false))) ∧
    Answers (.cmpClear c) s (fun t => result 0 t ∧ t.campState c = 0 ∧ t.flag (DIS.CMP_CTL_ACTIVATING c) = false ∧
      t.fld (DIS.CMP_CTL_ROUND c) = 0 ∧ t.camp c = {} ∧ ∀ i < 131072, stateOf i s ∈ [1, 2, 3, 4, 5] → stateOf i t = 0) ∧
    (∀ (i : Fin 131072),
      let ended := fun (r : Nat) (t : State) => t.fld DIS.TGT_OP_RESULT = r ∧ t.fld DIS.TGT_OP_CAMP = c ∧
        t.fld DIS.TGT_OP_NIDX = i
      (st = 7 → Answers (.tgtAdd c i) s (fun t => ended 1 t ∧ t.mem = s.mem)) ∧
      (∀ n, st ≠ 7 → find s.mac.cache i = some n →
        (n.state = 0 → Answers (.tgtAdd c i) s (fun t => ended 2 t ∧ t.mem = s.mem)) ∧
        (n.state ≠ 0 → s.listenTarget c n.port = none → Answers (.tgtAdd c i) s (fun t => ended 0 t ∧ stateOf i t = 5 ∧
          MemOnly (rec_ i) 64 s t)) ∧
        (∀ g, n.state ≠ 0 → s.listenTarget c n.port = some g → Answers (.tgtAdd c i) s (fun t => ended 0 t ∧ stateOf i t = 1 ∧
          t.byte (rec_ i + 0xC) = g ∧ MemOnly (rec_ i) 64 s t))) ∧
      Answers (.tgtRemove c i) s (fun t => ended 0 t ∧ stateOf i t = 0 ∧ MemOnly (rec_ i) 64 s t) ∧
      Answers (.tgtQuery c i) s (fun t => ended 0 t ∧ t.mem = s.mem ∧ t.fld DIS.TGT_STATE_STATE = stateOf i s % 8 ∧
        t.fld DIS.TGT_STATE_MISSING = (s.disNode c i).missing ∧ t.fld DIS.TGT_STATE_LAST_ROUND = (s.disNode c i).lastRound)) ∧
    (∀ (k : Fin 16) (v : Word), (v.toNat ≤ s.floorVer k → exec (.floorWrite k v) s = .next s) ∧
      (s.floorVer k < v.toNat → Answers (.floorWrite k v) s (fun t => t.floorVer k = v.toNat ∧ t.floorId k = s.floorId k ∧
        t.floorValid k = s.floorValid k ∧ MemOnly (floorAddr k) 8 s t))) ∧
    (s.flag DIS.DIS_CTL_EN = true → exec .disEnable s = .next s) ∧
    (s.flag DIS.DIS_CTL_EN = false → exec .disDisable s = .next s ∧ Answers .disEnable s (fun t =>
      t.flag DIS.DIS_CTL_EN = true ∧ t.flag DIS.DIS_CTL_DRAINED = false ∧ t.campState c = if st = 3 then 4 else st)) ∧
    (s.flag DIS.DIS_CTL_EN = true → Answers .disDisable s (fun t => t.flag DIS.DIS_CTL_EN = false ∧ t.dis = s.dis ∧
      (t.campState c = if st = 3 then 4 else st) ∧
      (s.dis.jobs = [] → s.dis.camps = [] → t.flag DIS.DIS_CTL_DRAINED = true)))

/-- Dissemination, the rounds (R462, R467-R471, R473, R476): the body's digest, a burst's fragments and their
completions, the NACK phase and the round after it, what a NACK makes of its node, repeated notices, CMP_ACT, and
block requests. -/
def Obligations.RoundsAndBlocks : Prop :=
  ∀ (s : State), s.on 2 = true → s.dramReady = true →
    (∀ (c : Fin 4), let x := s.camp c
      let n := s.fld (DIS.CMP_NFRAG_NFRAG c)
      let round := s.fld (DIS.CMP_CTL_ROUND c)
      let running := s.flag DIS.DIS_CTL_EN = true ∧ s.campState c = 3
      (x.loading = false → exec (.cmpLoadComplete c) s = .next s) ∧
      (x.loading = true → let src := x.src + 128
        let len := s.imgLen c - 128
        regionOf src = .flacon → sameRegion src len = true → 0 < len →
        let good := sha256 (s.bytes src len) = s.bytes (s.disBase c + 0x20) 32
        (good → Answers (.cmpLoadComplete c) s (fun t => t.campState c = 2 ∧ t.fld (DIS.CMP_CTL_RESULT c) = 0 ∧
          t.flag (DIS.CMP_CTL_BUSY c) = false)) ∧
        (¬good → Answers (.cmpLoadComplete c) s (fun t => t.campState c = 0 ∧ t.fld (DIS.CMP_CTL_RESULT c) = 5 ∧
          t.flag (DIS.CMP_CTL_BUSY c) = false ∧ t.raised 57 (c + 5 * 2 ^ 4 + 2 ^ 8)))) ∧
      (let k := max x.burst (x.burstFrom s.now)
        ∀ i b, running → x.nackEnd = none → x.rebuild = false → (s.fragsLeft c).take x.len = [i] →
          tdiff (x.instant k) s.now ≤ 100000000 → s.flag CRY.CRY_CTL_EN = true → s.cry.disDone = [] →
          s.classThreshold 0 < s.fld TM.POOL_STATUS_FREE → s.pickBuf = some b → Answers (.burstPrepare c) s (fun t =>
            (t.camp c).burst = k + 1 ∧ (t.camp c).next = i + 1 ∧
            t.dis.jobs = s.dis.jobs ++ [{ id := s.dis.nextId, camp := c, frag := i, buf := b, at_ := tplus (x.instant k) 0 }] ∧
            ∃ j, t.cry.disq = s.cry.disq ++ [j] ∧ j.owner = .dis s.dis.nextId ∧ j.buf = b ∧ j.level = x.level)) ∧
      (∀ k, running → x.burstAt s.now = some k → x.nackEnd = none → x.rebuild = false → x.burst ≤ k → s.fragsLeft c = [] →
        s.dis.jobs = [] → Answers (.nackPhaseOpen c) s (fun t => (t.camp c).burst = k + 1 ∧
          (t.camp c).nackEnd = some (tplus (x.instant k) (s.fld (DIS.CMP_NACK_NACK_WINDOW c) * 1000000000)))) ∧
      (∀ e, let k := max x.burst (x.burstFrom e)
        let miss := allBelow n (fun f => (s.disNodes c [2]).any (fun i => (s.disNode c i).missed.contains f))
        running → x.nackEnd = some e → tdiff (x.instant k) s.now ≤ 100000000 → s.disNodes c [1] = [] →
        (∀ i ∈ s.disNodes c [2], i ∈ x.heard) →
        (miss = [] → Answers (.roundStart c) s (fun t => t.campState c = 5 ∧ t.raised 59 c ∧ (t.camp c).nackEnd = none)) ∧
        (miss ≠ [] → s.fld (DIS.CMP_NACK_ROUNDS_MAX c) ≤ round → Answers (.roundStart c) s (fun t => t.campState c = 6 ∧
          t.raised 59 (c + 4))) ∧
        (miss ≠ [] → round < s.fld (DIS.CMP_NACK_ROUNDS_MAX c) → n < 65536 → Answers (.roundStart c) s (fun t =>
          t.campState c = 3 ∧ t.fld (DIS.CMP_CTL_ROUND c) = round + 1 ∧ (t.camp c).burst = k ∧ (t.camp c).next = 0 ∧
          t.raised 58 (c + (round + 1) * 2 ^ 8 + miss.length * 2 ^ 16) ∧ ∀ f < n, (t.inRound c f = true ↔ f ∈ miss)))) ∧
      (∀ i at_ r g, x.retry = [(i, 0, at_)] → at_ ≤ s.acc.ltb → find s.mac.cache i = some r → r.state ≠ 0 → (s.disNode c i).st = 1 →
        0x100000000 ≤ s.disBase c →
        (s.listenTarget c r.port = none → Answers (.noticeRetry c) s (fun t => (t.camp c).retry = [] ∧ t.byte (disAddr s c i) = 5)) ∧
        (s.listenTarget c r.port = some g → Answers (.noticeRetry c) s (fun t => t.byte (disAddr s c i) = 1 ∧
          t.byte (disAddr s c i + 0xC) = g ∧
          (t.fld (DIS.CNT_HI 3) = s.fld (DIS.CNT_HI 3) → ∃ y ∈ (t.camp c).retry, y.1 = i)))) ∧
      (let due := s.flag (DIS.CMP_CTL_ACTIVATING c) = true ∧
          s.reached (BitVec.ofNat 64 (s.pair (DIS.CMP_ACT_LO c) (DIS.CMP_ACT_HI c))) = true;
        (¬due → exec (.activationInstant c) s = .next s) ∧
        (due → Answers (.activationInstant c) s (fun t => t.campState c = 7 ∧ t.flag (DIS.CMP_CTL_ACTIVATING c) = false ∧
          t.raised 59 (c + 8))))) ∧
    (∀ e rest j,
      let r := s.fld DIS.DIS_CFG_CRING;
      (s.ring r).q = e :: rest → (s.ring r).ptrFault = 0 → s.shallow r = true → s.tm.held = [] → s.flag (TM.RING_CTL_EN r) = true →
      s.dis.jobs = [j] → j.flooded = true → j.buf = e.d.buf → j.id % 2 ^ 32 = e.d.w3.toNat → s.isHead e.d.buf = true →
      s.isFree e.d.buf = false → Answers .fragCompletion s (fun t => (t.ring r).q = rest ∧ t.dis.jobs = [] ∧
        t.isFree e.d.buf = true ∧ (e.d.type = 5 → bits e.d.w0.toNat 15 8 = 0 → Counted (DIS.CNT_HI 0) s t))) ∧
    (∀ e rest, let r := s.fld FWD.RING_SEL1_DIS
      let d := e.d
      let l := s.chainBytes d.buf d.len
      s.flag DIS.DIS_CTL_EN = true → (s.ring r).q = e :: rest → (s.ring r).ptrFault = 0 → s.shallow r = true → s.tm.held = [] →
      s.flag (TM.RING_CTL_EN r) = true → s.isFree d.buf = false → d.len ≠ 0 → d.poison = false →
      ∀ h, parseHdr l d.len = some h → let p := slice l h.len (d.len - micLen h.level - 2)
        let mine := fun (c : Nat) => 2 ≤ s.campState c ∧ s.imgId c = fieldLe p 1 2 ∧ s.imgVer c = fieldLe p 3 4
        ((∀ c < 4, ¬mine c) → Answers .nackRx s (fun t => (t.ring r).q = rest ∧ Counted (DIS.CNT_HI 2) s t)) ∧
        (∀ c < 4, mine c → (∀ e < c, ¬mine e) → byteAt p 0 = 0x11 → 0x100000000 ≤ s.disBase c →
          let n := s.disNode c d.nidx
          let round := fieldLe p 7 1
          (n.st = 0 ∨ n.st = 5 ∨ s.fld (DIS.CMP_CTL_ROUND c) < round →
            Answers .nackRx s (fun t => (t.ring r).q = rest ∧ Counted (DIS.CNT_HI 2) s t)) ∧
          (n.st ≠ 0 → n.st ≠ 5 → round ≤ s.fld (DIS.CMP_CTL_ROUND c) →
            (round < n.lastRound → Answers .nackRx s (fun t => (t.ring r).q = rest ∧ Counted (DIS.CNT_LO 1) s t)) ∧
            (n.lastRound ≤ round → bit (byteAt p 8) 0 = true → s.flag (DIS.CMP_CTL_ACTIVATING c) = false →
              Answers .nackRx s (fun t => (t.ring r).q = rest ∧ Counted (DIS.CNT_HI 1) s t ∧ t.byte (disAddr s c d.nidx) = 3 ∧
                d.nidx ∈ (t.camp c).heard)) ∧
            (n.lastRound ≤ round → bit (byteAt p 8) 0 = false → Answers .nackRx s (fun t => (t.ring r).q = rest ∧
              Counted (DIS.CNT_HI 1) s t ∧ t.byte (disAddr s c d.nidx) = 2 ∧ t.byte (disAddr s c d.nidx + 2) = round ∧
              t.byte (disAddr s c d.nidx + 3) = 0 ∧
              (s.campState c = 5 → 0 < onesOf ((p.drop 11).take 48) → t.campState c = 3 ∧ (t.camp c).rebuild = true)))))) ∧
    (∀ (m : Fin 67), let c := s.fld (DIS.BLK_REQ_CAMP.of m)
      let szx := s.fld (DIS.BLK_REQ_SZX.of m)
      let off := s.fld (DIS.BLK_REQ_NUM.of m) * 2 ^ (szx + 4)
      let len := min (2 ^ (szx + 4)) (s.imgLen c - off)
      let buf := s.fld (DIS.BLK_DST_BUF.of m)
      let dst := s.fld (DIS.BLK_DST_OFFSET.of m)
      let ends := fun (r more n : Nat) (t : State) => t.fld (DIS.BLK_RES_RESULT.of m) = r ∧ t.fld (DIS.BLK_RES_MORE.of m) = more ∧
        t.fld (DIS.BLK_RES_LEN.of m) = n
      (s.campState c < 2 → Answers (.blockRequest m) s (fun t => ends 1 0 0 t ∧ t.mem = s.mem)) ∧
      (2 ≤ s.campState c → (szx = 7 ∨ s.imgLen c ≤ off) → Answers (.blockRequest m) s (fun t => ends 2 0 0 t ∧ t.mem = s.mem)) ∧
      (2 ≤ s.campState c → szx ≠ 7 → off < s.imgLen c → s.chainLen buf < dst + len →
        Answers (.blockRequest m) s (fun t => ends 3 0 0 t ∧ t.mem = s.mem)) ∧
      (2 ≤ s.campState c → szx ≠ 7 → off < s.imgLen c → dst + len ≤ s.chainLen buf → (s.chainAddrs buf).Nodup →
        Answers (.blockRequest m) s (fun t => ends 0 (b2n (off + len < s.imgLen c)) len t ∧
          ∀ k a, k < len → (s.chainAddrs buf)[dst + k]? = some a → t.byte a = s.byte (s.disBase c + off + k))))

/-- Device images (R493-R503): LOAD header first and its refusals, the body's copy, ARM, CANCEL, RESTART, the
activation instant, CONFIRM with its fuses, the confirm timeout, and what the boot ROM starts. -/
def Obligations.DeviceImages : Prop :=
  ∀ (s : State), s.on 2 = true → (∀ a n, s.bootCopy a = some n → n < 0xFFFFFFFF) →
    let r := s.boot
    let other := s.otherBank
    let result := fun (n : Nat) (t : State) => t.fld PLT.IMG_CTL_RESULT = n ∧ t.flag PLT.IMG_CTL_BUSY = false
    let event := fun (n kind bank : Nat) (t : State) => t.raised 94 (n + kind * 2 ^ 4 + bank * 2 ^ 7 + s.fld PLT.BOOT_INFO_FALLBACK * 2 ^ 8)
    let ended := fun (n : Nat) (t : State) => result n t ∧ event n 1 other t ∧ t.nv.load = none
    let idle := s.flag PLT.IMG_CTL_BUSY = false
    let src := s.imgSrc
    let head := s.bytes src 256
    let staged := s.stagedBank
    let refused := fun (n : Nat) (t : State) => result n t ∧ t = { s with regs := t.regs }
    let armed := fun (t : State) => result 0 t ∧ t.flag PLT.IMG_CTL_ARMED = true ∧ (t.comp 74).armed = true ∧
      (t.comp 74).at_ = BitVec.ofNat 64 s.imgAct ∧ t.boot = { r with actAt := s.imgAct }
    let activated := fun (b : Nat) (t : State) => t.boot = { r.setBank b 2 with active := b, pending := true, trials := 0, actAt := 0 } ∧
      t.regN PLT.RST_CAUSE = putBit (s.regN PLT.RST_CAUSE) 7 true ∧ t.flag PLT.BOOT_INFO_ACT = true ∧
      t.flag PLT.IMG_CTL_ARMED = false ∧ t.nv.bootDue = true ∧ t.nv.runs = false ∧ t.on 3 = false
    let cutoff : Int := 10000000
    (¬idle → exec .imgLoad s = .next s ∧ exec .imgArm s = .next s ∧ exec .imgCancel s = .next s ∧ exec .imgRestart s = .next s ∧
      ∀ g, exec (.imgConfirm g) s = .next s) ∧
    (idle →
      (s.lifeCycle = 1 ∨ s.lifeCycle = 6 ∨ s.flag PLT.IMG_CTL_ARMED = true → Answers .imgLoad s (fun t => ended 8 t ∧ t.mem = s.mem)) ∧
      (s.lifeCycle ≠ 1 → s.lifeCycle ≠ 6 → s.flag PLT.IMG_CTL_ARMED = false →
        (regionOf src = .mram ∨ (∃ w, regionOf src = .window w) ∨ regionOf src = .unmapped →
          Answers .imgLoad s (fun t => ended 7 t ∧ t.mem = s.mem)) ∧
        (regionOf src = .flacon → sameRegion src 256 = true →
          (s.headerCheck head ≠ 0 → Answers .imgLoad s (fun t => ended (s.headerCheck head) t ∧ t.mem = s.mem)) ∧
          (s.headerCheck head = 0 → Answers .imgLoad s (fun t => t.flag PLT.IMG_CTL_BUSY = true ∧
            t.nv.load = some (head, src, false) ∧ t.boot = r.setBank other 0 ∧ MemOnly 0 0x1000 s t)))) ∧
      (staged = none ∨ r.pending = true → Answers .imgArm s (refused 8) ∧ Answers .imgRestart s (refused 8)) ∧
      (∀ b, staged = some b → r.pending = false → let lead := tdiff (BitVec.ofNat 64 s.imgAct) s.now
        (lead < cutoff → Answers .imgArm s (refused 9)) ∧
        (cutoff ≤ lead → s.flag PLT.IMG_CTL_TWIN = false → Answers .imgArm s (fun t => armed t ∧ t.nv.twinArm = false)) ∧
        (cutoff ≤ lead → s.flag PLT.IMG_CTL_TWIN = true → (s.on 20 = false ∨ s.fld TWN.TWN_STATE_PEER_ROLE ≠ 2 ∨
          s.regN TWN.PEER_IMG ≠ s.bankVer b) → Answers .imgArm s (refused 10)) ∧
        (cutoff ≤ lead → s.flag PLT.IMG_CTL_TWIN = true → s.on 20 = true → s.fld TWN.TWN_STATE_PEER_ROLE = 2 →
          s.regN TWN.PEER_IMG = s.bankVer b → s.fld (TWN.CNT_HI 3) = 0 →
          Answers .imgArm s (fun t => armed t ∧ t.nv.twinArm = true)) ∧
        Answers .imgRestart s (fun t => result 0 t ∧ activated b t)) ∧
      (s.flag PLT.IMG_CTL_ARMED = true → s.reached (s.comp 74).at_ = false → Answers .imgCancel s (fun t => result 0 t ∧
        t.flag PLT.IMG_CTL_ARMED = false ∧ (t.comp 74).armed = false ∧ t.boot = { r with actAt := 0 })) ∧
      (s.flag PLT.IMG_CTL_ARMED = false ∨ s.reached (s.comp 74).at_ = true → Answers .imgCancel s (refused 8)) ∧
      (∀ g, let b := s.fld PLT.BOOT_INFO_BANK
        let v := s.bankVer b
        let e := s.byte (bankAddr b + 0xC)
        (r.pending = false → Answers (.imgConfirm g) s (refused 8)) ∧
        (r.pending = true → s.nv.runs = true → Answers (.imgConfirm g) s (fun t => result 0 t ∧ (g = true ∨ e ≤ s.nv.epoch → event 0 3 b t) ∧
          t.boot = { (if s.bankVer (1 - b) < v then r.setBank (1 - b) 0 else r) with pending := false, trials := 0, floor := v } ∧
          (g = true → t.nv.epoch = max s.nv.epoch e) ∧
          (g = false → t.nv.epoch = s.nv.epoch ∧ (s.nv.epoch < e → event 6 4 b t)))))) ∧
    (s.nv.load = none → exec .imgLoadComplete s = .next s) ∧
    (∀ h from_, s.nv.load = some (h, from_, false) → h.length = 256 → (∀ x ∈ h, x < 256) → fieldLe h 0x18 4 ≤ 0x17FF00 →
      let n := fieldLe h 0x18 4
      let body := s.bytes (from_ + 256) n
      let a := bankAddr other
      regionOf (from_ + 256) = .flacon → sameRegion (from_ + 256) n = true → 0 < n →
      (bodyOk h body = true → Answers .imgLoadComplete s (fun t => ended 0 t ∧ t.boot = r.setBank other 1 ∧ t.bytes a 256 = h ∧
        t.bytes (a + 256) n = body)) ∧
      (bodyOk h body = false → Answers .imgLoadComplete s (fun t => ended 6 t ∧ t.boot = r ∧ MemOnly (a + 256) 0x17FF00 s t))) ∧
    (let due := s.flag PLT.IMG_CTL_ARMED = true ∧ (s.comp 74).armed = true ∧ s.reached (s.comp 74).at_ = true;
      (¬due → exec .imageActivation s = .next s) ∧
      (∀ b, due → staged = some b → Answers .imageActivation s (activated b))) ∧
    (let late := s.nv.runs = true ∧ r.pending = true ∧ s.fld PLT.CONFIRM_CFG_TIMEOUT ≠ 0 ∧
        s.nv.confirmFrom + s.fld PLT.CONFIRM_CFG_TIMEOUT * 1000000000 ≤ s.acc.ltb;
      (¬late → exec .confirmTimeout s = .next s) ∧
      (late → Answers .confirmTimeout s (fun t => t.regN PLT.RST_CAUSE = putBit (s.regN PLT.RST_CAUSE) 7 true ∧ t.nv.bootDue = true ∧
        t.nv.runs = false ∧ t.on 3 = false ∧ t.boot = r))) ∧
    (∀ g, let recovery := fun (t : State) => t.flag PLT.BOOT_INFO_RECOVERY = true ∧ t.nv.runs = false ∧ t.nv.bootDue = false ∧
        t.cores = s.cores ∧ (s.on 19 = false → 19 ∈ t.plt.waking)
      let started := fun (b : Nat) (t : State) => t.fld PLT.BOOT_INFO_BANK = b ∧ t.flag PLT.BOOT_INFO_RECOVERY = false ∧ t.nv.runs = true ∧
        t.nv.bootDue = false ∧ t.nv.confirmFrom = s.acc.ltb ∧ (t.core 64).run = .running ∧ (t.core 64).pc = 0 ∧ (t.core 64).init = true ∧
        ∀ l, s.sectionOf b 1 = some l → ∀ i < l.length, t.byte (0x104C0000 + i) = l.getD i 0
      let good := fun (b : Nat) => s.bankGood b = true ∧ ∃ l, s.sectionOf b 2 = some l ∧ seqCheck l = none
      let rest := 1 - r.active
      let trialMax := s.fld PLT.CONFIRM_CFG_TRIAL_MAX
      (s.nv.bootDue = false ∨ s.on 3 = false → exec (.bootStart g) s = .next s) ∧
      (s.nv.bootDue = true → s.on 3 = true →
        (s.lifeCycle = 1 ∨ s.lifeCycle = 6 → Answers (.bootStart g) s recovery) ∧
        (s.lifeCycle ≠ 1 → s.lifeCycle ≠ 6 → r.actAt = 0 →
          (r.pending = false → good r.active → Answers (.bootStart g) s (fun t => started r.active t ∧ event 0 2 r.active t)) ∧
          (r.pending = false → s.bankGood r.active = false → r.bank rest = 2 → good rest →
            Answers (.bootStart g) s (fun t => started rest t ∧ event 0 2 rest t)) ∧
          (r.pending = false → s.bankGood 0 = false → s.bankGood 1 = false → Answers (.bootStart g) s recovery) ∧
          (r.pending = true → r.trials < trialMax → good r.active → Answers (.bootStart g) s (fun t => started r.active t ∧
            t.boot = { r with trials := r.trials + 1 } ∧ (r.trials = 0 →
              let old := areaAddr rest
              let len := s.mem' (old + 2) 2
              (s.mem' old 2 = s.mem' (bankAddr r.active + 0xE) 2 → len ≤ 30712 → s.readable old (8 + len) = true →
                crc32 (s.bytes (old + 8) len) = s.mem' (old + 4) 4 →
                t.bytes (areaAddr r.active) 30720 = s.bytes old 30720) ∧
              (s.mem' old 2 ≠ s.mem' (bankAddr r.active + 0xE) 2 → ∀ l, s.sectionOf r.active 3 = some l →
                t.bytes (areaAddr r.active) l.length = l)))) ∧
          (r.pending = true → trialMax ≤ r.trials → good rest → Answers (.bootStart g) s (fun t => started rest t ∧
            t.boot = { r with active := rest, pending := false, trials := 0 } ∧ t.flag PLT.BOOT_INFO_FALLBACK = true)))))

/-- Fuses and the life cycle (R488, R490, R504-R507): the transitions of Table 15.13 and what entering RETURN and
SCRAPPED clears, the return token's nonce, revocation, and FUSE_CTL. -/
def Obligations.LifeCycleAndFuses : Prop :=
  ∀ (s : State), s.on 2 = true →
    (∀ (m : Fin 67) (target : BitVec 3) (confirm : BitVec 8) (g : Bool),
      let code := s.lifeCycle
      let c := Instr.lifecycleTransition m target confirm g
      let prog := m.val = 64 ∨ m.val = 65
      let allowed := (target = 2#3 ∧ code = 1 ∧ (m.val = 65 ∨ m.val = 66)) ∨ (target = 3#3 ∧ code = 2 ∧ prog ∧ s.canProvision = true) ∨
        (target = 4#3 ∧ code = 3 ∧ prog ∧ (s.boot.bank 0 = 2 ∨ s.boot.bank 1 = 2) ∧ s.boot.pending = false) ∨
        (target = 6#3 ∧ code ≠ 6 ∧ (prog ∨ m.val = 66) ∧ confirm = 0xD5#8)
      let reset := fun (t : State) => t.regN PLT.RST_CAUSE = putBit (s.regN PLT.RST_CAUSE) 5 true ∧ t.nv.bootDue = true ∧ t.on 3 = false
      let refused := Answers c s (fun t => t.flag PLT.LC_CTL_ERR = true ∧ t.nv = s.nv ∧ t.mem = s.mem ∧
        t.raised 4 (1 + 2 * s.fld PLT.FUSE_CTL_ERR + 4 * s.fld PLT.KEYREV_CTL_REJ) ∧
        ∀ k, k / 0x10000 ≠ 0x4012 → k / 0x10000 ≠ 0x400F → t.reg k = s.reg k)
      let token := s.regN PLT.LC_SRC_LO / 16 * 16 + 2 ^ 32 * s.fld PLT.LC_SRC_HI_ADDR
      (target ≠ 5#3 → (¬allowed ∨ g = false) → refused) ∧
      (allowed → g = true → Answers c s (fun t => reset t ∧ t.lifeCycle = target.toNat ∧
        (target ≠ 6#3 → MemOnly 0x10000000 0x1F0000000 s t ∧ t.nv.root = s.nv.root) ∧
        (target = 6#3 → t.nv.root = List.replicate 32 0xFF ∧ (∀ a, a < 0x1000 ∨ 0x5000 ≤ a → a < 0x400000 → t.byte a = memDefault a) ∧
          ∀ a, 0x1000 ≤ a → a < 0x5000 → t.byte a = s.byte a))) ∧
      (target = 5#3 → (code ≠ 4 ∨ ¬prog) → refused) ∧
      (target = 5#3 → code = 4 → prog → regionOf token = .flacon → sameRegion token 128 = true →
        (s.tokenOk (s.bytes token 128) = false ∨ g = false → refused) ∧
        (s.tokenOk (s.bytes token 128) = true → g = true → Answers c s (fun t => reset t ∧ t.lifeCycle = 5 ∧ t.nv.root = s.nv.root ∧
          (∀ a, (0x5000 ≤ a ∧ a < 0x9000) ∨ (0xC000 ≤ a ∧ a < 0x10000) ∨ (0x11000 ≤ a ∧ a < 0x20000) → t.byte a = memDefault a) ∧
          (∀ k < 4096, (t.kslot k).level = 0) ∧ t.regLocks = 0 ∧
          ∀ a, a < 0x5000 ∨ (0xB000 ≤ a ∧ a < 0xC000) ∨ (0xA0000 ≤ a ∧ a < 0x400000) → t.byte a = s.byte a)))) ∧
    Answers .lcNonceRead s (fun t => ∃ l : List Nat, l.length = 16 ∧ t.nv.nonce = some l ∧ t.drawn = s.drawn + 16 ∧
      ∀ i < 4, t.regN (PLT.LC_NONCE i) = ofBe (slice l (4 * i) (4 * i + 4))) ∧
    (∀ (k : Fin 16) (g : Bool), let left := ∃ j < 16, j ≠ k.val ∧ bit s.nv.keyRev j = false ∧ bit (s.keyUsage j) 0 = true
      (left → g = true → Answers (.keyrevRevoke k g) s (fun t => (∀ j, bit t.nv.keyRev j = (bit s.nv.keyRev j || j = k.val)) ∧
        t.flag PLT.KEYREV_CTL_REJ = s.flag PLT.KEYREV_CTL_REJ ∧ t.mem = s.mem)) ∧
      (¬left ∨ g = false → Answers (.keyrevRevoke k g) s (fun t => t.nv = s.nv ∧ t.flag PLT.KEYREV_CTL_REJ = true ∧
        t.raised 4 (s.fld PLT.LC_CTL_ERR + 2 * s.fld PLT.FUSE_CTL_ERR + 4)))) ∧
    (∀ (b : Fin 4) (g : Bool), let blank := (b = 0 ∧ s.nv.eui = 0) ∨ (b = 1 ∧ s.nv.hwSet = false) ∨ (b = 2 ∧ s.nv.tktHash = 0)
      let may := s.lifeCycle = 2 ∧ blank ∧ g = true
      (¬may → Answers (.fuseProgram b g) s (fun t => t.nv = s.nv ∧ t.flag PLT.FUSE_CTL_ERR = true ∧
        t.raised 4 (s.fld PLT.LC_CTL_ERR + 2 + 4 * s.fld PLT.KEYREV_CTL_REJ))) ∧
      (may → Answers (.fuseProgram b g) s (fun t => t.flag PLT.FUSE_CTL_ERR = s.flag PLT.FUSE_CTL_ERR ∧
        (b = 0 → t.nv = { s.nv with eui := s.fuseValue 2 }) ∧
        (b = 1 → t.nv = { s.nv with hwClass := (getD s.nv.fuseData 0 0#32).toNat % 32, hwSet := true }) ∧
        (b = 2 → t.nv = { s.nv with tktHash := s.fuseValue 8 }))))

/-- Twin operation, the roles (R510-R516, R523, R524, R531, R585): EN, the outcome of listening, heartbeats sent,
heard and missed, the kick, the loss decision, fencing by a higher ROLE_EPOCH, handover, and the link's sync. -/
def Obligations.TwinRoles : Prop :=
  ∀ (s : State), s.on 2 = true → s.on 20 = true →
    let role := s.role
    let own := s.regN TWN.ROLE_EPOCH
    let primary := s.flag TWN.TWN_CFG_PRIMARY
    let sync := s.flag TWN.LINK_STATUS_SYNC
    let link := s.flag TWN.LINK_CTL_EN
    let seqOf := fun (ty : Nat) => getD s.twn.seqs ty 0
    let roleNow := fun (r : Nat) (fenced : Bool) (t : State) => t.role = r ∧ (role ≠ r → t.raised 93 (r + role * 8 + b2n fenced * 64))
    let fenced := fun (t : State) => t.role = 6 ∧ (role ≠ 6 → t.raised 93 (6 + role * 8 + 64)) ∧ (∀ p < 3, (t.port p).paEn = false) ∧
      t.flag PLT.PAD_RET_HOLD_H = true ∧ t.flag PLT.PAD_RET_HOLD_ANT = true ∧ (t.comp 76).armed = false ∧ (t.comp 77).armed = false
    let lost := fun (down dying : Bool) (t : State) => t.role = 5 ∧ t.raised 92 (1 + 2 * b2n down + 4 * b2n dying) ∧
      t.raised 93 (5 + 4 * 8) ∧ bit t.plt.levels 4 = true ∧ t.regN TWN.ROLE_EPOCH = (s.twn.ckEpoch + 1) % 2 ^ 32
    let tick := s.nextMultiple 10000000
    let checkpoints := fun (t : State) => (t.comp 77).armed = true ∧ (t.comp 77).at_ = s.nextMultiple s.ckPeriod
    (s.flag TWN.TWN_CTL_EN = true → exec .twinEnable s = .next s ∧ Answers .twinDisable s (fun t =>
      t.flag TWN.TWN_CTL_EN = false ∧ roleNow 0 false t ∧ t.twn.dirty = [] ∧ ∀ i, 76 ≤ i → i ≤ 78 → (t.comp i).armed = false)) ∧
    (s.flag TWN.TWN_CTL_EN = false → exec .twinDisable s = .next s ∧ Answers .twinEnable s (fun t =>
      t.flag TWN.TWN_CTL_EN = true ∧ roleNow 1 false t ∧ t.twn.joinSince = s.acc.ltb ∧ t.twn.missed = 0 ∧ (t.comp 78).armed = true ∧
      (t.comp 78).at_ = tick ∧ t.regN TWN.ROLE_EPOCH = own)) ∧
    (let waited := s.acc.ltb - s.twn.joinSince
      let w := s.fld TWN.TWN_CFG_JOIN_WAIT * 10000000
      let peer := s.twn.peer
      let becomes := fun (r : Nat) => Answers .joinWaitExpire s (fun t => roleNow r false t ∧ t.regN TWN.ROLE_EPOCH = own ∧ (r = 2 → checkpoints t) ∧
        (r = 3 → link = true → t.twn.outs = [linkFrame 7 (seqOf 7) own []]));
      (role ≠ 1 ∨ waited < w → Answers .joinWaitExpire s (fun t => t = { s with twn := { s.twn with outs := [] } })) ∧
      (role = 1 → w ≤ waited → (peer = 2 → becomes 3) ∧ (peer = 1 → primary = true → becomes 2) ∧ (peer = 1 → primary = false → becomes 1) ∧
        (peer ≠ 1 → peer ≠ 2 → primary = true ∨ 3 * w ≤ waited → becomes 2) ∧
        (peer ≠ 1 → peer ≠ 2 → primary = false → waited < 3 * w → becomes 1))) ∧
    (let due := role ≠ 0 ∧ (s.comp 78).armed = true ∧ s.reached (s.comp 78).at_ = true
      let hbStamp := ((((s.acc.atb / 2 ^ 32 : Nat) : Int) + signed 32 (s.regN (ACC.EGRESS 5))) % 2 ^ 80).toNat
      let frame := linkFrame 1 (seqOf 1) own (leBytes (hbStamp / 65536) 8 ++
        leBytes hbStamp 2 ++ [role, b2n s.alive]);
      (¬due → exec .hbSend s = .next s) ∧
      (due → Answers .hbSend s (fun t => (t.comp 78).armed = true ∧ (t.comp 78).at_ = tick ∧ t.twn.kicked = false ∧
        (link = true → s.flag TWN.TWN_EXP_HB_SUPPRESS = false → t.twn.outs.head? = some frame) ∧
        (link = true → role = 5 → t.twn.outs.getLast? = some (linkFrame 8 (seqOf 8) own (leBytes own 4))) ∧
        (s.alive = true → t.twn.unkicked = 0) ∧ (s.alive = false → t.twn.unkicked = s.twn.unkicked + 1) ∧
        (role ≠ 2 ∨ s.alive = true ∨ s.twn.unkicked < 2 → t.role = role) ∧
        (role = 2 → s.alive = false → 2 ≤ s.twn.unkicked → fenced t)))) ∧
    (∀ (v : Word), (v ≠ 0x7A11#32 → exec (.hbKick v) s = .next s) ∧
      (v = 0x7A11#32 → exec (.hbKick v) s = .next { s with twn := { s.twn with kicked := true, grace := none } })) ∧
    (∀ (l : List Nat) (stamp : Nat), (sync = false → exec (.hbRx l stamp) s = .next s) ∧
      (sync = true → l.length < 20 ∨ crc32 (l.take (l.length - 4)) ≠ fieldLe l (l.length - 4) 4 →
        Answers (.hbRx l stamp) s (fun t => Counted (TWN.CNT_LO 0) s t ∧ t = { s with regs := t.regs }))) ∧
    (∀ (n e stamp : Nat) (time : List Nat) (r f : Nat), time.length = 10 → (∀ x ∈ time, x < 256) → e < 2 ^ 32 → r < 256 → f < 256 →
      sync = true → role ≠ 0 →
      let c := Instr.hbRx (linkFrame 1 n e (time ++ [r, f])) stamp
      let k := (s.ns + 5000000) / 10000000
      let late := ((s.ns : Int) - (k * 10000000 : Nat)).natAbs
      let rivals := (role = 2 ∨ role = 5) ∧ (r = 2 ∨ r = 5)
      let under := own < e ∨ (own = e ∧ primary = false)
      (rivals → under → Answers c s (fun t => fenced t)) ∧
      (¬(rivals ∧ under) → Answers c s (fun t => t.twn.lastHb = some s.acc.ltb ∧ t.twn.peer = r ∧
        t.fld TWN.TWN_STATE_PEER_ROLE = (if r = 2 then 1 else if r = 3 ∨ r = 4 then 2 else 3) ∧
        (role ≠ 1 → bit f 1 = false → t.role = role) ∧
        (role ≠ 1 → r ≠ 2 ∨ bit f 0 = true → late ≤ s.fld TWN.TWN_CFG_HB_TOL * 100000 → t.twn.missed = 0 ∧ k ≤ t.twn.heard) ∧
        (role = 4 → bit f 1 = true → lost false true t)))) ∧
    (let k := (s.ns - s.fld TWN.TWN_CFG_HB_TOL * 100000) / 10000000
      let due := 2 ≤ role ∧ role ≤ 4 ∧ (role = 2 → s.twn.lastHb ≠ none) ∧ s.twn.judged < k ∧ s.twn.heard < k
      let counts := sync = true ∨ s.flag TWN.TWN_CFG_LINKDOWN_TAKE = true;
      (¬due → exec .hbMiss s = .next s) ∧
      (due → Answers .hbMiss s (fun t => Counted (TWN.CNT_HI 0) s t ∧ t.twn.judged = k ∧
        (s.twn.missed < 2 → t.role = role ∧ t.twn.missed = s.twn.missed + 1) ∧
        (role ≠ 4 → t.role = role) ∧ (role = 2 → s.twn.missed = 2 → t.raised 92 (2 * b2n (!sync))) ∧
        (role = 4 → 2 ≤ s.twn.missed → counts → lost (!sync) false t) ∧ (role = 4 → ¬counts → t.role = 4)))) ∧
    (∀ (n e : Nat) (p : List Nat), p.length ≤ 2032 → (∀ x ∈ p, x < 256) → e < 2 ^ 32 → sync = true → role = 2 ∨ role = 5 →
      let c := Instr.takeoverRx (linkFrame 8 n e p)
      (own < e → Answers c s fenced) ∧ (e < own → Answers c s (fun t => t.role = role ∧ t.bb = s.bb))) ∧
    (let t0 := BitVec.ofNat 64 (s.pair TWN.HO_AT_LO TWN.HO_AT_HI)
      let soon := tdiff t0 s.now < (2 * s.ckPeriod : Nat);
      (role ≠ 2 → exec .handover s = .next s) ∧
      (role = 2 → s.twn.peer ≠ 4 ∨ soon → Answers .handover s (fun t => t.flag TWN.CKPT_STATUS_HO_ERR = true ∧ t = { s with regs := t.regs })) ∧
      (role = 2 → s.twn.peer = 4 → ¬soon → Answers .handover s (fun t => t.twn.handover = true ∧ (t.comp 76).armed = true ∧
        (t.comp 76).at_ = t0))) ∧
    (let due := s.twn.handover = true ∧ role = 2 ∧ (s.comp 76).armed = true ∧ s.reached (s.comp 76).at_ = true;
      (¬due → exec .handoverInstant s = .next s) ∧
      (due → Answers .handoverInstant s (fun t => fenced t ∧ t.twn.handover = false ∧
        (link = true → s.flag TWN.TWN_EXP_HB_SUPPRESS = false → ∃ n time, time.length = 10 ∧
          t.twn.outs.getLast? = some (linkFrame 1 n own (time ++ [6, 2])))))) ∧
    (∀ n, (n < 3 ∨ sync = true → exec (.linkSyncAcquire n) s = .next s) ∧
      (3 ≤ n → sync = false → Answers (.linkSyncAcquire n) s (fun t => t.flag TWN.LINK_STATUS_SYNC = true ∧ t = { s with regs := t.regs }))) ∧
    (∀ bad ns, ((bad < 4 ∧ ns < 2000) ∨ sync = false → exec (.linkSyncLoss bad ns) s = .next s) ∧
      (4 ≤ bad ∨ 2000 ≤ ns → sync = true → Answers (.linkSyncLoss bad ns) s (fun t => t.flag TWN.LINK_STATUS_SYNC = false ∧
        Counted TWN.LINK_CNT_SYNC_LOST s t ∧ t = { s with regs := t.regs })))

/-- Twin operation, what travels (R519-R521, R525, R532, R533, R535, R587): checkpoints captured, journalled, applied
and acknowledged, the restore, pushed images, the shared instant, and DATA frames. -/
def Obligations.TwinTransfers : Prop :=
  ∀ (s : State), s.on 2 = true → s.on 20 = true →
    let role := s.role
    let own := s.regN TWN.ROLE_EPOCH
    let sync := s.flag TWN.LINK_STATUS_SYNC
    let link := s.flag TWN.LINK_CTL_EN
    let seqOf := fun (ty : Nat) => getD s.twn.seqs ty 0
    let base := s.ckBase
    let mism := s.fld (TWN.CNT_LO 3)
    let dram := 0x100000000 ≤ base ∧ base + 0x4000000 ≤ s.dramTop ∧ s.dramReady = true
    let free := s.classThreshold 1 < s.fld TM.POOL_STATUS_FREE ∧ s.pickBuf ≠ none
    (let c := Instr.checkpointCapture
      let due := (s.comp 77).armed = true ∧ s.reached (s.comp 77).at_ = true
      let busy := s.acc.ltb < s.twn.ckBusy
      let held := s.flag TWN.TWN_EXP_CK_HOLD = true
      let go := role = 2 ∧ (due ∨ s.twn.ckLate = true) ∧ ¬held ∧ ¬busy
      let ring := s.fld TWN.CKPT_CFG_RING;
      (role ≠ 2 ∨ (¬due ∧ s.twn.ckLate = false) → exec c s = .next s) ∧
      (role = 2 → due → held → Answers c s (fun t => t.twn = { s.twn with outs := [] } ∧ (t.comp 77).at_ = s.nextMultiple s.ckPeriod)) ∧
      (role = 2 → due → ¬held → busy → Answers c s (fun t => Counted (TWN.CNT_LO 2) s t ∧ t.twn.ckLate = true ∧ t.twn.ck = s.twn.ck)) ∧
      (go → ¬free → Answers c s (fun t => Counted (TWN.CNT_LO 1) s t ∧ t.twn.ck = s.twn.ck ∧ t.twn.dirty = s.twn.dirty ∧ t.twn.outs = [])) ∧
      (go → free → (s.ring ring).q = [] → Answers c s (fun t => t.twn.ck = s.twn.ck + 1 ∧ t.twn.carried = s.twn.dirty ∧
        t.twn.carriedMap = s.twn.dirtyMap ∧ t.twn.dirty = s.twn.dirty ∧ t.twn.ckLate = false ∧ Counted (TWN.CNT_HI 1) s t ∧
        (link = true → ∃ l, t.twn.outs.getLast? = some (linkFrame 3 (seqOf 3) own (leBytes (s.twn.ck + 1) 4 ++ leBytes (t.twn.outs.length - 1) 4 ++ l)))))) ∧
    (∀ (n e k : Nat), e < 2 ^ 32 → k < 2 ^ 32 → sync = true → let c := Instr.ckAckRx (linkFrame 4 n e (leBytes k 4))
      (role = 2 ∨ role = 6 → k = s.twn.ck % 2 ^ 32 → Answers c s (fun t => t.fld TWN.CKPT_STATUS_APPLIED = k % 2 ^ 24 ∧
        (∀ i, i ∈ t.twn.dirty ↔ i ∈ s.twn.dirty ∧ i ∉ s.twn.carried) ∧ (∀ i, i ∈ t.twn.dirtyMap ↔ i ∈ s.twn.dirtyMap ∧ i ∉ s.twn.carriedMap))) ∧
      (k ≠ s.twn.ck % 2 ^ 32 → Answers c s (fun t => t = { s with twn := { s.twn with outs := [] } }))) ∧
    (∀ (n e : Nat), e < 2 ^ 32 → sync = true → let c := Instr.joinRx (linkFrame 7 n e [])
      (role = 2 → Answers c s (fun t => (∀ i < 131072, i ∈ t.twn.dirty ∧ i ∈ t.twn.dirtyMap) ∧ t.twn.baseline = true)) ∧
      (role ≠ 2 → Answers c s (fun t => t = { s with twn := { s.twn with outs := [] } }))) ∧
    (∀ (n e : Nat) (p : List Nat), e < 2 ^ 32 → p.length ≤ 2032 → (∀ x ∈ p, x < 256) → sync = true → role = 3 ∨ role = 4 → dram →
      s.twn.jlen + p.length ≤ 2 ^ 24 → Answers (.ckDataRx (linkFrame 2 n e p)) s (fun t => t.twn.jlen = s.twn.jlen + p.length ∧
        t.bytes (base + 0x2000000 + s.twn.jlen) p.length = p ∧ MemOnly (base + 0x2000000 + s.twn.jlen) p.length s t ∧
        t.twn.jcrc = crc32From s.twn.jcrc p)) ∧
    (∀ (n e k count crc : Nat), e < 2 ^ 32 → k < 2 ^ 32 → count < 2 ^ 32 → crc < 2 ^ 32 → sync = true → role = 3 ∨ role = 4 →
      let c := Instr.ckEndRx (linkFrame 3 n e (leBytes k 4 ++ leBytes count 4 ++ leBytes crc 4))
      let whole := s.twn.jcount = count ∧ s.twn.jcrc = crc
      (¬whole → Answers c s (fun t => t.twn.jlen = 0 ∧ t.twn.jcount = 0 ∧ t.twn.applying = s.twn.applying ∧ t.mem = s.mem ∧
        t.raised 95 (s.fld TWN.CKPT_STATUS_SYNC + 2 + mism * 2 ^ 16))) ∧
      (whole → dram → s.twn.jlen ≤ 2 ^ 24 → Answers c s (fun t => t.twn.applying = some k ∧ t.twn.ckEpoch = e ∧ t.twn.jlen = 0 ∧
        (∀ i r, i < 131072 → r.length = 128 → (∀ x ∈ r, x < 256) →
          s.bytes (base + 0x2000000) s.twn.jlen = ckRecord 1 (leBytes i 4 ++ r) → t.bytes (base + i * 0x80) 128 = r)))) ∧
    (s.twn.applying = none → exec .checkpointApplyEnd s = .next s) ∧
    (∀ k, s.twn.applying = some k → Answers .checkpointApplyEnd s (fun t => t.twn.applying = none ∧ t.flag TWN.CKPT_STATUS_SYNC = true ∧
      t.fld TWN.CKPT_STATUS_APPLIED = k % 2 ^ 24 ∧ Counted (TWN.CNT_HI 2) s t ∧
      (link = true → t.twn.outs = [linkFrame 4 (seqOf 4) own (leBytes k 4)]) ∧ (role ≠ 3 → t.role = role) ∧
      (role = 3 → t.role = 4 ∧ t.raised 93 (4 + 3 * 8) ∧ t.raised 95 (1 + mism * 2 ^ 16)) ∧
      (role = 3 ∨ role = 4 → t.flag PLT.PAD_RET_HOLD_ANT = true ∧ t.flag PLT.PAD_RET_HOLD_H = true))) ∧
    (role = 5 → s.twn.restoring = false → exec .twinRestore s = .next { s with twn := { s.twn with restoring := true } }) ∧
    (role ≠ 5 → exec .twinRestore s = .next s) ∧
    (let ready := s.twn.restoring = true ∧ role = 5 ∧ s.twn.applying = none;
      (¬ready → exec .restoreComplete s = .next s) ∧
      (ready → dram → s.bb.staged = [] → 0x100000000 ≤ s.nodeAddr 0 → (base + 0x4000000 ≤ s.nodeAddr 0 ∨ s.nodeAddr 131072 ≤ base) →
        Answers .restoreComplete s (fun t => t.role = 2 ∧ t.flag TWN.TWN_STATE_RESTORED = true ∧ t.twn.restoring = false ∧
          t.raised 93 (2 + 5 * 8) ∧ (t.comp 77).armed = true ∧ bit t.plt.levels 4 = false ∧
          t.fld FWD.SIL_SEED_SEED = s.mem' (base + 0x1050004) 4 ∧
          ∀ i < 131072, ∀ j < 128, t.byte (s.nodeAddr i + j) = s.byte (base + i * 0x80 + j)))) ∧
    (let bank := if role = 2 ∧ s.twn.peer = 4 then s.stagedBank else none;
      (bank = none → Answers .imgPush s (fun t => t.flag TWN.CKPT_STATUS_IMG_ERR = true ∧ t.twn.outs = [])) ∧
      (∀ b, bank = some b → link = true → let a := bankAddr b
        let n := 256 + s.mem' (a + 0x18) 4
        Answers .imgPush s (fun t => t = { s with twn := t.twn } ∧ t.twn.outs.length = (n + 1023) / 1024 ∧
          ∀ i < (n + 1023) / 1024, t.twn.outs[i]? = some (linkFrame 5 ((seqOf 5 + i) % 2 ^ 32) own
            (leBytes (1024 * i) 4 ++ s.bytes (a + 1024 * i) (min 1024 (n - 1024 * i))))))) ∧
    (∀ (n e o : Nat) (l : List Nat), e < 2 ^ 32 → l.length ≤ 2028 → (∀ x ∈ l, x < 256) → sync = true → o + l.length ≤ 0x200000 →
      let c := Instr.imgDataRx (linkFrame 5 n e (leBytes o 4 ++ l))
      (role ≠ 4 → role ≠ 2 → role ≠ 5 → Answers c s (fun t => t = { s with twn := { s.twn with outs := [] } })) ∧
      (role = 4 → dram → Answers c s (fun t => t.bytes (base + 0x1060000 + o) l.length = l))) ∧
    (∀ (n e ver at_ r : Nat), e < 2 ^ 32 → ver < 2 ^ 32 → at_ < 2 ^ 64 → r < 256 → sync = true →
      let c := Instr.imgActRx (linkFrame 6 n e (leBytes ver 4 ++ leBytes at_ 8 ++ [r]))
      Answers c s (fun t => t.regN TWN.PEER_IMG = ver ∧ t.fld (TWN.CNT_HI 3) = r ∧
        (role = 4 → s.armCheck at_ = 0 → t.flag PLT.IMG_CTL_ARMED = true ∧ (t.comp 74).at_ = BitVec.ofNat 64 at_ ∧ t.nv.twinArm = true) ∧
        (role = 4 → link = true → t.twn.outs = [linkFrame 6 (seqOf 6) own (leBytes ver 4 ++ leBytes at_ 8 ++ [s.armCheck at_])]) ∧
        (role = 2 → r ≠ 0 → at_ ≠ 0 → s.flag PLT.IMG_CTL_ARMED = true → s.nv.twinArm = true → t.flag PLT.IMG_CTL_ARMED = false ∧
          (t.comp 74).armed = false ∧ t.fld PLT.IMG_CTL_RESULT = 10))) ∧
    (∀ (n e : Nat) (w : List Nat) (l : List Nat), e < 2 ^ 32 → w.length = 16 → (∀ x ∈ w ++ l, x < 256) → sync = true →
      let c := Instr.twinDataRx (linkFrame 9 n e (w ++ l))
      let ring := s.fld TWN.LINK_RINGS_RX
      let d := fun (buf : Nat) => mkDesc (putBit (fieldLe w 0 4) 4 false) (putBits (fieldLe w 4 4) 13 0 buf) (fieldLe w 8 4) (fieldLe w 12 4)
      s.takes ring → s.shallow ring = true →
      (fieldLe w 2 2 = 0 → l = [] → Answers c s (fun t => Pushed ring (d (bits (fieldLe w 4 4) 13 0)) s t)) ∧
      (fieldLe w 2 2 = l.length → 0 < l.length → l.length ≤ 256 → s.classThreshold 0 < s.fld TM.POOL_STATUS_FREE →
        (s.ring ring).tail < s.depth ring → ∀ b, s.pickBuf = some b → Answers c s (fun t => Pushed ring (d b) s t ∧ t.chainBytes b l.length = l))) ∧
    (∀ e rest, let ring := s.fld TWN.LINK_RINGS_TX
      role ≠ 0 → link = true → (s.ring ring).q = e :: rest → (s.ring ring).ptrFault = 0 → s.shallow ring = true → s.tm.held = [] →
      s.flag (TM.RING_CTL_EN ring) = true → s.isFree e.d.buf = false → s.isHead e.d.buf = true →
      let bad := e.d.type = 0xA ∨ e.d.type = 0xF ∨ 2016 < e.d.len
      Answers .twinDataTx s (fun t => (t.ring ring).q = rest ∧ (e.d.len ≠ 0 → t.isFree e.d.buf = true) ∧
        (bad → Counted TWN.LINK_CNT_DATA_DROP s t ∧ t.twn.outs = []) ∧
        (¬bad → t.twn.outs = [linkFrame 9 (seqOf 9) own (e.d.words.flatMap (fun x => leBytes x.toNat 4) ++
          if e.d.len = 0 then [] else s.chainBytes e.d.buf e.d.len)])))

/-- In-service test (R539-R557): slices start admitted on idle units, end PASS, FAIL or INCOMPLETE with their class's
action, and yield; requests, FORCE, BURN, full BIST and IST_CTL.EN 0. -/
def Obligations.InServiceTest : Prop :=
  ∀ (s : State), s.on 2 = true →
    let half := s.fld IST.IST_EXP_STEP_LIMIT / 2
    let b := s.acc.ltb / 10000 * 10000
    let at_ := fun (c u : Nat) (x : Slice) => x.cls = c ∧ x.unit = u
    let ended := fun (c u n : Nat) (t : State) => (∀ y ∈ t.ist.running, ¬at_ c u y) ∧ (t.istUnit c u).outcome = n
    let cut := fun (x : Slice) (t : State) => ended x.cls x.unit 3 t ∧ (t.istUnit x.cls x.unit).done = false ∧
      (t.istUnit x.cls x.unit).incRun = min ((s.istUnit x.cls x.unit).incRun + 1) 255 ∧ Counted (IST.CNT_HI 1) s t ∧
      (∃ q ∈ t.ist.queue, q.1 = x.cls ∧ q.2.1 = x.unit) ∧
      ((s.istUnit x.cls x.unit).incRun + 1 = s.fld IST.IST_CFG_INC_MAX → (s.istUnit x.cls x.unit).incRun < 255 →
        Counted (IST.CNT_LO 1) s t ∧ t.raised 91 (x.cls + x.unit * 2 ^ 4))
    (∀ busy, let may := s.flag IST.IST_CTL_EN = true ∧ s.lifeCycle ≠ 6 ∧ s.ist.boundary < b
      (¬may → exec (.sliceStart busy) s = .next s) ∧
      (may → Answers (.sliceStart busy) s (fun t => t.ist.boundary = b ∧
        (∀ x ∈ t.ist.running, x ∈ s.ist.running ∨ (s.classOn x.cls = true ∧ s.on (istDomain x.cls x.unit) = true ∧
          x.ends = b + istLength x.cls ∧ ¬∃ y ∈ s.ist.running, at_ x.cls x.unit y)) ∧
        (s.maStarting b ≤ half → t.maStarting b ≤ half) ∧ (∀ e, s.maEnding e ≤ half → t.maEnding e ≤ half) ∧
        (s.istMa ≤ 400 → t.istMa ≤ 400) ∧
        (∀ c u f rest, s.ist.queue = (c, u, f) :: rest → s.classOn c = true → s.on (istDomain c u) = true →
          s.turnBegun (istDomain c u) = false → (∀ y ∈ s.ist.running, ¬at_ c u y) → s.ist.bist = none →
          (f = true → s.unitFree c u = true) → (f = false → s.unitIdle busy c u = true) → s.admits c b = true →
          ∃ x ∈ t.ist.running, at_ c u x ∧ x.ends = b + istLength c ∧ x.forced = f)))) ∧
    (∀ (cls : Fin 9) (unit : Fin 256) (fin_ : Bool) (sig : Word) (row : Fin 4096) (balls : List Nat),
      let c := Instr.sliceEnd cls unit fin_ sig row balls
      let x? := s.ist.running.find? (fun x => x.cls = cls.val && x.unit = unit.val)
      let fails := fun (x : Slice) (t : State) => ended cls unit 2 t ∧ (t.istUnit cls unit).done = true ∧ Counted (IST.CNT_LO 0) s t ∧
        t.raised 88 (cls + unit * 2 ^ 4 + b2n (t.istUnit cls unit).repaired * 2 ^ 12 + b2n x.forced * 2 ^ 13)
      (x? = none → exec c s = .next s) ∧
      (∀ x, x? = some x →
        (s.acc.ltb < x.ends → exec c s = .next s) ∧
        (x.ends ≤ s.acc.ltb →
          (fin_ = false → Answers c s (fun t => cut x t ∧ (t.istUnit cls unit).sig = sig)) ∧
          (fin_ = true → sig = Config.istExpected cls → balls = [] → Answers c s (fun t => ended cls unit 1 t ∧
            (t.istUnit cls unit).done = true ∧ (t.istUnit cls unit).incRun = 0 ∧ Counted (IST.CNT_HI 0) s t ∧
            (t.istUnit cls unit).passes = ((s.istUnit cls unit).passes + 1) % 65536 ∧ (t.istUnit cls unit).forced = x.forced)) ∧
          (∀ y, fin_ = true → sig = Config.istExpected cls → balls = [y] → ballOf cls y = true → Answers c s (fun t =>
            ended cls unit 1 t ∧ getD t.ist.pins (bits y 6 0) (7, 0) = (bits y 10 8, bits y 17 11) ∧
            ((getD s.ist.pins (bits y 6 0) (7, 0)).1 = 0 → bits y 10 8 ≠ 0 → t.raised 89 (y % 2 ^ 18)))) ∧
          (fin_ = true → sig ≠ Config.istExpected cls → balls = [] →
            (cls.val = 0 → s.on 12 = true → Answers c s (fun t => fails x t ∧ (t.lane unit).run = .off ∧ (t.lane unit).broken = true)) ∧
            (cls.val = 1 → Answers c s (fun t => fails x t ∧ unit.val ∈ t.ist.voices)) ∧
            (cls.val = 2 ∨ 6 ≤ cls.val → Answers c s (fun t => fails x t ∧ t.cores = s.cores)) ∧
            (cls.val = 3 → unit.val < 24 → s.on 16 = true → Answers c s (fun t => fails x t ∧ bit (t.fld CRY.LANE_FAULT_MAP) unit = true ∧ t.raised 72 unit)) ∧
            (cls.val = 4 ∨ cls.val = 5 →
              (s.freeSpare cls unit = none → Answers c s (fun t => fails x t ∧ Counted (IST.CNT_LO 3) s t ∧ t.ist.soft = s.ist.soft)) ∧
              (∀ k, s.freeSpare cls unit = some k → Answers c s (fun t => fails x t ∧ Counted (IST.CNT_HI 3) s t ∧
                (t.istUnit cls unit).repaired = true ∧ ∃ e, t.ist.soft = s.ist.soft ++ [e] ∧ bits e 28 21 = unit ∧ bits e 15 12 = k ∧
                  bits e 11 0 = row ∧ bit e 31 = true ∧ bit e 30 = false ∧ bit e 29 = decide (cls.val = 5)))))))) ∧
    (∀ (cls : Fin 9) (unit : Fin 256), let x? := s.ist.running.find? (fun x => x.cls = cls.val && x.unit = unit.val && !x.forced)
      (x? = none → exec (.sliceYield cls unit) s = .next s) ∧
      (∀ x, x? = some x → Answers (.sliceYield cls unit) s (fun t => cut x t ∧ Counted (IST.CNT_LO 2) s t ∧
        t.ist.ballast = s.ist.ballast ++ [(istCurrent cls, x.ends)]))) ∧
    (∀ (cls : BitVec 4) (unit : BitVec 8), let c := cls.toNat
      let u := unit.toNat
      let why := if 9 ≤ c ∨ istUnits c ≤ u then 1 else if s.on (istDomain c u) = false then 2 else 0
      let known := (∃ x ∈ s.ist.running, at_ c u x) ∨ ∃ q ∈ s.ist.queue, q.1 = c ∧ q.2.1 = u
      Answers (.istRequest cls unit) s (fun t => t.fld IST.IST_REQ_RESULT = why ∧ t.ist.running = s.ist.running ∧
        (why = 0 → ¬known → t.ist.queue = s.ist.queue ++ [(c, u, false)]) ∧ (why ≠ 0 ∨ known → t.ist = s.ist)) ∧
      (s.flag IST.EXPERT_UNLOCK_UNLOCKED = false → Answers (.istForce cls unit) s (fun t => t = { s with regs := t.regs } ∧
        t.flag IST.EXPERT_UNLOCK_REJECTED = true)) ∧
      (s.flag IST.EXPERT_UNLOCK_UNLOCKED = true → Answers (.istForce cls unit) s (fun t =>
        (why ≠ 0 → t.fld IST.IST_REQ_RESULT = why ∧ t.ist = s.ist) ∧
        (why = 0 → Counted (IST.CNT_HI 2) s t ∧ t.forcedOut c u = true)))) ∧
    (∀ readback, let want := s.ist.soft.map (fun e => putBit e 30 true)
      let result := fun (n : Nat) (t : State) => t.fld IST.REPAIR_CTL_RESULT = n
      let bench := s.lifeCycle = 2 ∨ s.lifeCycle = 5
      let fits := s.nv.repair.length + want.length ≤ 64
      (¬bench → Answers (.repairBurn readback) s (fun t => result 1 t ∧ t = { s with regs := t.regs })) ∧
      (bench → ¬fits → Answers (.repairBurn readback) s (fun t => result 2 t ∧ t = { s with regs := t.regs })) ∧
      (bench → fits → readback = want → Answers (.repairBurn readback) s (fun t => result 0 t ∧ t.ist.soft = [] ∧
        t.nv = { s.nv with repair := s.nv.repair ++ want })) ∧
      (bench → fits → readback ≠ want → Answers (.repairBurn readback) s (fun t => result 3 t ∧ t.ist = s.ist ∧
        t.nv = { s.nv with repair := s.nv.repair ++ readback.take want.length }))) ∧
    (let doms := s.fld IST.BIST_DOMS_DOMS / 4 * 4
      let bench := s.lifeCycle = 1 ∨ s.lifeCycle = 2 ∨ s.lifeCycle = 5
      let clear := ∀ d < 21, bit doms d = true → s.blockBusy d = false;
      (s.flag IST.BIST_CTL_BUSY = true → exec .fullBist s = .next s) ∧
      (s.flag IST.BIST_CTL_BUSY = false → (¬bench ∨ ¬clear) → Answers .fullBist s (fun t => t.fld IST.BIST_CTL_RESULT = 1 ∧
        t = { s with regs := t.regs })) ∧
      (s.flag IST.BIST_CTL_BUSY = false → bench → clear → Answers .fullBist s (fun t => t.flag IST.BIST_CTL_BUSY = true ∧
        t.flag IST.IST_STATUS_BIST_BUSY = true ∧ t.ist = { s.ist with bist := some doms }))) ∧
    (∀ failing balls, (s.ist.bist = none → exec (.bistComplete failing balls) s = .next s) ∧
      (∀ m, s.ist.bist = some m → bit m 0 = false → bit m 1 = false →
        let tested := fun (c u : Nat) => c < 9 ∧ u < istUnits c ∧ bit m (istDomain c u) = true
        let done := fun (n : Nat) (t : State) => t.ist.bist = none ∧ t.flag IST.BIST_CTL_BUSY = false ∧
          t.flag IST.IST_STATUS_BIST_BUSY = false ∧ t.fld IST.BIST_CTL_RESULT = n
        (failing = [] → balls = [] → Answers (.bistComplete failing balls) s (fun t => done 0 t ∧
          (∀ c u, tested c u → (t.istUnit c u).outcome = 1) ∧
          ∀ d, 2 ≤ d → d ≤ 20 → bit m d = true → s.domain d ≠ 0 → t.on d = false ∧
            ∀ k, regDomain (k % 2 ^ 40) = d → t.reg k = regReset k)) ∧
        (∀ c u row, tested c u → failing = [c + u * 2 ^ 4 + row * 2 ^ 12] → balls = [] → Answers (.bistComplete failing balls) s (fun t =>
          done 2 t ∧ (t.istUnit c u).outcome = 2 ∧ ∀ c' u', tested c' u' → (c', u') ≠ (c, u) → (t.istUnit c' u').outcome = 1)))) ∧
    Answers .istDisable s (fun t => t.flag IST.IST_CTL_EN = false ∧ t.ist.running = [] ∧ t.ist.boundary = s.ist.boundary ∧
      (∀ x ∈ s.ist.running, (t.istUnit x.cls x.unit).outcome = 3 ∧ (istCurrent x.cls, x.ends) ∈ t.ist.ballast))

/-- The host port (R562-R570): select, deselect and abort, the header's checks, WRITE, READ, STATUS, POP and PUSH with
their responses, HIF_FREE and HIF_ATTN_SET. -/
def Obligations.HostPort : Prop :=
  ∀ (s : State), s.on 2 = true →
    let command := fun (op : Nat) (h data : List Nat) => if op = 1 then Instr.hostWrite h data else if op = 2 then .hostRead h
      else if op = 3 then .hostStatus h else if op = 4 then .hostPop h else .hostPush h data
    let said := fun (st done : Nat) (payload : List Nat) (t : State) => t.hif.open_ = true ∧ t.hif.stall = none ∧
      t.hif.resp = ([st, 0] ++ leBytes done 2 ++ payload) ++ leBytes (crc32 ([st, 0] ++ leBytes done 2 ++ payload)) 4
    let saidAny := fun (st : Nat) (payload : List Nat) (t : State) => ∃ done < 65536, said st done payload t
    let failed := fun (f : Fld) (cause : Nat) (t : State) => Counted f s t ∧
      (getD s.firsts (HIF.HIF_CNT * 8) false = false → t.raised 84 cause)
    let recovery := s.flag PLT.BOOT_INFO_RECOVERY = true
    (s.hif.selected = true → exec .hostSelect s = .next s) ∧
    (s.hif.selected = false → Answers .hostSelect s (fun t => t.hif = { s.hif with selected := true, open_ := false, spent := false } ∧
      (s.on 19 = true → s.ist.running = [] → t = { s with hif := t.hif }) ∧
      (s.on 19 = false → s.ist.running = [] → bit (s.fld PLT.WAKE_EN_EN) 2 = false → t.plt = s.plt ∧ t.domain 19 = s.domain 19) ∧
      (s.domain 19 < 2 → bit (s.fld PLT.WAKE_EN_EN) 2 = true → s.fld PLT.DD_CTL_STATE = 0 → 19 ∈ t.plt.waking))) ∧
    (let done := s.hif.selected = true ∧ (s.hif.open_ = true ∨ s.hif.spent = true);
      (¬done → exec .hostDeselect s = .next s) ∧
      (done → s.hif.popped = none → exec .hostDeselect s =
        .next { s with hif := { s.hif with selected := false, open_ := false, spent := false } }) ∧
      (∀ r d, done → s.hif.popped = some (r, d, true) → s.isFree d.buf = false → s.isHead d.buf = true → d.len ≠ 0 →
        Answers .hostDeselect s (fun t => t.hif.selected = false ∧ t.hif.popped = none ∧ t.isFree d.buf = true))) ∧
    (∀ silent, let runs := s.hif.selected = true ∧ s.hif.spent = false
      (¬runs → exec (.hostAbort silent) s = .next s) ∧
      (runs → s.on 19 = true → Answers (.hostAbort silent) s (fun t => t.hif.selected = silent ∧ t.hif.spent = silent ∧
        t.hif.open_ = false ∧ t.hif.popped = none ∧ t.hif.stall = none ∧ failed HIF.HIF_CNT_ABORT 2 t ∧ t.mem = s.mem ∧
        ∀ r d st, s.hif.popped = some (r, d, st) → find t.hif.returned r = some d))) ∧
    (∀ op h data, 1 ≤ op → op ≤ 5 → let c := command op h data
      (s.hostReady = false ∨ h.length ≠ 8 → exec c s = .next s) ∧
      (s.hostReady = true → h.length = 8 →
        (hcrc (h.take 6) ≠ fieldLe h 6 2 → Answers c s (fun t => said 1 0 [] t ∧ failed HIF.HIF_CNT_CRC_ERR 0 t ∧ t.mem = s.mem)) ∧
        (hcrc (h.take 6) = fieldLe h 6 2 → badCmd h = true → (hOp h = op ∨ hOp h = 0 ∨ 5 < hOp h) →
          Answers c s (fun t => said 4 0 [] t ∧ failed HIF.HIF_CNT_BADCMD 3 t ∧ t.mem = s.mem)) ∧
        (hcrc (h.take 6) = fieldLe h 6 2 → badCmd h = false → hOp h = op → 4 ≤ op → recovery →
          Answers c s (fun t => said 7 0 [] t ∧ t.mem = s.mem ∧ t.tm = s.tm)))) ∧
    (∀ op h data, let c := command op h data
      let arg := hArg h
      let n := arg + 1
      let phys := s.hostPhys (hAddr h)
      s.hostReady = true → h.length = 8 → hcrc (h.take 6) = fieldLe h 6 2 → badCmd h = false → hOp h = op → ¬recovery →
      (∀ l x, op = 1 → l.length = 4 * n → (∀ y ∈ l, y < 256) → data = l ++ x → x.length = 4 →
        (crc32 l ≠ fieldLe x 0 4 → Answers c s (fun t => said 2 0 [] t ∧ failed HIF.HIF_CNT_CRC_ERR 1 t ∧ t.mem = s.mem)) ∧
        (crc32 l = fieldLe x 0 4 → regionOf phys = .flacon → sameRegion phys (4 * n) = true → Answers c s (fun t =>
          said 0 n [] t ∧ t.bytes phys (4 * n) = l ∧ MemOnly phys (4 * n) s t)) ∧
        (crc32 l = fieldLe x 0 4 → regionOf phys = .unmapped → Answers c s (fun t => said 3 0 [] t ∧ t.mem = s.mem))) ∧
      (op = 2 → regionOf phys = .flacon → sameRegion phys (4 * n) = true → Answers c s (fun t =>
        said 0 n (s.bytes phys (4 * n)) t ∧ t.mem = s.mem)) ∧
      (op = 2 → regionOf phys = .unmapped → Answers c s (fun t => said 3 0 (List.replicate (4 * n) 0xFF) t ∧ t.mem = s.mem)) ∧
      (op = 3 → Answers c s (fun t => saidAny 0 (leBytes s.hifAttn 4) t ∧ t.mem = s.mem)) ∧
      (op = 4 → let stream := bit (hCmd h) 4
        let words := fun (d : Desc) => d.words.flatMap (fun w => leBytes w.toNat 4)
        let gives := fun (d : Desc) (t : State) => t.hif.popped = some (arg, d, stream) ∧
          saidAny 0 (words d ++ if stream = true ∧ d.len ≠ 0 then s.chainBytes d.buf d.len ++ List.replicate (pad4 d.len - d.len) 0 else []) t
        (s.ringOpen HIF.HIF_RINGS_OUT_LO HIF.HIF_RINGS_OUT_HI arg = false → Answers c s (fun t => said 8 0 [] t ∧ t.tm = s.tm)) ∧
        (s.ringOpen HIF.HIF_RINGS_OUT_LO HIF.HIF_RINGS_OUT_HI arg = true →
          (∀ d, find s.hif.returned arg = some d → Answers c s (fun t => gives d t ∧ find t.hif.returned arg = none ∧ t.tm = s.tm ∧
            Counted HIF.HIF_CNT_RETURNED s t)) ∧
          (find s.hif.returned arg = none → s.shallow arg = true → s.tm.held = [] → (s.ring arg).ptrFault = 0 →
            s.flag (TM.RING_CTL_EN arg) = true →
            ((s.ring arg).q = [] → Answers c s (fun t => saidAny 5 (words idleItem) t ∧ t.hif.popped = s.hif.popped)) ∧
            (∀ e rest, (s.ring arg).q = e :: rest → s.isFree e.d.buf = false → Answers c s (fun t => (t.ring arg).q = rest ∧ gives e.d t))))) ∧
      (∀ l x, op = 5 → let d := pushDesc l
        let len := d.len
        let clean : Desc := { d with w0 := BitVec.ofNat 32 (putBit d.w0.toNat 4 false) }
        let open_ := s.ringOpen HIF.HIF_RINGS_IN_LO HIF.HIF_RINGS_IN_HI arg = true
        (¬open_ → Answers c s (fun t => said 8 0 [] t ∧ t.tm = s.tm ∧ t.mem = s.mem)) ∧
        (open_ → l.length = 16 + pad4 len → (∀ y ∈ l, y < 256) → data = l ++ x → x.length = 4 →
          (crc32 l ≠ fieldLe x 0 4 → Answers c s (fun t => said 2 0 [] t ∧ failed HIF.HIF_CNT_CRC_ERR 1 t ∧ t.tm = s.tm)) ∧
          (crc32 l = fieldLe x 0 4 →
            (d.type = 0xF ∨ 4096 < len → Answers c s (fun t => said 4 0 [] t ∧ t.tm = s.tm ∧ t.mem = s.mem)) ∧
            (d.type ≠ 0xF → len = 0 → (s.ring arg).ptrFault = 0 →
              (s.hasRoom arg = false → Answers c s (fun t => said 6 0 [] t ∧ (t.ring arg).q = (s.ring arg).q)) ∧
              (s.hasRoom arg = true → Answers c s (fun t => saidAny 0 [] t ∧ Pushed arg clean s t))) ∧
            (d.type ≠ 0xF → 0 < len → len ≤ 4096 → s.fld TM.POOL_STATUS_FREE ≤ s.classThreshold 0 →
              Answers c s (fun t => said 6 0 [] t ∧ t.tm = s.tm ∧ t.mem = s.mem)) ∧
            (∀ b, d.type ≠ 0xF → 0 < len → len ≤ 256 → s.classThreshold 0 < s.fld TM.POOL_STATUS_FREE → s.pickBuf = some b →
              (s.ring arg).ptrFault = 0 → s.hasRoom arg = true → s.shallow arg = true → (s.ring arg).tail < s.depth arg → Answers c s (fun t => saidAny 0 [] t ∧
                Pushed arg { clean with w1 := BitVec.ofNat 32 (putBits d.w1.toNat 13 0 b) } s t ∧
                t.chainBytes b len = slice l 16 (16 + len))))))) ∧
    (∀ (b : Fin 16384), s.on 19 = true → s.isFree b = false → s.isHead b = true →
      Answers (.hifFreeWrite b) s (fun t => t.isFree b = true ∧ ∀ a, regionOf a ≠ .engine → t.byte a = s.byte a)) ∧
    Answers .hifAttnSetWrite s (fun t => t.flag HIF.HIF_ATTN_SW = true ∧ t = { s with regs := t.regs } ∧
      ∀ k, k ≠ HIF.HIF_ATTN → t.reg k = s.reg k)

/-- Ethernet (R572-R578): frames received and dropped, frames sent with their ends and completions, the link, PAUSE,
EN, MODE and the MDIO master. -/
def Obligations.EthernetPorts : Prop :=
  ∀ (s : State) (q : Fin 2), s.on 2 = true → s.on 18 = true →
    let p := s.ethPort q
    let cfgLen := s.fld (ETH.PORT_CFG_MAX_LEN q)
    (∀ (l : List Nat) (stamp : Nat), let c := Instr.ethRxFrame q l stamp
      let runs := s.ethEn q = true ∧ s.ethUp q = true
      let drops := Answers c s (fun t => Counted (ETH.CNT_RX_DROP q) s t ∧ t.tm = s.tm ∧ t.mem = s.mem)
      let t0 : Int := ((stamp : Int) * 65536 - signed 32 (s.regN (ACC.INGRESS q))) / 65536
      let ring := s.ethRing q l
      (¬runs → exec c s = .next s) ∧
      (runs → s.ethSound q l = false → drops) ∧
      (runs → s.ethSound q l = true → s.isPause q l = true → drops ∧ (s.flag (ETH.PORT_CFG_PAUSE_EN q) = true → Answers c s (fun t =>
        t.flag (ETH.PORT_STATUS_PAUSED q) = decide (fieldBe l 16 2 ≠ 0) ∧
        (t.ethPort q).pause = s.acc.ltb + s.quantaNs q (fieldBe l 16 2)))) ∧
      (runs → s.ethSound q l = true → s.isPause q l = false → s.ethMine q l = false → drops) ∧
      (runs → s.ethSound q l = true → s.isPause q l = false → s.ethMine q l = true →
        (s.fld TM.POOL_STATUS_FREE ≤ s.classThreshold 0 → drops) ∧
        (∀ b, s.classThreshold 0 < s.fld TM.POOL_STATUS_FREE → s.pickBuf = some b → l.length ≤ 256 → (∀ x ∈ l, x < 256) →
          s.takes ring → s.shallow ring = true → (s.ring ring).tail < s.depth ring → Answers c s (fun t =>
            Counted (ETH.CNT_RX_FRAMES q) s t ∧ Pushed ring (rxeth q l.length b t0) s t ∧ t.chainBytes b l.length = l)) ∧
        (∀ b, s.classThreshold 0 < s.fld TM.POOL_STATUS_FREE → s.pickBuf = some b → l.length ≤ 256 → s.hasRoom ring = false →
          (s.ring ring).ptrFault = 0 → Answers c s (fun t => (t.ring ring).q = (s.ring ring).q ∧ t.isFree b = true ∧
            t.fld (ETH.CNT_RX_FRAMES q) = s.fld (ETH.CNT_RX_FRAMES q) ∧ Counted (TM.RING_CNT_A_OVERFLOW ring) s t)))) ∧
    (∀ sfd, let c := Instr.ethTxFrame q sfd
      let ring := s.fld (ETH.PORT_CFG_TX_RING q)
      (s.ethMayTx q = false → exec c s = .next s) ∧
      (s.ethMayTx q = true → s.shallow ring = true → s.tm.held = [] → (s.ring ring).ptrFault = 0 → s.flag (TM.RING_CTL_EN ring) = true →
        ((s.ring ring).q = [] → Answers c s (fun t => t.eth = s.eth ∧ (t.ring ring).q = [])) ∧
        (∀ e rest, (s.ring ring).q = e :: rest → s.isFree e.d.buf = false → s.isHead e.d.buf = true → e.d.len ≠ 0 → let d := e.d
          let bad := d.type ≠ 3 ∨ d.poison = true ∨ d.len < 64 ∨ cfgLen < d.len
          (bad → (d.type ≠ 3 ∨ bit d.w0.toNat 7 = false) → Answers c s (fun t => (t.ring ring).q = rest ∧ t.isFree d.buf = true ∧
            Counted (ETH.CNT_TX_TX_DROP q) s t ∧ t.eth = s.eth)) ∧
          (¬bad → bit d.w0.toNat 8 = false → bit (s.fld ACC.PTP_CFG_ONESTEP) q = false → Answers c s (fun t =>
            let m := (s.chainBytes d.buf d.len).take (d.len - 4)
            (t.ring ring).q = rest ∧ (t.ethPort q).tx = some (d, m ++ leBytes (crc32 m) 4, sfd)))))) ∧
    (p.tx = none → exec (.ethTxEnd q) s = .next s) ∧
    (∀ d l sfd, p.tx = some (d, l, sfd) → let ns := (s.egress q sfd / 65536)
      let ring := bits d.w1.toNat 21 16
      (bit d.w0.toNat 7 = false → s.isFree d.buf = false → s.isHead d.buf = true → d.len ≠ 0 → Answers (.ethTxEnd q) s (fun t =>
        (t.ethPort q).tx = none ∧ Counted (ETH.CNT_TX_FRAMES q) s t ∧ t.isFree d.buf = true)) ∧
      (bit d.w0.toNat 7 = true → s.takes ring → Answers (.ethTxEnd q) s (fun t => (t.ethPort q).tx = none ∧ Counted (ETH.CNT_TX_FRAMES q) s t ∧
        Pushed ring (completion 5 0 d.len d.buf (q + bits ns 41 32 * 2 ^ 6) (bits ns 31 0) d.w3.toNat) s t)) ∧
      (bit d.w0.toNat 7 = true → s.hasRoom ring = false → (s.ring ring).ptrFault = 0 → Answers (.ethTxEnd q) s (fun t =>
        (t.ring ring).q = (s.ring ring).q ∧ ∃ h ∈ t.tm.held, h.ring = ring ∧ h.source = 5 ∧ h.unit = q))) ∧
    (∀ up err, let wrong := err && !s.flag (ETH.PORT_CFG_MODE q)
      let on := up && !wrong
      Answers (.ethLinkChange q up err) s (fun t => t.flag (ETH.PORT_STATUS_LINK q) = on ∧ t.flag (ETH.PORT_STATUS_SPEEDERR q) = wrong ∧
        (on ≠ s.ethUp q → t.raised 85 (q + 2 * b2n on + 4 * b2n wrong)) ∧ (on = false → s.ethUp q = true → (t.ethPort q).tx = none))) ∧
    (let ends := s.flag (ETH.PORT_STATUS_PAUSED q) = true ∧ p.pause ≤ s.acc.ltb;
      (¬ends → exec (.pauseEnd q) s = .next s) ∧
      (ends → Answers (.pauseEnd q) s (fun t => t.flag (ETH.PORT_STATUS_PAUSED q) = false ∧ t = { s with regs := t.regs }))) ∧
    Answers (.ethDisable q) s (fun t => t.ethEn q = false ∧ (∀ x < 2, x ≠ q.val → t.ethEn x = s.ethEn x) ∧
      t = { s with regs := t.regs } ∧ (p.tx = none → bit (t.fld ETH.ETH_CTL_DRAINED) q = true) ∧
      (p.tx ≠ none → t.fld ETH.ETH_CTL_DRAINED = s.fld ETH.ETH_CTL_DRAINED)) ∧
    (∀ m, let old := s.flag (ETH.PORT_CFG_MODE q)
      let other := s.flag (ETH.PORT_CFG_MODE (1 - q.val))
      let refused := s.ethEn q = true ∨ ((old || other) ≠ (m || other) ∧ s.ethEn (1 - q.val) = true)
      (m = old → exec (.ethModeWrite q m) s = .next s) ∧
      (m ≠ old → refused → Answers (.ethModeWrite q m) s (fun t => t.flag ETH.ETH_CTL_MODEREJ = true ∧ t.flag (ETH.PORT_CFG_MODE q) = old)) ∧
      (m ≠ old → ¬refused → Answers (.ethModeWrite q m) s (fun t => t.flag (ETH.PORT_CFG_MODE q) = m ∧
        t.flag ETH.ETH_CTL_MODEREJ = s.flag ETH.ETH_CTL_MODEREJ))) ∧
    (∀ (v : Word), let reads := if bit v.toNat 28 then decide (2 ≤ bits v.toNat 27 26) else decide (bits v.toNat 27 26 = 2)
      Answers (.mdioFrame v) s (fun t => t.flag ETH.MDIO_CMD_BUSY = true ∧ t.fld ETH.MDIO_CMD_DIV = max 2 (bits v.toNat 25 18) ∧
        t.fld ETH.MDIO_CMD_PHYAD = bits v.toNat 14 10 ∧ t.fld ETH.MDIO_CMD_REGAD = bits v.toNat 9 5 ∧
        t.eth.mdio = if s.flag ETH.MDIO_CMD_BUSY then s.eth.mdio else some reads)) ∧
    (∀ ack (data : BitVec 16), (s.flag ETH.MDIO_CMD_BUSY = false → exec (.mdioFrameEnd ack data) s = .next s) ∧
      (s.flag ETH.MDIO_CMD_BUSY = true → Answers (.mdioFrameEnd ack data) s (fun t => t.flag ETH.MDIO_CMD_BUSY = false ∧
        (t.flag ETH.MDIO_CMD_NOACK = true ↔ s.eth.mdio = some true ∧ ack = false) ∧
        t.fld ETH.MDIO_DATA_DATA = if s.eth.mdio = some true then data.toNat else s.fld ETH.MDIO_DATA_DATA)))

/-- The DRAM controller and the pins (R579-R584, R588-R591): training, self-refresh, the MR4 reading, a write of PIN_n
and an input edge. -/
def Obligations.DramAndPins : Prop :=
  ∀ (s : State), s.on 2 = true →
    let state := s.fld DDR.DDR_STATUS_STATE
    (s.on 17 = true →
      (∀ temp, let fast := s.ddr.trained = true ∧ (temp - s.ddr.temp).natAbs ≤ 10 ∧ s.ddr.refreshing = true ∧ s.flag DDR.DDR_EXP_COLD = false
        (state = 1 → exec (.ddrInit temp) s = .next s) ∧
        (state ≠ 1 → Answers (.ddrInit temp) s (fun t => t.fld DDR.DDR_STATUS_STATE = 1 ∧ t.flag DDR.DDR_STATUS_KEPT = false ∧
          t.flag DDR.DDR_STATUS_SELFREF = false ∧ t.ddr.since = s.acc.ltb ∧ (t.ddr.fast = true ↔ fast) ∧ (fast → t.mem = s.mem)))) ∧
      (∀ ok step temp, let c := Instr.ddrTrainingEnd ok step temp
        (state ≠ 1 → exec c s = .next s) ∧
        (state = 1 → ok = true → Answers c s (fun t => t.fld DDR.DDR_STATUS_STATE = 2 ∧ t.flag DDR.DDR_STATUS_KEPT = s.ddr.fast ∧
          t.ddr.trained = true ∧ t.ddr.temp = temp ∧ t.mem = s.mem)) ∧
        (state = 1 → ok = false → Answers c s (fun t => t.fld DDR.DDR_STATUS_STATE = 3 ∧ t.fld DDR.DDR_STATUS_STEP = step ∧
          t.raised 86 (2 + step * 2 ^ 4)))) ∧
      Answers .ddrSelfRefresh s (fun t => t.flag DDR.DDR_CTL_SR = true ∧ t.mem = s.mem ∧
        (state = 2 → t.flag DDR.DDR_STATUS_SELFREF = true ∧ t.ddr.refreshing = true) ∧ (state ≠ 2 → t.ddr = s.ddr)) ∧
      (let idle := state = 2 ∧ s.flag DDR.DDR_CTL_SR_AUTO = true ∧ s.flag DDR.DDR_CTL_SR = true ∧ s.flag DDR.DDR_STATUS_SELFREF = false ∧
          s.ddr.accessed + s.fld DDR.DDR_CFG_SR_IDLE * 1000 ≤ s.acc.ltb;
        (¬idle → exec .ddrSrIdle s = .next s) ∧
        (idle → Answers .ddrSrIdle s (fun t => t.flag DDR.DDR_STATUS_SELFREF = true ∧ t.ddr.refreshing = true ∧ t.mem = s.mem))) ∧
      (∀ hot, (state ≠ 2 ∨ hot = false → exec (.ddrMr4Poll hot) s = .next s) ∧
        (state = 2 → hot = true → Answers (.ddrMr4Poll hot) s (fun t => t.raised 86 3 ∧ t.ddr = s.ddr)))) ∧
    (∀ (n : Fin 24) (v : Word), Answers (.gpioPinWrite n v) s (fun t => t = { s with regs := t.regs } ∧
      t.flag (GPIO.PIN_OUT n) = bit v.toNat 3 ∧ t.flag (GPIO.PIN_OD n) = bit v.toNat 2 ∧ t.fld (GPIO.PIN_EDGE n) = bits v.toNat 6 5 ∧
      t.flag (GPIO.PIN_WAKE n) = bit v.toNat 7 ∧ t.flag (GPIO.PIN_WAKE_POL n) = bit v.toNat 8 ∧
      t.fld (GPIO.PIN_FUNC n) = (if 14 ≤ n.val ∧ v.toNat % 4 = 3 then s.fld (GPIO.PIN_FUNC n) else v.toNat % 4) ∧
      ∀ k, k ≠ GPIO.PIN n → t.reg k = s.reg k)) ∧
    (∀ (n : Fin 24) rising, let moved := bit (s.fld GPIO.GPIO_IN_IN) n ≠ rising
      let wanted := bit (s.fld (GPIO.PIN_EDGE n)) (if rising then 0 else 1) = true
      let evts := s.fld GPIO.GPIO_EVT_EVT
      (¬moved → exec (.gpioEdge n rising) s = .next s) ∧
      (moved → Answers (.gpioEdge n rising) s (fun t => bit (t.fld GPIO.GPIO_IN_IN) n = rising ∧
        (wanted → t.fld GPIO.GPIO_EVT_EVT = putBit evts n true ∧ (evts = 0 → t.raised 87 (2 ^ n.val))) ∧
        (¬wanted → t.fld GPIO.GPIO_EVT_EVT = evts ∧ t.evt = s.evt))))

/-- The event router (R598, R600-R611): a firing served, counted, logged, held off and routed; deliveries at cores;
hold-off ends; the host event queue; the log's clear; held firings; and the firings that software makes. -/
def Obligations.EventRouter : Prop :=
  ∀ (s : State), s.on 2 = true →
    (s.evt.queue = [] → exec .eventFiring s = .next s) ∧
    (∀ f rest, s.evt.queue = f :: rest → f.event < 96 → f.arg < 2 ^ 32 → (∀ g ∈ rest, g.event ≠ f.event) → let n := f.event
      let cls := s.fld (EVT.ROUTE_SEV n)
      let mask := s.pair (EVT.CORES_LO n) (EVT.CORES_HI n)
      let one := s.flag (EVT.ROUTE_ONE n) = true
      let en := s.flag (EVT.ROUTE_EN n) = true
      let hold := s.fld (EVT.ROUTE_HOLDOFF n)
      let can := fun (c : Nat) => c < 64 ∧ bit mask c = true ∧ s.on (coreDomain c) = true
      let last := find s.evt.lastOne n
      let wraps := last = none ∨ ∃ l, last = some l ∧ ∀ d, can d → d ≤ l
      let isNext := fun (c : Nat) => can c ∧ ((∃ l, last = some l ∧ l < c ∧ ∀ d, can d → l < d → c ≤ d) ∨ (wraps ∧ ∀ d, can d → c ≤ d))
      let free := find s.evt.holdoff n = none
      let mgt0 := s.mgtFirst n f.arg = true
      let logs := f.logged = false ∧ n ≠ 2 ∧ n ≠ 8 ∧ n ≠ 89 ∧ s.fld EVT.EVT_CTL_LOG_MIN ≤ cls
      Answers .eventFiring s (fun t => Counted (EVT.STAT_FIRED n) s t ∧ t.regN (EVT.LAST_ARG n) = f.arg ∧
        (∀ g ∈ rest, g.event ≠ 2 → g.event ≠ 3 → g.event ≠ 5 → g ∈ t.evt.queue) ∧
        (¬logs → t.evt.log = s.evt.log) ∧
        (logs → s.evt.log = [] → t.evt.log = [⟨n + cls * 2 ^ 8 + 2 ^ 12, f.arg, 0, s.ltbMs % 2 ^ 32⟩] ∧ t.raised 2 (cls * 2 ^ 8 + 2 ^ 12)) ∧
        (¬en → t.evt.holdoff = s.evt.holdoff ∧ t.evt.hostQ = s.evt.hostQ ∧
          t.evt.deliveries = s.evt.deliveries ++ if mgt0 then [⟨n, f.arg, 64⟩] else []) ∧
        (∀ t0 held, en → find s.evt.holdoff n = some (t0, held) → (s.acc.ltb < t0 ∨ held ≠ none) →
          find t.evt.holdoff n = some (t0, some f.arg) ∧ Counted (EVT.STAT_COAL n) s t ∧ t.evt.hostQ = s.evt.hostQ ∧
          t.evt.deliveries = s.evt.deliveries ++ if mgt0 then [⟨n, f.arg, 64⟩] else []) ∧
        (en → free →
          (hold ≠ 0 → find t.evt.holdoff n = some (s.acc.ltb + hold * 10000, none)) ∧ (hold = 0 → t.evt.holdoff = s.evt.holdoff) ∧
          (¬one → t.evt.deliveries = s.evt.deliveries ++ (if mgt0 then [⟨n, f.arg, 64⟩] else []) ++
            (allBelow 64 (bit mask)).map (fun c => ⟨n, f.arg, c⟩) ++ if s.flag (EVT.ROUTE_MGT n) = true ∧ ¬mgt0 then [⟨n, f.arg, 64⟩] else []) ∧
          (∀ c, one → isNext c → (⟨n, f.arg, c⟩ : Delivery) ∈ t.evt.deliveries ∧ find t.evt.lastOne n = some c) ∧
          (one → (∀ c, ¬can c) → Counted EVT.EVT_CNT_NODEST s t) ∧
          (s.flag (EVT.ROUTE_HOST n) = false → t.evt.hostQ = s.evt.hostQ) ∧
          (s.flag (EVT.ROUTE_HOST n) = true → s.evt.hostQ.length < 32 → t.evt.hostQ = s.evt.hostQ ++ [(n, f.arg)] ∧
            t.flag HIF.HIF_ATTN_EVT = true) ∧
          (s.flag (EVT.ROUTE_HOST n) = true → 32 ≤ s.evt.hostQ.length → t.evt.hostQ = s.evt.hostQ ∧ Counted EVT.HOST_EVQ_LOST s t ∧
            (s.evt.hostLostRaised = false → t.raised 5 (min (s.fld EVT.HOST_EVQ_LOST + 1) 63)))))) ∧
    (∀ i, let c := Instr.eventDelivery i
      (s.evt.deliveries[i]? = none → exec c s = .next s) ∧
      (∀ d, s.evt.deliveries[i]? = some d → let core := s.core d.core
        let after := ∃ j < i, ∃ e, s.evt.deliveries[j]? = some e ∧ e.event = d.event ∧ e.core = d.core
        let slots := (s.boundSlots 1 d.event).filter (fun e => e.1 = d.core)
        let gone := fun (t : State) => t.evt.deliveries = s.evt.deliveries.eraseIdx i
        (after → exec c s = .next s) ∧
        (¬after → (slots = [] ∨ s.on (coreDomain d.core) = false ∨ core.run = .held) → Answers c s (fun t => gone t ∧ t.cores = s.cores ∧
          Counted EVT.EVT_CNT_NOBIND s t)) ∧
        (∀ k, k < 16 → ¬after → slots = [(d.core, k)] → s.on (coreDomain d.core) = true → core.run ≠ .held →
          (core.pend.getLsbD k = true → Answers c s (fun t => gone t ∧ t.cores = s.cores ∧ Counted (mergedOf d.core) s t)) ∧
          (core.pend.getLsbD k = false → Answers c s (fun t => gone t ∧ (t.core d.core).pend.getLsbD k = true ∧
            getD (t.core d.core).slotArg k 0#32 = BitVec.ofNat 32 d.arg ∧ getD (t.core d.core).slotTime k 0#64 = s.now ∧
            (∀ j < 16, j ≠ k → (t.core d.core).pend.getLsbD j = core.pend.getLsbD j) ∧ ∀ x, x ≠ d.core → t.core x = s.core x))))) ∧
    (∀ (n : Fin 96), let h := find s.evt.holdoff n
      let hold := s.fld (EVT.ROUTE_HOLDOFF n)
      (h = none → exec (.holdoffExpire n) s = .next s) ∧
      (∀ t0 held, h = some (t0, held) → (s.acc.ltb < t0 → exec (.holdoffExpire n) s = .next s) ∧
        (t0 ≤ s.acc.ltb → held = none → Answers (.holdoffExpire n) s (fun t => t.evt = { s.evt with holdoff := eraseKey s.evt.holdoff n })) ∧
        (∀ arg, t0 ≤ s.acc.ltb → held = some arg → s.flag (EVT.ROUTE_ONE n) = false → hold ≠ 0 → Answers (.holdoffExpire n) s (fun t =>
          find t.evt.holdoff n = some (s.acc.ltb + hold * 10000, none) ∧
          ∀ c < 64, bit (s.pair (EVT.CORES_LO n) (EVT.CORES_HI n)) c = true → (⟨n, arg, c⟩ : Delivery) ∈ t.evt.deliveries)))) ∧
    Answers .hostEvqRead s (fun t => t.fld EVT.HOST_EVQ_LOST = 0 ∧ t.evt.hostLostRaised = false ∧ t.evt.hostQ = s.evt.hostQ.tail ∧
      (∀ n arg rest, s.evt.hostQ = (n, arg) :: rest → t.regN EVT.HOST_EVQ_ARG = arg % 2 ^ 32) ∧
      t.flag HIF.HIF_ATTN_EVT = s.flag HIF.HIF_ATTN_EVT) ∧
    exec .logClear s = .next { s with evt := { s.evt with log := [] } } ∧
    (s.evt.latches.Pairwise (fun x y => x.1 < y.1) → Answers .heldRelease s (fun t => t.evt.latches = [] ∧
      t.evt.queue = s.evt.queue ++ (s.evt.latches.filter (fun e => !s.evt.queue.any (fun f => f.event = e.1))).map (fun e => ⟨e.1, e.2, true⟩))) ∧
    (∀ (v : Word), Answers (.evtSoft0Write v) s (fun t => t.raised 6 v.toNat) ∧ Answers (.evtSoft1Write v) s (fun t => t.raised 7 v.toNat) ∧
      (s.flag EVT.EXPERT_UNLOCK_UNLOCKED = false ∨ bit v.toNat 31 = false ∨ 96 ≤ bits v.toNat 6 0 →
        Answers (.evtExpFire v) s (fun t => t.evt = s.evt)) ∧
      (s.flag EVT.EXPERT_UNLOCK_UNLOCKED = true → bit v.toNat 31 = true → bits v.toNat 6 0 < 96 →
        Answers (.evtExpFire v) s (fun t => t.raised (bits v.toNat 6 0) (bits v.toNat 23 8))))

/-- Register accesses (R3-R7, R10, R12, R16, R39, R40, R450): who may write, width and alignment, stopped domains,
what a write and a read do to each type of field of a register whose access has no behaviour of its own, WINDOW_LOCK
and X_USER. -/
def Obligations.RegisterAccess : Prop :=
  ∀ (s : State) (m : Fin 67) (a : BitVec 36) (v : BitVec 64), s.on 2 = true →
    let x := a.toNat
    let inWindow := ∃ w, regionOf x = .window w
    let acts := s.masterActs m = true
    let d := regDomain x
    let logged := fun (t : State) => s.evt.log = [] →
      t.evt.log = [⟨0x7F + 2 * 2 ^ 8 + 2 * 2 ^ 12, x % 2 ^ 32, x / 2 ^ 32 % 16 + m * 2 ^ 4 + 2 ^ 11, s.ltbMs % 2 ^ 32⟩]
    let untouched := fun (t : State) => t.mem = s.mem ∧ t.cores = s.cores ∧ ∀ k, k / 0x10000 ≠ 0x4012 → k / 0x10000 ≠ 0x400F → t.reg k = s.reg k
    let u := v.toNat % 2 ^ 32
    let key := keyOf m x
    (¬acts ∨ ¬inWindow → (∀ size, exec (.registerWrite m a size v) s = .next s) ∧ exec (.rcFieldRead m a) s = .next s) ∧
    (acts → inWindow → (∀ size, mayAccess m x true = false → Answers (.registerWrite m a size v) s (fun t => untouched t ∧ logged t)) ∧
      (∀ (size : Fin 4), mayAccess m x true = true → size.val < 3 → (size.val ≠ 2 ∨ x % 4 ≠ 0) → exec (.registerWrite m a size v) s = .next s) ∧
      (mayAccess m x true = true → x % 4 = 0 → s.answers d = false → s.autoWake d = false →
        Answers (.registerWrite m a 2 v) s (fun t => untouched t ∧ t.raised 8 (d + 2 ^ 5 + m * 2 ^ 7) ∧
          (s.flag PLT.OFF_LOG_VALID = false → t.regN PLT.OFF_LOG = 2 ^ 31 + m * 2 ^ 14 + 2 ^ 12 + d))) ∧
      (mayAccess m x true = true → x % 4 = 0 → s.answers d = true → x % 0x10000 ≠ 0x7FFC → isFilt x = false →
        (findRow x = none → exec (.registerWrite m a 2 v) s = .next s) ∧
        (∀ row, findRow x = some row → find (windowWrites (x / 0x10000 - 0x4000) m u) row.base = none →
          Answers (.registerWrite m a 2 v) s (fun t => t = { s with regs := t.regs } ∧
            (∀ k, k ≠ key → k ≠ (rejectedOf x).addr → t.reg k = s.reg k) ∧
            (t.flag (rejectedOf x) = true ↔ s.flag (rejectedOf x) = true ∨ (hasEx row.fields = true ∧ s.flag (unlockedOf x) = false)) ∧
            ∀ f ∈ row.fields, let old := bits (s.regN key) f.hi f.lo
              let new := bits u f.hi f.lo
              let now := bits (t.regN key) f.hi f.lo
              (f.ty = .ro ∨ f.ty = .rc ∨ f.ty = .wo → now = old) ∧ (f.ty = .rw → now = new) ∧
              (f.ty = .rwl → now = if s.flag (lockOf x) then old else new) ∧ (f.ty = .ex → now = if s.flag (unlockedOf x) then new else old) ∧
              (f.ty = .w1c → ∀ i, bit now i = (bit old i && !bit new i)) ∧ (f.ty = .w1s → ∀ i, bit now i = (bit old i || bit new i))))) ∧
      (x % 4 = 0 → s.answers d = true → x ∉ [PLT.LC_NONCE 0, ACC.TIME_NS, ACC.LTB_LO, RTC.NOW_SUBSEC, EVT.HOST_EVQ] →
        (findRow x = none → exec (.rcFieldRead m a) s = .next s) ∧
        (∀ row, findRow x = some row → row.base ≠ SEQ.CORE_STATE 0 → Answers (.rcFieldRead m a) s (fun t => t = { s with regs := t.regs, firsts := t.firsts } ∧
          (∀ k, k ≠ key → t.reg k = s.reg k) ∧ (∀ i < 8, getD t.firsts (key * 8 + i) false = false) ∧
          ∀ f ∈ row.fields, bits (t.regN key) f.hi f.lo = if f.ty = .rc then 0 else bits (s.regN key) f.hi f.lo)))) ∧
    (∀ (w : Fin 20), let lock : Nat := 0x40007FF8 + w * 0x10000
      acts → mayAccess m lock true = true → s.answers (regDomain lock) = true → Answers (.windowLockSet m w) s (fun t =>
        t.flag (lockOf lock) = true ∧ t = { s with regs := t.regs } ∧ ∀ k, k ≠ lock → t.reg k = s.reg k)) ∧
    (∀ (p : Fin 3) (i : Fin 7) (z : Word), let r := calRegister p i
      let trim := i.val = 6
      let user : Int := if trim then signed 12 (bits z.toNat 27 16) else signed 9 (bits z.toNat 8 0)
      let at_ := if trim then 0x5040 else 0x5010 + 16 * p.val + 2 * i
      acts → mayAccess m r true = true → s.answers (regDomain r) = true → s.mem' 0x5000 4 = 0x55464331 →
        Answers (.calUserWrite m p i z) s (fun t => t.mem' at_ 2 = unsigned 16 user ∧ MemOnly at_ 2 s t ∧
          (¬trim → t.regN r = calWord (s.factoryCal p i) user) ∧
          (trim → bits (t.regN r) 27 16 = unsigned 12 user ∧ bits (t.regN r) 10 0 = unsigned 11 (clampI (-512) 512 (s.factoryTrim + user)))))
end

