-- ==== Sys2Proof/Laws/Store.lean ====
section
/-!
SUPPORT. Laws of sparse maps and bit fields: a read after a write, the canonical form kept, fields of a word.
-/
namespace Sys2Proof.Machine

open Sys2Proof

theorem find_insertKey {α : Type} (m : List (Nat × α)) (k : Nat) (v : α) (j : Nat) :
    find (insertKey m k v) j = if j = k then some v else find m j := by
  induction m with
  | nil =>
    by_cases h : j = k
    · simp [insertKey, find, h]
    · simp [insertKey, find, h, Ne.symm h]
  | cons e m ih =>
    obtain ⟨i, u⟩ := e
    unfold insertKey
    split
    · by_cases h : j = k
      · subst h; simp [find]
      · simp [find, h, Ne.symm h]
    · split
      · subst k
        by_cases h : j = i
        · subst h; simp [find]
        · simp [find, h, Ne.symm h]
      · rename_i h1 h2
        simp only [find, ih]
        by_cases h : i = j
        · subst h; simp [Ne.symm h2]
        · simp [h]

theorem find_eraseKey {α : Type} (m : List (Nat × α)) (k j : Nat) :
    find (eraseKey m k) j = if j = k then none else find m j := by
  induction m with
  | nil => simp [eraseKey, find]
  | cons e m ih =>
    obtain ⟨i, u⟩ := e
    unfold eraseKey at *
    by_cases h : i = k
    · subst h
      simp only [List.filter, ne_eq, not_true, decide_false, ih, find]
      by_cases h' : j = i
      · simp [h']
      · simp [h', Ne.symm h']
    · simp only [List.filter, ne_eq, h, not_false_eq_true, decide_true, find, ih]
      by_cases h' : i = j
      · subst h'; simp [h]
      · simp [h']

/-- A read after a write: the value written, or what was there. -/
@[simp] theorem getD_putD {α : Type} [DecidableEq α] (m : List (Nat × α)) (k : Nat) (v d : α) (j : Nat) :
    getD (putD m k v d) j d = if j = k then v else getD m j d := by
  unfold putD getD
  by_cases h : v = d
  · subst h
    rw [if_pos rfl, find_eraseKey]
    by_cases h' : j = k <;> simp [h']
  · rw [if_neg h, find_insertKey]
    by_cases h' : j = k <;> simp [h']

/-- A read of another key, whatever it reads as by default. -/
theorem getD_putD_ne {α : Type} [DecidableEq α] (m : List (Nat × α)) (k : Nat) (v d e : α) (j : Nat) (h : j ≠ k) :
    getD (putD m k v d) j e = getD m j e := by
  unfold putD getD
  split
  · rw [find_eraseKey, if_neg h]
  · rw [find_insertKey, if_neg h]

theorem getD_putD_self {α : Type} [DecidableEq α] (m : List (Nat × α)) (k : Nat) (v d : α) :
    getD (putD m k v d) k d = v := by simp

/-! ### The canonical form -/

theorem sorted_tail {α : Type} {e : Nat × α} {m : List (Nat × α)} (h : sorted (e :: m) = true) : sorted m = true := by
  cases m with
  | nil => rfl
  | cons a m => simp only [sorted, Bool.and_eq_true] at h; exact h.2

theorem sorted_iff {α : Type} (e : Nat × α) (m : List (Nat × α)) :
    sorted (e :: m) = true ↔ (∀ x ∈ m, e.1 < x.1) ∧ sorted m = true := by
  induction m generalizing e with
  | nil => simp [sorted]
  | cons a m ih =>
    simp only [sorted, Bool.and_eq_true, decide_eq_true_eq]
    constructor
    · rintro ⟨h, hs⟩
      refine ⟨?_, hs⟩
      intro x hx
      rcases List.mem_cons.1 hx with rfl | hx
      · exact h
      · exact h.trans (((ih a).1 hs).1 x hx)
    · rintro ⟨h, hs⟩
      exact ⟨h a (List.mem_cons_self ..), hs⟩

theorem sorted_filter {α : Type} (m : List (Nat × α)) (p : Nat × α → Bool) (h : sorted m = true) :
    sorted (m.filter p) = true := by
  induction m with
  | nil => rfl
  | cons e m ih =>
    obtain ⟨h1, h2⟩ := (sorted_iff e m).1 h
    by_cases hp : p e = true
    · rw [List.filter_cons_of_pos hp]
      exact (sorted_iff e _).2 ⟨fun x hx => h1 x (List.mem_filter.1 hx).1, ih h2⟩
    · rw [List.filter_cons_of_neg hp]
      exact ih h2

theorem mem_insertKey {α : Type} (m : List (Nat × α)) (k : Nat) (v : α) (x : Nat × α) (h : x ∈ insertKey m k v) :
    x = (k, v) ∨ x ∈ m := by
  induction m with
  | nil => simpa [insertKey] using h
  | cons e m ih =>
    obtain ⟨i, u⟩ := e
    unfold insertKey at h
    split at h
    · rcases List.mem_cons.1 h with h | h
      · exact .inl h
      · exact .inr h
    · split at h
      · rcases List.mem_cons.1 h with h | h
        · exact .inl h
        · exact .inr (List.mem_cons_of_mem _ h)
      · rcases List.mem_cons.1 h with h | h
        · exact .inr (h ▸ List.mem_cons_self ..)
        · rcases ih h with h | h
          · exact .inl h
          · exact .inr (List.mem_cons_of_mem _ h)

theorem sorted_insertKey {α : Type} (m : List (Nat × α)) (k : Nat) (v : α) (h : sorted m = true) :
    sorted (insertKey m k v) = true := by
  induction m with
  | nil => rfl
  | cons e m ih =>
    obtain ⟨i, u⟩ := e
    obtain ⟨h1, h2⟩ := (sorted_iff _ m).1 h
    unfold insertKey
    split
    · rename_i hk
      refine (sorted_iff _ _).2 ⟨?_, h⟩
      intro x hx
      rcases List.mem_cons.1 hx with rfl | hx
      · exact hk
      · exact Nat.lt_trans hk (h1 x hx)
    · split
      · rename_i hk
        subst hk
        exact (sorted_iff _ _).2 ⟨h1, h2⟩
      · rename_i hk1 hk2
        refine (sorted_iff _ _).2 ⟨?_, ih h2⟩
        intro x hx
        rcases mem_insertKey m k v x hx with rfl | hx
        · simp only; omega
        · exact h1 x hx

/-- Writing a key keeps the canonical form. -/
theorem canonical_putD {α : Type} [DecidableEq α] (d : Nat → α) (m : List (Nat × α)) (k : Nat) (v : α)
    (h : canonical d m = true) : canonical d (putD m k v (d k)) = true := by
  simp only [canonical, Bool.and_eq_true, List.all_eq_true, decide_eq_true_eq] at *
  obtain ⟨hs, hd⟩ := h
  unfold putD
  split
  · exact ⟨sorted_filter _ _ hs, fun x hx => hd x (List.mem_filter.1 hx).1⟩
  · refine ⟨sorted_insertKey _ _ _ hs, fun x hx => ?_⟩
    rcases mem_insertKey m k v x hx with rfl | hx
    · assumption
    · exact hd x hx

/-! ### Bit fields -/

theorem bits_lt (n hi lo : Nat) : bits n hi lo < 2 ^ (hi - lo + 1) := Nat.mod_lt _ (Nat.two_pow_pos _)

theorem bits_mul_le (n hi lo : Nat) : bits n hi lo * 2 ^ lo ≤ n := by
  unfold bits
  calc n / 2 ^ lo % 2 ^ (hi - lo + 1) * 2 ^ lo ≤ n / 2 ^ lo * 2 ^ lo := Nat.mul_le_mul_right _ (Nat.mod_le _ _)
    _ ≤ n := Nat.div_mul_le_self _ _

/-- A number as its part above a field, the field and the part below. -/
theorem bits_split (n hi lo : Nat) :
    n = n / 2 ^ (lo + (hi - lo + 1)) * 2 ^ (lo + (hi - lo + 1)) + bits n hi lo * 2 ^ lo + n % 2 ^ lo := by
  have h1 := Nat.div_add_mod n (2 ^ lo)
  have h2 := Nat.div_add_mod (n / 2 ^ lo) (2 ^ (hi - lo + 1))
  rw [Nat.div_div_eq_div_mul, ← Nat.pow_add] at h2
  unfold bits
  conv_lhs => rw [← h1, ← h2]
  ring

/-- A word with a field replaced, in the same three parts. -/
theorem putBits_split (n hi lo v : Nat) :
    putBits n hi lo v = n / 2 ^ (lo + (hi - lo + 1)) * 2 ^ (lo + (hi - lo + 1)) +
      v % 2 ^ (hi - lo + 1) * 2 ^ lo + n % 2 ^ lo := by
  have h := bits_split n hi lo
  unfold putBits
  omega

/-- A field just written reads as the low bits of what was written. -/
@[simp] theorem bits_putBits_self (n hi lo v : Nat) : bits (putBits n hi lo v) hi lo = v % 2 ^ (hi - lo + 1) := by
  rw [putBits_split]
  unfold bits
  rw [Nat.pow_add]
  have e : n / (2 ^ lo * 2 ^ (hi - lo + 1)) * (2 ^ lo * 2 ^ (hi - lo + 1)) + v % 2 ^ (hi - lo + 1) * 2 ^ lo + n % 2 ^ lo =
      n % 2 ^ lo + 2 ^ lo * (n / (2 ^ lo * 2 ^ (hi - lo + 1)) * 2 ^ (hi - lo + 1) + v % 2 ^ (hi - lo + 1)) := by ring
  rw [e, Nat.add_mul_div_left _ _ (Nat.two_pow_pos _), Nat.div_eq_of_lt (Nat.mod_lt _ (Nat.two_pow_pos _)), Nat.zero_add,
    Nat.add_comm, Nat.add_mul_mod_self_right, Nat.mod_mod]

theorem putBits_testBit (n hi lo v i : Nat) :
    (putBits n hi lo v).testBit i = if lo ≤ i ∧ i < lo + (hi - lo + 1) then v.testBit (i - lo) else n.testBit i := by
  rw [putBits_split]
  have e : n / 2 ^ (lo + (hi - lo + 1)) * 2 ^ (lo + (hi - lo + 1)) + v % 2 ^ (hi - lo + 1) * 2 ^ lo + n % 2 ^ lo =
      2 ^ lo * (2 ^ (hi - lo + 1) * (n / 2 ^ (lo + (hi - lo + 1))) + v % 2 ^ (hi - lo + 1)) + n % 2 ^ lo := by
    rw [Nat.pow_add]; ring
  rw [e, Nat.testBit_two_pow_mul_add _ (Nat.mod_lt _ (Nat.two_pow_pos _))]
  by_cases h : i < lo
  · rw [if_pos h, if_neg (by omega), Nat.testBit_mod_two_pow]
    simp [h]
  · rw [if_neg h, Nat.testBit_two_pow_mul_add _ (Nat.mod_lt _ (Nat.two_pow_pos _))]
    by_cases h' : i - lo < hi - lo + 1
    · rw [if_pos h', if_pos (by omega), Nat.testBit_mod_two_pow]
      simp [h']
    · rw [if_neg h', if_neg (by omega), Nat.testBit_div_two_pow]
      congr 1; omega

theorem bits_testBit (n hi lo i : Nat) : (bits n hi lo).testBit i = (decide (i < hi - lo + 1) && n.testBit (i + lo)) := by
  unfold bits
  rw [Nat.testBit_mod_two_pow, Nat.testBit_div_two_pow]
  try congr 2
  try omega

/-- A field that another field's write leaves alone. -/
theorem bits_putBits_ne (n hi lo v hi' lo' : Nat) (h : hi < lo' ∨ hi' < lo) (h1 : lo ≤ hi) (h2 : lo' ≤ hi') :
    bits (putBits n hi lo v) hi' lo' = bits n hi' lo' := by
  apply Nat.eq_of_testBit_eq
  intro i
  rw [bits_testBit, bits_testBit, putBits_testBit]
  by_cases hi : i < hi' - lo' + 1
  · rw [if_neg (by omega)]
  · simp [hi]

/-- A field's write keeps a word below 2^32. -/
theorem putBits_lt (n hi lo v : Nat) (hn : n < 2 ^ 32) (h : hi < 32) (h1 : lo ≤ hi) : putBits n hi lo v < 2 ^ 32 := by
  apply Nat.lt_pow_two_of_testBit
  intro i hi'
  rw [putBits_testBit, if_neg (by omega)]
  exact Nat.testBit_lt_two_pow (hn.trans_le (Nat.pow_le_pow_right (by norm_num) hi'))

end Sys2Proof.Machine
end

