-- ==== Sys2Proof/Laws/State.lean ====
section
/-!
SUPPORT. What each primitive change leaves in each field of the state: its own field takes the new value, every other keeps
what it held.
-/
namespace Sys2Proof.Machine

open Sys2Proof

variable (s : State)

/-! ### `reg` -/

@[simp] theorem State.apply_reg_pending (k : Nat) (v : Word) : (s.apply (.reg k v)).pending = s.pending := rfl
@[simp] theorem State.apply_reg_regs (k : Nat) (v : Word) : (s.apply (.reg k v)).regs = putD s.regs k v (regReset k) := rfl
@[simp] theorem State.apply_reg_mem (k : Nat) (v : Word) : (s.apply (.reg k v)).mem = s.mem := rfl
@[simp] theorem State.apply_reg_cores (k : Nat) (v : Word) : (s.apply (.reg k v)).cores = s.cores := rfl
@[simp] theorem State.apply_reg_fe (k : Nat) (v : Word) : (s.apply (.reg k v)).fe = s.fe := rfl
@[simp] theorem State.apply_reg_bb (k : Nat) (v : Word) : (s.apply (.reg k v)).bb = s.bb := rfl
@[simp] theorem State.apply_reg_mac (k : Nat) (v : Word) : (s.apply (.reg k v)).mac = s.mac := rfl
@[simp] theorem State.apply_reg_fwd (k : Nat) (v : Word) : (s.apply (.reg k v)).fwd = s.fwd := rfl
@[simp] theorem State.apply_reg_tm (k : Nat) (v : Word) : (s.apply (.reg k v)).tm = s.tm := rfl
@[simp] theorem State.apply_reg_cry (k : Nat) (v : Word) : (s.apply (.reg k v)).cry = s.cry := rfl
@[simp] theorem State.apply_reg_key (k : Nat) (v : Word) : (s.apply (.reg k v)).key = s.key := rfl
@[simp] theorem State.apply_reg_acc (k : Nat) (v : Word) : (s.apply (.reg k v)).acc = s.acc := rfl
@[simp] theorem State.apply_reg_rtc (k : Nat) (v : Word) : (s.apply (.reg k v)).rtc = s.rtc := rfl
@[simp] theorem State.apply_reg_plt (k : Nat) (v : Word) : (s.apply (.reg k v)).plt = s.plt := rfl
@[simp] theorem State.apply_reg_nv (k : Nat) (v : Word) : (s.apply (.reg k v)).nv = s.nv := rfl
@[simp] theorem State.apply_reg_dis (k : Nat) (v : Word) : (s.apply (.reg k v)).dis = s.dis := rfl
@[simp] theorem State.apply_reg_twn (k : Nat) (v : Word) : (s.apply (.reg k v)).twn = s.twn := rfl
@[simp] theorem State.apply_reg_ist (k : Nat) (v : Word) : (s.apply (.reg k v)).ist = s.ist := rfl
@[simp] theorem State.apply_reg_hif (k : Nat) (v : Word) : (s.apply (.reg k v)).hif = s.hif := rfl
@[simp] theorem State.apply_reg_eth (k : Nat) (v : Word) : (s.apply (.reg k v)).eth = s.eth := rfl
@[simp] theorem State.apply_reg_ddr (k : Nat) (v : Word) : (s.apply (.reg k v)).ddr = s.ddr := rfl
@[simp] theorem State.apply_reg_gpio (k : Nat) (v : Word) : (s.apply (.reg k v)).gpio = s.gpio := rfl
@[simp] theorem State.apply_reg_evt (k : Nat) (v : Word) : (s.apply (.reg k v)).evt = s.evt := rfl
@[simp] theorem State.apply_reg_firsts (k : Nat) (v : Word) : (s.apply (.reg k v)).firsts = s.firsts := rfl
@[simp] theorem State.apply_reg_drawn (k : Nat) (v : Word) : (s.apply (.reg k v)).drawn = s.drawn := rfl

/-! ### `mem` -/

@[simp] theorem State.apply_mem_pending (a : Nat) (b : Byte) : (s.apply (.mem a b)).pending = s.pending := rfl
@[simp] theorem State.apply_mem_regs (a : Nat) (b : Byte) : (s.apply (.mem a b)).regs = s.regs := rfl
@[simp] theorem State.apply_mem_mem (a : Nat) (b : Byte) : (s.apply (.mem a b)).mem = putD s.mem a b (memDefault a) := rfl
@[simp] theorem State.apply_mem_cores (a : Nat) (b : Byte) : (s.apply (.mem a b)).cores = s.cores := rfl
@[simp] theorem State.apply_mem_fe (a : Nat) (b : Byte) : (s.apply (.mem a b)).fe = s.fe := rfl
@[simp] theorem State.apply_mem_bb (a : Nat) (b : Byte) : (s.apply (.mem a b)).bb = s.bb := rfl
@[simp] theorem State.apply_mem_mac (a : Nat) (b : Byte) : (s.apply (.mem a b)).mac = s.mac := rfl
@[simp] theorem State.apply_mem_fwd (a : Nat) (b : Byte) : (s.apply (.mem a b)).fwd = s.fwd := rfl
@[simp] theorem State.apply_mem_tm (a : Nat) (b : Byte) : (s.apply (.mem a b)).tm = s.tm := rfl
@[simp] theorem State.apply_mem_cry (a : Nat) (b : Byte) : (s.apply (.mem a b)).cry = s.cry := rfl
@[simp] theorem State.apply_mem_key (a : Nat) (b : Byte) : (s.apply (.mem a b)).key = s.key := rfl
@[simp] theorem State.apply_mem_acc (a : Nat) (b : Byte) : (s.apply (.mem a b)).acc = s.acc := rfl
@[simp] theorem State.apply_mem_rtc (a : Nat) (b : Byte) : (s.apply (.mem a b)).rtc = s.rtc := rfl
@[simp] theorem State.apply_mem_plt (a : Nat) (b : Byte) : (s.apply (.mem a b)).plt = s.plt := rfl
@[simp] theorem State.apply_mem_nv (a : Nat) (b : Byte) : (s.apply (.mem a b)).nv = s.nv := rfl
@[simp] theorem State.apply_mem_dis (a : Nat) (b : Byte) : (s.apply (.mem a b)).dis = s.dis := rfl
@[simp] theorem State.apply_mem_twn (a : Nat) (b : Byte) : (s.apply (.mem a b)).twn = s.twn := rfl
@[simp] theorem State.apply_mem_ist (a : Nat) (b : Byte) : (s.apply (.mem a b)).ist = s.ist := rfl
@[simp] theorem State.apply_mem_hif (a : Nat) (b : Byte) : (s.apply (.mem a b)).hif = s.hif := rfl
@[simp] theorem State.apply_mem_eth (a : Nat) (b : Byte) : (s.apply (.mem a b)).eth = s.eth := rfl
@[simp] theorem State.apply_mem_ddr (a : Nat) (b : Byte) : (s.apply (.mem a b)).ddr = s.ddr := rfl
@[simp] theorem State.apply_mem_gpio (a : Nat) (b : Byte) : (s.apply (.mem a b)).gpio = s.gpio := rfl
@[simp] theorem State.apply_mem_evt (a : Nat) (b : Byte) : (s.apply (.mem a b)).evt = s.evt := rfl
@[simp] theorem State.apply_mem_firsts (a : Nat) (b : Byte) : (s.apply (.mem a b)).firsts = s.firsts := rfl
@[simp] theorem State.apply_mem_drawn (a : Nat) (b : Byte) : (s.apply (.mem a b)).drawn = s.drawn := rfl

/-! ### `core` -/

@[simp] theorem State.apply_core_pending (n : Nat) (c : Core) : (s.apply (.core n c)).pending = s.pending := rfl
@[simp] theorem State.apply_core_regs (n : Nat) (c : Core) : (s.apply (.core n c)).regs = s.regs := rfl
@[simp] theorem State.apply_core_mem (n : Nat) (c : Core) : (s.apply (.core n c)).mem = s.mem := rfl
@[simp] theorem State.apply_core_cores (n : Nat) (c : Core) : (s.apply (.core n c)).cores = putD s.cores n c {} := rfl
@[simp] theorem State.apply_core_fe (n : Nat) (c : Core) : (s.apply (.core n c)).fe = s.fe := rfl
@[simp] theorem State.apply_core_bb (n : Nat) (c : Core) : (s.apply (.core n c)).bb = s.bb := rfl
@[simp] theorem State.apply_core_mac (n : Nat) (c : Core) : (s.apply (.core n c)).mac = s.mac := rfl
@[simp] theorem State.apply_core_fwd (n : Nat) (c : Core) : (s.apply (.core n c)).fwd = s.fwd := rfl
@[simp] theorem State.apply_core_tm (n : Nat) (c : Core) : (s.apply (.core n c)).tm = s.tm := rfl
@[simp] theorem State.apply_core_cry (n : Nat) (c : Core) : (s.apply (.core n c)).cry = s.cry := rfl
@[simp] theorem State.apply_core_key (n : Nat) (c : Core) : (s.apply (.core n c)).key = s.key := rfl
@[simp] theorem State.apply_core_acc (n : Nat) (c : Core) : (s.apply (.core n c)).acc = s.acc := rfl
@[simp] theorem State.apply_core_rtc (n : Nat) (c : Core) : (s.apply (.core n c)).rtc = s.rtc := rfl
@[simp] theorem State.apply_core_plt (n : Nat) (c : Core) : (s.apply (.core n c)).plt = s.plt := rfl
@[simp] theorem State.apply_core_nv (n : Nat) (c : Core) : (s.apply (.core n c)).nv = s.nv := rfl
@[simp] theorem State.apply_core_dis (n : Nat) (c : Core) : (s.apply (.core n c)).dis = s.dis := rfl
@[simp] theorem State.apply_core_twn (n : Nat) (c : Core) : (s.apply (.core n c)).twn = s.twn := rfl
@[simp] theorem State.apply_core_ist (n : Nat) (c : Core) : (s.apply (.core n c)).ist = s.ist := rfl
@[simp] theorem State.apply_core_hif (n : Nat) (c : Core) : (s.apply (.core n c)).hif = s.hif := rfl
@[simp] theorem State.apply_core_eth (n : Nat) (c : Core) : (s.apply (.core n c)).eth = s.eth := rfl
@[simp] theorem State.apply_core_ddr (n : Nat) (c : Core) : (s.apply (.core n c)).ddr = s.ddr := rfl
@[simp] theorem State.apply_core_gpio (n : Nat) (c : Core) : (s.apply (.core n c)).gpio = s.gpio := rfl
@[simp] theorem State.apply_core_evt (n : Nat) (c : Core) : (s.apply (.core n c)).evt = s.evt := rfl
@[simp] theorem State.apply_core_firsts (n : Nat) (c : Core) : (s.apply (.core n c)).firsts = s.firsts := rfl
@[simp] theorem State.apply_core_drawn (n : Nat) (c : Core) : (s.apply (.core n c)).drawn = s.drawn := rfl

/-! ### `first` -/

@[simp] theorem State.apply_first_pending (k : Nat) (b : Bool) : (s.apply (.first k b)).pending = s.pending := rfl
@[simp] theorem State.apply_first_regs (k : Nat) (b : Bool) : (s.apply (.first k b)).regs = s.regs := rfl
@[simp] theorem State.apply_first_mem (k : Nat) (b : Bool) : (s.apply (.first k b)).mem = s.mem := rfl
@[simp] theorem State.apply_first_cores (k : Nat) (b : Bool) : (s.apply (.first k b)).cores = s.cores := rfl
@[simp] theorem State.apply_first_fe (k : Nat) (b : Bool) : (s.apply (.first k b)).fe = s.fe := rfl
@[simp] theorem State.apply_first_bb (k : Nat) (b : Bool) : (s.apply (.first k b)).bb = s.bb := rfl
@[simp] theorem State.apply_first_mac (k : Nat) (b : Bool) : (s.apply (.first k b)).mac = s.mac := rfl
@[simp] theorem State.apply_first_fwd (k : Nat) (b : Bool) : (s.apply (.first k b)).fwd = s.fwd := rfl
@[simp] theorem State.apply_first_tm (k : Nat) (b : Bool) : (s.apply (.first k b)).tm = s.tm := rfl
@[simp] theorem State.apply_first_cry (k : Nat) (b : Bool) : (s.apply (.first k b)).cry = s.cry := rfl
@[simp] theorem State.apply_first_key (k : Nat) (b : Bool) : (s.apply (.first k b)).key = s.key := rfl
@[simp] theorem State.apply_first_acc (k : Nat) (b : Bool) : (s.apply (.first k b)).acc = s.acc := rfl
@[simp] theorem State.apply_first_rtc (k : Nat) (b : Bool) : (s.apply (.first k b)).rtc = s.rtc := rfl
@[simp] theorem State.apply_first_plt (k : Nat) (b : Bool) : (s.apply (.first k b)).plt = s.plt := rfl
@[simp] theorem State.apply_first_nv (k : Nat) (b : Bool) : (s.apply (.first k b)).nv = s.nv := rfl
@[simp] theorem State.apply_first_dis (k : Nat) (b : Bool) : (s.apply (.first k b)).dis = s.dis := rfl
@[simp] theorem State.apply_first_twn (k : Nat) (b : Bool) : (s.apply (.first k b)).twn = s.twn := rfl
@[simp] theorem State.apply_first_ist (k : Nat) (b : Bool) : (s.apply (.first k b)).ist = s.ist := rfl
@[simp] theorem State.apply_first_hif (k : Nat) (b : Bool) : (s.apply (.first k b)).hif = s.hif := rfl
@[simp] theorem State.apply_first_eth (k : Nat) (b : Bool) : (s.apply (.first k b)).eth = s.eth := rfl
@[simp] theorem State.apply_first_ddr (k : Nat) (b : Bool) : (s.apply (.first k b)).ddr = s.ddr := rfl
@[simp] theorem State.apply_first_gpio (k : Nat) (b : Bool) : (s.apply (.first k b)).gpio = s.gpio := rfl
@[simp] theorem State.apply_first_evt (k : Nat) (b : Bool) : (s.apply (.first k b)).evt = s.evt := rfl
@[simp] theorem State.apply_first_firsts (k : Nat) (b : Bool) : (s.apply (.first k b)).firsts = putD s.firsts k b false := rfl
@[simp] theorem State.apply_first_drawn (k : Nat) (b : Bool) : (s.apply (.first k b)).drawn = s.drawn := rfl

/-! ### `draw` -/

@[simp] theorem State.apply_draw_pending : (s.apply .draw).pending = s.pending := rfl
@[simp] theorem State.apply_draw_regs : (s.apply .draw).regs = s.regs := rfl
@[simp] theorem State.apply_draw_mem : (s.apply .draw).mem = s.mem := rfl
@[simp] theorem State.apply_draw_cores : (s.apply .draw).cores = s.cores := rfl
@[simp] theorem State.apply_draw_fe : (s.apply .draw).fe = s.fe := rfl
@[simp] theorem State.apply_draw_bb : (s.apply .draw).bb = s.bb := rfl
@[simp] theorem State.apply_draw_mac : (s.apply .draw).mac = s.mac := rfl
@[simp] theorem State.apply_draw_fwd : (s.apply .draw).fwd = s.fwd := rfl
@[simp] theorem State.apply_draw_tm : (s.apply .draw).tm = s.tm := rfl
@[simp] theorem State.apply_draw_cry : (s.apply .draw).cry = s.cry := rfl
@[simp] theorem State.apply_draw_key : (s.apply .draw).key = s.key := rfl
@[simp] theorem State.apply_draw_acc : (s.apply .draw).acc = s.acc := rfl
@[simp] theorem State.apply_draw_rtc : (s.apply .draw).rtc = s.rtc := rfl
@[simp] theorem State.apply_draw_plt : (s.apply .draw).plt = s.plt := rfl
@[simp] theorem State.apply_draw_nv : (s.apply .draw).nv = s.nv := rfl
@[simp] theorem State.apply_draw_dis : (s.apply .draw).dis = s.dis := rfl
@[simp] theorem State.apply_draw_twn : (s.apply .draw).twn = s.twn := rfl
@[simp] theorem State.apply_draw_ist : (s.apply .draw).ist = s.ist := rfl
@[simp] theorem State.apply_draw_hif : (s.apply .draw).hif = s.hif := rfl
@[simp] theorem State.apply_draw_eth : (s.apply .draw).eth = s.eth := rfl
@[simp] theorem State.apply_draw_ddr : (s.apply .draw).ddr = s.ddr := rfl
@[simp] theorem State.apply_draw_gpio : (s.apply .draw).gpio = s.gpio := rfl
@[simp] theorem State.apply_draw_evt : (s.apply .draw).evt = s.evt := rfl
@[simp] theorem State.apply_draw_firsts : (s.apply .draw).firsts = s.firsts := rfl
@[simp] theorem State.apply_draw_drawn : (s.apply .draw).drawn = s.drawn + 1 := rfl

/-! ### `fe` -/

@[simp] theorem State.apply_fe_pending (x : Fe) : (s.apply (.fe x)).pending = s.pending := rfl
@[simp] theorem State.apply_fe_regs (x : Fe) : (s.apply (.fe x)).regs = s.regs := rfl
@[simp] theorem State.apply_fe_mem (x : Fe) : (s.apply (.fe x)).mem = s.mem := rfl
@[simp] theorem State.apply_fe_cores (x : Fe) : (s.apply (.fe x)).cores = s.cores := rfl
@[simp] theorem State.apply_fe_fe (x : Fe) : (s.apply (.fe x)).fe = x := rfl
@[simp] theorem State.apply_fe_bb (x : Fe) : (s.apply (.fe x)).bb = s.bb := rfl
@[simp] theorem State.apply_fe_mac (x : Fe) : (s.apply (.fe x)).mac = s.mac := rfl
@[simp] theorem State.apply_fe_fwd (x : Fe) : (s.apply (.fe x)).fwd = s.fwd := rfl
@[simp] theorem State.apply_fe_tm (x : Fe) : (s.apply (.fe x)).tm = s.tm := rfl
@[simp] theorem State.apply_fe_cry (x : Fe) : (s.apply (.fe x)).cry = s.cry := rfl
@[simp] theorem State.apply_fe_key (x : Fe) : (s.apply (.fe x)).key = s.key := rfl
@[simp] theorem State.apply_fe_acc (x : Fe) : (s.apply (.fe x)).acc = s.acc := rfl
@[simp] theorem State.apply_fe_rtc (x : Fe) : (s.apply (.fe x)).rtc = s.rtc := rfl
@[simp] theorem State.apply_fe_plt (x : Fe) : (s.apply (.fe x)).plt = s.plt := rfl
@[simp] theorem State.apply_fe_nv (x : Fe) : (s.apply (.fe x)).nv = s.nv := rfl
@[simp] theorem State.apply_fe_dis (x : Fe) : (s.apply (.fe x)).dis = s.dis := rfl
@[simp] theorem State.apply_fe_twn (x : Fe) : (s.apply (.fe x)).twn = s.twn := rfl
@[simp] theorem State.apply_fe_ist (x : Fe) : (s.apply (.fe x)).ist = s.ist := rfl
@[simp] theorem State.apply_fe_hif (x : Fe) : (s.apply (.fe x)).hif = s.hif := rfl
@[simp] theorem State.apply_fe_eth (x : Fe) : (s.apply (.fe x)).eth = s.eth := rfl
@[simp] theorem State.apply_fe_ddr (x : Fe) : (s.apply (.fe x)).ddr = s.ddr := rfl
@[simp] theorem State.apply_fe_gpio (x : Fe) : (s.apply (.fe x)).gpio = s.gpio := rfl
@[simp] theorem State.apply_fe_evt (x : Fe) : (s.apply (.fe x)).evt = s.evt := rfl
@[simp] theorem State.apply_fe_firsts (x : Fe) : (s.apply (.fe x)).firsts = s.firsts := rfl
@[simp] theorem State.apply_fe_drawn (x : Fe) : (s.apply (.fe x)).drawn = s.drawn := rfl

/-! ### `bb` -/

@[simp] theorem State.apply_bb_pending (x : Bb) : (s.apply (.bb x)).pending = s.pending := rfl
@[simp] theorem State.apply_bb_regs (x : Bb) : (s.apply (.bb x)).regs = s.regs := rfl
@[simp] theorem State.apply_bb_mem (x : Bb) : (s.apply (.bb x)).mem = s.mem := rfl
@[simp] theorem State.apply_bb_cores (x : Bb) : (s.apply (.bb x)).cores = s.cores := rfl
@[simp] theorem State.apply_bb_fe (x : Bb) : (s.apply (.bb x)).fe = s.fe := rfl
@[simp] theorem State.apply_bb_bb (x : Bb) : (s.apply (.bb x)).bb = x := rfl
@[simp] theorem State.apply_bb_mac (x : Bb) : (s.apply (.bb x)).mac = s.mac := rfl
@[simp] theorem State.apply_bb_fwd (x : Bb) : (s.apply (.bb x)).fwd = s.fwd := rfl
@[simp] theorem State.apply_bb_tm (x : Bb) : (s.apply (.bb x)).tm = s.tm := rfl
@[simp] theorem State.apply_bb_cry (x : Bb) : (s.apply (.bb x)).cry = s.cry := rfl
@[simp] theorem State.apply_bb_key (x : Bb) : (s.apply (.bb x)).key = s.key := rfl
@[simp] theorem State.apply_bb_acc (x : Bb) : (s.apply (.bb x)).acc = s.acc := rfl
@[simp] theorem State.apply_bb_rtc (x : Bb) : (s.apply (.bb x)).rtc = s.rtc := rfl
@[simp] theorem State.apply_bb_plt (x : Bb) : (s.apply (.bb x)).plt = s.plt := rfl
@[simp] theorem State.apply_bb_nv (x : Bb) : (s.apply (.bb x)).nv = s.nv := rfl
@[simp] theorem State.apply_bb_dis (x : Bb) : (s.apply (.bb x)).dis = s.dis := rfl
@[simp] theorem State.apply_bb_twn (x : Bb) : (s.apply (.bb x)).twn = s.twn := rfl
@[simp] theorem State.apply_bb_ist (x : Bb) : (s.apply (.bb x)).ist = s.ist := rfl
@[simp] theorem State.apply_bb_hif (x : Bb) : (s.apply (.bb x)).hif = s.hif := rfl
@[simp] theorem State.apply_bb_eth (x : Bb) : (s.apply (.bb x)).eth = s.eth := rfl
@[simp] theorem State.apply_bb_ddr (x : Bb) : (s.apply (.bb x)).ddr = s.ddr := rfl
@[simp] theorem State.apply_bb_gpio (x : Bb) : (s.apply (.bb x)).gpio = s.gpio := rfl
@[simp] theorem State.apply_bb_evt (x : Bb) : (s.apply (.bb x)).evt = s.evt := rfl
@[simp] theorem State.apply_bb_firsts (x : Bb) : (s.apply (.bb x)).firsts = s.firsts := rfl
@[simp] theorem State.apply_bb_drawn (x : Bb) : (s.apply (.bb x)).drawn = s.drawn := rfl

/-! ### `mac` -/

@[simp] theorem State.apply_mac_pending (x : Mac) : (s.apply (.mac x)).pending = s.pending := rfl
@[simp] theorem State.apply_mac_regs (x : Mac) : (s.apply (.mac x)).regs = s.regs := rfl
@[simp] theorem State.apply_mac_mem (x : Mac) : (s.apply (.mac x)).mem = s.mem := rfl
@[simp] theorem State.apply_mac_cores (x : Mac) : (s.apply (.mac x)).cores = s.cores := rfl
@[simp] theorem State.apply_mac_fe (x : Mac) : (s.apply (.mac x)).fe = s.fe := rfl
@[simp] theorem State.apply_mac_bb (x : Mac) : (s.apply (.mac x)).bb = s.bb := rfl
@[simp] theorem State.apply_mac_mac (x : Mac) : (s.apply (.mac x)).mac = x := rfl
@[simp] theorem State.apply_mac_fwd (x : Mac) : (s.apply (.mac x)).fwd = s.fwd := rfl
@[simp] theorem State.apply_mac_tm (x : Mac) : (s.apply (.mac x)).tm = s.tm := rfl
@[simp] theorem State.apply_mac_cry (x : Mac) : (s.apply (.mac x)).cry = s.cry := rfl
@[simp] theorem State.apply_mac_key (x : Mac) : (s.apply (.mac x)).key = s.key := rfl
@[simp] theorem State.apply_mac_acc (x : Mac) : (s.apply (.mac x)).acc = s.acc := rfl
@[simp] theorem State.apply_mac_rtc (x : Mac) : (s.apply (.mac x)).rtc = s.rtc := rfl
@[simp] theorem State.apply_mac_plt (x : Mac) : (s.apply (.mac x)).plt = s.plt := rfl
@[simp] theorem State.apply_mac_nv (x : Mac) : (s.apply (.mac x)).nv = s.nv := rfl
@[simp] theorem State.apply_mac_dis (x : Mac) : (s.apply (.mac x)).dis = s.dis := rfl
@[simp] theorem State.apply_mac_twn (x : Mac) : (s.apply (.mac x)).twn = s.twn := rfl
@[simp] theorem State.apply_mac_ist (x : Mac) : (s.apply (.mac x)).ist = s.ist := rfl
@[simp] theorem State.apply_mac_hif (x : Mac) : (s.apply (.mac x)).hif = s.hif := rfl
@[simp] theorem State.apply_mac_eth (x : Mac) : (s.apply (.mac x)).eth = s.eth := rfl
@[simp] theorem State.apply_mac_ddr (x : Mac) : (s.apply (.mac x)).ddr = s.ddr := rfl
@[simp] theorem State.apply_mac_gpio (x : Mac) : (s.apply (.mac x)).gpio = s.gpio := rfl
@[simp] theorem State.apply_mac_evt (x : Mac) : (s.apply (.mac x)).evt = s.evt := rfl
@[simp] theorem State.apply_mac_firsts (x : Mac) : (s.apply (.mac x)).firsts = s.firsts := rfl
@[simp] theorem State.apply_mac_drawn (x : Mac) : (s.apply (.mac x)).drawn = s.drawn := rfl

/-! ### `fwd` -/

@[simp] theorem State.apply_fwd_pending (x : Fwd) : (s.apply (.fwd x)).pending = s.pending := rfl
@[simp] theorem State.apply_fwd_regs (x : Fwd) : (s.apply (.fwd x)).regs = s.regs := rfl
@[simp] theorem State.apply_fwd_mem (x : Fwd) : (s.apply (.fwd x)).mem = s.mem := rfl
@[simp] theorem State.apply_fwd_cores (x : Fwd) : (s.apply (.fwd x)).cores = s.cores := rfl
@[simp] theorem State.apply_fwd_fe (x : Fwd) : (s.apply (.fwd x)).fe = s.fe := rfl
@[simp] theorem State.apply_fwd_bb (x : Fwd) : (s.apply (.fwd x)).bb = s.bb := rfl
@[simp] theorem State.apply_fwd_mac (x : Fwd) : (s.apply (.fwd x)).mac = s.mac := rfl
@[simp] theorem State.apply_fwd_fwd (x : Fwd) : (s.apply (.fwd x)).fwd = x := rfl
@[simp] theorem State.apply_fwd_tm (x : Fwd) : (s.apply (.fwd x)).tm = s.tm := rfl
@[simp] theorem State.apply_fwd_cry (x : Fwd) : (s.apply (.fwd x)).cry = s.cry := rfl
@[simp] theorem State.apply_fwd_key (x : Fwd) : (s.apply (.fwd x)).key = s.key := rfl
@[simp] theorem State.apply_fwd_acc (x : Fwd) : (s.apply (.fwd x)).acc = s.acc := rfl
@[simp] theorem State.apply_fwd_rtc (x : Fwd) : (s.apply (.fwd x)).rtc = s.rtc := rfl
@[simp] theorem State.apply_fwd_plt (x : Fwd) : (s.apply (.fwd x)).plt = s.plt := rfl
@[simp] theorem State.apply_fwd_nv (x : Fwd) : (s.apply (.fwd x)).nv = s.nv := rfl
@[simp] theorem State.apply_fwd_dis (x : Fwd) : (s.apply (.fwd x)).dis = s.dis := rfl
@[simp] theorem State.apply_fwd_twn (x : Fwd) : (s.apply (.fwd x)).twn = s.twn := rfl
@[simp] theorem State.apply_fwd_ist (x : Fwd) : (s.apply (.fwd x)).ist = s.ist := rfl
@[simp] theorem State.apply_fwd_hif (x : Fwd) : (s.apply (.fwd x)).hif = s.hif := rfl
@[simp] theorem State.apply_fwd_eth (x : Fwd) : (s.apply (.fwd x)).eth = s.eth := rfl
@[simp] theorem State.apply_fwd_ddr (x : Fwd) : (s.apply (.fwd x)).ddr = s.ddr := rfl
@[simp] theorem State.apply_fwd_gpio (x : Fwd) : (s.apply (.fwd x)).gpio = s.gpio := rfl
@[simp] theorem State.apply_fwd_evt (x : Fwd) : (s.apply (.fwd x)).evt = s.evt := rfl
@[simp] theorem State.apply_fwd_firsts (x : Fwd) : (s.apply (.fwd x)).firsts = s.firsts := rfl
@[simp] theorem State.apply_fwd_drawn (x : Fwd) : (s.apply (.fwd x)).drawn = s.drawn := rfl

/-! ### `tm` -/

@[simp] theorem State.apply_tm_pending (x : Tm) : (s.apply (.tm x)).pending = s.pending := rfl
@[simp] theorem State.apply_tm_regs (x : Tm) : (s.apply (.tm x)).regs = s.regs := rfl
@[simp] theorem State.apply_tm_mem (x : Tm) : (s.apply (.tm x)).mem = s.mem := rfl
@[simp] theorem State.apply_tm_cores (x : Tm) : (s.apply (.tm x)).cores = s.cores := rfl
@[simp] theorem State.apply_tm_fe (x : Tm) : (s.apply (.tm x)).fe = s.fe := rfl
@[simp] theorem State.apply_tm_bb (x : Tm) : (s.apply (.tm x)).bb = s.bb := rfl
@[simp] theorem State.apply_tm_mac (x : Tm) : (s.apply (.tm x)).mac = s.mac := rfl
@[simp] theorem State.apply_tm_fwd (x : Tm) : (s.apply (.tm x)).fwd = s.fwd := rfl
@[simp] theorem State.apply_tm_tm (x : Tm) : (s.apply (.tm x)).tm = x := rfl
@[simp] theorem State.apply_tm_cry (x : Tm) : (s.apply (.tm x)).cry = s.cry := rfl
@[simp] theorem State.apply_tm_key (x : Tm) : (s.apply (.tm x)).key = s.key := rfl
@[simp] theorem State.apply_tm_acc (x : Tm) : (s.apply (.tm x)).acc = s.acc := rfl
@[simp] theorem State.apply_tm_rtc (x : Tm) : (s.apply (.tm x)).rtc = s.rtc := rfl
@[simp] theorem State.apply_tm_plt (x : Tm) : (s.apply (.tm x)).plt = s.plt := rfl
@[simp] theorem State.apply_tm_nv (x : Tm) : (s.apply (.tm x)).nv = s.nv := rfl
@[simp] theorem State.apply_tm_dis (x : Tm) : (s.apply (.tm x)).dis = s.dis := rfl
@[simp] theorem State.apply_tm_twn (x : Tm) : (s.apply (.tm x)).twn = s.twn := rfl
@[simp] theorem State.apply_tm_ist (x : Tm) : (s.apply (.tm x)).ist = s.ist := rfl
@[simp] theorem State.apply_tm_hif (x : Tm) : (s.apply (.tm x)).hif = s.hif := rfl
@[simp] theorem State.apply_tm_eth (x : Tm) : (s.apply (.tm x)).eth = s.eth := rfl
@[simp] theorem State.apply_tm_ddr (x : Tm) : (s.apply (.tm x)).ddr = s.ddr := rfl
@[simp] theorem State.apply_tm_gpio (x : Tm) : (s.apply (.tm x)).gpio = s.gpio := rfl
@[simp] theorem State.apply_tm_evt (x : Tm) : (s.apply (.tm x)).evt = s.evt := rfl
@[simp] theorem State.apply_tm_firsts (x : Tm) : (s.apply (.tm x)).firsts = s.firsts := rfl
@[simp] theorem State.apply_tm_drawn (x : Tm) : (s.apply (.tm x)).drawn = s.drawn := rfl

/-! ### `cry` -/

@[simp] theorem State.apply_cry_pending (x : Cry) : (s.apply (.cry x)).pending = s.pending := rfl
@[simp] theorem State.apply_cry_regs (x : Cry) : (s.apply (.cry x)).regs = s.regs := rfl
@[simp] theorem State.apply_cry_mem (x : Cry) : (s.apply (.cry x)).mem = s.mem := rfl
@[simp] theorem State.apply_cry_cores (x : Cry) : (s.apply (.cry x)).cores = s.cores := rfl
@[simp] theorem State.apply_cry_fe (x : Cry) : (s.apply (.cry x)).fe = s.fe := rfl
@[simp] theorem State.apply_cry_bb (x : Cry) : (s.apply (.cry x)).bb = s.bb := rfl
@[simp] theorem State.apply_cry_mac (x : Cry) : (s.apply (.cry x)).mac = s.mac := rfl
@[simp] theorem State.apply_cry_fwd (x : Cry) : (s.apply (.cry x)).fwd = s.fwd := rfl
@[simp] theorem State.apply_cry_tm (x : Cry) : (s.apply (.cry x)).tm = s.tm := rfl
@[simp] theorem State.apply_cry_cry (x : Cry) : (s.apply (.cry x)).cry = x := rfl
@[simp] theorem State.apply_cry_key (x : Cry) : (s.apply (.cry x)).key = s.key := rfl
@[simp] theorem State.apply_cry_acc (x : Cry) : (s.apply (.cry x)).acc = s.acc := rfl
@[simp] theorem State.apply_cry_rtc (x : Cry) : (s.apply (.cry x)).rtc = s.rtc := rfl
@[simp] theorem State.apply_cry_plt (x : Cry) : (s.apply (.cry x)).plt = s.plt := rfl
@[simp] theorem State.apply_cry_nv (x : Cry) : (s.apply (.cry x)).nv = s.nv := rfl
@[simp] theorem State.apply_cry_dis (x : Cry) : (s.apply (.cry x)).dis = s.dis := rfl
@[simp] theorem State.apply_cry_twn (x : Cry) : (s.apply (.cry x)).twn = s.twn := rfl
@[simp] theorem State.apply_cry_ist (x : Cry) : (s.apply (.cry x)).ist = s.ist := rfl
@[simp] theorem State.apply_cry_hif (x : Cry) : (s.apply (.cry x)).hif = s.hif := rfl
@[simp] theorem State.apply_cry_eth (x : Cry) : (s.apply (.cry x)).eth = s.eth := rfl
@[simp] theorem State.apply_cry_ddr (x : Cry) : (s.apply (.cry x)).ddr = s.ddr := rfl
@[simp] theorem State.apply_cry_gpio (x : Cry) : (s.apply (.cry x)).gpio = s.gpio := rfl
@[simp] theorem State.apply_cry_evt (x : Cry) : (s.apply (.cry x)).evt = s.evt := rfl
@[simp] theorem State.apply_cry_firsts (x : Cry) : (s.apply (.cry x)).firsts = s.firsts := rfl
@[simp] theorem State.apply_cry_drawn (x : Cry) : (s.apply (.cry x)).drawn = s.drawn := rfl

/-! ### `key` -/

@[simp] theorem State.apply_key_pending (x : Key) : (s.apply (.key x)).pending = s.pending := rfl
@[simp] theorem State.apply_key_regs (x : Key) : (s.apply (.key x)).regs = s.regs := rfl
@[simp] theorem State.apply_key_mem (x : Key) : (s.apply (.key x)).mem = s.mem := rfl
@[simp] theorem State.apply_key_cores (x : Key) : (s.apply (.key x)).cores = s.cores := rfl
@[simp] theorem State.apply_key_fe (x : Key) : (s.apply (.key x)).fe = s.fe := rfl
@[simp] theorem State.apply_key_bb (x : Key) : (s.apply (.key x)).bb = s.bb := rfl
@[simp] theorem State.apply_key_mac (x : Key) : (s.apply (.key x)).mac = s.mac := rfl
@[simp] theorem State.apply_key_fwd (x : Key) : (s.apply (.key x)).fwd = s.fwd := rfl
@[simp] theorem State.apply_key_tm (x : Key) : (s.apply (.key x)).tm = s.tm := rfl
@[simp] theorem State.apply_key_cry (x : Key) : (s.apply (.key x)).cry = s.cry := rfl
@[simp] theorem State.apply_key_key (x : Key) : (s.apply (.key x)).key = x := rfl
@[simp] theorem State.apply_key_acc (x : Key) : (s.apply (.key x)).acc = s.acc := rfl
@[simp] theorem State.apply_key_rtc (x : Key) : (s.apply (.key x)).rtc = s.rtc := rfl
@[simp] theorem State.apply_key_plt (x : Key) : (s.apply (.key x)).plt = s.plt := rfl
@[simp] theorem State.apply_key_nv (x : Key) : (s.apply (.key x)).nv = s.nv := rfl
@[simp] theorem State.apply_key_dis (x : Key) : (s.apply (.key x)).dis = s.dis := rfl
@[simp] theorem State.apply_key_twn (x : Key) : (s.apply (.key x)).twn = s.twn := rfl
@[simp] theorem State.apply_key_ist (x : Key) : (s.apply (.key x)).ist = s.ist := rfl
@[simp] theorem State.apply_key_hif (x : Key) : (s.apply (.key x)).hif = s.hif := rfl
@[simp] theorem State.apply_key_eth (x : Key) : (s.apply (.key x)).eth = s.eth := rfl
@[simp] theorem State.apply_key_ddr (x : Key) : (s.apply (.key x)).ddr = s.ddr := rfl
@[simp] theorem State.apply_key_gpio (x : Key) : (s.apply (.key x)).gpio = s.gpio := rfl
@[simp] theorem State.apply_key_evt (x : Key) : (s.apply (.key x)).evt = s.evt := rfl
@[simp] theorem State.apply_key_firsts (x : Key) : (s.apply (.key x)).firsts = s.firsts := rfl
@[simp] theorem State.apply_key_drawn (x : Key) : (s.apply (.key x)).drawn = s.drawn := rfl

/-! ### `acc` -/

@[simp] theorem State.apply_acc_pending (x : Acc) : (s.apply (.acc x)).pending = s.pending := rfl
@[simp] theorem State.apply_acc_regs (x : Acc) : (s.apply (.acc x)).regs = s.regs := rfl
@[simp] theorem State.apply_acc_mem (x : Acc) : (s.apply (.acc x)).mem = s.mem := rfl
@[simp] theorem State.apply_acc_cores (x : Acc) : (s.apply (.acc x)).cores = s.cores := rfl
@[simp] theorem State.apply_acc_fe (x : Acc) : (s.apply (.acc x)).fe = s.fe := rfl
@[simp] theorem State.apply_acc_bb (x : Acc) : (s.apply (.acc x)).bb = s.bb := rfl
@[simp] theorem State.apply_acc_mac (x : Acc) : (s.apply (.acc x)).mac = s.mac := rfl
@[simp] theorem State.apply_acc_fwd (x : Acc) : (s.apply (.acc x)).fwd = s.fwd := rfl
@[simp] theorem State.apply_acc_tm (x : Acc) : (s.apply (.acc x)).tm = s.tm := rfl
@[simp] theorem State.apply_acc_cry (x : Acc) : (s.apply (.acc x)).cry = s.cry := rfl
@[simp] theorem State.apply_acc_key (x : Acc) : (s.apply (.acc x)).key = s.key := rfl
@[simp] theorem State.apply_acc_acc (x : Acc) : (s.apply (.acc x)).acc = x := rfl
@[simp] theorem State.apply_acc_rtc (x : Acc) : (s.apply (.acc x)).rtc = s.rtc := rfl
@[simp] theorem State.apply_acc_plt (x : Acc) : (s.apply (.acc x)).plt = s.plt := rfl
@[simp] theorem State.apply_acc_nv (x : Acc) : (s.apply (.acc x)).nv = s.nv := rfl
@[simp] theorem State.apply_acc_dis (x : Acc) : (s.apply (.acc x)).dis = s.dis := rfl
@[simp] theorem State.apply_acc_twn (x : Acc) : (s.apply (.acc x)).twn = s.twn := rfl
@[simp] theorem State.apply_acc_ist (x : Acc) : (s.apply (.acc x)).ist = s.ist := rfl
@[simp] theorem State.apply_acc_hif (x : Acc) : (s.apply (.acc x)).hif = s.hif := rfl
@[simp] theorem State.apply_acc_eth (x : Acc) : (s.apply (.acc x)).eth = s.eth := rfl
@[simp] theorem State.apply_acc_ddr (x : Acc) : (s.apply (.acc x)).ddr = s.ddr := rfl
@[simp] theorem State.apply_acc_gpio (x : Acc) : (s.apply (.acc x)).gpio = s.gpio := rfl
@[simp] theorem State.apply_acc_evt (x : Acc) : (s.apply (.acc x)).evt = s.evt := rfl
@[simp] theorem State.apply_acc_firsts (x : Acc) : (s.apply (.acc x)).firsts = s.firsts := rfl
@[simp] theorem State.apply_acc_drawn (x : Acc) : (s.apply (.acc x)).drawn = s.drawn := rfl

/-! ### `rtc` -/

@[simp] theorem State.apply_rtc_pending (x : Rtc) : (s.apply (.rtc x)).pending = s.pending := rfl
@[simp] theorem State.apply_rtc_regs (x : Rtc) : (s.apply (.rtc x)).regs = s.regs := rfl
@[simp] theorem State.apply_rtc_mem (x : Rtc) : (s.apply (.rtc x)).mem = s.mem := rfl
@[simp] theorem State.apply_rtc_cores (x : Rtc) : (s.apply (.rtc x)).cores = s.cores := rfl
@[simp] theorem State.apply_rtc_fe (x : Rtc) : (s.apply (.rtc x)).fe = s.fe := rfl
@[simp] theorem State.apply_rtc_bb (x : Rtc) : (s.apply (.rtc x)).bb = s.bb := rfl
@[simp] theorem State.apply_rtc_mac (x : Rtc) : (s.apply (.rtc x)).mac = s.mac := rfl
@[simp] theorem State.apply_rtc_fwd (x : Rtc) : (s.apply (.rtc x)).fwd = s.fwd := rfl
@[simp] theorem State.apply_rtc_tm (x : Rtc) : (s.apply (.rtc x)).tm = s.tm := rfl
@[simp] theorem State.apply_rtc_cry (x : Rtc) : (s.apply (.rtc x)).cry = s.cry := rfl
@[simp] theorem State.apply_rtc_key (x : Rtc) : (s.apply (.rtc x)).key = s.key := rfl
@[simp] theorem State.apply_rtc_acc (x : Rtc) : (s.apply (.rtc x)).acc = s.acc := rfl
@[simp] theorem State.apply_rtc_rtc (x : Rtc) : (s.apply (.rtc x)).rtc = x := rfl
@[simp] theorem State.apply_rtc_plt (x : Rtc) : (s.apply (.rtc x)).plt = s.plt := rfl
@[simp] theorem State.apply_rtc_nv (x : Rtc) : (s.apply (.rtc x)).nv = s.nv := rfl
@[simp] theorem State.apply_rtc_dis (x : Rtc) : (s.apply (.rtc x)).dis = s.dis := rfl
@[simp] theorem State.apply_rtc_twn (x : Rtc) : (s.apply (.rtc x)).twn = s.twn := rfl
@[simp] theorem State.apply_rtc_ist (x : Rtc) : (s.apply (.rtc x)).ist = s.ist := rfl
@[simp] theorem State.apply_rtc_hif (x : Rtc) : (s.apply (.rtc x)).hif = s.hif := rfl
@[simp] theorem State.apply_rtc_eth (x : Rtc) : (s.apply (.rtc x)).eth = s.eth := rfl
@[simp] theorem State.apply_rtc_ddr (x : Rtc) : (s.apply (.rtc x)).ddr = s.ddr := rfl
@[simp] theorem State.apply_rtc_gpio (x : Rtc) : (s.apply (.rtc x)).gpio = s.gpio := rfl
@[simp] theorem State.apply_rtc_evt (x : Rtc) : (s.apply (.rtc x)).evt = s.evt := rfl
@[simp] theorem State.apply_rtc_firsts (x : Rtc) : (s.apply (.rtc x)).firsts = s.firsts := rfl
@[simp] theorem State.apply_rtc_drawn (x : Rtc) : (s.apply (.rtc x)).drawn = s.drawn := rfl

/-! ### `plt` -/

@[simp] theorem State.apply_plt_pending (x : Plt) : (s.apply (.plt x)).pending = s.pending := rfl
@[simp] theorem State.apply_plt_regs (x : Plt) : (s.apply (.plt x)).regs = s.regs := rfl
@[simp] theorem State.apply_plt_mem (x : Plt) : (s.apply (.plt x)).mem = s.mem := rfl
@[simp] theorem State.apply_plt_cores (x : Plt) : (s.apply (.plt x)).cores = s.cores := rfl
@[simp] theorem State.apply_plt_fe (x : Plt) : (s.apply (.plt x)).fe = s.fe := rfl
@[simp] theorem State.apply_plt_bb (x : Plt) : (s.apply (.plt x)).bb = s.bb := rfl
@[simp] theorem State.apply_plt_mac (x : Plt) : (s.apply (.plt x)).mac = s.mac := rfl
@[simp] theorem State.apply_plt_fwd (x : Plt) : (s.apply (.plt x)).fwd = s.fwd := rfl
@[simp] theorem State.apply_plt_tm (x : Plt) : (s.apply (.plt x)).tm = s.tm := rfl
@[simp] theorem State.apply_plt_cry (x : Plt) : (s.apply (.plt x)).cry = s.cry := rfl
@[simp] theorem State.apply_plt_key (x : Plt) : (s.apply (.plt x)).key = s.key := rfl
@[simp] theorem State.apply_plt_acc (x : Plt) : (s.apply (.plt x)).acc = s.acc := rfl
@[simp] theorem State.apply_plt_rtc (x : Plt) : (s.apply (.plt x)).rtc = s.rtc := rfl
@[simp] theorem State.apply_plt_plt (x : Plt) : (s.apply (.plt x)).plt = x := rfl
@[simp] theorem State.apply_plt_nv (x : Plt) : (s.apply (.plt x)).nv = s.nv := rfl
@[simp] theorem State.apply_plt_dis (x : Plt) : (s.apply (.plt x)).dis = s.dis := rfl
@[simp] theorem State.apply_plt_twn (x : Plt) : (s.apply (.plt x)).twn = s.twn := rfl
@[simp] theorem State.apply_plt_ist (x : Plt) : (s.apply (.plt x)).ist = s.ist := rfl
@[simp] theorem State.apply_plt_hif (x : Plt) : (s.apply (.plt x)).hif = s.hif := rfl
@[simp] theorem State.apply_plt_eth (x : Plt) : (s.apply (.plt x)).eth = s.eth := rfl
@[simp] theorem State.apply_plt_ddr (x : Plt) : (s.apply (.plt x)).ddr = s.ddr := rfl
@[simp] theorem State.apply_plt_gpio (x : Plt) : (s.apply (.plt x)).gpio = s.gpio := rfl
@[simp] theorem State.apply_plt_evt (x : Plt) : (s.apply (.plt x)).evt = s.evt := rfl
@[simp] theorem State.apply_plt_firsts (x : Plt) : (s.apply (.plt x)).firsts = s.firsts := rfl
@[simp] theorem State.apply_plt_drawn (x : Plt) : (s.apply (.plt x)).drawn = s.drawn := rfl

/-! ### `nv` -/

@[simp] theorem State.apply_nv_pending (x : Nv) : (s.apply (.nv x)).pending = s.pending := rfl
@[simp] theorem State.apply_nv_regs (x : Nv) : (s.apply (.nv x)).regs = s.regs := rfl
@[simp] theorem State.apply_nv_mem (x : Nv) : (s.apply (.nv x)).mem = s.mem := rfl
@[simp] theorem State.apply_nv_cores (x : Nv) : (s.apply (.nv x)).cores = s.cores := rfl
@[simp] theorem State.apply_nv_fe (x : Nv) : (s.apply (.nv x)).fe = s.fe := rfl
@[simp] theorem State.apply_nv_bb (x : Nv) : (s.apply (.nv x)).bb = s.bb := rfl
@[simp] theorem State.apply_nv_mac (x : Nv) : (s.apply (.nv x)).mac = s.mac := rfl
@[simp] theorem State.apply_nv_fwd (x : Nv) : (s.apply (.nv x)).fwd = s.fwd := rfl
@[simp] theorem State.apply_nv_tm (x : Nv) : (s.apply (.nv x)).tm = s.tm := rfl
@[simp] theorem State.apply_nv_cry (x : Nv) : (s.apply (.nv x)).cry = s.cry := rfl
@[simp] theorem State.apply_nv_key (x : Nv) : (s.apply (.nv x)).key = s.key := rfl
@[simp] theorem State.apply_nv_acc (x : Nv) : (s.apply (.nv x)).acc = s.acc := rfl
@[simp] theorem State.apply_nv_rtc (x : Nv) : (s.apply (.nv x)).rtc = s.rtc := rfl
@[simp] theorem State.apply_nv_plt (x : Nv) : (s.apply (.nv x)).plt = s.plt := rfl
@[simp] theorem State.apply_nv_nv (x : Nv) : (s.apply (.nv x)).nv = x := rfl
@[simp] theorem State.apply_nv_dis (x : Nv) : (s.apply (.nv x)).dis = s.dis := rfl
@[simp] theorem State.apply_nv_twn (x : Nv) : (s.apply (.nv x)).twn = s.twn := rfl
@[simp] theorem State.apply_nv_ist (x : Nv) : (s.apply (.nv x)).ist = s.ist := rfl
@[simp] theorem State.apply_nv_hif (x : Nv) : (s.apply (.nv x)).hif = s.hif := rfl
@[simp] theorem State.apply_nv_eth (x : Nv) : (s.apply (.nv x)).eth = s.eth := rfl
@[simp] theorem State.apply_nv_ddr (x : Nv) : (s.apply (.nv x)).ddr = s.ddr := rfl
@[simp] theorem State.apply_nv_gpio (x : Nv) : (s.apply (.nv x)).gpio = s.gpio := rfl
@[simp] theorem State.apply_nv_evt (x : Nv) : (s.apply (.nv x)).evt = s.evt := rfl
@[simp] theorem State.apply_nv_firsts (x : Nv) : (s.apply (.nv x)).firsts = s.firsts := rfl
@[simp] theorem State.apply_nv_drawn (x : Nv) : (s.apply (.nv x)).drawn = s.drawn := rfl

/-! ### `dis` -/

@[simp] theorem State.apply_dis_pending (x : Dis) : (s.apply (.dis x)).pending = s.pending := rfl
@[simp] theorem State.apply_dis_regs (x : Dis) : (s.apply (.dis x)).regs = s.regs := rfl
@[simp] theorem State.apply_dis_mem (x : Dis) : (s.apply (.dis x)).mem = s.mem := rfl
@[simp] theorem State.apply_dis_cores (x : Dis) : (s.apply (.dis x)).cores = s.cores := rfl
@[simp] theorem State.apply_dis_fe (x : Dis) : (s.apply (.dis x)).fe = s.fe := rfl
@[simp] theorem State.apply_dis_bb (x : Dis) : (s.apply (.dis x)).bb = s.bb := rfl
@[simp] theorem State.apply_dis_mac (x : Dis) : (s.apply (.dis x)).mac = s.mac := rfl
@[simp] theorem State.apply_dis_fwd (x : Dis) : (s.apply (.dis x)).fwd = s.fwd := rfl
@[simp] theorem State.apply_dis_tm (x : Dis) : (s.apply (.dis x)).tm = s.tm := rfl
@[simp] theorem State.apply_dis_cry (x : Dis) : (s.apply (.dis x)).cry = s.cry := rfl
@[simp] theorem State.apply_dis_key (x : Dis) : (s.apply (.dis x)).key = s.key := rfl
@[simp] theorem State.apply_dis_acc (x : Dis) : (s.apply (.dis x)).acc = s.acc := rfl
@[simp] theorem State.apply_dis_rtc (x : Dis) : (s.apply (.dis x)).rtc = s.rtc := rfl
@[simp] theorem State.apply_dis_plt (x : Dis) : (s.apply (.dis x)).plt = s.plt := rfl
@[simp] theorem State.apply_dis_nv (x : Dis) : (s.apply (.dis x)).nv = s.nv := rfl
@[simp] theorem State.apply_dis_dis (x : Dis) : (s.apply (.dis x)).dis = x := rfl
@[simp] theorem State.apply_dis_twn (x : Dis) : (s.apply (.dis x)).twn = s.twn := rfl
@[simp] theorem State.apply_dis_ist (x : Dis) : (s.apply (.dis x)).ist = s.ist := rfl
@[simp] theorem State.apply_dis_hif (x : Dis) : (s.apply (.dis x)).hif = s.hif := rfl
@[simp] theorem State.apply_dis_eth (x : Dis) : (s.apply (.dis x)).eth = s.eth := rfl
@[simp] theorem State.apply_dis_ddr (x : Dis) : (s.apply (.dis x)).ddr = s.ddr := rfl
@[simp] theorem State.apply_dis_gpio (x : Dis) : (s.apply (.dis x)).gpio = s.gpio := rfl
@[simp] theorem State.apply_dis_evt (x : Dis) : (s.apply (.dis x)).evt = s.evt := rfl
@[simp] theorem State.apply_dis_firsts (x : Dis) : (s.apply (.dis x)).firsts = s.firsts := rfl
@[simp] theorem State.apply_dis_drawn (x : Dis) : (s.apply (.dis x)).drawn = s.drawn := rfl

/-! ### `twn` -/

@[simp] theorem State.apply_twn_pending (x : Twn) : (s.apply (.twn x)).pending = s.pending := rfl
@[simp] theorem State.apply_twn_regs (x : Twn) : (s.apply (.twn x)).regs = s.regs := rfl
@[simp] theorem State.apply_twn_mem (x : Twn) : (s.apply (.twn x)).mem = s.mem := rfl
@[simp] theorem State.apply_twn_cores (x : Twn) : (s.apply (.twn x)).cores = s.cores := rfl
@[simp] theorem State.apply_twn_fe (x : Twn) : (s.apply (.twn x)).fe = s.fe := rfl
@[simp] theorem State.apply_twn_bb (x : Twn) : (s.apply (.twn x)).bb = s.bb := rfl
@[simp] theorem State.apply_twn_mac (x : Twn) : (s.apply (.twn x)).mac = s.mac := rfl
@[simp] theorem State.apply_twn_fwd (x : Twn) : (s.apply (.twn x)).fwd = s.fwd := rfl
@[simp] theorem State.apply_twn_tm (x : Twn) : (s.apply (.twn x)).tm = s.tm := rfl
@[simp] theorem State.apply_twn_cry (x : Twn) : (s.apply (.twn x)).cry = s.cry := rfl
@[simp] theorem State.apply_twn_key (x : Twn) : (s.apply (.twn x)).key = s.key := rfl
@[simp] theorem State.apply_twn_acc (x : Twn) : (s.apply (.twn x)).acc = s.acc := rfl
@[simp] theorem State.apply_twn_rtc (x : Twn) : (s.apply (.twn x)).rtc = s.rtc := rfl
@[simp] theorem State.apply_twn_plt (x : Twn) : (s.apply (.twn x)).plt = s.plt := rfl
@[simp] theorem State.apply_twn_nv (x : Twn) : (s.apply (.twn x)).nv = s.nv := rfl
@[simp] theorem State.apply_twn_dis (x : Twn) : (s.apply (.twn x)).dis = s.dis := rfl
@[simp] theorem State.apply_twn_twn (x : Twn) : (s.apply (.twn x)).twn = x := rfl
@[simp] theorem State.apply_twn_ist (x : Twn) : (s.apply (.twn x)).ist = s.ist := rfl
@[simp] theorem State.apply_twn_hif (x : Twn) : (s.apply (.twn x)).hif = s.hif := rfl
@[simp] theorem State.apply_twn_eth (x : Twn) : (s.apply (.twn x)).eth = s.eth := rfl
@[simp] theorem State.apply_twn_ddr (x : Twn) : (s.apply (.twn x)).ddr = s.ddr := rfl
@[simp] theorem State.apply_twn_gpio (x : Twn) : (s.apply (.twn x)).gpio = s.gpio := rfl
@[simp] theorem State.apply_twn_evt (x : Twn) : (s.apply (.twn x)).evt = s.evt := rfl
@[simp] theorem State.apply_twn_firsts (x : Twn) : (s.apply (.twn x)).firsts = s.firsts := rfl
@[simp] theorem State.apply_twn_drawn (x : Twn) : (s.apply (.twn x)).drawn = s.drawn := rfl

/-! ### `ist` -/

@[simp] theorem State.apply_ist_pending (x : Ist) : (s.apply (.ist x)).pending = s.pending := rfl
@[simp] theorem State.apply_ist_regs (x : Ist) : (s.apply (.ist x)).regs = s.regs := rfl
@[simp] theorem State.apply_ist_mem (x : Ist) : (s.apply (.ist x)).mem = s.mem := rfl
@[simp] theorem State.apply_ist_cores (x : Ist) : (s.apply (.ist x)).cores = s.cores := rfl
@[simp] theorem State.apply_ist_fe (x : Ist) : (s.apply (.ist x)).fe = s.fe := rfl
@[simp] theorem State.apply_ist_bb (x : Ist) : (s.apply (.ist x)).bb = s.bb := rfl
@[simp] theorem State.apply_ist_mac (x : Ist) : (s.apply (.ist x)).mac = s.mac := rfl
@[simp] theorem State.apply_ist_fwd (x : Ist) : (s.apply (.ist x)).fwd = s.fwd := rfl
@[simp] theorem State.apply_ist_tm (x : Ist) : (s.apply (.ist x)).tm = s.tm := rfl
@[simp] theorem State.apply_ist_cry (x : Ist) : (s.apply (.ist x)).cry = s.cry := rfl
@[simp] theorem State.apply_ist_key (x : Ist) : (s.apply (.ist x)).key = s.key := rfl
@[simp] theorem State.apply_ist_acc (x : Ist) : (s.apply (.ist x)).acc = s.acc := rfl
@[simp] theorem State.apply_ist_rtc (x : Ist) : (s.apply (.ist x)).rtc = s.rtc := rfl
@[simp] theorem State.apply_ist_plt (x : Ist) : (s.apply (.ist x)).plt = s.plt := rfl
@[simp] theorem State.apply_ist_nv (x : Ist) : (s.apply (.ist x)).nv = s.nv := rfl
@[simp] theorem State.apply_ist_dis (x : Ist) : (s.apply (.ist x)).dis = s.dis := rfl
@[simp] theorem State.apply_ist_twn (x : Ist) : (s.apply (.ist x)).twn = s.twn := rfl
@[simp] theorem State.apply_ist_ist (x : Ist) : (s.apply (.ist x)).ist = x := rfl
@[simp] theorem State.apply_ist_hif (x : Ist) : (s.apply (.ist x)).hif = s.hif := rfl
@[simp] theorem State.apply_ist_eth (x : Ist) : (s.apply (.ist x)).eth = s.eth := rfl
@[simp] theorem State.apply_ist_ddr (x : Ist) : (s.apply (.ist x)).ddr = s.ddr := rfl
@[simp] theorem State.apply_ist_gpio (x : Ist) : (s.apply (.ist x)).gpio = s.gpio := rfl
@[simp] theorem State.apply_ist_evt (x : Ist) : (s.apply (.ist x)).evt = s.evt := rfl
@[simp] theorem State.apply_ist_firsts (x : Ist) : (s.apply (.ist x)).firsts = s.firsts := rfl
@[simp] theorem State.apply_ist_drawn (x : Ist) : (s.apply (.ist x)).drawn = s.drawn := rfl

/-! ### `hif` -/

@[simp] theorem State.apply_hif_pending (x : Hif) : (s.apply (.hif x)).pending = s.pending := rfl
@[simp] theorem State.apply_hif_regs (x : Hif) : (s.apply (.hif x)).regs = s.regs := rfl
@[simp] theorem State.apply_hif_mem (x : Hif) : (s.apply (.hif x)).mem = s.mem := rfl
@[simp] theorem State.apply_hif_cores (x : Hif) : (s.apply (.hif x)).cores = s.cores := rfl
@[simp] theorem State.apply_hif_fe (x : Hif) : (s.apply (.hif x)).fe = s.fe := rfl
@[simp] theorem State.apply_hif_bb (x : Hif) : (s.apply (.hif x)).bb = s.bb := rfl
@[simp] theorem State.apply_hif_mac (x : Hif) : (s.apply (.hif x)).mac = s.mac := rfl
@[simp] theorem State.apply_hif_fwd (x : Hif) : (s.apply (.hif x)).fwd = s.fwd := rfl
@[simp] theorem State.apply_hif_tm (x : Hif) : (s.apply (.hif x)).tm = s.tm := rfl
@[simp] theorem State.apply_hif_cry (x : Hif) : (s.apply (.hif x)).cry = s.cry := rfl
@[simp] theorem State.apply_hif_key (x : Hif) : (s.apply (.hif x)).key = s.key := rfl
@[simp] theorem State.apply_hif_acc (x : Hif) : (s.apply (.hif x)).acc = s.acc := rfl
@[simp] theorem State.apply_hif_rtc (x : Hif) : (s.apply (.hif x)).rtc = s.rtc := rfl
@[simp] theorem State.apply_hif_plt (x : Hif) : (s.apply (.hif x)).plt = s.plt := rfl
@[simp] theorem State.apply_hif_nv (x : Hif) : (s.apply (.hif x)).nv = s.nv := rfl
@[simp] theorem State.apply_hif_dis (x : Hif) : (s.apply (.hif x)).dis = s.dis := rfl
@[simp] theorem State.apply_hif_twn (x : Hif) : (s.apply (.hif x)).twn = s.twn := rfl
@[simp] theorem State.apply_hif_ist (x : Hif) : (s.apply (.hif x)).ist = s.ist := rfl
@[simp] theorem State.apply_hif_hif (x : Hif) : (s.apply (.hif x)).hif = x := rfl
@[simp] theorem State.apply_hif_eth (x : Hif) : (s.apply (.hif x)).eth = s.eth := rfl
@[simp] theorem State.apply_hif_ddr (x : Hif) : (s.apply (.hif x)).ddr = s.ddr := rfl
@[simp] theorem State.apply_hif_gpio (x : Hif) : (s.apply (.hif x)).gpio = s.gpio := rfl
@[simp] theorem State.apply_hif_evt (x : Hif) : (s.apply (.hif x)).evt = s.evt := rfl
@[simp] theorem State.apply_hif_firsts (x : Hif) : (s.apply (.hif x)).firsts = s.firsts := rfl
@[simp] theorem State.apply_hif_drawn (x : Hif) : (s.apply (.hif x)).drawn = s.drawn := rfl

/-! ### `eth` -/

@[simp] theorem State.apply_eth_pending (x : Eth) : (s.apply (.eth x)).pending = s.pending := rfl
@[simp] theorem State.apply_eth_regs (x : Eth) : (s.apply (.eth x)).regs = s.regs := rfl
@[simp] theorem State.apply_eth_mem (x : Eth) : (s.apply (.eth x)).mem = s.mem := rfl
@[simp] theorem State.apply_eth_cores (x : Eth) : (s.apply (.eth x)).cores = s.cores := rfl
@[simp] theorem State.apply_eth_fe (x : Eth) : (s.apply (.eth x)).fe = s.fe := rfl
@[simp] theorem State.apply_eth_bb (x : Eth) : (s.apply (.eth x)).bb = s.bb := rfl
@[simp] theorem State.apply_eth_mac (x : Eth) : (s.apply (.eth x)).mac = s.mac := rfl
@[simp] theorem State.apply_eth_fwd (x : Eth) : (s.apply (.eth x)).fwd = s.fwd := rfl
@[simp] theorem State.apply_eth_tm (x : Eth) : (s.apply (.eth x)).tm = s.tm := rfl
@[simp] theorem State.apply_eth_cry (x : Eth) : (s.apply (.eth x)).cry = s.cry := rfl
@[simp] theorem State.apply_eth_key (x : Eth) : (s.apply (.eth x)).key = s.key := rfl
@[simp] theorem State.apply_eth_acc (x : Eth) : (s.apply (.eth x)).acc = s.acc := rfl
@[simp] theorem State.apply_eth_rtc (x : Eth) : (s.apply (.eth x)).rtc = s.rtc := rfl
@[simp] theorem State.apply_eth_plt (x : Eth) : (s.apply (.eth x)).plt = s.plt := rfl
@[simp] theorem State.apply_eth_nv (x : Eth) : (s.apply (.eth x)).nv = s.nv := rfl
@[simp] theorem State.apply_eth_dis (x : Eth) : (s.apply (.eth x)).dis = s.dis := rfl
@[simp] theorem State.apply_eth_twn (x : Eth) : (s.apply (.eth x)).twn = s.twn := rfl
@[simp] theorem State.apply_eth_ist (x : Eth) : (s.apply (.eth x)).ist = s.ist := rfl
@[simp] theorem State.apply_eth_hif (x : Eth) : (s.apply (.eth x)).hif = s.hif := rfl
@[simp] theorem State.apply_eth_eth (x : Eth) : (s.apply (.eth x)).eth = x := rfl
@[simp] theorem State.apply_eth_ddr (x : Eth) : (s.apply (.eth x)).ddr = s.ddr := rfl
@[simp] theorem State.apply_eth_gpio (x : Eth) : (s.apply (.eth x)).gpio = s.gpio := rfl
@[simp] theorem State.apply_eth_evt (x : Eth) : (s.apply (.eth x)).evt = s.evt := rfl
@[simp] theorem State.apply_eth_firsts (x : Eth) : (s.apply (.eth x)).firsts = s.firsts := rfl
@[simp] theorem State.apply_eth_drawn (x : Eth) : (s.apply (.eth x)).drawn = s.drawn := rfl

/-! ### `ddr` -/

@[simp] theorem State.apply_ddr_pending (x : Ddr) : (s.apply (.ddr x)).pending = s.pending := rfl
@[simp] theorem State.apply_ddr_regs (x : Ddr) : (s.apply (.ddr x)).regs = s.regs := rfl
@[simp] theorem State.apply_ddr_mem (x : Ddr) : (s.apply (.ddr x)).mem = s.mem := rfl
@[simp] theorem State.apply_ddr_cores (x : Ddr) : (s.apply (.ddr x)).cores = s.cores := rfl
@[simp] theorem State.apply_ddr_fe (x : Ddr) : (s.apply (.ddr x)).fe = s.fe := rfl
@[simp] theorem State.apply_ddr_bb (x : Ddr) : (s.apply (.ddr x)).bb = s.bb := rfl
@[simp] theorem State.apply_ddr_mac (x : Ddr) : (s.apply (.ddr x)).mac = s.mac := rfl
@[simp] theorem State.apply_ddr_fwd (x : Ddr) : (s.apply (.ddr x)).fwd = s.fwd := rfl
@[simp] theorem State.apply_ddr_tm (x : Ddr) : (s.apply (.ddr x)).tm = s.tm := rfl
@[simp] theorem State.apply_ddr_cry (x : Ddr) : (s.apply (.ddr x)).cry = s.cry := rfl
@[simp] theorem State.apply_ddr_key (x : Ddr) : (s.apply (.ddr x)).key = s.key := rfl
@[simp] theorem State.apply_ddr_acc (x : Ddr) : (s.apply (.ddr x)).acc = s.acc := rfl
@[simp] theorem State.apply_ddr_rtc (x : Ddr) : (s.apply (.ddr x)).rtc = s.rtc := rfl
@[simp] theorem State.apply_ddr_plt (x : Ddr) : (s.apply (.ddr x)).plt = s.plt := rfl
@[simp] theorem State.apply_ddr_nv (x : Ddr) : (s.apply (.ddr x)).nv = s.nv := rfl
@[simp] theorem State.apply_ddr_dis (x : Ddr) : (s.apply (.ddr x)).dis = s.dis := rfl
@[simp] theorem State.apply_ddr_twn (x : Ddr) : (s.apply (.ddr x)).twn = s.twn := rfl
@[simp] theorem State.apply_ddr_ist (x : Ddr) : (s.apply (.ddr x)).ist = s.ist := rfl
@[simp] theorem State.apply_ddr_hif (x : Ddr) : (s.apply (.ddr x)).hif = s.hif := rfl
@[simp] theorem State.apply_ddr_eth (x : Ddr) : (s.apply (.ddr x)).eth = s.eth := rfl
@[simp] theorem State.apply_ddr_ddr (x : Ddr) : (s.apply (.ddr x)).ddr = x := rfl
@[simp] theorem State.apply_ddr_gpio (x : Ddr) : (s.apply (.ddr x)).gpio = s.gpio := rfl
@[simp] theorem State.apply_ddr_evt (x : Ddr) : (s.apply (.ddr x)).evt = s.evt := rfl
@[simp] theorem State.apply_ddr_firsts (x : Ddr) : (s.apply (.ddr x)).firsts = s.firsts := rfl
@[simp] theorem State.apply_ddr_drawn (x : Ddr) : (s.apply (.ddr x)).drawn = s.drawn := rfl

/-! ### `gpio` -/

@[simp] theorem State.apply_gpio_pending (x : Gpio) : (s.apply (.gpio x)).pending = s.pending := rfl
@[simp] theorem State.apply_gpio_regs (x : Gpio) : (s.apply (.gpio x)).regs = s.regs := rfl
@[simp] theorem State.apply_gpio_mem (x : Gpio) : (s.apply (.gpio x)).mem = s.mem := rfl
@[simp] theorem State.apply_gpio_cores (x : Gpio) : (s.apply (.gpio x)).cores = s.cores := rfl
@[simp] theorem State.apply_gpio_fe (x : Gpio) : (s.apply (.gpio x)).fe = s.fe := rfl
@[simp] theorem State.apply_gpio_bb (x : Gpio) : (s.apply (.gpio x)).bb = s.bb := rfl
@[simp] theorem State.apply_gpio_mac (x : Gpio) : (s.apply (.gpio x)).mac = s.mac := rfl
@[simp] theorem State.apply_gpio_fwd (x : Gpio) : (s.apply (.gpio x)).fwd = s.fwd := rfl
@[simp] theorem State.apply_gpio_tm (x : Gpio) : (s.apply (.gpio x)).tm = s.tm := rfl
@[simp] theorem State.apply_gpio_cry (x : Gpio) : (s.apply (.gpio x)).cry = s.cry := rfl
@[simp] theorem State.apply_gpio_key (x : Gpio) : (s.apply (.gpio x)).key = s.key := rfl
@[simp] theorem State.apply_gpio_acc (x : Gpio) : (s.apply (.gpio x)).acc = s.acc := rfl
@[simp] theorem State.apply_gpio_rtc (x : Gpio) : (s.apply (.gpio x)).rtc = s.rtc := rfl
@[simp] theorem State.apply_gpio_plt (x : Gpio) : (s.apply (.gpio x)).plt = s.plt := rfl
@[simp] theorem State.apply_gpio_nv (x : Gpio) : (s.apply (.gpio x)).nv = s.nv := rfl
@[simp] theorem State.apply_gpio_dis (x : Gpio) : (s.apply (.gpio x)).dis = s.dis := rfl
@[simp] theorem State.apply_gpio_twn (x : Gpio) : (s.apply (.gpio x)).twn = s.twn := rfl
@[simp] theorem State.apply_gpio_ist (x : Gpio) : (s.apply (.gpio x)).ist = s.ist := rfl
@[simp] theorem State.apply_gpio_hif (x : Gpio) : (s.apply (.gpio x)).hif = s.hif := rfl
@[simp] theorem State.apply_gpio_eth (x : Gpio) : (s.apply (.gpio x)).eth = s.eth := rfl
@[simp] theorem State.apply_gpio_ddr (x : Gpio) : (s.apply (.gpio x)).ddr = s.ddr := rfl
@[simp] theorem State.apply_gpio_gpio (x : Gpio) : (s.apply (.gpio x)).gpio = x := rfl
@[simp] theorem State.apply_gpio_evt (x : Gpio) : (s.apply (.gpio x)).evt = s.evt := rfl
@[simp] theorem State.apply_gpio_firsts (x : Gpio) : (s.apply (.gpio x)).firsts = s.firsts := rfl
@[simp] theorem State.apply_gpio_drawn (x : Gpio) : (s.apply (.gpio x)).drawn = s.drawn := rfl

/-! ### `evt` -/

@[simp] theorem State.apply_evt_pending (x : Evt) : (s.apply (.evt x)).pending = s.pending := rfl
@[simp] theorem State.apply_evt_regs (x : Evt) : (s.apply (.evt x)).regs = s.regs := rfl
@[simp] theorem State.apply_evt_mem (x : Evt) : (s.apply (.evt x)).mem = s.mem := rfl
@[simp] theorem State.apply_evt_cores (x : Evt) : (s.apply (.evt x)).cores = s.cores := rfl
@[simp] theorem State.apply_evt_fe (x : Evt) : (s.apply (.evt x)).fe = s.fe := rfl
@[simp] theorem State.apply_evt_bb (x : Evt) : (s.apply (.evt x)).bb = s.bb := rfl
@[simp] theorem State.apply_evt_mac (x : Evt) : (s.apply (.evt x)).mac = s.mac := rfl
@[simp] theorem State.apply_evt_fwd (x : Evt) : (s.apply (.evt x)).fwd = s.fwd := rfl
@[simp] theorem State.apply_evt_tm (x : Evt) : (s.apply (.evt x)).tm = s.tm := rfl
@[simp] theorem State.apply_evt_cry (x : Evt) : (s.apply (.evt x)).cry = s.cry := rfl
@[simp] theorem State.apply_evt_key (x : Evt) : (s.apply (.evt x)).key = s.key := rfl
@[simp] theorem State.apply_evt_acc (x : Evt) : (s.apply (.evt x)).acc = s.acc := rfl
@[simp] theorem State.apply_evt_rtc (x : Evt) : (s.apply (.evt x)).rtc = s.rtc := rfl
@[simp] theorem State.apply_evt_plt (x : Evt) : (s.apply (.evt x)).plt = s.plt := rfl
@[simp] theorem State.apply_evt_nv (x : Evt) : (s.apply (.evt x)).nv = s.nv := rfl
@[simp] theorem State.apply_evt_dis (x : Evt) : (s.apply (.evt x)).dis = s.dis := rfl
@[simp] theorem State.apply_evt_twn (x : Evt) : (s.apply (.evt x)).twn = s.twn := rfl
@[simp] theorem State.apply_evt_ist (x : Evt) : (s.apply (.evt x)).ist = s.ist := rfl
@[simp] theorem State.apply_evt_hif (x : Evt) : (s.apply (.evt x)).hif = s.hif := rfl
@[simp] theorem State.apply_evt_eth (x : Evt) : (s.apply (.evt x)).eth = s.eth := rfl
@[simp] theorem State.apply_evt_ddr (x : Evt) : (s.apply (.evt x)).ddr = s.ddr := rfl
@[simp] theorem State.apply_evt_gpio (x : Evt) : (s.apply (.evt x)).gpio = s.gpio := rfl
@[simp] theorem State.apply_evt_evt (x : Evt) : (s.apply (.evt x)).evt = x := rfl
@[simp] theorem State.apply_evt_firsts (x : Evt) : (s.apply (.evt x)).firsts = s.firsts := rfl
@[simp] theorem State.apply_evt_drawn (x : Evt) : (s.apply (.evt x)).drawn = s.drawn := rfl

/-! ### What is read through the named operations -/

@[simp] theorem State.apply_mem_reg (a : Nat) (b : Byte) (k : Nat) : (s.apply (.mem a b)).reg k = s.reg k := rfl
@[simp] theorem State.apply_core_reg (n : Nat) (c : Core) (k : Nat) : (s.apply (.core n c)).reg k = s.reg k := rfl
@[simp] theorem State.apply_first_reg (q : Nat) (b : Bool) (k : Nat) : (s.apply (.first q b)).reg k = s.reg k := rfl
@[simp] theorem State.apply_draw_reg (k : Nat) : (s.apply .draw).reg k = s.reg k := rfl
@[simp] theorem State.apply_fe_reg (x : Fe) (k : Nat) : (s.apply (.fe x)).reg k = s.reg k := rfl
@[simp] theorem State.apply_bb_reg (x : Bb) (k : Nat) : (s.apply (.bb x)).reg k = s.reg k := rfl
@[simp] theorem State.apply_mac_reg (x : Mac) (k : Nat) : (s.apply (.mac x)).reg k = s.reg k := rfl
@[simp] theorem State.apply_fwd_reg (x : Fwd) (k : Nat) : (s.apply (.fwd x)).reg k = s.reg k := rfl
@[simp] theorem State.apply_tm_reg (x : Tm) (k : Nat) : (s.apply (.tm x)).reg k = s.reg k := rfl
@[simp] theorem State.apply_cry_reg (x : Cry) (k : Nat) : (s.apply (.cry x)).reg k = s.reg k := rfl
@[simp] theorem State.apply_key_reg (x : Key) (k : Nat) : (s.apply (.key x)).reg k = s.reg k := rfl
@[simp] theorem State.apply_acc_reg (x : Acc) (k : Nat) : (s.apply (.acc x)).reg k = s.reg k := rfl
@[simp] theorem State.apply_rtc_reg (x : Rtc) (k : Nat) : (s.apply (.rtc x)).reg k = s.reg k := rfl
@[simp] theorem State.apply_plt_reg (x : Plt) (k : Nat) : (s.apply (.plt x)).reg k = s.reg k := rfl
@[simp] theorem State.apply_nv_reg (x : Nv) (k : Nat) : (s.apply (.nv x)).reg k = s.reg k := rfl
@[simp] theorem State.apply_dis_reg (x : Dis) (k : Nat) : (s.apply (.dis x)).reg k = s.reg k := rfl
@[simp] theorem State.apply_twn_reg (x : Twn) (k : Nat) : (s.apply (.twn x)).reg k = s.reg k := rfl
@[simp] theorem State.apply_ist_reg (x : Ist) (k : Nat) : (s.apply (.ist x)).reg k = s.reg k := rfl
@[simp] theorem State.apply_hif_reg (x : Hif) (k : Nat) : (s.apply (.hif x)).reg k = s.reg k := rfl
@[simp] theorem State.apply_eth_reg (x : Eth) (k : Nat) : (s.apply (.eth x)).reg k = s.reg k := rfl
@[simp] theorem State.apply_ddr_reg (x : Ddr) (k : Nat) : (s.apply (.ddr x)).reg k = s.reg k := rfl
@[simp] theorem State.apply_gpio_reg (x : Gpio) (k : Nat) : (s.apply (.gpio x)).reg k = s.reg k := rfl
@[simp] theorem State.apply_evt_reg (x : Evt) (k : Nat) : (s.apply (.evt x)).reg k = s.reg k := rfl
@[simp] theorem State.apply_mem_regN (a : Nat) (b : Byte) (k : Nat) : (s.apply (.mem a b)).regN k = s.regN k := rfl
@[simp] theorem State.apply_core_regN (n : Nat) (c : Core) (k : Nat) : (s.apply (.core n c)).regN k = s.regN k := rfl
@[simp] theorem State.apply_first_regN (q : Nat) (b : Bool) (k : Nat) : (s.apply (.first q b)).regN k = s.regN k := rfl
@[simp] theorem State.apply_draw_regN (k : Nat) : (s.apply .draw).regN k = s.regN k := rfl
@[simp] theorem State.apply_fe_regN (x : Fe) (k : Nat) : (s.apply (.fe x)).regN k = s.regN k := rfl
@[simp] theorem State.apply_bb_regN (x : Bb) (k : Nat) : (s.apply (.bb x)).regN k = s.regN k := rfl
@[simp] theorem State.apply_mac_regN (x : Mac) (k : Nat) : (s.apply (.mac x)).regN k = s.regN k := rfl
@[simp] theorem State.apply_fwd_regN (x : Fwd) (k : Nat) : (s.apply (.fwd x)).regN k = s.regN k := rfl
@[simp] theorem State.apply_tm_regN (x : Tm) (k : Nat) : (s.apply (.tm x)).regN k = s.regN k := rfl
@[simp] theorem State.apply_cry_regN (x : Cry) (k : Nat) : (s.apply (.cry x)).regN k = s.regN k := rfl
@[simp] theorem State.apply_key_regN (x : Key) (k : Nat) : (s.apply (.key x)).regN k = s.regN k := rfl
@[simp] theorem State.apply_acc_regN (x : Acc) (k : Nat) : (s.apply (.acc x)).regN k = s.regN k := rfl
@[simp] theorem State.apply_rtc_regN (x : Rtc) (k : Nat) : (s.apply (.rtc x)).regN k = s.regN k := rfl
@[simp] theorem State.apply_plt_regN (x : Plt) (k : Nat) : (s.apply (.plt x)).regN k = s.regN k := rfl
@[simp] theorem State.apply_nv_regN (x : Nv) (k : Nat) : (s.apply (.nv x)).regN k = s.regN k := rfl
@[simp] theorem State.apply_dis_regN (x : Dis) (k : Nat) : (s.apply (.dis x)).regN k = s.regN k := rfl
@[simp] theorem State.apply_twn_regN (x : Twn) (k : Nat) : (s.apply (.twn x)).regN k = s.regN k := rfl
@[simp] theorem State.apply_ist_regN (x : Ist) (k : Nat) : (s.apply (.ist x)).regN k = s.regN k := rfl
@[simp] theorem State.apply_hif_regN (x : Hif) (k : Nat) : (s.apply (.hif x)).regN k = s.regN k := rfl
@[simp] theorem State.apply_eth_regN (x : Eth) (k : Nat) : (s.apply (.eth x)).regN k = s.regN k := rfl
@[simp] theorem State.apply_ddr_regN (x : Ddr) (k : Nat) : (s.apply (.ddr x)).regN k = s.regN k := rfl
@[simp] theorem State.apply_gpio_regN (x : Gpio) (k : Nat) : (s.apply (.gpio x)).regN k = s.regN k := rfl
@[simp] theorem State.apply_evt_regN (x : Evt) (k : Nat) : (s.apply (.evt x)).regN k = s.regN k := rfl
@[simp] theorem State.apply_mem_fld (a : Nat) (b : Byte) (f : Fld) : (s.apply (.mem a b)).fld f = s.fld f := rfl
@[simp] theorem State.apply_core_fld (n : Nat) (c : Core) (f : Fld) : (s.apply (.core n c)).fld f = s.fld f := rfl
@[simp] theorem State.apply_first_fld (k : Nat) (b : Bool) (f : Fld) : (s.apply (.first k b)).fld f = s.fld f := rfl
@[simp] theorem State.apply_draw_fld (f : Fld) : (s.apply .draw).fld f = s.fld f := rfl
@[simp] theorem State.apply_fe_fld (x : Fe) (f : Fld) : (s.apply (.fe x)).fld f = s.fld f := rfl
@[simp] theorem State.apply_bb_fld (x : Bb) (f : Fld) : (s.apply (.bb x)).fld f = s.fld f := rfl
@[simp] theorem State.apply_mac_fld (x : Mac) (f : Fld) : (s.apply (.mac x)).fld f = s.fld f := rfl
@[simp] theorem State.apply_fwd_fld (x : Fwd) (f : Fld) : (s.apply (.fwd x)).fld f = s.fld f := rfl
@[simp] theorem State.apply_tm_fld (x : Tm) (f : Fld) : (s.apply (.tm x)).fld f = s.fld f := rfl
@[simp] theorem State.apply_cry_fld (x : Cry) (f : Fld) : (s.apply (.cry x)).fld f = s.fld f := rfl
@[simp] theorem State.apply_key_fld (x : Key) (f : Fld) : (s.apply (.key x)).fld f = s.fld f := rfl
@[simp] theorem State.apply_acc_fld (x : Acc) (f : Fld) : (s.apply (.acc x)).fld f = s.fld f := rfl
@[simp] theorem State.apply_rtc_fld (x : Rtc) (f : Fld) : (s.apply (.rtc x)).fld f = s.fld f := rfl
@[simp] theorem State.apply_plt_fld (x : Plt) (f : Fld) : (s.apply (.plt x)).fld f = s.fld f := rfl
@[simp] theorem State.apply_nv_fld (x : Nv) (f : Fld) : (s.apply (.nv x)).fld f = s.fld f := rfl
@[simp] theorem State.apply_dis_fld (x : Dis) (f : Fld) : (s.apply (.dis x)).fld f = s.fld f := rfl
@[simp] theorem State.apply_twn_fld (x : Twn) (f : Fld) : (s.apply (.twn x)).fld f = s.fld f := rfl
@[simp] theorem State.apply_ist_fld (x : Ist) (f : Fld) : (s.apply (.ist x)).fld f = s.fld f := rfl
@[simp] theorem State.apply_hif_fld (x : Hif) (f : Fld) : (s.apply (.hif x)).fld f = s.fld f := rfl
@[simp] theorem State.apply_eth_fld (x : Eth) (f : Fld) : (s.apply (.eth x)).fld f = s.fld f := rfl
@[simp] theorem State.apply_ddr_fld (x : Ddr) (f : Fld) : (s.apply (.ddr x)).fld f = s.fld f := rfl
@[simp] theorem State.apply_gpio_fld (x : Gpio) (f : Fld) : (s.apply (.gpio x)).fld f = s.fld f := rfl
@[simp] theorem State.apply_evt_fld (x : Evt) (f : Fld) : (s.apply (.evt x)).fld f = s.fld f := rfl
@[simp] theorem State.apply_mem_flag (a : Nat) (b : Byte) (f : Fld) : (s.apply (.mem a b)).flag f = s.flag f := rfl
@[simp] theorem State.apply_core_flag (n : Nat) (c : Core) (f : Fld) : (s.apply (.core n c)).flag f = s.flag f := rfl
@[simp] theorem State.apply_first_flag (k : Nat) (b : Bool) (f : Fld) : (s.apply (.first k b)).flag f = s.flag f := rfl
@[simp] theorem State.apply_draw_flag (f : Fld) : (s.apply .draw).flag f = s.flag f := rfl
@[simp] theorem State.apply_fe_flag (x : Fe) (f : Fld) : (s.apply (.fe x)).flag f = s.flag f := rfl
@[simp] theorem State.apply_bb_flag (x : Bb) (f : Fld) : (s.apply (.bb x)).flag f = s.flag f := rfl
@[simp] theorem State.apply_mac_flag (x : Mac) (f : Fld) : (s.apply (.mac x)).flag f = s.flag f := rfl
@[simp] theorem State.apply_fwd_flag (x : Fwd) (f : Fld) : (s.apply (.fwd x)).flag f = s.flag f := rfl
@[simp] theorem State.apply_tm_flag (x : Tm) (f : Fld) : (s.apply (.tm x)).flag f = s.flag f := rfl
@[simp] theorem State.apply_cry_flag (x : Cry) (f : Fld) : (s.apply (.cry x)).flag f = s.flag f := rfl
@[simp] theorem State.apply_key_flag (x : Key) (f : Fld) : (s.apply (.key x)).flag f = s.flag f := rfl
@[simp] theorem State.apply_acc_flag (x : Acc) (f : Fld) : (s.apply (.acc x)).flag f = s.flag f := rfl
@[simp] theorem State.apply_rtc_flag (x : Rtc) (f : Fld) : (s.apply (.rtc x)).flag f = s.flag f := rfl
@[simp] theorem State.apply_plt_flag (x : Plt) (f : Fld) : (s.apply (.plt x)).flag f = s.flag f := rfl
@[simp] theorem State.apply_nv_flag (x : Nv) (f : Fld) : (s.apply (.nv x)).flag f = s.flag f := rfl
@[simp] theorem State.apply_dis_flag (x : Dis) (f : Fld) : (s.apply (.dis x)).flag f = s.flag f := rfl
@[simp] theorem State.apply_twn_flag (x : Twn) (f : Fld) : (s.apply (.twn x)).flag f = s.flag f := rfl
@[simp] theorem State.apply_ist_flag (x : Ist) (f : Fld) : (s.apply (.ist x)).flag f = s.flag f := rfl
@[simp] theorem State.apply_hif_flag (x : Hif) (f : Fld) : (s.apply (.hif x)).flag f = s.flag f := rfl
@[simp] theorem State.apply_eth_flag (x : Eth) (f : Fld) : (s.apply (.eth x)).flag f = s.flag f := rfl
@[simp] theorem State.apply_ddr_flag (x : Ddr) (f : Fld) : (s.apply (.ddr x)).flag f = s.flag f := rfl
@[simp] theorem State.apply_gpio_flag (x : Gpio) (f : Fld) : (s.apply (.gpio x)).flag f = s.flag f := rfl
@[simp] theorem State.apply_evt_flag (x : Evt) (f : Fld) : (s.apply (.evt x)).flag f = s.flag f := rfl
@[simp] theorem State.apply_mem_fldI (a : Nat) (b : Byte) (f : Fld) : (s.apply (.mem a b)).fldI f = s.fldI f := rfl
@[simp] theorem State.apply_core_fldI (n : Nat) (c : Core) (f : Fld) : (s.apply (.core n c)).fldI f = s.fldI f := rfl
@[simp] theorem State.apply_first_fldI (k : Nat) (b : Bool) (f : Fld) : (s.apply (.first k b)).fldI f = s.fldI f := rfl
@[simp] theorem State.apply_draw_fldI (f : Fld) : (s.apply .draw).fldI f = s.fldI f := rfl
@[simp] theorem State.apply_fe_fldI (x : Fe) (f : Fld) : (s.apply (.fe x)).fldI f = s.fldI f := rfl
@[simp] theorem State.apply_bb_fldI (x : Bb) (f : Fld) : (s.apply (.bb x)).fldI f = s.fldI f := rfl
@[simp] theorem State.apply_mac_fldI (x : Mac) (f : Fld) : (s.apply (.mac x)).fldI f = s.fldI f := rfl
@[simp] theorem State.apply_fwd_fldI (x : Fwd) (f : Fld) : (s.apply (.fwd x)).fldI f = s.fldI f := rfl
@[simp] theorem State.apply_tm_fldI (x : Tm) (f : Fld) : (s.apply (.tm x)).fldI f = s.fldI f := rfl
@[simp] theorem State.apply_cry_fldI (x : Cry) (f : Fld) : (s.apply (.cry x)).fldI f = s.fldI f := rfl
@[simp] theorem State.apply_key_fldI (x : Key) (f : Fld) : (s.apply (.key x)).fldI f = s.fldI f := rfl
@[simp] theorem State.apply_acc_fldI (x : Acc) (f : Fld) : (s.apply (.acc x)).fldI f = s.fldI f := rfl
@[simp] theorem State.apply_rtc_fldI (x : Rtc) (f : Fld) : (s.apply (.rtc x)).fldI f = s.fldI f := rfl
@[simp] theorem State.apply_plt_fldI (x : Plt) (f : Fld) : (s.apply (.plt x)).fldI f = s.fldI f := rfl
@[simp] theorem State.apply_nv_fldI (x : Nv) (f : Fld) : (s.apply (.nv x)).fldI f = s.fldI f := rfl
@[simp] theorem State.apply_dis_fldI (x : Dis) (f : Fld) : (s.apply (.dis x)).fldI f = s.fldI f := rfl
@[simp] theorem State.apply_twn_fldI (x : Twn) (f : Fld) : (s.apply (.twn x)).fldI f = s.fldI f := rfl
@[simp] theorem State.apply_ist_fldI (x : Ist) (f : Fld) : (s.apply (.ist x)).fldI f = s.fldI f := rfl
@[simp] theorem State.apply_hif_fldI (x : Hif) (f : Fld) : (s.apply (.hif x)).fldI f = s.fldI f := rfl
@[simp] theorem State.apply_eth_fldI (x : Eth) (f : Fld) : (s.apply (.eth x)).fldI f = s.fldI f := rfl
@[simp] theorem State.apply_ddr_fldI (x : Ddr) (f : Fld) : (s.apply (.ddr x)).fldI f = s.fldI f := rfl
@[simp] theorem State.apply_gpio_fldI (x : Gpio) (f : Fld) : (s.apply (.gpio x)).fldI f = s.fldI f := rfl
@[simp] theorem State.apply_evt_fldI (x : Evt) (f : Fld) : (s.apply (.evt x)).fldI f = s.fldI f := rfl
@[simp] theorem State.apply_mem_pair (a : Nat) (b : Byte) (i j : Nat) : (s.apply (.mem a b)).pair i j = s.pair i j := rfl
@[simp] theorem State.apply_core_pair (n : Nat) (c : Core) (i j : Nat) : (s.apply (.core n c)).pair i j = s.pair i j := rfl
@[simp] theorem State.apply_first_pair (k : Nat) (b : Bool) (i j : Nat) : (s.apply (.first k b)).pair i j = s.pair i j := rfl
@[simp] theorem State.apply_draw_pair (i j : Nat) : (s.apply .draw).pair i j = s.pair i j := rfl
@[simp] theorem State.apply_fe_pair (x : Fe) (i j : Nat) : (s.apply (.fe x)).pair i j = s.pair i j := rfl
@[simp] theorem State.apply_bb_pair (x : Bb) (i j : Nat) : (s.apply (.bb x)).pair i j = s.pair i j := rfl
@[simp] theorem State.apply_mac_pair (x : Mac) (i j : Nat) : (s.apply (.mac x)).pair i j = s.pair i j := rfl
@[simp] theorem State.apply_fwd_pair (x : Fwd) (i j : Nat) : (s.apply (.fwd x)).pair i j = s.pair i j := rfl
@[simp] theorem State.apply_tm_pair (x : Tm) (i j : Nat) : (s.apply (.tm x)).pair i j = s.pair i j := rfl
@[simp] theorem State.apply_cry_pair (x : Cry) (i j : Nat) : (s.apply (.cry x)).pair i j = s.pair i j := rfl
@[simp] theorem State.apply_key_pair (x : Key) (i j : Nat) : (s.apply (.key x)).pair i j = s.pair i j := rfl
@[simp] theorem State.apply_acc_pair (x : Acc) (i j : Nat) : (s.apply (.acc x)).pair i j = s.pair i j := rfl
@[simp] theorem State.apply_rtc_pair (x : Rtc) (i j : Nat) : (s.apply (.rtc x)).pair i j = s.pair i j := rfl
@[simp] theorem State.apply_plt_pair (x : Plt) (i j : Nat) : (s.apply (.plt x)).pair i j = s.pair i j := rfl
@[simp] theorem State.apply_nv_pair (x : Nv) (i j : Nat) : (s.apply (.nv x)).pair i j = s.pair i j := rfl
@[simp] theorem State.apply_dis_pair (x : Dis) (i j : Nat) : (s.apply (.dis x)).pair i j = s.pair i j := rfl
@[simp] theorem State.apply_twn_pair (x : Twn) (i j : Nat) : (s.apply (.twn x)).pair i j = s.pair i j := rfl
@[simp] theorem State.apply_ist_pair (x : Ist) (i j : Nat) : (s.apply (.ist x)).pair i j = s.pair i j := rfl
@[simp] theorem State.apply_hif_pair (x : Hif) (i j : Nat) : (s.apply (.hif x)).pair i j = s.pair i j := rfl
@[simp] theorem State.apply_eth_pair (x : Eth) (i j : Nat) : (s.apply (.eth x)).pair i j = s.pair i j := rfl
@[simp] theorem State.apply_ddr_pair (x : Ddr) (i j : Nat) : (s.apply (.ddr x)).pair i j = s.pair i j := rfl
@[simp] theorem State.apply_gpio_pair (x : Gpio) (i j : Nat) : (s.apply (.gpio x)).pair i j = s.pair i j := rfl
@[simp] theorem State.apply_evt_pair (x : Evt) (i j : Nat) : (s.apply (.evt x)).pair i j = s.pair i j := rfl
@[simp] theorem State.apply_mem_domain (a : Nat) (b : Byte) (n : Nat) : (s.apply (.mem a b)).domain n = s.domain n := rfl
@[simp] theorem State.apply_core_domain (q : Nat) (c : Core) (n : Nat) : (s.apply (.core q c)).domain n = s.domain n := rfl
@[simp] theorem State.apply_first_domain (k : Nat) (b : Bool) (n : Nat) : (s.apply (.first k b)).domain n = s.domain n := rfl
@[simp] theorem State.apply_draw_domain (n : Nat) : (s.apply .draw).domain n = s.domain n := rfl
@[simp] theorem State.apply_fe_domain (x : Fe) (n : Nat) : (s.apply (.fe x)).domain n = s.domain n := rfl
@[simp] theorem State.apply_bb_domain (x : Bb) (n : Nat) : (s.apply (.bb x)).domain n = s.domain n := rfl
@[simp] theorem State.apply_mac_domain (x : Mac) (n : Nat) : (s.apply (.mac x)).domain n = s.domain n := rfl
@[simp] theorem State.apply_fwd_domain (x : Fwd) (n : Nat) : (s.apply (.fwd x)).domain n = s.domain n := rfl
@[simp] theorem State.apply_tm_domain (x : Tm) (n : Nat) : (s.apply (.tm x)).domain n = s.domain n := rfl
@[simp] theorem State.apply_cry_domain (x : Cry) (n : Nat) : (s.apply (.cry x)).domain n = s.domain n := rfl
@[simp] theorem State.apply_key_domain (x : Key) (n : Nat) : (s.apply (.key x)).domain n = s.domain n := rfl
@[simp] theorem State.apply_acc_domain (x : Acc) (n : Nat) : (s.apply (.acc x)).domain n = s.domain n := rfl
@[simp] theorem State.apply_rtc_domain (x : Rtc) (n : Nat) : (s.apply (.rtc x)).domain n = s.domain n := rfl
@[simp] theorem State.apply_plt_domain (x : Plt) (n : Nat) : (s.apply (.plt x)).domain n = s.domain n := rfl
@[simp] theorem State.apply_nv_domain (x : Nv) (n : Nat) : (s.apply (.nv x)).domain n = s.domain n := rfl
@[simp] theorem State.apply_dis_domain (x : Dis) (n : Nat) : (s.apply (.dis x)).domain n = s.domain n := rfl
@[simp] theorem State.apply_twn_domain (x : Twn) (n : Nat) : (s.apply (.twn x)).domain n = s.domain n := rfl
@[simp] theorem State.apply_ist_domain (x : Ist) (n : Nat) : (s.apply (.ist x)).domain n = s.domain n := rfl
@[simp] theorem State.apply_hif_domain (x : Hif) (n : Nat) : (s.apply (.hif x)).domain n = s.domain n := rfl
@[simp] theorem State.apply_eth_domain (x : Eth) (n : Nat) : (s.apply (.eth x)).domain n = s.domain n := rfl
@[simp] theorem State.apply_ddr_domain (x : Ddr) (n : Nat) : (s.apply (.ddr x)).domain n = s.domain n := rfl
@[simp] theorem State.apply_gpio_domain (x : Gpio) (n : Nat) : (s.apply (.gpio x)).domain n = s.domain n := rfl
@[simp] theorem State.apply_evt_domain (x : Evt) (n : Nat) : (s.apply (.evt x)).domain n = s.domain n := rfl
@[simp] theorem State.apply_mem_on (a : Nat) (b : Byte) (n : Nat) : (s.apply (.mem a b)).on n = s.on n := rfl
@[simp] theorem State.apply_core_on (q : Nat) (c : Core) (n : Nat) : (s.apply (.core q c)).on n = s.on n := rfl
@[simp] theorem State.apply_first_on (k : Nat) (b : Bool) (n : Nat) : (s.apply (.first k b)).on n = s.on n := rfl
@[simp] theorem State.apply_draw_on (n : Nat) : (s.apply .draw).on n = s.on n := rfl
@[simp] theorem State.apply_fe_on (x : Fe) (n : Nat) : (s.apply (.fe x)).on n = s.on n := rfl
@[simp] theorem State.apply_bb_on (x : Bb) (n : Nat) : (s.apply (.bb x)).on n = s.on n := rfl
@[simp] theorem State.apply_mac_on (x : Mac) (n : Nat) : (s.apply (.mac x)).on n = s.on n := rfl
@[simp] theorem State.apply_fwd_on (x : Fwd) (n : Nat) : (s.apply (.fwd x)).on n = s.on n := rfl
@[simp] theorem State.apply_tm_on (x : Tm) (n : Nat) : (s.apply (.tm x)).on n = s.on n := rfl
@[simp] theorem State.apply_cry_on (x : Cry) (n : Nat) : (s.apply (.cry x)).on n = s.on n := rfl
@[simp] theorem State.apply_key_on (x : Key) (n : Nat) : (s.apply (.key x)).on n = s.on n := rfl
@[simp] theorem State.apply_acc_on (x : Acc) (n : Nat) : (s.apply (.acc x)).on n = s.on n := rfl
@[simp] theorem State.apply_rtc_on (x : Rtc) (n : Nat) : (s.apply (.rtc x)).on n = s.on n := rfl
@[simp] theorem State.apply_plt_on (x : Plt) (n : Nat) : (s.apply (.plt x)).on n = s.on n := rfl
@[simp] theorem State.apply_nv_on (x : Nv) (n : Nat) : (s.apply (.nv x)).on n = s.on n := rfl
@[simp] theorem State.apply_dis_on (x : Dis) (n : Nat) : (s.apply (.dis x)).on n = s.on n := rfl
@[simp] theorem State.apply_twn_on (x : Twn) (n : Nat) : (s.apply (.twn x)).on n = s.on n := rfl
@[simp] theorem State.apply_ist_on (x : Ist) (n : Nat) : (s.apply (.ist x)).on n = s.on n := rfl
@[simp] theorem State.apply_hif_on (x : Hif) (n : Nat) : (s.apply (.hif x)).on n = s.on n := rfl
@[simp] theorem State.apply_eth_on (x : Eth) (n : Nat) : (s.apply (.eth x)).on n = s.on n := rfl
@[simp] theorem State.apply_ddr_on (x : Ddr) (n : Nat) : (s.apply (.ddr x)).on n = s.on n := rfl
@[simp] theorem State.apply_gpio_on (x : Gpio) (n : Nat) : (s.apply (.gpio x)).on n = s.on n := rfl
@[simp] theorem State.apply_evt_on (x : Evt) (n : Nat) : (s.apply (.evt x)).on n = s.on n := rfl
@[simp] theorem State.apply_reg_byte (k : Nat) (v : Word) (i : Nat) : (s.apply (.reg k v)).byte i = s.byte i := rfl
@[simp] theorem State.apply_core_byte (n : Nat) (c : Core) (i : Nat) : (s.apply (.core n c)).byte i = s.byte i := rfl
@[simp] theorem State.apply_first_byte (k : Nat) (b : Bool) (i : Nat) : (s.apply (.first k b)).byte i = s.byte i := rfl
@[simp] theorem State.apply_draw_byte (i : Nat) : (s.apply .draw).byte i = s.byte i := rfl
@[simp] theorem State.apply_fe_byte (x : Fe) (i : Nat) : (s.apply (.fe x)).byte i = s.byte i := rfl
@[simp] theorem State.apply_bb_byte (x : Bb) (i : Nat) : (s.apply (.bb x)).byte i = s.byte i := rfl
@[simp] theorem State.apply_mac_byte (x : Mac) (i : Nat) : (s.apply (.mac x)).byte i = s.byte i := rfl
@[simp] theorem State.apply_fwd_byte (x : Fwd) (i : Nat) : (s.apply (.fwd x)).byte i = s.byte i := rfl
@[simp] theorem State.apply_tm_byte (x : Tm) (i : Nat) : (s.apply (.tm x)).byte i = s.byte i := rfl
@[simp] theorem State.apply_cry_byte (x : Cry) (i : Nat) : (s.apply (.cry x)).byte i = s.byte i := rfl
@[simp] theorem State.apply_key_byte (x : Key) (i : Nat) : (s.apply (.key x)).byte i = s.byte i := rfl
@[simp] theorem State.apply_acc_byte (x : Acc) (i : Nat) : (s.apply (.acc x)).byte i = s.byte i := rfl
@[simp] theorem State.apply_rtc_byte (x : Rtc) (i : Nat) : (s.apply (.rtc x)).byte i = s.byte i := rfl
@[simp] theorem State.apply_plt_byte (x : Plt) (i : Nat) : (s.apply (.plt x)).byte i = s.byte i := rfl
@[simp] theorem State.apply_nv_byte (x : Nv) (i : Nat) : (s.apply (.nv x)).byte i = s.byte i := rfl
@[simp] theorem State.apply_dis_byte (x : Dis) (i : Nat) : (s.apply (.dis x)).byte i = s.byte i := rfl
@[simp] theorem State.apply_twn_byte (x : Twn) (i : Nat) : (s.apply (.twn x)).byte i = s.byte i := rfl
@[simp] theorem State.apply_ist_byte (x : Ist) (i : Nat) : (s.apply (.ist x)).byte i = s.byte i := rfl
@[simp] theorem State.apply_hif_byte (x : Hif) (i : Nat) : (s.apply (.hif x)).byte i = s.byte i := rfl
@[simp] theorem State.apply_eth_byte (x : Eth) (i : Nat) : (s.apply (.eth x)).byte i = s.byte i := rfl
@[simp] theorem State.apply_ddr_byte (x : Ddr) (i : Nat) : (s.apply (.ddr x)).byte i = s.byte i := rfl
@[simp] theorem State.apply_gpio_byte (x : Gpio) (i : Nat) : (s.apply (.gpio x)).byte i = s.byte i := rfl
@[simp] theorem State.apply_evt_byte (x : Evt) (i : Nat) : (s.apply (.evt x)).byte i = s.byte i := rfl
@[simp] theorem State.apply_reg_bytes (k : Nat) (v : Word) (i j : Nat) : (s.apply (.reg k v)).bytes i j = s.bytes i j := rfl
@[simp] theorem State.apply_core_bytes (n : Nat) (c : Core) (i j : Nat) : (s.apply (.core n c)).bytes i j = s.bytes i j := rfl
@[simp] theorem State.apply_first_bytes (k : Nat) (b : Bool) (i j : Nat) : (s.apply (.first k b)).bytes i j = s.bytes i j := rfl
@[simp] theorem State.apply_draw_bytes (i j : Nat) : (s.apply .draw).bytes i j = s.bytes i j := rfl
@[simp] theorem State.apply_fe_bytes (x : Fe) (i j : Nat) : (s.apply (.fe x)).bytes i j = s.bytes i j := rfl
@[simp] theorem State.apply_bb_bytes (x : Bb) (i j : Nat) : (s.apply (.bb x)).bytes i j = s.bytes i j := rfl
@[simp] theorem State.apply_mac_bytes (x : Mac) (i j : Nat) : (s.apply (.mac x)).bytes i j = s.bytes i j := rfl
@[simp] theorem State.apply_fwd_bytes (x : Fwd) (i j : Nat) : (s.apply (.fwd x)).bytes i j = s.bytes i j := rfl
@[simp] theorem State.apply_tm_bytes (x : Tm) (i j : Nat) : (s.apply (.tm x)).bytes i j = s.bytes i j := rfl
@[simp] theorem State.apply_cry_bytes (x : Cry) (i j : Nat) : (s.apply (.cry x)).bytes i j = s.bytes i j := rfl
@[simp] theorem State.apply_key_bytes (x : Key) (i j : Nat) : (s.apply (.key x)).bytes i j = s.bytes i j := rfl
@[simp] theorem State.apply_acc_bytes (x : Acc) (i j : Nat) : (s.apply (.acc x)).bytes i j = s.bytes i j := rfl
@[simp] theorem State.apply_rtc_bytes (x : Rtc) (i j : Nat) : (s.apply (.rtc x)).bytes i j = s.bytes i j := rfl
@[simp] theorem State.apply_plt_bytes (x : Plt) (i j : Nat) : (s.apply (.plt x)).bytes i j = s.bytes i j := rfl
@[simp] theorem State.apply_nv_bytes (x : Nv) (i j : Nat) : (s.apply (.nv x)).bytes i j = s.bytes i j := rfl
@[simp] theorem State.apply_dis_bytes (x : Dis) (i j : Nat) : (s.apply (.dis x)).bytes i j = s.bytes i j := rfl
@[simp] theorem State.apply_twn_bytes (x : Twn) (i j : Nat) : (s.apply (.twn x)).bytes i j = s.bytes i j := rfl
@[simp] theorem State.apply_ist_bytes (x : Ist) (i j : Nat) : (s.apply (.ist x)).bytes i j = s.bytes i j := rfl
@[simp] theorem State.apply_hif_bytes (x : Hif) (i j : Nat) : (s.apply (.hif x)).bytes i j = s.bytes i j := rfl
@[simp] theorem State.apply_eth_bytes (x : Eth) (i j : Nat) : (s.apply (.eth x)).bytes i j = s.bytes i j := rfl
@[simp] theorem State.apply_ddr_bytes (x : Ddr) (i j : Nat) : (s.apply (.ddr x)).bytes i j = s.bytes i j := rfl
@[simp] theorem State.apply_gpio_bytes (x : Gpio) (i j : Nat) : (s.apply (.gpio x)).bytes i j = s.bytes i j := rfl
@[simp] theorem State.apply_evt_bytes (x : Evt) (i j : Nat) : (s.apply (.evt x)).bytes i j = s.bytes i j := rfl
@[simp] theorem State.apply_reg_mem' (k : Nat) (v : Word) (i j : Nat) : (s.apply (.reg k v)).mem' i j = s.mem' i j := rfl
@[simp] theorem State.apply_core_mem' (n : Nat) (c : Core) (i j : Nat) : (s.apply (.core n c)).mem' i j = s.mem' i j := rfl
@[simp] theorem State.apply_first_mem' (k : Nat) (b : Bool) (i j : Nat) : (s.apply (.first k b)).mem' i j = s.mem' i j := rfl
@[simp] theorem State.apply_draw_mem' (i j : Nat) : (s.apply .draw).mem' i j = s.mem' i j := rfl
@[simp] theorem State.apply_fe_mem' (x : Fe) (i j : Nat) : (s.apply (.fe x)).mem' i j = s.mem' i j := rfl
@[simp] theorem State.apply_bb_mem' (x : Bb) (i j : Nat) : (s.apply (.bb x)).mem' i j = s.mem' i j := rfl
@[simp] theorem State.apply_mac_mem' (x : Mac) (i j : Nat) : (s.apply (.mac x)).mem' i j = s.mem' i j := rfl
@[simp] theorem State.apply_fwd_mem' (x : Fwd) (i j : Nat) : (s.apply (.fwd x)).mem' i j = s.mem' i j := rfl
@[simp] theorem State.apply_tm_mem' (x : Tm) (i j : Nat) : (s.apply (.tm x)).mem' i j = s.mem' i j := rfl
@[simp] theorem State.apply_cry_mem' (x : Cry) (i j : Nat) : (s.apply (.cry x)).mem' i j = s.mem' i j := rfl
@[simp] theorem State.apply_key_mem' (x : Key) (i j : Nat) : (s.apply (.key x)).mem' i j = s.mem' i j := rfl
@[simp] theorem State.apply_acc_mem' (x : Acc) (i j : Nat) : (s.apply (.acc x)).mem' i j = s.mem' i j := rfl
@[simp] theorem State.apply_rtc_mem' (x : Rtc) (i j : Nat) : (s.apply (.rtc x)).mem' i j = s.mem' i j := rfl
@[simp] theorem State.apply_plt_mem' (x : Plt) (i j : Nat) : (s.apply (.plt x)).mem' i j = s.mem' i j := rfl
@[simp] theorem State.apply_nv_mem' (x : Nv) (i j : Nat) : (s.apply (.nv x)).mem' i j = s.mem' i j := rfl
@[simp] theorem State.apply_dis_mem' (x : Dis) (i j : Nat) : (s.apply (.dis x)).mem' i j = s.mem' i j := rfl
@[simp] theorem State.apply_twn_mem' (x : Twn) (i j : Nat) : (s.apply (.twn x)).mem' i j = s.mem' i j := rfl
@[simp] theorem State.apply_ist_mem' (x : Ist) (i j : Nat) : (s.apply (.ist x)).mem' i j = s.mem' i j := rfl
@[simp] theorem State.apply_hif_mem' (x : Hif) (i j : Nat) : (s.apply (.hif x)).mem' i j = s.mem' i j := rfl
@[simp] theorem State.apply_eth_mem' (x : Eth) (i j : Nat) : (s.apply (.eth x)).mem' i j = s.mem' i j := rfl
@[simp] theorem State.apply_ddr_mem' (x : Ddr) (i j : Nat) : (s.apply (.ddr x)).mem' i j = s.mem' i j := rfl
@[simp] theorem State.apply_gpio_mem' (x : Gpio) (i j : Nat) : (s.apply (.gpio x)).mem' i j = s.mem' i j := rfl
@[simp] theorem State.apply_evt_mem' (x : Evt) (i j : Nat) : (s.apply (.evt x)).mem' i j = s.mem' i j := rfl
@[simp] theorem State.apply_reg_word (k : Nat) (v : Word) (i : Nat) : (s.apply (.reg k v)).word i = s.word i := rfl
@[simp] theorem State.apply_core_word (n : Nat) (c : Core) (i : Nat) : (s.apply (.core n c)).word i = s.word i := rfl
@[simp] theorem State.apply_first_word (k : Nat) (b : Bool) (i : Nat) : (s.apply (.first k b)).word i = s.word i := rfl
@[simp] theorem State.apply_draw_word (i : Nat) : (s.apply .draw).word i = s.word i := rfl
@[simp] theorem State.apply_fe_word (x : Fe) (i : Nat) : (s.apply (.fe x)).word i = s.word i := rfl
@[simp] theorem State.apply_bb_word (x : Bb) (i : Nat) : (s.apply (.bb x)).word i = s.word i := rfl
@[simp] theorem State.apply_mac_word (x : Mac) (i : Nat) : (s.apply (.mac x)).word i = s.word i := rfl
@[simp] theorem State.apply_fwd_word (x : Fwd) (i : Nat) : (s.apply (.fwd x)).word i = s.word i := rfl
@[simp] theorem State.apply_tm_word (x : Tm) (i : Nat) : (s.apply (.tm x)).word i = s.word i := rfl
@[simp] theorem State.apply_cry_word (x : Cry) (i : Nat) : (s.apply (.cry x)).word i = s.word i := rfl
@[simp] theorem State.apply_key_word (x : Key) (i : Nat) : (s.apply (.key x)).word i = s.word i := rfl
@[simp] theorem State.apply_acc_word (x : Acc) (i : Nat) : (s.apply (.acc x)).word i = s.word i := rfl
@[simp] theorem State.apply_rtc_word (x : Rtc) (i : Nat) : (s.apply (.rtc x)).word i = s.word i := rfl
@[simp] theorem State.apply_plt_word (x : Plt) (i : Nat) : (s.apply (.plt x)).word i = s.word i := rfl
@[simp] theorem State.apply_nv_word (x : Nv) (i : Nat) : (s.apply (.nv x)).word i = s.word i := rfl
@[simp] theorem State.apply_dis_word (x : Dis) (i : Nat) : (s.apply (.dis x)).word i = s.word i := rfl
@[simp] theorem State.apply_twn_word (x : Twn) (i : Nat) : (s.apply (.twn x)).word i = s.word i := rfl
@[simp] theorem State.apply_ist_word (x : Ist) (i : Nat) : (s.apply (.ist x)).word i = s.word i := rfl
@[simp] theorem State.apply_hif_word (x : Hif) (i : Nat) : (s.apply (.hif x)).word i = s.word i := rfl
@[simp] theorem State.apply_eth_word (x : Eth) (i : Nat) : (s.apply (.eth x)).word i = s.word i := rfl
@[simp] theorem State.apply_ddr_word (x : Ddr) (i : Nat) : (s.apply (.ddr x)).word i = s.word i := rfl
@[simp] theorem State.apply_gpio_word (x : Gpio) (i : Nat) : (s.apply (.gpio x)).word i = s.word i := rfl
@[simp] theorem State.apply_evt_word (x : Evt) (i : Nat) : (s.apply (.evt x)).word i = s.word i := rfl
@[simp] theorem State.apply_reg_ns (k : Nat) (v : Word) : (s.apply (.reg k v)).ns = s.ns := rfl
@[simp] theorem State.apply_mem_ns (a : Nat) (b : Byte) : (s.apply (.mem a b)).ns = s.ns := rfl
@[simp] theorem State.apply_core_ns (n : Nat) (c : Core) : (s.apply (.core n c)).ns = s.ns := rfl
@[simp] theorem State.apply_first_ns (k : Nat) (b : Bool) : (s.apply (.first k b)).ns = s.ns := rfl
@[simp] theorem State.apply_draw_ns : (s.apply .draw).ns = s.ns := rfl
@[simp] theorem State.apply_fe_ns (x : Fe) : (s.apply (.fe x)).ns = s.ns := rfl
@[simp] theorem State.apply_bb_ns (x : Bb) : (s.apply (.bb x)).ns = s.ns := rfl
@[simp] theorem State.apply_mac_ns (x : Mac) : (s.apply (.mac x)).ns = s.ns := rfl
@[simp] theorem State.apply_fwd_ns (x : Fwd) : (s.apply (.fwd x)).ns = s.ns := rfl
@[simp] theorem State.apply_tm_ns (x : Tm) : (s.apply (.tm x)).ns = s.ns := rfl
@[simp] theorem State.apply_cry_ns (x : Cry) : (s.apply (.cry x)).ns = s.ns := rfl
@[simp] theorem State.apply_key_ns (x : Key) : (s.apply (.key x)).ns = s.ns := rfl
@[simp] theorem State.apply_rtc_ns (x : Rtc) : (s.apply (.rtc x)).ns = s.ns := rfl
@[simp] theorem State.apply_plt_ns (x : Plt) : (s.apply (.plt x)).ns = s.ns := rfl
@[simp] theorem State.apply_nv_ns (x : Nv) : (s.apply (.nv x)).ns = s.ns := rfl
@[simp] theorem State.apply_dis_ns (x : Dis) : (s.apply (.dis x)).ns = s.ns := rfl
@[simp] theorem State.apply_twn_ns (x : Twn) : (s.apply (.twn x)).ns = s.ns := rfl
@[simp] theorem State.apply_ist_ns (x : Ist) : (s.apply (.ist x)).ns = s.ns := rfl
@[simp] theorem State.apply_hif_ns (x : Hif) : (s.apply (.hif x)).ns = s.ns := rfl
@[simp] theorem State.apply_eth_ns (x : Eth) : (s.apply (.eth x)).ns = s.ns := rfl
@[simp] theorem State.apply_ddr_ns (x : Ddr) : (s.apply (.ddr x)).ns = s.ns := rfl
@[simp] theorem State.apply_gpio_ns (x : Gpio) : (s.apply (.gpio x)).ns = s.ns := rfl
@[simp] theorem State.apply_evt_ns (x : Evt) : (s.apply (.evt x)).ns = s.ns := rfl
@[simp] theorem State.apply_reg_now (k : Nat) (v : Word) : (s.apply (.reg k v)).now = s.now := rfl
@[simp] theorem State.apply_mem_now (a : Nat) (b : Byte) : (s.apply (.mem a b)).now = s.now := rfl
@[simp] theorem State.apply_core_now (n : Nat) (c : Core) : (s.apply (.core n c)).now = s.now := rfl
@[simp] theorem State.apply_first_now (k : Nat) (b : Bool) : (s.apply (.first k b)).now = s.now := rfl
@[simp] theorem State.apply_draw_now : (s.apply .draw).now = s.now := rfl
@[simp] theorem State.apply_fe_now (x : Fe) : (s.apply (.fe x)).now = s.now := rfl
@[simp] theorem State.apply_bb_now (x : Bb) : (s.apply (.bb x)).now = s.now := rfl
@[simp] theorem State.apply_mac_now (x : Mac) : (s.apply (.mac x)).now = s.now := rfl
@[simp] theorem State.apply_fwd_now (x : Fwd) : (s.apply (.fwd x)).now = s.now := rfl
@[simp] theorem State.apply_tm_now (x : Tm) : (s.apply (.tm x)).now = s.now := rfl
@[simp] theorem State.apply_cry_now (x : Cry) : (s.apply (.cry x)).now = s.now := rfl
@[simp] theorem State.apply_key_now (x : Key) : (s.apply (.key x)).now = s.now := rfl
@[simp] theorem State.apply_rtc_now (x : Rtc) : (s.apply (.rtc x)).now = s.now := rfl
@[simp] theorem State.apply_plt_now (x : Plt) : (s.apply (.plt x)).now = s.now := rfl
@[simp] theorem State.apply_nv_now (x : Nv) : (s.apply (.nv x)).now = s.now := rfl
@[simp] theorem State.apply_dis_now (x : Dis) : (s.apply (.dis x)).now = s.now := rfl
@[simp] theorem State.apply_twn_now (x : Twn) : (s.apply (.twn x)).now = s.now := rfl
@[simp] theorem State.apply_ist_now (x : Ist) : (s.apply (.ist x)).now = s.now := rfl
@[simp] theorem State.apply_hif_now (x : Hif) : (s.apply (.hif x)).now = s.now := rfl
@[simp] theorem State.apply_eth_now (x : Eth) : (s.apply (.eth x)).now = s.now := rfl
@[simp] theorem State.apply_ddr_now (x : Ddr) : (s.apply (.ddr x)).now = s.now := rfl
@[simp] theorem State.apply_gpio_now (x : Gpio) : (s.apply (.gpio x)).now = s.now := rfl
@[simp] theorem State.apply_evt_now (x : Evt) : (s.apply (.evt x)).now = s.now := rfl
@[simp] theorem State.apply_reg_ltbUs (k : Nat) (v : Word) : (s.apply (.reg k v)).ltbUs = s.ltbUs := rfl
@[simp] theorem State.apply_mem_ltbUs (a : Nat) (b : Byte) : (s.apply (.mem a b)).ltbUs = s.ltbUs := rfl
@[simp] theorem State.apply_core_ltbUs (n : Nat) (c : Core) : (s.apply (.core n c)).ltbUs = s.ltbUs := rfl
@[simp] theorem State.apply_first_ltbUs (k : Nat) (b : Bool) : (s.apply (.first k b)).ltbUs = s.ltbUs := rfl
@[simp] theorem State.apply_draw_ltbUs : (s.apply .draw).ltbUs = s.ltbUs := rfl
@[simp] theorem State.apply_fe_ltbUs (x : Fe) : (s.apply (.fe x)).ltbUs = s.ltbUs := rfl
@[simp] theorem State.apply_bb_ltbUs (x : Bb) : (s.apply (.bb x)).ltbUs = s.ltbUs := rfl
@[simp] theorem State.apply_mac_ltbUs (x : Mac) : (s.apply (.mac x)).ltbUs = s.ltbUs := rfl
@[simp] theorem State.apply_fwd_ltbUs (x : Fwd) : (s.apply (.fwd x)).ltbUs = s.ltbUs := rfl
@[simp] theorem State.apply_tm_ltbUs (x : Tm) : (s.apply (.tm x)).ltbUs = s.ltbUs := rfl
@[simp] theorem State.apply_cry_ltbUs (x : Cry) : (s.apply (.cry x)).ltbUs = s.ltbUs := rfl
@[simp] theorem State.apply_key_ltbUs (x : Key) : (s.apply (.key x)).ltbUs = s.ltbUs := rfl
@[simp] theorem State.apply_rtc_ltbUs (x : Rtc) : (s.apply (.rtc x)).ltbUs = s.ltbUs := rfl
@[simp] theorem State.apply_plt_ltbUs (x : Plt) : (s.apply (.plt x)).ltbUs = s.ltbUs := rfl
@[simp] theorem State.apply_nv_ltbUs (x : Nv) : (s.apply (.nv x)).ltbUs = s.ltbUs := rfl
@[simp] theorem State.apply_dis_ltbUs (x : Dis) : (s.apply (.dis x)).ltbUs = s.ltbUs := rfl
@[simp] theorem State.apply_twn_ltbUs (x : Twn) : (s.apply (.twn x)).ltbUs = s.ltbUs := rfl
@[simp] theorem State.apply_ist_ltbUs (x : Ist) : (s.apply (.ist x)).ltbUs = s.ltbUs := rfl
@[simp] theorem State.apply_hif_ltbUs (x : Hif) : (s.apply (.hif x)).ltbUs = s.ltbUs := rfl
@[simp] theorem State.apply_eth_ltbUs (x : Eth) : (s.apply (.eth x)).ltbUs = s.ltbUs := rfl
@[simp] theorem State.apply_ddr_ltbUs (x : Ddr) : (s.apply (.ddr x)).ltbUs = s.ltbUs := rfl
@[simp] theorem State.apply_gpio_ltbUs (x : Gpio) : (s.apply (.gpio x)).ltbUs = s.ltbUs := rfl
@[simp] theorem State.apply_evt_ltbUs (x : Evt) : (s.apply (.evt x)).ltbUs = s.ltbUs := rfl
@[simp] theorem State.apply_reg_ltbMs (k : Nat) (v : Word) : (s.apply (.reg k v)).ltbMs = s.ltbMs := rfl
@[simp] theorem State.apply_mem_ltbMs (a : Nat) (b : Byte) : (s.apply (.mem a b)).ltbMs = s.ltbMs := rfl
@[simp] theorem State.apply_core_ltbMs (n : Nat) (c : Core) : (s.apply (.core n c)).ltbMs = s.ltbMs := rfl
@[simp] theorem State.apply_first_ltbMs (k : Nat) (b : Bool) : (s.apply (.first k b)).ltbMs = s.ltbMs := rfl
@[simp] theorem State.apply_draw_ltbMs : (s.apply .draw).ltbMs = s.ltbMs := rfl
@[simp] theorem State.apply_fe_ltbMs (x : Fe) : (s.apply (.fe x)).ltbMs = s.ltbMs := rfl
@[simp] theorem State.apply_bb_ltbMs (x : Bb) : (s.apply (.bb x)).ltbMs = s.ltbMs := rfl
@[simp] theorem State.apply_mac_ltbMs (x : Mac) : (s.apply (.mac x)).ltbMs = s.ltbMs := rfl
@[simp] theorem State.apply_fwd_ltbMs (x : Fwd) : (s.apply (.fwd x)).ltbMs = s.ltbMs := rfl
@[simp] theorem State.apply_tm_ltbMs (x : Tm) : (s.apply (.tm x)).ltbMs = s.ltbMs := rfl
@[simp] theorem State.apply_cry_ltbMs (x : Cry) : (s.apply (.cry x)).ltbMs = s.ltbMs := rfl
@[simp] theorem State.apply_key_ltbMs (x : Key) : (s.apply (.key x)).ltbMs = s.ltbMs := rfl
@[simp] theorem State.apply_rtc_ltbMs (x : Rtc) : (s.apply (.rtc x)).ltbMs = s.ltbMs := rfl
@[simp] theorem State.apply_plt_ltbMs (x : Plt) : (s.apply (.plt x)).ltbMs = s.ltbMs := rfl
@[simp] theorem State.apply_nv_ltbMs (x : Nv) : (s.apply (.nv x)).ltbMs = s.ltbMs := rfl
@[simp] theorem State.apply_dis_ltbMs (x : Dis) : (s.apply (.dis x)).ltbMs = s.ltbMs := rfl
@[simp] theorem State.apply_twn_ltbMs (x : Twn) : (s.apply (.twn x)).ltbMs = s.ltbMs := rfl
@[simp] theorem State.apply_ist_ltbMs (x : Ist) : (s.apply (.ist x)).ltbMs = s.ltbMs := rfl
@[simp] theorem State.apply_hif_ltbMs (x : Hif) : (s.apply (.hif x)).ltbMs = s.ltbMs := rfl
@[simp] theorem State.apply_eth_ltbMs (x : Eth) : (s.apply (.eth x)).ltbMs = s.ltbMs := rfl
@[simp] theorem State.apply_ddr_ltbMs (x : Ddr) : (s.apply (.ddr x)).ltbMs = s.ltbMs := rfl
@[simp] theorem State.apply_gpio_ltbMs (x : Gpio) : (s.apply (.gpio x)).ltbMs = s.ltbMs := rfl
@[simp] theorem State.apply_evt_ltbMs (x : Evt) : (s.apply (.evt x)).ltbMs = s.ltbMs := rfl
@[simp] theorem State.apply_reg_reached (k : Nat) (v : Word) (i : Instant) : (s.apply (.reg k v)).reached i = s.reached i := rfl
@[simp] theorem State.apply_mem_reached (a : Nat) (b : Byte) (i : Instant) : (s.apply (.mem a b)).reached i = s.reached i := rfl
@[simp] theorem State.apply_core_reached (n : Nat) (c : Core) (i : Instant) : (s.apply (.core n c)).reached i = s.reached i := rfl
@[simp] theorem State.apply_first_reached (k : Nat) (b : Bool) (i : Instant) : (s.apply (.first k b)).reached i = s.reached i := rfl
@[simp] theorem State.apply_draw_reached (i : Instant) : (s.apply .draw).reached i = s.reached i := rfl
@[simp] theorem State.apply_fe_reached (x : Fe) (i : Instant) : (s.apply (.fe x)).reached i = s.reached i := rfl
@[simp] theorem State.apply_bb_reached (x : Bb) (i : Instant) : (s.apply (.bb x)).reached i = s.reached i := rfl
@[simp] theorem State.apply_mac_reached (x : Mac) (i : Instant) : (s.apply (.mac x)).reached i = s.reached i := rfl
@[simp] theorem State.apply_fwd_reached (x : Fwd) (i : Instant) : (s.apply (.fwd x)).reached i = s.reached i := rfl
@[simp] theorem State.apply_tm_reached (x : Tm) (i : Instant) : (s.apply (.tm x)).reached i = s.reached i := rfl
@[simp] theorem State.apply_cry_reached (x : Cry) (i : Instant) : (s.apply (.cry x)).reached i = s.reached i := rfl
@[simp] theorem State.apply_key_reached (x : Key) (i : Instant) : (s.apply (.key x)).reached i = s.reached i := rfl
@[simp] theorem State.apply_rtc_reached (x : Rtc) (i : Instant) : (s.apply (.rtc x)).reached i = s.reached i := rfl
@[simp] theorem State.apply_plt_reached (x : Plt) (i : Instant) : (s.apply (.plt x)).reached i = s.reached i := rfl
@[simp] theorem State.apply_nv_reached (x : Nv) (i : Instant) : (s.apply (.nv x)).reached i = s.reached i := rfl
@[simp] theorem State.apply_dis_reached (x : Dis) (i : Instant) : (s.apply (.dis x)).reached i = s.reached i := rfl
@[simp] theorem State.apply_twn_reached (x : Twn) (i : Instant) : (s.apply (.twn x)).reached i = s.reached i := rfl
@[simp] theorem State.apply_ist_reached (x : Ist) (i : Instant) : (s.apply (.ist x)).reached i = s.reached i := rfl
@[simp] theorem State.apply_hif_reached (x : Hif) (i : Instant) : (s.apply (.hif x)).reached i = s.reached i := rfl
@[simp] theorem State.apply_eth_reached (x : Eth) (i : Instant) : (s.apply (.eth x)).reached i = s.reached i := rfl
@[simp] theorem State.apply_ddr_reached (x : Ddr) (i : Instant) : (s.apply (.ddr x)).reached i = s.reached i := rfl
@[simp] theorem State.apply_gpio_reached (x : Gpio) (i : Instant) : (s.apply (.gpio x)).reached i = s.reached i := rfl
@[simp] theorem State.apply_evt_reached (x : Evt) (i : Instant) : (s.apply (.evt x)).reached i = s.reached i := rfl

end Sys2Proof.Machine
end

