-- ==== Sys2Proof/Laws/Effect.lean ====
section
/-!
SUPPORT. Laws of effects: what each combinator leaves, what a register or a field reads after a write of it or of
another, which reads an effect keeps, and the canonical form kept by every effect.
-/
namespace Sys2Proof.Machine

open Sys2Proof

/-! ### The combinators -/

@[simp] theorem applyAll_nil (s : State) : s.applyAll [] = s := rfl

@[simp] theorem applyAll_cons (s : State) (c : Change) (cs : List Change) :
    s.applyAll (c :: cs) = (s.apply c).applyAll cs := rfl

@[simp] theorem applyAll_append (s : State) (a b : List Change) : s.applyAll (a ++ b) = (s.applyAll a).applyAll b := by
  induction a generalizing s with
  | nil => rfl
  | cons c cs ih => simp [ih]

@[simp] theorem after_nothing (s : State) : s.after nothing = s := rfl

@[simp] theorem after_seq_nil (s : State) : s.after (seq []) = s := rfl

@[simp] theorem after_seq_cons (s : State) (e : Effect) (es : List Effect) :
    s.after (seq (e :: es)) = (s.after e).after (seq es) := by
  simp [State.after, seq]

theorem after_seq_append (s : State) (a b : List Effect) :
    s.after (seq (a ++ b)) = (s.after (seq a)).after (seq b) := by
  induction a generalizing s with
  | nil => rfl
  | cons e es ih => simp [ih]

@[simp] theorem after_ask (s : State) (f : State → Effect) : s.after (ask f) = s.after (f s) := rfl

@[simp] theorem after_when (s : State) (c : Bool) (e : Effect) :
    s.after (when c e) = if c then s.after e else s := by
  cases c <;> rfl

@[simp] theorem after_ite (s : State) (p : Prop) [Decidable p] (a b : Effect) :
    s.after (if p then a else b) = if p then s.after a else s.after b := by
  split <;> rfl

@[simp] theorem after_forEach_nil {α : Type} (s : State) (e : α → Effect) : s.after (forEach [] e) = s := rfl

@[simp] theorem after_forEach_cons {α : Type} (s : State) (x : α) (l : List α) (e : α → Effect) :
    s.after (forEach (x :: l) e) = (s.after (e x)).after (forEach l e) := by
  simp [forEach]

@[simp] theorem after_inDomain (s : State) (d : Nat) (e : Effect) :
    s.after (inDomain d e) = if s.on d then s.after e else s := by
  simp [inDomain]

@[simp] theorem after_changes (s : State) (l : List Change) : s.after (fun _ => l) = s.applyAll l := rfl

/-- A command with effect `e` answers the state that `e` leaves. -/
theorem run_eq (e : Effect) (s : State) : run e s = .next (s.after e) := rfl

/-- A command whose meaning is an effect answers a next state; what holds of it is what holds after the effect. -/
theorem answers_run {c : Instr} {s : State} {e : Effect} {P : State → Prop} (h : exec c s = run e s) (hp : P (s.after e)) :
    Answers c s P := ⟨_, h, hp⟩

/-! ### Registers after a register write -/

theorem after_setReg (s : State) (k v : Nat) : s.after (setReg k v) = s.apply (.reg k (BitVec.ofNat 32 v)) := rfl

theorem after_setFld (s : State) (f : Fld) (v : Nat) :
    s.after (setFld f v) = s.apply (.reg f.addr (BitVec.ofNat 32 (putBits (s.regN f.addr) f.hi f.lo v))) := rfl

@[simp] theorem setFlag_eq (f : Fld) (b : Bool) : setFlag f b = setFld f (b2n b) := rfl

@[simp] theorem setFldI_eq (f : Fld) (z : Int) : setFldI f z = setFld f (unsigned (f.hi - f.lo + 1) z) := rfl

/-- A register just written reads as what was written; every other keeps its value. -/
theorem reg_apply (s : State) (k j : Nat) (v : Word) :
    (s.apply (.reg k v)).reg j = if j = k then v else s.reg j := by
  by_cases h : j = k
  · subst h; simp [State.reg]
  · simp only [State.reg, State.apply_reg_regs, if_neg h]
    exact getD_putD_ne _ _ _ _ _ _ h

@[simp] theorem reg_apply_self (s : State) (k : Nat) (v : Word) : (s.apply (.reg k v)).reg k = v := by simp [reg_apply]

theorem reg_apply_ne (s : State) (k j : Nat) (v : Word) (h : j ≠ k) : (s.apply (.reg k v)).reg j = s.reg j := by
  simp [reg_apply, h]

theorem regN_lt (s : State) (k : Nat) : s.regN k < 2 ^ 32 := (s.reg k).isLt

/-- A field just written reads as the low bits of what was written. -/
theorem fld_setFld (s : State) (f : Fld) (v : Nat) (h1 : f.lo ≤ f.hi) (h2 : f.hi < 32) :
    (s.after (setFld f v)).fld f = v % 2 ^ (f.hi - f.lo + 1) := by
  have h := putBits_lt (s.regN f.addr) f.hi f.lo v (regN_lt _ _) h2 h1
  simp only [State.fld, State.regN, after_setFld, reg_apply_self, BitVec.toNat_ofNat]
  rw [Nat.mod_eq_of_lt (show putBits (s.reg f.addr).toNat f.hi f.lo v < 2 ^ 32 from h)]
  exact bits_putBits_self ..

/-- A field of another register keeps its value. -/
theorem fld_setFld_ne (s : State) (f g : Fld) (v : Nat) (h : g.addr ≠ f.addr) :
    (s.after (setFld f v)).fld g = s.fld g := by
  simp [State.fld, State.regN, after_setFld, reg_apply_ne _ _ _ _ h]

/-- Another field of the same register keeps its value. -/
theorem fld_setFld_disjoint (s : State) (f g : Fld) (v : Nat) (ha : g.addr = f.addr) (h : f.hi < g.lo ∨ g.hi < f.lo)
    (h1 : f.lo ≤ f.hi) (h2 : f.hi < 32) (h3 : g.lo ≤ g.hi) : (s.after (setFld f v)).fld g = s.fld g := by
  have hl := putBits_lt (s.regN f.addr) f.hi f.lo v (regN_lt _ _) h2 h1
  simp only [State.fld, State.regN, after_setFld, ha, reg_apply_self, BitVec.toNat_ofNat]
  rw [Nat.mod_eq_of_lt (show putBits (s.reg f.addr).toNat f.hi f.lo v < 2 ^ 32 from hl)]
  exact bits_putBits_ne _ _ _ _ _ _ h h1 h3

/-- A field of a register written whole reads as its bits of the value. -/
theorem fld_setReg (s : State) (k v : Nat) (g : Fld) :
    (s.after (setReg k v)).fld g = if g.addr = k then bits (v % 2 ^ 32) g.hi g.lo else s.fld g := by
  by_cases h : g.addr = k
  · subst h; simp [State.fld, State.regN, after_setReg]
  · simp [State.fld, State.regN, after_setReg, reg_apply_ne _ _ _ _ h, h]

/-! ### Memory after a write of a byte -/

/-- A byte just written reads as what was written; every other keeps its value. -/
theorem byte_apply (s : State) (a i : Nat) (b : Byte) :
    (s.apply (.mem a b)).byte i = if i = a then b.toNat else s.byte i := by
  by_cases h : i = a
  · subst h; simp [State.byte]
  · simp only [State.byte, State.apply_mem_mem, if_neg h]
    rw [getD_putD_ne _ _ _ _ _ _ h]

@[simp] theorem byte_apply_self (s : State) (a : Nat) (b : Byte) : (s.apply (.mem a b)).byte a = b.toNat := by
  simp [byte_apply]

theorem byte_apply_ne (s : State) (a i : Nat) (b : Byte) (h : i ≠ a) : (s.apply (.mem a b)).byte i = s.byte i := by
  simp [byte_apply, h]

theorem enumFrom_fst_lt {α : Type} (l : List α) (i : Nat) (e : Nat × α) (h : e ∈ enumFrom i l) :
    i ≤ e.1 ∧ e.1 < i + l.length := by
  induction l generalizing i with
  | nil => simp [enumFrom] at h
  | cons a l ih =>
    simp only [enumFrom, List.mem_cons] at h
    rcases h with rfl | h
    · simp
    · have := ih (i + 1) h; simp only [List.length_cons]; omega

theorem byte_applyAll_mem (s : State) (l : List (Nat × Byte)) (i : Nat) (h : ∀ e ∈ l, e.1 ≠ i) :
    (s.applyAll (l.map fun e => Change.mem e.1 e.2)).byte i = s.byte i := by
  induction l generalizing s with
  | nil => rfl
  | cons e l ih =>
    simp only [List.map_cons, applyAll_cons]
    rw [ih _ fun x hx => h x (List.mem_cons_of_mem _ hx), byte_apply_ne]
    exact Ne.symm (h e (List.mem_cons_self ..))

/-- A write of bytes leaves every byte outside them alone. -/
theorem byte_putBytes_ne (s : State) (a : Nat) (l : List Nat) (i : Nat) (h : i < a ∨ a + l.length ≤ i) :
    (s.after (putBytes a l)).byte i = s.byte i := by
  have e : putBytes a l s = ((enumFrom 0 l).map fun e => (a + e.1, BitVec.ofNat 8 e.2)).map fun e => Change.mem e.1 e.2 := by
    simp [putBytes]
  rw [State.after, e]
  apply byte_applyAll_mem
  intro x hx
  obtain ⟨y, hy, rfl⟩ := List.mem_map.1 hx
  have := enumFrom_fst_lt l 0 y hy
  simp only
  omega

theorem byte_putBytes_aux (s : State) (a : Nat) (l : List Nat) (j i : Nat) (h : i < l.length) :
    (s.applyAll ((enumFrom j l).map fun e => Change.mem (a + e.1) (BitVec.ofNat 8 e.2))).byte (a + (j + i)) =
      (l.getD i 0) % 256 := by
  induction l generalizing s i j with
  | nil => simp at h
  | cons x l ih =>
    simp only [enumFrom, List.map_cons, applyAll_cons]
    cases i with
    | zero =>
      have := byte_applyAll_mem (s.apply (.mem (a + j) (BitVec.ofNat 8 x)))
        ((enumFrom (j + 1) l).map fun e => (a + e.1, BitVec.ofNat 8 e.2)) (a + j) (by
          intro e he
          obtain ⟨y, hy, rfl⟩ := List.mem_map.1 he
          have := enumFrom_fst_lt l (j + 1) y hy
          simp only; omega)
      simp only [List.map_map] at this
      simpa [Function.comp_def] using this
    | succ i =>
      have e : j + (i + 1) = j + 1 + i := by omega
      rw [e]
      simpa using ih (s.apply (.mem (a + j) (BitVec.ofNat 8 x))) (j + 1) i (by simpa using h)

/-- The bytes just written read as what was written. -/
theorem byte_putBytes (s : State) (a : Nat) (l : List Nat) (i : Nat) (h : i < l.length) :
    (s.after (putBytes a l)).byte (a + i) = l.getD i 0 % 256 := by
  have := byte_putBytes_aux s a l 0 i h
  simpa [State.after, putBytes] using this

/-! ### Reads that an effect keeps -/

/-- The effect `e` leaves what `f` reads as it was, from every state. -/
def Keeps {α : Type} (f : State → α) (e : Effect) : Prop := ∀ s, f (s.after e) = f s

theorem keeps_nothing {α : Type} (f : State → α) : Keeps f nothing := fun _ => rfl

theorem keeps_seq {α : Type} {f : State → α} {es : List Effect} (h : ∀ e ∈ es, Keeps f e) : Keeps f (seq es) := by
  induction es with
  | nil => exact fun _ => rfl
  | cons e es ih =>
    intro s
    rw [after_seq_cons, ih fun x hx => h x (List.mem_cons_of_mem _ hx), h e (List.mem_cons_self ..)]

theorem keeps_seq_nil {α : Type} (f : State → α) : Keeps f (seq []) := fun _ => rfl

theorem keeps_seq_cons {α : Type} {f : State → α} {e : Effect} {es : List Effect} (h : Keeps f e) (hs : Keeps f (seq es)) :
    Keeps f (seq (e :: es)) := by
  intro s
  rw [after_seq_cons, hs, h]

theorem keeps_ask {α : Type} {f : State → α} {g : State → Effect} (h : ∀ s, Keeps f (g s)) : Keeps f (ask g) :=
  fun s => h s s

theorem keeps_when {α : Type} {f : State → α} {c : Bool} {e : Effect} (h : Keeps f e) : Keeps f (when c e) := by
  cases c
  · exact fun _ => rfl
  · exact h

theorem keeps_ite {α : Type} {f : State → α} {p : Prop} [Decidable p] {a b : Effect} (ha : Keeps f a) (hb : Keeps f b) :
    Keeps f (if p then a else b) := by
  split
  · exact ha
  · exact hb

theorem keeps_forEach {α β : Type} {f : State → α} {l : List β} {e : β → Effect} (h : ∀ x ∈ l, Keeps f (e x)) :
    Keeps f (forEach l e) := by
  apply keeps_seq
  intro x hx
  obtain ⟨y, hy, rfl⟩ := List.mem_map.1 hx
  exact h y hy

theorem keeps_inDomain {α : Type} {f : State → α} {d : Nat} {e : Effect} (h : Keeps f e) : Keeps f (inDomain d e) :=
  keeps_ask fun _ => keeps_when h

theorem keeps_changes {α : Type} {f : State → α} {g : State → List Change} (h : ∀ s t, ∀ c ∈ g s, f (t.apply c) = f t) :
    Keeps f g := by
  have key : ∀ (l : List Change) (t : State), (∀ t, ∀ c ∈ l, f (t.apply c) = f t) → f (t.applyAll l) = f t := by
    intro l
    induction l with
    | nil => intros; rfl
    | cons c l ih =>
      intro t hl
      rw [applyAll_cons, ih _ fun t c hc => hl t c (List.mem_cons_of_mem _ hc), hl t c (List.mem_cons_self ..)]
  exact fun s => key _ _ (h s)

/-- A field write keeps every read that a register write keeps. -/
theorem keeps_setFld {α : Type} {f : State → α} (h : ∀ t k v, f (State.apply t (.reg k v)) = f t) (g : Fld) (v : Nat) :
    Keeps f (setFld g v) := fun s => h s _ _

theorem keeps_setReg {α : Type} {f : State → α} (h : ∀ t k v, f (State.apply t (.reg k v)) = f t) (k v : Nat) :
    Keeps f (setReg k v) := fun s => h s _ _

/-- The queue of waiting commands is no effect's to change. -/
theorem pending_applyAll (s : State) (l : List Change) : (s.applyAll l).pending = s.pending := by
  induction l generalizing s with
  | nil => rfl
  | cons c l ih => rw [applyAll_cons, ih]; cases c <;> rfl

@[simp] theorem pending_after (s : State) (e : Effect) : (s.after e).pending = s.pending := pending_applyAll s _

/-! ### The canonical form -/

/-- One primitive change keeps the canonical form. -/
theorem inv_apply (s : State) (c : Change) (h : State.Inv s) : State.Inv (s.apply c) := by
  obtain ⟨h1, h2, h3, h4⟩ := h
  cases c <;> refine ⟨?_, ?_, ?_, ?_⟩ <;>
    first
    | assumption
    | exact canonical_putD memDefault _ _ _ h1
    | exact canonical_putD regReset _ _ _ h2
    | exact canonical_putD (fun _ => ({} : Core)) _ _ _ h3
    | exact canonical_putD (fun _ => false) _ _ _ h4

/-- Every list of changes keeps the canonical form. -/
theorem inv_applyAll (s : State) (l : List Change) (h : State.Inv s) : State.Inv (s.applyAll l) := by
  induction l generalizing s with
  | nil => exact h
  | cons c l ih => exact ih _ (inv_apply s c h)

/-- Every effect keeps the canonical form. -/
theorem inv_after (s : State) (e : Effect) (h : State.Inv s) : State.Inv (s.after e) := inv_applyAll s _ h

end Sys2Proof.Machine
end

