-- ==== Sys2Proof/Laws/Yafort.lean ====
section
/-!
SUPPORT. Laws of the Yafort core: register files, the fields of an instruction word, what issue does, and what it is for an
instruction to complete.
-/
namespace Sys2Proof.Machine

open Sys2Proof

/-! ### The core in the state -/

@[simp] theorem core_withCore_self (s : State) (n : Nat) (c : Core) : (s.withCore n c).core n = c := by
  simp [State.withCore, State.core]

theorem core_withCore_ne (s : State) (n m : Nat) (c : Core) (h : m ≠ n) : (s.withCore n c).core m = s.core m := by
  simp [State.withCore, State.core, h]

theorem after_setCore (s : State) (n : Nat) (f : Core → Core) : s.after (setCore n f) = s.withCore n (f (s.core n)) := rfl

theorem core_apply_self (s : State) (n : Nat) (c : Core) : (s.apply (.core n c)).core n = c := core_withCore_self s n c

/-! ### Register files -/

theorem gr_setG (c : Core) (i j : Nat) (v : Word) :
    (c.setG i v).gr j = if j = 0 then 0#32 else if j = i then v else c.gr j := by
  unfold Core.gr Core.setG
  by_cases hj : j = 0
  · simp [hj]
  · by_cases hi : i = 0
    · subst hi; simp [hj]
    · simp [hj, hi]

theorem tr_setT (c : Core) (i j : Nat) (v : Instant) : (c.setT i v).tr j = if j = i then v else c.tr j := by
  simp [Core.tr, Core.setT]

@[simp] theorem setG_run (c : Core) (i : Nat) (v : Word) : (c.setG i v).run = c.run := by unfold Core.setG; split <;> rfl
@[simp] theorem setG_wait (c : Core) (i : Nat) (v : Word) : (c.setG i v).wait = c.wait := by unfold Core.setG; split <;> rfl
@[simp] theorem setG_pc (c : Core) (i : Nat) (v : Word) : (c.setG i v).pc = c.pc := by unfold Core.setG; split <;> rfl
@[simp] theorem setG_stale (c : Core) (i : Nat) (v : Word) : (c.setG i v).stale = c.stale := by unfold Core.setG; split <;> rfl
@[simp] theorem setT_run (c : Core) (i : Nat) (v : Instant) : (c.setT i v).run = c.run := rfl
@[simp] theorem setT_wait (c : Core) (i : Nat) (v : Instant) : (c.setT i v).wait = c.wait := rfl
@[simp] theorem setP_run (c : Core) (i : Nat) (b : Bool) : (c.setP i b).run = c.run := by unfold Core.setP; split <;> rfl
@[simp] theorem setP_wait (c : Core) (i : Nat) (b : Bool) : (c.setP i b).wait = c.wait := by unfold Core.setP; split <;> rfl

/-! ### Instruction words -/

theorem opcode_instrWord (b : Bool) (g op rest : Nat) (h2 : op < 64) (h3 : rest < 2 ^ 22) :
    opcode (instrWord b g op rest) = op := by
  cases b <;> simp only [opcode, bits, instrWord, b2n] <;> norm_num at * <;> omega

theorem pn_instrWord (b : Bool) (g op rest : Nat) (h1 : g < 8) (h2 : op < 64) (h3 : rest < 2 ^ 22) :
    pn (instrWord b g op rest) = b := by
  cases b <;> simp only [pn, bit, instrWord, b2n] <;> norm_num at * <;> omega

theorem pg_instrWord (b : Bool) (g op rest : Nat) (h1 : g < 8) (h2 : op < 64) (h3 : rest < 2 ^ 22) :
    pg (instrWord b g op rest) = g := by
  cases b <;> simp only [pg, bits, instrWord, b2n] <;> norm_num at * <;> omega

/-- An operand field of an instruction word lies in its low 22 bits. -/
theorem bits_instrWord (b : Bool) (g op rest hi lo : Nat) (h : hi < 22) (hl : lo ≤ hi) :
    bits (instrWord b g op rest) hi lo = bits rest hi lo := by
  have e : instrWord b g op rest = rest + 2 ^ lo * (2 ^ (hi - lo + 1) * (2 ^ (21 - hi) * (b2n b * 2 ^ 9 + g * 2 ^ 6 + op))) := by
    have h' : (22 : Nat) = lo + (hi - lo + 1) + (21 - hi) := by omega
    have h2 : (2 : Nat) ^ 22 = 2 ^ lo * (2 ^ (hi - lo + 1) * 2 ^ (21 - hi)) := by
      rw [← Nat.pow_add, ← Nat.pow_add]; congr 1; omega
    have h3 : instrWord b g op rest = rest + 2 ^ 22 * (b2n b * 2 ^ 9 + g * 2 ^ 6 + op) := by unfold instrWord; ring
    rw [h3, h2]; ring
  unfold bits
  rw [e, Nat.add_mul_div_left _ _ (Nat.two_pow_pos _), Nat.add_mul_mod_self_left]

theorem bit_instrWord (b : Bool) (g op rest i : Nat) (h : i < 22) : bit (instrWord b g op rest) i = bit rest i := by
  have e := bits_instrWord b g op rest i i h le_rfl
  simp only [bits, Nat.sub_self, Nat.zero_add, pow_one] at e
  simp only [bit, e]

/-! ### Issue and completion -/

/-- An instruction that issues has its own effect: the word is of its row, no decode fault is due, and its guard holds. -/
theorem after_issue (s : State) (n : Nat) (r : Row) (e : Nat → Core → Effect) (w : Nat) (hd : s.on (coreDomain n) = true)
    (hr : (s.core n).run = .running) (hw : (s.core n).wait = .none) (hf : s.fetch n = w) (hrow : rowOf w = r)
    (hdec : decodeFault (n = 64) (s.core n).inFault w = none) (hg : (s.core n).guard w = true) :
    s.after (issue n r e) = s.after (e w (s.core n)) := by
  subst hf hrow
  simp [issue, hd, hr, hw, hdec, hg]

/-- An instruction whose guard fails changes nothing but the pc. -/
theorem after_issue_skip (s : State) (n : Nat) (r : Row) (e : Nat → Core → Effect) (w : Nat)
    (hd : s.on (coreDomain n) = true) (hr : (s.core n).run = .running) (hw : (s.core n).wait = .none) (hf : s.fetch n = w)
    (hrow : rowOf w = r) (hdec : decodeFault (n = 64) (s.core n).inFault w = none) (hg : (s.core n).guard w = false) :
    s.after (issue n r e) = s.after (retire n id) := by
  subst hf hrow
  simp [issue, hd, hr, hw, hdec, hg]

/-- A core that goes on settles without change. -/
theorem after_settleCore (s : State) (n : Nat) (hpc : (s.core n).pc < iSize n)
    (hs : n = 64 ∨ s.flag (SEQ.CORE_EXP_STEP n) = false) : s.after (settleCore n) = s := by
  simp only [settleCore, after_ask]
  split
  · rfl
  · rw [if_neg (by omega)]
    rcases hs with h | h <;> simp [h]

/-- An instruction that completes leaves its core's changes, and the core at the next word. -/
theorem after_retire (s : State) (n : Nat) (f : Core → Core) (hpc : (s.core n).pc + 4 < iSize n)
    (hs : n = 64 ∨ s.flag (SEQ.CORE_EXP_STEP n) = false) :
    s.after (retire n f) = s.withCore n { f (s.core n) with pc := (s.core n).pc + 4, wait := .none } := by
  simp only [retire, after_seq_cons, after_seq_nil, after_setCore]
  apply after_settleCore
  · simpa using hpc
  · exact hs

end Sys2Proof.Machine
end

