-- ==== Sys2Proof/WellFormed.lean ====
section
/-!
DEFINITION. Which commands are well formed: a register access names an address of a register window (Table 01.7), a host
header has eight bytes (Table 18.1), and what arrives on a link or a bus is made of bytes.
-/
namespace Sys2Proof

/-- Every element is a byte. -/
def bytesOk (l : List Nat) : Bool := l.all (fun b => decide (b < 256))

/-- An address of a register window. -/
def windowAddr (a : Nat) : Bool := decide (0x40000000 ≤ a ∧ a < 0x40140000)

/-- A host transaction's header. -/
def headerOk (h : List Nat) : Bool := decide (h.length = 8) && bytesOk h

/-- Whether a command is well formed. -/
def Instr.wf : Instr → Bool
  | .registerWrite _ a _ _ => windowAddr a.toNat
  | .rcFieldRead _ a => windowAddr a.toNat
  | .hostWrite h d => headerOk h && bytesOk d
  | .hostPush h d => headerOk h && bytesOk d
  | .hostRead h => headerOk h
  | .hostStatus h => headerOk h
  | .hostPop h => headerOk h
  | .ethRxFrame _ f _ => bytesOk f
  | .hbRx f _ => bytesOk f
  | .ckDataRx f => bytesOk f
  | .ckEndRx f => bytesOk f
  | .ckAckRx f => bytesOk f
  | .takeoverRx f => bytesOk f
  | .joinRx f => bytesOk f
  | .imgDataRx f => bytesOk f
  | .imgActRx f => bytesOk f
  | .twinDataRx f => bytesOk f
  | _ => true

end Sys2Proof
end

