-- ==== Sys2Proof/Tests/Slice0.lean ====
section
/-!
SUPPORT. Tests: an ill-formed term for each check of WellFormed; words written out from the spec's encodings; steps on small
states; and for each statement with hypotheses, concrete states and operands that meet them.
-/
namespace Sys2Proof.Tests

open Sys2Proof Sys2Proof.Machine

/-! ### Ill-formed commands are refused -/

theorem test_wf_register_write : (Instr.registerWrite 64 0x3FFFFFFC 2 0).wf = false := by decide
theorem test_wf_register_write_ok : (Instr.registerWrite 64 0x40000000 2 0).wf = true := by decide
theorem test_wf_rc_field_read : (Instr.rcFieldRead 0 0x40140000).wf = false := by decide
theorem test_wf_host_write_header : (Instr.hostWrite [0, 1, 2] []).wf = false := by decide
theorem test_wf_host_write_data : (Instr.hostWrite [0, 0, 0, 0, 0, 0, 0, 0] [256]).wf = false := by decide
theorem test_wf_host_push_header : (Instr.hostPush [256, 0, 0, 0, 0, 0, 0, 0] []).wf = false := by decide
theorem test_wf_host_push_data : (Instr.hostPush [0, 0, 0, 0, 0, 0, 0, 0] [300]).wf = false := by decide
theorem test_wf_host_read : (Instr.hostRead []).wf = false := by decide
theorem test_wf_host_status : (Instr.hostStatus [1]).wf = false := by decide
theorem test_wf_host_pop : (Instr.hostPop [1, 2, 3, 4, 5, 6, 7]).wf = false := by decide
theorem test_wf_eth_rx_frame : ∀ q p, (Instr.ethRxFrame q [256] p).wf = false := fun _ _ => rfl
theorem test_wf_hb_rx : ∀ t, (Instr.hbRx [256] t).wf = false := fun _ => rfl
theorem test_wf_ck_data_rx : (Instr.ckDataRx [256]).wf = false := by decide
theorem test_wf_ck_end_rx : (Instr.ckEndRx [256]).wf = false := by decide
theorem test_wf_ck_ack_rx : (Instr.ckAckRx [256]).wf = false := by decide
theorem test_wf_takeover_rx : (Instr.takeoverRx [256]).wf = false := by decide
theorem test_wf_join_rx : (Instr.joinRx [256]).wf = false := by decide
theorem test_wf_img_data_rx : (Instr.imgDataRx [256]).wf = false := by decide
theorem test_wf_img_act_rx : (Instr.imgActRx [256]).wf = false := by decide
theorem test_wf_twin_data_rx : (Instr.twinDataRx [256]).wf = false := by decide

end Sys2Proof.Tests
end

section
/-!
PROOFS of the scope family: the canonical form kept by every step (O3), the checks of a register access, and the unlock
sequence of a window (O5).
-/
namespace Sys2Proof.Machine

open Sys2Proof

/-! ### Every step is an effect -/

/-- The meaning of every command is an effect, the same from every state: of the arms of `exec` none stops. -/
theorem exec_eq_run (c : Instr) : ∃ e : Effect, ∀ s, exec c s = run e s := by
  cases c <;> exact ⟨_, fun _ => rfl⟩

/-- A step runs an effect on the state with the queue it leaves. -/
theorem step_eq_run (s : State) : ∃ e : Effect, ∃ cs, step s = run e { s with pending := cs } := by
  unfold step
  split
  case h_1 => exact ⟨tick, s.pending, rfl⟩
  case h_2 c cs _ =>
    obtain ⟨e, he⟩ := exec_eq_run c
    exact ⟨e, cs, he _⟩

/-- Settles O3: a step is an effect, and effects keep the canonical form. -/
theorem invKept : Obligations.InvKept := by
  unfold Obligations.InvKept
  intro s t hs ht
  obtain ⟨e, cs, he⟩ := step_eq_run s
  rw [he, run_eq] at ht
  cases ht
  have hcs : State.Inv { s with pending := cs } := hs
  exact inv_after _ e hcs

/-! ### One-bit fields of one register -/

/-- A one-bit field after a write of a one-bit field of the same register. -/
theorem flag_setFld_bit (s : State) (k i j v : Nat) (hi : i < 32) :
    (s.after (setFld ⟨k, i, i⟩ v)).flag ⟨k, j, j⟩ = if j = i then decide (v % 2 = 1) else s.flag ⟨k, j, j⟩ := by
  by_cases h : j = i
  · subst h
    simp [State.flag, fld_setFld s ⟨k, j, j⟩ v le_rfl hi]
  · have := fld_setFld_disjoint s ⟨k, i, i⟩ ⟨k, j, j⟩ v rfl (by simp only; omega) le_rfl hi le_rfl
    simp [State.flag, this, h]

/-! ### Effects that write registers only -/

/-- The effect `e` changes nothing but registers whose keys satisfy `p`. -/
def WritesOnly (p : Nat → Prop) (e : Effect) : Prop :=
  ∀ s : State, s.after e = { s with regs := (s.after e).regs } ∧ ∀ k, ¬p k → (s.after e).reg k = s.reg k

theorem writesOnly_nothing (p : Nat → Prop) : WritesOnly p nothing := fun _ => ⟨rfl, fun _ _ => rfl⟩

theorem writesOnly_setReg {p : Nat → Prop} {k : Nat} (h : p k) (v : Nat) : WritesOnly p (setReg k v) :=
  fun s => ⟨rfl, fun j hj => reg_apply_ne s k j _ fun e => hj (e ▸ h)⟩

theorem writesOnly_setFld {p : Nat → Prop} {f : Fld} (h : p f.addr) (v : Nat) : WritesOnly p (setFld f v) :=
  fun s => ⟨rfl, fun j hj => reg_apply_ne s f.addr j _ fun e => hj (e ▸ h)⟩

theorem writesOnly_seq_nil (p : Nat → Prop) : WritesOnly p (seq []) := fun _ => ⟨rfl, fun _ _ => rfl⟩

theorem writesOnly_seq_cons {p : Nat → Prop} {e : Effect} {es : List Effect} (h : WritesOnly p e)
    (hs : WritesOnly p (seq es)) : WritesOnly p (seq (e :: es)) := by
  intro s
  obtain ⟨h1, h2⟩ := h s
  obtain ⟨hs1, hs2⟩ := hs (s.after e)
  rw [after_seq_cons]
  refine ⟨?_, fun k hk => (hs2 k hk).trans (h2 k hk)⟩
  calc (s.after e).after (seq es) = { s.after e with regs := ((s.after e).after (seq es)).regs } := hs1
    _ = { s with regs := ((s.after e).after (seq es)).regs } := by rw [h1]

theorem writesOnly_when {p : Nat → Prop} {c : Bool} {e : Effect} (h : WritesOnly p e) : WritesOnly p (when c e) := by
  cases c
  · exact writesOnly_nothing p
  · exact h

theorem writesOnly_ite {p : Nat → Prop} {q : Prop} [Decidable q] {a b : Effect} (ha : WritesOnly p a) (hb : WritesOnly p b) :
    WritesOnly p (if q then a else b) := by
  split
  · exact ha
  · exact hb

theorem writesOnly_ask {p : Nat → Prop} {f : State → Effect} (h : ∀ s, WritesOnly p (f s)) : WritesOnly p (ask f) :=
  fun s => h s s

/-! ### A master's access of a register window -/

theorem regionOf_window {x : Nat} (h1 : 0x40000000 ≤ x) (h2 : x < 0x40140000) :
    regionOf x = .window ((x - 0x40000000) / 0x10000) := by
  fun_cases regionOf x
  case case7 => rfl
  all_goals exfalso; omega

/-- The guard of a register access fails for a master that does not act, and outside the windows. -/
theorem accessGuard_false (s : State) (m x : Nat) (h : ¬s.masterActs m = true ∨ ¬∃ w, regionOf x = .window w) :
    ¬(s.masterActs m && (match regionOf x with | .window _ => true | _ => false)) = true := by
  rw [Bool.and_eq_true]
  rintro ⟨ha, hw⟩
  split at hw
  case h_1 w hr => exact h.elim (fun hn => hn ha) (fun hn => hn ⟨w, hr⟩)
  case h_2 => cases hw

/-- A command of a master that does not act, or at an address outside the windows, does nothing. -/
theorem after_registerWrite_idle (s : State) (m x size v : Nat) (h : ¬s.masterActs m = true ∨ ¬∃ w, regionOf x = .window w) :
    s.after (registerWrite m x size v) = s := by
  unfold registerWrite
  rw [after_ask, after_when, if_neg]
  exact accessGuard_false s m x h

/-- A write by a master that acts, at an address of a window, is its access over the fabric. -/
theorem after_registerWrite (s : State) (m x size v w : Nat) (ha : s.masterActs m = true) (hw : regionOf x = .window w) :
    s.after (registerWrite m x size v) =
      s.after (busWrite 0 m x (2 ^ size) (v % 2 ^ (8 * 2 ^ size)) nothing nothing) := by
  simp [registerWrite, ha, hw]

/-- An access of a window is refused for its master only (Table 01.8). -/
theorem busRefused_window (s : State) (m x k w : Nat) (write : Bool) (hw : regionOf x = .window w) (hk : k ≤ 4) :
    s.busRefused m x k write = !mayAccess m x write := by
  simp [State.busRefused, hw, Nat.not_lt.2 hk]

theorem busRefused_of_mayAccess (s : State) (m x k : Nat) (write : Bool) (h : mayAccess m x write = false) :
    s.busRefused m x k write = true := by
  simp [State.busRefused, h]

theorem busUnfit_window (s : State) (x k w : Nat) (write : Bool) (hw : regionOf x = .window w) :
    s.busUnfit x k write = (decide (k ≠ 4) || decide (x % 4 ≠ 0)) := by
  simp [State.busUnfit, hw]

theorem busDomain_window (x w : Nat) (hw : regionOf x = .window w) : busDomain x = regDomain x := by
  simp [busDomain, hw]

/-- A permitted, aligned access of a whole register in a domain that answers is served. -/
theorem after_busAccess_served (s : State) (m x w : Nat) (write : Bool) (bad stall serve : Effect)
    (hw : regionOf x = .window w) (hm : mayAccess m x write = true) (hx : x % 4 = 0) (hd : s.answers (regDomain x) = true) :
    s.after (busAccess m x 4 write bad stall serve) = s.after serve := by
  have hr : s.busRefused m x 4 write = false := by rw [busRefused_window s m x 4 w write hw le_rfl, hm]; rfl
  have hu : s.busUnfit x 4 write = false := by simp [busUnfit_window s x 4 w write hw, hx]
  rw [← busDomain_window x w hw] at hd
  unfold busAccess
  rw [after_ask]
  simp [hr, hu, hd]

/-- A register write that is served. -/
theorem after_registerWrite_served (s : State) (m x v w : Nat) (ha : s.masterActs m = true) (hw : regionOf x = .window w)
    (hm : mayAccess m x true = true) (hx : x % 4 = 0) (hd : s.answers (regDomain x) = true) :
    s.after (registerWrite m x 2 v) = s.after (regWrite m x (v % 2 ^ 32)) := by
  rw [after_registerWrite s m x 2 v w ha hw]
  show s.after (busAccess m x 4 true _ _ _) = _
  rw [after_busAccess_served s m x w true _ _ _ hw hm hx hd]
  simp [busServeWrite, hw]

/-! ### EXPERT_UNLOCK (R8) -/

theorem after_unlockWrite_unlocked (s : State) (a v : Nat) (hu : s.flag (unlockedOf a) = true) :
    s.after (unlockWrite a v) = if v % 256 = 0 then s.after (setFld (unlockedOf a) 0) else s := by
  simp [unlockWrite, hu]

theorem after_unlockWrite_arm (s : State) (a v : Nat) (hu : s.flag (unlockedOf a) = false) (hv : v % 256 = 0x5A) :
    s.after (unlockWrite a v) = s.after (setFld (armedOf a) 1) := by
  simp [unlockWrite, hu, hv]

theorem after_unlockWrite_unlock (s : State) (a v : Nat) (hu : s.flag (unlockedOf a) = false)
    (ha : s.flag (armedOf a) = true) (hv : v % 256 = 0xA5) :
    s.after (unlockWrite a v) = (s.after (setFld (unlockedOf a) 1)).after (setFld (armedOf a) 0) := by
  simp [unlockWrite, hu, hv, ha]

theorem after_unlockWrite_disarm (s : State) (a v : Nat) (hu : s.flag (unlockedOf a) = false) (h1 : v % 256 ≠ 0x5A)
    (h2 : ¬(v % 256 = 0xA5 ∧ s.flag (armedOf a) = true)) :
    s.after (unlockWrite a v) = s.after (setFld (armedOf a) 0) := by
  simp [unlockWrite, hu, h1, h2]

/-- A write of EXPERT_UNLOCK writes no other register. -/
theorem writesOnly_unlockWrite (a v : Nat) : WritesOnly (fun k => k = (unlockedOf a).addr) (unlockWrite a v) := by
  have hs : ∀ f ∈ [unlockedOf a, armedOf a], ∀ v, WritesOnly (fun k => k = (unlockedOf a).addr) (setFld f v) := by
    intro f hf v
    simp only [List.mem_cons, List.not_mem_nil, or_false] at hf
    rcases hf with rfl | rfl <;> exact writesOnly_setFld (by rfl) v
  have hu := hs (unlockedOf a) (by simp)
  have ha := hs (armedOf a) (by simp)
  exact writesOnly_ask fun _ => writesOnly_ite (writesOnly_when (hu _))
    (writesOnly_ite (ha _) (writesOnly_seq_cons (writesOnly_when (hu _)) (writesOnly_seq_cons (ha _) (writesOnly_seq_nil _))))

/-- A write of EXPERT_UNLOCK leaves REJECTED. -/
theorem rejected_unlockWrite (s : State) (a v : Nat) :
    (s.after (unlockWrite a v)).flag (rejectedOf a) = s.flag (rejectedOf a) := by
  simp only [unlockWrite, after_ask, after_ite, after_when, after_seq_cons, after_seq_nil]
  split_ifs <;> simp [unlockedOf, armedOf, rejectedOf, flag_setFld_bit]

/-- Settles O5: the branches of `unlockWrite`, one for each rule of R8. -/
theorem unlockSequence : Obligations.UnlockSequence := by
  unfold Obligations.UnlockSequence
  intro s m w v k unlocked armed key hact hmay hdom
  have hk : k / 0x10000 * 0x10000 + 0x7FFC = k ∧ k % 0x10000 = 0x7FFC ∧ k % 4 = 0 := by omega
  have hserve : s.after (expertUnlockWrite m w v.toNat) = s.after (unlockWrite k v.toNat) := by
    have hr := regionOf_window (x := k) (by omega) (by omega)
    have := after_registerWrite_served s m k v.toNat _ hact hr hmay hk.2.2 hdom
    rw [Nat.mod_eq_of_lt v.isLt, regWrite, if_pos hk.2.1] at this
    exact this
  refine answers_run (e := expertUnlockWrite m w v.toNat) rfl ?_
  rw [hserve]
  have hframe := writesOnly_unlockWrite k v.toNat s
  refine ⟨hframe.1, fun x hx => hframe.2 x fun e => hx (e.trans hk.1), rejected_unlockWrite s k v.toNat, ?_, ?_, ?_, ?_, ?_⟩
  · intro hu hkey
    rw [after_unlockWrite_arm s k _ hu hkey]
    exact ⟨by simp [armedOf, flag_setFld_bit], by simpa [unlockedOf, armedOf, flag_setFld_bit, unlocked] using hu⟩
  · intro hu hkey ha
    rw [after_unlockWrite_unlock s k _ hu ha hkey]
    simp [unlockedOf, armedOf, flag_setFld_bit]
  · intro hu h1 h2
    rw [after_unlockWrite_disarm s k _ hu h1 h2]
    exact ⟨by simp [armedOf, flag_setFld_bit], by simpa [unlockedOf, armedOf, flag_setFld_bit, unlocked] using hu⟩
  · intro hu hkey
    rw [after_unlockWrite_unlocked s k _ hu, if_pos hkey]
    simp [unlockedOf, flag_setFld_bit]
  · intro hu hkey
    rw [after_unlockWrite_unlocked s k _ hu, if_neg hkey]
    exact hu

end Sys2Proof.Machine
end

section
/-!
PROOFS: the state after reset (O4).
-/
namespace Sys2Proof.Machine

open Sys2Proof

/-! ### The state after reset -/

/-- Nothing is listed after reset. -/
theorem inv_reset : State.Inv State.reset := ⟨rfl, rfl, rfl, rfl⟩

theorem core_reset (n : Nat) : State.reset.core n = {} := rfl

/-- PD_AON and PD_BKP are ON, PD_CORE is in TRANSIT and the rest is OFF (R454, R455). -/
theorem domain_reset : State.reset.domain 0 = 2 ∧ State.reset.domain 1 = 2 ∧ State.reset.domain 2 = 3 ∧
    ∀ d : Fin 21, 3 ≤ d.val → State.reset.domain d = 0 := by decide

/-- The locks of window `w` after reset: not locked, not unlocked, not armed, nothing rejected (Tables 00.4, 00.5). -/
theorem locks_reset (w : Fin 20) : State.reset.flag (lockOf (0x40007FF8 + w * 0x10000)) = false ∧
    State.reset.flag (unlockedOf (0x40007FF8 + w * 0x10000)) = false ∧
    State.reset.flag (armedOf (0x40007FF8 + w * 0x10000)) = false ∧
    State.reset.flag (rejectedOf (0x40007FF8 + w * 0x10000)) = false := by
  revert w
  decide +kernel

theorem hbudget_reset (n : Fin 64) : State.reset.fld (SEQ.HBUDGET_CYCLES n) = 0x10000 := by
  revert n
  decide +kernel

theorem ringDepth_reset (n : Fin 64) : State.reset.fld (TM.RING_CFG_DEPTH n) = 64 := by
  revert n
  decide +kernel

theorem fe_reset : State.reset.fld FE.TX_LATE_TOL_NS = 2000 ∧ State.reset.fld FE.CAL_GUARD_US = 3000 ∧
    State.reset.flag FE.PROF_STATE_NONE = true ∧ ∀ p : Fin 3, State.reset.fldI (FE.TEMP_MAX_LIMIT p) = 480 := by
  decide +kernel

theorem bb_reset : State.reset.fld BB.RX_CTL_SFD_TIMEOUT = 10 ∧ State.reset.fldI BB.CCA_CFG_THRESH = -85 ∧
    State.reset.fld BB.CCA_CFG_TIME = 128 ∧ State.reset.regN BB.MODE_FILT_RX = 0x76543210 ∧
    State.reset.regN BB.MODE_FILT_TX = 0xFEDCBA98 := by
  decide +kernel

theorem mac_reset : State.reset.fld MAC.ADDR_PAN_ID = 0xFFFF ∧ State.reset.fld MAC.BCN_CFG_INTERVAL_MS = 250 ∧
    State.reset.fld MAC.GUARD_CFG_G_BASE = 64 ∧ State.reset.fld MAC.NODE_ARG3_INTERVAL = 240000 := by
  decide +kernel

theorem fwd_reset : State.reset.fld FWD.AGE_CFG_AGE_PERIOD = 300 ∧ State.reset.fld FWD.SIL_CFG_SIL_TTL = 60 := by
  decide +kernel

/-- TM, CRY, KEY, ACC and RTC. -/
theorem tmToRtc_reset : State.reset.fld TM.POOL_CFG_LOW_MARK = 1024 ∧ State.reset.regN CRY.FC_WARN = 0xF0000000 ∧
    State.reset.fld KEY.OP_PARENT_SLOT = 0xFFFF ∧ State.reset.fld ACC.HOLD_CFG_U_MIN = 10 ∧
    State.reset.fld ACC.CLOCK_UTC_OFFSET = 37 ∧ State.reset.freeComps = 416 ∧
    State.reset.flag RTC.RTC_STATUS_OSF = true := by
  decide +kernel

/-- Settles O4: the values above, chapter by chapter. -/
theorem resetValues : Obligations.ResetValues := by
  unfold Obligations.ResetValues
  intro s
  obtain ⟨hAon, hBkp, hCore, hOff⟩ := domain_reset
  obtain ⟨hLate, hGuard, hProf, hTemp⟩ := fe_reset
  obtain ⟨hSfd, hThresh, hTime, hFiltRx, hFiltTx⟩ := bb_reset
  obtain ⟨hPan, hBcn, hBase, hInterval⟩ := mac_reset
  obtain ⟨hAge, hSil⟩ := fwd_reset
  obtain ⟨hLow, hWarn, hParent, hUmin, hUtc, hComps, hOsf⟩ := tmToRtc_reset
  have hCores : ∀ n : Fin 65, (s.core n).run = .held ∧ (s.core n).p = 1#8 ∧ (s.core n).pend = 0#16 ∧
      ∀ r : Fin 16, (s.core n).gr r = 0#32 := fun n => by
    rw [core_reset]
    decide
  exact ⟨inv_reset, rfl, rfl, rfl, rfl, hCores, hAon, hBkp, hCore, hOff, locks_reset, hbudget_reset, hLate, hGuard, hProf,
    hTemp, hSfd, hThresh, hTime, hFiltRx, hFiltTx, hPan, hBcn, hBase, hInterval, hAge, hSil, hLow, ringDepth_reset, hWarn,
    hParent, hUmin, hUtc, hComps, hOsf⟩

end Sys2Proof.Machine
end

section
/-!
PROOFS: the rows of the register map, the field types of Table 00.3, and what a served write or read of a stored register does.
-/
namespace Sys2Proof.Machine

open Sys2Proof

/-! ### The rows of the register map -/

/-- Every field lies in its word, and no two fields meet. -/
def fieldsWf : List FieldRow → Bool
  | [] => true
  | f :: fs => decide (f.lo ≤ f.hi ∧ f.hi < 32) && fs.all (fun g => decide (f.hi < g.lo ∨ g.hi < f.lo)) && fieldsWf fs

/-- A row's fields are well placed, and each of its copies lies in one of the 21 power domains. -/
def RegRow.wf (r : RegRow) : Bool := fieldsWf r.fields && decide (r.dom + (r.n1 - 1) / r.domDiv ≤ 20)

/-- Every row of the register map is well formed. -/
theorem windowRows_wf (w : Nat) : ∀ r ∈ windowRows w, r.wf = true := by
  have h : ∀ w : Fin 20, (windowRows w).all RegRow.wf = true := by decide +kernel
  intro r hr
  by_cases hw : w < 20
  · exact List.all_eq_true.1 (h ⟨w, hw⟩) r hr
  · have : windowRows w = [] := by
      unfold windowRows
      split
      case h_21 => rfl
      all_goals exact absurd (by decide) hw
    rw [this] at hr
    cases hr

/-- The row found at an address is a row of the map that holds the address. -/
theorem findRow_some {a : Nat} {r : RegRow} (h : findRow a = some r) :
    r ∈ windowRows (a / 0x10000 - 0x4000) ∧ (rowIndex r a).isSome = true := by
  unfold findRow at h
  split at h
  · cases h
  · exact ⟨List.mem_of_find?_eq_some h, List.find?_some (p := fun r => (rowIndex r a).isSome) h⟩

theorem findRow_wf {a : Nat} {r : RegRow} (h : findRow a = some r) : r.wf = true :=
  windowRows_wf _ r (findRow_some h).1

theorem findRow_fieldsWf {a : Nat} {r : RegRow} (h : findRow a = some r) : fieldsWf r.fields = true := by
  have := findRow_wf h
  simp only [RegRow.wf, Bool.and_eq_true] at this
  exact this.1

theorem rowIndex_lt {r : RegRow} {a i : Nat} (h : rowIndex r a = some i) : i < r.n1 := by
  unfold rowIndex at h
  split at h
  · cases h
  · obtain ⟨⟨hlt, -⟩, hi⟩ := Option.ite_none_right_eq_some.1 h
    cases hi
    exact hlt

/-- Every register lies in one of the 21 power domains (Table 01.4). -/
theorem regDomain_le (a : Nat) : regDomain a ≤ 20 := by
  unfold regDomain
  split
  case h_1 r hr =>
    have hwf := findRow_wf hr
    simp only [RegRow.wf, Bool.and_eq_true, decide_eq_true_eq] at hwf
    split_ifs with hd
    · exact le_trans (Nat.le_add_right _ _) hwf.2
    · obtain ⟨i, hi⟩ := Option.isSome_iff_exists.1 (findRow_some hr).2
      have hle : i / r.domDiv ≤ (r.n1 - 1) / r.domDiv := Nat.div_le_div_right (by have := rowIndex_lt hi; omega)
      rw [hi, Option.getD_some]
      omega
  case h_2 =>
    have hall : ∀ d ∈ [2, 12, 2, 2, 2, 16, 16, 0, 1, 2, 3, 19, 18, 17, 20, 0, 2, 0, 2, 0], d ≤ 20 := by decide
    rw [List.getD_eq_getElem?_getD]
    cases h : [2, 12, 2, 2, 2, 16, 16, 0, 1, 2, 3, 19, 18, 17, 20, 0, 2, 0, 2, 0][a / 0x10000 - 0x4000]? with
    | none => simp
    | some d => exact hall d (List.mem_of_getElem? h)

/-! ### Words written field by field -/

/-- The word `w` with each field that `p` picks replaced by `g`'s value of it. -/
def putFields (p : FieldRow → Bool) (g : FieldRow → Nat) (fs : List FieldRow) (w : Nat) : Nat :=
  fs.foldl (fun w f => if p f then putBits w f.hi f.lo (g f) else w) w

theorem wordWrite_eq (l u : Bool) (fs : List FieldRow) (old v : Nat) :
    wordWrite l u fs old v = putFields (fun _ => true) (fun f => fieldWrite l u f old v) fs old := by
  simp [wordWrite, putFields]

theorem wordAfterRead_eq (fs : List FieldRow) (w : Nat) :
    wordAfterRead fs w = putFields (fun f => decide (f.ty = .rc)) (fun _ => 0) fs w := by
  simp [wordAfterRead, putFields]

theorem putFields_cons (p : FieldRow → Bool) (g : FieldRow → Nat) (f : FieldRow) (fs : List FieldRow) (w : Nat) :
    putFields p g (f :: fs) w = putFields p g fs (if p f then putBits w f.hi f.lo (g f) else w) := rfl

theorem fieldsWf_cons {f : FieldRow} {fs : List FieldRow} (h : fieldsWf (f :: fs) = true) :
    (f.lo ≤ f.hi ∧ f.hi < 32) ∧ (∀ g ∈ fs, f.hi < g.lo ∨ g.hi < f.lo) ∧ fieldsWf fs = true := by
  simpa [fieldsWf, and_assoc] using h

theorem place_of_mem {fs : List FieldRow} (h : fieldsWf fs = true) : ∀ f ∈ fs, f.lo ≤ f.hi ∧ f.hi < 32 := by
  induction fs with
  | nil => intro f hf; cases hf
  | cons e fs ih =>
    obtain ⟨he, -, hfs⟩ := fieldsWf_cons h
    intro f hf
    rcases List.mem_cons.1 hf with rfl | hf
    · exact he
    · exact ih hfs f hf

theorem putFields_lt (p : FieldRow → Bool) (g : FieldRow → Nat) (fs : List FieldRow) (w : Nat) (hf : fieldsWf fs = true)
    (hw : w < 2 ^ 32) : putFields p g fs w < 2 ^ 32 := by
  induction fs generalizing w with
  | nil => exact hw
  | cons f fs ih =>
    obtain ⟨⟨hlo, hhi⟩, -, hfs⟩ := fieldsWf_cons hf
    rw [putFields_cons]
    refine ih _ hfs ?_
    split
    · exact putBits_lt _ _ _ _ hw hhi hlo
    · exact hw

/-- A field that meets none of the fields written keeps its value. -/
theorem bits_putFields_apart (p : FieldRow → Bool) (g : FieldRow → Nat) (fs : List FieldRow) (w hi lo : Nat)
    (hf : fieldsWf fs = true) (hl : lo ≤ hi) (h : ∀ f ∈ fs, hi < f.lo ∨ f.hi < lo) :
    bits (putFields p g fs w) hi lo = bits w hi lo := by
  induction fs generalizing w with
  | nil => rfl
  | cons f fs ih =>
    obtain ⟨⟨hlo, -⟩, -, hfs⟩ := fieldsWf_cons hf
    rw [putFields_cons, ih _ hfs fun x hx => h x (List.mem_cons_of_mem _ hx)]
    split
    · exact bits_putBits_ne _ _ _ _ _ _ (h f (List.mem_cons_self ..)).symm hlo hl
    · rfl

/-- A field of the list reads as what was written to it, or keeps its value. -/
theorem bits_putFields (p : FieldRow → Bool) (g : FieldRow → Nat) (fs : List FieldRow) (w : Nat) (f : FieldRow)
    (hf : fieldsWf fs = true) (h : f ∈ fs) : bits (putFields p g fs w) f.hi f.lo =
      if p f then g f % 2 ^ (f.hi - f.lo + 1) else bits w f.hi f.lo := by
  induction fs generalizing w with
  | nil => cases h
  | cons e fs ih =>
    obtain ⟨⟨hlo, -⟩, hapart, hfs⟩ := fieldsWf_cons hf
    rw [putFields_cons]
    rcases List.mem_cons.1 h with rfl | h
    · rw [bits_putFields_apart p g fs _ f.hi f.lo hfs hlo hapart]
      split
      · exact bits_putBits_self ..
      · rfl
    · have hkeep : bits (if p e then putBits w e.hi e.lo (g e) else w) f.hi f.lo = bits w f.hi f.lo := by
        split
        · exact bits_putBits_ne _ _ _ _ _ _ (hapart f h) hlo (place_of_mem hfs f h).1
        · rfl
      rw [ih _ hfs h, hkeep]

/-! ### A field's value after a write, by its type (Table 00.3) -/

theorem bit_eq_testBit (n i : Nat) : bit n i = n.testBit i := by
  simp [bit, Nat.testBit_eq_decide_div_mod_eq]

/-- What a field takes lies in its width. -/
theorem fieldWrite_lt (l u : Bool) (f : FieldRow) (old v : Nat) : fieldWrite l u f old v < 2 ^ (f.hi - f.lo + 1) := by
  have ho := bits_lt old f.hi f.lo
  have hn := bits_lt v f.hi f.lo
  unfold fieldWrite
  cases f.ty with
  | ro | rc | wo => exact ho
  | rw => exact hn
  | w1c => exact Nat.bitwise_lt_two_pow ho hn
  | w1s => exact Nat.or_lt_two_pow ho hn
  | rwl => cases l <;> assumption
  | ex => cases u <;> assumption

/-- The rule of each type: what bits [hi:lo] hold after a write, from what they held and what was written. -/
theorem fieldWrite_rules (l u : Bool) (f : FieldRow) (old v : Nat) :
    let o := bits old f.hi f.lo
    let n := bits v f.hi f.lo
    let now := fieldWrite l u f old v
    (f.ty = .ro ∨ f.ty = .rc ∨ f.ty = .wo → now = o) ∧ (f.ty = .rw → now = n) ∧ (f.ty = .rwl → now = if l then o else n) ∧
      (f.ty = .ex → now = if u then n else o) ∧ (f.ty = .w1c → ∀ i, bit now i = (bit o i && !bit n i)) ∧
      (f.ty = .w1s → ∀ i, bit now i = (bit o i || bit n i)) := by
  intro o n now
  refine ⟨?_, ?_, ?_, ?_, ?_, ?_⟩
  · rintro (h | h | h) <;> simp only [now, fieldWrite, h] <;> rfl
  · exact fun h => by simp only [now, fieldWrite, h]; rfl
  · exact fun h => by simp only [now, fieldWrite, h]; rfl
  · exact fun h => by simp only [now, fieldWrite, h]; rfl
  · intro h i
    have hnow : now = Nat.bitwise (fun x y => x && !y) o n := by simp only [now, fieldWrite, h]; rfl
    rw [hnow, bit_eq_testBit, Nat.testBit_bitwise (by rfl), ← bit_eq_testBit, ← bit_eq_testBit]
  · intro h i
    have hnow : now = o ||| n := by simp only [now, fieldWrite, h]; rfl
    rw [hnow, bit_eq_testBit, Nat.testBit_or, ← bit_eq_testBit, ← bit_eq_testBit]

/-! ### Writes and reads of a stored register -/

/-- A register's field writes are one write of the register, and one of REJECTED where an EX field was refused. -/
theorem after_writeFields (s : State) (k v a : Nat) (r : RegRow) (ha : k % 2 ^ 40 = a) (h : findRow a = some r) :
    s.after (writeFields k v) =
      (s.after (setReg k (wordWrite (s.flag (lockOf a)) (s.flag (unlockedOf a)) r.fields (s.regN k) v))).after
        (when (hasEx r.fields && !s.flag (unlockedOf a)) (setFld (rejectedOf a) 1)) := by
  subst ha
  unfold writeFields
  rw [after_ask]
  simp only [h]
  rw [after_seq_cons, after_seq_cons, after_seq_nil]

theorem writesOnly_writeFields (k v a : Nat) (ha : k % 2 ^ 40 = a) :
    WritesOnly (fun j => j = k ∨ j = (rejectedOf a).addr) (writeFields k v) := by
  subst ha
  refine writesOnly_ask fun s => ?_
  dsimp only
  split
  · exact writesOnly_nothing _
  · exact writesOnly_seq_cons (writesOnly_setReg (by exact .inl rfl) _)
      (writesOnly_seq_cons (writesOnly_when (writesOnly_setFld (by exact .inr rfl) _)) (writesOnly_seq_nil _))

theorem reg_after_when_setFld_ne (s : State) (c : Bool) (f : Fld) (v k : Nat) (hk : k ≠ f.addr) :
    (s.after (when c (setFld f v))).reg k = s.reg k := by
  cases c
  · rfl
  · exact reg_apply_ne _ _ _ _ hk

theorem flag_setReg_ne (s : State) (k v : Nat) (f : Fld) (hk : k ≠ f.addr) : (s.after (setReg k v)).flag f = s.flag f := by
  rw [State.flag, fld_setReg, if_neg hk.symm, State.flag]

/-- The field `f` of a register after its field writes. -/
theorem bits_writeFields (s : State) (k v a : Nat) (r : RegRow) (f : FieldRow) (ha : k % 2 ^ 40 = a)
    (h : findRow a = some r) (hk : k ≠ (rejectedOf a).addr) (hf : f ∈ r.fields) :
    bits ((s.after (writeFields k v)).regN k) f.hi f.lo =
      fieldWrite (s.flag (lockOf a)) (s.flag (unlockedOf a)) f (s.regN k) v := by
  have hwf := findRow_fieldsWf h
  rw [after_writeFields s k v a r ha h, State.regN, reg_after_when_setFld_ne _ _ _ _ _ hk, after_setReg, reg_apply_self,
    BitVec.toNat_ofNat, wordWrite_eq, Nat.mod_eq_of_lt (putFields_lt _ _ _ _ hwf (regN_lt s k)),
    bits_putFields _ _ _ _ f hwf hf, if_pos rfl, Nat.mod_eq_of_lt (fieldWrite_lt ..)]

/-- A one-bit field after a write of 1 that a condition guards. -/
theorem flag_after_when_set (s : State) (c : Bool) (k i : Nat) (hi : i < 32) :
    (s.after (when c (setFld ⟨k, i, i⟩ 1))).flag ⟨k, i, i⟩ = (c || s.flag ⟨k, i, i⟩) := by
  cases c
  · rfl
  · rw [after_when, if_pos rfl, flag_setFld_bit s k i i 1 hi, if_pos rfl]
    rfl

/-- REJECTED after a register's field writes (R10). -/
theorem rejected_writeFields (s : State) (k v a : Nat) (r : RegRow) (ha : k % 2 ^ 40 = a) (h : findRow a = some r)
    (hk : k ≠ (rejectedOf a).addr) : (s.after (writeFields k v)).flag (rejectedOf a) = true ↔
      s.flag (rejectedOf a) = true ∨ (hasEx r.fields = true ∧ s.flag (unlockedOf a) = false) := by
  obtain ⟨e, he⟩ : ∃ e, rejectedOf a = ⟨e, 9, 9⟩ := ⟨_, rfl⟩
  rw [he] at hk
  rw [after_writeFields s k v a r ha h, he, flag_after_when_set _ _ e 9 (by omega), flag_setReg_ne s k _ _ hk]
  generalize hasEx r.fields = x
  generalize s.flag (unlockedOf a) = u
  cases x <;> cases u <;> simp

/-- The registers with a copy for each master lie at distinct keys, each above its address (R294, R383, R416). -/
theorem keyOf_mod (m x : Nat) (hx : x < 2 ^ 36) : keyOf m x % 2 ^ 40 = x := by
  unfold keyOf banked
  split <;> omega

/-- A served write of a register whose write has no behaviour of its own is its field writes. -/
theorem after_regWrite_stored (s : State) (m x v : Nat) (r : RegRow) (h1 : x % 0x10000 ≠ 0x7FFC) (h2 : isFilt x = false)
    (h3 : findRow x = some r) (h4 : find (windowWrites (x / 0x10000 - 0x4000) m v) r.base = none) :
    s.after (regWrite m x v) = s.after (writeFields (keyOf m x) v) := by
  fun_cases regWrite m x v
  case case1 h => exact absurd h h1
  case case2 h => rw [h2] at h; cases h
  case case3 h => rw [h3] at h; cases h
  case case4 r' hr act hact =>
    rw [h3] at hr
    cases hr
    rw [h4] at hact
    cases hact
  case case5 => rfl

/-- A served write of an address with no register does nothing (R5). -/
theorem after_regWrite_none (s : State) (m x v : Nat) (h1 : x % 0x10000 ≠ 0x7FFC) (h2 : isFilt x = false)
    (h3 : findRow x = none) : s.after (regWrite m x v) = s := by
  rw [regWrite, if_neg h1, if_neg (by simp [h2])]
  simp only [h3]
  rfl

/-- A served write of a register whose write has behaviour of its own is that behaviour, at the register's copy. -/
theorem after_regWrite_own (s : State) (m x v : Nat) (r : RegRow) (act : Nat → Nat → Effect) (h1 : x % 0x10000 ≠ 0x7FFC)
    (h2 : isFilt x = false) (h3 : findRow x = some r)
    (h4 : find (windowWrites (x / 0x10000 - 0x4000) m v) r.base = some act) :
    s.after (regWrite m x v) = s.after (act (copyOf r x).1 (copyOf r x).2) := by
  fun_cases regWrite m x v
  case case1 h => exact absurd h h1
  case case2 h => rw [h2] at h; cases h
  case case3 h => rw [h3] at h; cases h
  case case4 r' hr act' hact =>
    rw [h3] at hr
    cases hr
    rw [h4] at hact
    cases hact
    rfl
  case case5 r' hr hact =>
    rw [h3] at hr
    cases hr
    rw [h4] at hact
    cases hact

/-! ### Reads -/

theorem find_eq_none {α : Type} {m : List (Nat × α)} {j : Nat} (h : ∀ e ∈ m, e.1 ≠ j) : find m j = none := by
  induction m with
  | nil => rfl
  | cons e m ih =>
    obtain ⟨i, u⟩ := e
    have hi : i ≠ j := h (i, u) (List.mem_cons_self ..)
    simp only [find, if_neg hi]
    exact ih fun x hx => h x (List.mem_cons_of_mem _ hx)

/-- The marks listed in `l` are cleared, and nothing else changes. -/
theorem applyAll_clearFirsts (s : State) (l : List (Nat × Bool)) :
    s.applyAll (l.map fun e => Change.first e.1 false) = { s with firsts := l.foldl (fun m e => eraseKey m e.1) s.firsts } := by
  induction l generalizing s with
  | nil => rfl
  | cons e l ih =>
    rw [List.map_cons, applyAll_cons, ih]
    rfl

theorem find_foldl_eraseKey {α β : Type} (l : List (Nat × β)) (m : List (Nat × α)) (j : Nat) :
    find (l.foldl (fun m e => eraseKey m e.1) m) j = if ∃ e ∈ l, e.1 = j then none else find m j := by
  induction l generalizing m with
  | nil => simp
  | cons e l ih =>
    rw [List.foldl_cons, ih, find_eraseKey]
    by_cases he : j = e.1
    · simp [he]
    · simp only [List.exists_mem_cons_iff, Ne.symm he, he, false_or, if_false]

/-- The effect that re-arms the events raised once per read of register `k`. -/
def rearm (k : Nat) : Effect := fun s => (s.firsts.filter (fun e => e.1 / 8 = k)).map (fun e => Change.first e.1 false)

theorem after_rearm (s : State) (k : Nat) : s.after (rearm k) = { s with firsts := (s.after (rearm k)).firsts } := by
  rw [State.after, rearm, applyAll_clearFirsts]

theorem firsts_rearm (s : State) (k i : Nat) (hi : i < 8) : getD (s.after (rearm k)).firsts (k * 8 + i) false = false := by
  rw [State.after, rearm, applyAll_clearFirsts]
  simp only [getD, find_foldl_eraseKey]
  split_ifs with h
  · rfl
  · rw [find_eq_none fun e he hj => h ⟨e, List.mem_filter.2 ⟨he, by simp only [hj, decide_eq_true_eq]; omega⟩, hj⟩]
    rfl

/-- What a read of a stored register changes. -/
theorem after_afterRead (s : State) (k a : Nat) (r : RegRow) (ha : k % 2 ^ 40 = a) (h : findRow a = some r) :
    s.after (afterRead k) = (s.after (when (r.fields.any (fun f => f.ty = .rc))
      (setReg k (wordAfterRead r.fields (s.regN k))))).after (rearm k) := by
  subst ha
  unfold afterRead
  rw [after_ask]
  simp only [h]
  rw [after_seq_cons, after_seq_cons, after_seq_nil]
  rfl

theorem after_afterRead_none (s : State) (k a : Nat) (ha : k % 2 ^ 40 = a) (h : findRow a = none) :
    s.after (afterRead k) = s := by
  subst ha
  unfold afterRead
  rw [after_ask]
  simp only [h]
  rfl

/-- A word with no RC field reads and stays. -/
theorem wordAfterRead_of_none (fs : List FieldRow) (w : Nat) (h : fs.any (fun f => f.ty = .rc) = false) :
    wordAfterRead fs w = w := by
  induction fs with
  | nil => rfl
  | cons f fs ih =>
    simp only [List.any_cons, Bool.or_eq_false_iff, decide_eq_false_iff_not] at h
    rw [wordAfterRead_eq, putFields_cons, if_neg (by simpa using h.1), ← wordAfterRead_eq]
    exact ih h.2

/-- The register `k` after a read of it: its RC fields are 0 (R3), every other register as before. -/
theorem reg_afterRead (s : State) (k a j : Nat) (r : RegRow) (ha : k % 2 ^ 40 = a) (h : findRow a = some r) :
    (s.after (afterRead k)).reg j = if j = k then BitVec.ofNat 32 (wordAfterRead r.fields (s.regN k)) else s.reg j := by
  have hre : ∀ t : State, (t.after (rearm k)).reg j = t.reg j := fun t => by rw [after_rearm]; rfl
  rw [after_afterRead s k a r ha h, hre]
  cases hc : r.fields.any (fun f => f.ty = .rc) with
  | false =>
    rw [wordAfterRead_of_none _ _ hc]
    by_cases hj : j = k
    · subst hj; simp [State.regN]
    · simp [hj]
  | true => exact reg_apply s k j _

theorem bits_afterRead (s : State) (k a : Nat) (r : RegRow) (f : FieldRow) (ha : k % 2 ^ 40 = a) (h : findRow a = some r)
    (hf : f ∈ r.fields) : bits ((s.after (afterRead k)).regN k) f.hi f.lo =
      if f.ty = .rc then 0 else bits (s.regN k) f.hi f.lo := by
  have hwf := findRow_fieldsWf h
  rw [State.regN, reg_afterRead s k a k r ha h, if_pos rfl, BitVec.toNat_ofNat, wordAfterRead_eq,
    Nat.mod_eq_of_lt (putFields_lt _ _ _ _ hwf (regN_lt s k)), bits_putFields _ _ _ _ f hwf hf]
  simp

/-- A read changes registers and once-per-read marks only. -/
theorem frame_afterRead (s : State) (k a : Nat) (r : RegRow) (ha : k % 2 ^ 40 = a) (h : findRow a = some r) :
    s.after (afterRead k) = { s with regs := (s.after (afterRead k)).regs, firsts := (s.after (afterRead k)).firsts } := by
  rw [after_afterRead s k a r ha h]
  generalize hc : r.fields.any (fun f => f.ty = .rc) = c
  rw [after_rearm]
  cases c <;> rfl

/-- The registers whose read does more than clear RC fields (R383, R416, R506, R605). -/
def specialReads : List Nat := [PLT.LC_NONCE 0, ACC.TIME_NS, ACC.LTB_LO, RTC.NOW_SUBSEC, EVT.HOST_EVQ]

/-- A read of any other register changes what `afterRead` does. -/
theorem after_regReading (s : State) (m x : Nat) (hn : x ∉ specialReads)
    (hc : ∀ r, findRow x = some r → r.base ≠ SEQ.CORE_STATE 0) :
    s.after (regReading m x fun _ => nothing) = s.after (afterRead (keyOf m x)) := by
  simp only [specialReads, List.mem_cons, List.not_mem_nil, or_false, not_or] at hn
  obtain ⟨h1, h2, h3, h4, h5⟩ := hn
  have hrest : ∀ t : State, t.after (match findRow x with
      | some r => when (r.base = SEQ.CORE_STATE 0) (setCore (copyOf r x).1 fun c => { c with badBind := false })
      | none => nothing) = t := fun t => by
    cases hr : findRow x with
    | none => rfl
    | some r => simp [hc r hr]
  unfold regReading
  rw [after_seq_cons, after_when, if_neg (by simpa using h1), after_seq_cons, after_seq_nil, after_ask, after_seq_cons,
    after_seq_cons, after_seq_nil, after_nothing]
  unfold readEffect
  rw [after_seq_cons, after_seq_cons, after_seq_nil, if_neg h2, if_neg h3, if_neg h4, if_neg h5]
  exact hrest _

/-- RC_FIELD_READ by a master that acts, of a register in a domain that answers. -/
theorem exec_rcFieldRead_served (s : State) (m : Fin 67) (a : BitVec 36) (w : Nat) (hact : s.masterActs m = true)
    (hw : regionOf a.toNat = .window w) (hx : a.toNat % 4 = 0) (hd : s.answers (regDomain a.toNat) = true)
    (hn : a.toNat ∉ specialReads) (hc : ∀ r, findRow a.toNat = some r → r.base ≠ SEQ.CORE_STATE 0) :
    exec (.rcFieldRead m a) s = .next (s.after (afterRead (keyOf m a.toNat))) := by
  have hm : mayAccess m a.toNat false = true := by simp [mayAccess, hw]
  have hread : s.after (busRead 0 m a.toNat 4 nothing fun _ => nothing) = s.after (afterRead (keyOf m a.toNat)) := by
    unfold busRead
    rw [after_busAccess_served s m a.toNat w false _ _ _ hw hm hx hd]
    simp only [busServeRead, hw]
    exact after_regReading s m a.toNat hn hc
  show run _ s = _
  rw [run_eq, after_ask, after_when, if_pos (by simp [hact, hw]), hread]

theorem exec_rcFieldRead_idle (s : State) (m : Fin 67) (a : BitVec 36)
    (h : ¬s.masterActs m = true ∨ ¬∃ w, regionOf a.toNat = .window w) : exec (.rcFieldRead m a) s = .next s := by
  show run _ s = _
  rw [run_eq, after_ask, after_when, if_neg]
  exact accessGuard_false s m a.toNat h

end Sys2Proof.Machine
end

section
/-!
PROOFS: what raising and logging an event changes, and the accesses that reach nothing.
-/
namespace Sys2Proof.Machine

open Sys2Proof

/-! ### Raising events and logging (R600, R607, R608, R610) -/

/-- The read `f` does not see what raising and logging an event changes: the router, the platform's pending edge, WAKE_PEND
and EVT's own registers. -/
structure SkipsEvents {α : Type} (f : State → α) : Prop where
  reg : ∀ (t : State) k v, k = PLT.WAKE_PEND ∨ k / 0x10000 = 0x4012 → f (t.apply (.reg k v)) = f t
  evt : ∀ (t : State) x, f (t.apply (.evt x)) = f t
  plt : ∀ (t : State) x, f (t.apply (.plt x)) = f t

theorem skipsEvents_mem : SkipsEvents State.mem := ⟨fun _ _ _ _ => rfl, fun _ _ => rfl, fun _ _ => rfl⟩

theorem skipsEvents_cores : SkipsEvents State.cores := ⟨fun _ _ _ _ => rfl, fun _ _ => rfl, fun _ _ => rfl⟩

theorem skipsEvents_reg {k : Nat} (h1 : k ≠ PLT.WAKE_PEND) (h2 : k / 0x10000 ≠ 0x4012) : SkipsEvents (State.reg · k) where
  reg t j v hj := reg_apply_ne t j k v fun e => by subst e; exact hj.elim h1 h2
  evt _ _ := rfl
  plt _ _ := rfl

variable {α : Type} {f : State → α}

theorem keeps_evt (hf : SkipsEvents f) (g : State → Evt) : Keeps f (fun s => [.evt (g s)]) := fun s => hf.evt s _

theorem keeps_plt (hf : SkipsEvents f) (g : State → Plt) : Keeps f (fun s => [.plt (g s)]) := fun s => hf.plt s _

theorem keeps_setFld_event (hf : SkipsEvents f) (g : Fld) (v : Nat) (h : g.addr = PLT.WAKE_PEND ∨ g.addr / 0x10000 = 0x4012) :
    Keeps f (setFld g v) := fun s => hf.reg s _ _ h

theorem keeps_count_event (hf : SkipsEvents f) (g : Fld) (h : g.addr / 0x10000 = 0x4012) : Keeps f (count g) :=
  keeps_ask (g := fun s => setFld g (min (s.fld g + 1) (2 ^ (g.hi - g.lo + 1) - 1))) fun _ => keeps_setFld_event hf g _ (.inr h)

theorem keeps_edgeArrives (hf : SkipsEvents f) (n : Nat) : Keeps f (edgeArrives n) := by
  refine keeps_ask fun s => keeps_ite ?_ (keeps_nothing f)
  split
  · exact keeps_seq_cons (keeps_setFld_event hf _ _ (.inl rfl)) (keeps_seq_cons (keeps_plt hf _) (keeps_seq_nil f))
  · exact keeps_setFld_event hf _ _ (.inl rfl)
  · exact keeps_when (keeps_plt hf _)
  · exact keeps_nothing f

theorem stat_window {n : Nat} (h : n < 96) : (EVT.STAT_COAL n).addr / 0x10000 = 0x4012 := by
  simp only [EVT.STAT_COAL, EVT.STAT]
  omega

theorem keeps_raise (hf : SkipsEvents f) {n : Nat} (hn : n < 96) (arg : Nat) : Keeps f (raise n arg) :=
  keeps_seq_cons (keeps_edgeArrives hf n) (keeps_seq_cons
    (keeps_ask fun _ => keeps_ite
      (keeps_ite (keeps_seq_cons (keeps_evt hf _) (keeps_seq_cons (keeps_count_event hf _ (stat_window hn)) (keeps_seq_nil f)))
        (keeps_evt hf _))
      (keeps_when (keeps_evt hf _)))
    (keeps_seq_nil f))

/-- What follows the placing of a log entry: EV2 for an entry made, LOST and EV3 for one refused (R608). -/
def logReports (made : Option Nat) (refused : Bool) (cls kind : Nat) : Effect := seq [
  match made with
    | some i => raise 2 (i + cls * 2 ^ 8 + kind * 2 ^ 12)
    | none => nothing,
  when refused (seq [count EVT.LOG_STAT_LOST, ask fun s =>
    if s.evt.logFullRaised then nothing
    else seq [fun s => [.evt { s.evt with logFullRaised := true }], raise 3 (s.fld EVT.LOG_STAT_LOST)]])]

/-- A log entry is placed, then reported. -/
theorem after_logEntry (s : State) (event cls kind w1 w2 : Nat) : s.after (logEntry event cls kind w1 w2) =
    (s.apply (.evt (logPlace s.evt (event + cls * 2 ^ 8 + kind * 2 ^ 12) w1 w2 (s.ltbMs % 2 ^ 32) cls).1)).after
      (logReports (logPlace s.evt (event + cls * 2 ^ 8 + kind * 2 ^ 12) w1 w2 (s.ltbMs % 2 ^ 32) cls).2.1
        (logPlace s.evt (event + cls * 2 ^ 8 + kind * 2 ^ 12) w1 w2 (s.ltbMs % 2 ^ 32) cls).2.2 cls kind) := by
  unfold logEntry
  rw [after_ask]
  dsimp only
  rw [after_seq_cons]
  rfl

theorem keeps_logReports (hf : SkipsEvents f) (made : Option Nat) (refused : Bool) (cls kind : Nat) :
    Keeps f (logReports made refused cls kind) := by
  refine keeps_seq_cons ?_ (keeps_seq_cons (keeps_when (keeps_seq_cons (keeps_count_event hf _ rfl)
    (keeps_seq_cons (keeps_ask fun _ => keeps_ite (keeps_nothing f) ?_) (keeps_seq_nil f)))) (keeps_seq_nil f))
  · cases made with
    | some i => exact keeps_raise hf (by omega) _
    | none => exact keeps_nothing f
  · exact keeps_seq_cons (keeps_evt hf _) (keeps_seq_cons (keeps_raise hf (by omega) _) (keeps_seq_nil f))

theorem keeps_logEntry (hf : SkipsEvents f) (event cls kind w1 w2 : Nat) : Keeps f (logEntry event cls kind w1 w2) := by
  intro s
  rw [after_logEntry, keeps_logReports hf, hf.evt]

theorem keeps_logEvent (hf : SkipsEvents f) (n arg : Nat) : Keeps f (logEvent n arg) :=
  keeps_ask fun s => keeps_when (keeps_logEntry hf n (s.fld (EVT.ROUTE_SEV n)) 1 arg 0)

theorem keeps_fire (hf : SkipsEvents f) {n : Nat} (hn : n < 96) (arg : Nat) : Keeps f (fire n arg) :=
  keeps_ask fun _ => keeps_seq_cons (keeps_raise hf hn _) (keeps_seq_cons
    (keeps_when (keeps_logEvent hf n _)) (keeps_seq_nil f))

/-- PD_CORE's state survives the raising of events. -/
theorem skipsEvents_on : SkipsEvents (State.on · 2) where
  reg t k v hk := by
    have hne : PLT.PD_STATE_LO ≠ k := by
      rintro rfl
      revert hk
      decide
    simp [State.on, State.domain, State.regN, reg_apply_ne t k _ v hne]
  evt _ _ := rfl
  plt _ _ := rfl

/-! ### The router's queue and the log while PD_CORE is ON -/

/-- The firings after one of event `n` is offered: it replaces the unserved firing of the same event, or joins (R600). -/
def offered (q : List Firing) (n arg : Nat) : List Firing :=
  if q.any (fun f => f.event = n) then q.map (fun f => if f.event = n then ⟨n, arg, false⟩ else f) else q ++ [⟨n, arg, false⟩]

theorem mem_offered (q : List Firing) (n arg : Nat) : ⟨n, arg, false⟩ ∈ offered q n arg := by
  unfold offered
  split
  case isTrue h =>
    obtain ⟨x, hx, he⟩ := List.any_eq_true.1 h
    exact List.mem_map.2 ⟨x, hx, if_pos (of_decide_eq_true he)⟩
  case isFalse => simp

/-- The firings of other events stay. -/
theorem mem_offered_of_ne {q : List Firing} {x : Firing} (n arg : Nat) (h : x ∈ q) (hx : x.event ≠ n) : x ∈ offered q n arg := by
  unfold offered
  split
  · exact List.mem_map.2 ⟨x, h, if_neg hx⟩
  · exact List.mem_append_left _ h

theorem evt_edgeArrives (s : State) (n : Nat) : (s.after (edgeArrives n)).evt = s.evt := by
  have h : Keeps State.evt (edgeArrives n) := by
    refine keeps_ask fun s => keeps_ite ?_ (keeps_nothing _)
    split
    · exact keeps_seq_cons (fun s => State.apply_reg_evt s _ _) (keeps_seq_cons (fun s => State.apply_plt_evt s _) (keeps_seq_nil _))
    · exact fun s => State.apply_reg_evt s _ _
    · exact keeps_when fun s => State.apply_plt_evt s _
    · exact keeps_nothing _
  exact h s

/-- The router and the log after a firing raised while PD_CORE is ON. -/
theorem evt_raise (s : State) (n arg : Nat) (h : s.on 2 = true) :
    (s.after (raise n arg)).evt = { s.evt with queue := offered s.evt.queue n arg } := by
  have hon : (s.after (edgeArrives n)).on 2 = true := (keeps_edgeArrives skipsEvents_on n s).trans h
  unfold raise
  rw [after_seq_cons, after_seq_cons, after_seq_nil, after_ask, if_pos hon]
  unfold offered
  rw [← evt_edgeArrives s n]
  generalize s.after (edgeArrives n) = t
  split_ifs <;> rfl

/-- While PD_CORE is ON a firing is only raised: its log entry is made when the router serves it. -/
theorem after_fire (s : State) (n arg : Nat) (h : s.on 2 = true) : s.after (fire n arg) = s.after (raise n (arg % 2 ^ 32)) := by
  unfold fire
  rw [after_ask, after_seq_cons, after_seq_cons, after_seq_nil, after_when, if_neg (by simp [h])]

theorem raised_fire (s : State) (n arg : Nat) (h : s.on 2 = true) (ha : arg < 2 ^ 32) : (s.after (fire n arg)).raised n arg := by
  rw [after_fire s n arg h, Nat.mod_eq_of_lt ha]
  refine ⟨⟨n, arg, false⟩, ?_, rfl, rfl⟩
  rw [evt_raise s n arg h]
  exact mem_offered ..

/-- Placing a log entry leaves the router alone. -/
theorem logPlace_queue (e : Evt) (w0 w1 w2 w3 cls : Nat) : (logPlace e w0 w1 w2 w3 cls).1.queue = e.queue := by
  unfold logPlace
  split
  · split_ifs <;> rfl
  · rfl

/-- What holds before the effect `e` holds after it. -/
def Preserves (P : State → Prop) (e : Effect) : Prop := ∀ s, P s → P (s.after e)

theorem preserves_seq_nil (P : State → Prop) : Preserves P (seq []) := fun _ h => h

theorem preserves_seq_cons {P : State → Prop} {e : Effect} {es : List Effect} (h : Preserves P e) (hs : Preserves P (seq es)) :
    Preserves P (seq (e :: es)) := fun s hp => by
  rw [after_seq_cons]
  exact hs _ (h s hp)

theorem preserves_when {P : State → Prop} {c : Bool} {e : Effect} (h : Preserves P e) : Preserves P (when c e) := by
  cases c
  · exact fun _ hp => hp
  · exact h

/-- PD_CORE is ON and the firing of event `n` with `arg` is unserved. -/
def OnAndRaised (n arg : Nat) (t : State) : Prop := t.on 2 = true ∧ t.raised n arg

/-- A change that keeps PD_CORE's state and the router's queue keeps what is raised. -/
theorem onAndRaised_of_queue {n arg : Nat} {s t : State} (h : OnAndRaised n arg s) (hon : t.on 2 = s.on 2)
    (hq : t.evt.queue = s.evt.queue) : OnAndRaised n arg t := by
  obtain ⟨ho, hr⟩ := h
  refine ⟨hon.trans ho, ?_⟩
  unfold State.raised
  rw [hq]
  exact hr

/-- A firing of another event leaves the unserved firing of event `n`. -/
theorem preserves_raise {n arg k b : Nat} (hn : n ≠ k) (hk : k < 96) : Preserves (OnAndRaised n arg) (raise k b) := by
  intro s ⟨hon, x, hx, hxn, hxa⟩
  refine ⟨(keeps_raise skipsEvents_on hk b s).trans hon, x, ?_, hxn, hxa⟩
  rw [evt_raise s k b hon]
  exact mem_offered_of_ne k b hx (hxn ▸ hn)

/-- The reports of a log entry leave the unserved firings of events other than EV2 and EV3. -/
theorem preserves_logReports {n arg : Nat} (made : Option Nat) (refused : Bool) (cls kind : Nat) (h2 : n ≠ 2) (h3 : n ≠ 3) :
    Preserves (OnAndRaised n arg) (logReports made refused cls kind) := by
  have hcount : Preserves (OnAndRaised n arg) (count EVT.LOG_STAT_LOST) := fun t ht =>
    onAndRaised_of_queue ht (keeps_count_event skipsEvents_on _ rfl t) (congrArg Evt.queue (State.apply_reg_evt t _ _))
  have hset : Preserves (OnAndRaised n arg) (fun s => [.evt { s.evt with logFullRaised := true }]) :=
    fun t ht => onAndRaised_of_queue ht (State.apply_evt_on t _ 2) rfl
  refine preserves_seq_cons ?_ (preserves_seq_cons (preserves_when (preserves_seq_cons hcount
    (preserves_seq_cons ?_ (preserves_seq_nil _)))) (preserves_seq_nil _))
  · cases made with
    | some i => exact preserves_raise h2 (by omega)
    | none => exact fun _ h => h
  · intro t ht
    rw [after_ask, after_ite]
    split
    · exact ht
    · exact preserves_seq_cons hset (preserves_seq_cons (preserves_raise h3 (by omega)) (preserves_seq_nil _)) t ht

/-- A log entry leaves the unserved firings of events other than EV2 and EV3. -/
theorem preserves_logEntry {n arg : Nat} (event cls kind w1 w2 : Nat) (h2 : n ≠ 2) (h3 : n ≠ 3) :
    Preserves (OnAndRaised n arg) (logEntry event cls kind w1 w2) := by
  intro s hs
  rw [after_logEntry]
  exact preserves_logReports _ _ _ _ h2 h3 _ (onAndRaised_of_queue hs (State.apply_evt_on s _ 2) (logPlace_queue ..))

/-- The first entry of an empty log. -/
theorem log_logEntry_empty (s : State) (event cls kind w1 w2 : Nat) (h : s.on 2 = true) (hl : s.evt.log = []) :
    (s.after (logEntry event cls kind w1 w2)).evt.log =
      [⟨event + cls * 2 ^ 8 + kind * 2 ^ 12, w1, w2, s.ltbMs % 2 ^ 32⟩] := by
  have hp : ∀ w0 w3, logPlace s.evt w0 w1 w2 w3 cls = ({ s.evt with log := [⟨w0, w1, w2, w3⟩] }, some 0, false) :=
    fun w0 w3 => by simp [logPlace, hl]
  rw [after_logEntry, hp]
  generalize event + cls * 2 ^ 8 + kind * 2 ^ 12 = w0
  unfold logReports
  rw [after_seq_cons, after_seq_cons, after_seq_nil, after_when, if_neg Bool.false_ne_true, evt_raise _ _ _ ((State.apply_evt_on s _ 2).trans h)]
  rfl

/-! ### Refused and failed accesses -/

/-- What an access that reaches nothing leaves alone: memory, the cores and every register outside EVT and PLT. -/
def Untouched (s t : State) : Prop :=
  t.mem = s.mem ∧ t.cores = s.cores ∧ ∀ k, k / 0x10000 ≠ 0x4012 → k / 0x10000 ≠ 0x400F → t.reg k = s.reg k

theorem ne_wakePend {k : Nat} (h : k / 0x10000 ≠ 0x400F) : k ≠ PLT.WAKE_PEND := by
  rintro rfl
  revert h
  decide

theorem untouched_logBusError (s : State) (m x : Nat) (write : Bool) : Untouched s (s.after (logBusError m x write)) := by
  refine ⟨keeps_logEntry skipsEvents_mem .. , keeps_logEntry skipsEvents_cores .., fun k h1 h2 => ?_⟩
  exact keeps_logEntry (skipsEvents_reg (ne_wakePend h2) h1) _ _ _ _ _ s

/-- The record of a failed write to a stopped domain (R450). -/
def offRecord (m d a : Nat) : Effect := seq [setReg PLT.OFF_LOG (2 ^ 31 + m * 2 ^ 14 + 2 ^ 12 + d),
  setReg PLT.OFF_ADDR_LO (a % 2 ^ 32), setReg PLT.OFF_ADDR_HI (a / 2 ^ 32)]

theorem writesOnly_offRecord (m d a : Nat) :
    WritesOnly (fun k => k ∈ [PLT.OFF_LOG, PLT.OFF_ADDR_LO, PLT.OFF_ADDR_HI]) (offRecord m d a) := by
  refine writesOnly_seq_cons (writesOnly_setReg ?_ _) (writesOnly_seq_cons (writesOnly_setReg ?_ _)
    (writesOnly_seq_cons (writesOnly_setReg ?_ _) (writesOnly_seq_nil _))) <;> simp

theorem offLog_offRecord (s : State) (m d a : Nat) (h : 2 ^ 31 + m * 2 ^ 14 + 2 ^ 12 + d < 2 ^ 32) :
    (s.after (offRecord m d a)).regN PLT.OFF_LOG = 2 ^ 31 + m * 2 ^ 14 + 2 ^ 12 + d := by
  have hlo : PLT.OFF_LOG ≠ PLT.OFF_ADDR_LO := by decide
  have hhi : PLT.OFF_LOG ≠ PLT.OFF_ADDR_HI := by decide
  unfold offRecord
  rw [after_seq_cons, after_seq_cons, after_seq_cons, after_seq_nil, State.regN, after_setReg, after_setReg, after_setReg,
    reg_apply_ne _ _ _ _ hhi, reg_apply_ne _ _ _ _ hlo, reg_apply_self, BitVec.toNat_ofNat, Nat.mod_eq_of_lt h]

/-- The three parts of a failed write to a stopped domain: its record where none stands, EV_PLT_OFFACCESS and the log. -/
theorem after_offAccess (s : State) (m d a : Nat) : s.after (offAccess m d a true false) =
    ((s.after (when (!s.flag PLT.OFF_LOG_VALID) (offRecord m d a))).after (fire 8 (d + 2 ^ 5 + m * 2 ^ 7))).after
      (logEntry 0x7F 2 3 (a % 2 ^ 32) (a / 2 ^ 32 % 16 + m * 2 ^ 4 + 2 ^ 11 + d * 2 ^ 12)) := by
  unfold offAccess offRecord
  rw [after_seq_cons, after_seq_cons, after_seq_cons, after_seq_nil, after_ask]
  simp only [b2n, if_true, Bool.false_eq_true, if_false, Nat.zero_mul, Nat.one_mul, Nat.add_zero]

theorem on_two_of_reg {s t : State} (h : t.reg PLT.PD_STATE_LO = s.reg PLT.PD_STATE_LO) : t.on 2 = s.on 2 := by
  simp [State.on, State.domain, State.regN, h]

/-- A failed write to a stopped domain touches neither memory nor cores nor registers outside EVT and PLT, raises
EV_PLT_OFFACCESS, and fills OFF_LOG where it is free (R450). -/
theorem offAccess_spec (s : State) (m d a : Nat) (hon : s.on 2 = true) (hm : m ≤ 66) (hd : d ≤ 20) :
    Untouched s (s.after (offAccess m d a true false)) ∧
      (s.after (offAccess m d a true false)).raised 8 (d + 2 ^ 5 + m * 2 ^ 7) ∧
      (s.flag PLT.OFF_LOG_VALID = false →
        (s.after (offAccess m d a true false)).regN PLT.OFF_LOG = 2 ^ 31 + m * 2 ^ 14 + 2 ^ 12 + d) := by
  rw [after_offAccess]
  obtain ⟨hframe, hregs⟩ := writesOnly_when (c := !s.flag PLT.OFF_LOG_VALID) (writesOnly_offRecord m d a) s
  have hlog : s.flag PLT.OFF_LOG_VALID = false → (s.after (when (!s.flag PLT.OFF_LOG_VALID) (offRecord m d a))).regN PLT.OFF_LOG =
      2 ^ 31 + m * 2 ^ 14 + 2 ^ 12 + d := fun h => by
    rw [after_when, if_pos (by simp [h])]
    exact offLog_offRecord s m d a (by omega)
  generalize s.after (when (!s.flag PLT.OFF_LOG_VALID) (offRecord m d a)) = t at hframe hregs hlog ⊢
  have ht : t.on 2 = true := (on_two_of_reg (hregs PLT.PD_STATE_LO (by decide))).trans hon
  have hkeep : ∀ {α : Type} {f : State → α} (_ : SkipsEvents f), f ((t.after (fire 8 (d + 2 ^ 5 + m * 2 ^ 7))).after
      (logEntry 0x7F 2 3 (a % 2 ^ 32) (a / 2 ^ 32 % 16 + m * 2 ^ 4 + 2 ^ 11 + d * 2 ^ 12))) = f t := fun hf =>
    (keeps_logEntry hf ..).trans (keeps_fire hf (by omega) _ t)
  have hraised : OnAndRaised 8 (d + 2 ^ 5 + m * 2 ^ 7) (t.after (fire 8 (d + 2 ^ 5 + m * 2 ^ 7))) :=
    ⟨(keeps_fire skipsEvents_on (by omega) _ t).trans ht, raised_fire t 8 _ ht (by omega)⟩
  refine ⟨⟨(hkeep skipsEvents_mem).trans (by rw [hframe]), (hkeep skipsEvents_cores).trans (by rw [hframe]), ?_⟩, ?_, ?_⟩
  · intro k h1 h2
    refine (hkeep (skipsEvents_reg (ne_wakePend h2) h1)).trans (hregs k fun hk => h2 ?_)
    simp only [List.mem_cons, List.not_mem_nil, or_false] at hk
    rcases hk with rfl | rfl | rfl <;> rfl
  · exact (preserves_logEntry _ _ _ _ _ (by omega) (by omega) _ hraised).2
  · intro h
    rw [State.regN, hkeep (skipsEvents_reg (k := PLT.OFF_LOG) (by decide) (by decide))]
    exact hlog h

end Sys2Proof.Machine
end

section
/-!
PROOFS: writes of the calibrated fields and of the user page behind them (R16, R485).
-/
namespace Sys2Proof.Machine

open Sys2Proof

/-! ### Signed numbers in a field -/

theorem unsigned_lt (w : Nat) (z : Int) : unsigned w z < 2 ^ w := by
  have h : (0 : Int) < ((2 ^ w : Nat) : Int) := by exact_mod_cast Nat.two_pow_pos w
  have h1 := Int.emod_nonneg z h.ne'
  have h2 := Int.emod_lt_of_pos z h
  unfold unsigned
  omega

theorem signed_unsigned_16 (z : Int) (h1 : -32768 ≤ z) (h2 : z < 32768) : signed 16 (unsigned 16 z) = z := by
  simp only [signed, unsigned]
  norm_num
  omega

theorem signed_9_bounds (n : Nat) : -256 ≤ signed 9 n ∧ signed 9 n < 256 := by
  simp only [signed]
  norm_num
  omega

theorem signed_12_bounds (n : Nat) : -2048 ≤ signed 12 n ∧ signed 12 n < 2048 := by
  simp only [signed]
  norm_num
  omega

/-! ### The user page (R485) -/

theorem mem'_two (s : State) (a : Nat) : s.mem' a 2 = s.byte a % 256 + 256 * (s.byte (a + 1) % 256) := by
  simp [State.mem', State.bytes, List.range_succ, ofLe]

theorem bytes_of_lt {s t : State} {n : Nat} (h : ∀ x < n, t.byte x = s.byte x) {a k : Nat} (hk : a + k ≤ n) :
    t.bytes a k = s.bytes a k :=
  List.map_congr_left fun i hi => h _ (by have := List.mem_range.1 hi; omega)

theorem mem'_of_lt {s t : State} {n : Nat} (h : ∀ x < n, t.byte x = s.byte x) {a k : Nat} (hk : a + k ≤ n) :
    t.mem' a k = s.mem' a k := congrArg ofLe (bytes_of_lt h hk)

/-- The factory page lies below the user page's entries. -/
theorem factoryOk_of_lt {s t : State} (h : ∀ x < 0x5004, t.byte x = s.byte x) : t.factoryOk = s.factoryOk := by
  simp only [State.factoryOk, mem'_of_lt h (show 0x1000 + 4 ≤ 0x5004 by norm_num),
    mem'_of_lt h (show 0x1004 + 2 ≤ 0x5004 by norm_num), mem'_of_lt h (show 0x1008 + 4 ≤ 0x5004 by norm_num),
    bytes_of_lt h (show 0x1010 + 0x1F0 ≤ 0x5004 by norm_num)]

theorem factoryCal_of_lt {s t : State} (h : ∀ x < 0x5004, t.byte x = s.byte x) {p i : Nat} (hp : p < 3) (hi : i < 8) :
    t.factoryCal p i = s.factoryCal p i := by
  simp only [State.factoryCal, factoryOk_of_lt h, h (0x1010 + 8 * p + i) (by omega)]

theorem factoryTrim_of_lt {s t : State} (h : ∀ x < 0x5004, t.byte x = s.byte x) : t.factoryTrim = s.factoryTrim := by
  simp only [State.factoryTrim, factoryOk_of_lt h, mem'_of_lt h (show 0x1028 + 2 ≤ 0x5004 by norm_num)]

theorem reg_putBytes (s : State) (a : Nat) (l : List Nat) (k : Nat) : (s.after (putBytes a l)).reg k = s.reg k := by
  have h : Keeps (State.reg · k) (putBytes a l) := keeps_changes fun _ t c hc => by
    obtain ⟨e, -, rfl⟩ := List.mem_map.1 hc
    rfl
  exact h s

/-- An MRAM write is a write of bytes, and of MRAM's error marks. -/
theorem after_mramWrite (s : State) (a : Nat) (l : List Nat) :
    ∃ x, s.after (mramWrite a l) = (s.after (putBytes a l)).apply (.nv x) := by
  unfold mramWrite
  rw [after_ask]
  dsimp only
  rw [after_seq_cons, after_seq_cons, after_seq_nil]
  exact ⟨_, rfl⟩

/-- A user offset is stored in its two bytes of the user page, and nothing else of memory or registers changes. -/
theorem userStore_spec (s : State) (a : Nat) (z : Int) (h : s.mem' 0x5000 4 = 0x55464331) :
    (s.after (userStore a z)).mem' a 2 = unsigned 16 z ∧ MemOnly a 2 s (s.after (userStore a z)) ∧
      ∀ k, (s.after (userStore a z)).reg k = s.reg k := by
  obtain ⟨x, hx⟩ := after_mramWrite s a (leBytes (unsigned 16 z) 2)
  have hs : s.after (userStore a z) = (s.after (putBytes a (leBytes (unsigned 16 z) 2))).apply (.nv x) := by
    unfold userStore
    rw [after_ask, after_seq_cons, after_seq_cons, after_seq_nil, after_when, if_neg (by simp [h]), hx]
  have hlt := unsigned_lt 16 z
  rw [hs]
  refine ⟨?_, fun k hk => (State.apply_nv_byte ..).trans (byte_putBytes_ne s a _ k hk),
    fun k => (State.apply_nv_reg ..).trans (reg_putBytes s a _ k)⟩
  have h0 := byte_putBytes s a (leBytes (unsigned 16 z) 2) 0 (by simp [leBytes])
  have h1 := byte_putBytes s a (leBytes (unsigned 16 z) 2) 1 (by simp [leBytes])
  rw [State.apply_nv_mem', mem'_two]
  simp only [leBytes, List.getD_cons_zero, List.getD_cons_succ] at h0 h1
  rw [Nat.add_zero] at h0
  rw [show leBytes (unsigned 16 z) 2 = [unsigned 16 z % 256, unsigned 16 z / 256 % 256] from rfl, h0, h1]
  omega

/-- What stands below a stored user offset reads as before. -/
theorem byte_userStore_lt (s : State) (a : Nat) (z : Int) (h : s.mem' 0x5000 4 = 0x55464331) (ha : 0x5004 ≤ a) :
    ∀ x < 0x5004, (s.after (userStore a z)).byte x = s.byte x := fun x hx =>
  (userStore_spec s a z h).2.1 x (.inl (by omega))

/-! ### Writes of the calibrated fields (R16) -/

/-- The row of a calibrated field of a port holds one register a port. -/
theorem findRow_calRegister (p : Fin 3) (i : Fin 6) : (findRow (calRegister p i)).any (fun r =>
    decide (r.base = calRegister 0 i) && decide ((copyOf r (calRegister p i)).1 = p)) = true := by
  revert p i
  decide +kernel

theorem calRegister_place (p : Fin 3) (i : Fin 7) : calRegister p i % 0x10000 ≠ 0x7FFC ∧ calRegister p i % 4 = 0 ∧
    isFilt (calRegister p i) = false ∧ 0x40000000 ≤ calRegister p i ∧ calRegister p i < 0x40140000 := by
  revert p i
  decide +kernel

theorem calRegister_window (p : Fin 3) (i : Fin 6) : calRegister p i / 0x10000 - 0x4000 = if i.val < 4 then 0 else 1 := by
  revert p i
  decide +kernel

theorem calReg_eq (p : Fin 3) (i : Fin 6) : calReg p i = calRegister p i := by
  revert p i
  decide +kernel

theorem find_calRegister (m v : Nat) (i : Fin 6) :
    find (windowWrites (if i.val < 4 then 0 else 1) m v) (calRegister 0 i) = some (fun p _ => calUserWrite p i v) := by
  fin_cases i <;> rfl

/-- A write of a calibrated field's register is `calUserWrite`. -/
theorem after_regWrite_calRegister (s : State) (m v : Nat) (p : Fin 3) (i : Fin 6) :
    s.after (regWrite m (calRegister p i) v) = s.after (calUserWrite p i v) := by
  obtain ⟨h1, -, h2, -⟩ := calRegister_place p i.castSucc
  rw [Fin.val_castSucc] at h1 h2
  have hany := findRow_calRegister p i
  cases hr : findRow (calRegister p i) with
  | none => rw [hr] at hany; cases hany
  | some r =>
    rw [hr, Option.any_some, Bool.and_eq_true, decide_eq_true_eq, decide_eq_true_eq] at hany
    have hact := find_calRegister m v i
    rw [← calRegister_window p i, ← hany.1] at hact
    rw [after_regWrite_own s m _ v r _ h1 h2 hr hact, hany.2]

theorem findRow_trim : findRow RTC.TRIM_CAL =
    some { base := RTC.TRIM_CAL, dom := 1, fields := [⟨27, 16, .rw, 0⟩, ⟨10, 0, .ro, 0⟩] } := by
  decide +kernel

/-- A write of TRIM_CAL is `trimUserWrite`. -/
theorem after_regWrite_trim (s : State) (m v : Nat) : s.after (regWrite m RTC.TRIM_CAL v) = s.after (trimUserWrite v) :=
  after_regWrite_own s m RTC.TRIM_CAL v _ (fun _ _ => trimUserWrite v) (by decide) (by decide) findRow_trim rfl

theorem calWord_lt (f u : Int) : calWord f u < 2 ^ 32 := by
  have h1 := unsigned_lt 8 f
  have h2 := unsigned_lt 8 (clampI (-128) 127 (f + u))
  have h3 := unsigned_lt 9 u
  unfold calWord
  omega

/-- The calibrated field `i` of port `p` after a write of its user offset. -/
theorem calUserWrite_spec (s : State) (p : Fin 3) (i : Fin 6) (v : Nat) (h : s.mem' 0x5000 4 = 0x55464331) :
    let t := s.after (calUserWrite p i v)
    let user := signed 9 (bits v 8 0)
    t.mem' (0x5010 + 16 * p + 2 * i) 2 = unsigned 16 user ∧ MemOnly (0x5010 + 16 * p + 2 * i) 2 s t ∧
      t.regN (calRegister p i) = calWord (s.factoryCal p i) user := by
  intro t user
  obtain ⟨hmem, honly, -⟩ := userStore_spec s (0x5010 + 16 * p + 2 * i) user h
  have hlow := byte_userStore_lt s (0x5010 + 16 * p + 2 * i) user h (by omega)
  have ht : t = (s.after (userStore (0x5010 + 16 * p + 2 * i) user)).after (calLoad [i] p) := by
    show s.after (calUserWrite p i v) = _
    unfold calUserWrite
    rw [after_seq_cons, after_seq_cons, after_seq_nil]
  generalize s.after (userStore (0x5010 + 16 * p + 2 * i) user) = u at *
  have hload : t = u.apply (.reg (calReg p i) (BitVec.ofNat 32 (calWord (u.factoryCal p i) (u.userCal p i)))) := by
    rw [ht]
    unfold calLoad
    rw [after_ask, after_forEach_cons, after_forEach_nil, after_setReg]
  have huser : u.userCal p i = user := by
    obtain ⟨h1, h2⟩ := signed_9_bounds (bits v 8 0)
    rw [State.userCal, if_pos ((mem'_of_lt hlow (by norm_num)).trans h), hmem, signed_unsigned_16 _ (by omega) (by omega)]
  rw [hload]
  refine ⟨(State.apply_reg_mem' ..).trans hmem, fun x hx => (State.apply_reg_byte ..).trans (honly x hx), ?_⟩
  rw [State.regN, calReg_eq, reg_apply_self, BitVec.toNat_ofNat, Nat.mod_eq_of_lt (calWord_lt ..), huser,
    factoryCal_of_lt hlow p.isLt (by omega)]

/-- TRIM_CAL after a write of its user offset. -/
theorem trimUserWrite_spec (s : State) (v : Nat) (h : s.mem' 0x5000 4 = 0x55464331) :
    let t := s.after (trimUserWrite v)
    let user := signed 12 (bits v 27 16)
    t.mem' 0x5040 2 = unsigned 16 user ∧ MemOnly 0x5040 2 s t ∧ bits (t.regN RTC.TRIM_CAL) 27 16 = unsigned 12 user ∧
      bits (t.regN RTC.TRIM_CAL) 10 0 = unsigned 11 (clampI (-512) 512 (s.factoryTrim + user)) := by
  intro t user
  obtain ⟨hmem, honly, -⟩ := userStore_spec s 0x5040 user h
  have hlow := byte_userStore_lt s 0x5040 user h (by omega)
  have ht : t = (s.after (userStore 0x5040 user)).after trimReload := by
    show s.after (trimUserWrite v) = _
    unfold trimUserWrite
    rw [after_seq_cons, after_seq_cons, after_seq_nil]
  generalize s.after (userStore 0x5040 user) = u at *
  have hload : ∃ f x, t = ((u.apply (.reg RTC.TRIM_FACTORY f)).apply (.reg RTC.TRIM_CAL (BitVec.ofNat 32
      (unsigned 12 u.userTrim * 2 ^ 16 + unsigned 11 (clampI (-512) 512 (u.factoryTrim + u.userTrim)))))).apply (.rtc x) := by
    rw [ht]
    unfold trimReload
    rw [after_ask, after_seq_cons, after_seq_cons, after_seq_cons, after_seq_nil]
    exact ⟨_, _, rfl⟩
  have huser : u.userTrim = user := by
    obtain ⟨h1, h2⟩ := signed_12_bounds (bits v 27 16)
    rw [State.userTrim, if_pos ((mem'_of_lt hlow (by norm_num)).trans h), hmem, signed_unsigned_16 _ (by omega) (by omega)]
  obtain ⟨f, x, hload⟩ := hload
  rw [huser, factoryTrim_of_lt hlow] at hload
  have h1 := unsigned_lt 12 user
  have h2 := unsigned_lt 11 (clampI (-512) 512 (s.factoryTrim + user))
  have hreg : t.regN RTC.TRIM_CAL = unsigned 12 user * 2 ^ 16 + unsigned 11 (clampI (-512) 512 (s.factoryTrim + user)) := by
    rw [State.regN, hload, State.apply_rtc_reg, reg_apply_self, BitVec.toNat_ofNat, Nat.mod_eq_of_lt (by omega)]
  have hbytes : ∀ x, t.byte x = u.byte x := fun x => by
    rw [hload, State.apply_rtc_byte, State.apply_reg_byte, State.apply_reg_byte]
  refine ⟨?_, fun x hx => (hbytes x).trans (honly x hx), ?_, ?_⟩
  · rw [mem'_two, hbytes, hbytes, ← mem'_two, hmem]
  · rw [hreg]
    simp only [bits]
    omega
  · rw [hreg]
    simp only [bits]
    omega

end Sys2Proof.Machine
end

section
/-!
PROOFS: what REGISTER_WRITE answers on each outcome of the bus's checks, and WINDOW_LOCK.
-/
namespace Sys2Proof.Machine

open Sys2Proof

/-! ### REGISTER_WRITE -/

theorem exec_registerWrite (s : State) (m : Fin 67) (a : BitVec 36) (size : Fin 4) (v : BitVec 64) :
    exec (.registerWrite m a size v) s = .next (s.after (registerWrite m a.toNat size v.toNat)) := rfl

/-- An access that the map refuses is logged (R40). -/
theorem after_busAccess_refused (s : State) (m x k : Nat) (write : Bool) (bad stall serve : Effect)
    (h : s.busRefused m x k write = true) :
    s.after (busAccess m x k write bad stall serve) = (s.after (logBusError m x write)).after bad := by
  unfold busAccess
  rw [after_ask]
  simp [h]

/-- An access that breaks the width rule is not logged (R4). -/
theorem after_busAccess_unfit (s : State) (m x k : Nat) (write : Bool) (bad stall serve : Effect)
    (hr : s.busRefused m x k write = false) (hu : s.busUnfit x k write = true) :
    s.after (busAccess m x k write bad stall serve) = s.after bad := by
  unfold busAccess
  rw [after_ask]
  simp [hr, hu]

/-- An access to a stopped domain without AUTO_WAKE fails (R450). -/
theorem after_busAccess_stopped (s : State) (m x k : Nat) (write : Bool) (bad stall serve : Effect)
    (hr : s.busRefused m x k write = false) (hu : s.busUnfit x k write = false) (hd : s.answers (busDomain x) = false)
    (hw : s.autoWake (busDomain x) = false) :
    s.after (busAccess m x k write bad stall serve) = (s.after (offAccess m (busDomain x) x write false)).after bad := by
  unfold busAccess
  rw [after_ask]
  simp [hr, hu, hd, hw]

variable {s : State} {m : Fin 67} {a : BitVec 36} {w : Nat}

/-- A write by a master that may not write there (Table 01.8, R39, R40). -/
theorem registerWrite_refused (size : Fin 4) (v : BitVec 64) (hon : s.on 2 = true) (hact : s.masterActs m = true)
    (hw : regionOf a.toNat = .window w) (hm : mayAccess m a.toNat true = false) :
    Answers (.registerWrite m a size v) s (fun t => Untouched s t ∧ (s.evt.log = [] → t.evt.log =
      [⟨0x7F + 2 * 2 ^ 8 + 2 * 2 ^ 12, a.toNat % 2 ^ 32, a.toNat / 2 ^ 32 % 16 + m * 2 ^ 4 + 2 ^ 11, s.ltbMs % 2 ^ 32⟩])) := by
  refine ⟨_, exec_registerWrite .., ?_⟩
  rw [after_registerWrite s m a.toNat size _ w hact hw]
  unfold busWrite
  rw [after_busAccess_refused _ _ _ _ _ _ _ _ (busRefused_of_mayAccess s m a.toNat _ true hm), after_nothing]
  refine ⟨untouched_logBusError s m a.toNat true, fun hl => ?_⟩
  unfold logBusError
  rw [log_logEntry_empty s _ _ _ _ _ hon hl]
  simp [b2n]

/-- A permitted write of another width than a word, or at no word's address, does nothing (R4). -/
theorem registerWrite_unfit (size : Fin 4) (v : BitVec 64) (hact : s.masterActs m = true)
    (hw : regionOf a.toNat = .window w) (hm : mayAccess m a.toNat true = true) (hs : size.val < 3)
    (hu : size.val ≠ 2 ∨ a.toNat % 4 ≠ 0) : exec (.registerWrite m a size v) s = .next s := by
  have hk : 2 ^ size.val ≤ 4 ∧ (size.val ≠ 2 → 2 ^ size.val ≠ 4) := by
    obtain ⟨z, hz⟩ := size
    simp only at hs ⊢
    interval_cases z <;> decide
  have hr : s.busRefused m a.toNat (2 ^ size.val) true = false := by rw [busRefused_window _ _ _ _ w _ hw hk.1, hm]; rfl
  have hun : s.busUnfit a.toNat (2 ^ size.val) true = true := by
    rw [busUnfit_window _ _ _ w _ hw, Bool.or_eq_true, decide_eq_true_eq, decide_eq_true_eq]
    exact hu.imp_left hk.2
  rw [exec_registerWrite, after_registerWrite s m a.toNat size _ w hact hw]
  unfold busWrite
  rw [after_busAccess_unfit _ _ _ _ _ _ _ _ hr hun, after_nothing]

/-- A permitted, aligned write to a stopped domain without AUTO_WAKE (R450). -/
theorem registerWrite_stopped (v : BitVec 64) (hon : s.on 2 = true) (hact : s.masterActs m = true)
    (hw : regionOf a.toNat = .window w) (hm : mayAccess m a.toNat true = true) (hx : a.toNat % 4 = 0)
    (hd : s.answers (regDomain a.toNat) = false) (hwake : s.autoWake (regDomain a.toNat) = false) :
    Answers (.registerWrite m a 2 v) s (fun t => Untouched s t ∧ t.raised 8 (regDomain a.toNat + 2 ^ 5 + m * 2 ^ 7) ∧
      (s.flag PLT.OFF_LOG_VALID = false → t.regN PLT.OFF_LOG = 2 ^ 31 + m * 2 ^ 14 + 2 ^ 12 + regDomain a.toNat)) := by
  have hr : s.busRefused m a.toNat 4 true = false := by rw [busRefused_window _ _ _ _ w _ hw le_rfl, hm]; rfl
  have hu : s.busUnfit a.toNat 4 true = false := by simp [busUnfit_window _ _ _ w _ hw, hx]
  have hdom := busDomain_window a.toNat w hw
  have hafter : s.after (registerWrite m a.toNat 2 v.toNat) = s.after (offAccess m (regDomain a.toNat) a.toNat true false) := by
    rw [after_registerWrite s m a.toNat 2 _ w hact hw]
    show s.after (busAccess m a.toNat 4 true _ _ _) = _
    rw [after_busAccess_stopped _ _ _ _ _ _ _ _ hr hu (by rw [hdom, hd]) (by rw [hdom, hwake]), after_nothing, hdom]
  have hexec : exec (.registerWrite m a 2 v) s = .next (s.after (offAccess m (regDomain a.toNat) a.toNat true false)) := by
    rw [← hafter]
    rfl
  exact ⟨_, hexec, offAccess_spec s m (regDomain a.toNat) a.toNat hon (by omega) (regDomain_le _)⟩

theorem keyOf_ne_rejected (m x : Nat) (h : x % 0x10000 ≠ 0x7FFC) : keyOf m x ≠ (rejectedOf x).addr := by
  show _ ≠ x / 0x10000 * 0x10000 + 0x7FFC
  unfold keyOf banked
  split <;> omega

/-- A served write of a register is `regWrite` with its low 32 bits. -/
theorem exec_registerWrite_served (v : BitVec 64) (hact : s.masterActs m = true)
    (hw : regionOf a.toNat = .window w) (hm : mayAccess m a.toNat true = true) (hx : a.toNat % 4 = 0)
    (hd : s.answers (regDomain a.toNat) = true) :
    exec (.registerWrite m a 2 v) s = .next (s.after (regWrite m a.toNat (v.toNat % 2 ^ 32))) := by
  rw [← after_registerWrite_served s m a.toNat v.toNat w hact hw hm hx hd]
  rfl

/-- A served write of a register whose write has no behaviour of its own: each field by its type (Table 00.3). -/
theorem registerWrite_stored (v : BitVec 64) (r : RegRow) (hact : s.masterActs m = true)
    (hw : regionOf a.toNat = .window w) (hm : mayAccess m a.toNat true = true) (hx : a.toNat % 4 = 0)
    (hd : s.answers (regDomain a.toNat) = true) (h1 : a.toNat % 0x10000 ≠ 0x7FFC) (h2 : isFilt a.toNat = false)
    (hr : findRow a.toNat = some r)
    (hown : find (windowWrites (a.toNat / 0x10000 - 0x4000) m (v.toNat % 2 ^ 32)) r.base = none) :
    exec (.registerWrite m a 2 v) s = .next (s.after (writeFields (keyOf m a.toNat) (v.toNat % 2 ^ 32))) := by
  rw [exec_registerWrite_served v hact hw hm hx hd, after_regWrite_stored s m _ _ r h1 h2 hr hown]

/-! ### WINDOW_LOCK (R12) -/

/-- The WINDOW_LOCK register of every window: bit 0, set by writing 1. -/
theorem findRow_lock (w : Fin 20) : (findRow (0x40007FF8 + w.val * 0x10000)).any (fun r =>
    decide (r.base = 0x40007FF8 + w.val * 0x10000) && decide (r.fields = [⟨0, 0, .w1s, 0⟩])) = true := by
  revert w
  decide +kernel

theorem lock_place (w : Fin 20) : isFilt (0x40007FF8 + w * 0x10000) = false ∧
    bankedRegs.contains (0x40007FF8 + w * 0x10000) = false := by
  revert w
  decide +kernel

theorem find_lock (w : Fin 20) (m v : Nat) : find (windowWrites w m v) (0x40007FF8 + w * 0x10000) = none := by
  fin_cases w <;> rfl

/-- A served write of 1 to WINDOW_LOCK writes that register alone. -/
theorem after_regWrite_lock (s : State) (m : Nat) (w : Fin 20) : ∃ r, findRow (0x40007FF8 + w * 0x10000) = some r ∧
    r.fields = [⟨0, 0, .w1s, 0⟩] ∧
    s.after (regWrite m (0x40007FF8 + w * 0x10000) 1) = s.after (writeFields (0x40007FF8 + w * 0x10000) 1) := by
  obtain ⟨hfilt, hbank⟩ := lock_place w
  have hany := findRow_lock w
  have hfind := find_lock w m 1
  obtain ⟨k, hk⟩ : ∃ k, 0x40007FF8 + w.val * 0x10000 = k := ⟨_, rfl⟩
  have hwin : k / 0x10000 - 0x4000 = w ∧ k % 0x10000 = 0x7FF8 := by omega
  rw [hk] at hfilt hbank hany hfind ⊢
  cases hr : findRow k with
  | none => rw [hr] at hany; cases hany
  | some r =>
    rw [hr, Option.any_some, Bool.and_eq_true, decide_eq_true_eq, decide_eq_true_eq] at hany
    obtain ⟨hbase, hfields⟩ := hany
    refine ⟨r, rfl, hfields, ?_⟩
    rw [after_regWrite_stored s m k 1 r (by omega) hfilt hr (by rw [hwin.1, hbase, hfind]), keyOf, hbank]
    rfl

/-- A write of 1 to WINDOW_LOCK sets LOCK and changes nothing else (R12). -/
theorem writeFields_lock (s : State) (k : Nat) (r : RegRow) (hk : k < 2 ^ 40) (hmod : k % 0x10000 = 0x7FF8)
    (hr : findRow k = some r) (hf : r.fields = [⟨0, 0, .w1s, 0⟩]) :
    (s.after (writeFields k 1)).flag (lockOf k) = true ∧
      s.after (writeFields k 1) = { s with regs := (s.after (writeFields k 1)).regs } ∧
      ∀ j, j ≠ k → (s.after (writeFields k 1)).reg j = s.reg j := by
  have hkey : k % 2 ^ 40 = k := Nat.mod_eq_of_lt hk
  have hlock : lockOf k = ⟨k, 0, 0⟩ := by
    show (⟨k / 0x10000 * 0x10000 + 0x7FF8, 0, 0⟩ : Fld) = _
    congr 1
    omega
  have hne : k ≠ (rejectedOf k).addr := by
    show k ≠ k / 0x10000 * 0x10000 + 0x7FFC
    omega
  have hbit := bits_writeFields s k 1 k r ⟨0, 0, .w1s, 0⟩ hkey hr hne (by simp [hf])
  have hone : bits (s.regN k) 0 0 ||| bits 1 0 0 = 1 := by
    have := bits_lt (s.regN k) 0 0
    interval_cases bits (s.regN k) 0 0 <;> rfl
  have hex : hasEx r.fields = false := by rw [hf]; rfl
  have hwrites : s.after (writeFields k 1) =
      s.after (setReg k (wordWrite (s.flag (lockOf k)) (s.flag (unlockedOf k)) r.fields (s.regN k) 1)) := by
    rw [after_writeFields s k 1 k r hkey hr, hex, Bool.false_and]
    rfl
  refine ⟨?_, ?_, fun j hj => ?_⟩
  · rw [hlock, State.flag, decide_eq_true_eq]
    exact hbit.trans hone
  · rw [hwrites]
    rfl
  · rw [hwrites, after_setReg, reg_apply_ne _ _ _ _ hj]

end Sys2Proof.Machine
end

section
/-!
PROOFS: register accesses (O60), with a state that meets the hypotheses of O5 and O60.
-/
namespace Sys2Proof.Machine

open Sys2Proof

/-! ### The clauses of O60 -/

/-- A served write follows Table 00.3's types, sets REJECTED where an EX field was refused, and changes nothing else. -/
theorem stored_write_spec (s : State) (m x u : Nat) (r : RegRow) (hx : x < 2 ^ 36) (h1 : x % 0x10000 ≠ 0x7FFC)
    (hr : findRow x = some r) :
    let key := keyOf m x
    let t := s.after (writeFields key u)
    t = { s with regs := t.regs } ∧ (∀ k, k ≠ key → k ≠ (rejectedOf x).addr → t.reg k = s.reg k) ∧
      (t.flag (rejectedOf x) = true ↔
        s.flag (rejectedOf x) = true ∨ (hasEx r.fields = true ∧ s.flag (unlockedOf x) = false)) ∧
      ∀ f ∈ r.fields, let old := bits (s.regN key) f.hi f.lo
        let new := bits u f.hi f.lo
        let now := bits (t.regN key) f.hi f.lo
        (f.ty = .ro ∨ f.ty = .rc ∨ f.ty = .wo → now = old) ∧ (f.ty = .rw → now = new) ∧
        (f.ty = .rwl → now = if s.flag (lockOf x) then old else new) ∧ (f.ty = .ex → now = if s.flag (unlockedOf x) then new else old) ∧
        (f.ty = .w1c → ∀ i, bit now i = (bit old i && !bit new i)) ∧ (f.ty = .w1s → ∀ i, bit now i = (bit old i || bit new i)) := by
  intro key t
  have hkey : key % 2 ^ 40 = x := keyOf_mod m x hx
  have hne : key ≠ (rejectedOf x).addr := keyOf_ne_rejected m x h1
  obtain ⟨hframe, hregs⟩ := writesOnly_writeFields key u x hkey s
  refine ⟨hframe, fun k hk hk' => hregs k fun h => h.elim hk hk', rejected_writeFields s key u x r hkey hr hne, fun f hf => ?_⟩
  have hnow := bits_writeFields s key u x r f hkey hr hne hf
  intro old new now
  rw [show now = _ from hnow]
  exact fieldWrite_rules (s.flag (lockOf x)) (s.flag (unlockedOf x)) f (s.regN key) u

/-- A read clears the RC fields of its register and re-arms its events, and changes nothing else. -/
theorem stored_read_spec (s : State) (m x : Nat) (r : RegRow) (hx : x < 2 ^ 36) (hr : findRow x = some r) :
    let key := keyOf m x
    let t := s.after (afterRead key)
    t = { s with regs := t.regs, firsts := t.firsts } ∧ (∀ k, k ≠ key → t.reg k = s.reg k) ∧
      (∀ i < 8, getD t.firsts (key * 8 + i) false = false) ∧
      ∀ f ∈ r.fields, bits (t.regN key) f.hi f.lo = if f.ty = .rc then 0 else bits (s.regN key) f.hi f.lo := by
  intro key t
  have hkey : key % 2 ^ 40 = x := keyOf_mod m x hx
  refine ⟨frame_afterRead s key x r hkey hr, fun k hk => ?_, fun i hi => ?_, fun f hf => bits_afterRead s key x r f hkey hr hf⟩
  · rw [reg_afterRead s key x k r hkey hr, if_neg hk]
  · show getD (s.after (afterRead key)).firsts (key * 8 + i) false = false
    rw [after_afterRead s key x r hkey hr]
    exact firsts_rearm _ _ _ hi

/-- WINDOW_LOCK_SET by a master that may write there, in a domain that answers (R12). -/
theorem windowLockSet_spec (s : State) (m : Fin 67) (w : Fin 20) (hact : s.masterActs m = true)
    (hm : mayAccess m (0x40007FF8 + w * 0x10000) true = true) (hd : s.answers (regDomain (0x40007FF8 + w * 0x10000)) = true) :
    Answers (.windowLockSet m w) s (fun t => t.flag (lockOf (0x40007FF8 + w * 0x10000)) = true ∧
      t = { s with regs := t.regs } ∧ ∀ k : Nat, k ≠ 0x40007FF8 + w.val * 0x10000 → t.reg k = s.reg k) := by
  obtain ⟨r, hr, hf, hafter⟩ := after_regWrite_lock s m w
  have hwin := regionOf_window (x := 0x40007FF8 + w * 0x10000) (by omega) (by omega)
  have hserve : s.after (windowLockSet m w) = s.after (writeFields (0x40007FF8 + w * 0x10000) 1) := by
    unfold windowLockSet
    rw [after_registerWrite_served s m _ 1 _ hact hwin hm (by omega) hd]
    exact hafter
  refine answers_run (e := windowLockSet m w) rfl ?_
  rw [hserve]
  exact writeFields_lock s _ r (by omega) (by omega) hr hf

/-- CAL_USER_WRITE is a served register write of the field's register. -/
theorem exec_calUserWrite_served (s : State) (m : Fin 67) (p : Fin 3) (i : Fin 7) (z : Word) (hact : s.masterActs m = true)
    (hm : mayAccess m (calRegister p i) true = true) (hd : s.answers (regDomain (calRegister p i)) = true) :
    exec (.calUserWrite m p i z) s = .next (s.after (regWrite m (calRegister p i) z.toNat)) := by
  obtain ⟨-, h4, -, hlo, hhi⟩ := calRegister_place p i
  have := after_registerWrite_served s m (calRegister p i) z.toNat _ hact (regionOf_window hlo hhi) hm h4 hd
  rw [Nat.mod_eq_of_lt z.isLt] at this
  rw [← this]
  rfl

/-! ### The hypotheses are met -/

/-- PD_CORE, PD_MGT and the first port's domain ON, and a user page with its MAGIC. -/
def poweredState : State := State.reset.after (seq [setDomain 2 2, setDomain 3 2, setDomain 13 2, putMem 0x5000 4 0x55464331])

/-- In it the management core's accesses are served in window 0, fail in the stopped baseband, and IST's are refused. -/
theorem poweredState_meets : poweredState.on 2 = true ∧ poweredState.masterActs 64 = true ∧ poweredState.masterActs 66 = true ∧
    mayAccess 64 0x40007FFC true = true ∧ poweredState.answers (regDomain 0x40007FFC) = true ∧
    mayAccess 64 (calRegister 0 0) true = true ∧ poweredState.answers (regDomain (calRegister 0 0)) = true ∧
    poweredState.mem' 0x5000 4 = 0x55464331 ∧ mayAccess 66 (calRegister 0 0) true = false ∧
    poweredState.answers (regDomain BB.RX_CTL) = false ∧ poweredState.autoWake (regDomain BB.RX_CTL) = false := by
  decide +kernel

/-! ### The statement -/

/-- Settles O60: the checks of an access in the order the bus makes them, then what a served access does. -/
theorem registerAccess : Obligations.RegisterAccess := by
  unfold Obligations.RegisterAccess
  intro s m a v hon x inWindow acts d logged untouched u key
  have hx : x < 2 ^ 36 := a.isLt
  refine ⟨fun hidle => ⟨fun size => ?_, exec_rcFieldRead_idle s m a hidle⟩, fun hact hwin => ?_, ?_, ?_⟩
  · rw [exec_registerWrite, after_registerWrite_idle s m x size _ hidle]
  · obtain ⟨w, hw⟩ := hwin
    refine ⟨fun size hm => registerWrite_refused size v hon hact hw hm,
      fun size hm hs hu => registerWrite_unfit size v hact hw hm hs hu,
      fun hm h4 hd hwake => registerWrite_stopped v hon hact hw hm h4 hd hwake,
      fun hm h4 hd h1 h2 => ⟨fun hr => ?_, fun r hr hown => ?_⟩,
      fun h4 hd hn => ⟨fun hr => ?_, fun r hr hbase => ?_⟩⟩
    · rw [exec_registerWrite_served v hact hw hm h4 hd, after_regWrite_none s m x u h1 h2 hr]
    · exact ⟨_, registerWrite_stored v r hact hw hm h4 hd h1 h2 hr hown, stored_write_spec s m x u r hx h1 hr⟩
    · rw [exec_rcFieldRead_served s m a w hact hw h4 hd hn (fun r hr' => by rw [hr] at hr'; cases hr'),
        after_afterRead_none s _ x (keyOf_mod m x hx) hr]
    · exact ⟨_, exec_rcFieldRead_served s m a w hact hw h4 hd hn (fun r' hr' => by rw [hr] at hr'; cases hr'; exact hbase),
        stored_read_spec s m x r hx hr⟩
  · intro w lock hact hm hd
    exact windowLockSet_spec s m w hact hm hd
  · intro p i z r trim user at_ hact hm hd hmagic
    refine ⟨_, exec_calUserWrite_served s m p i z hact hm hd, ?_⟩
    by_cases htrim : trim
    · obtain rfl : i = 6 := Fin.ext htrim
      have hafter : s.after (regWrite m r z.toNat) = s.after (trimUserWrite z.toNat) := after_regWrite_trim s m z.toNat
      obtain ⟨hmem, honly, huser, heff⟩ := trimUserWrite_spec s z.toNat hmagic
      rw [hafter]
      exact ⟨hmem, honly, fun h => absurd htrim h, fun _ => ⟨huser, heff⟩⟩
    · have hlt : i.val < 6 := by omega
      have hafter : s.after (regWrite m r z.toNat) = s.after (calUserWrite p i z.toNat) :=
        after_regWrite_calRegister s m z.toNat p ⟨i, hlt⟩
      obtain ⟨hmem, honly, hreg⟩ := calUserWrite_spec s p ⟨i, hlt⟩ z.toNat hmagic
      rw [hafter, show at_ = 0x5010 + 16 * p.val + 2 * i from if_neg htrim,
        show user = signed 9 (bits z.toNat 8 0) from if_neg htrim]
      exact ⟨hmem, honly, fun _ => hreg, fun h => absurd h htrim⟩

end Sys2Proof.Machine
end

section
/-!
PROOFS: what the core families share: a core written twice, the word a running core issues, and a write it posts.
-/
namespace Sys2Proof.Machine

open Sys2Proof

/-! ### A core written twice -/

theorem insertKey_insertKey {α : Type} (m : List (Nat × α)) (k : Nat) (u v : α) :
    insertKey (insertKey m k u) k v = insertKey m k v := by
  induction m with
  | nil => simp [insertKey]
  | cons e m ih =>
    obtain ⟨j, x⟩ := e
    rcases Nat.lt_trichotomy k j with h | h | h
    · simp [insertKey, h]
    · simp [insertKey, h]
    · simp [insertKey, show ¬k < j by omega, show k ≠ j by omega, ih]

theorem eraseKey_insertKey {α : Type} (m : List (Nat × α)) (k : Nat) (v : α) :
    eraseKey (insertKey m k v) k = eraseKey m k := by
  induction m with
  | nil => simp [insertKey, eraseKey]
  | cons e m ih =>
    obtain ⟨j, x⟩ := e
    unfold eraseKey at *
    rcases Nat.lt_trichotomy k j with h | h | h
    · simp [insertKey, h]
    · simp [insertKey, h]
    · simp only [insertKey, show ¬k < j by omega, show k ≠ j by omega, if_false, List.filter_cons, ih]

/-- Of two writes at one key the second counts. (A first write of the default would drop every entry at the key, which in
a list out of canonical form may be several.) -/
theorem putD_putD {α : Type} [DecidableEq α] (m : List (Nat × α)) (k : Nat) (u v d : α) (h : u ≠ d) :
    putD (putD m k u d) k v d = putD m k v d := by
  unfold putD
  rw [if_neg h, eraseKey_insertKey, insertKey_insertKey]

theorem withCore_withCore (s : State) (n : Nat) (c c' : Core) (h : c ≠ {}) :
    (s.withCore n c).withCore n c' = s.withCore n c' := by
  simp only [State.withCore, State.apply, putD_putD _ _ _ _ _ h]

theorem flag_withCore (s : State) (n : Nat) (c : Core) (f : Fld) : (s.withCore n c).flag f = s.flag f := rfl

theorem core_ne_reset {c : Core} (h : c.run = .running) : c ≠ {} := by
  rintro rfl
  cases h

/-! ### The word a running core issues -/

/-- A sign-extended operand field, as the statements write it. -/
theorem sext_eq (k v : Nat) (hk : 0 < k) : sext k v = (BitVec.ofNat k v).signExtend 32 := by
  have hp : 2 ^ k = 2 * 2 ^ (k - 1) := by rw [← Nat.pow_succ']; congr 1; omega
  unfold sext signed BitVec.signExtend
  simp only [BitVec.toInt_eq_toNat_cond, BitVec.toNat_ofNat]
  congr 1
  by_cases hm : v % 2 ^ k < 2 ^ (k - 1)
  · rw [if_pos hm, if_pos (by omega)]
  · rw [if_neg hm, if_neg (by omega)]

/-- `w` is an instruction word of opcode `op` whose operand bits read as those of `rest`. -/
structure WordOf (w op rest : Nat) : Prop where
  opcode : Machine.opcode w = op
  field : ∀ hi lo, lo ≤ hi → hi < 22 → bits w hi lo = bits rest hi lo

theorem wordOf_instrWord (b : Bool) (g op rest : Nat) (hop : op < 64) (hrest : rest < 2 ^ 22) :
    WordOf (instrWord b g op rest) op rest :=
  ⟨opcode_instrWord b g op rest hop hrest, fun _ _ hl hh => bits_instrWord b g op rest _ _ hh hl⟩

theorem decodeFault_eq_none {mgt inFault : Bool} {w : Nat} (hop : opcode w ∉ [0x0C, 0x0E, 0x1D])
    (hg : (pn w && pg w = 0) = false) (hf : fieldsOk w = true) : decodeFault mgt inFault w = none := by
  simp only [List.mem_cons, List.not_mem_nil, or_false, not_or] at hop
  obtain ⟨h1, h2, h3⟩ := hop
  simp only [decodeFault, h1, h2, h3, hg, hf]
  simp

section
variable {s : State} {n op rest : Nat}

theorem Runs.running (h : Runs s n op rest) : (s.core n).run = .running := h.2.1

theorem Runs.waitsNone (h : Runs s n op rest) : (s.core n).wait = .none := h.2.2.1

/-- A core about to run a word whose opcode has no privilege and no state of its own to check, issues it: a row's command
has the row's effect. -/
theorem Runs.issues (h : Runs s n op rest) (hop : op < 64) (hpriv : op ∉ [0x0C, 0x0E, 0x1D]) (hrest : rest < 2 ^ 22) :
    ∃ w, WordOf w op rest ∧ ∀ r e, rowOf w = r → fieldsOk w = true →
      run (issue n r e) s = .next (s.after (e w (s.core n))) := by
  obtain ⟨hd, hr, hw, b, g, hg, hguard, hf⟩ := h
  have hpn := pn_instrWord b g op rest hg hop hrest
  have hpg := pg_instrWord b g op rest hg hop hrest
  have hword := wordOf_instrWord b g op rest hop hrest
  refine ⟨_, hword, fun r e hrow hok => ?_⟩
  rw [run_eq, after_issue s n r e _ hd hr hw hf hrow]
  · refine decodeFault_eq_none (by rwa [hword.opcode]) ?_ hok
    rw [hpn, hpg]
    by_cases hz : g = 0
    · subst hz
      simpa [Core.pr] using hguard
    · simp [hz]
  · rw [Core.guard, hpn, hpg, hguard]

/-! ### Posted writes (R23) -/

theorem dpost_eq (c : Core) : c.dpost = c.posted.countP Posted.waits := List.countP_eq_length_filter.symm

/-- With fewer than four writes outstanding a running core posts another and goes on. -/
theorem after_post (p : Posted) (hrun : (s.core n).run = .running) (hwait : (s.core n).wait = .none) (hflow : Flows s n)
    (hroom : (s.core n).posted.countP Posted.waits < 4) :
    s.after (post n p) =
      s.withCore n { s.core n with posted := (s.core n).posted ++ [p], pc := (s.core n).pc + 4 } := by
  obtain ⟨hpc, hstep⟩ := hflow
  have hlt : (s.core n).dpost < 4 := by rwa [dpost_eq]
  simp only [post, after_ask, if_pos hlt, after_seq_cons, after_seq_nil, after_setCore]
  rw [after_retire _ n id (by simpa using hpc) (by rwa [flag_withCore]),
    withCore_withCore _ _ _ _ (core_ne_reset (by simpa using hrun))]
  simp [hwait]

end

end Sys2Proof.Machine
end

section
/-!
PROOFS: fabric reads and posted writes (O12).
-/
namespace Sys2Proof.Machine

open Sys2Proof

/-! ### Bytes in the on-chip SRAM -/

theorem leBytes_length (v k : Nat) : (leBytes v k).length = k := by
  induction k generalizing v with
  | zero => rfl
  | succ k ih => simp [leBytes, ih]

theorem leBytes_getD (v k j : Nat) (h : j < k) : (leBytes v k).getD j 0 = v / 2 ^ (8 * j) % 256 := by
  induction k generalizing v j with
  | zero => omega
  | succ k ih =>
    cases j with
    | zero => simp [leBytes]
    | succ j =>
      rw [leBytes, List.getD_cons_succ, ih _ _ (by omega), Nat.div_div_eq_div_mul, Nat.mul_succ, Nat.add_comm (8 * j),
        pow_add 2 8]
      rfl

theorem applyAll_mem (s : State) (l : List (Nat × Byte)) :
    s.applyAll (l.map fun e => .mem e.1 e.2) = { s with mem := (s.applyAll (l.map fun e => .mem e.1 e.2)).mem } := by
  induction l generalizing s with
  | nil => rfl
  | cons e l ih => exact ih (s.apply (.mem e.1 e.2))

/-- A write of bytes changes memory alone. -/
theorem after_putBytes (s : State) (a : Nat) (l : List Nat) :
    s.after (putBytes a l) = { s with mem := (s.after (putBytes a l)).mem } := by
  have h : putBytes a l s = ((enumFrom 0 l).map fun e => (a + e.1, BitVec.ofNat 8 e.2)).map fun e => .mem e.1 e.2 := by
    simp [putBytes]
  rw [State.after, h]
  exact applyAll_mem s _

theorem core_putBytes (s : State) (a : Nat) (l : List Nat) (m : Nat) : (s.after (putBytes a l)).core m = s.core m := by
  rw [after_putBytes]
  rfl

theorem readMem_flacon {s : State} {a : Nat} (k : Nat) (bad : Effect) (ok : List Nat → Effect) (h : regionOf a = .flacon) :
    s.after (readMem a k bad ok) = s.after (ok (s.bytes a k)) := by
  simp [readMem, h]

theorem writeMem_flacon {s : State} {a : Nat} (l : List Nat) (bad ok : Effect) (h : regionOf a = .flacon) :
    s.after (writeMem a l bad ok) = (s.after (putBytes a l)).after ok := by
  simp [writeMem, h]

/-- While PD_CORE is ON an access that lies in the on-chip SRAM is served, whoever its master. -/
theorem busAccess_flacon {s : State} {m a k : Nat} (write : Bool) (bad stall serve : Effect) (hon : s.on 2 = true)
    (h : regionOf a = .flacon) (hend : regionOf (a + (k - 1)) = .flacon) :
    s.after (busAccess m a k write bad stall serve) = s.after serve := by
  have hrefused : s.busRefused m a k write = false := by simp [State.busRefused, mayAccess, sameRegion, h, hend]
  have hunfit : s.busUnfit a k write = false := by simp [State.busUnfit, h]
  have hanswers : s.answers (busDomain a) = true := by simp [State.answers, busDomain, h, hon]
  unfold busAccess
  rw [after_ask]
  simp [hrefused, hunfit, hanswers]

/-- A read of the on-chip SRAM goes on with the number its bytes hold. -/
theorem busRead_flacon {s : State} {m a k : Nat} (kind : Nat) (bad : Effect) (ok : Nat → Effect) (hon : s.on 2 = true)
    (h : regionOf a = .flacon) (hend : regionOf (a + (k - 1)) = .flacon) :
    s.after (busRead kind m a k bad ok) = s.after (ok (s.mem' a k)) := by
  rw [busRead, busAccess_flacon _ _ _ _ hon h hend]
  simp [busServeRead, h, readMem_flacon, State.mem']

/-- A write to the on-chip SRAM puts the value's bytes and goes on. -/
theorem busWrite_flacon {s : State} {m a k : Nat} (kind v : Nat) (bad ok : Effect) (hon : s.on 2 = true)
    (h : regionOf a = .flacon) (hend : regionOf (a + (k - 1)) = .flacon) :
    s.after (busWrite kind m a k v bad ok) = (s.after (putMem a k v)).after ok := by
  rw [busWrite, busAccess_flacon _ _ _ _ hon h hend]
  simp [busServeWrite, h, writeMem_flacon, putMem]

/-! ### LDF and STF at issue (R53, R54) -/

section
variable {s : State} {n : Fin 65} {rd rs k imm : Nat}

/-- The F address of an LDF or STF with source register `rs` and offset `imm`. -/
def fabricAddr (c : Core) (rs imm : Nat) : Nat :=
  c.xseg % 16 * 2 ^ 32 + (c.gr rs + (BitVec.ofNat 12 imm).signExtend 32).toNat

/-- The fields of an LDF or STF, whose width is 2^`k` bytes. -/
structure FabricWord (v op rd rs k imm : Nat) : Prop where
  opcode : Machine.opcode v = op
  rd : fRd v = rd
  width : bits v 13 12 = k
  addr : ∀ c, fAddr v c = fabricAddr c rs imm

theorem fabricWord_of_wordOf {v op : Nat} (h : WordOf v op (rd * 2 ^ 18 + rs * 2 ^ 14 + k * 2 ^ 12 + imm)) (hrd : rd < 16)
    (hrs : rs < 16) (hk : k < 3) (himm : imm < 2 ^ 12) : FabricWord v op rd rs k imm := by
  obtain ⟨hop, hfield⟩ := h
  have hrs' : fRs v = rs := by rw [fRs, hfield 17 14 (by omega) (by omega), bits]; omega
  have himm' : bits v 11 0 = imm := by rw [hfield 11 0 (by omega) (by omega), bits]; omega
  refine ⟨hop, ?_, ?_, fun c => ?_⟩
  · rw [fRd, hfield 21 18 (by omega) (by omega), bits]; omega
  · rw [hfield 13 12 (by omega) (by omega), bits]; omega
  · rw [fAddr, hrs', himm', sext_eq 12 imm (by omega), fabricAddr]

/-- LDF stalls its core at the read. -/
theorem exec_ldf (hrd : rd < 16) (hrs : rs < 16) (hk : k < 3) (himm : imm < 2 ^ 12)
    (halign : fabricAddr (s.core n) rs imm % 2 ^ k = 0)
    (h : Runs s n 0x1A (rd * 2 ^ 18 + rs * 2 ^ 14 + k * 2 ^ 12 + imm)) :
    exec (.ldf n) s = .next (s.withCore n { s.core n with
      wait := .ldf rd (fabricAddr (s.core n) rs imm) (2 ^ k), since := s.acc.ltb }) := by
  obtain ⟨v, hv, hissue⟩ := h.issues (by norm_num) (by decide) (by omega)
  obtain ⟨hop, hrd', hwidth, haddr⟩ := fabricWord_of_wordOf hv hrd hrs hk himm
  refine (hissue .ldf _ (by simp [rowOf, hop]) (by simp [fieldsOk, hop, hwidth]; omega)).trans ?_
  simp only [haddr, hwidth, hrd', halign]
  rfl

/-- STF posts the low bytes of its register. -/
theorem stf_posts (hrd : rd < 16) (hrs : rs < 16) (hk : k < 3) (himm : imm < 2 ^ 12)
    (halign : fabricAddr (s.core n) rs imm % 2 ^ k = 0) (hroom : (s.core n).posted.countP Posted.waits < 4) :
    RunsTo (.stf n) s n 0x1B (rd * 2 ^ 18 + rs * 2 ^ 14 + k * 2 ^ 12 + imm) (fun c => { c with posted := c.posted ++
      [.store (fabricAddr (s.core n) rs imm) (2 ^ k) (((s.core n).gr rd).toNat % 2 ^ (8 * 2 ^ k))] }) := by
  intro h hflow
  obtain ⟨v, hv, hissue⟩ := h.issues (by norm_num) (by decide) (by omega)
  obtain ⟨hop, hrd', hwidth, haddr⟩ := fabricWord_of_wordOf hv hrd hrs hk himm
  refine (hissue .stf _ (by simp [rowOf, hop]) (by simp [fieldsOk, hop, hwidth]; omega)).trans ?_
  simp only [haddr, hwidth, hrd', halign]
  exact congrArg _ (after_post _ h.running h.waitsNone hflow hroom)

end

/-! ### LDF's return, FENCE, and the end of a posted write (R22-R25, R54, R55) -/

section
variable {s : State} {n : Fin 65}

/-- With its earlier writes complete, a waiting LDF takes the value its bytes hold. -/
theorem exec_ldfReturn {rd b k : Nat} (hwait : (s.core n).wait = .ldf rd b k) (hpost : (s.core n).dpost = 0)
    (hstall : s.plt.stalled = []) (hon : s.on 2 = true) (hflow : Flows s n) (h : regionOf b = .flacon)
    (hend : regionOf (b + (k - 1)) = .flacon) :
    exec (.ldfReturn n) s = .next (s.withCore n
      { (s.core n).setG rd (BitVec.ofNat 32 (s.mem' b k)) with wait := .none, pc := (s.core n).pc + 4 }) := by
  have hserve : s.after (ldfReturn n) = s.after (retire n (fun c => c.setG rd (BitVec.ofNat 32 (s.mem' b k)))) := by
    simp [ldfReturn, hwait, hpost, State.stalledAt, hstall, busRead_flacon _ _ _ hon h hend]
  exact congrArg _ (hserve.trans (after_retire s n _ hflow.1 hflow.2))

/-- With nothing outstanding FENCE goes on at once. -/
theorem fence_runs (hpost : (s.core n).posted = []) : RunsTo (.fence n) s n 0x26 0 (fun c => { c with stale := [] }) := by
  intro h hflow
  obtain ⟨v, ⟨hop, hfield⟩, hissue⟩ := h.issues (by norm_num) (by decide) (by norm_num)
  have hzero : bits v 21 0 = 0 := hfield 21 0 (by omega) (by omega)
  refine (hissue .fence _ (by simp [rowOf, hop]) (by simp [fieldsOk, hop, hzero])).trans ?_
  rw [hpost, List.isEmpty_nil, if_pos rfl, after_retire s n _ hflow.1 hflow.2]
  simp [h.waitsNone]

/-- With nothing outstanding any more a fencing core goes on. -/
theorem exec_fenceComplete (hpost : (s.core n).posted = []) (hwait : (s.core n).wait = .fence) (hflow : Flows s n) :
    exec (.fenceComplete n) s =
      .next (s.withCore n { s.core n with wait := .none, stale := [], pc := (s.core n).pc + 4 }) := by
  have h := after_retire s n (fun c => { c with stale := [] }) hflow.1 hflow.2
  refine Eq.trans ?_ (congrArg _ h)
  show run _ s = _
  simp [run_eq, hwait, hpost]

/-- A bus error that comes back sets STATUS.BE; no fault is taken. -/
theorem exec_stfBusError {l : List Posted} (h : (s.core n).posted = .busError :: l) :
    exec (.stfBusError n) s = .next (s.withCore n { s.core n with posted := l, be := true }) := by
  have hfirst : (s.core n).firstPosted Posted.isBusError = some (0, .busError) := by
    simp [Core.firstPosted, h, enumFrom, Posted.isBusError]
  show run (stfBusError n) s = _
  simp [run_eq, stfBusError, hfirst, after_setCore, h]

/-- A posted write that completes leaves the queue; a core that waits for nothing is given nothing more. -/
theorem after_endPosted_zero {p : Posted} {l : List Posted} (h : (s.core n).posted = p :: l)
    (hwait : (s.core n).wait = .none) : s.after (endPosted n 0 none) = s.withCore n { s.core n with posted := l } := by
  simp [endPosted, after_setCore, h, postedRoom, hwait]

/-- The oldest posted write of a core reaches the on-chip SRAM. -/
theorem after_postedComplete_store {b k v : Nat} {l : List Posted} (hpost : (s.core n).posted = .store b k v :: l)
    (hwait : (s.core n).wait = .none) (hstall : s.plt.stalled = []) (hon : s.on 2 = true) (h : regionOf b = .flacon)
    (hend : regionOf (b + (k - 1)) = .flacon) :
    s.after (postedComplete n 0) = (s.after (putMem b k v)).withCore n { s.core n with posted := l } := by
  have hfirst : (s.core n).waiting[0]? = some (0, .store b k v) := by
    simp [Core.waiting, hpost, enumFrom, Posted.waits]
  have hcore : (s.after (putMem b k v)).core n = s.core n := core_putBytes s b _ n
  have hserve : s.after (postedComplete n 0) = (s.after (putMem b k v)).after (endPosted n 0 none) := by
    simp [postedComplete, hfirst, State.stalledAt, hstall, busWrite_flacon _ _ _ _ hon h hend]
  rw [hserve, after_endPosted_zero (by rw [hcore]; exact hpost) (by rw [hcore]; exact hwait), hcore]

/-- It changes those bytes and its core's queue, and nothing else. -/
theorem postedWrite_completes {b k v : Nat} {l : List Posted} (hpost : (s.core n).posted = .store b k v :: l)
    (hwait : (s.core n).wait = .none) (hstall : s.plt.stalled = []) (hon : s.on 2 = true) (h : regionOf b = .flacon)
    (hend : regionOf (b + (k - 1)) = .flacon) :
    Answers (.postedWriteComplete n 0) s (fun t => t = { s with mem := t.mem, cores := t.cores } ∧ MemOnly b k s t ∧
      (∀ j < k, t.byte (b + j) = v / 2 ^ (8 * j) % 256) ∧ t.core n = { s.core n with posted := l } ∧
      ∀ m, m ≠ n.val → t.core m = s.core m) := by
  refine answers_run (e := postedComplete n 0) rfl ?_
  rw [after_postedComplete_store hpost hwait hstall hon h hend]
  refine ⟨?_, fun x hx => ?_, fun j hj => ?_, core_withCore_self .., fun m hm => ?_⟩
  · rw [putMem, after_putBytes]
    rfl
  · exact byte_putBytes_ne s b _ x (by rwa [leBytes_length])
  · have hput := byte_putBytes s b (leBytes v k) j (by rwa [leBytes_length])
    rw [leBytes_getD v k j hj, Nat.mod_mod] at hput
    exact hput
  · rw [core_withCore_ne _ _ _ _ hm]
    exact core_putBytes s b _ m

end

/-! ### The hypotheses are met -/

/-- PD_CORE and the domains of the management core and of the first cluster ON. -/
def poweredCluster : State := State.reset.after (seq [setDomain 2 2, setDomain 3 2, setDomain 4 2])

/-- There, core 7 as `c` says, and a word at the start of its I space. -/
def issuingState (c : Core) (word : Nat) : State := (poweredCluster.withCore 7 c).after (putMem (iBase 7) 4 word)

theorem core_issuingState (c : Core) (word : Nat) : (issuingState c word).core 7 = c := by
  rw [issuingState, putMem, core_putBytes, core_withCore_self]

theorem word_issuingState (c : Core) (word : Nat) (h : word < 2 ^ 32) : (issuingState c word).word (iBase 7) = word := by
  have hbyte : ∀ j < 4, (issuingState c word).byte (iBase 7 + j) = word / 2 ^ (8 * j) % 256 := by
    intro j hj
    have hput := byte_putBytes (poweredCluster.withCore 7 c) (iBase 7) (leBytes word 4) j (by rwa [leBytes_length])
    rwa [leBytes_getD word 4 j hj, Nat.mod_mod] at hput
  have hbytes : (issuingState c word).bytes (iBase 7) 4 = (List.range 4).map (fun j => word / 2 ^ (8 * j) % 256) :=
    List.map_congr_left fun j hj => hbyte j (List.mem_range.1 hj)
  rw [State.word, State.mem', hbytes]
  simp [List.range_succ, ofLe]
  omega

theorem issuingState_frame (c : Core) (word : Nat) :
    issuingState c word = { poweredCluster with mem := (issuingState c word).mem, cores := (issuingState c word).cores } := by
  rw [issuingState, putMem, after_putBytes]
  rfl

theorem on_issuingState (c : Core) (word d : Nat) : (issuingState c word).on d = poweredCluster.on d := by
  rw [issuingState_frame]
  rfl

theorem poweredCluster_on : poweredCluster.on 2 = true ∧ poweredCluster.on (coreDomain 7) = true ∧
    poweredCluster.flag (SEQ.CORE_EXP_STEP 7) = false := by
  decide +kernel

/-- A core at the start of its I space is about to run the word that lies there, and goes on after it. -/
theorem issuingState_runs (c : Core) (op rest : Nat) (hrun : c.run = .running) (hwait : c.wait = .none) (hpc : c.pc = 0)
    (hstale : c.stale = []) (hop : op < 64) (hrest : rest < 2 ^ 22) :
    Runs (issuingState c (instrWord false 0 op rest)) 7 op rest := by
  have hcore := core_issuingState c (instrWord false 0 op rest)
  have hword := word_issuingState c (instrWord false 0 op rest) (by simp only [instrWord, b2n]; norm_num; omega)
  obtain ⟨-, hon, -⟩ := poweredCluster_on
  refine ⟨by rw [on_issuingState, hon], by rw [hcore, hrun], by rw [hcore, hwait], false, 0, by norm_num,
    by simp [Core.pr], ?_⟩
  simp only [State.fetch, hcore, hstale, hpc, find, Nat.add_zero, hword]

theorem issuingState_flows (c : Core) (word : Nat) (hpc : c.pc = 0) : Flows (issuingState c word) 7 := by
  obtain ⟨-, -, hstep⟩ := poweredCluster_on
  refine ⟨by rw [core_issuingState, hpc]; decide, .inr ?_⟩
  rw [issuingState_frame]
  exact hstep

theorem issuingState_serves (c : Core) (word : Nat) :
    (issuingState c word).on 2 = true ∧ (issuingState c word).plt.stalled = [] := by
  refine ⟨by rw [on_issuingState, poweredCluster_on.1], ?_⟩
  rw [issuingState_frame]
  rfl

/-- A core with three writes outstanding; its g3 is the address of the last word of the on-chip SRAM. -/
def fabricCore : Core :=
  { run := .running, g := [(3, 0x103FFFFC#32)], posted := List.replicate 3 (.store 0x10000000 4 7) }

theorem fabricCore_meets : fabricAddr fabricCore 3 0 = 0x103FFFFC ∧ fabricAddr fabricCore 3 0 % 2 ^ 2 = 0 ∧
    fabricCore.posted.countP Posted.waits < 4 ∧ regionOf 0x103FFFFC = .flacon ∧ regionOf (0x103FFFFC + (4 - 1)) = .flacon ∧
    regionOf 0x10000000 = .flacon ∧ regionOf (0x10000000 + (2 ^ 2 - 1)) = .flacon := by
  decide

/-- Its STF to that word is posted as the fourth write. -/
theorem fabricCore_posts : let s := issuingState fabricCore (instrWord false 0 0x1B (3 * 2 ^ 14 + 2 * 2 ^ 12))
    exec (.stf 7) s = .next (s.withCore 7 { s.core 7 with
      posted := (s.core 7).posted ++ [.store (fabricAddr (s.core 7) 3 0) (2 ^ 2) (((s.core 7).gr 0).toNat % 2 ^ (8 * 2 ^ 2))]
      pc := (s.core 7).pc + 4 }) := by
  intro s
  obtain ⟨-, halign, hroom, -⟩ := fabricCore_meets
  have hcore : s.core 7 = fabricCore := core_issuingState ..
  rw [← hcore] at halign hroom
  exact stf_posts (n := 7) (by norm_num) (by norm_num) (by norm_num) (by norm_num) halign hroom
    (issuingState_runs fabricCore 0x1B _ rfl rfl rfl rfl (by norm_num) (by norm_num)) (issuingState_flows fabricCore _ rfl)

/-- Once its writes are over, its LDF of that word returns. -/
theorem fabricCore_loads :
    let s := issuingState { fabricCore with wait := .ldf 5 0x103FFFFC 4, posted := [] } 0
    exec (.ldfReturn 7) s = .next (s.withCore 7
      { (s.core 7).setG 5 (BitVec.ofNat 32 (s.mem' 0x103FFFFC 4)) with wait := .none, pc := (s.core 7).pc + 4 }) := by
  intro s
  obtain ⟨-, -, -, hfirst, hlast, -⟩ := fabricCore_meets
  obtain ⟨hon, hstall⟩ : s.on 2 = true ∧ s.plt.stalled = [] := issuingState_serves ..
  have hcore : s.core 7 = { fabricCore with wait := .ldf 5 0x103FFFFC 4, posted := [] } := core_issuingState ..
  exact exec_ldfReturn (n := 7) (congrArg Core.wait hcore) (congrArg Core.dpost hcore) hstall hon
    (issuingState_flows _ _ rfl) hfirst hlast

/-- The first of its writes completes. -/
theorem fabricCore_completes : let s := issuingState fabricCore 0
    Answers (.postedWriteComplete 7 0) s (fun t =>
      t.core 7 = { s.core 7 with posted := List.replicate 2 (.store 0x10000000 4 7) }) := by
  intro s
  obtain ⟨-, -, -, -, -, hfirst, hlast⟩ := fabricCore_meets
  obtain ⟨hon, hstall⟩ : s.on 2 = true ∧ s.plt.stalled = [] := issuingState_serves ..
  have hcore : s.core 7 = fabricCore := core_issuingState ..
  obtain ⟨t, ht, -, -, -, hleft, -⟩ := postedWrite_completes (n := 7) (congrArg Core.posted hcore) (congrArg Core.wait hcore)
    hstall hon hfirst hlast
  exact ⟨t, ht, hleft⟩

/-! ### The statement -/

/-- Settles O12: each clause is what the command's effect leaves, the accesses being served in the on-chip SRAM. -/
theorem fabricResults : Obligations.FabricResults := by
  unfold Obligations.FabricResults
  intro n s rd rs w imm hrd hrs hw himm c a rest
  refine ⟨fun halign => ⟨exec_ldf hrd hrs hw himm halign, stf_posts hrd hrs hw himm halign⟩, ?_, fence_runs,
    exec_fenceComplete, fun l => exec_stfBusError, ?_⟩
  · intro b k hwait hpost hstall hon hflow h hend
    exact exec_ldfReturn hwait hpost hstall hon hflow h hend
  · intro b v l hpost hwait hstall hon h hend
    exact postedWrite_completes hpost hwait hstall hon h hend

end Sys2Proof.Machine
end

section
/-!
PROOFS: device operations at issue (O16).
-/
namespace Sys2Proof.Machine

open Sys2Proof

/-! ### Device words and the checks at issue (R95, R97, R103) -/

/-- The operand bits of a device word (the DEV format of Table 03.1). -/
def devRest (d rs r t sub : Nat) : Nat := d * 2 ^ 18 + rs * 2 ^ 14 + r * 2 ^ 10 + t * 2 ^ 8 + sub * 2 ^ 4

/-- The fields of a device word. -/
structure DevWord (w op sub d rs r t : Nat) : Prop where
  opcode : Machine.opcode w = op
  sub : fSub w = sub
  rd : fRd w = d
  rs : fRs w = rs
  rt : fRt w = r
  ta : fTa w = t
  low : bits w 3 0 = 0

theorem devRest_lt {d rs r t sub : Nat} (hd : d < 16) (hrs : rs < 16) (hr : r < 16) (ht : t < 4) (hsub : sub < 16) :
    devRest d rs r t sub < 2 ^ 22 := by
  unfold devRest
  omega

theorem devWord_of_wordOf {w op sub d rs r t : Nat} (h : WordOf w op (devRest d rs r t sub)) (hd : d < 16) (hrs : rs < 16)
    (hr : r < 16) (ht : t < 4) (hsub : sub < 16) : DevWord w op sub d rs r t := by
  obtain ⟨hop, hfield⟩ := h
  unfold devRest at hfield
  constructor
  case opcode => exact hop
  case sub => rw [fSub, hfield 7 4 (by omega) (by omega), bits]; omega
  case rd => rw [fRd, hfield 21 18 (by omega) (by omega), bits]; omega
  case rs => rw [fRs, hfield 17 14 (by omega) (by omega), bits]; omega
  case rt => rw [fRt, hfield 13 10 (by omega) (by omega), bits]; omega
  case ta => rw [fTa, hfield 9 8 (by omega) (by omega), bits]; omega
  case low => rw [hfield 3 0 (by omega) (by omega), bits]; omega

/-- The L block at the address in register `r` is aligned and in range. -/
def BlockOk (s : State) (n : Fin 65) (r : Nat) : Prop :=
  ((s.core n).gr r).toNat % 16 = 0 ∧ ((s.core n).gr r).toNat + 16 ≤ lSize n

/-- That L block. -/
def blockOf (s : State) (n : Fin 65) (r : Nat) : List Word :=
  (List.range 4).map (fun i => BitVec.ofNat 32 (s.word (lBase n + ((s.core n).gr r).toNat + 4 * i)))

theorem after_lBlock {s : State} {n : Fin 65} {r : Nat} (k : List Word → Effect) (h : BlockOk s n r) :
    s.after (lBlock n ((s.core n).gr r).toNat k) = s.after (k (blockOf s n r)) := by
  obtain ⟨halign, hrange⟩ := h
  simp only [lBlock, after_ask, if_neg (not_not.2 halign), if_neg (Nat.not_lt.2 hrange)]
  rfl

theorem nidxOk_of_le {a : Word} (h : a.toNat ≤ 131071) : nidxOk a = true := decide_eq_true h

theorem ringOk_of_le {a : Word} (h : a.toNat ≤ 63) : ringOk a = true := decide_eq_true h

theorem inRange_of_ok {n op : Nat} {ok : Bool} (e : Effect) (h : ok = true) : inRange n op ok e = e := if_pos h

/-! ### What a request and a posted operation do at issue (R24, R96) -/

section
variable {n : Fin 65} {s : State}

/-- Behind an earlier write a request has not reached its target. -/
theorem after_serveQuery_behind {q : QReq} (hwait : (s.core n).wait = .query q none) (hpost : (s.core n).dpost ≠ 0) :
    s.after (serveQuery n) = s := by
  simp [serveQuery, hwait, hpost]

theorem after_request_behind (q : QReq) (hpost : (s.core n).dpost ≠ 0) :
    s.after (request n q) = s.withCore n { s.core n with wait := .query q none, since := s.acc.ltb } := by
  rw [request, after_seq_cons, after_seq_cons, after_seq_nil, after_ask, after_setCore]
  apply after_serveQuery_behind (q := q)
  · rw [core_withCore_self]
  · rw [core_withCore_self]
    exact hpost

/-- At a device word of these operands command `i` posts the operation with block `l`, goes on, and changes nothing else. -/
def Posts (i : Instr) (s : State) (n : Fin 65) (op sub rs r t : Nat) (l : List Word) : Prop :=
  RunsTo i s n op (rs * 2 ^ 14 + r * 2 ^ 10 + t * 2 ^ 8 + sub * 2 ^ 4) (fun c =>
    { c with posted := c.posted ++ [.op op sub ((s.core n).gr rs) ((s.core n).gr r) l ((s.core n).tr t)] })

/-- At a device word of these operands command `i` stalls its core with the request of blocks `l` and `out`, and changes
nothing else. -/
def Stalls (i : Instr) (s : State) (n : Fin 65) (op sub d rs r t : Nat) (l : List Word) (out : Nat) : Prop :=
  Runs s n op (d * 2 ^ 18 + rs * 2 ^ 14 + r * 2 ^ 10 + t * 2 ^ 8 + sub * 2 ^ 4) →
    exec i s = .next (s.withCore n { s.core n with
      wait := .query ⟨op, sub, d, (s.core n).gr rs, (s.core n).gr r, l, out, (s.core n).tr t⟩ none, since := s.acc.ltb })

/-- A P-class command, its checks passed, posts the operation its word names. -/
theorem posts_of_issue {i : Instr} {row : Row} {e : Nat → Core → Effect} {op sub rs r t : Nat} {l : List Word}
    (hi : exec i s = run (issue n row e) s) (hroom : (s.core n).posted.countP Posted.waits < 4) (hrs : rs < 16)
    (hr : r < 16) (ht : t < 4)
    (he : ∀ w, DevWord w op sub 0 rs r t → s.after (e w (s.core n)) = s.after (post n (postOf w (s.core n) l)))
    (hop : 0x32 ≤ op ∧ op < 0x3F := by omega) (hsub : sub < 16 := by omega)
    (hrow : ∀ w, DevWord w op sub 0 rs r t → rowOf w = row ∧ fieldsOk w = true := by
      intro w hw
      simp [rowOf, fieldsOk, hw.opcode, hw.sub, hw.rd, hw.rt, hw.ta, hw.low]) :
    Posts i s n op sub rs r t l := by
  intro h hflow
  have hrest : rs * 2 ^ 14 + r * 2 ^ 10 + t * 2 ^ 8 + sub * 2 ^ 4 = devRest 0 rs r t sub := by simp [devRest]
  rw [hrest] at h
  obtain ⟨w, hw, hissue⟩ := h.issues (by omega) (by simp; omega) (devRest_lt (by norm_num) hrs hr ht hsub)
  have hdev := devWord_of_wordOf hw (by norm_num) hrs hr ht hsub
  obtain ⟨hrow', hok⟩ := hrow w hdev
  rw [hi, hissue row e hrow' hok, he w hdev, after_post _ h.running h.waitsNone hflow hroom]
  simp only [postOf, hdev.opcode, hdev.sub, hdev.rs, hdev.rt, hdev.ta]

/-- A Q-class command, its checks passed, stalls its core with the request its word names. -/
theorem stalls_of_issue {i : Instr} {row : Row} {e : Nat → Core → Effect} {op sub d rs r t : Nat} {l : List Word} {out : Nat}
    (hi : exec i s = run (issue n row e) s) (hpost : (s.core n).dpost ≠ 0) (hd : d < 16) (hrs : rs < 16) (hr : r < 16)
    (ht : t < 4)
    (he : ∀ w, DevWord w op sub d rs r t → s.after (e w (s.core n)) = s.after (request n (reqOf w (s.core n) l out)))
    (hop : 0x32 ≤ op ∧ op < 0x3F := by omega) (hsub : sub < 16 := by omega)
    (hrow : ∀ w, DevWord w op sub d rs r t → rowOf w = row ∧ fieldsOk w = true := by
      intro w hw
      simp [rowOf, fieldsOk, hw.opcode, hw.sub, hw.rd, hw.rt, hw.ta, hw.low]) :
    Stalls i s n op sub d rs r t l out := by
  intro h
  obtain ⟨w, hw, hissue⟩ := h.issues (by omega) (by simp; omega) (devRest_lt hd hrs hr ht hsub)
  have hdev := devWord_of_wordOf hw hd hrs hr ht hsub
  obtain ⟨hrow', hok⟩ := hrow w hdev
  rw [hi, hissue row e hrow' hok, he w hdev, after_request_behind _ hpost]
  simp only [reqOf, hdev.opcode, hdev.sub, hdev.rd, hdev.rs, hdev.rt, hdev.ta]

end

/-! ### The P-class operations (Table 03.2) -/

section
variable {n : Fin 65} {s : State} {rs rt ta : Nat} (hroom : (s.core n).posted.countP Posted.waits < 4) (hrs : rs < 16)
include hroom hrs

theorem push_posts (hrt : rt < 16) (hring : ((s.core n).gr rs).toNat ≤ 63) (hblk : BlockOk s n rt) :
    Posts (.push n) s n 0x33 0 rs rt 0 (blockOf s n rt) :=
  posts_of_issue rfl hroom hrs hrt (by omega) fun w hw => by
    rw [hw.rs, hw.rt, hw.sub, inRange_of_ok _ (ringOk_of_le hring), after_lBlock _ hblk]
    rfl

theorem learn_posts (hblk : BlockOk s n rs) (hok : s.learnOk (blockOf s n rs) = true) :
    Posts (.learn n) s n 0x36 0 rs 0 0 (blockOf s n rs) :=
  posts_of_issue rfl hroom hrs (by omega) (by omega) fun w hw => by
    rw [hw.rs, after_lBlock _ hblk, after_ask, inRange_of_ok _ hok]

theorem seal_posts (hblk : BlockOk s n rs) (hok : jobOk (blockOf s n rs) = true) :
    Posts (.seal n) s n 0x38 0 rs 0 0 (blockOf s n rs) :=
  posts_of_issue rfl hroom hrs (by omega) (by omega) fun w hw => by
    rw [hw.rs, after_lBlock _ hblk, inRange_of_ok _ hok]

theorem openJob_posts (hblk : BlockOk s n rs) (hok : jobOk (blockOf s n rs) = true) :
    Posts (.openJob n) s n 0x39 0 rs 0 0 (blockOf s n rs) :=
  posts_of_issue rfl hroom hrs (by omega) (by omega) fun w hw => by
    rw [hw.rs, after_lBlock _ hblk, inRange_of_ok _ hok]

theorem bufFree_posts : Posts (.bufFree n) s n 0x3E 1 rs 0 0 [] :=
  posts_of_issue rfl hroom hrs (by omega) (by omega) fun _ _ => rfl

section
variable (hnode : ((s.core n).gr rs).toNat ≤ 131071)
include hnode

theorem calupdAdd_posts (hrt : rt < 16) (hta : ta < 4) (hb : (s.core n).gr rt ≠ 0) :
    Posts (.calupdAdd n) s n 0x3C 0 rs rt ta [] :=
  posts_of_issue rfl hroom hrs hrt hta fun w hw => by
    rw [hw.rs, hw.rt, inRange_of_ok _ (by simpa [nidxOk_of_le hnode] using hb)]

theorem calupdInterval_posts (hrt : rt < 16) (hb : (s.core n).gr rt ≠ 0) :
    Posts (.calupdInterval n) s n 0x3C 3 rs rt 0 [] :=
  posts_of_issue rfl hroom hrs hrt (by omega) fun w hw => by
    rw [hw.rs, hw.rt, inRange_of_ok _ (by simpa [nidxOk_of_le hnode] using hb)]

theorem calupdRemove_posts : Posts (.calupdRemove n) s n 0x3C 1 rs 0 0 [] :=
  posts_of_issue rfl hroom hrs (by omega) (by omega) fun w hw => by
    rw [hw.rs, inRange_of_ok _ (nidxOk_of_le hnode)]

theorem calupdMove_posts (hta : ta < 4) : Posts (.calupdMove n) s n 0x3C 2 rs 0 ta [] :=
  posts_of_issue rfl hroom hrs (by omega) hta fun w hw => by
    rw [hw.rs, inRange_of_ok _ (nidxOk_of_le hnode)]

theorem macreqDlqueue_posts (hrt : rt < 16) (hblk : BlockOk s n rt) (htype : (descOf (blockOf s n rt)).type = 6) :
    Posts (.macreqDlqueue n) s n 0x3D 2 rs rt 0 (blockOf s n rt) :=
  posts_of_issue rfl hroom hrs hrt (by omega) fun w hw => by
    rw [hw.rs, hw.rt, inRange_of_ok _ (nidxOk_of_le hnode), after_lBlock _ hblk, inRange_of_ok _ (decide_eq_true htype)]

theorem macreqSearch_posts : Posts (.macreqSearch n) s n 0x3D 3 rs 0 0 [] :=
  posts_of_issue rfl hroom hrs (by omega) (by omega) fun w hw => by
    rw [hw.rs, inRange_of_ok _ (nidxOk_of_le hnode)]

end
end

/-! ### The Q-class operations (Table 03.2) -/

section
variable {n : Fin 65} {s : State} {rd rs rt ta : Nat} (hpost : (s.core n).dpost ≠ 0) (hrs : rs < 16)
include hpost hrs

theorem pushWait_stalls (hrt : rt < 16) (hring : ((s.core n).gr rs).toNat ≤ 63) (hblk : BlockOk s n rt) :
    Stalls (.push n) s n 0x33 1 0 rs rt 0 (blockOf s n rt) 0 :=
  stalls_of_issue rfl hpost (by omega) hrs hrt (by omega) fun w hw => by
    rw [hw.rs, hw.rt, hw.sub, inRange_of_ok _ (ringOk_of_le hring), after_lBlock _ hblk]
    rfl

section
variable (hrd : rd < 16)
include hrd

theorem trigArm_stalls (hta : ta < 4) (hok : actionOk ((s.core n).gr rs) = true) :
    Stalls (.trigArm n) s n 0x32 0 rd rs 0 ta [] 0 :=
  stalls_of_issue rfl hpost hrd hrs (by omega) hta fun w hw => by
    rw [hw.rs, if_pos hok]

theorem trigCancel_stalls (hcomp : ((s.core n).gr rs).toNat ≤ 511) : Stalls (.trigCancel n) s n 0x32 1 rd rs 0 0 [] 0 :=
  stalls_of_issue rfl hpost hrd hrs (by omega) (by omega) fun w hw => by
    rw [hw.rs, inRange_of_ok _ (decide_eq_true hcomp)]

theorem pop_stalls (hrt : rt < 16) (hring : ((s.core n).gr rs).toNat ≤ 63) (hblk : BlockOk s n rt) :
    Stalls (.pop n) s n 0x34 0 rd rs rt 0 [] ((s.core n).gr rt).toNat :=
  stalls_of_issue rfl hpost hrd hrs hrt (by omega) fun w hw => by
    rw [hw.rs, hw.rt, inRange_of_ok _ (ringOk_of_le hring), after_lBlock _ hblk]

theorem lookupEui64_stalls (hrt : rt < 16) : Stalls (.lookupEui64 n) s n 0x35 0 rd rs rt 0 [] 0 :=
  stalls_of_issue rfl hpost hrd hrs hrt (by omega) fun _ _ => rfl

theorem lookupShort_stalls : Stalls (.lookupShort n) s n 0x35 1 rd rs 0 0 [] 0 :=
  stalls_of_issue rfl hpost hrd hrs (by omega) (by omega) fun _ _ => rfl

theorem kfetch_stalls (hok : keyRefOk ((s.core n).gr rs) = true) : Stalls (.kfetch n) s n 0x37 0 rd rs 0 0 [] 0 :=
  stalls_of_issue rfl hpost hrd hrs (by omega) (by omega) fun w hw => by
    rw [hw.rs, inRange_of_ok _ hok]

theorem txat_stalls (hta : ta < 4) (hblk : BlockOk s n rs) (hok : txatOk (blockOf s n rs) = true) :
    Stalls (.txat n) s n 0x3A 0 rd rs 0 ta (blockOf s n rs) 0 :=
  stalls_of_issue rfl hpost hrd hrs (by omega) hta fun w hw => by
    rw [hw.rs, after_lBlock _ hblk, inRange_of_ok _ hok]

theorem listen_stalls (hta : ta < 4) (hblk : BlockOk s n rs) (hok : listenOk (blockOf s n rs) = true) :
    Stalls (.listen n) s n 0x3B 0 rd rs 0 ta (blockOf s n rs) 0 :=
  stalls_of_issue rfl hpost hrd hrs (by omega) hta fun w hw => by
    rw [hw.rs, after_lBlock _ hblk, inRange_of_ok _ hok]

theorem macreqDlcount_stalls (hnode : ((s.core n).gr rs).toNat ≤ 131071) :
    Stalls (.macreqDlcount n) s n 0x3D 0 rd rs 0 0 [] 0 :=
  stalls_of_issue rfl hpost hrd hrs (by omega) (by omega) fun w hw => by
    rw [hw.rs, inRange_of_ok _ (nidxOk_of_le hnode)]

theorem macreqAck_stalls (hrt : rt < 16) (hta : ta < 4) (hblk : BlockOk s n rs) (hflags : ((s.core n).gr rt).toNat < 4) :
    Stalls (.macreqAck n) s n 0x3D 1 rd rs rt ta (blockOf s n rs) 0 :=
  stalls_of_issue rfl hpost hrd hrs hrt hta fun w hw => by
    rw [hw.rs, hw.rt, after_lBlock _ hblk, inRange_of_ok _ (decide_eq_true hflags)]

theorem bufAlloc_stalls (hclass : ((s.core n).gr rs).toNat ≤ 1) : Stalls (.bufAlloc n) s n 0x3E 0 rd rs 0 0 [] 0 :=
  stalls_of_issue rfl hpost hrd hrs (by omega) (by omega) fun w hw => by
    rw [hw.rs, inRange_of_ok _ (decide_eq_true hclass)]

end
end

/-! ### The hypotheses are met -/

/-- A core with one write outstanding; its registers hold a ring number, the last L block, a time action word, a node and
an interval. -/
def deviceCore : Core :=
  { run := .running, g := [(1, 63#32), (2, 0x7FF0#32), (3, 0x10004000#32), (4, 131071#32), (5, 1#32)]
    posted := [.store 0x10000000 4 7] }

theorem deviceCore_meets : deviceCore.posted.countP Posted.waits < 4 ∧ deviceCore.dpost ≠ 0 ∧
    (deviceCore.gr 1).toNat ≤ 63 ∧ ((deviceCore.gr 2).toNat % 16 = 0 ∧ (deviceCore.gr 2).toNat + 16 ≤ lSize 7) ∧
    actionOk (deviceCore.gr 3) = true ∧ (deviceCore.gr 4).toNat ≤ 131071 ∧ deviceCore.gr 5 ≠ 0 := by
  decide

/-- Its PUSH of that block on ring 63 is posted. -/
theorem deviceCore_pushes : let s := issuingState deviceCore (instrWord false 0 0x33 (1 * 2 ^ 14 + 2 * 2 ^ 10))
    exec (.push 7) s = .next (s.withCore 7 { s.core 7 with
      posted := (s.core 7).posted ++ [.op 0x33 0 ((s.core 7).gr 1) ((s.core 7).gr 2) (blockOf s 7 2) ((s.core 7).tr 0)]
      pc := (s.core 7).pc + 4 }) := by
  intro s
  obtain ⟨hroom, -, hring, hblk, -⟩ := deviceCore_meets
  have hcore : s.core 7 = deviceCore := core_issuingState ..
  rw [← hcore] at hroom hring hblk
  exact push_posts (n := 7) hroom (by norm_num) (by norm_num) hring hblk
    (issuingState_runs deviceCore 0x33 _ rfl rfl rfl rfl (by norm_num) (by norm_num)) (issuingState_flows deviceCore _ rfl)

/-- Its TRIG ARM waits behind its write. -/
theorem deviceCore_stalls : let s := issuingState deviceCore (instrWord false 0 0x32 (6 * 2 ^ 18 + 3 * 2 ^ 14))
    exec (.trigArm 7) s = .next (s.withCore 7 { s.core 7 with
      wait := .query ⟨0x32, 0, 6, (s.core 7).gr 3, (s.core 7).gr 0, [], 0, (s.core 7).tr 0⟩ none, since := s.acc.ltb }) := by
  intro s
  obtain ⟨-, hpost, -, -, haction, -⟩ := deviceCore_meets
  have hcore : s.core 7 = deviceCore := core_issuingState ..
  rw [← hcore] at hpost haction
  exact trigArm_stalls (n := 7) hpost (by norm_num) (by norm_num) (by norm_num) haction
    (issuingState_runs deviceCore 0x32 _ rfl rfl rfl rfl (by norm_num) (by norm_num))

/-! ### The statement -/

/-- Settles O16: each command, its checks passed, comes to `post` or to `request`, which say what the core does. -/
theorem deviceOperationsAtIssue : Obligations.DeviceOperationsAtIssue := by
  unfold Obligations.DeviceOperationsAtIssue
  constructor
  · intro n s rs rt ta hrs hrt hta hroom c a b block inL posts
    exact ⟨push_posts hroom hrs hrt, learn_posts hroom hrs,
      fun hblk hok => ⟨seal_posts hroom hrs hblk hok, openJob_posts hroom hrs hblk hok⟩,
      fun hnode => ⟨fun hb => ⟨calupdAdd_posts hroom hrs hnode hrt hta hb, calupdInterval_posts hroom hrs hnode hrt hb⟩,
        calupdRemove_posts hroom hrs hnode, calupdMove_posts hroom hrs hnode hta,
        macreqDlqueue_posts hroom hrs hnode hrt, macreqSearch_posts hroom hrs hnode⟩,
      bufFree_posts hroom hrs⟩
  · intro n s rd rs rt ta hrd hrs hrt hta hpost c a b block inL stalls
    exact ⟨trigArm_stalls hpost hrs hrd hta, trigCancel_stalls hpost hrs hrd,
      fun hring hblk => ⟨pushWait_stalls hpost hrs hrt hring hblk, pop_stalls hpost hrs hrd hrt hring hblk⟩,
      lookupEui64_stalls hpost hrs hrd hrt, lookupShort_stalls hpost hrs hrd, kfetch_stalls hpost hrs hrd,
      txat_stalls hpost hrs hrd hta, listen_stalls hpost hrs hrd hta, macreqDlcount_stalls hpost hrs hrd,
      macreqAck_stalls hpost hrs hrd hrt hta, bufAlloc_stalls hpost hrs hrd⟩

end Sys2Proof.Machine
end

section
/-!
PROOFS: what the instruction families share: the operand fields of a word, and instructions that change their core and go on.
-/
namespace Sys2Proof.Machine

open Sys2Proof

/-! ### Operand fields -/

/-- A field below place `k` reads past what stands at `k` and above. -/
theorem bits_mul_two_pow_add (a b k hi lo : Nat) (hl : lo ≤ hi) (hk : hi < k) : bits (a * 2 ^ k + b) hi lo = bits b hi lo := by
  obtain ⟨j, rfl⟩ : ∃ j, k = lo + (hi - lo + 1) + j := ⟨k - (hi + 1), by omega⟩
  have e : a * 2 ^ (lo + (hi - lo + 1) + j) + b = b + 2 ^ lo * (2 ^ (hi - lo + 1) * (2 ^ j * a)) := by
    rw [Nat.pow_add, Nat.pow_add]
    ring
  rw [bits, bits, e, Nat.add_mul_div_left _ _ (Nat.two_pow_pos _), Nat.add_mul_mod_self_left]

/-- A number below 2^`k` is the field of `k` bits. -/
theorem bits_of_lt {n hi : Nat} (h : n < 2 ^ (hi + 1)) : bits n hi 0 = n := by
  simpa [bits] using Nat.mod_eq_of_lt h

/-- The fields of a word of the IMM format and of those like it (Table 02.4): two registers, and 14 bits `imm` below. -/
structure ImmWord (w op rd rs imm : Nat) : Prop where
  opcode : Machine.opcode w = op
  rd : fRd w = rd
  rs : fRs w = rs
  low : ∀ hi lo, lo ≤ hi → hi < 14 → bits w hi lo = bits imm hi lo

theorem immWord_of_wordOf {w op rd rs imm : Nat} (h : WordOf w op (rd * 2 ^ 18 + rs * 2 ^ 14 + imm)) (hrd : rd < 16)
    (hrs : rs < 16) (himm : imm < 2 ^ 14) : ImmWord w op rd rs imm := by
  obtain ⟨hop, hfield⟩ := h
  refine ⟨hop, ?_, ?_, fun hi lo hl hh => ?_⟩
  · rw [fRd, hfield 21 18 (by omega) (by omega), bits]; omega
  · rw [fRs, hfield 17 14 (by omega) (by omega), bits]; omega
  · have e : rd * 2 ^ 18 + rs * 2 ^ 14 + imm = (rd * 2 ^ 4 + rs) * 2 ^ 14 + imm := by omega
    rw [hfield hi lo hl (by omega), e, bits_mul_two_pow_add _ _ 14 hi lo hl hh]

/-! ### Instructions that change their core and go on -/

section
variable {s : State} {n op rest : Nat}

/-- A core about to run a word issues it, once the word's own decode checks pass. -/
theorem Runs.issues_decoded (h : Runs s n op rest) (hop : op < 64) (hrest : rest < 2 ^ 22) :
    ∃ w, WordOf w op rest ∧ (pn w && decide (pg w = 0)) = false ∧
      ∀ r e, rowOf w = r → decodeFault (n = 64) (s.core n).inFault w = none →
        run (issue n r e) s = .next (s.after (e w (s.core n))) := by
  obtain ⟨hd, hr, hw, b, g, hg, hguard, hf⟩ := h
  have hpn := pn_instrWord b g op rest hg hop hrest
  have hpg := pg_instrWord b g op rest hg hop hrest
  refine ⟨_, wordOf_instrWord b g op rest hop hrest, ?_, fun r e hrow hdec => ?_⟩
  · rw [hpn, hpg]
    by_cases hz : g = 0
    · subst hz
      simpa [Core.pr] using hguard
    · simp [hz]
  · rw [run_eq, after_issue s n r e _ hd hr hw hf hrow hdec]
    rw [Core.guard, hpn, hpg, hguard]

/-- An instruction that completes with core changes `f`, which leave the wait alone, changes nothing else. -/
theorem after_retire_eq {f : Core → Core} {c : Core} (h : Runs s n op rest) (hflow : Flows s n) (hf : f (s.core n) = c)
    (hwait : c.wait = (s.core n).wait) : s.after (retire n f) = s.withCore n { c with pc := (s.core n).pc + 4 } := by
  rw [after_retire s n f hflow.1 hflow.2, hf, ← h.waitsNone, ← hwait]

end

/-- A command whose row's effect completes its instruction runs to what that leaves: the word's checks are its opcode's. -/
theorem runsTo_of_retire {i : Instr} {s : State} {n : Fin 65} {row : Row} {op rest : Nat} {G : Nat → Core → Core → Core}
    {k : Core → Core} (hi : exec i s = run (issue n row fun w c => retire n (G w c)) s)
    (hw : ∀ w, WordOf w op rest → rowOf w = row ∧ fieldsOk w = true ∧ G w (s.core n) (s.core n) = k (s.core n))
    (hrest : rest < 2 ^ 22 := by omega) (hwait : (k (s.core n)).wait = (s.core n).wait := by simp)
    (hop : op < 64 := by norm_num) (hpriv : op ∉ [0x0C, 0x0E, 0x1D] := by decide) : RunsTo i s n op rest k := by
  intro h hflow
  obtain ⟨w, hword, hissue⟩ := h.issues hop hpriv hrest
  obtain ⟨hrow, hok, hG⟩ := hw w hword
  rw [hi, hissue row _ hrow hok, after_retire_eq h hflow hG hwait]

end Sys2Proof.Machine
end

section
/-!
PROOFS: the ALU functions, immediates and bit fields (O6).
-/
namespace Sys2Proof.Machine

open Sys2Proof

/-! ### The results, as the statement writes them -/

theorem addCarry_false (a b : Word) : addCarry a b false = (a + b, decide (2 ^ 32 ≤ a.toNat + b.toNat)) := by
  have h : BitVec.ofNat 32 (a.toNat + b.toNat) = a + b := BitVec.eq_of_toNat_eq (by simp)
  simp [addCarry, b2n, h]

theorem subBorrow_false (a b : Word) : subBorrow a b false = (a - b, decide (a.toNat < b.toNat)) := by
  simp [subBorrow, b2n]

theorem subBorrow_eq (a b : Word) (cy : Bool) : subBorrow a b cy =
    (BitVec.ofInt 32 (a.toNat - b.toNat - b2n cy), decide (a.toNat < b.toNat + b2n cy)) := by
  have h : BitVec.ofInt 32 (a.toNat - b.toNat - b2n cy) = a - b - BitVec.ofNat 32 (b2n cy) := by
    simp only [sub_eq_add_neg, BitVec.ofInt_add, BitVec.ofInt_neg, BitVec.ofInt_natCast, BitVec.ofNat_toNat, BitVec.setWidth_eq]
  rw [subBorrow, h]

theorem mul_eq_ofNat (a b : Word) : a * b = BitVec.ofNat 32 (a.toNat * b.toNat) := BitVec.eq_of_toNat_eq (by simp)

/-- Of two words with the same signed value either may be taken. -/
theorem ite_toInt_le (a b x y : Word) (h : a = b → x = y) :
    (if a.toInt ≤ b.toInt then x else y) = if a.slt b then x else y := by
  simp only [BitVec.slt_iff_toInt_lt]
  rcases lt_trichotomy a.toInt b.toInt with hlt | heq | hgt
  · simp [hlt, hlt.le]
  · simp [heq, h (BitVec.eq_of_toInt_eq heq)]
  · simp [not_le.2 hgt, not_lt.2 hgt.le]

theorem ite_toNat_le (a b x y : Word) (h : a = b → x = y) :
    (if a.toNat ≤ b.toNat then x else y) = if a.ult b then x else y := by
  simp only [BitVec.ult_iff_toNat_lt]
  rcases lt_trichotomy a.toNat b.toNat with hlt | heq | hgt
  · simp [hlt, hlt.le]
  · simp [heq, h (BitVec.eq_of_toNat_eq heq)]
  · simp [not_le.2 hgt, not_lt.2 hgt.le]

/-- The leading zeros are the places before the first 1 bit. -/
theorem leadingZeros_eq {a : Word} {z : Nat} (hz : z ≤ 32) (hzeros : ∀ i < z, a.getMsbD i = false)
    (hone : z < 32 → a.getMsbD z = true) : leadingZeros a = z := by
  have hbit : ∀ i < 32, a.getLsbD (31 - i) = a.getMsbD i := fun i hi => by simp [BitVec.getMsbD, hi]
  unfold leadingZeros firstBelow
  rcases Nat.lt_or_eq_of_le hz with hlt | rfl
  · have hfind : (List.range 32).find? (fun i => a.getLsbD (31 - i)) = some z := by
      rw [List.find?_range_eq_some]
      refine ⟨by rw [hbit z hlt, hone hlt], List.mem_range.2 hlt, fun j hj => ?_⟩
      rw [hbit j (by omega), hzeros j hj, Bool.not_false]
    rw [hfind]
  · have hfind : (List.range 32).find? (fun i => a.getLsbD (31 - i)) = none := by
      rw [List.find?_range_eq_none]
      intro j hj
      rw [hbit j hj, hzeros j hj, Bool.not_false]
    rw [hfind]

theorem onesIn_eq (a : Word) : onesIn a = (List.range 32).countP a.getLsbD := List.countP_eq_length_filter.symm

/-- Two bit strings side by side, as a number. -/
theorem toNat_append_add {k m : Nat} (x : BitVec k) (y : BitVec m) : (x ++ y).toNat = x.toNat * 2 ^ m + y.toNat := by
  rw [BitVec.toNat_append, ← Nat.shiftLeft_add_eq_or_of_lt y.isLt, Nat.shiftLeft_eq]

theorem byteSwap_eq (a : Word) :
    byteSwap a = a.extractLsb' 0 8 ++ a.extractLsb' 8 8 ++ a.extractLsb' 16 8 ++ a.extractLsb' 24 8 := by
  apply BitVec.eq_of_toNat_eq
  simp only [byteSwap, ofBe, leBytes, List.reverse_cons, List.reverse_nil, List.nil_append, List.cons_append, ofLe,
    BitVec.toNat_ofNat, toNat_append_add, BitVec.extractLsb'_toNat, Nat.shiftRight_eq_div_pow, Nat.div_div_eq_div_mul, Nat.mod_mod]
  norm_num
  omega

/-- The mask of the low `k` bits keeps the remainder by 2^`k`. -/
theorem bfxOf_eq (a : Word) (pos k : Nat) (hk : k ≤ 32) : bfxOf a pos k = (a >>> pos) &&& BitVec.ofNat 32 (2 ^ k - 1) := by
  have hpow : 2 ^ k ≤ 2 ^ 32 := Nat.pow_le_pow_right (by norm_num) hk
  have hpos := Nat.two_pow_pos k
  apply BitVec.eq_of_toNat_eq
  rw [bfxOf, BitVec.toNat_and, BitVec.toNat_ofNat, BitVec.toNat_ofNat, BitVec.toNat_ushiftRight, Nat.shiftRight_eq_div_pow,
    Nat.mod_eq_of_lt (show 2 ^ k - 1 < 2 ^ 32 by omega), Nat.and_two_pow_sub_one_eq_mod]
  exact Nat.mod_eq_of_lt ((Nat.mod_lt _ hpos).trans_le hpow)

theorem ofNat_mul_two_pow (v k : Nat) : BitVec.ofNat 32 (v * 2 ^ k) = BitVec.ofNat 32 v <<< k := by
  apply BitVec.eq_of_toNat_eq
  simp [Nat.shiftLeft_eq]

theorem shiftBy_eq (a : Word) (sa : Nat) {kind : Nat} (h : kind < 4) :
    shiftBy kind a sa = [a <<< sa, a >>> sa, a.sshiftRight sa, a.rotateRight sa].getD kind 0 := by
  interval_cases kind <;> rfl

/-! ### The instructions -/

section
variable {s : State} {n : Fin 65} {rd rs r fn : Nat}

/-- The fields of a register-to-register word (R61). -/
theorem regWord_fields {w op : Nat} (h : ImmWord w op rd rs (r * 2 ^ 10 + fn * 2 ^ 5)) (hr : r < 16) (hfn : fn < 32) :
    fRt w = r ∧ fFn w = fn ∧ bits w 4 0 = 0 := by
  refine ⟨?_, ?_, ?_⟩
  · rw [fRt, h.low 13 10 (by omega) (by omega), bits]; omega
  · rw [fFn, h.low 9 5 (by omega) (by omega), bits]; omega
  · rw [h.low 4 0 (by omega) (by omega), bits]; omega

/-- Opcode 0 with function `fn` belongs to that function's row and has no reserved field. -/
theorem regWord_decodes {w : Nat} {row : Row} (h : ImmWord w 0 rd rs (r * 2 ^ 10 + fn * 2 ^ 5)) (hr : r < 16) (hfn : fn ≤ 0x15)
    (hrt : fn < 0x13 ∨ r = 0) (hrow : ∀ w, opcode w = 0 → fFn w = fn → rowOf w = row) :
    rowOf w = row ∧ fieldsOk w = true ∧ fRt w = r := by
  obtain ⟨ht, hf, hlow⟩ := regWord_fields h hr (by omega)
  refine ⟨hrow w h.opcode hf, ?_, ht⟩
  simp only [fieldsOk, h.opcode, hlow, hf, ht, hfn, decide_true, Bool.true_and, Bool.or_eq_true, decide_eq_true_eq]
  exact hrt

/-- A function of two registers that leaves the flags writes its result. -/
theorem alu_runs {i : Instr} {row : Row} {g : Word → Word → Word} {v : Word} (hrd : rd < 16) (hrs : rs < 16) (hr : r < 16)
    (hi : exec i s = run (aluOp n row g) s) (hv : g ((s.core n).gr rs) ((s.core n).gr r) = v)
    (hfn : fn ≤ 0x15 := by norm_num) (hrt : fn < 0x13 ∨ r = 0 := by simp)
    (hrow : ∀ w, opcode w = 0 → fFn w = fn → rowOf w = row := by intro w h0 hf; simp [rowOf, h0, hf]) :
    RunsTo i s n 0 (rd * 2 ^ 18 + rs * 2 ^ 14 + r * 2 ^ 10 + fn * 2 ^ 5) (fun c => c.setG rd v) := by
  rw [Nat.add_assoc (rd * 2 ^ 18 + rs * 2 ^ 14)]
  refine runsTo_of_retire hi fun w hw => ?_
  have h := immWord_of_wordOf hw hrd hrs (by omega)
  obtain ⟨hrow', hok, ht⟩ := regWord_decodes h hr hfn hrt hrow
  exact ⟨hrow', hok, by rw [h.rd, h.rs, ht, hv]⟩

/-- A function of two registers and CY writes its result and CY. -/
theorem carry_runs {i : Instr} {row : Row} {g : Word → Word → Bool → Word × Bool} {v : Word} {out : Bool} (hrd : rd < 16)
    (hrs : rs < 16) (hr : r < 16) (hi : exec i s = run (aluCarry n row g) s)
    (hv : g ((s.core n).gr rs) ((s.core n).gr r) (s.core n).cy = (v, out)) (hfn : fn < 0x13 := by norm_num)
    (hrow : ∀ w, opcode w = 0 → fFn w = fn → rowOf w = row := by intro w h0 hf; simp [rowOf, h0, hf]) :
    RunsTo i s n 0 (rd * 2 ^ 18 + rs * 2 ^ 14 + r * 2 ^ 10 + fn * 2 ^ 5) (fun c => { c.setG rd v with cy := out }) := by
  rw [Nat.add_assoc (rd * 2 ^ 18 + rs * 2 ^ 14)]
  refine runsTo_of_retire hi fun w hw => ?_
  have h := immWord_of_wordOf hw hrd hrs (by omega)
  obtain ⟨hrow', hok, ht⟩ := regWord_decodes h hr (by omega) (.inl hfn) hrow
  exact ⟨hrow', hok, by rw [h.rd, h.rs, ht, hv]⟩

/-- A function of a register and a 14-bit immediate writes its result. -/
theorem imm_runs {i : Instr} {row : Row} {op imm : Nat} {g : Word → Nat → Word} {v : Word} (hrd : rd < 16) (hrs : rs < 16)
    (himm : imm < 2 ^ 14) (hi : exec i s = run (immOp n row g) s) (hv : g ((s.core n).gr rs) imm = v)
    (hop : op ∈ [1, 2, 3, 4] := by simp)
    (hrow : ∀ w, opcode w = op → rowOf w = row ∧ fieldsOk w = true := by intro w h0; simp [rowOf, fieldsOk, h0]) :
    RunsTo i s n op (rd * 2 ^ 18 + rs * 2 ^ 14 + imm) (fun c => c.setG rd v) := by
  simp only [List.mem_cons, List.not_mem_nil, or_false] at hop
  refine runsTo_of_retire hi (fun w hw => ?_) (hop := by omega) (hpriv := by simp; omega)
  have h := immWord_of_wordOf hw hrd hrs himm
  obtain ⟨hrow', hok⟩ := hrow w h.opcode
  exact ⟨hrow', hok, by rw [h.rd, h.rs, h.low 13 0 (by omega) (by omega), bits_of_lt himm, hv]⟩

theorem lui_runs {imm : Nat} (hrd : rd < 16) (himm : imm < 2 ^ 18) :
    RunsTo (.lui n) s n 0x06 (rd * 2 ^ 18 + imm) (fun c => c.setG rd (BitVec.ofNat 32 imm <<< 14)) := by
  refine runsTo_of_retire (row := .lui) rfl fun w ⟨hop, hfield⟩ => ?_
  have hrd' : fRd w = rd := by rw [fRd, hfield 21 18 (by omega) (by omega), bits]; omega
  have himm' : bits w 17 0 = imm := by rw [hfield 17 0 (by omega) (by omega), bits]; omega
  refine ⟨by simp [rowOf, hop], by simp [fieldsOk, hop], ?_⟩
  rw [hrd', himm', ofNat_mul_two_pow]

theorem shifti_runs {kind sa : Nat} (hrd : rd < 16) (hrs : rs < 16) (hkind : kind < 4) (hsa : sa < 32) :
    RunsTo (.shifti n) s n 0x05 (rd * 2 ^ 18 + rs * 2 ^ 14 + kind * 2 ^ 12 + sa) (fun c => c.setG rd
      (let a := (s.core n).gr rs
       [a <<< sa, a >>> sa, a.sshiftRight sa, a.rotateRight sa].getD kind 0)) := by
  rw [Nat.add_assoc (rd * 2 ^ 18 + rs * 2 ^ 14)]
  refine runsTo_of_retire (row := .shifti) rfl fun w hw => ?_
  have h := immWord_of_wordOf hw hrd hrs (by omega)
  have hkind' : bits w 13 12 = kind := by rw [h.low 13 12 (by omega) (by omega), bits]; omega
  have hsa' : bits w 4 0 = sa := by rw [h.low 4 0 (by omega) (by omega), bits]; omega
  have hzero : bits w 11 5 = 0 := by rw [h.low 11 5 (by omega) (by omega), bits]; omega
  refine ⟨by simp [rowOf, h.opcode], by simp [fieldsOk, h.opcode, hzero], ?_⟩
  rw [h.rd, h.rs, hkind', hsa', shiftBy_eq _ _ hkind]

/-- The fields of a bit-field word (R62): the place, the width less 1, and no reserved field. -/
theorem bitFieldWord_fields {w op pos wm1 : Nat} (h : ImmWord w op rd rs (pos * 2 ^ 9 + wm1 * 2 ^ 4)) (hpos : pos < 32)
    (hwm1 : wm1 < 32) : bits w 13 9 = pos ∧ bits w 8 4 = wm1 ∧ bits w 3 0 = 0 := by
  refine ⟨?_, ?_, ?_⟩
  · rw [h.low 13 9 (by omega) (by omega), bits]; omega
  · rw [h.low 8 4 (by omega) (by omega), bits]; omega
  · rw [h.low 3 0 (by omega) (by omega), bits]; omega

theorem bfx_runs {pos wm1 : Nat} (hrd : rd < 16) (hrs : rs < 16) (hpos : pos < 32) (hwm1 : wm1 < 32) :
    RunsTo (.bfx n) s n 0x07 (rd * 2 ^ 18 + rs * 2 ^ 14 + pos * 2 ^ 9 + wm1 * 2 ^ 4)
      (fun c => c.setG rd (((s.core n).gr rs >>> pos) &&& BitVec.ofNat 32 (2 ^ (wm1 + 1) - 1))) := by
  rw [Nat.add_assoc (rd * 2 ^ 18 + rs * 2 ^ 14)]
  refine runsTo_of_retire (row := .bfx) rfl fun w hw => ?_
  have h := immWord_of_wordOf hw hrd hrs (by omega)
  obtain ⟨hpos', hwm1', hzero⟩ := bitFieldWord_fields h hpos hwm1
  refine ⟨by simp [rowOf, h.opcode], by simp [fieldsOk, h.opcode, hzero], ?_⟩
  rw [h.rd, h.rs, hpos', hwm1', bfxOf_eq _ _ _ (by omega)]

theorem bfi_runs {pos wm1 : Nat} (hrd : rd < 16) (hrs : rs < 16) (hpos : pos < 32) (hwm1 : wm1 < 32) :
    RunsTo (.bfi n) s n 0x08 (rd * 2 ^ 18 + rs * 2 ^ 14 + pos * 2 ^ 9 + wm1 * 2 ^ 4) (fun c => c.setG rd
      (let m : Word := BitVec.ofNat 32 (2 ^ (wm1 + 1) - 1)
       ((s.core n).gr rd &&& ~~~(m <<< pos)) ||| (((s.core n).gr rs <<< pos) &&& (m <<< pos)))) := by
  rw [Nat.add_assoc (rd * 2 ^ 18 + rs * 2 ^ 14)]
  refine runsTo_of_retire (row := .bfi) rfl fun w hw => ?_
  have h := immWord_of_wordOf hw hrd hrs (by omega)
  obtain ⟨hpos', hwm1', hzero⟩ := bitFieldWord_fields h hpos hwm1
  refine ⟨by simp [rowOf, h.opcode], by simp [fieldsOk, h.opcode, hzero], ?_⟩
  rw [h.rd, h.rs, hpos', hwm1', bfiOf, ofNat_mul_two_pow]

end

/-! ### The statement -/

/-- Settles O6: each form has one lemma for what it runs to, and each function its result in the statement's terms. -/
theorem aluAndImmediateResults : Obligations.AluAndImmediateResults := by
  unfold Obligations.AluAndImmediateResults
  refine ⟨fun n s rd rs rt hrd hrs hrt => ?_, fun n s rd rs hrd hrs => ?_⟩
  · intro a b cy alu carry
    exact ⟨carry_runs hrd hrs hrt rfl (addCarry_false a b), carry_runs hrd hrs hrt rfl (subBorrow_false a b),
      alu_runs hrd hrs hrt rfl rfl, alu_runs hrd hrs hrt rfl rfl, alu_runs hrd hrs hrt rfl rfl, alu_runs hrd hrs hrt rfl rfl,
      alu_runs hrd hrs hrt rfl rfl, alu_runs hrd hrs hrt rfl rfl, alu_runs hrd hrs hrt rfl rfl, alu_runs hrd hrs hrt rfl rfl,
      carry_runs hrd hrs hrt rfl rfl, carry_runs hrd hrs hrt rfl (subBorrow_eq a b _),
      alu_runs hrd hrs hrt rfl (mul_eq_ofNat a b), alu_runs hrd hrs hrt rfl rfl, alu_runs hrd hrs hrt rfl rfl,
      alu_runs hrd hrs hrt rfl (ite_toInt_le a b a b id), alu_runs hrd hrs hrt rfl (ite_toInt_le a b b a Eq.symm),
      alu_runs hrd hrs hrt rfl (ite_toNat_le a b a b id), alu_runs hrd hrs hrt rfl (ite_toNat_le a b b a Eq.symm),
      fun z hz hzeros hone => alu_runs hrd hrs (by norm_num) rfl (congrArg _ (leadingZeros_eq hz hzeros hone)),
      alu_runs hrd hrs (by norm_num) rfl (congrArg _ (onesIn_eq a)), alu_runs hrd hrs (by norm_num) rfl (byteSwap_eq a)⟩
  · intro a old
    refine ⟨fun imm himm => ?_, fun imm himm => lui_runs hrd himm,
      fun kind hkind sa hsa => shifti_runs hrd hrs hkind hsa,
      fun pos hpos wm1 hwm1 => ⟨bfx_runs hrd hrs hpos hwm1, bfi_runs hrd hrs hpos hwm1⟩⟩
    exact ⟨imm_runs hrd hrs himm rfl (congrArg (a + ·) (sext_eq 14 imm (by norm_num))), imm_runs hrd hrs himm rfl rfl,
      imm_runs hrd hrs himm rfl rfl, imm_runs hrd hrs himm rfl rfl⟩

end Sys2Proof.Machine
end

section
/-!
PROOFS: comparisons and predicate logic (O7).
-/
namespace Sys2Proof.Machine

open Sys2Proof

/-! ### Conditions, combine modes and functions, as the statement lists them -/

theorem condition_eq (a b : Word) {cc : Nat} (h : cc < 12) : condition cc a b =
    [decide (a = b), decide (a ≠ b), a.slt b, b.sle a, a.sle b, b.slt a, a.ult b, b.ule a, a.ule b, b.ult a,
      decide (a &&& b ≠ 0), decide (a &&& b = 0)].getD cc false := by
  interval_cases cc <;> rfl

theorem timeCondition_eq (a b : Instant) {cc : Nat} (h : cc < 6) : timeCondition cc a b =
    (let d := (a - b).toInt
     [decide (d = 0), decide (d ≠ 0), decide (d < 0), decide (0 ≤ d), decide (d ≤ 0), decide (0 < d)].getD cc false) := by
  interval_cases cc <;> rfl

theorem combine_eq (old v : Bool) {cb : Nat} (h : cb < 3) : combine cb old v = [v, old && v, old || v].getD cb false := by
  interval_cases cb <;> rfl

theorem plogOf_eq (a b : Bool) {op : Nat} (h : op < 8) : plogOf op a b =
    [a && b, a || b, xor a b, a && !b, a || !b, !a, false, true].getD op false := by
  interval_cases op <;> rfl

/-! ### The instructions -/

/-- The predicate and combine fields that CMP, CMPI and TCMP share, and the bits below them. -/
structure PredWord (w op pd cb low : Nat) : Prop where
  opcode : Machine.opcode w = op
  pd : fPd w = pd
  cb : fCb w = cb
  low : ∀ hi lo, lo ≤ hi → hi < 17 → bits w hi lo = bits low hi lo

theorem predWord_of_wordOf {w op pd cb low : Nat} (h : WordOf w op (pd * 2 ^ 19 + cb * 2 ^ 17 + low)) (hpd : pd < 8)
    (hcb : cb < 3) (hlow : low < 2 ^ 17) : PredWord w op pd cb low := by
  obtain ⟨hop, hfield⟩ := h
  refine ⟨hop, ?_, ?_, fun hi lo hl hh => ?_⟩
  · rw [fPd, hfield 21 19 (by omega) (by omega), bits]; omega
  · rw [fCb, hfield 18 17 (by omega) (by omega), bits]; omega
  · have e : pd * 2 ^ 19 + cb * 2 ^ 17 + low = (pd * 2 ^ 2 + cb) * 2 ^ 17 + low := by omega
    rw [hfield hi lo hl (by omega), e, bits_mul_two_pow_add _ _ 17 hi lo hl hh]

section
variable {s : State} {n : Fin 65} {pd cb : Nat}

/-- A comparison combines its condition, which reads no predicate, into the predicate it names. -/
theorem pred_runs {i : Instr} {row : Row} {op low : Nat} {t : Nat → Core → Bool} {v : Bool} (hpd : pd < 8) (hcb : cb < 3)
    (hi : exec i s = run (issue n row fun w _ => setPred n w (t w)) s)
    (hw : ∀ w, PredWord w op pd cb low → rowOf w = row ∧ fieldsOk w = true ∧ t w (s.core n) = v)
    (hlow : low < 2 ^ 17 := by omega) (hop : op < 64 := by norm_num) (hpriv : op ∉ [0x0C, 0x0E, 0x1D] := by decide) :
    RunsTo i s n op (pd * 2 ^ 19 + cb * 2 ^ 17 + low) (fun k => k.setP pd
      (let old := (s.core n).pr pd
       [v, old && v, old || v].getD cb false)) := by
  refine runsTo_of_retire (G := fun w _ k => k.setP (fPd w) (combine (fCb w) (k.pr (fPd w)) (t w k))) hi (fun w hword => ?_)
    (hop := hop) (hpriv := hpriv)
  have h := predWord_of_wordOf hword hpd hcb hlow
  obtain ⟨hrow, hok, hv⟩ := hw w h
  exact ⟨hrow, hok, by rw [h.pd, h.cb, hv, combine_eq _ _ hcb]⟩

theorem cmp_runs {cc rs rt : Nat} (hpd : pd < 8) (hcb : cb < 3) (hcc : cc < 12) (hrs : rs < 16) (hrt : rt < 16) :
    RunsTo (.cmp n) s n 0x09 (pd * 2 ^ 19 + cb * 2 ^ 17 + (cc * 2 ^ 13 + rs * 2 ^ 9 + rt * 2 ^ 5)) (fun k => k.setP pd
      (let old := (s.core n).pr pd
       let v := condition cc ((s.core n).gr rs) ((s.core n).gr rt)
       [v, old && v, old || v].getD cb false)) := by
  refine pred_runs (row := .cmp) hpd hcb rfl fun w h => ?_
  have hcc' : fCc w = cc := by rw [fCc, h.low 16 13 (by omega) (by omega), bits]; omega
  have hrs' : bits w 12 9 = rs := by rw [h.low 12 9 (by omega) (by omega), bits]; omega
  have hrt' : bits w 8 5 = rt := by rw [h.low 8 5 (by omega) (by omega), bits]; omega
  have hzero : bits w 4 0 = 0 := by rw [h.low 4 0 (by omega) (by omega), bits]; omega
  refine ⟨by simp [rowOf, h.opcode], ?_, by rw [hcc', hrs', hrt']⟩
  simp [fieldsOk, h.opcode, h.cb, hcc', hzero]
  omega

theorem cmpi_runs {cc rs imm : Nat} (hpd : pd < 8) (hcb : cb < 3) (hcc : cc < 12) (hrs : rs < 16) (himm : imm < 2 ^ 9) :
    RunsTo (.cmpi n) s n 0x0A (pd * 2 ^ 19 + cb * 2 ^ 17 + (cc * 2 ^ 13 + rs * 2 ^ 9 + imm)) (fun k => k.setP pd
      (let old := (s.core n).pr pd
       let v := condition cc ((s.core n).gr rs) ((BitVec.ofNat 9 imm).signExtend 32)
       [v, old && v, old || v].getD cb false)) := by
  refine pred_runs (row := .cmpi) hpd hcb rfl fun w h => ?_
  have hcc' : fCc w = cc := by rw [fCc, h.low 16 13 (by omega) (by omega), bits]; omega
  have hrs' : bits w 12 9 = rs := by rw [h.low 12 9 (by omega) (by omega), bits]; omega
  have himm' : bits w 8 0 = imm := by rw [h.low 8 0 (by omega) (by omega), bits]; omega
  refine ⟨by simp [rowOf, h.opcode], ?_, by rw [hcc', hrs', himm', sext_eq 9 imm (by norm_num)]⟩
  simp [fieldsOk, h.opcode, h.cb, hcc']
  omega

theorem tcmp_runs {cc ta tb : Nat} (hpd : pd < 8) (hcb : cb < 3) (hcc : cc < 6) (hta : ta < 4) (htb : tb < 4) :
    RunsTo (.tcmp n) s n 0x2E (pd * 2 ^ 19 + cb * 2 ^ 17 + (ta * 2 ^ 15 + tb * 2 ^ 13 + cc * 2 ^ 10)) (fun k => k.setP pd
      (let old := (s.core n).pr pd
       let v := timeCondition cc ((s.core n).tr ta) ((s.core n).tr tb)
       [v, old && v, old || v].getD cb false)) := by
  refine pred_runs (row := .tcmp) hpd hcb rfl fun w h => ?_
  have hta' : bits w 16 15 = ta := by rw [h.low 16 15 (by omega) (by omega), bits]; omega
  have htb' : bits w 14 13 = tb := by rw [h.low 14 13 (by omega) (by omega), bits]; omega
  have hcc' : bits w 12 10 = cc := by rw [h.low 12 10 (by omega) (by omega), bits]; omega
  have hzero : bits w 9 0 = 0 := by rw [h.low 9 0 (by omega) (by omega), bits]; omega
  refine ⟨by simp [rowOf, h.opcode], ?_, by rw [hta', htb', hcc']⟩
  simp [fieldsOk, h.opcode, h.cb, hcc', hzero]
  omega

theorem plog_runs {op pa pb : Nat} (hpd : pd < 8) (hop : op < 8) (hpa : pa < 8) (hpb : pb < 8) :
    RunsTo (.plog n) s n 0x0B (pd * 2 ^ 19 + pa * 2 ^ 16 + pb * 2 ^ 13 + op * 2 ^ 10) (fun k => k.setP pd
      (plogOf op ((s.core n).pr pa) ((s.core n).pr pb))) := by
  refine runsTo_of_retire (row := .plog) rfl fun w ⟨hopcode, hfield⟩ => ?_
  have hpd' : fPd w = pd := by rw [fPd, hfield 21 19 (by omega) (by omega), bits]; omega
  have hpa' : bits w 18 16 = pa := by rw [hfield 18 16 (by omega) (by omega), bits]; omega
  have hpb' : bits w 15 13 = pb := by rw [hfield 15 13 (by omega) (by omega), bits]; omega
  have hop' : bits w 12 10 = op := by rw [hfield 12 10 (by omega) (by omega), bits]; omega
  have hzero : bits w 9 0 = 0 := by rw [hfield 9 0 (by omega) (by omega), bits]; omega
  refine ⟨by simp [rowOf, hopcode], by simp [fieldsOk, hopcode, hzero], ?_⟩
  rw [hpd', hpa', hpb', hop']

end

/-! ### The statement -/

/-- Settles O7: what each instruction sets, in the terms of the statement's lists. -/
theorem predicateResults : Obligations.PredicateResults := by
  unfold Obligations.PredicateResults
  intro n s pd hpd c conds into
  refine ⟨fun cb hcb cc hcc rs hrs rt hrt => ?_, fun cb hcb cc hcc rs hrs imm himm => ?_,
    fun cb hcb cc hcc ta hta tb htb => ?_, fun op hop pa hpa pb hpb => ?_⟩
  · have h := cmp_runs (s := s) (n := n) hpd hcb hcc hrs hrt
    rw [condition_eq _ _ hcc] at h
    simpa only [Nat.add_assoc] using h
  · have h := cmpi_runs (s := s) (n := n) hpd hcb hcc hrs himm
    rw [condition_eq _ _ hcc] at h
    simpa only [Nat.add_assoc] using h
  · have h := tcmp_runs (s := s) (n := n) hpd hcb hcc hta htb
    rw [timeCondition_eq _ _ hcc] at h
    simpa only [Nat.add_assoc] using h
  · have h := plog_runs (s := s) (n := n) hpd hop hpa hpb
    rwa [plogOf_eq _ _ hop] at h

end Sys2Proof.Machine
end

section
/-!
PROOFS: the register files and the special registers (O8).
-/
namespace Sys2Proof.Machine

open Sys2Proof

/-! ### Bits of words and predicates -/

theorem ofNat_mod (v : Nat) : BitVec.ofNat 32 (v % 2 ^ 32) = BitVec.ofNat 32 v := BitVec.eq_of_toNat_eq (by simp)

theorem putBit_testBit (v i j : Nat) (b : Bool) : (putBit v i b).testBit j = if j = i then b else v.testBit j := by
  rw [putBit, putBits_testBit, Nat.sub_self, Nat.zero_add]
  by_cases h : j = i
  · subst h
    cases b <;> simp [b2n]
  · rw [if_neg (by omega), if_neg h]

/-- Bit `j` of a word with bit `i` replaced. -/
theorem getLsbD_ofNat_putBit {k : Nat} (x : BitVec k) (i j : Nat) (b : Bool) (hj : j < k) :
    (BitVec.ofNat k (putBit x.toNat i b)).getLsbD j = if j = i then b else x.getLsbD j := by
  rw [BitVec.getLsbD_ofNat, putBit_testBit, BitVec.testBit_toNat]
  simp [hj]

theorem putBit_zero_true (v : Nat) : putBit v 0 true = v ||| 1 := by
  apply Nat.eq_of_testBit_eq
  intro i
  rw [putBit_testBit, Nat.testBit_or]
  cases i with
  | zero => simp
  | succ i => simp [Nat.testBit_succ]

theorem pr_setP (c : Core) (i j : Nat) (b : Bool) (hj : j < 8) :
    (c.setP i b).pr j = if j = 0 then true else if j = i then b else c.pr j := by
  unfold Core.pr Core.setP
  by_cases hj0 : j = 0
  · simp [hj0]
  · by_cases hi : i = 0
    · subst hi
      simp [hj0]
    · simp only [hj0, hi, if_false, decide_false, Bool.false_or]
      exact getLsbD_ofNat_putBit c.p i j b hj

/-- What MTS leaves in PRED: its low byte, with p0 at 1. -/
theorem ofNat_putBit_zero (v : Word) : BitVec.ofNat 8 (putBit (v.toNat % 256) 0 true) = (v ||| 1#32).setWidth 8 := by
  apply BitVec.eq_of_getLsbD_eq
  intro i hi
  have hmod : (v.toNat % 256).testBit i = v.toNat.testBit i := by
    rw [show (256 : Nat) = 2 ^ 8 by rfl, Nat.testBit_mod_two_pow, decide_eq_true hi, Bool.true_and]
  rw [putBit_zero_true, BitVec.getLsbD_ofNat, Nat.testBit_or, hmod]
  simp [hi, BitVec.getLsbD, Nat.testBit_or, hmod]

/-- What MTS leaves in FVEC: a word-aligned address. -/
theorem ofNat_div_four (v : Word) : BitVec.ofNat 32 (v.toNat / 4 * 4) = v &&& ~~~3#32 := by
  have hmask : ∀ i < 32, (~~~3#32).getLsbD i = decide (2 ≤ i) := by decide
  apply BitVec.eq_of_getLsbD_eq
  intro i hi
  rw [BitVec.getLsbD_ofNat, BitVec.getLsbD_and, hmask i hi, show (4 : Nat) = 2 ^ 2 by rfl, Nat.testBit_mul_two_pow,
    Nat.testBit_div_two_pow]
  by_cases h : 2 ≤ i
  · simp [h, hi, BitVec.getLsbD, Nat.sub_add_cancel h]
  · simp [h]

/-! ### MFS and MTS -/

section
variable {s : State} {n : Fin 65} {g sn : Nat}

/-- A word that names a special register of this kind of core decodes. -/
theorem decodeFault_special {mgt inFault wr : Bool} {w : Nat} (hop : opcode w = 0x0C)
    (hguard : (pn w && decide (pg w = 0)) = false) (hzero : bits w 10 0 = 0) (hnum : bits w 17 12 = sn) (hwr : bit w 11 = wr)
    (hok : specialOk mgt wr sn = true) : decodeFault mgt inFault w = none := by
  have hpriv : (!mgt && decide (16 ≤ sn) && decide (sn ≤ 22)) = false := by
    cases mgt
    · have hle : sn ≤ 15 := by
        by_contra h
        simp [specialOk, h] at hok
      simp
      omega
    · rfl
  have hfields : fieldsOk w = true := by simp [fieldsOk, hop, hzero]
  rw [decodeFault, hop, hnum, hwr, hok, hguard, hfields]
  simpa using hpriv

/-- A core about to run a word of opcode 0x0C that names one of its special registers issues it. -/
theorem Runs.issues_special (h : Runs s n 0x0C (g * 2 ^ 18 + sn * 2 ^ 12 + b2n wr * 2 ^ 11)) (hg : g < 16)
    (hok : specialOk (n.val = 64) wr sn = true) :
    ∃ w, fRd w = g ∧ bits w 17 12 = sn ∧ ∀ e, run (issue n (if wr then .mts else .mfs) e) s = .next (s.after (e w (s.core n))) := by
  have hsn : sn < 64 := by
    by_contra hge
    simp [specialOk, show ¬sn ≤ 15 by omega, show ¬sn ≤ 22 by omega] at hok
  have hb : b2n wr < 2 := by cases wr <;> decide
  obtain ⟨w, ⟨hop, hfield⟩, hguard, hissue⟩ := h.issues_decoded (by norm_num) (by omega)
  have hwr : bit w 11 = wr := by
    have hbits := hfield 11 11 (by omega) (by omega)
    have hb' : bits w 11 11 = b2n wr := by rw [hbits, bits]; omega
    simp only [bits] at hb'
    rw [bit, show w / 2 ^ 11 % 2 = b2n wr by simpa using hb']
    cases wr <;> rfl
  have hnum : bits w 17 12 = sn := by rw [hfield 17 12 (by omega) (by omega), bits]; omega
  refine ⟨w, ?_, hnum, fun e => hissue _ e (by cases wr <;> simp [rowOf, hop, hwr]) ?_⟩
  · rw [fRd, hfield 21 18 (by omega) (by omega), bits]; omega
  · exact decodeFault_special hop hguard (by rw [hfield 10 0 (by omega) (by omega), bits]; omega) hnum hwr hok

/-- MFS of CYCLE_LO reads the low word of the count and captures the high one. -/
theorem mfs_cycle_runs (hg : g < 16) : RunsTo (.mfs n) s n 0x0C (g * 2 ^ 18 + 7 * 2 ^ 12) (fun k =>
    { k with cycleHi := BitVec.ofNat 32 (cyclesIn n (s.acc.ltb - (s.core n).released) / 2 ^ 32) }.setG g
      (BitVec.ofNat 32 (cyclesIn n (s.acc.ltb - (s.core n).released)))) := by
  intro h hflow
  obtain ⟨w, hrd, hnum, hissue⟩ := Runs.issues_special (sn := 7) (wr := false) (by simpa [b2n] using h) hg (by simp [specialOk])
  refine (hissue _).trans ?_
  simp only [hrd, hnum, after_ask]
  refine congrArg _ (after_retire_eq h hflow ?_ ?_)
  · rw [if_pos trivial, specialRead, ofNat_mod]
  · simp

/-- MFS of any other special register writes what it reads, and nothing else. -/
theorem mfs_runs {v : Nat} (hg : g < 16) (hne : sn ≠ 7) (hok : specialOk (n.val = 64) false sn = true)
    (hv : BitVec.ofNat 32 (specialRead s n sn) = BitVec.ofNat 32 v) :
    RunsTo (.mfs n) s n 0x0C (g * 2 ^ 18 + sn * 2 ^ 12) (fun k => k.setG g (BitVec.ofNat 32 v)) := by
  intro h hflow
  obtain ⟨w, hrd, hnum, hissue⟩ := Runs.issues_special (wr := false) (by simpa [b2n] using h) hg hok
  refine (hissue _).trans ?_
  simp only [hrd, hnum, after_ask, if_neg hne, hv]
  exact congrArg _ (after_retire_eq h hflow rfl (by simp))

/-- MTS leaves the special register as `f` says, and nothing else changes. -/
theorem mts_runs {f : Word → Core → Core} (hg : g < 16) (hok : specialOk (n.val = 64) true sn = true)
    (hf : ∀ k v, specialWrite (n = 64) k sn v = f v k) (hwait : ∀ k v, (f v k).wait = k.wait) :
    RunsTo (.mts n) s n 0x0C (g * 2 ^ 18 + sn * 2 ^ 12 + 2 ^ 11) (f ((s.core n).gr g)) := by
  intro h hflow
  obtain ⟨w, hrd, hnum, hissue⟩ := Runs.issues_special (wr := true) (by simpa [b2n] using h) hg hok
  refine (hissue _).trans ?_
  simp only [hrd, hnum]
  exact congrArg _ (after_retire_eq h hflow (hf _ _) (hwait _ _))

end

/-! ### The statement -/

theorem specialOk_low {mgt : Bool} {sn : Nat} (h : sn ≤ 15) : specialOk mgt false sn = true := by simp [specialOk, h]

/-- Settles O8: the laws of the register files, and for each special register its read or its write. -/
theorem registersReadAndWritten : Obligations.RegistersReadAndWritten := by
  unfold Obligations.RegistersReadAndWritten
  refine ⟨fun c i => ⟨fun v j => gr_setG c i j v, fun b j _ hj => pr_setP c i j b hj, fun v j => tr_setT c i j v⟩, ?_⟩
  intro n s g hg c mfs mts cycles
  have hlow : ∀ sn v, sn ≤ 15 → sn ≠ 7 → BitVec.ofNat 32 (specialRead s n sn) = BitVec.ofNat 32 v → mfs sn v :=
    fun sn v hsn hne hv => mfs_runs hg hne (specialOk_low hsn) hv
  have hmts : ∀ sn f, specialOk (n.val = 64) true sn = true → (∀ k v, specialWrite (n = 64) k sn v = f v k) →
      (∀ k v, (f v k).wait = k.wait) → mts sn f := fun sn f hok hf hwait => mts_runs hg hok hf hwait
  clear_value mts
  refine ⟨hlow 0 _ (by norm_num) (by norm_num) rfl, hlow 1 _ (by norm_num) (by norm_num) rfl,
    hlow 2 _ (by norm_num) (by norm_num) rfl, hlow 3 _ (by norm_num) (by norm_num) rfl, hlow 4 _ (by norm_num) (by norm_num) rfl,
    hlow 5 _ (by norm_num) (by norm_num) rfl, hlow 6 _ (by norm_num) (by norm_num) rfl, mfs_cycle_runs hg,
    hlow 8 _ (by norm_num) (by norm_num) rfl, hlow 9 _ (by norm_num) (by norm_num) (ofNat_mod _),
    hlow 10 _ (by norm_num) (by norm_num) (congrArg _ (putBit_zero_true _)), hlow 11 _ (by norm_num) (by norm_num) rfl,
    hlow 12 _ (by norm_num) (by norm_num) rfl, hlow 13 _ (by norm_num) (by norm_num) rfl,
    hlow 14 _ (by norm_num) (by norm_num) (congrArg _ (dpost_eq _)), hlow 15 _ (by norm_num) (by norm_num) rfl, ?_, ?_, ?_, ?_, ?_⟩
  · intro hn
    have hhigh : ∀ sn v, 16 ≤ sn → sn ≤ 22 → specialRead s n sn = v → mfs sn v :=
      fun sn v hl hh hv => mfs_runs hg (by omega) (by simp [specialOk, hn, hh]) (congrArg _ hv)
    exact ⟨hhigh 16 _ (by norm_num) (by norm_num) rfl, hhigh 17 _ (by norm_num) (by norm_num) rfl,
      hhigh 18 _ (by norm_num) (by norm_num) rfl, hhigh 19 _ (by norm_num) (by norm_num) rfl,
      hhigh 20 _ (by norm_num) (by norm_num) rfl, hhigh 21 _ (by norm_num) (by norm_num) rfl,
      hhigh 22 _ (by norm_num) (by norm_num) rfl,
      hmts 6 _ (by simp [specialOk]) (fun k v => by simp [specialWrite, Fin.ext_iff, hn]) fun _ _ => rfl,
      hmts 16 _ (by simp [specialOk, hn]) (fun k v => by simp [specialWrite, ofNat_div_four]) fun _ _ => rfl,
      hmts 18 _ (by simp [specialOk, hn]) (fun _ _ => rfl) fun _ _ => rfl,
      hmts 22 _ (by simp [specialOk, hn]) (fun _ _ => rfl) fun _ _ => rfl⟩
  · exact hmts 1 _ (by simp [specialOk]) (fun _ _ => rfl) fun _ _ => rfl
  · intro hn
    exact hmts 6 _ (by simp [specialOk]) (fun k v => by simp [specialWrite, Fin.ext_iff, Nat.ne_of_lt hn]) fun _ _ => rfl
  · exact hmts 10 _ (by simp [specialOk]) (fun k v => by rw [← ofNat_putBit_zero]; rfl) fun _ _ => rfl
  · exact hmts 12 _ (by simp [specialOk]) (fun _ _ => rfl) fun _ _ => rfl

end Sys2Proof.Machine
end

section
/-!
PROOFS: loads, stores and AMO on L space (O9).
-/
namespace Sys2Proof.Machine

open Sys2Proof

/-! ### Bytes of memory as numbers -/

theorem byte_lt (s : State) (a : Nat) : s.byte a < 256 := (getD s.mem a (memDefault a)).isLt

theorem mem'_succ (s : State) (a k : Nat) : s.mem' a (k + 1) = s.byte a + 256 * s.mem' (a + 1) k := by
  have hshift : (List.range k).map (fun i => s.byte (a + (i + 1))) = (List.range k).map (fun i => s.byte (a + 1 + i)) :=
    List.map_congr_left fun i _ => congrArg s.byte (by omega)
  simp only [State.mem', State.bytes, List.range_succ_eq_map, List.map_cons, List.map_map, ofLe, Nat.add_zero,
    Nat.mod_eq_of_lt (byte_lt s a), Function.comp_def, Nat.succ_eq_add_one, hshift]

theorem mem'_zero (s : State) (a : Nat) : s.mem' a 0 = 0 := rfl

theorem mem'_one (s : State) (a : Nat) : s.mem' a 1 = s.byte a := by rw [mem'_succ, mem'_zero]; rfl

theorem mem'_half (s : State) (a : Nat) : s.mem' a 2 = s.byte a + 2 ^ 8 * s.byte (a + 1) := by
  rw [mem'_succ, mem'_one]
  rfl

theorem mem'_four (s : State) (a : Nat) : s.mem' a 4 =
    s.byte a + 2 ^ 8 * s.byte (a + 1) + 2 ^ 16 * s.byte (a + 2) + 2 ^ 24 * s.byte (a + 3) := by
  simp only [mem'_succ, mem'_zero, Nat.add_assoc, Nat.reduceAdd]
  omega

theorem mem'_eight (s : State) (a : Nat) : s.mem' a 8 = s.mem' a 4 + 2 ^ 32 * s.mem' (a + 4) 4 := by
  simp only [mem'_succ, mem'_zero, Nat.add_assoc, Nat.reduceAdd]
  omega

theorem setWidth_ofNat_half {v : Nat} (h : v < 2 ^ 16) : (BitVec.ofNat 16 v).setWidth 32 = BitVec.ofNat 32 v := by
  apply BitVec.eq_of_toNat_eq
  rw [BitVec.toNat_setWidth, BitVec.toNat_ofNat, BitVec.toNat_ofNat, Nat.mod_eq_of_lt h]

/-! ### L addresses (R52) -/

section
variable {s : State} {n : Fin 65} {rd rs imm : Nat}

/-- The L address of a memory instruction with base register `rs` and offset `imm`. -/
def localAddr (c : Core) (rs imm : Nat) : Nat := (c.gr rs + (BitVec.ofNat 14 imm).signExtend 32).toNat

theorem lAddr_eq {w op : Nat} (h : ImmWord w op rd rs imm) (himm : imm < 2 ^ 14) (c : Core) : lAddr w c = localAddr c rs imm := by
  rw [lAddr, h.rs, h.low 13 0 (by omega) (by omega), bits_of_lt himm, sext_eq 14 imm (by norm_num), localAddr]

theorem after_lAccess (s : State) (n : Nat) {a k : Nat} (e : Effect) (halign : a % k = 0) (hlt : a < lSize n) :
    s.after (lAccess n a k e) = s.after e := by
  rw [lAccess, if_neg (not_not.2 halign), if_neg (Nat.not_le.2 hlt)]

/-! ### Loads (R65) -/

/-- A load writes what its extension makes of the bytes at its address. -/
theorem load_runs {i : Instr} {row : Row} {op width : Nat} {ext : Nat → Word} {v : Word} (hrd : rd < 16) (hrs : rs < 16)
    (himm : imm < 2 ^ 14) (hlt : localAddr (s.core n) rs imm < lSize n) (hi : exec i s = run (loadOp n row width ext) s)
    (halign : localAddr (s.core n) rs imm % width = 0)
    (hv : ext (s.mem' (lBase n + localAddr (s.core n) rs imm) width) = v) (hop : 0x10 ≤ op ∧ op ≤ 0x14 := by norm_num)
    (hrow : ∀ w, opcode w = op → rowOf w = row ∧ fieldsOk w = true := by intro w h0; simp [rowOf, fieldsOk, h0]) :
    RunsTo i s n op (rd * 2 ^ 18 + rs * 2 ^ 14 + imm) (fun c => c.setG rd v) := by
  intro h hflow
  obtain ⟨w, hw, hissue⟩ := h.issues (by omega) (by simp; omega) (by omega)
  have hword := immWord_of_wordOf hw hrd hrs himm
  obtain ⟨hrow', hok⟩ := hrow w hword.opcode
  refine (hi.trans (hissue row _ hrow' hok)).trans ?_
  rw [lAddr_eq hword himm, after_lAccess s n _ halign hlt, after_ask, hv, hword.rd]
  exact congrArg _ (after_retire_eq h hflow rfl (setG_wait ..))

/-- LDT reads eight bytes into a time register. -/
theorem ldt_runs {td : Nat} (htd : td < 4) (hrs : rs < 16) (himm : imm < 2 ^ 14)
    (hlt : localAddr (s.core n) rs imm < lSize n) (halign : localAddr (s.core n) rs imm % 8 = 0) :
    RunsTo (.ldt n) s n 0x18 (td * 4 * 2 ^ 18 + rs * 2 ^ 14 + imm) (fun c =>
      c.setT td (BitVec.ofNat 64 (s.mem' (lBase n + localAddr (s.core n) rs imm) 8))) := by
  intro h hflow
  obtain ⟨w, hw, hissue⟩ := h.issues (by norm_num) (by decide) (by omega)
  have hword := immWord_of_wordOf hw (by omega) hrs himm
  have htd' : bits w 21 20 = td := by rw [hw.field 21 20 (by omega) (by omega), bits]; omega
  have hzero : bits w 19 18 = 0 := by rw [hw.field 19 18 (by omega) (by omega), bits]; omega
  refine (hissue .ldt _ (by simp [rowOf, hword.opcode]) (by simp [fieldsOk, hword.opcode, hzero])).trans ?_
  rw [lAddr_eq hword himm, after_lAccess s n _ halign hlt, after_ask, htd']
  exact congrArg _ (after_retire_eq h hflow rfl (setT_wait ..))

end

/-! ### The words fetch still sees (R82) -/

/-- A relation that each effect of a family keeps from a state to what it leaves, over all of them in turn. -/
theorem rel_forEach {α : Type} {R : State → State → Prop} (hrefl : ∀ s, R s s) (htrans : ∀ s t u, R s t → R t u → R s u)
    {e : α → Effect} (l : List α) (h : ∀ x ∈ l, ∀ s, R s (s.after (e x))) (s : State) : R s (s.after (forEach l e)) := by
  induction l generalizing s with
  | nil => exact hrefl s
  | cons x l ih =>
    rw [after_forEach_cons]
    exact htrans _ _ _ (h x (List.mem_cons_self ..) s) (ih (fun y hy => h y (List.mem_cons_of_mem _ hy)) _)

theorem onlyCore_refl (n : Nat) (s : State) : OnlyCore n s s := ⟨rfl, fun _ _ => rfl⟩

theorem onlyCore_trans {n : Nat} {s t u : State} (h : OnlyCore n s t) (h' : OnlyCore n t u) : OnlyCore n s u := by
  obtain ⟨ht, hcores⟩ := h
  obtain ⟨hu, hcores'⟩ := h'
  refine ⟨?_, fun m hm => (hcores' m hm).trans (hcores m hm)⟩
  rw [hu, ht]

theorem onlyCore_withCore (s : State) (n : Nat) (c : Core) : OnlyCore n s (s.withCore n c) :=
  ⟨rfl, fun _ hm => core_withCore_ne _ _ _ _ hm⟩

/-- Only core `n` differs, and of it only what fetch remembers of the words it has stored to. -/
def OnlyStale (n : Nat) (s t : State) : Prop := OnlyCore n s t ∧ t.core n = { s.core n with stale := (t.core n).stale }

theorem onlyStale_refl (n : Nat) (s : State) : OnlyStale n s s := ⟨onlyCore_refl n s, rfl⟩

theorem onlyStale_trans {n : Nat} {s t u : State} (h : OnlyStale n s t) (h' : OnlyStale n t u) : OnlyStale n s u := by
  obtain ⟨ht, hcore⟩ := h
  obtain ⟨hu, hcore'⟩ := h'
  refine ⟨onlyCore_trans ht hu, ?_⟩
  rw [hcore', hcore]

theorem onlyStale_noteStale (n a k : Nat) (s : State) : OnlyStale n s (s.after (noteStale n a k)) := by
  rw [noteStale, after_ask, after_when]
  split
  · refine rel_forEach (onlyStale_refl n) (fun _ _ _ => onlyStale_trans) _ (fun i _ t => ?_) s
    rw [after_ask, after_when, after_setCore]
    split
    · exact ⟨onlyCore_withCore .., by rw [core_withCore_self]⟩
    · exact onlyStale_refl n t
  · exact onlyStale_refl n s

theorem after_noteStale_of_ne (s : State) {n : Nat} (a k : Nat) (h : n ≠ 64) : s.after (noteStale n a k) = s := by
  rw [noteStale, after_ask, after_when, if_neg (by simpa using h)]

/-! ### Stores (R46, R65) -/

/-- From `s` to `t`, `k` bytes of `x` went to L address `a` of core `n`, whose instruction completed with changes `f`; what
fetch remembers changes for the management core alone, and nothing else does. -/
def StoresAt (s : State) (n : Fin 65) (a k x : Nat) (f : Core → Core) (t : State) : Prop :=
  t = { s with mem := t.mem, cores := t.cores } ∧ MemOnly (lBase n + a) k s t ∧
    (∀ j < k, t.byte (lBase n + a + j) = x / 2 ^ (8 * j) % 256) ∧ (∀ m, m ≠ n.val → t.core m = s.core m) ∧
    t.core n = { f (s.core n) with pc := (s.core n).pc + 4, stale := (t.core n).stale } ∧
    (n.val < 64 → (t.core n).stale = (s.core n).stale)

theorem memOnly_putMem (s : State) (a k v : Nat) : MemOnly a k s (s.after (putMem a k v)) := fun x hx =>
  byte_putBytes_ne s a _ x (by rwa [leBytes_length])

theorem byte_putMem (s : State) (a v : Nat) {k j : Nat} (hj : j < k) :
    (s.after (putMem a k v)).byte (a + j) = v / 2 ^ (8 * j) % 256 := by
  have hput := byte_putBytes s a (leBytes v k) j (by rwa [leBytes_length])
  rwa [leBytes_getD v k j hj, Nat.mod_mod] at hput

section
variable {s : State} {n : Fin 65} {op rest a k x : Nat} {f : Core → Core}

/-- A store that completes its instruction. -/
theorem storesAt_after (h : Runs s n op rest) (hflow : Flows s n)
    (hstale : ∀ c l, f { c with stale := l } = { f c with stale := l }) (hwait : ∀ c, (f c).wait = c.wait) :
    StoresAt s n a k x f (s.after (seq [lStore n a k x, retire n f])) := by
  obtain ⟨⟨hnote, hcores⟩, hcore⟩ := onlyStale_noteStale n a k s
  have hsame : n.val < 64 → s.after (noteStale n a k) = s := fun hn => after_noteStale_of_ne s a k (by omega)
  rw [after_seq_cons, after_seq_cons, after_seq_nil, lStore, after_seq_cons, after_seq_cons, after_seq_nil]
  generalize s.after (noteStale n a k) = u at *
  have hmem : u.after (putMem (lBase n + a) k x) = { u with mem := (u.after (putMem (lBase n + a) k x)).mem } :=
    after_putBytes u _ _
  have honly := memOnly_putMem u (lBase n + a) k x
  have hbytes : ∀ j < k, (u.after (putMem (lBase n + a) k x)).byte (lBase n + a + j) = x / 2 ^ (8 * j) % 256 :=
    fun j hj => byte_putMem u _ x hj
  have hcore' : ∀ m, (u.after (putMem (lBase n + a) k x)).core m = u.core m := core_putBytes u _ _
  generalize u.after (putMem (lBase n + a) k x) = v at *
  have hflow' : Flows v n := by
    rw [Flows, hcore' n, hcore, hmem, hnote]
    exact hflow
  have hf : f (v.core n) = { f (s.core n) with stale := (u.core n).stale } := by rw [hcore' n, hcore, hstale]
  rw [after_retire v n f hflow'.1 hflow'.2]
  have hpc : (v.core n).pc = (s.core n).pc := by rw [hcore' n, hcore]
  refine ⟨?_, fun b hb => ?_, fun j hj => hbytes j hj, fun m hm => ?_, ?_, fun hn => ?_⟩
  · rw [hmem, hnote]
    rfl
  · have hbyte : u.byte b = s.byte b := by rw [hnote]; rfl
    exact (honly b hb).trans hbyte
  · rw [core_withCore_ne _ _ _ _ hm, hcore' m, hcores m hm]
  · rw [core_withCore_self, hf, hpc, ← h.waitsNone, ← hwait (s.core n)]
  · rw [core_withCore_self, hf, hsame hn]

end

section
variable {s : State} {n : Fin 65} {rd rs imm : Nat}

/-- A store of the low bytes of a general register. -/
theorem store_runs {i : Instr} {row : Row} {op width : Nat} (hrd : rd < 16) (hrs : rs < 16) (himm : imm < 2 ^ 14)
    (hflow : Flows s n) (hi : exec i s = run (storeOp n row width) s) (hop : 0x15 ≤ op ∧ op ≤ 0x17 := by norm_num)
    (hrow : ∀ w, opcode w = op → rowOf w = row ∧ fieldsOk w = true := by intro w h0; simp [rowOf, fieldsOk, h0])
    (h : Runs s n op (rd * 2 ^ 18 + rs * 2 ^ 14 + imm)) (halign : localAddr (s.core n) rs imm % width = 0)
    (hlt : localAddr (s.core n) rs imm < lSize n) :
    Answers i s (StoresAt s n (localAddr (s.core n) rs imm) width ((s.core n).gr rd).toNat id) := by
  obtain ⟨w, hw, hissue⟩ := h.issues (by omega) (by simp; omega) (by omega)
  have hword := immWord_of_wordOf hw hrd hrs himm
  obtain ⟨hrow', hok⟩ := hrow w hword.opcode
  refine ⟨_, hi.trans (hissue row _ hrow' hok), ?_⟩
  rw [lAddr_eq hword himm, after_lAccess s n _ halign hlt, hword.rd]
  exact storesAt_after h hflow (fun _ _ => rfl) fun _ => rfl

/-- STT stores the eight bytes of a time register. -/
theorem stt_runs {td : Nat} (htd : td < 4) (hrs : rs < 16) (himm : imm < 2 ^ 14) (hflow : Flows s n)
    (h : Runs s n 0x19 (td * 4 * 2 ^ 18 + rs * 2 ^ 14 + imm)) (halign : localAddr (s.core n) rs imm % 8 = 0)
    (hlt : localAddr (s.core n) rs imm < lSize n) :
    Answers (.stt n) s (StoresAt s n (localAddr (s.core n) rs imm) 8 ((s.core n).tr td).toNat id) := by
  obtain ⟨w, hw, hissue⟩ := h.issues (by norm_num) (by decide) (by omega)
  have hword := immWord_of_wordOf hw (by omega) hrs himm
  have htd' : bits w 21 20 = td := by rw [hw.field 21 20 (by omega) (by omega), bits]; omega
  have hzero : bits w 19 18 = 0 := by rw [hw.field 19 18 (by omega) (by omega), bits]; omega
  refine ⟨_, hissue .stt _ (by simp [rowOf, hword.opcode]) (by simp [fieldsOk, hword.opcode, hzero]), ?_⟩
  rw [lAddr_eq hword himm, after_lAccess s n _ halign hlt, htd']
  exact storesAt_after h hflow (fun _ _ => rfl) fun _ => rfl

theorem setG_withStale (c : Core) (i : Nat) (v : Word) (l : FMap Word) :
    { c with stale := l }.setG i v = { c.setG i v with stale := l } := by
  unfold Core.setG
  split <;> rfl

/-- An AMO stores what its function makes of the old word, and returns the old word. -/
theorem amo_runs {i : Instr} {row : Row} {rt op x : Nat} {old : Word} {f : Word → Word → Word → Word} (hrd : rd < 16)
    (hrs : rs < 16) (hrt : rt < 16) (hop : op < 4) (hflow : Flows s n) (hi : exec i s = run (amoOp n row f) s)
    (hrow : ∀ w, opcode w = 0x1C → bits w 9 8 = op → rowOf w = row)
    (hold : BitVec.ofNat 32 (s.word (lBase n + ((s.core n).gr rs).toNat)) = old)
    (hx : (f old ((s.core n).gr rt) ((s.core n).gr rd)).toNat = x)
    (h : Runs s n 0x1C (rd * 2 ^ 18 + rs * 2 ^ 14 + rt * 2 ^ 10 + op * 2 ^ 8)) (halign : ((s.core n).gr rs).toNat % 4 = 0)
    (hlt : ((s.core n).gr rs).toNat < lSize n) :
    Answers i s (StoresAt s n ((s.core n).gr rs).toNat 4 x (fun k => k.setG rd old)) := by
  obtain ⟨w, hw, hissue⟩ := h.issues (by norm_num) (by decide) (by omega)
  rw [Nat.add_assoc (rd * 2 ^ 18 + rs * 2 ^ 14)] at hw
  have hword := immWord_of_wordOf hw hrd hrs (by omega)
  have hrt' : fRt w = rt := by rw [fRt, hword.low 13 10 (by omega) (by omega), bits]; omega
  have hop' : bits w 9 8 = op := by rw [hword.low 9 8 (by omega) (by omega), bits]; omega
  have hzero : bits w 7 0 = 0 := by rw [hword.low 7 0 (by omega) (by omega), bits]; omega
  refine ⟨_, hi.trans (hissue row _ (hrow w hword.opcode hop') (by simp [fieldsOk, hword.opcode, hzero])), ?_⟩
  simp only [hword.rd, hword.rs, hrt', after_lAccess s n _ halign hlt, after_ask, hold, hx]
  exact storesAt_after h hflow (fun c l => setG_withStale c rd old l) fun c => setG_wait c rd old

end

/-! ### The statement -/

/-- Settles O9: each load reads the bytes at its address, each store and AMO puts them. -/
theorem localLoadsAndStores : Obligations.LocalLoadsAndStores := by
  unfold Obligations.LocalLoadsAndStores
  constructor
  · intro n s rd rs imm hrd hrs himm a b w half low high hlt
    have hb : ∀ i, b i < 256 := fun i => byte_lt s _
    have hhalf : s.mem' (lBase n + a) 2 = b 0 + 2 ^ 8 * b 1 := mem'_half s _
    have hlow : s.mem' (lBase n + a) 4 = low := mem'_four s _
    have hhigh : s.mem' (lBase n + a + 4) 4 = high := mem'_four s _
    refine ⟨load_runs hrd hrs himm hlt rfl (Nat.mod_one _) ?_, load_runs hrd hrs himm hlt rfl (Nat.mod_one _) ?_,
      fun halign => ⟨load_runs hrd hrs himm hlt rfl halign ?_, load_runs hrd hrs himm hlt rfl halign ?_⟩,
      fun halign => load_runs hrd hrs himm hlt rfl halign (congrArg _ hlow), fun halign td htd hd => ?_⟩
    · exact (congrArg _ (mem'_one s _)).trans (sext_eq 8 _ (by norm_num))
    · exact congrArg _ (mem'_one s _)
    · exact (congrArg _ hhalf).trans (sext_eq 16 _ (by norm_num))
    · have h0 := hb 0
      have h1 := hb 1
      exact (congrArg _ hhalf).trans (setWidth_ofNat_half (by omega)).symm
    · subst hd
      rw [← hlow, ← hhigh, ← mem'_eight]
      exact ldt_runs htd hrs himm hlt halign
  · intro n s rd rs rt imm hrd hrs hrt himm hflow c a v stores w
    refine ⟨store_runs hrd hrs himm hflow rfl, store_runs hrd hrs himm hflow rfl, store_runs hrd hrs himm hflow rfl,
      fun td htd hd => ?_, ?_⟩
    · subst hd
      exact stt_runs htd hrs himm hflow
    · intro l old amo
      have hold : BitVec.ofNat 32 (s.word (lBase n + l)) = old := congrArg _ (mem'_four s _)
      refine ⟨amo_runs hrd hrs hrt (by norm_num) hflow rfl ?_ hold rfl, amo_runs hrd hrs hrt (by norm_num) hflow rfl ?_ hold rfl,
        amo_runs hrd hrs hrt (by norm_num) hflow rfl ?_ hold rfl, amo_runs hrd hrs hrt (by norm_num) hflow rfl ?_ hold rfl⟩ <;>
      · intro w hop hfn
        simp [rowOf, hop, hfn]

end Sys2Proof.Machine
end

section
/-!
PROOFS: time instructions (O11).
-/
namespace Sys2Proof.Machine

open Sys2Proof

/-! ### The results, as the statement writes them -/

/-- A field read as a signed number is the signed value of its bits. -/
theorem signed_eq_toInt {k : Nat} (v : Nat) (hk : 0 < k) : signed k v = (BitVec.ofNat k v).toInt := by
  have hp : 2 ^ k = 2 * 2 ^ (k - 1) := by rw [← Nat.pow_succ']; congr 1; omega
  simp only [signed, BitVec.toInt_eq_toNat_cond, BitVec.toNat_ofNat]
  by_cases hm : v % 2 ^ k < 2 ^ (k - 1)
  · rw [if_pos hm, if_pos (by omega)]
  · rw [if_neg hm, if_neg (by omega)]

theorem ofInt_mul_two_pow (x : Word) (sh : Nat) : BitVec.ofInt 64 (x.toInt * 2 ^ sh) = x.signExtend 64 <<< sh := by
  have hpow : BitVec.ofInt 64 (2 ^ sh) = BitVec.twoPow 64 sh := by
    apply BitVec.eq_of_toNat_eq
    rw [BitVec.toNat_ofInt, BitVec.toNat_twoPow]
    norm_cast
  rw [BitVec.ofInt_mul, hpow, BitVec.shiftLeft_eq_mul_twoPow, BitVec.signExtend]

theorem tplus_signed (t : Instant) (imm : Nat) : tplus t (signed 18 imm) = t + (BitVec.ofNat 18 imm).signExtend 64 := by
  rw [tplus, signed_eq_toInt imm (by norm_num), BitVec.signExtend]

/-- TDIFF's result is held inside 32 bits, and SAT says that it was. -/
theorem tdiffOf_eq (a b : Instant) (sh : Nat) : tdiffOf a b sh =
    (let d := (a - b).toInt / 2 ^ sh
     (BitVec.ofInt 32 (max (-2 ^ 31) (min (2 ^ 31 - 1) d)), decide (d < -2 ^ 31 ∨ 2 ^ 31 - 1 < d))) := by
  simp only [tdiffOf, tdiff, clampI, Nat.cast_pow, Nat.cast_ofNat]
  generalize (a - b).toInt / 2 ^ sh = d
  split
  case isTrue hlt =>
    rw [max_eq_left (by omega), decide_eq_true (by omega), decide_eq_true (.inl hlt)]
  case isFalse hge =>
    split
    case isTrue hgt =>
      rw [min_eq_left (by omega), max_eq_right (by omega), decide_eq_true (by omega), decide_eq_true (.inr hgt)]
    case isFalse hle =>
      rw [min_eq_right (by omega), max_eq_right (by omega), decide_eq_false (by omega), decide_eq_false (by omega)]

theorem putBits_low (t : Instant) (g : Word) : BitVec.ofNat 64 (putBits t.toNat 31 0 g.toNat) = t.extractLsb' 32 32 ++ g := by
  have ht := t.isLt
  have hg := g.isLt
  apply BitVec.eq_of_toNat_eq
  rw [putBits_split, toNat_append_add, BitVec.extractLsb'_toNat, BitVec.toNat_ofNat, Nat.shiftRight_eq_div_pow]
  norm_num at *
  omega

theorem putBits_high (t : Instant) (g : Word) : BitVec.ofNat 64 (putBits t.toNat 63 32 g.toNat) = g ++ t.setWidth 32 := by
  have ht := t.isLt
  have hg := g.isLt
  apply BitVec.eq_of_toNat_eq
  rw [putBits_split, toNat_append_add, BitVec.toNat_setWidth, BitVec.toNat_ofNat]
  norm_num at *
  omega

theorem ofNat_low (t : Instant) : BitVec.ofNat 32 t.toNat = t.setWidth 32 := BitVec.eq_of_toNat_eq (by simp)

theorem ofNat_high (t : Instant) : BitVec.ofNat 32 (t.toNat / 2 ^ 32) = t.extractLsb' 32 32 := by
  apply BitVec.eq_of_toNat_eq
  simp [Nat.shiftRight_eq_div_pow]

/-! ### The instructions -/

section
variable {s : State} {n : Fin 65} {td ts rs rd : Nat}

/-- TNOW writes ATB's instant. -/
theorem tnow_runs (htd : td < 4) : RunsTo (.tnow n) s n 0x2A (td * 2 ^ 20) (fun k => k.setT td s.now) := by
  intro h hflow
  obtain ⟨w, hw, hissue⟩ := h.issues (by norm_num) (by decide) (by omega)
  have htd' : bits w 21 20 = td := by rw [hw.field 21 20 (by omega) (by omega), bits]; omega
  have hzero : bits w 19 0 = 0 := by rw [hw.field 19 0 (by omega) (by omega), bits]; omega
  refine (hissue .tnow _ (by simp [rowOf, hw.opcode]) (by simp [fieldsOk, hw.opcode, hzero])).trans ?_
  rw [after_ask, htd']
  exact congrArg _ (after_retire_eq h hflow rfl (setT_wait ..))

theorem tadd_runs {sh : Nat} (htd : td < 4) (hts : ts < 4) (hrs : rs < 16) (hsh : sh < 16) :
    RunsTo (.tadd n) s n 0x2B (td * 2 ^ 20 + ts * 2 ^ 18 + rs * 2 ^ 14 + sh * 2 ^ 10)
      (fun k => k.setT td ((s.core n).tr ts + (((s.core n).gr rs).signExtend 64 <<< sh))) := by
  refine runsTo_of_retire (row := .tadd) rfl fun w ⟨hop, hfield⟩ => ?_
  have htd' : bits w 21 20 = td := by rw [hfield 21 20 (by omega) (by omega), bits]; omega
  have hts' : bits w 19 18 = ts := by rw [hfield 19 18 (by omega) (by omega), bits]; omega
  have hrs' : fRs w = rs := by rw [fRs, hfield 17 14 (by omega) (by omega), bits]; omega
  have hsh' : bits w 13 10 = sh := by rw [hfield 13 10 (by omega) (by omega), bits]; omega
  have hzero : bits w 9 0 = 0 := by rw [hfield 9 0 (by omega) (by omega), bits]; omega
  refine ⟨by simp [rowOf, hop], by simp [fieldsOk, hop, hzero], ?_⟩
  rw [htd', hts', hrs', hsh', tplus, ofInt_mul_two_pow]

theorem taddi_runs {imm : Nat} (htd : td < 4) (hts : ts < 4) (himm : imm < 2 ^ 18) :
    RunsTo (.taddi n) s n 0x2C (td * 2 ^ 20 + ts * 2 ^ 18 + imm)
      (fun k => k.setT td ((s.core n).tr ts + (BitVec.ofNat 18 imm).signExtend 64)) := by
  refine runsTo_of_retire (row := .taddi) rfl fun w ⟨hop, hfield⟩ => ?_
  have htd' : bits w 21 20 = td := by rw [hfield 21 20 (by omega) (by omega), bits]; omega
  have hts' : bits w 19 18 = ts := by rw [hfield 19 18 (by omega) (by omega), bits]; omega
  have himm' : bits w 17 0 = imm := by rw [hfield 17 0 (by omega) (by omega), bits]; omega
  refine ⟨by simp [rowOf, hop], by simp [fieldsOk, hop], ?_⟩
  rw [htd', hts', himm', tplus_signed]

theorem tdiff_runs {sh : Nat} (hrd : rd < 16) (htd : td < 4) (hts : ts < 4) (hsh : sh < 64) :
    let d := ((s.core n).tr td - (s.core n).tr ts).toInt / 2 ^ sh
    RunsTo (.tdiff n) s n 0x2D (rd * 2 ^ 18 + td * 2 ^ 16 + ts * 2 ^ 14 + sh * 2 ^ 8) (fun k =>
      { k.setG rd (BitVec.ofInt 32 (max (-2 ^ 31) (min (2 ^ 31 - 1) d))) with
        sat := k.sat || decide (d < -2 ^ 31 ∨ 2 ^ 31 - 1 < d) }) := by
  intro d
  refine runsTo_of_retire (row := .tdiff) rfl fun w ⟨hop, hfield⟩ => ?_
  have hrd' : fRd w = rd := by rw [fRd, hfield 21 18 (by omega) (by omega), bits]; omega
  have htd' : bits w 17 16 = td := by rw [hfield 17 16 (by omega) (by omega), bits]; omega
  have hts' : bits w 15 14 = ts := by rw [hfield 15 14 (by omega) (by omega), bits]; omega
  have hsh' : bits w 13 8 = sh := by rw [hfield 13 8 (by omega) (by omega), bits]; omega
  have hzero : bits w 7 0 = 0 := by rw [hfield 7 0 (by omega) (by omega), bits]; omega
  refine ⟨by simp [rowOf, hop], by simp [fieldsOk, hop, hzero], ?_⟩
  rw [hrd', htd', hts', hsh', tdiffOf_eq]

/-- TMV of kind `op` changes its core as that kind's arm says. -/
theorem tmv_runs {op : Nat} {G : Nat → Core → Core → Core} {f : Core → Core} (hrd : rd < 16) (htd : td < 4)
    (hi : exec (.tmv n) s = run (issue n .tmv fun w c => retire n (G w c)) s)
    (hG : ∀ w, fRd w = rd → bits w 17 16 = td → bits w 15 14 = op → G w (s.core n) (s.core n) = f (s.core n))
    (hop : op < 4 := by norm_num) (hwait : (f (s.core n)).wait = (s.core n).wait := by simp) :
    RunsTo (.tmv n) s n 0x2F (rd * 2 ^ 18 + td * 2 ^ 16 + op * 2 ^ 14) f := by
  refine runsTo_of_retire hi (fun w ⟨hopcode, hfield⟩ => ?_) (hwait := hwait)
  have hzero : bits w 13 0 = 0 := by rw [hfield 13 0 (by omega) (by omega), bits]; omega
  refine ⟨by simp [rowOf, hopcode], by simp [fieldsOk, hopcode, hzero], hG w ?_ ?_ ?_⟩
  · rw [fRd, hfield 21 18 (by omega) (by omega), bits]; omega
  · rw [hfield 17 16 (by omega) (by omega), bits]; omega
  · rw [hfield 15 14 (by omega) (by omega), bits]; omega

/-- TWAIT for an instant not yet past stalls its core. -/
theorem exec_twait (htd : td < 4) (hlate : tdiff s.now ((s.core n).tr td) ≤ 0) (h : Runs s n 0x30 (td * 2 ^ 8)) :
    exec (.twait n) s = .next (s.withCore n { s.core n with wait := .twait ((s.core n).tr td), since := s.acc.ltb }) := by
  have hrest : td * 2 ^ 8 = devRest 0 0 0 td 0 := by simp [devRest]
  rw [hrest] at h
  obtain ⟨w, hw, hissue⟩ := h.issues (by norm_num) (by decide) (devRest_lt (by omega) (by omega) (by omega) htd (by omega))
  have hdev := devWord_of_wordOf hw (by omega) (by omega) (by omega) htd (by omega)
  refine (hissue .twait _ (by simp [rowOf, hdev.opcode])
    (by simp [fieldsOk, hdev.opcode, hdev.rd, hdev.rs, hdev.rt, hdev.sub, hdev.low])).trans ?_
  rw [after_ask, hdev.ta, if_neg (not_lt.2 hlate)]
  rfl

/-- The fields of a TARM word with or without DISARM, and its row. -/
theorem tarmWord_decodes {w i : Nat} (h : DevWord w 0x31 i 0 0 0 td) (hi : i < 8) :
    rowOf w = (if i < 4 then .tarm else .tarmDisarm) ∧ fieldsOk w = true := by
  have hbit : bit w 6 = decide (4 ≤ i) := by
    have hsub : w / 2 ^ 4 % 2 ^ 4 = i := h.sub
    rw [bit]
    congr 1
    apply propext
    omega
  constructor
  · simp only [rowOf, h.opcode, hbit]
    by_cases h4 : i < 4
    · simp [h4]
    · simp [h4, not_lt.1 h4]
  · simp [fieldsOk, h.opcode, h.rd, h.rs, h.rt, h.sub, h.low, hi]

theorem setDstat_tarm (c : Core) : c.setDstat 1 0 0 0 = { c with dstat := 0x00000100#32, dlat := 0 } := by
  simp [Core.setDstat]

theorem setDstat_zero (c : Core) (lat : Nat) :
    c.setDstat 0 0 0 lat = { c with dstat := 0, dlat := BitVec.ofNat 32 (min lat 0xFFFFFFFF) } := by
  simp [Core.setDstat]

/-- TARM with an instant not yet past arms its timer. -/
theorem tarm_runs {i : Nat} (htd : td < 4) (hlate : tdiff s.now ((s.core n).tr td) ≤ 0) (hi : i < 4) :
    RunsTo (.tarm n) s n 0x31 (td * 2 ^ 8 + i * 2 ^ 4) (fun k =>
      { k with dstat := 0x00000100#32, dlat := 0, timers := insertKey k.timers i ((s.core n).tr td) }) := by
  intro h hflow
  have hrest : td * 2 ^ 8 + i * 2 ^ 4 = devRest 0 0 0 td i := by simp [devRest]
  rw [hrest] at h
  obtain ⟨w, hw, hissue⟩ := h.issues (by norm_num) (by decide) (devRest_lt (by omega) (by omega) (by omega) htd (by omega))
  have hdev := devWord_of_wordOf hw (by omega) (by omega) (by omega) htd (by omega)
  obtain ⟨hrow, hok⟩ := tarmWord_decodes hdev (by omega)
  refine (hissue .tarm _ (hrow.trans (if_pos hi)) hok).trans ?_
  rw [after_ask, hdev.ta, if_neg (not_lt.2 hlate), hdev.sub, Nat.mod_eq_of_lt hi]
  simp only [setDstat_tarm]
  exact congrArg _ (after_retire_eq h hflow rfl rfl)

/-- TARM with DISARM cancels its timer. -/
theorem tarmDisarm_runs {i : Nat} (htd : td < 4) (hi : i < 4) :
    RunsTo (.tarmDisarm n) s n 0x31 (td * 2 ^ 8 + (4 + i) * 2 ^ 4) (fun k =>
      { k with dstat := 0x00000100#32, dlat := 0, timers := eraseKey k.timers i }) := by
  refine runsTo_of_retire (row := .tarmDisarm) rfl (fun w hw => ?_) (hwait := rfl)
  have hrest : td * 2 ^ 8 + (4 + i) * 2 ^ 4 = devRest 0 0 0 td (4 + i) := by simp [devRest]
  have hdev := devWord_of_wordOf (hrest ▸ hw) (by omega) (by omega) (by omega) htd (by omega)
  obtain ⟨hrow, hok⟩ := tarmWord_decodes hdev (by omega)
  refine ⟨hrow.trans (if_neg (by omega)), hok, ?_⟩
  rw [hdev.sub, Nat.add_mod_left, Nat.mod_eq_of_lt hi, setDstat_tarm]

/-- A TWAIT whose instant has come completes. -/
theorem twaitExpire_completes {t : Instant} (hwait : (s.core n).wait = .twait t) (hreached : s.reached t = true)
    (hflow : Flows s n) : Answers (.twaitExpire n) s (fun u => OnlyCore n s u ∧
      u.core n = { s.core n with wait := .none, pc := (s.core n).pc + 4, dstat := 0, dlat := (u.core n).dlat }) := by
  have hserve : exec (.twaitExpire n) s = .next (s.after (retire n (fun k => k.setDstat 0 0 0 (s.waited n)))) := by
    show execTwaitExpire n s = _
    rw [execTwaitExpire, run_eq, after_ask, hwait]
    simp only [after_when, hreached, if_true]
  refine ⟨_, hserve, ?_⟩
  rw [after_retire s n _ hflow.1 hflow.2, setDstat_zero]
  generalize BitVec.ofNat 32 (min (s.waited n) 0xFFFFFFFF) = lat
  exact ⟨onlyCore_withCore .., by rw [core_withCore_self]⟩

end

/-! ### The statement -/

/-- Settles O11: each instruction's own lemma, with its result in the statement's terms. -/
theorem timeResults : Obligations.TimeResults := by
  unfold Obligations.TimeResults
  intro n s td ts rs rd htd hts hrs hrd c ns
  refine ⟨tnow_runs htd, fun sh hsh => tadd_runs htd hts hrs hsh, fun imm himm => taddi_runs htd hts himm,
    fun sh hsh => tdiff_runs hrd htd hts hsh, ?_, fun hlate => ⟨exec_twait htd hlate, fun i hi => tarm_runs htd hlate hi⟩,
    fun i hi => tarmDisarm_runs htd hi, fun t hwait hreached hflow =>
      twaitExpire_completes hwait (decide_eq_true hreached) hflow⟩
  intro tmv
  refine ⟨tmv_runs hrd htd rfl ?_, tmv_runs hrd htd rfl ?_, tmv_runs hrd htd rfl ?_, tmv_runs hrd htd rfl ?_⟩
  · intro w hrd' htd' hop
    simp only [hrd', htd', hop, ofNat_low]
    rfl
  · intro w hrd' htd' hop
    simp only [hrd', htd', hop, ofNat_high]
    rfl
  · intro w hrd' htd' hop
    simp only [hrd', htd', hop, putBits_low]
    rfl
  · intro w hrd' htd' hop
    simp only [hrd', htd', hop, putBits_high]
    rfl

end Sys2Proof.Machine
end

section
/-!
PROOFS: what a fault leaves, and the faults of an instruction's own (O21).
-/
namespace Sys2Proof.Machine

open Sys2Proof

/-! ### A core stops (R70, R71) -/

/-- From `s` to `t` core `n` has stopped at `pc`: FAULT and FAULT_ADDR hold `cause` and `addr`, its registers and memory are as
they were. -/
structure Stops (s : State) (n pc cause addr : Nat) (faulted : Bool) (t : State) : Prop where
  core : t.core n = { s.core n with
    faulted := faulted, run := .halted, pc := pc, statePc := pc % 2 ^ 16, wait := .none, budget := (t.core n).budget
    haltReq := false, killReq := false }
  mem : t.mem = s.mem
  fault : t.regN (SEQ.FAULT n) =
    pc % 2 ^ 16 * 2 ^ 16 + b2n (s.core n).init * 2 ^ 15 + (s.core n).slot * 2 ^ 8 + cause
  addr : t.regN (SEQ.FAULT_ADDR n) = addr

theorem b2n_lt (b : Bool) : b2n b < 2 := by cases b <;> decide

theorem core_apply_reg (s : State) (k : Nat) (v : Word) (m : Nat) : (s.apply (.reg k v)).core m = s.core m := rfl

theorem regN_apply_self (s : State) (k v : Nat) (h : v < 2 ^ 32) : (s.apply (.reg k (BitVec.ofNat 32 v))).regN k = v := by
  rw [State.regN, reg_apply_self, BitVec.toNat_ofNat, Nat.mod_eq_of_lt h]

/-- What a record of FAULT leaves: the two registers, and nothing else. -/
theorem recordFault_spec (s : State) {n : Nat} (hn : n < 64) (pc : Nat) {cause addr slot : Nat} (init : Bool) (hslot : slot < 16)
    (hcause : cause < 2 ^ 8) (haddr : addr < 2 ^ 32) : let t := s.after (recordFault n pc cause addr init slot)
    t = { s with regs := t.regs } ∧
      t.regN (SEQ.FAULT n) = pc % 2 ^ 16 * 2 ^ 16 + b2n init * 2 ^ 15 + slot * 2 ^ 8 + cause ∧
      t.regN (SEQ.FAULT_ADDR n) = addr := by
  have hinit := b2n_lt init
  have hne : SEQ.FAULT n ≠ SEQ.FAULT_ADDR n := by simp only [SEQ.FAULT, SEQ.FAULT_ADDR]; omega
  have hrecord : s.after (recordFault n pc cause addr init slot) = (s.apply (.reg (SEQ.FAULT n)
      (BitVec.ofNat 32 (pc % 2 ^ 16 * 2 ^ 16 + b2n init * 2 ^ 15 + slot * 2 ^ 8 + cause)))).apply
        (.reg (SEQ.FAULT_ADDR n) (BitVec.ofNat 32 addr)) := by
    simp only [recordFault, after_when, decide_eq_true (show n ≠ 64 by omega), if_true, after_seq_cons, after_seq_nil, after_setReg]
  intro t
  rw [show t = _ from hrecord]
  refine ⟨rfl, ?_, regN_apply_self _ _ _ haddr⟩
  rw [State.regN, reg_apply_ne _ _ _ _ hne]
  exact regN_apply_self _ _ _ (by omega)

section
variable {s : State} {n pc cause addr : Nat}

/-- Core `n` as a stop at `pc` leaves it. -/
def stopped (s : State) (n pc : Nat) (faulted : Bool) : Core :=
  { s.core n with faulted := faulted, run := .halted, pc := pc, statePc := pc % 2 ^ 16, wait := .none, budget := s.hleft n
                  haltReq := false, killReq := false }

theorem after_halt (s : State) (n pc : Nat) :
    let u := s.after (recordFault n pc 0 0 (s.core n).init (s.core n).slot)
    s.after (halt n pc) = u.withCore n (stopped u n pc (u.core n).faulted) := by
  intro u
  rw [halt, after_ask, after_seq_cons, after_seq_cons, after_seq_nil]
  rfl

/-- HALT, KILL and STEP stop a core with cause 0. -/
theorem stops_halt (hn : n < 64) (hslot : (s.core n).slot < 16) : Stops s n pc 0 0 (s.core n).faulted (s.after (halt n pc)) := by
  obtain ⟨hframe, hfault, haddr⟩ := recordFault_spec s hn pc (s.core n).init hslot (show 0 < 2 ^ 8 by norm_num)
    (show 0 < 2 ^ 32 by norm_num)
  rw [after_halt]
  generalize s.after (recordFault n pc 0 0 (s.core n).init (s.core n).slot) = u at *
  have hcore : u.core n = s.core n := by rw [hframe]; rfl
  refine ⟨?_, ?_, hfault, haddr⟩
  · rw [core_withCore_self, stopped, hcore]
  · rw [hframe]
    rfl

theorem skipsEvents_seqReg {k : Nat} (h : k / 0x10000 = 0x4009) : SkipsEvents (State.reg · k) :=
  skipsEvents_reg (by rintro rfl; revert h; decide) (by omega)

theorem after_seqFault (hskip : s.flag (SEQ.CORE_EXP_FAULT_SKIP n) = false) (sub : Option Nat) :
    ∃ arg, let v := (s.after (recordFault n pc cause addr (s.core n).init (s.core n).slot)).after (fire 0 arg)
      s.after (seqFault n pc cause addr sub) = v.withCore n (stopped v n pc true) := by
  unfold seqFault
  rw [after_ask, if_neg (by simp [hskip]), after_seq_cons, after_seq_cons, after_seq_cons, after_seq_nil]
  exact ⟨_, rfl⟩

/-- A fault of a sequencer core stops it, unless FAULT_SKIP is set. -/
theorem stops_seqFault (hn : n < 64) (hskip : s.flag (SEQ.CORE_EXP_FAULT_SKIP n) = false) (hslot : (s.core n).slot < 16)
    (hcause : cause < 2 ^ 8) (haddr : addr < 2 ^ 32) (sub : Option Nat) :
    Stops s n pc cause addr true (s.after (seqFault n pc cause addr sub)) := by
  obtain ⟨hframe, hfault, haddr⟩ := recordFault_spec s hn pc (s.core n).init hslot hcause haddr
  obtain ⟨arg, hseq⟩ := after_seqFault (pc := pc) (cause := cause) (addr := addr) hskip sub
  rw [hseq]
  generalize s.after (recordFault n pc cause addr (s.core n).init (s.core n).slot) = u at *
  have hcores : (u.after (fire 0 arg)).cores = s.cores := (keeps_fire skipsEvents_cores (by norm_num) arg u).trans (by rw [hframe])
  have hmem : (u.after (fire 0 arg)).mem = s.mem := (keeps_fire skipsEvents_mem (by norm_num) arg u).trans (by rw [hframe])
  have hreg : ∀ k, k / 0x10000 = 0x4009 → (u.after (fire 0 arg)).regN k = u.regN k := fun k hk =>
    congrArg _ (keeps_fire (skipsEvents_seqReg hk) (by norm_num) arg u)
  generalize u.after (fire 0 arg) = v at *
  have hcore : v.core n = s.core n := by rw [State.core, hcores]; rfl
  refine ⟨?_, hmem, ?_, ?_⟩
  · rw [core_withCore_self, stopped, hcore]
  · exact (hreg _ (by simp only [SEQ.FAULT]; omega)).trans hfault
  · exact (hreg _ (by simp only [SEQ.FAULT_ADDR]; omega)).trans haddr

theorem stops_faultWith (hn : n < 64) (hskip : s.flag (SEQ.CORE_EXP_FAULT_SKIP n) = false) (hslot : (s.core n).slot < 16)
    (hcause : cause < 2 ^ 8) (haddr : addr < 2 ^ 32) (sub : Option Nat) :
    Stops s n pc cause addr true (s.after (faultWith n pc cause addr sub)) := by
  rw [faultWith, if_neg (by omega)]
  exact stops_seqFault hn hskip hslot hcause haddr sub

end

/-! ### Faults of an instruction's own -/

/-- A word of two registers with nothing below them. -/
theorem immWord_zero {w op rd rs : Nat} (h : WordOf w op (rd * 2 ^ 18 + rs * 2 ^ 14)) (hrd : rd < 16) (hrs : rs < 16) :
    ImmWord w op rd rs 0 :=
  immWord_of_wordOf (by rwa [Nat.add_zero]) hrd hrs (by norm_num)

/-- Command `i`, issued at the word of `op` and `rest`, performs nothing: its core halts with cause `cause` and FAULT_ADDR
`addr`. -/
def Faults (i : Instr) (s : State) (n : Fin 64) (op rest cause addr : Nat) : Prop :=
  Runs s n op rest → Answers i s (fun t => let k := t.core n
    let c := s.core n
    k.run = .halted ∧ k.faulted = true ∧ k.g = c.g ∧ k.p = c.p ∧ k.t = c.t ∧ k.posted = c.posted ∧ t.mem = s.mem ∧
      t.regN (SEQ.FAULT n) = c.pc % 2 ^ 16 * 2 ^ 16 + b2n c.init * 2 ^ 15 + c.slot * 2 ^ 8 + cause ∧
      t.regN (SEQ.FAULT_ADDR n) = addr)

section
variable {s : State} {n : Fin 64} {i : Instr} {row : Row} {op rest rd rs rt : Nat} (hslot : (s.core n).slot < 16)
  (hskip : s.flag (SEQ.CORE_EXP_FAULT_SKIP n) = false)
include hslot hskip

/-- A command whose row's effect, at its word, is to fault. -/
theorem faults_of_issue {e : Nat → Core → Effect} {cause addr : Nat} (sub : Option Nat)
    (hi : exec i s = run (issue n row e) s)
    (hw : ∀ w, WordOf w op rest → rowOf w = row ∧ fieldsOk w = true ∧
      s.after (e w (s.core n)) = s.after (faultWith n (s.core n).pc cause addr sub))
    (haddr : addr < 2 ^ 32) (hcause : cause < 2 ^ 8 := by norm_num) (hrest : rest < 2 ^ 22 := by omega)
    (hop : op < 64 ∧ op ∉ [0x0C, 0x0E, 0x1D] := by decide) : Faults i s n op rest cause addr := by
  intro h
  obtain ⟨w, hword, hissue⟩ := h.issues hop.1 hop.2 hrest
  obtain ⟨hrow, hok, hfault⟩ := hw w hword
  have hstops : Stops s n (s.core n).pc cause addr true (s.after (e w (s.core n))) :=
    hfault ▸ stops_faultWith n.isLt hskip hslot hcause haddr sub
  refine ⟨_, hi.trans (hissue row e hrow hok), ?_⟩
  obtain ⟨hcore, hmem, hrecord, haddr'⟩ := hstops
  rw [hcore]
  exact ⟨rfl, rfl, rfl, rfl, rfl, rfl, hmem, hrecord, haddr'⟩

/-- A misaligned L address, and one out of range (R52). -/
theorem faults_of_lAccess {width a : Nat} {addr : Nat → Core → Nat} {e : Nat → Core → Effect}
    (hi : exec i s = run (issue n row fun w c => lAccess n (addr w c) width (e w c)) s) (ha : a < 2 ^ 32)
    (hw : ∀ w, WordOf w op rest → rowOf w = row ∧ fieldsOk w = true ∧ addr w (s.core n) = a)
    (hrest : rest < 2 ^ 22 := by omega) (hop : op < 64 ∧ op ∉ [0x0C, 0x0E, 0x1D] := by decide) :
    (a % width ≠ 0 → Faults i s n op rest 3 a) ∧ (a % width = 0 → 0x8000 ≤ a → Faults i s n op rest 4 a) := by
  have hsize : lSize n = 0x8000 := if_neg (by omega)
  constructor
  · intro halign
    refine faults_of_issue hslot hskip none hi (fun w hword => ?_) ha (hrest := hrest) (hop := hop)
    obtain ⟨hrow, hok, haddr⟩ := hw w hword
    refine ⟨hrow, hok, ?_⟩
    rw [haddr, lAccess, if_pos halign, fault, after_ask]
  · intro halign hrange
    refine faults_of_issue hslot hskip none hi (fun w hword => ?_) ha (hrest := hrest) (hop := hop)
    obtain ⟨hrow, hok, haddr⟩ := hw w hword
    refine ⟨hrow, hok, ?_⟩
    rw [haddr, lAccess, if_neg (not_not.2 halign), if_pos (hsize ▸ hrange), fault, after_ask]

/-- A load or store of general registers at offset 0 faults at the address its base register holds. -/
theorem faults_of_memory {width : Nat} {e : Nat → Core → Effect} (hrd : rd < 16) (hrs : rs < 16)
    (hi : exec i s = run (issue n row fun w c => lAccess n (lAddr w c) width (e w c)) s)
    (hop : 0x10 ≤ op ∧ op ≤ 0x17 := by norm_num)
    (hrow : ∀ w, opcode w = op → rowOf w = row ∧ fieldsOk w = true := by intro w h0; simp [rowOf, fieldsOk, h0]) :
    let a := ((s.core n).gr rs).toNat
    (a % width ≠ 0 → Faults i s n op (rd * 2 ^ 18 + rs * 2 ^ 14) 3 a) ∧
      (a % width = 0 → 0x8000 ≤ a → Faults i s n op (rd * 2 ^ 18 + rs * 2 ^ 14) 4 a) := by
  refine faults_of_lAccess hslot hskip hi ((s.core n).gr rs).isLt (fun w hw => ?_) (hop := ⟨by omega, by simp; omega⟩)
  have hword := immWord_zero hw hrd hrs
  obtain ⟨hrow', hok⟩ := hrow w hword.opcode
  exact ⟨hrow', hok, by rw [lAddr_eq hword (by norm_num), localAddr]; simp⟩

/-- LDT and STT at offset 0. -/
theorem faults_of_timeMemory {e : Nat → Core → Effect} (hrs : rs < 16)
    (hi : exec i s = run (issue n row fun w c => lAccess n (lAddr w c) 8 (e w c)) s)
    (halign : ((s.core n).gr rs).toNat % 8 = 0) (hrange : 0x8000 ≤ ((s.core n).gr rs).toNat)
    (hop : op = 0x18 ∨ op = 0x19 := by simp)
    (hrow : ∀ w, opcode w = op → bits w 19 18 = 0 → rowOf w = row ∧ fieldsOk w = true := by
      intro w h0 h1; simp [rowOf, fieldsOk, h0, h1]) :
    Faults i s n op (rs * 2 ^ 14) 4 ((s.core n).gr rs).toNat := by
  refine (faults_of_lAccess hslot hskip hi ((s.core n).gr rs).isLt (fun w hw => ?_)
    (hop := ⟨by omega, by simp; omega⟩)).2 halign hrange
  have hword := immWord_zero (rd := 0) (by rwa [Nat.zero_mul, Nat.zero_add]) (by norm_num) hrs
  obtain ⟨hrow', hok⟩ := hrow w hword.opcode (by rw [hw.field 19 18 (by omega) (by omega), bits]; omega)
  exact ⟨hrow', hok, by rw [lAddr_eq hword (by norm_num), localAddr]; simp⟩

/-- An AMO. -/
theorem faults_of_amo {k : Nat} {f : Word → Word → Word → Word} (hrd : rd < 16) (hrs : rs < 16) (hk : k < 4)
    (hi : exec i s = run (amoOp n row f) s) (hrest : rest = rd * 2 ^ 18 + rs * 2 ^ 14 + k * 2 ^ 8 := by simp)
    (hrow : ∀ w, opcode w = 0x1C → bits w 9 8 = k → rowOf w = row := by intro w h0 h1; simp [rowOf, h0, h1]) :
    let a := ((s.core n).gr rs).toNat
    (a % 4 ≠ 0 → Faults i s n 0x1C rest 3 a) ∧ (a % 4 = 0 → 0x8000 ≤ a → Faults i s n 0x1C rest 4 a) := by
  subst hrest
  refine faults_of_lAccess hslot hskip (addr := fun w c => (c.gr (fRs w)).toNat) hi ((s.core n).gr rs).isLt fun w hw => ?_
  have hword := immWord_of_wordOf hw hrd hrs (by omega)
  have hk' : bits w 9 8 = k := by rw [hword.low 9 8 (by omega) (by omega), bits]; omega
  have hzero : bits w 7 0 = 0 := by rw [hword.low 7 0 (by omega) (by omega), bits]; omega
  exact ⟨hrow w hword.opcode hk', by simp [fieldsOk, hword.opcode, hzero], by rw [hword.rs]⟩

/-- LDF and STF of two bytes at an odd address. -/
theorem faults_of_fabric {e : Nat → Core → Effect} (hrd : rd < 16) (hrs : rs < 16)
    (hi : exec i s = run (issue n row fun w c => let a := fAddr w c
      let width := 2 ^ bits w 13 12
      if a % width ≠ 0 then fault n 3 (a % 2 ^ 32) else e w c) s)
    (hodd : ((s.core n).gr rs).toNat % 2 ≠ 0) (hop : op = 0x1A ∨ op = 0x1B := by simp)
    (hrow : ∀ w, opcode w = op → bits w 13 12 = 1 → rowOf w = row ∧ fieldsOk w = true := by
      intro w h0 h1; simp [rowOf, fieldsOk, h0, h1]) :
    Faults i s n op (rd * 2 ^ 18 + rs * 2 ^ 14 + 2 ^ 12) 3 ((s.core n).gr rs).toNat := by
  have hlt := ((s.core n).gr rs).isLt
  refine faults_of_issue hslot hskip none hi (fun w hw => ?_) hlt (hop := ⟨by omega, by simp; omega⟩)
  have hw' : WordOf w op (rd * 2 ^ 18 + rs * 2 ^ 14 + 1 * 2 ^ 12 + 0) := by simpa using hw
  obtain ⟨hopcode, -, hwidth, haddr⟩ := fabricWord_of_wordOf hw' hrd hrs (by norm_num) (by norm_num)
  obtain ⟨hrow', hok⟩ := hrow w hopcode hwidth
  refine ⟨hrow', hok, ?_⟩
  have hzero : (s.core n).gr rs + (BitVec.ofNat 12 0).signExtend 32 = (s.core n).gr rs := by simp
  simp only [haddr, hwidth, fabricAddr, hzero]
  rw [if_pos (by omega), Nat.add_comm, Nat.add_mul_mod_self_right, Nat.mod_eq_of_lt hlt, fault, after_ask]

/-- JALR to an address that is not a word's, and to one outside I space (R66). -/
theorem faults_of_jalr (hrd : rd < 16) (hrs : rs < 16) :
    let a := ((s.core n).gr rs).toNat
    (a % 4 ≠ 0 → Faults (.jalr n.castSucc) s n 0x22 (rd * 2 ^ 18 + rs * 2 ^ 14) 3 a) ∧
      (a % 4 = 0 → 0x10000 ≤ a → Faults (.jalr n.castSucc) s n 0x22 (rd * 2 ^ 18 + rs * 2 ^ 14) 5 a) := by
  intro a
  have hlt : a < 2 ^ 32 := ((s.core n).gr rs).isLt
  have hsize : iSize n = 0x10000 := if_neg (by omega)
  have hfields : ∀ w, WordOf w 0x22 (rd * 2 ^ 18 + rs * 2 ^ 14) → rowOf w = .jalr ∧ fieldsOk w = true ∧
      ((s.core n).gr (fRs w)).toNat = a := fun w hw => by
    have hword := immWord_zero hw hrd hrs
    have hzero : bits w 13 0 = 0 := by rw [hword.low 13 0 (by omega) (by omega)]; rfl
    exact ⟨by simp [rowOf, hword.opcode], by simp [fieldsOk, hword.opcode, hzero], by rw [hword.rs]⟩
  constructor
  · intro halign
    refine faults_of_issue hslot hskip none rfl (fun w hw => ?_) hlt
    obtain ⟨hrow, hok, haddr⟩ := hfields w hw
    refine ⟨hrow, hok, ?_⟩
    simp only [haddr]
    rw [if_pos halign, fault, after_ask, Fin.val_castSucc]
  · intro halign hrange
    refine faults_of_issue hslot hskip none rfl (fun w hw => ?_) hlt
    obtain ⟨hrow, hok, haddr⟩ := hfields w hw
    refine ⟨hrow, hok, ?_⟩
    have hmod : unsigned 32 (a : Int) = a := by
      simp only [unsigned]
      omega
    simp only [haddr]
    rw [if_neg (not_not.2 halign), jumpTo, if_pos (.inr (by rw [Fin.val_castSucc, hsize]; omega)), hmod, fault, after_ask, Fin.val_castSucc]

/-- A device command whose row's effect, at its word, is to fault. -/
theorem faults_of_device {e : Nat → Core → Effect} {d r sub cause addr : Nat} (code : Option Nat) (hd : d < 16) (hrs : rs < 16)
    (hr : r < 16) (hi : exec i s = run (issue n row e) s)
    (he : ∀ w, DevWord w op sub d rs r 0 → s.after (e w (s.core n)) = s.after (faultWith n (s.core n).pc cause addr code))
    (haddr : addr < 2 ^ 32) (hcause : cause < 2 ^ 8 := by norm_num) (hrest : rest = devRest d rs r 0 sub := by simp [devRest])
    (hsub : sub < 16 := by norm_num) (hop : op < 64 ∧ op ∉ [0x0C, 0x0E, 0x1D] := by decide)
    (hrow : ∀ w, DevWord w op sub d rs r 0 → rowOf w = row ∧ fieldsOk w = true := by
      intro w hw; simp [rowOf, fieldsOk, hw.opcode, hw.sub, hw.rd, hw.rt, hw.ta, hw.low]) :
    Faults i s n op rest cause addr := by
  have hlt := devRest_lt hd hrs hr (show 0 < 4 by norm_num) hsub
  rw [hrest]
  refine faults_of_issue hslot hskip code hi (fun w hw => ?_) haddr (hcause := hcause) (hrest := hlt) (hop := hop)
  have hdev := devWord_of_wordOf hw hd hrs hr (by norm_num) hsub
  obtain ⟨hrow', hok⟩ := hrow w hdev
  exact ⟨hrow', hok, he w hdev⟩

/-- An L block that is misaligned, and one that reaches out of L space (R97). -/
theorem faults_of_lBlock {e : Nat → Core → List Word → Effect} {d : Nat} (hd : d < 16) (hrs : rs < 16)
    (hi : exec i s = run (issue n row fun w c => lBlock n (c.gr (fRs w)).toNat (e w c)) s)
    (hrest : rest = devRest d rs 0 0 0 := by simp [devRest]) (hop : op < 64 ∧ op ∉ [0x0C, 0x0E, 0x1D] := by decide)
    (hrow : ∀ w, DevWord w op 0 d rs 0 0 → rowOf w = row ∧ fieldsOk w = true := by
      intro w hw; simp [rowOf, fieldsOk, hw.opcode, hw.sub, hw.rd, hw.rt, hw.ta, hw.low]) :
    let a := ((s.core n).gr rs).toNat
    (a % 16 ≠ 0 → Faults i s n op rest 3 a) ∧ (a % 16 = 0 → 0x8000 ≤ a → Faults i s n op rest 4 a) := by
  intro a
  have hsize : lSize n = 0x8000 := if_neg (by omega)
  constructor
  · intro halign
    refine faults_of_device hslot hskip none hd hrs (by norm_num) hi (fun w hw => ?_) ((s.core n).gr rs).isLt (hrest := hrest)
      (hop := hop) (hrow := hrow)
    rw [hw.rs, lBlock, after_ask, if_pos halign, fault, after_ask]
  · intro halign hrange
    refine faults_of_device hslot hskip none hd hrs (by norm_num) hi (fun w hw => ?_) ((s.core n).gr rs).isLt (hrest := hrest)
      (hop := hop) (hrow := hrow)
    rw [hw.rs, lBlock, after_ask, if_neg (not_not.2 halign), if_pos (by omega), fault, after_ask]

/-- An operand out of range (R103). -/
theorem faults_of_inRange {e : Nat → Core → Effect} {ok : Word → Bool} {d r sub addr : Nat} (hd : d < 16) (hrs : rs < 16)
    (hr : r < 16) (hi : exec i s = run (issue n row fun w c => inRange n op (ok (c.gr (fRs w))) (e w c)) s)
    (hbad : ok ((s.core n).gr rs) = false) (haddr : 1 + (op - 0x30) * 2 ^ 8 = addr := by norm_num)
    (hrest : rest = devRest d rs r 0 sub := by simp [devRest]) (hsub : sub < 16 := by norm_num)
    (hop : op < 64 ∧ op ∉ [0x0C, 0x0E, 0x1D] := by decide)
    (hrow : ∀ w, DevWord w op sub d rs r 0 → rowOf w = row ∧ fieldsOk w = true := by
      intro w hw; simp [rowOf, fieldsOk, hw.opcode, hw.sub, hw.rd, hw.rt, hw.ta, hw.low]) :
    Faults i s n op rest 0x0A addr := by
  subst haddr
  refine faults_of_device hslot hskip (some 1) hd hrs hr hi (fun w hw => ?_) (by omega) (hrest := hrest) (hsub := hsub)
    (hop := hop) (hrow := hrow)
  rw [hw.rs, hbad, inRange, if_neg Bool.false_ne_true, deviceFault, after_ask]

/-- TRIG ARM of an action word of kind 0. -/
theorem faults_of_trigArm (hrd : rd < 16) (hrs : rs < 16) (hkind : ((s.core n).gr rs).toNat < 2 ^ 28) :
    Faults (.trigArm n.castSucc) s n 0x32 (rd * 2 ^ 18 + rs * 2 ^ 14) 0x0A 0x202 := by
  have hbad : actionOk ((s.core n).gr rs) = false := by
    have hbits : bits ((s.core n).gr rs).toNat 31 28 = 0 := by rw [bits]; omega
    simp [actionOk, hbits]
  refine faults_of_device (d := rd) (r := 0) (sub := 0) hslot hskip (some 2) hrd hrs (by norm_num) rfl (fun w hw => ?_)
    (by norm_num)
  rw [hw.rs, Fin.val_castSucc, hbad, if_neg Bool.false_ne_true, deviceFault, after_ask]
  norm_num

end

/-! ### Faults of the management core (R72) -/

section
variable {s : State}

/-- Outside a fault handler the management core records its fault and goes on at FVEC. -/
theorem mgtFault_spec (pc cause addr : Nat) (sub : Option Nat) (hin : (s.core 64).inFault = false) :
    let t := s.after (mgtFault pc cause addr sub)
    t.core 64 = { s.core 64 with
      fcause := BitVec.ofNat 32 cause, fpc := BitVec.ofNat 32 pc, faddr := BitVec.ofNat 32 addr
      fsave := BitVec.ofNat 32 ((s.core 64).p.toNat + (s.core 64).status * 2 ^ 8), inFault := true
      pc := (s.core 64).fvec.toNat, wait := .none } ∧ t.mem = s.mem := by
  unfold mgtFault
  simp only [after_ask, hin, Bool.false_eq_true, if_false, after_seq_cons, after_seq_nil, after_setCore]
  refine ⟨?_, keeps_fire skipsEvents_mem (by norm_num) _ s⟩
  rw [core_withCore_self, State.core, keeps_fire skipsEvents_cores (by norm_num) _ s]
  rfl

variable {n : Fin 65}

theorem exec_brk (h : Runs s n 0x28 0) : exec (.brk n) s = .next (s.after (faultWith n ((s.core n).pc + 4) 8 0 none)) := by
  obtain ⟨w, hw, hissue⟩ := h.issues (by norm_num) (by decide) (by norm_num)
  have hzero : bits w 21 0 = 0 := hw.field 21 0 (by omega) (by omega)
  exact hissue .brk _ (by simp [rowOf, hw.opcode]) (by simp [fieldsOk, hw.opcode, hzero])

theorem exec_trap {code : Nat} (hcode : code < 2 ^ 16) (h : Runs s n 0x29 code) :
    exec (.trap n) s = .next (s.after (faultWith n ((s.core n).pc + 4) 9 code none)) := by
  obtain ⟨w, hw, hissue⟩ := h.issues (by norm_num) (by decide) (by omega)
  have hzero : bits w 21 16 = 0 := by rw [hw.field 21 16 (by omega) (by omega), bits]; omega
  have hcode' : bits w 15 0 = code := by rw [hw.field 15 0 (by omega) (by omega), bits_of_lt hcode]
  refine (hissue .trap _ (by simp [rowOf, hw.opcode]) (by simp [fieldsOk, hw.opcode, hzero])).trans ?_
  rw [hcode']

end

/-- A command at which the management core, about to run, faults with the next word's address in FPC. -/
theorem mgt_enters {s : State} {i : Instr} {op rest cause addr : Nat} (hin : (s.core 64).inFault = false)
    (h : Runs s 64 op rest) (hi : exec i s = .next (s.after (faultWith 64 ((s.core 64).pc + 4) cause addr none))) :
    Answers i s (fun t => let k := t.core 64
      let c := s.core 64
      k.fcause = BitVec.ofNat 32 cause ∧ k.fpc = BitVec.ofNat 32 (c.pc + 4) ∧ k.faddr = BitVec.ofNat 32 addr ∧
        k.fsave = BitVec.ofNat 32 (c.p.toNat + (b2n c.cy + 2 * b2n c.be + 4 * b2n c.sat) * 2 ^ 8) ∧ k.inFault = true ∧
        k.pc = c.fvec.toNat ∧ k.run = .running ∧ k.g = c.g ∧ k.p = c.p ∧ k.t = c.t ∧ t.mem = s.mem) := by
  refine ⟨_, hi, ?_⟩
  rw [faultWith, if_pos rfl]
  obtain ⟨hcore, hmem⟩ := mgtFault_spec ((s.core 64).pc + 4) cause addr none hin
  simp only [hcore]
  exact ⟨trivial, trivial, trivial, rfl, trivial, trivial, h.running, trivial, trivial, trivial, hmem⟩

/-! ### The statement -/

/-- Settles O21: each fault is that of the check its instruction makes first. -/
theorem executionAndManagementFaults : Obligations.ExecutionAndManagementFaults := by
  unfold Obligations.ExecutionAndManagementFaults
  constructor
  · intro n s rd rs rt hrd hrs hrt hslot hskip
    dsimp only
    refine ⟨fun h => ?_, fun h => ?_, fun h8 hrange => ?_, (faults_of_jalr hslot hskip hrd hrs).2, fun h => ?_,
      fun h hrange => ?_, fun h => ?_, fun h => ?_, fun h => ?_, fun h => ?_, faults_of_trigArm hslot hskip hrd hrs⟩
    · exact ⟨(faults_of_memory hslot hskip hrd hrs rfl).1 h, (faults_of_memory hslot hskip hrd hrs rfl).1 h,
        (faults_of_memory hslot hskip hrd hrs rfl).1 h, faults_of_fabric hslot hskip hrd hrs rfl h,
        faults_of_fabric hslot hskip hrd hrs rfl h⟩
    · exact ⟨(faults_of_memory hslot hskip hrd hrs rfl).1 h, (faults_of_memory hslot hskip hrd hrs rfl).1 h,
        (faults_of_jalr hslot hskip hrd hrs).1 h, (faults_of_amo (k := 0) hslot hskip hrd hrs (by norm_num) rfl).1 h,
        (faults_of_amo (k := 3) hslot hskip hrd hrs (by norm_num) rfl).1 h⟩
    · have h4 : ((s.core n).gr rs).toNat % 4 = 0 := by omega
      have h1 := Nat.mod_one ((s.core n).gr rs).toNat
      exact ⟨(faults_of_memory hslot hskip hrd hrs rfl).2 h1 hrange, (faults_of_memory hslot hskip hrd hrs rfl).2 h1 hrange,
        (faults_of_memory hslot hskip hrd hrs rfl).2 h1 hrange, (faults_of_memory hslot hskip hrd hrs rfl).2 h4 hrange,
        (faults_of_memory hslot hskip hrd hrs rfl).2 h4 hrange, faults_of_timeMemory hslot hskip hrs rfl h8 hrange,
        faults_of_timeMemory hslot hskip hrs rfl h8 hrange,
        (faults_of_amo (k := 1) hslot hskip hrd hrs (by norm_num) rfl).2 h4 hrange⟩
    · exact ⟨(faults_of_lBlock (d := 0) hslot hskip (by norm_num) hrs rfl).1 h,
        (faults_of_lBlock (d := rd) hslot hskip hrd hrs rfl).1 h⟩
    · exact ⟨(faults_of_lBlock (d := 0) hslot hskip (by norm_num) hrs rfl).2 h hrange,
        (faults_of_lBlock (d := rd) hslot hskip hrd hrs rfl).2 h hrange⟩
    · have hbad : ringOk ((s.core n).gr rs) = false := decide_eq_false (by omega)
      exact ⟨faults_of_inRange (d := rd) (r := rt) (sub := 0) hslot hskip hrd hrs hrt rfl hbad,
        faults_of_inRange (d := 0) (r := rt) (sub := 0) hslot hskip (by norm_num) hrs hrt rfl hbad⟩
    · have hbad : nidxOk ((s.core n).gr rs) = false := decide_eq_false (by omega)
      exact ⟨faults_of_inRange (d := rd) (r := 0) (sub := 0) hslot hskip hrd hrs (by norm_num) rfl hbad,
        faults_of_inRange (d := 0) (r := 0) (sub := 1) hslot hskip (by norm_num) hrs (by norm_num) rfl hbad⟩
    · exact faults_of_inRange (ok := fun v => decide (v.toNat ≤ 511)) (d := rd) (r := 0) (sub := 1) hslot hskip hrd hrs
        (by norm_num) rfl (decide_eq_false (by omega))
    · exact faults_of_inRange (ok := fun v => decide (v.toNat ≤ 1)) (d := rd) (r := 0) (sub := 0) hslot hskip hrd hrs
        (by norm_num) rfl (decide_eq_false (by omega))
  · intro s code hcode hin c enters
    exact ⟨fun h => mgt_enters hin h (exec_brk (n := 64) h), fun h => mgt_enters hin h (exec_trap (n := 64) hcode h)⟩

end Sys2Proof.Machine
end

section
/-!
PROOFS: control transfers, the ends of handlers and EVCTL (O10).
-/
namespace Sys2Proof.Machine

open Sys2Proof

/-! ### Control transfers (R66) -/

/-- A signed offset survives its field. -/
theorem signed_emod {k : Nat} {o : Int} (hk : 0 < k) (hl : -2 ^ (k - 1) ≤ o) (hh : o < 2 ^ (k - 1)) :
    signed k (o % 2 ^ k).toNat = o := by
  have hbits : BitVec.ofNat k (o % 2 ^ k).toNat = BitVec.ofInt k o := by
    apply BitVec.eq_of_toNat_eq
    have hlt : (o % 2 ^ k).toNat < 2 ^ k := by
      have h := Int.emod_lt_of_pos o (show (0 : Int) < 2 ^ k by positivity)
      have hcast : ((2 ^ k : Nat) : Int) = 2 ^ k := by push_cast; rfl
      omega
    rw [BitVec.toNat_ofNat, Nat.mod_eq_of_lt hlt, BitVec.toNat_ofInt, Nat.cast_pow, Nat.cast_ofNat]
  rw [signed_eq_toInt _ hk, hbits, BitVec.toInt_ofInt_eq_self hk hl hh]

section
variable {s : State} {n op rest : Nat}

/-- A jump inside I space leaves the core there. -/
theorem after_jumpTo {target : Int} {f : Core → Core} {c : Core} (h : Runs s n op rest)
    (hstep : n = 64 ∨ s.flag (SEQ.CORE_EXP_STEP n) = false) (hl : 0 ≤ target) (hh : target < iSize n)
    (hf : f (s.core n) = c) (hwait : c.wait = (s.core n).wait) :
    s.after (jumpTo n target f) = s.withCore n { c with pc := target.toNat } := by
  rw [jumpTo, if_neg (by omega), after_seq_cons, after_seq_cons, after_seq_nil, after_setCore, after_settleCore, hf,
    ← h.waitsNone, ← hwait]
  · rw [core_withCore_self]
    show target.toNat < iSize n
    omega
  · rwa [flag_withCore]

end

section
variable {s : State} {n : Fin 65} {rd rs : Nat} {o : Int} (hstep : n.val = 64 ∨ s.flag (SEQ.CORE_EXP_STEP n) = false)
include hstep

theorem exec_br (hl : 0 ≤ ((s.core n).pc : Int) + 4 * o) (hh : ((s.core n).pc : Int) + 4 * o < iSize n) (hol : -2 ^ 21 ≤ o)
    (hoh : o < 2 ^ 21) (h : Runs s n 0x20 (o % 2 ^ 22).toNat) :
    exec (.br n) s = .next (s.withCore n { s.core n with pc := (((s.core n).pc : Int) + 4 * o).toNat }) := by
  obtain ⟨w, hw, hissue⟩ := h.issues (by norm_num) (by decide) (by omega)
  have ho : signed 22 (bits w 21 0) = o := by
    rw [hw.field 21 0 (by omega) (by omega), bits_of_lt (by omega)]
    exact signed_emod (by norm_num) hol hoh
  refine (hissue .br _ (by simp [rowOf, hw.opcode]) (by simp [fieldsOk, hw.opcode])).trans ?_
  rw [ho]
  exact congrArg _ (after_jumpTo h hstep hl hh rfl rfl)

theorem exec_jal (hrd : rd < 16) (hl : 0 ≤ ((s.core n).pc : Int) + 4 * o) (hh : ((s.core n).pc : Int) + 4 * o < iSize n)
    (hol : -2 ^ 17 ≤ o) (hoh : o < 2 ^ 17) (h : Runs s n 0x21 (rd * 2 ^ 18 + (o % 2 ^ 18).toNat)) :
    exec (.jal n) s = .next (s.withCore n { (s.core n).setG rd (BitVec.ofNat 32 ((s.core n).pc + 4)) with
      pc := (((s.core n).pc : Int) + 4 * o).toNat }) := by
  obtain ⟨w, hw, hissue⟩ := h.issues (by norm_num) (by decide) (by omega)
  have hrd' : fRd w = rd := by rw [fRd, hw.field 21 18 (by omega) (by omega), bits]; omega
  have hbits : bits w 17 0 = (o % 2 ^ 18).toNat := by rw [hw.field 17 0 (by omega) (by omega), bits]; omega
  have ho : signed 18 (bits w 17 0) = o := by
    rw [hbits]
    exact signed_emod (by norm_num) hol hoh
  refine (hissue .jal _ (by simp [rowOf, hw.opcode]) (by simp [fieldsOk, hw.opcode])).trans ?_
  rw [ho, hrd']
  exact congrArg _ (after_jumpTo h hstep hl hh rfl (setG_wait ..))

theorem exec_jalr (hrd : rd < 16) (hrs : rs < 16) (h : Runs s n 0x22 (rd * 2 ^ 18 + rs * 2 ^ 14))
    (halign : ((s.core n).gr rs).toNat % 4 = 0) (hlt : ((s.core n).gr rs).toNat < iSize n) :
    exec (.jalr n) s = .next (s.withCore n { (s.core n).setG rd (BitVec.ofNat 32 ((s.core n).pc + 4)) with
      pc := ((s.core n).gr rs).toNat }) := by
  obtain ⟨w, hw, hissue⟩ := h.issues (by norm_num) (by decide) (by omega)
  have hword := immWord_zero hw hrd hrs
  have hzero : bits w 13 0 = 0 := by rw [hword.low 13 0 (by omega) (by omega)]; rfl
  refine (hissue .jalr _ (by simp [rowOf, hword.opcode]) (by simp [fieldsOk, hword.opcode, hzero])).trans ?_
  simp only [hword.rs, hword.rd]
  rw [if_neg (not_not.2 halign)]
  exact congrArg _ (after_jumpTo h hstep (by omega) (by omega) rfl (setG_wait ..))

end

/-! ### Latching (R74, R77, R78) -/

/-- From `s` to `t` slots of core `n` may have latched, or merged; no pending slot was lost, and of the core nothing else
changed. -/
def Latches (n : Nat) (s t : State) : Prop :=
  t.mem = s.mem ∧ (∀ k, k ≠ (mergedOf n).addr → t.reg k = s.reg k) ∧
    t.core n = { s.core n with
      pend := (t.core n).pend, slotArg := (t.core n).slotArg, slotTime := (t.core n).slotTime } ∧
    ∀ i < 16, (s.core n).pend.getLsbD i = true → (t.core n).pend.getLsbD i = true

theorem latches_refl (n : Nat) (s : State) : Latches n s s := ⟨rfl, fun _ _ => rfl, rfl, fun _ _ h => h⟩

theorem latches_trans {n : Nat} {s t u : State} (h : Latches n s t) (h' : Latches n t u) : Latches n s u := by
  obtain ⟨hmem, hreg, hcore, hpend⟩ := h
  obtain ⟨hmem', hreg', hcore', hpend'⟩ := h'
  refine ⟨hmem'.trans hmem, fun k hk => (hreg' k hk).trans (hreg k hk), ?_, fun i hi h => hpend' i hi (hpend i hi h)⟩
  rw [hcore', hcore]

theorem latches_latchSlotAt (s : State) (n k arg : Nat) (t : Instant) : Latches n s (s.after (latchSlotAt n k arg t)) := by
  rw [latchSlotAt, after_ask]
  dsimp only
  split_ifs
  · exact latches_refl n s
  · exact ⟨rfl, fun j hj => reg_apply_ne _ _ _ _ hj, rfl, fun _ _ h => h⟩
  · rw [after_setCore]
    refine ⟨rfl, fun _ _ => rfl, by rw [core_withCore_self], fun i hi h => ?_⟩
    rw [core_withCore_self, getLsbD_ofNat_putBit _ _ _ _ hi, h, ite_self]

theorem latches_relatchRings (s : State) (n : Nat) : Latches n s (s.after (relatchRings n)) := by
  rw [relatchRings, after_ask]
  refine rel_forEach (latches_refl n) (fun _ _ _ => latches_trans) _ (fun k _ t => ?_) s
  rw [after_when]
  split
  · exact latches_latchSlotAt t n k 0 t.now
  · exact latches_refl n t

/-! ### DONE, BRK, TRAP and ERET -/

theorem flag_eq_of_reg {s t : State} {f : Fld} (h : t.reg f.addr = s.reg f.addr) : t.flag f = s.flag f := by
  rw [State.flag, State.flag, State.fld, State.fld, State.regN, State.regN, h]

theorem exp_ne_merged {n : Nat} (h : n < 64) : (SEQ.CORE_EXP_STEP n).addr ≠ (mergedOf n).addr := by
  rw [mergedOf, if_neg (by omega)]
  simp only [SEQ.CORE_EXP_STEP, SEQ.CORE_EXP, SEQ.CNT_MERGED, SEQ.CNT]
  omega

/-- DONE returns its core to dispatch, with what latched again pending beside what was. -/
theorem done_answers {s : State} {n : Fin 65} (h : Runs s n 0x24 0) (hhalt : (s.core n).haltReq = false)
    (hstep : n.val = 64 ∨ s.flag (SEQ.CORE_EXP_STEP n) = false) :
    Answers (.done n) s (fun t => let k := t.core n
      let c := s.core n
      k.run = .idle ∧ k.inHandler = false ∧ k.inFault = false ∧ k.g = c.g ∧ k.p = c.p ∧ k.t = c.t ∧ t.mem = s.mem ∧
        (∀ i < 16, c.pend.getLsbD i = true → k.pend.getLsbD i = true)) := by
  obtain ⟨w, hw, hissue⟩ := h.issues (by norm_num) (by decide) (by norm_num)
  have hzero : bits w 21 0 = 0 := hw.field 21 0 (by omega) (by omega)
  refine ⟨_, hissue .done _ (by simp [rowOf, hw.opcode]) (by simp [fieldsOk, hw.opcode, hzero]), ?_⟩
  rw [after_seq_cons, after_seq_cons, after_seq_cons, after_seq_nil, after_setCore, after_ask]
  generalize hu : s.withCore n _ = u
  have hcore : u.core n = { s.core n with
      inHandler := false, init := false, inFault := false, run := .idle, statePc := ((s.core n).pc + 4) % 2 ^ 16
      pc := (s.core n).pc + 4 } := by rw [← hu, core_withCore_self]
  obtain ⟨hmem, hreg, hcore', hpend⟩ := latches_relatchRings u n
  have hgoes : ((s.core n).haltReq || decide (n ≠ 64) && (u.after (relatchRings n)).flag (SEQ.CORE_EXP_STEP n)) = false := by
    rw [hhalt, Bool.false_or]
    rcases hstep with h64 | hflag
    · simp [show n = 64 from Fin.ext h64]
    · by_cases h64 : n.val = 64
      · simp [show n = 64 from Fin.ext h64]
      · have hsame : u.reg (SEQ.CORE_EXP_STEP n).addr = s.reg (SEQ.CORE_EXP_STEP n).addr := by rw [← hu]; rfl
        rw [flag_eq_of_reg ((hreg _ (exp_ne_merged (by omega))).trans hsame), hflag, Bool.and_false]
  rw [after_when, hgoes, if_neg Bool.false_ne_true]
  dsimp only
  rw [hcore', hcore]
  rw [hcore] at hpend
  refine ⟨rfl, rfl, rfl, rfl, rfl, rfl, hmem.trans (by rw [← hu]; rfl), hpend⟩

/-- What a fault at a sequencer core with the next word's address leaves, as the statement lists it. -/
theorem stops_next {s : State} {n : Fin 64} {i : Instr} {cause addr : Nat}
    (hi : exec i s = .next (s.after (faultWith n ((s.core n).pc + 4) cause addr none)))
    (hskip : s.flag (SEQ.CORE_EXP_FAULT_SKIP n) = false) (hslot : (s.core n).slot < 16) (hcause : cause < 2 ^ 8)
    (haddr : addr < 2 ^ 32) : Answers i s (fun t => let k := t.core n
      let c := s.core n
      k.run = .halted ∧ k.faulted = true ∧ k.g = c.g ∧ k.p = c.p ∧ k.t = c.t ∧ t.mem = s.mem ∧
        t.regN (SEQ.FAULT n) = (c.pc + 4) % 2 ^ 16 * 2 ^ 16 + b2n c.init * 2 ^ 15 + c.slot % 16 * 2 ^ 8 + cause ∧
        t.regN (SEQ.FAULT_ADDR n) = addr) := by
  obtain ⟨hcore, hmem, hrecord, haddr'⟩ := stops_faultWith (pc := (s.core n).pc + 4) n.isLt hskip hslot hcause haddr none
  refine ⟨_, hi, ?_⟩
  dsimp only
  rw [hcore, Nat.mod_eq_of_lt hslot]
  exact ⟨rfl, rfl, rfl, rfl, rfl, hmem, hrecord, haddr'⟩

/-- ERET takes PRED and STATUS back from FSAVE and goes on at FPC. -/
theorem exec_eret {s : State} (hin : (s.core 64).inFault = true) (hpc : (s.core 64).fpc.toNat < iSize 64)
    (h : Runs s 64 0x0E 0) : exec (.eret 64) s = .next (s.withCore 64 { s.core 64 with
      p := ((s.core 64).fsave ||| 1#32).setWidth 8, cy := (s.core 64).fsave.getLsbD 8, be := (s.core 64).fsave.getLsbD 9
      sat := (s.core 64).fsave.getLsbD 10, inFault := false, pc := (s.core 64).fpc.toNat }) := by
  obtain ⟨w, hw, hguard, hissue⟩ := h.issues_decoded (by norm_num) (by norm_num)
  have hzero : bits w 21 0 = 0 := hw.field 21 0 (by omega) (by omega)
  have hdec : decodeFault true (s.core 64).inFault w = none := by
    have hfields : fieldsOk w = true := by simp [fieldsOk, hw.opcode, hzero]
    simp [decodeFault, hw.opcode, hguard, hfields, hin]
  refine (hissue .eret _ (by simp [rowOf, hw.opcode]) hdec).trans ?_
  rw [after_seq_cons, after_seq_cons, after_seq_nil, after_setCore, ofNat_putBit_zero]
  exact congrArg _ (after_settleCore _ 64 ((congrArg Core.pc (core_withCore_self ..)).trans_lt hpc) (.inl rfl))

/-! ### EVCTL (R80) -/

theorem putBit_putBit (v i : Nat) (b : Bool) : putBit (putBit v i b) i b = putBit v i b := by
  apply Nat.eq_of_testBit_eq
  intro j
  rw [putBit_testBit, putBit_testBit]
  split <;> rfl

theorem bindReg_inj {n j k : Nat} (h : bindReg n j = bindReg n k) : j = k := by
  unfold bindReg at h
  split at h
  · simp only [MGT.BIND] at h
    omega
  · simp only [SEQ.BIND] at h
    omega

theorem bindReg_ne_step {n k : Nat} (hn : n < 64) (hk : k < 16) : (SEQ.CORE_EXP_STEP n).addr ≠ bindReg n k := by
  rw [bindReg, if_neg (by omega)]
  simp only [SEQ.CORE_EXP_STEP, SEQ.CORE_EXP, SEQ.BIND]
  omega

theorem mem_allBelow {n k : Nat} {p : Nat → Bool} : k ∈ allBelow n p ↔ k < n ∧ p k = true := by
  simp [allBelow]

/-- What EVCTL with function `op` does to one slot that it names. -/
def slotControl (n op k : Nat) : Effect := match op with
  | 0 => setFld ⟨bindReg n k, 31, 31⟩ 1
  | 1 => setFld ⟨bindReg n k, 31, 31⟩ 0
  | 2 => ask fun s => setCore n fun c => { c with
      pend := BitVec.ofNat 16 (putBit c.pend.toNat k true), slotArg := putD c.slotArg k 0#32 0#32
      slotTime := putD c.slotTime k s.now 0#64 }
  | _ => setCore n fun c => { c with pend := BitVec.ofNat 16 (putBit c.pend.toNat k false) }

/-- Functions 0 and 1 set and clear EN, bit 31 of the slot's register. -/
theorem after_slotControl_enable {op : Nat} (hop : op < 2) (n k : Nat) (s : State) :
    s.after (slotControl n op k) =
      s.apply (.reg (bindReg n k) (BitVec.ofNat 32 (putBit (s.regN (bindReg n k)) 31 (op = 0)))) :=
  match op, hop with
  | 0, _ => after_setFld ..
  | 1, _ => after_setFld ..

/-- EVCTL of EN: bit 31 of each named slot's register, and no other bit. -/
theorem after_setEnables {op : Nat} (hop : op < 2) (n : Nat) (l : List Nat) (s : State) :
    let t := s.after (forEach l (slotControl n op))
    t = { s with regs := t.regs } ∧
      (∀ k, t.regN (bindReg n k) =
        if k ∈ l then putBit (s.regN (bindReg n k)) 31 (op = 0) else s.regN (bindReg n k)) ∧
      ∀ a, (∀ k ∈ l, a ≠ bindReg n k) → t.reg a = s.reg a := by
  induction l generalizing s with
  | nil => exact ⟨rfl, fun k => (if_neg List.not_mem_nil).symm, fun _ _ => rfl⟩
  | cons j l ih =>
    rw [after_forEach_cons, after_slotControl_enable hop]
    generalize hu : s.apply (.reg (bindReg n j) (BitVec.ofNat 32 (putBit (s.regN (bindReg n j)) 31 (op = 0)))) = u
    have hframe' : u = { s with regs := u.regs } := by rw [← hu]; rfl
    have hself : u.regN (bindReg n j) = putBit (s.regN (bindReg n j)) 31 (op = 0) := by
      rw [← hu]
      exact regN_apply_self _ _ _ (putBits_lt _ _ _ _ (regN_lt ..) (by norm_num) le_rfl)
    have hne : ∀ a, a ≠ bindReg n j → u.reg a = s.reg a := fun a ha => by rw [← hu, reg_apply_ne _ _ _ _ ha]
    obtain ⟨hframe, hbind, hother⟩ := ih u
    refine ⟨by rw [hframe, hframe'], fun k => (hbind k).trans ?_, fun a ha => ?_⟩
    · by_cases hk : k = j
      · rw [hk, hself, putBit_putBit, ite_self, if_pos (List.mem_cons_self ..)]
      · have hreg : u.regN (bindReg n k) = s.regN (bindReg n k) :=
          congrArg BitVec.toNat (hne _ fun h => hk (bindReg_inj h))
        simp only [hreg, List.mem_cons, hk, false_or]
    · exact (hother a fun k hk => ha k (List.mem_cons_of_mem _ hk)).trans (hne a (ha j (List.mem_cons_self ..)))

/-- EVCTL that sets PEND: the named slots pend, with argument 0. -/
theorem after_setPends (n : Nat) (l : List Nat) (s : State) :
    let t := s.after (forEach l (slotControl n 2))
    OnlyCore n s t ∧ t.core n = { s.core n with
        pend := (t.core n).pend, slotArg := (t.core n).slotArg, slotTime := (t.core n).slotTime } ∧
      ∀ k < 16, (t.core n).pend.getLsbD k = ((s.core n).pend.getLsbD k || decide (k ∈ l)) ∧
        getD (t.core n).slotArg k 0#32 = if k ∈ l then 0#32 else getD (s.core n).slotArg k 0#32 := by
  induction l generalizing s with
  | nil => exact ⟨onlyCore_refl n s, rfl, fun k _ => ⟨by simp, (if_neg List.not_mem_nil).symm⟩⟩
  | cons j l ih =>
    rw [after_forEach_cons, slotControl, after_ask, after_setCore]
    obtain ⟨honly, hcore, hslots⟩ := ih (s.withCore n { s.core n with
      pend := BitVec.ofNat 16 (putBit (s.core n).pend.toNat j true), slotArg := putD (s.core n).slotArg j 0#32 0#32
      slotTime := putD (s.core n).slotTime j s.now 0#64 })
    rw [core_withCore_self] at hcore hslots
    refine ⟨onlyCore_trans (onlyCore_withCore ..) honly, hcore, fun k hk => ?_⟩
    obtain ⟨hpend, harg⟩ := hslots k hk
    rw [hpend, harg, getLsbD_ofNat_putBit _ _ _ _ hk, getD_putD]
    by_cases h : k = j <;> simp [h]

/-- EVCTL that clears PEND. -/
theorem after_clearPends (n : Nat) (l : List Nat) (s : State) :
    let t := s.after (forEach l (slotControl n 3))
    OnlyCore n s t ∧ t.core n = { s.core n with pend := (t.core n).pend } ∧
      ∀ k < 16, (t.core n).pend.getLsbD k = ((s.core n).pend.getLsbD k && !decide (k ∈ l)) := by
  induction l generalizing s with
  | nil => exact ⟨onlyCore_refl n s, rfl, fun k _ => by simp⟩
  | cons j l ih =>
    rw [after_forEach_cons, show slotControl n 3 j = setCore n fun c => { c with
      pend := BitVec.ofNat 16 (putBit c.pend.toNat j false) } from rfl, after_setCore]
    obtain ⟨honly, hcore, hpend⟩ := ih (s.withCore n { s.core n with
      pend := BitVec.ofNat 16 (putBit (s.core n).pend.toNat j false) })
    rw [core_withCore_self] at hcore hpend
    refine ⟨onlyCore_trans (onlyCore_withCore ..) honly, hcore, fun k hk => ?_⟩
    rw [hpend k hk, getLsbD_ofNat_putBit _ _ _ _ hk]
    by_cases h : k = j <;> simp [h]

section
variable {s : State} {n : Fin 65} {rs op : Nat}

/-- The slots that register `rs` names. -/
def namedSlots (c : Core) (rs : Nat) : List Nat := allBelow 16 fun k => bit (c.gr rs).toNat k

theorem mem_namedSlots {c : Core} {k : Nat} (hk : k < 16) : k ∈ namedSlots c rs ↔ (c.gr rs).getLsbD k = true := by
  rw [namedSlots, mem_allBelow, bit_eq_testBit, BitVec.testBit_toNat]
  simp [hk]

theorem exec_evctl (hrs : rs < 16) (hop : op < 4) (h : Runs s n 0x25 (rs * 2 ^ 18 + op * 2 ^ 16)) :
    exec (.evctl n) s = .next ((s.after (forEach (namedSlots (s.core n) rs) (slotControl n op))).after (retire n id)) := by
  obtain ⟨w, hw, hissue⟩ := h.issues (by norm_num) (by decide) (by omega)
  have hzero : bits w 15 0 = 0 := by rw [hw.field 15 0 (by omega) (by omega), bits]; omega
  have hrs' : fRd w = rs := by rw [fRd, hw.field 21 18 (by omega) (by omega), bits]; omega
  have hop' : bits w 17 16 = op := by rw [hw.field 17 16 (by omega) (by omega), bits]; omega
  refine (hissue .evctl _ (by simp [rowOf, hw.opcode]) (by simp [fieldsOk, hw.opcode, hzero])).trans (congrArg _ ?_)
  rw [hrs', hop', after_seq_cons, after_seq_cons, after_seq_nil]
  rfl

/-- EVCTL with function 0 or 1 sets or clears EN of the named slots. -/
theorem evctl_enables (hrs : rs < 16) (hflow : Flows s n) (hop : op < 2)
    (h : Runs s n 0x25 (rs * 2 ^ 18 + op * 2 ^ 16)) :
    Answers (.evctl n) s (fun t => t = { s with regs := t.regs, cores := t.cores } ∧
      (∀ k < 16, t.regN (bindReg n k) = if ((s.core n).gr rs).getLsbD k then putBit (s.regN (bindReg n k)) 31 (op = 0)
        else s.regN (bindReg n k)) ∧
      (∀ a, (∀ k < 16, a ≠ bindReg n k) → t.reg a = s.reg a) ∧
      (∀ i, t.core i = if i = n.val then { s.core n with pc := (s.core n).pc + 4 } else s.core i)) := by
  refine ⟨_, exec_evctl hrs (by omega) h, ?_⟩
  obtain ⟨hframe, hbind, hother⟩ := after_setEnables hop n (namedSlots (s.core n) rs) s
  generalize s.after (forEach (namedSlots (s.core n) rs) _) = u at *
  have hcore : ∀ i, u.core i = s.core i := fun i => by rw [hframe]; rfl
  obtain ⟨hpc, hstep⟩ := hflow
  have hstep' : n.val = 64 ∨ u.flag (SEQ.CORE_EXP_STEP n) = false := by
    refine (lt_or_ge n.val 64).elim (fun hn => hstep.imp_right fun hstep => ?_) fun hn => .inl (by omega)
    rw [← hstep]
    exact flag_eq_of_reg (hother _ fun k hk => bindReg_ne_step hn (mem_allBelow.1 hk).1)
  rw [after_retire u n id (by rwa [hcore]) hstep']
  refine ⟨?_, fun k hk => ?_, fun a ha => ?_, fun i => ?_⟩
  · rw [hframe]
    rfl
  · refine (hbind k).trans ?_
    simp only [mem_namedSlots hk]
  · exact hother a fun k hk => ha k (mem_allBelow.1 hk).1
  · by_cases hi : i = n.val
    · subst hi
      rw [core_withCore_self, if_pos rfl, hcore, ← h.waitsNone]
      rfl
    · rw [core_withCore_ne _ _ _ _ hi, if_neg hi, hcore]

theorem flag_onlyCore {n : Nat} {s t : State} (h : OnlyCore n s t) (f : Fld) : t.flag f = s.flag f :=
  flag_eq_of_reg (by rw [h.1]; rfl)

/-- EVCTL with function 2 sets PEND of the named slots. -/
theorem evctl_sets (hrs : rs < 16) (hflow : Flows s n) (h : Runs s n 0x25 (rs * 2 ^ 18 + 2 * 2 ^ 16)) :
    Answers (.evctl n) s (fun t => OnlyCore n s t ∧ (t.core n).pc = (s.core n).pc + 4 ∧ (t.core n).g = (s.core n).g ∧
      ∀ k < 16, (t.core n).pend.getLsbD k = ((s.core n).pend.getLsbD k || ((s.core n).gr rs).getLsbD k) ∧
        (((s.core n).gr rs).getLsbD k = true → getD (t.core n).slotArg k 0 = 0)) := by
  refine ⟨_, exec_evctl hrs (by norm_num) h, ?_⟩
  obtain ⟨honly, hcore, hslots⟩ := after_setPends n (namedSlots (s.core n) rs) s
  generalize s.after (forEach (namedSlots (s.core n) rs) _) = u at *
  obtain ⟨hpc, hstep⟩ := hflow
  have hpc' : (u.core n).pc = (s.core n).pc := by rw [hcore]
  rw [after_retire u n id (by rwa [hpc']) (by rwa [flag_onlyCore honly])]
  refine ⟨onlyCore_trans honly (onlyCore_withCore ..), ?_⟩
  rw [core_withCore_self]
  refine ⟨congrArg (· + 4) hpc', by rw [hcore]; rfl, fun k hk => ?_⟩
  obtain ⟨hpend, harg⟩ := hslots k hk
  simp only [mem_namedSlots hk, Bool.decide_eq_true] at hpend harg
  exact ⟨hpend, fun hm => harg.trans (if_pos hm)⟩

/-- EVCTL with function 3 clears PEND of the named slots. -/
theorem evctl_clears (hrs : rs < 16) (hflow : Flows s n) (h : Runs s n 0x25 (rs * 2 ^ 18 + 3 * 2 ^ 16)) :
    Answers (.evctl n) s (fun t => OnlyCore n s t ∧
      t.core n = { s.core n with pc := (s.core n).pc + 4, pend := (t.core n).pend } ∧
      ∀ k < 16, (t.core n).pend.getLsbD k = ((s.core n).pend.getLsbD k && !((s.core n).gr rs).getLsbD k)) := by
  refine ⟨_, exec_evctl hrs (by norm_num) h, ?_⟩
  obtain ⟨honly, hcore, hslots⟩ := after_clearPends n (namedSlots (s.core n) rs) s
  generalize s.after (forEach (namedSlots (s.core n) rs) _) = u at *
  obtain ⟨hpc, hstep⟩ := hflow
  have hpc' : (u.core n).pc = (s.core n).pc := by rw [hcore]
  rw [after_retire u n id (by rwa [hpc']) (by rwa [flag_onlyCore honly])]
  refine ⟨onlyCore_trans honly (onlyCore_withCore ..), ?_⟩
  rw [core_withCore_self]
  refine ⟨by rw [hcore, ← h.waitsNone]; rfl, fun k hk => (hslots k hk).trans ?_⟩
  simp only [mem_namedSlots hk, Bool.decide_eq_true]

end

/-- Settles O10: the transfers leave the core at their target, DONE at dispatch with its pending slots, BRK and TRAP
halted with the next address, and EVCTL goes through the named slots one by one. -/
theorem jumpsAndHandlerControl : Obligations.JumpsAndHandlerControl := by
  refine ⟨fun n s rd rs o hrd hrs hstep => ⟨fun hl hh => ⟨fun hol hoh h => exec_br hstep hl hh hol hoh h,
    fun hol hoh h => exec_jal hstep hrd hl hh hol hoh h⟩, fun h halign hlt => exec_jalr hstep hrd hrs h halign hlt⟩,
    fun s => ⟨fun n h hhalt hstep => done_answers h hhalt hstep, fun n hskip hslot => ⟨fun h => ?_, fun code hcode h => ?_⟩,
    fun hin hpc h => exec_eret hin hpc h, fun n rs hrs hflow => ⟨fun op hop h => evctl_enables hrs hflow hop h,
      evctl_sets hrs hflow, evctl_clears hrs hflow⟩⟩⟩
  · exact stops_next (exec_brk (n := n.castSucc) h) hskip hslot (by norm_num) (by norm_num)
  · exact stops_next (exec_trap (n := n.castSucc) hcode h) hskip hslot (by norm_num) (by omega)

end Sys2Proof.Machine
end

section
/-!
PROOFS: dispatch, core timers, doorbells and the handler watchdog (O14).
-/
namespace Sys2Proof.Machine

open Sys2Proof

/-! ### Dispatch (R75) -/

theorem firstBelow_eq_some {n k : Nat} {p : Nat → Bool} (hk : k < n) (hp : p k = true) (hlow : ∀ j < k, p j = false) :
    firstBelow n p = some k := by
  rw [firstBelow, List.find?_range_eq_some]
  exact ⟨hp, List.mem_range.2 hk, fun j hj => by simp [hlow j hj]⟩

/-- With no slice running nothing yields. -/
theorem after_yieldUnit {s : State} (h : s.ist.running = []) (c u : Nat) : s.after (yieldUnit c u) = s := by
  rw [yieldUnit, after_ask, h]
  rfl

/-- The core that a dispatch of slot `k` leaves. -/
def dispatched (s : State) (n k : Nat) : Core :=
  let c := s.core n
  let b := s.regN (bindReg n k)
  { c with
    pend := BitVec.ofNat 16 (putBit c.pend.toNat k false), slot := k, init := false, inHandler := true, run := .running
    evsrc := BitVec.ofNat 32 (k + bits b 30 28 * 2 ^ 4 + bits b 23 16 * 2 ^ 8)
    evarg := getD c.slotArg k 0#32, evtime := getD c.slotTime k 0#64
    budget := hbudgetOf s n, dispatched := s.acc.ltb, pc := bits b 15 0 }

theorem after_dispatchSlot {s : State} (h : s.ist.running = []) (n k : Nat) :
    s.after (dispatchSlot n k) = s.withCore n (dispatched s n k) := by
  have hyield : s.after (when (decide (n < 64)) (yieldUnit 2 n)) = s := by
    rw [after_when, after_yieldUnit h, ite_self]
  rw [dispatchSlot, after_ask, after_seq_cons, hyield]
  rfl

section
variable {s : State} {n : Fin 65} (hon : s.on (coreDomain n) = true)
include hon

/-- An idle core takes its lowest ready slot. -/
theorem exec_dispatch {k : Nat} (hk : k < 16) (hrun : (s.core n).run = .idle) (hslices : s.ist.running = [])
    (hqueue : s.ist.queue = []) (hpend : (s.core n).pend.getLsbD k = true) (hen : bit (s.regN (bindReg n k)) 31 = true)
    (hlow : ∀ j < k, (s.core n).pend.getLsbD j = false ∨ bit (s.regN (bindReg n j)) 31 = false) :
    exec (.dispatch n) s = .next (s.withCore n (dispatched s n k)) := by
  have hready : s.readySlot n = some k := by
    refine firstBelow_eq_some hk (by rw [hpend, hen]; rfl) fun j hj => ?_
    rcases hlow j hj with h | h
    · rw [h, Bool.false_and]
    · rw [h, Bool.and_false]
  have hforced : s.forcedOut 2 n.val = false := by rw [State.forcedOut, hslices, hqueue]; rfl
  show execDispatch n s = _
  rw [execDispatch, run_eq, after_inDomain, if_pos hon, after_ask, hrun, hforced, hready]
  exact congrArg _ (after_dispatchSlot hslices n k)

/-- A timer that nothing is bound to just ends. -/
theorem exec_coreTimerExpire {i : Fin 4} {t : Instant} (hfind : find (s.core n).timers i = some t)
    (hreached : s.reached t = true) (hbound : s.boundSlots 2 i = []) :
    exec (.coreTimerExpire n i) s = .next (s.withCore n { s.core n with timers := eraseKey (s.core n).timers i }) := by
  show execCoreTimerExpire n i s = _
  rw [execCoreTimerExpire, run_eq, after_inDomain, if_pos hon, timerExpire, after_ask, hfind]
  dsimp only
  rw [after_when, hreached, if_pos rfl, after_seq_cons, after_seq_cons, after_seq_nil, after_setCore, latchAt, after_ask]
  generalize hu : s.withCore n _ = u
  have hbound' : u.boundSlots 2 i = [] := by rw [← hu]; exact hbound
  rw [hbound']
  rfl

/-- A doorbell that one slot is bound to, and not yet pending, latches there. -/
theorem exec_doorbellWrite {b k : Nat} (hb : b < 16) (hrun : (s.core n).run ≠ .held)
    (hpend : (s.core n).pend.getLsbD k = false) (hbound : s.boundSlots 3 b = [(n.val, k)]) :
    exec (.doorbellWrite n (BitVec.ofNat 32 (2 ^ b))) s = .next (s.withCore n { s.core n with
      pend := BitVec.ofNat 16 (putBit (s.core n).pend.toNat k true)
      slotArg := putD (s.core n).slotArg k (BitVec.ofNat 32 0) 0#32
      slotTime := putD (s.core n).slotTime k s.now 0#64 }) := by
  have hrung : ∀ b < 16, allBelow 16 (fun i => bit (BitVec.ofNat 32 (2 ^ b)).toNat i) = [b] := by decide
  show execDoorbellWrite n _ s = _
  rw [execDoorbellWrite, run_eq, after_inDomain, if_pos hon, doorbellWrite, after_ask, hrung b hb, after_forEach_cons,
    after_forEach_nil, ringDoorbell, latchAt, after_ask, hbound, List.filter_cons_of_pos (by simp), List.filter_nil,
    after_forEach_cons, after_forEach_nil, latchSlotAt, after_ask]
  dsimp only
  rw [if_neg (by simp [hon, hrun]), hpend, if_neg Bool.false_ne_true, after_setCore]

end

/-! ### The handler watchdog (R81) -/

theorem setReg_mod (k v : Nat) : setReg k (v % 2 ^ 32) = setReg k v :=
  funext fun _ => congrArg (fun x => [Change.reg k x]) (ofNat_mod v)

/-- FAULT_ADDR holds the low 32 bits of an address. -/
theorem faultWith_mod {n : Nat} (hn : n < 64) (pc cause addr : Nat) (sub : Option Nat) :
    faultWith n pc cause addr sub = faultWith n pc cause (addr % 2 ^ 32) sub := by
  simp only [faultWith, if_neg (show n ≠ 64 by omega), seqFault, recordFault, setReg_mod]

theorem handlerWdog_answers {s : State} {n : Fin 65} (hon : s.on (coreDomain n) = true) (hn : n.val < 64)
    (hrun : (s.core n).run = .running) (hin : (s.core n).inHandler = true) (hbudget : (s.core n).budget ≠ 0)
    (hleft : s.hleft n = 0) (hskip : s.flag (SEQ.CORE_EXP_FAULT_SKIP n) = false) (hslot : (s.core n).slot < 16) :
    Answers (.handlerWdog n) s (fun t => (t.core n).run = .halted ∧
      t.regN (SEQ.FAULT n) =
        (s.core n).pc % 2 ^ 16 * 2 ^ 16 + b2n (s.core n).init * 2 ^ 15 + (s.core n).slot * 2 ^ 8 + 7) := by
  refine answers_run (e := inDomain (coreDomain n) (ask fun s => when _ _)) rfl ?_
  rw [after_inDomain, if_pos hon, after_ask, after_when, hrun, hin, hleft, if_pos (by simp [hbudget]), after_seq_cons, after_seq_cons, after_seq_nil,
    after_setCore, faultWith_mod hn]
  generalize hu : s.withCore n _ = u
  have hcore : u.core n = { s.core n with budget := 0, dispatched := s.acc.ltb } := by rw [← hu, core_withCore_self]
  obtain ⟨hcore', -, hfault, -⟩ := stops_faultWith (s := u) (pc := (s.core n).pc) (cause := 7)
    (addr := (s.core n).budget % 2 ^ 32) hn (by rwa [← hu, flag_withCore]) (by rwa [hcore]) (by norm_num)
    (Nat.mod_lt _ (by norm_num)) none
  rw [hcore] at hfault
  exact ⟨by rw [hcore'], hfault⟩

/-- Settles O14: the lowest slot that pends and is enabled is dispatched; a doorbell latches at its slot; a handler out of
budget faults WDOG. -/
theorem dispatchResults : Obligations.DispatchResults := by
  intro s n hon c
  refine ⟨fun k hk hrun hslices hqueue hpend hen hlow => ?_,
    fun i t hfind hreached hbound => exec_coreTimerExpire hon hfind (decide_eq_true hreached) hbound,
    fun b k hb hk hrun hpend hbound => ?_,
    fun hn hrun hin hbudget hleft hskip hslot => handlerWdog_answers hon hn hrun hin hbudget hleft hskip hslot⟩
  · refine ⟨_, exec_dispatch hon hk hrun hslices hqueue hpend hen hlow, onlyCore_withCore .., ?_⟩
    rw [core_withCore_self]
    refine ⟨rfl, rfl, ?_, ?_, fun j hj hne => ?_, ?_, rfl, rfl, rfl, rfl⟩
    · rw [dispatched, bits, pow_zero, Nat.div_one]
    · rw [dispatched, getLsbD_ofNat_putBit _ _ _ _ hk, if_pos rfl]
    · rw [dispatched, getLsbD_ofNat_putBit _ _ _ _ hj, if_neg hne]
    · simp only [dispatched, bits, BitVec.toNat_ofNat]
      omega
  · refine ⟨_, exec_doorbellWrite hon hb hrun hpend hbound, onlyCore_withCore .., ?_⟩
    rw [core_withCore_self]
    exact ⟨by rw [getLsbD_ofNat_putBit _ _ _ _ hk, if_pos rfl], rfl⟩

end Sys2Proof.Machine
end

section
/-!
PROOFS: commands to a core from outside it, the release instant, BIND and XSEG_INIT (O15).
-/
namespace Sys2Proof.Machine

open Sys2Proof

/-! ### START, HALT, KILL and RESET (R71, R86-R90, R111) -/

section
variable {s : State} {n : Nat}

theorem after_coreStart_held (h : (s.core n).run = .held) : s.after (coreStart n) =
    s.after (if s.flag SEQ.START_CTL_ARMED then setCore n fun c => { c with marked := true } else release n) := by
  simp only [coreStart, after_ask, h]

theorem after_coreStart_halted (h : (s.core n).run = .halted) : s.after (coreStart n) = s.after (setCore n fun c => { c with
    run := if c.inHandler then .running else .idle, pc := s.fld (SEQ.FAULT_PC n), dispatched := s.acc.ltb }) := by
  simp only [coreStart, after_ask, h]

theorem after_coreHalt_idle (h : (s.core n).run = .idle) :
    s.after (coreHalt n) = s.after (halt n (s.core n).pc) := by
  simp only [coreHalt, after_ask, h]

theorem after_coreHalt_running (h : (s.core n).run = .running) :
    s.after (coreHalt n) = s.after (setCore n fun c => { c with haltReq := true }) := by
  simp only [coreHalt, after_ask, h]

theorem after_coreKill (h : (s.core n).run = .running) (hwait : (s.core n).wait = .none) :
    s.after (coreKill n) = s.after (halt n (s.core n).pc) := by
  simp only [coreKill, after_ask, h, hwait]

end

section
variable {s : State} {n : Fin 64} (hon : s.on (coreDomain n) = true)
include hon

/-- A HELD core is released by START. -/
theorem coreStart_releases (hrun : (s.core n).run = .held) (harmed : s.flag SEQ.START_CTL_ARMED = false)
    (hinit : s.flag (SEQ.INIT_ENTRY_EN n) = false) :
    Answers (.coreStart n) s (fun t => OnlyCore n s t ∧ (t.core n).run = .idle) := by
  refine answers_run (e := inDomain (coreDomain n) (coreStart n)) rfl ?_
  rw [after_inDomain, if_pos hon, after_coreStart_held hrun, harmed, if_neg Bool.false_ne_true, release, after_ask, hinit,
    after_setCore]
  exact ⟨onlyCore_withCore .., by rw [core_withCore_self]; rfl⟩

/-- While a release is armed, START marks a HELD core for it. -/
theorem exec_coreStart_marks (hrun : (s.core n).run = .held) (harmed : s.flag SEQ.START_CTL_ARMED = true) :
    exec (.coreStart n) s = .next (s.withCore n { s.core n with marked := true }) := by
  show execCoreStart n s = _
  rw [execCoreStart, run_eq, after_inDomain, if_pos hon, after_coreStart_held hrun, harmed, if_pos rfl, after_setCore]

/-- START resumes a HALTED core at FAULT.PC. -/
theorem exec_coreStart_resumes (hrun : (s.core n).run = .halted) :
    exec (.coreStart n) s = .next (s.withCore n { s.core n with
      run := if (s.core n).inHandler then .running else .idle, pc := s.regN (SEQ.FAULT n) / 2 ^ 16
      dispatched := s.acc.ltb }) := by
  have hpc : s.fld (SEQ.FAULT_PC n) = s.regN (SEQ.FAULT n) / 2 ^ 16 := by
    have hlt := regN_lt s (SEQ.FAULT n)
    show s.regN (SEQ.FAULT n) / 2 ^ 16 % 2 ^ (31 - 16 + 1) = _
    omega
  show execCoreStart n s = _
  rw [execCoreStart, run_eq, after_inDomain, if_pos hon, after_coreStart_halted hrun, after_setCore, hpc]

theorem coreHalt_stops (hrun : (s.core n).run = .idle) (hslot : (s.core n).slot < 16) :
    Answers (.coreHalt n) s (fun t => (t.core n).run = .halted ∧ (t.core n).g = (s.core n).g ∧
      t.regN (SEQ.FAULT n) =
        (s.core n).pc % 2 ^ 16 * 2 ^ 16 + b2n (s.core n).init * 2 ^ 15 + (s.core n).slot * 2 ^ 8) := by
  refine answers_run (e := inDomain (coreDomain n) (coreHalt n)) rfl ?_
  rw [after_inDomain, if_pos hon, after_coreHalt_idle hrun]
  obtain ⟨hcore, -, hfault, -⟩ := stops_halt (pc := (s.core n).pc) n.isLt hslot
  exact ⟨by rw [hcore], by rw [hcore], hfault.trans (Nat.add_zero _)⟩

theorem exec_coreHalt_requests (hrun : (s.core n).run = .running) :
    exec (.coreHalt n) s = .next (s.withCore n { s.core n with haltReq := true }) := by
  show execCoreHalt n s = _
  rw [execCoreHalt, run_eq, after_inDomain, if_pos hon, after_coreHalt_running hrun, after_setCore]

omit hon in
theorem core_after_recordFault (s : State) (n pc cause addr : Nat) (init : Bool) (slot m : Nat) :
    (s.after (recordFault n pc cause addr init slot)).core m = s.core m := by
  rw [recordFault, after_when]
  split <;> rfl

theorem coreKill_stops (hrun : (s.core n).run = .running) (hwait : (s.core n).wait = .none) :
    Answers (.coreKill n) s (fun t => (t.core n).run = .halted ∧ (t.core n).g = (s.core n).g) := by
  refine answers_run (e := inDomain (coreDomain n) (coreKill n)) rfl ?_
  rw [after_inDomain, if_pos hon, after_coreKill hrun hwait, after_halt, core_withCore_self, stopped,
    core_after_recordFault]
  exact ⟨rfl, rfl⟩

omit hon in
/-- Comparators are freed in ACC alone. -/
theorem keeps_freeCompsOf {α : Type} {f : State → α} (hacc : ∀ s a, f (s.apply (.acc a)) = f s) (n : Nat) :
    Keeps f (freeCompsOf n) := by
  rw [freeCompsOf, freeWhere]
  exact keeps_ask fun _ => keeps_forEach fun _ _ _ => hacc ..

theorem coreReset_clears (hrun : (s.core n).run = .halted) :
    Answers (.coreReset n) s (fun t => (t.core n).run = .held ∧ (t.core n).g = [] ∧ (t.core n).pend = 0 ∧
      (t.core n).timers = [] ∧ t.regN (SEQ.FAULT n) = 0) := by
  refine answers_run (e := inDomain (coreDomain n) (coreResetCmd n)) rfl ?_
  rw [after_inDomain, if_pos hon, coreResetCmd, after_ask, after_when, if_pos (by rw [hrun]; rfl)]
  simp only [after_seq_cons, after_seq_nil, after_setCore, after_setReg]
  rw [show ∀ u : State, (u.after (freeCompsOf n)).core n = u.core n from
      keeps_freeCompsOf (f := fun u => u.core n) (fun _ _ => rfl) n,
    show ∀ u : State, (u.after (freeCompsOf n)).regN (SEQ.FAULT n) = u.regN (SEQ.FAULT n) from
      keeps_freeCompsOf (f := fun u => u.regN (SEQ.FAULT n)) (fun _ _ => rfl) n]
  have hne : SEQ.FAULT n ≠ SEQ.FAULT_ADDR n := by simp only [SEQ.FAULT, SEQ.FAULT_ADDR]; omega
  rw [core_apply_reg, core_apply_reg, core_apply_reg, core_withCore_self, State.regN, reg_apply_ne _ _ _ _ hne,
    reg_apply_self]
  exact ⟨rfl, rfl, rfl, rfl, rfl⟩

end

/-! ### The release instant (R90) -/

/-- Core `n` has been released: it runs its INIT handler, if it has one, and is no longer marked. -/
def Released (n : Nat) (s : State) : Prop :=
  (s.core n).run = (if s.flag (SEQ.INIT_ENTRY_EN n) then .running else .idle) ∧ (s.core n).marked = false

theorem after_release (s : State) (n : Nat) : ∃ c, s.after (release n) = s.withCore n c ∧
    c.run = (if s.flag (SEQ.INIT_ENTRY_EN n) then .running else .idle) ∧ c.marked = false :=
  ⟨_, rfl, rfl, rfl⟩

/-- Releases of several cores release each of them, and touch no register. -/
theorem after_releases (n : Nat) (l : List Nat) (s : State) :
    let t := s.after (forEach l release)
    t.regs = s.regs ∧ (n ∈ l ∨ Released n s → Released n t) := by
  induction l generalizing s with
  | nil => exact ⟨rfl, fun h => h.resolve_left List.not_mem_nil⟩
  | cons m l ih =>
    obtain ⟨c, hafter, hrun, hmarked⟩ := after_release s m
    rw [after_forEach_cons, hafter]
    obtain ⟨hregs, hreleased⟩ := ih (s.withCore m c)
    refine ⟨hregs, fun h => hreleased ?_⟩
    by_cases hm : n = m
    · subst hm
      exact .inr ⟨by rw [core_withCore_self, flag_withCore, hrun], by rw [core_withCore_self, hmarked]⟩
    · refine h.imp (fun h => (List.mem_cons.1 h).resolve_left hm) fun ⟨h, h'⟩ => ⟨?_, ?_⟩
      · rwa [core_withCore_ne _ _ _ _ hm, flag_withCore]
      · rwa [core_withCore_ne _ _ _ _ hm]

/-- START_CTL.ARM with the instant to come arms its comparator. -/
theorem startArm_arms {s : State} (hon : s.on 2 = true)
    (hreached : s.reached (BitVec.ofNat 64 (s.pair SEQ.START_AT_LO SEQ.START_AT_HI)) = false) :
    Answers .startArm s (fun t => t.flag SEQ.START_CTL_ARMED = true ∧ t.cores = s.cores) := by
  refine answers_run (e := inDomain 2 startArm) rfl ?_
  rw [after_inDomain, if_pos hon, startArm, after_ask]
  dsimp only
  rw [hreached, if_neg Bool.false_ne_true, after_seq_cons, after_seq_cons, after_seq_nil]
  refine ⟨?_, rfl⟩
  exact (flag_setFld_bit s SEQ.START_CTL 1 1 1 (by norm_num)).trans rfl

/-- At the release instant a marked core is released. -/
theorem startRelease_releases {s : State} {n : Nat} (hn : n < 64) (hdomain : s.on (coreDomain n) = true) (hon : s.on 2 = true)
    (harmed : s.flag SEQ.START_CTL_ARMED = true) (hcomp : (s.comp 72).armed = true) (hreached : s.reached (s.comp 72).at_ = true)
    (hmarked : (s.core n).marked = true) (hrun : (s.core n).run = .held) :
    Answers .startRelease s (fun t => t.flag SEQ.START_CTL_ARMED = false ∧
      (t.core n).run = (if s.flag (SEQ.INIT_ENTRY_EN n) then .running else .idle) ∧ (t.core n).marked = false) := by
  refine answers_run (e := inDomain 2 startRelease) rfl ?_
  rw [after_inDomain, if_pos hon, startRelease, after_ask, after_when, harmed, hcomp, hreached, if_pos (by rfl), after_seq_cons,
    after_seq_cons, after_seq_nil, releaseMarked, after_ask, after_seq_cons, after_seq_cons, after_seq_nil]
  have hmem : n ∈ allBelow 64 (fun n => (s.after (disarm 72)).on (coreDomain n) && ((s.after (disarm 72)).core n).marked &&
      ((s.after (disarm 72)).core n).run = .held) := by
    refine mem_allBelow.2 ⟨hn, ?_⟩
    change (s.on (coreDomain n) && (s.core n).marked && decide ((s.core n).run = .held)) = true
    rw [hdomain, hmarked, hrun]
    rfl
  generalize allBelow 64 _ = l at hmem ⊢
  have harmed' : (((s.after (disarm 72)).after (setFld SEQ.START_CTL_ARMED 0))).flag SEQ.START_CTL_ARMED = false :=
    (flag_setFld_bit (s.after (disarm 72)) SEQ.START_CTL 1 1 0 (by norm_num)).trans rfl
  have hinit : (((s.after (disarm 72)).after (setFld SEQ.START_CTL_ARMED 0))).flag (SEQ.INIT_ENTRY_EN n) =
      s.flag (SEQ.INIT_ENTRY_EN n) := by
    rw [State.flag, fld_setFld_ne]
    · rfl
    · simp only [SEQ.INIT_ENTRY_EN, SEQ.INIT_ENTRY, SEQ.START_CTL_ARMED, SEQ.START_CTL]
      omega
  generalize (s.after (disarm 72)).after (setFld SEQ.START_CTL_ARMED 0) = u at harmed' hinit ⊢
  obtain ⟨hregs, hreleased⟩ := after_releases n l u
  obtain ⟨hrun', hmarked'⟩ := hreleased (.inl hmem)
  have hflag : ∀ f, (u.after (forEach l release)).flag f = u.flag f := fun f =>
    flag_eq_of_reg (by rw [State.reg, hregs, State.reg])
  rw [hflag, hinit] at hrun'
  exact ⟨(hflag _).trans harmed', hrun', hmarked'⟩

/-! ### XSEG_INIT and BIND (R79, R89) -/

theorem regN_withCore (s : State) (n : Nat) (c : Core) (k : Nat) : (s.withCore n c).regN k = s.regN k := rfl

theorem mem_withCore (s : State) (n : Nat) (c : Core) : (s.withCore n c).mem = s.mem := rfl

/-- A register written whole reads as what was written; memory and cores are as they were. -/
theorem apply_reg_spec (s : State) (k : Nat) {v : Nat} (hv : v < 2 ^ 32) : let t := s.apply (.reg k (BitVec.ofNat 32 v))
    t.regN k = v ∧ t.mem = s.mem ∧ ∀ m, t.core m = s.core m :=
  ⟨regN_apply_self s k v hv, rfl, fun _ => rfl⟩

section
variable {s : State} {n : Fin 64} {v : Word} (hon : s.on (coreDomain n) = true)
include hon

theorem exec_xsegInitWrite (hrun : (s.core n).run = .held) (hlock : s.flag (lockOf (SEQ.XSEG_INIT n)) = false) :
    exec (.xsegInitWrite n v) s = .next (s.withCore n { s.core n with xseg := v.toNat % 16 }) := by
  show execXsegInitWrite n v s = _
  rw [execXsegInitWrite, run_eq, after_inDomain, if_pos hon, xsegInitWrite, after_ask, after_when, hrun, hlock, if_pos (by rfl),
    after_setCore]

/-- A good binding to an event is taken, and at most its own slot's PEND is cleared. -/
theorem bindWrite_takes {k : Fin 16} (hlock : s.flag (lockOf (bindReg n k)) = false) (hkind : bits v.toNat 30 28 = 1)
    (hsource : bits v.toNat 23 16 ≤ 95) (halign : v.toNat % 4 = 0) :
    Answers (.bindWrite n.castSucc k v) s (fun t =>
      t.regN (SEQ.BIND n k) = v.toNat % 2 ^ 24 + v.toNat / 2 ^ 28 * 2 ^ 28 ∧
      t.mem = s.mem ∧ ∀ j < 16, j ≠ k.val → (t.core n).pend.getLsbD j = (s.core n).pend.getLsbD j) := by
  have hreg : bindReg n k = SEQ.BIND n k := if_neg (by omega)
  have hgood : badBind v.toNat = false := by
    have hlow : bits v.toNat 1 0 = 0 := by rw [bits]; omega
    rw [badBind, hkind, hlow]
    simpa using hsource
  have hword : v.toNat % 2 ^ 24 + bits v.toNat 31 28 * 2 ^ 28 = v.toNat % 2 ^ 24 + v.toNat / 2 ^ 28 * 2 ^ 28 := by
    have hlt := v.isLt
    rw [bits]
    omega
  have hlt : v.toNat % 2 ^ 24 + v.toNat / 2 ^ 28 * 2 ^ 28 < 2 ^ 32 := by
    have hlt := v.isLt
    omega
  refine answers_run (e := inDomain (coreDomain n) (bindWrite n k v.toNat)) rfl ?_
  rw [after_inDomain, if_pos hon, bindWrite, after_ask]
  dsimp only
  rw [hlock, if_neg Bool.false_ne_true, hgood, if_neg Bool.false_ne_true, after_seq_cons, after_seq_cons, after_seq_cons,
    after_seq_nil, after_ask, hkind, hword, hreg, after_setReg]
  obtain ⟨hself, hmem, hcore⟩ := apply_reg_spec s (SEQ.BIND n k) hlt
  generalize s.apply (.reg (SEQ.BIND n k) _) = u at *
  rw [after_when, if_neg (by simp), after_when]
  split
  · rw [after_setCore, regN_withCore, mem_withCore]
    refine ⟨hself, hmem, fun j hj hne => ?_⟩
    rw [core_withCore_self, getLsbD_ofNat_putBit _ _ _ _ hj, if_neg hne, hcore]
  · exact ⟨hself, hmem, fun _ _ _ => by rw [hcore]⟩

end

/-- Settles O15: each command goes by the core's run state; a release lets every marked core go. -/
theorem coreControl : Obligations.CoreControl := by
  intro s n hon c
  exact ⟨coreStart_releases hon, exec_coreStart_marks hon, exec_coreStart_resumes hon, coreHalt_stops hon,
    exec_coreHalt_requests hon, coreKill_stops hon, coreReset_clears hon, startArm_arms,
    fun h2 harmed hcomp hreached hmarked hrun =>
      startRelease_releases n.isLt hon h2 harmed hcomp hreached hmarked hrun,
    fun v hrun hlock => exec_xsegInitWrite hon hrun hlock, fun k v hlock hkind hsource halign =>
      bindWrite_takes hon hlock hkind hsource halign⟩

end Sys2Proof.Machine
end

section
/-!
PROOFS: XCOPY between two parts of Flacon (O13).
-/
namespace Sys2Proof.Machine

open Sys2Proof

/-! ### CRC-32 over a string cut in two (R84) -/

theorem crc32Byte_lt {c b : Nat} (hc : c < 2 ^ 32) (hb : b < 256) : crc32Byte c b < 2 ^ 32 := by
  have hfold : ∀ (l : List Nat) x, x < 2 ^ 32 →
      l.foldl (fun x _ => if x % 2 = 1 then Nat.xor (x / 2) 0xEDB88320 else x / 2) x < 2 ^ 32 := by
    intro l
    induction l with
    | nil => exact fun x hx => hx
    | cons _ l ih =>
      intro x hx
      refine ih _ ?_
      dsimp only
      split
      · exact Nat.xor_lt_two_pow (by omega) (by norm_num)
      · omega
  exact hfold _ _ (Nat.xor_lt_two_pow hc (by omega))

theorem crc32Fold_lt {l : List Nat} (hl : ∀ b ∈ l, b < 256) {x : Nat} (hx : x < 2 ^ 32) : l.foldl crc32Byte x < 2 ^ 32 := by
  induction l generalizing x with
  | nil => exact hx
  | cons b l ih =>
    exact ih (fun y hy => hl y (List.mem_cons_of_mem _ hy)) (crc32Byte_lt hx (hl b (List.mem_cons_self ..)))

theorem crc32From_lt {l : List Nat} (hl : ∀ b ∈ l, b < 256) {x : Nat} (hx : x < 2 ^ 32) : crc32From x l < 2 ^ 32 :=
  Nat.xor_lt_two_pow (crc32Fold_lt hl (Nat.xor_lt_two_pow hx (by norm_num))) (by norm_num)

theorem xor_xor_cancel (x m : Nat) : Nat.xor (Nat.xor x m) m = x := by
  rw [show Nat.xor (Nat.xor x m) m = x ^^^ m ^^^ m from rfl, Nat.xor_assoc, Nat.xor_self, Nat.xor_zero]

theorem crc32From_nil (x : Nat) : crc32From x [] = x := xor_xor_cancel ..

theorem crc32From_append (x : Nat) (l l' : List Nat) : crc32From (crc32From x l) l' = crc32From x (l ++ l') := by
  rw [crc32From, crc32From, crc32From, xor_xor_cancel, List.foldl_append]

/-! ### Strings of memory -/

theorem mem_bytes {s : State} {a k b : Nat} (h : b ∈ s.bytes a k) : b < 256 := by
  obtain ⟨i, -, rfl⟩ := List.mem_map.1 h
  exact byte_lt s _

theorem bytes_length (s : State) (a k : Nat) : (s.bytes a k).length = k := by simp [State.bytes]

theorem bytes_add (s : State) (a j k : Nat) : s.bytes a (j + k) = s.bytes a j ++ s.bytes (a + j) k := by
  simp [State.bytes, List.range_add, Nat.add_assoc, Function.comp_def]

/-- The bytes of the number that a string of bytes makes. -/
theorem leBytes_ofLe {l : List Nat} (hl : ∀ b ∈ l, b < 256) : leBytes (ofLe l) l.length = l := by
  induction l with
  | nil => rfl
  | cons b l ih =>
    have hb := hl b (List.mem_cons_self ..)
    rw [List.length_cons, leBytes, ofLe, Nat.mod_eq_of_lt hb, Nat.add_mul_mod_self_left, Nat.mod_eq_of_lt hb,
      Nat.add_mul_div_left _ _ (by norm_num), Nat.div_eq_of_lt hb, Nat.zero_add,
      ih fun y hy => hl y (List.mem_cons_of_mem _ hy)]

theorem leBytes_mem' (s : State) (a k : Nat) : leBytes (s.mem' a k) k = s.bytes a k := by
  have h := leBytes_ofLe (l := s.bytes a k) fun b => mem_bytes
  rwa [bytes_length] at h

theorem mem'_byte (s : State) (a : Nat) {j k : Nat} (hj : j < k) : s.mem' a k / 2 ^ (8 * j) % 256 = s.byte (a + j) := by
  rw [← leBytes_getD _ k j hj, leBytes_mem', State.bytes]
  simp [hj]

theorem regionOf_flacon {a : Nat} (hl : 0x10000000 ≤ a) (hh : a < 0x10400000) : regionOf a = .flacon := by
  rw [regionOf, if_neg (by omega), if_pos ⟨hl, hh⟩]

/-! ### One word of an XCOPY (R84) -/

/-- `len` bytes at `a` lie in Flacon. -/
def InFlacon (a len : Nat) : Prop := 0x10000000 ≤ a ∧ a + len ≤ 0x10400000

section
variable {s : State} {a k : Nat} {stop : Effect}

theorem after_xcopyAccess (hon : s.on 2 = true) (h : InFlacon a (4 * (k + 1))) (write : Bool) (stop serve : Effect) :
    s.after (xcopyAccess a write stop serve) = s.after serve := by
  obtain ⟨hl, hh⟩ := h
  exact busAccess_flacon _ _ _ _ hon (regionOf_flacon hl (by omega)) (regionOf_flacon (by omega) (by omega))

theorem after_xcopyPut (hon : s.on 2 = true) (h : InFlacon a (4 * (k + 1))) (v : Nat) (e : Effect) :
    s.after (xcopyAccess a true stop (busServeWrite 64 a 4 v stop e)) = (s.after (putMem a 4 v)).after e := by
  obtain ⟨hl, hh⟩ := h
  have hregion := regionOf_flacon hl (show a < 0x10400000 by omega)
  rw [after_xcopyAccess hon ⟨hl, hh⟩]
  simp only [busServeWrite, hregion]
  exact writeMem_flacon _ _ _ hregion

theorem after_xcopyGet (hon : s.on 2 = true) (h : InFlacon a (4 * (k + 1))) (ok : Nat → Effect) :
    s.after (xcopyAccess a false stop (busServeRead 64 a 4 stop ok)) = s.after (ok (s.mem' a 4)) := by
  obtain ⟨hl, hh⟩ := h
  have hregion := regionOf_flacon hl (show a < 0x10400000 by omega)
  rw [after_xcopyAccess hon ⟨hl, hh⟩]
  simp only [busServeRead, hregion]
  exact readMem_flacon _ _ _ hregion

end

/-- The management core with `l` folded into XCRC. -/
def folded (c : Core) (l : List Nat) : Core := { c with xcrc := BitVec.ofNat 32 (crc32From c.xcrc.toNat l) }

theorem folded_nil (c : Core) : folded c [] = c := by
  rw [folded, crc32From_nil, BitVec.ofNat_toNat, BitVec.setWidth_eq]

theorem folded_folded (c : Core) {l : List Nat} (hl : ∀ b ∈ l, b < 256) (l' : List Nat) :
    folded (folded c l) l' = folded c (l ++ l') := by
  have h : (BitVec.ofNat 32 (crc32From c.xcrc.toNat l)).toNat = crc32From c.xcrc.toNat l := by
    rw [BitVec.toNat_ofNat, Nat.mod_eq_of_lt (crc32From_lt hl c.xcrc.isLt)]
  rw [folded, folded, h, crc32From_append, folded]

section
variable {s : State} {src dst k : Nat} {pat : Word} {stop : Nat → Effect} (hrun : (s.core 64).run = .running) (hon : s.on 2 = true)
include hrun hon

theorem after_xcopyWords_copy (hsrc : InFlacon src (4 * (k + 1))) (hdst : InFlacon dst (4 * (k + 1))) :
    s.after (xcopyWords 0 pat stop (k + 1) src dst) =
      (s.after (putMem dst 4 (s.mem' src 4))).after (xcopyWords 0 pat stop k (src + 4) (dst + 4)) := by
  rw [xcopyWords, after_ask]
  dsimp only
  rw [if_neg (not_not.2 hrun), if_neg (by norm_num), after_xcopyGet hon hsrc, if_pos rfl, after_xcopyPut hon hdst]

theorem after_xcopyWords_fill (hdst : InFlacon dst (4 * (k + 1))) :
    s.after (xcopyWords 3 pat stop (k + 1) src dst) =
      (s.after (putMem dst 4 pat.toNat)).after (xcopyWords 3 pat stop k (src + 4) (dst + 4)) := by
  rw [xcopyWords, after_ask]
  dsimp only
  rw [if_neg (not_not.2 hrun), if_pos rfl, after_xcopyPut hon hdst]

theorem after_xcopyWords_crc (hsrc : InFlacon src (4 * (k + 1))) :
    s.after (xcopyWords 2 pat stop (k + 1) src dst) =
      (s.withCore 64 (folded (s.core 64) (s.bytes src 4))).after (xcopyWords 2 pat stop k (src + 4) (dst + 4)) := by
  rw [xcopyWords, after_ask]
  dsimp only
  rw [if_neg (not_not.2 hrun), if_neg (by norm_num), after_xcopyGet hon hsrc, if_neg (by norm_num), if_neg (by norm_num),
    after_seq_cons, after_seq_cons, after_seq_nil, after_setCore, leBytes_mem']
  rfl

theorem after_xcopyWords_copycrc (hsrc : InFlacon src (4 * (k + 1))) (hdst : InFlacon dst (4 * (k + 1))) :
    s.after (xcopyWords 1 pat stop (k + 1) src dst) =
      ((s.withCore 64 (folded (s.core 64) (s.bytes src 4))).after (putMem dst 4 (s.mem' src 4))).after
        (xcopyWords 1 pat stop k (src + 4) (dst + 4)) := by
  rw [xcopyWords, after_ask]
  dsimp only
  rw [if_neg (not_not.2 hrun), if_neg (by norm_num), after_xcopyGet hon hsrc, if_neg (by norm_num), if_pos rfl,
    after_seq_cons, after_seq_cons, after_seq_nil, after_setCore, leBytes_mem']
  exact after_xcopyPut (s := s.withCore 64 (folded (s.core 64) (s.bytes src 4))) hon hdst _ _

end

/-! ### The words of an XCOPY in turn -/

/-- From `s` to `t` the `len` bytes at `dst` took `value`, and XCRC became `crc`; nothing else changed. -/
structure Moves (s : State) (dst len : Nat) (value : Nat → Nat) (crc : Word) (t : State) : Prop where
  frame : t = { s with mem := t.mem, cores := t.cores }
  others : ∀ m, m ≠ 64 → t.core m = s.core m
  outside : MemOnly dst len s t
  bytes : ∀ i < len, t.byte (dst + i) = value i
  core : t.core 64 = { s.core 64 with xcrc := crc }

theorem moves_refl (s : State) (dst : Nat) (value : Nat → Nat) : Moves s dst 0 value (s.core 64).xcrc s :=
  ⟨rfl, fun _ _ => rfl, fun _ _ => rfl, fun _ hi => absurd hi (Nat.not_lt_zero _), rfl⟩

theorem moves_putMem (s : State) (dst v : Nat) :
    Moves s dst 4 (fun j => v / 2 ^ (8 * j) % 256) (s.core 64).xcrc (s.after (putMem dst 4 v)) := by
  have hframe := after_putBytes s dst (leBytes v 4)
  have hcore := core_putBytes s dst (leBytes v 4)
  refine ⟨?_, fun m _ => hcore m, memOnly_putMem s dst 4 v, fun i hi => byte_putMem s dst v hi, hcore 64⟩
  rw [putMem, hframe]

/-- One word copied. -/
theorem moves_copyWord (s : State) (src dst : Nat) : Moves s dst 4 (fun i => s.byte (src + i)) (s.core 64).xcrc
    (s.after (putMem dst 4 (s.mem' src 4))) :=
  { moves_putMem s dst (s.mem' src 4) with
    bytes := fun _ hi => (byte_putMem s dst _ hi).trans (mem'_byte s src hi) }

/-- A move after a change of XCRC. -/
theorem moves_of_xcrc {s t : State} {dst len : Nat} {value : Nat → Nat} {x crc : Word}
    (h : Moves (s.withCore 64 { s.core 64 with xcrc := x }) dst len value crc t) : Moves s dst len value crc t := by
  obtain ⟨hframe, hothers, houtside, hbytes, hcore⟩ := h
  refine ⟨hframe, fun m hm => (hothers m hm).trans (core_withCore_ne _ _ _ _ hm), houtside, hbytes, ?_⟩
  rw [hcore, core_withCore_self]

theorem moves_trans {s t u : State} {dst j len : Nat} {value value₁ value₂ : Nat → Nat} {crc crc' : Word}
    (h : Moves s dst j value₁ crc t) (h' : Moves t (dst + j) len value₂ crc' u) (hv : ∀ i < j, value₁ i = value i)
    (hv' : ∀ i < len, value₂ i = value (j + i)) : Moves s dst (j + len) value crc' u := by
  refine ⟨by rw [h'.frame, h.frame], fun m hm => (h'.others m hm).trans (h.others m hm), fun x hx => ?_, fun i hi => ?_,
    by rw [h'.core, h.core]⟩
  · exact (h'.outside x (by omega)).trans (h.outside x (by omega))
  · by_cases hij : i < j
    · rw [h'.outside _ (by omega), h.bytes i hij, hv i hij]
    · obtain ⟨i, rfl⟩ := Nat.exists_eq_add_of_le (Nat.le_of_not_lt hij)
      rw [← Nat.add_assoc, h'.bytes i (by omega), hv' i (by omega)]

section
variable {s t : State} {dst len : Nat} {value : Nat → Nat} {crc : Word} (h : Moves s dst len value crc t)
include h

theorem Moves.run (hrun : (s.core 64).run = .running) : (t.core 64).run = .running := by rw [h.core]; exact hrun

theorem Moves.on (hon : s.on 2 = true) : t.on 2 = true := by rw [h.frame]; exact hon

end

/-- The rest of a source string apart from its destination reads as before the first word went. -/
theorem Moves.source {s t : State} {src dst k : Nat} {value : Nat → Nat} {crc : Word} (h : Moves s dst 4 value crc t)
    (hdisj : src + 4 * (k + 1) ≤ dst ∨ dst + 4 * (k + 1) ≤ src) (i : Nat) (hi : i < 4 * k) :
    t.byte (src + 4 + i) = s.byte (src + (4 + i)) := by
  rw [Nat.add_assoc]
  exact h.outside _ (by omega)

section
variable {pat : Word} {stop : Nat → Effect}

theorem inFlacon_rest {a k : Nat} (h : InFlacon a (4 * (k + 1))) : InFlacon (a + 4) (4 * k) := by
  obtain ⟨hl, hh⟩ := h
  constructor <;> omega

/-- FILL puts its pattern at each word. -/
theorem moves_fill (k : Nat) {s : State} (src : Nat) {dst : Nat} (hrun : (s.core 64).run = .running) (hon : s.on 2 = true)
    (hdst : InFlacon dst (4 * k)) : ∃ t, s.after (xcopyWords 3 pat stop k src dst) = t.after (retire 64 id) ∧
      Moves s dst (4 * k) (fun i => pat.toNat / 2 ^ (8 * (i % 4)) % 256) (s.core 64).xcrc t := by
  induction k generalizing s src dst with
  | zero => exact ⟨s, rfl, moves_refl ..⟩
  | succ k ih =>
    have hput := moves_putMem s dst pat.toNat
    obtain ⟨t, hafter, hmoves⟩ := ih (src + 4) (hput.run hrun) (hput.on hon) (inFlacon_rest hdst)
    refine ⟨t, (after_xcopyWords_fill hrun hon hdst).trans hafter, ?_⟩
    rw [hput.core] at hmoves
    rw [Nat.mul_succ, Nat.add_comm]
    refine moves_trans hput hmoves (fun i hi => ?_) fun i _ => ?_
    · rw [Nat.mod_eq_of_lt hi]
    · rw [Nat.add_mod_left]

/-- A mode that copies word by word, and of which each word takes XCRC on by `crcOf`. -/
theorem moves_copying {mode : Nat} {crcOf : Core → List Nat → Word} (hnil : ∀ c, crcOf c [] = c.xcrc)
    (happend : ∀ c l l', (∀ b ∈ l, b < 256) → crcOf { c with xcrc := crcOf c l } l' = crcOf c (l ++ l'))
    (hstep : ∀ (s : State) (src dst k : Nat), (s.core 64).run = .running → s.on 2 = true → InFlacon src (4 * (k + 1)) →
      InFlacon dst (4 * (k + 1)) → ∃ t, Moves s dst 4 (fun i => s.byte (src + i)) (crcOf (s.core 64) (s.bytes src 4)) t ∧
        s.after (xcopyWords mode pat stop (k + 1) src dst) = t.after (xcopyWords mode pat stop k (src + 4) (dst + 4)))
    (k : Nat) {s : State} {src dst : Nat} (hrun : (s.core 64).run = .running) (hon : s.on 2 = true)
    (hsrc : InFlacon src (4 * k)) (hdst : InFlacon dst (4 * k)) (hdisj : src + 4 * k ≤ dst ∨ dst + 4 * k ≤ src) :
    ∃ t, s.after (xcopyWords mode pat stop k src dst) = t.after (retire 64 id) ∧
      Moves s dst (4 * k) (fun i => s.byte (src + i)) (crcOf (s.core 64) (s.bytes src (4 * k))) t := by
  induction k generalizing s src dst with
  | zero => exact ⟨s, rfl, (hnil (s.core 64)).symm ▸ moves_refl ..⟩
  | succ k ih =>
    obtain ⟨u, hfirst, hrest⟩ := hstep s src dst k hrun hon hsrc hdst
    obtain ⟨t, hafter, hmoves⟩ := ih (hfirst.run hrun) (hfirst.on hon) (inFlacon_rest hsrc) (inFlacon_rest hdst) (by omega)
    have hsource := hfirst.source hdisj
    have hbytes : u.bytes (src + 4) (4 * k) = s.bytes (src + 4) (4 * k) :=
      List.map_congr_left fun i hi => by rw [hsource i (List.mem_range.1 hi), Nat.add_assoc]
    refine ⟨t, hrest.trans hafter, ?_⟩
    rw [hfirst.core, hbytes, happend _ _ _ fun b => mem_bytes, ← bytes_add] at hmoves
    rw [show 4 * (k + 1) = 4 + 4 * k by omega]
    exact moves_trans hfirst hmoves (fun _ _ => rfl) hsource

/-- COPY. -/
theorem moves_copy (k : Nat) {s : State} {src dst : Nat} (hrun : (s.core 64).run = .running) (hon : s.on 2 = true)
    (hsrc : InFlacon src (4 * k)) (hdst : InFlacon dst (4 * k)) (hdisj : src + 4 * k ≤ dst ∨ dst + 4 * k ≤ src) :
    ∃ t, s.after (xcopyWords 0 pat stop k src dst) = t.after (retire 64 id) ∧
      Moves s dst (4 * k) (fun i => s.byte (src + i)) (s.core 64).xcrc t := by
  exact moves_copying (crcOf := fun c _ => c.xcrc) (fun _ => rfl) (fun _ _ _ _ => rfl)
    (fun s src dst k hrun hon hsrc hdst => ⟨_, moves_copyWord s src dst, after_xcopyWords_copy hrun hon hsrc hdst⟩) k
    hrun hon hsrc hdst hdisj

/-- COPYCRC. -/
theorem moves_copycrc (k : Nat) {s : State} {src dst : Nat} (hrun : (s.core 64).run = .running) (hon : s.on 2 = true)
    (hsrc : InFlacon src (4 * k)) (hdst : InFlacon dst (4 * k)) (hdisj : src + 4 * k ≤ dst ∨ dst + 4 * k ≤ src) :
    ∃ t, s.after (xcopyWords 1 pat stop k src dst) = t.after (retire 64 id) ∧
      Moves s dst (4 * k) (fun i => s.byte (src + i)) (folded (s.core 64) (s.bytes src (4 * k))).xcrc t := by
  refine moves_copying (crcOf := fun c l => (folded c l).xcrc) (fun c => congrArg Core.xcrc (folded_nil c))
    (fun c l l' hl => congrArg Core.xcrc (folded_folded c hl l')) (fun s src dst k hrun hon hsrc hdst =>
      ⟨_, moves_of_xcrc (x := (folded (s.core 64) (s.bytes src 4)).xcrc) ?_,
        after_xcopyWords_copycrc hrun hon hsrc hdst⟩) k hrun hon hsrc hdst hdisj
  have hword := moves_copyWord (s.withCore 64 (folded (s.core 64) (s.bytes src 4))) src dst
  rwa [core_withCore_self] at hword

/-- CRC moves nothing. -/
theorem after_xcopyWords_folds (k : Nat) {s : State} {src dst : Nat} (hrun : (s.core 64).run = .running) (hon : s.on 2 = true)
    (hwait : (s.core 64).wait = .none) (hflow : Flows s 64) (hsrc : InFlacon src (4 * k)) :
    s.after (xcopyWords 2 pat stop k src dst) =
      s.withCore 64 { folded (s.core 64) (s.bytes src (4 * k)) with pc := (s.core 64).pc + 4 } := by
  induction k generalizing s src dst with
  | zero =>
    obtain ⟨hpc, hstep⟩ := hflow
    rw [show s.bytes src (4 * 0) = [] from rfl, folded_nil]
    exact (after_retire s 64 id hpc hstep).trans (congrArg _ (by rw [← hwait]; rfl))
  | succ k ih =>
    generalize hu : s.withCore 64 (folded (s.core 64) (s.bytes src 4)) = u at *
    have hcore : u.core 64 = folded (s.core 64) (s.bytes src 4) := by rw [← hu, core_withCore_self]
    have hbytes : u.bytes (src + 4) (4 * k) = s.bytes (src + 4) (4 * k) := by rw [← hu]; rfl
    have hrest := ih (s := u) (src := src + 4) (dst := dst + 4) (by rw [hcore]; exact hrun) (by rw [← hu]; exact hon)
      (by rw [hcore]; exact hwait) ⟨by rw [hcore]; exact hflow.1, .inl rfl⟩ (inFlacon_rest hsrc)
    rw [hcore, hbytes, folded_folded _ fun b => mem_bytes, ← bytes_add] at hrest
    rw [after_xcopyWords_crc hrun hon hsrc, hu, hrest, ← hu,
      withCore_withCore _ _ _ _ (core_ne_reset (c := folded (s.core 64) (s.bytes src 4)) hrun),
      show 4 * (k + 1) = 4 + 4 * k by omega]
    rfl

end

/-! ### XCOPY at issue (R84) -/

section
variable {s : State} {rd rs rt : Nat} (hrd : rd < 16) (hrs : rs < 16) (hrt : rt < 16)
  (hpost : (s.core 64).dpost = 0) (hstall : s.plt.stalled = []) (hon : s.on 2 = true)

/-- The addresses of an XCOPY of registers `rs` and `rt`. -/
def xcopySrc (c : Core) (rs : Nat) : Nat := (c.gr rs).toNat + c.xseg % 16 * 2 ^ 32
def xcopyDst (c : Core) (rt : Nat) : Nat := (c.gr rt).toNat + c.xseg / 16 % 16 * 2 ^ 32

/-- Nothing in Flacon has to wake. -/
theorem xcopyWaits_flacon {mode k src dst : Nat} (hon : s.on 2 = true) (hsrc : mode ≠ 3 → InFlacon src (4 * k))
    (hdst : InFlacon dst (4 * k)) : s.xcopyWaits mode k src dst = none := by
  have hanswers : ∀ {a}, InFlacon a (4 * k) → ∀ i < k, s.answers (busDomain (a + 4 * i)) = true := by
    rintro a ⟨hl, hh⟩ i hi
    simp [State.answers, busDomain, regionOf_flacon (show 0x10000000 ≤ a + 4 * i by omega) (by omega), hon]
  have hfirst : (List.range k).find? (fun i => mode ≠ 3 && (!s.busRefused 64 (src + 4 * i) 4 false &&
      !s.answers (busDomain (src + 4 * i)) && s.autoWake (busDomain (src + 4 * i)))) = none := by
    refine List.find?_eq_none.2 fun i hi => ?_
    by_cases hmode : mode = 3
    · simp [hmode]
    · simp [hanswers (hsrc hmode) i (List.mem_range.1 hi)]
  have hsecond : (List.range k).find? (fun i => mode ≠ 2 && (!s.busRefused 64 (dst + 4 * i) 4 true &&
      !s.answers (busDomain (dst + 4 * i)) && s.autoWake (busDomain (dst + 4 * i)))) = none :=
    List.find?_eq_none.2 fun i hi => by simp [hanswers hdst i (List.mem_range.1 hi)]
  unfold State.xcopyWaits
  dsimp only
  rw [hfirst, hsecond]
  rfl

include hrd hrs hrt hpost hstall hon

/-- An XCOPY whose length and addresses pass goes to its words. -/
theorem exec_xcopy {i : Instr} {row : Row} {mode : Nat} (hi : exec i s = run (xcopyOp 64 row mode) s) (hmode : mode < 4)
    (hrow : ∀ w, opcode w = 0x1D → bits w 9 8 = mode → rowOf w = row)
    (hlen : ((s.core 64).gr rd).toNat % 4 = 0) (hmax : ((s.core 64).gr rd).toNat ≤ 0x100000)
    (hsrc : mode ≠ 3 → xcopySrc (s.core 64) rs % 4 = 0 ∧ InFlacon (xcopySrc (s.core 64) rs) ((s.core 64).gr rd).toNat)
    (hdst : xcopyDst (s.core 64) rt % 4 = 0 ∧ InFlacon (xcopyDst (s.core 64) rt) ((s.core 64).gr rd).toNat)
    (h : Runs s 64 0x1D (rd * 2 ^ 18 + rs * 2 ^ 14 + rt * 2 ^ 10 + mode * 2 ^ 8)) :
    ∃ stop, exec i s = .next (s.after (xcopyWords mode ((s.core 64).gr rs) stop (((s.core 64).gr rd).toNat / 4)
      (xcopySrc (s.core 64) rs) (xcopyDst (s.core 64) rt))) := by
  obtain ⟨w, ⟨hop, hfield⟩, hguard, hissue⟩ := h.issues_decoded (by norm_num) (by omega)
  have hrd' : fRd w = rd := by rw [fRd, hfield 21 18 (by omega) (by omega), bits]; omega
  have hrs' : fRs w = rs := by rw [fRs, hfield 17 14 (by omega) (by omega), bits]; omega
  have hrt' : fRt w = rt := by rw [fRt, hfield 13 10 (by omega) (by omega), bits]; omega
  have hmode' : bits w 9 8 = mode := by rw [hfield 9 8 (by omega) (by omega), bits]; omega
  have hzero : bits w 7 0 = 0 := by rw [hfield 7 0 (by omega) (by omega), bits]; omega
  have hdec : decodeFault true (s.core 64).inFault w = none := by
    have hfields : fieldsOk w = true := by simp [fieldsOk, hop, hzero]
    simp [decodeFault, hop, hguard, hfields]
  have hsrc' : xSrc (s.core 64) w = xcopySrc (s.core 64) rs := by rw [xSrc, hrs', xcopySrc]
  have hdst' : xDst (s.core 64) w = xcopyDst (s.core 64) rt := by rw [xDst, hrt', xcopyDst]
  have hwords : 4 * (((s.core 64).gr rd).toNat / 4) = ((s.core 64).gr rd).toNat := by omega
  have hwaits := xcopyWaits_flacon (k := ((s.core 64).gr rd).toNat / 4) hon
    (fun hne => hwords.symm ▸ (hsrc hne).2) (hwords.symm ▸ hdst.2)
  rw [hi, xcopyOp, run_eq, after_ask, hpost, hstall, after_when, if_pos (by rfl), ← run_eq,
    hissue row _ (hrow w hop hmode') hdec]
  refine ⟨fun a => fault 64 6 (a % 2 ^ 32), congrArg _ ?_⟩
  dsimp only
  rw [hrd', hsrc', hdst', if_neg (not_not.2 hlen), if_neg fun hne => hne.2 (hsrc hne.1).1, if_neg fun hne => hne.2 hdst.1,
    if_neg (by omega), xcopyMove, after_ask, hsrc', hdst', hrd', hrs']
  dsimp only
  rw [if_pos rfl, hwaits]

end

/-- An XCOPY whose words have gone completes its instruction. -/
theorem Moves.answers {i : Instr} {s t : State} {op rest dst len : Nat} {value : Nat → Nat} {crc : Word}
    (h : Moves s dst len value crc t) (hruns : Runs s 64 op rest) (hflow : Flows s 64)
    (hi : exec i s = .next (t.after (retire 64 id))) : Answers i s (fun u =>
      (u = { s with mem := u.mem, cores := u.cores } ∧ ∀ m, m ≠ 64 → u.core m = s.core m) ∧ MemOnly dst len s u ∧
        (∀ i < len, u.byte (dst + i) = value i) ∧ u.core 64 = { s.core 64 with pc := (s.core 64).pc + 4, xcrc := crc }) := by
  obtain ⟨hframe, hothers, houtside, hbytes, hcore⟩ := h
  refine ⟨_, hi, ?_⟩
  rw [after_retire t 64 id (by rw [hcore]; exact hflow.1) (.inl rfl)]
  refine ⟨⟨?_, fun m hm => ?_⟩, houtside, hbytes, ?_⟩
  · rw [hframe]
    rfl
  · rw [core_withCore_ne _ _ _ _ hm, hothers m hm]
  · rw [core_withCore_self, hcore, ← hruns.waitsNone]
    rfl

section
variable {s : State} {rd rs rt mode : Nat} {i : Instr} {row : Row} (hrd : rd < 16) (hrs : rs < 16) (hrt : rt < 16)
  (hpost : (s.core 64).dpost = 0) (hstall : s.plt.stalled = []) (hon : s.on 2 = true) (hflow : Flows s 64)
include hrd hrs hrt hpost hstall hon hflow

/-- An XCOPY that passes its checks and whose words move `value` answers with that. -/
theorem xcopy_answers {value : Nat → Nat} {crc : Word} (hi : exec i s = run (xcopyOp 64 row mode) s) (hmode : mode < 4)
    (hrow : ∀ w, opcode w = 0x1D → bits w 9 8 = mode → rowOf w = row)
    (hlen : ((s.core 64).gr rd).toNat % 4 = 0) (hmax : ((s.core 64).gr rd).toNat ≤ 0x100000)
    (hsrc : mode ≠ 3 → xcopySrc (s.core 64) rs % 4 = 0 ∧ InFlacon (xcopySrc (s.core 64) rs) ((s.core 64).gr rd).toNat)
    (hdst : xcopyDst (s.core 64) rt % 4 = 0 ∧ InFlacon (xcopyDst (s.core 64) rt) ((s.core 64).gr rd).toNat)
    (h : Runs s 64 0x1D (rd * 2 ^ 18 + rs * 2 ^ 14 + rt * 2 ^ 10 + mode * 2 ^ 8))
    (hmoves : ∀ stop k, 4 * k = ((s.core 64).gr rd).toNat → ∃ t, s.after (xcopyWords mode ((s.core 64).gr rs) stop k
      (xcopySrc (s.core 64) rs) (xcopyDst (s.core 64) rt)) = t.after (retire 64 id) ∧
        Moves s (xcopyDst (s.core 64) rt) (4 * k) value crc t) :
    Answers i s (fun u => (u = { s with mem := u.mem, cores := u.cores } ∧ ∀ m, m ≠ 64 → u.core m = s.core m) ∧
      MemOnly (xcopyDst (s.core 64) rt) ((s.core 64).gr rd).toNat s u ∧
      (∀ i < ((s.core 64).gr rd).toNat, u.byte (xcopyDst (s.core 64) rt + i) = value i) ∧
      u.core 64 = { s.core 64 with pc := (s.core 64).pc + 4, xcrc := crc }) := by
  have hwords : 4 * (((s.core 64).gr rd).toNat / 4) = ((s.core 64).gr rd).toNat := by omega
  obtain ⟨stop, hexec⟩ := exec_xcopy hrd hrs hrt hpost hstall hon hi hmode hrow hlen hmax hsrc hdst h
  obtain ⟨t, hafter, ht⟩ := hmoves stop _ hwords
  rw [hwords] at ht
  exact ht.answers h hflow (hexec.trans (congrArg _ hafter))

end

/-- Settles O13: an XCOPY inside Flacon goes word by word to its end, and each word goes as the one before did. -/
theorem xcopyResults : Obligations.XcopyResults := by
  intro s rd rs rt hrd hrs hrt hflow hpost hstall hon c len src dst inside rest only crc hlen hmax hdst hdstIn
  refine ⟨fun hsrc hsrcIn => ⟨fun hdisj => ⟨fun h => ?_, fun h => ?_⟩, fun h => ?_⟩, fun h => ?_⟩
  · refine xcopy_answers hrd hrs hrt hpost hstall hon hflow (row := .xcopyCopy) rfl (by norm_num)
      (fun w hop hmode => by simp [rowOf, hop, hmode]) hlen hmax (fun _ => ⟨hsrc, hsrcIn⟩) ⟨hdst, hdstIn⟩ h fun stop k hk => ?_
    exact moves_copy k h.running hon (hk ▸ hsrcIn) (hk ▸ hdstIn) (by rw [hk]; exact hdisj)
  · refine xcopy_answers hrd hrs hrt hpost hstall hon hflow (row := .xcopyCopyCrc) rfl (by norm_num)
      (fun w hop hmode => by simp [rowOf, hop, hmode]) hlen hmax (fun _ => ⟨hsrc, hsrcIn⟩) ⟨hdst, hdstIn⟩ h fun stop k hk => ?_
    have hcrc : crc = (folded c (s.bytes src (4 * k))).xcrc := by rw [hk]; rfl
    rw [hcrc]
    exact moves_copycrc k h.running hon (hk ▸ hsrcIn) (hk ▸ hdstIn) (by rw [hk]; exact hdisj)
  · obtain ⟨stop, hi⟩ := exec_xcopy hrd hrs hrt hpost hstall hon (i := .xcopyCrc 64) (row := .xcopyCrc) rfl (by norm_num)
      (fun w hop hmode => by simp [rowOf, hop, hmode]) hlen hmax (fun _ => ⟨hsrc, hsrcIn⟩) ⟨hdst, hdstIn⟩ h
    have hwords : 4 * (len / 4) = len := by omega
    have hfolds := after_xcopyWords_folds (pat := c.gr rs) (stop := stop) (dst := dst) (len / 4) h.running hon h.waitsNone
      hflow (hwords.symm ▸ hsrcIn : InFlacon src (4 * (len / 4)))
    rw [hwords] at hfolds
    exact hi.trans (congrArg _ hfolds)
  · exact xcopy_answers hrd hrs hrt hpost hstall hon hflow (row := .xcopyFill) rfl (by norm_num)
      (fun w hop hmode => by simp [rowOf, hop, hmode]) hlen hmax (fun hne => absurd rfl hne) ⟨hdst, hdstIn⟩ h
      fun stop k hk => moves_fill k src h.running hon (hk ▸ hdstIn)

end Sys2Proof.Machine
end

section
/-!
PROOFS: states that meet the hypotheses of O6 to O11, O13 to O15 and O21, each at a boundary value.
-/
namespace Sys2Proof.Machine

open Sys2Proof

/-- Core 7 at the start of its I space, with what the registers of these witnesses hold. -/
def witnessCore : Core :=
  { run := .running, g := [(1, 0xFFFFFFFF#32), (2, 1#32), (3, 0x7FFC#32), (4, 0x7FFE#32)], t := [(1, 1#64)] }

/-- It is about to run the word of `op` and `rest`, and goes on after it. -/
def witnessState (op rest : Nat) : State := issuingState witnessCore (instrWord false 0 op rest)

section
variable {op rest : Nat}

theorem core_witnessState : (witnessState op rest).core (7 : Fin 65) = witnessCore := core_issuingState ..

theorem witnessState_runs (hop : op < 64) (hrest : rest < 2 ^ 22) : Runs (witnessState op rest) 7 op rest :=
  issuingState_runs _ _ _ rfl rfl rfl rfl hop hrest

theorem witnessState_flows : Flows (witnessState op rest) 7 := issuingState_flows _ _ rfl

theorem poweredCluster_rest : poweredCluster.flag (SEQ.CORE_EXP_FAULT_SKIP 7) = false ∧ poweredCluster.acc.atb = 0 := by
  decide +kernel

theorem flag_issuingState (c : Core) (word : Nat) (f : Fld) : (issuingState c word).flag f = poweredCluster.flag f := by
  rw [issuingState_frame]
  rfl

theorem witnessState_skip : (witnessState op rest).flag (SEQ.CORE_EXP_FAULT_SKIP 7) = false :=
  (flag_issuingState ..).trans poweredCluster_rest.1

theorem atb_witnessState : (witnessState op rest).acc.atb = 0 := by
  obtain ⟨-, hatb⟩ := poweredCluster_rest
  rw [witnessState, issuingState_frame]
  exact hatb

end

/-- O6: 0xFFFF_FFFF + 1 is 0 with carry. -/
theorem add_wraps : let s := witnessState 0 (3 * 2 ^ 18 + 1 * 2 ^ 14 + 2 * 2 ^ 10 + 0 * 2 ^ 5)
    exec (.add 7) s = .next (s.withCore 7 { witnessCore.setG 3 0 with cy := true, pc := 4 }) := by
  intro s
  have h := (aluAndImmediateResults.1 7 s 3 1 2 (by norm_num) (by norm_num) (by norm_num)).1
    (witnessState_runs (by norm_num) (by norm_num)) witnessState_flows
  rw [(core_witnessState : s.core (7 : Fin 65) = witnessCore)] at h
  exact h

/-- O7: as signed numbers 0xFFFF_FFFF is below 1. -/
theorem cmp_signed : let s := witnessState 0x09 (5 * 2 ^ 19 + 0 * 2 ^ 17 + 2 * 2 ^ 13 + 1 * 2 ^ 9 + 2 * 2 ^ 5)
    exec (.cmp 7) s = .next (s.withCore 7 { witnessCore.setP 5 true with pc := 4 }) := by
  intro s
  have h := (predicateResults 7 s 5 (by norm_num)).1 0 (by norm_num) 2 (by norm_num) 1 (by norm_num) 2 (by norm_num)
    (witnessState_runs (by norm_num) (by norm_num)) witnessState_flows
  rw [(core_witnessState : s.core (7 : Fin 65) = witnessCore)] at h
  exact h

/-- O8: special register 0 holds the core's number. -/
theorem mfs_number : let s := witnessState 0x0C (15 * 2 ^ 18 + 0 * 2 ^ 12)
    exec (.mfs 7) s = .next (s.withCore 7 { witnessCore.setG 15 7 with pc := 4 }) := by
  intro s
  have h := (registersReadAndWritten.2 7 s 15 (by norm_num)).1 (witnessState_runs (by norm_num) (by norm_num)) witnessState_flows
  rw [(core_witnessState : s.core (7 : Fin 65) = witnessCore)] at h
  exact h

/-- O9: a store to the last word of L space. -/
theorem stw_last : let s := witnessState 0x17 (1 * 2 ^ 18 + 3 * 2 ^ 14 + 0)
    Answers (.stw 7) s (fun t => MemOnly (lBase 7 + 0x7FFC) 4 s t ∧ t.byte (lBase 7 + 0x7FFC + 3) = 0xFF) := by
  intro s
  have h := (localLoadsAndStores.2 7 s 1 3 0 0 (by norm_num) (by norm_num) (by norm_num) (by norm_num) witnessState_flows).2.2.1
    (witnessState_runs (by norm_num) (by norm_num))
  rw [(core_witnessState : s.core (7 : Fin 65) = witnessCore)] at h
  obtain ⟨t, ht, -, honly, hbytes, -⟩ := h (by decide) (by decide)
  exact ⟨t, ht, honly, hbytes 3 (by norm_num)⟩

/-- O10: a branch to the last word of I space. -/
theorem br_last : let s := witnessState 0x20 0x3FFF
    exec (.br 7) s = .next (s.withCore 7 { witnessCore with pc := 0xFFFC }) := by
  intro s
  have h := exec_br (s := s) (n := 7) (o := 0x3FFF) (witnessState_flows (op := 0x20) (rest := 0x3FFF)).2
  rw [(core_witnessState : s.core (7 : Fin 65) = witnessCore)] at h
  exact h (by decide) (by decide) (by norm_num) (by norm_num) (witnessState_runs (by norm_num) (by norm_num))

/-- O11: a timer armed for 1 ns ahead. -/
theorem tarm_next : let s := witnessState 0x31 (1 * 2 ^ 8 + 3 * 2 ^ 4)
    exec (.tarm 7) s = .next (s.withCore 7
      { witnessCore with dstat := 0x00000100#32, dlat := 0, timers := [(3, 1#64)], pc := 4 }) := by
  intro s
  have h := tarm_runs (s := s) (n := 7) (td := 1) (i := 3) (by norm_num)
  rw [show s.core (7 : Fin 65) = witnessCore from core_witnessState, State.now, State.ns,
    show s.acc.atb = 0 from atb_witnessState] at h
  have hexec := h (by decide) (by norm_num) (witnessState_runs (by norm_num) (by norm_num)) witnessState_flows
  rw [show s.core (7 : Fin 65) = witnessCore from core_witnessState] at hexec
  exact hexec

/-- O21: a load of the word at 0x7FFE. -/
theorem ldw_misaligned : let s := witnessState 0x14 (5 * 2 ^ 18 + 4 * 2 ^ 14)
    Answers (.ldw 7) s (fun t => (t.core 7).run = .halted ∧ t.regN (SEQ.FAULT 7) = 3 ∧ t.regN (SEQ.FAULT_ADDR 7) = 0x7FFE) := by
  intro s
  have h := (faults_of_memory (s := s) (n := 7) (width := 4) (rd := 5) (rs := 4)
    (by rw [show s.core (7 : Fin 64) = witnessCore from core_witnessState]; decide) witnessState_skip (by norm_num) (by norm_num)
    (i := .ldw 7) rfl (op := 0x14)).1
  rw [Faults, show s.core (7 : Fin 64) = witnessCore from core_witnessState] at h
  obtain ⟨t, ht, hrun, -, -, -, -, -, -, hfault, haddr⟩ := h (by decide) (witnessState_runs (by norm_num) (by norm_num))
  exact ⟨t, ht, hrun, hfault, haddr⟩

/-! ### XCOPY, dispatch and START -/

/-- The management core at the start of its I space, with an XCOPY of one word to the last word of Flacon. -/
def copyCore : Core :=
  { run := .running, g := [(1, 4#32), (2, 0x10000000#32), (3, 0x103FFFFC#32)] }
def copyRest : Nat := 1 * 2 ^ 18 + 2 * 2 ^ 14 + 3 * 2 ^ 10 + 0 * 2 ^ 8
def copyState : State := (poweredCluster.withCore 64 copyCore).after (putMem (iBase 64) 4 (instrWord false 0 0x1D copyRest))

theorem word_putMem (s : State) (a : Nat) {v : Nat} (hv : v < 2 ^ 32) : (s.after (putMem a 4 v)).word a = v := by
  have hbyte : ∀ j < 4, (s.after (putMem a 4 v)).byte (a + j) = v / 2 ^ (8 * j) % 256 := fun j hj => byte_putMem s a v hj
  have hfirst := hbyte 0 (by norm_num)
  rw [Nat.add_zero] at hfirst
  rw [State.word, mem'_four, hfirst, hbyte 1 (by norm_num), hbyte 2 (by norm_num), hbyte 3 (by norm_num)]
  omega

theorem core_copyState : copyState.core 64 = copyCore := by
  rw [copyState, putMem, core_putBytes, core_withCore_self]

theorem copyState_frame : copyState = { poweredCluster with mem := copyState.mem, cores := copyState.cores } := by
  rw [copyState, putMem, after_putBytes]
  rfl

theorem on_copyState (d : Nat) : copyState.on d = poweredCluster.on d := by
  rw [copyState_frame]
  rfl

theorem copyState_runs : Runs copyState 64 0x1D copyRest := by
  refine ⟨(on_copyState _).trans (by decide +kernel), by rw [core_copyState]; rfl, by rw [core_copyState]; rfl, false, 0,
    by norm_num, by simp [Core.pr], ?_⟩
  have hword : copyState.word (iBase 64) = instrWord false 0 0x1D copyRest := word_putMem _ _ (by decide)
  simp only [State.fetch, core_copyState, copyCore, find, Nat.add_zero, hword]

/-- O13: the copied word arrives. -/
theorem xcopy_lastWord : Answers (.xcopyCopy 64) copyState (fun t => MemOnly 0x103FFFFC 4 copyState t ∧
    ∀ i < 4, t.byte (0x103FFFFC + i) = copyState.byte (0x10000000 + i)) := by
  have hstall : copyState.plt.stalled = [] := by
    rw [copyState_frame]
    rfl
  have h := xcopyResults copyState 1 2 3 (by norm_num) (by norm_num) (by norm_num)
    ⟨by rw [core_copyState]; decide, .inl rfl⟩ (by rw [core_copyState]; decide) hstall
    ((on_copyState 2).trans poweredCluster_on.1)
  rw [core_copyState] at h
  obtain ⟨t, ht, -, honly, hbytes, -⟩ := ((h (by decide) (by decide) (by decide) (by decide)).1 (by decide) (by decide)).1
    (by decide) |>.1 copyState_runs
  exact ⟨t, ht, honly, hbytes⟩

/-- Core 7 IDLE with its last slot pending and enabled. -/
def dispatchState : State :=
  (poweredCluster.withCore 7 { run := .idle, pend := 0x8000#16 }).after (setReg (SEQ.BIND 7 15) 0x90000100)

theorem dispatchState_meets : dispatchState.on (coreDomain (7 : Fin 65)) = true ∧
    (dispatchState.core (7 : Fin 65)).run = .idle ∧
    dispatchState.ist.running.isEmpty = true ∧ dispatchState.ist.queue.isEmpty = true ∧
    dispatchState.regN (bindReg (7 : Fin 65) 15) = 0x90000100 ∧ (dispatchState.core (7 : Fin 65)).pend = 0x8000#16 := by
  decide +kernel

/-- O14: the last slot is dispatched. -/
theorem dispatch_last : Answers (.dispatch 7) dispatchState (fun t => (t.core 7).run = .running ∧ (t.core 7).slot = 15 ∧
    (t.core 7).pc = 0x100) := by
  obtain ⟨hon, hrun, hslices, hqueue, hbind, hpend⟩ := dispatchState_meets
  have hlow : ∀ j < 15, (0x8000#16).getLsbD j = false := by decide
  have h := (dispatchResults dispatchState 7 hon).1 15 (by norm_num) hrun (List.isEmpty_iff.1 hslices)
    (List.isEmpty_iff.1 hqueue)
  rw [hbind, hpend] at h
  obtain ⟨t, ht, -, hrunning, hslot, hpc, -⟩ := h rfl (by decide) fun j hj => .inl (hlow j hj)
  exact ⟨t, ht, hrunning, hslot, hpc⟩

theorem poweredCluster_held : (poweredCluster.core 7).run = .held ∧ poweredCluster.flag SEQ.START_CTL_ARMED = false ∧
    poweredCluster.flag (SEQ.INIT_ENTRY_EN 7) = false := by
  decide +kernel

/-- O15: START releases a core as reset leaves it. -/
theorem coreStart_afterReset : Answers (.coreStart 7) poweredCluster (fun t => (t.core 7).run = .idle) := by
  obtain ⟨-, hon, -⟩ := poweredCluster_on
  obtain ⟨hheld, harmed, hinit⟩ := poweredCluster_held
  obtain ⟨t, ht, -, hidle⟩ := (coreControl poweredCluster 7 hon).1 hheld harmed hinit
  exact ⟨t, ht, hidle⟩

end Sys2Proof.Machine
end

section
/-!
PROOFS: the end of device operations (O19).
-/
namespace Sys2Proof.Machine

open Sys2Proof

/-! ### The core after an answer (R96, R100) -/

/-- A CANCEL alone writes no rd. -/
theorem writesRd_of {q : QReq} (h : q.opcode ≠ 0x32 ∨ q.sub = 0) : q.writesRd = true := by
  simpa [QReq.writesRd] using h

section
variable {s : State} {n : Fin 65} {q : QReq}

/-- An answered request is not served again: its answer ends the operation. -/
theorem after_qResponse {r : Resp} (hwait : (s.core n).wait = .query q (some r)) :
    s.after (qResponse n) = s.after (queryFinish n q r) := by
  simp [qResponse, serveQuery, hwait]

/-- With no KILL pending the core goes on. -/
theorem after_queryEnd (f : Core → Core) (hkill : (s.core n).killReq = false) (hflow : Flows s n) :
    s.after (queryEnd n f) = s.withCore n { f (s.core n) with pc := (s.core n).pc + 4, wait := .none } := by
  rw [queryEnd, after_ask, hkill, if_neg Bool.false_ne_true, after_retire s n f hflow.1 hflow.2]

/-- An answer without an output block writes rd, DRES and DSTAT. -/
theorem qResponse_answers {code detail : Nat} {rd dres : Word} (hkill : (s.core n).killReq = false) (hflow : Flows s n)
    (hwait : (s.core n).wait = .query q (some ⟨code, detail, rd, dres, [], false⟩)) (hrd : q.opcode ≠ 0x32 ∨ q.sub = 0) :
    Answers (.qResponse n) s (fun t => OnlyCore n s t ∧ let k := t.core n
      k = { (s.core n).setG q.rd rd with
        pc := (s.core n).pc + 4, wait := .none, dres := dres, dlat := k.dlat
        dstat := BitVec.ofNat 32 (code + (q.opcode - 0x30) * 2 ^ 8 + detail * 2 ^ 16) }) := by
  refine answers_run (e := qResponse n) rfl ?_
  rw [after_qResponse hwait, queryFinish, after_ask]
  dsimp only
  rw [Bool.not_false, if_pos rfl, after_seq_cons, outWrite, enumFrom, after_forEach_nil, after_seq_cons, after_seq_nil,
    after_queryEnd _ hkill hflow, writesRd_of hrd]
  exact ⟨onlyCore_withCore .., by rw [core_withCore_self]; rfl⟩

/-- A bus error that the core absorbs reads as 0xFFFFFFFF and sets STATUS.BE (R104). -/
theorem qResponse_absorbs (hkill : (s.core n).killReq = false) (hflow : Flows s n)
    (hwait : (s.core n).wait = .query q (some ⟨0x0D, 0, 0xFFFFFFFF#32, 0, [], true⟩)) (hn : n.val < 64)
    (habsorb : s.flag (SEQ.CORE_EXP_BERR_NOFAULT n) = true) (hpop : q.opcode ≠ 0x34) :
    Answers (.qResponse n) s (fun t => OnlyCore n s t ∧ let k := t.core n
      k = { (s.core n).setG q.rd 0xFFFFFFFF#32 with
        pc := (s.core n).pc + 4, wait := .none, dres := 0, be := true, dlat := k.dlat
        dstat := BitVec.ofNat 32 (0x0D + (q.opcode - 0x30) * 2 ^ 8) }) := by
  have habsorbs : s.absorbs n = true := by
    rw [State.absorbs, habsorb, Bool.and_true]
    exact decide_eq_true (by omega)
  refine answers_run (e := qResponse n) rfl ?_
  rw [after_qResponse hwait, queryFinish, after_ask]
  dsimp only
  rw [Bool.not_true, if_neg Bool.false_ne_true, habsorbs, if_pos rfl, after_seq_cons, after_when,
    if_neg (by simpa using hpop), after_seq_cons, after_seq_nil, after_queryEnd _ hkill hflow]
  exact ⟨onlyCore_withCore .., by rw [core_withCore_self]; rfl⟩

/-! ### DERR (R100) -/

/-- DERR as the statement writes it: the first error stays, and the count saturates. -/
theorem derrAfter_eq (d : Word) (op code : Nat) :
    derrAfter d op code = BitVec.ofNat 32 (
      if d.getLsbD 15 = true then d.toNat % 2 ^ 16 + min (d.toNat / 2 ^ 16 + 1) 0xFFFF * 2 ^ 16
      else code + op * 2 ^ 8 + 2 ^ 15 + min (d.toNat / 2 ^ 16 + 1) 0xFFFF * 2 ^ 16) := by
  have hcount : bits d.toNat 31 16 = d.toNat / 2 ^ 16 := by
    rw [bits]
    omega
  have hput : putBits d.toNat 31 16 (min (d.toNat / 2 ^ 16 + 1) 0xFFFF) =
      d.toNat % 2 ^ 16 + min (d.toNat / 2 ^ 16 + 1) 0xFFFF * 2 ^ 16 := by
    rw [putBits_split]
    omega
  rw [derrAfter, hcount, hput]
  split <;> rfl

/-- The error of a P-class operation that comes back counts in DERR. -/
theorem exec_asyncErrorResponse {op code : Nat} {l : List Posted} (h : (s.core n).posted = .refused op code :: l) :
    exec (.asyncErrorResponse n) s =
      .next (s.withCore n { s.core n with posted := l, derr := derrAfter (s.core n).derr op code }) := by
  have hfirst : (s.core n).firstPosted Posted.isRefused = some (0, .refused op code) := by
    simp [Core.firstPosted, h, enumFrom, Posted.isRefused]
  show run (asyncError n) s = _
  simp [run_eq, asyncError, hfirst, after_setCore, h]

end

/-! ### The statement -/

/-- Settles O19: an answered request ends in `queryEnd`, and DERR follows `derrAfter`. -/
theorem operationEnds : Obligations.OperationEnds := by
  unfold Obligations.OperationEnds
  intro n s c
  refine ⟨fun q code detail rd dres hwait hkill hflow hrd _ _ _ _ => qResponse_answers hkill hflow hwait hrd,
    fun q hn hwait hkill hflow habsorb _ _ hpop => qResponse_absorbs hkill hflow hwait hn habsorb hpop,
    fun op code l hposted _ _ => ?_⟩
  rw [exec_asyncErrorResponse hposted, derrAfter_eq]

end Sys2Proof.Machine
end

section
/-!
PROOFS: Q-class operations served at once: the request, its answer, and the target between them.
-/
namespace Sys2Proof.Machine

open Sys2Proof

/-! ### A request that reaches its target (R24, R96, R105) -/

/-- Core `n` of `s` once it has sent request `q`, with what has come back. -/
def sentCore (s : State) (n : Nat) (q : QReq) (r : Option Resp) : Core :=
  { s.core n with wait := .query q r, since := s.acc.ltb }

/-- Core `n` has sent request `q`, and nothing else has happened. -/
def State.sent (s : State) (n : Nat) (q : QReq) : State := s.withCore n (sentCore s n q none)

/-- What core `n` needs to have a request served at once: no earlier write outstanding, no stalled access, no key on its
way. -/
structure ServesAtOnce (s : State) (n : Nat) : Prop where
  posted : (s.core n).dpost = 0
  stalled : s.plt.stalled = []
  fetching : s.fetching n = false

section
variable {s : State} {n : Fin 65} {q : QReq}

theorem answers_of_on {d : Nat} (hd : d ≠ 1) (h : s.on d = true) : s.answers d = true := by
  simp [State.answers, h, hd]

theorem islandDomain_ne (op : Nat) : islandDomain op ≠ 1 := by
  unfold islandDomain
  split <;> decide

/-- A request with nothing before it is served at its target. -/
theorem after_request_served (h : ServesAtOnce s n) (hon : s.on (islandDomain q.opcode) = true) :
    s.after (request n q) = (s.sent n q).after (serveAt n q) := by
  obtain ⟨hposted, hstalled, hfetching⟩ := h
  have hcore : (s.sent n q).core n = sentCore s n q none := core_withCore_self ..
  have hwait : ((s.sent n q).core n).wait = .query q none := by rw [hcore]; rfl
  have hfree : ((s.sent n q).core n).dpost = 0 := by rw [hcore]; exact hposted
  have hstall : (s.sent n q).stalledAt 3 n (islandBase q.opcode) = false := by
    show s.plt.stalled.any _ = false
    rw [hstalled]
    rfl
  have hfetch : (s.sent n q).fetching n = false := hfetching
  have hanswers : (s.sent n q).answers (islandDomain q.opcode) = true := answers_of_on (islandDomain_ne _) hon
  rw [request, after_seq_cons, after_seq_cons, after_seq_nil, after_ask, after_setCore]
  show (s.sent n q).after (serveQuery n) = _
  simp only [serveQuery, opAccess, after_ask, after_when, hwait, hfree, hstall, hfetch, hanswers, decide_true, Bool.not_false,
    Bool.and_self, if_true]

/-- The request that a device word of these operands makes. -/
def devReq (s : State) (n : Fin 65) (op sub d rs r t : Nat) (l : List Word) (out : Nat) : QReq :=
  ⟨op, sub, d, (s.core n).gr rs, (s.core n).gr r, l, out, (s.core n).tr t⟩

/-- At a device word of these operands command `i` sends the request of blocks `l` and `out`, and its target serves it. -/
def Served (i : Instr) (s : State) (n : Fin 65) (op sub d rs r t : Nat) (l : List Word) (out : Nat) : Prop :=
  Runs s n op (d * 2 ^ 18 + rs * 2 ^ 14 + r * 2 ^ 10 + t * 2 ^ 8 + sub * 2 ^ 4) →
    exec i s = .next ((s.sent n (devReq s n op sub d rs r t l out)).after
      (serveAt n (devReq s n op sub d rs r t l out)))

/-- A Q-class command, its checks passed, has the request of its word served. -/
theorem served_of_issue {i : Instr} {row : Row} {e : Nat → Core → Effect} {op sub d rs r t : Nat} {l : List Word} {out : Nat}
    (hi : exec i s = run (issue n row e) s) (hserve : ServesAtOnce s n) (hon : s.on (islandDomain op) = true) (hd : d < 16)
    (hrs : rs < 16) (hr : r < 16) (ht : t < 4)
    (he : ∀ w, DevWord w op sub d rs r t → s.after (e w (s.core n)) = s.after (request n (reqOf w (s.core n) l out)))
    (hop : 0x32 ≤ op ∧ op < 0x3F := by omega) (hsub : sub < 16 := by omega)
    (hrow : ∀ w, DevWord w op sub d rs r t → rowOf w = row ∧ fieldsOk w = true := by
      intro w hw
      simp [rowOf, fieldsOk, hw.opcode, hw.sub, hw.rd, hw.rt, hw.ta, hw.low]) :
    Served i s n op sub d rs r t l out := by
  intro h
  obtain ⟨w, hw, hissue⟩ := h.issues (by omega) (by simp; omega) (devRest_lt hd hrs hr ht hsub)
  have hdev := devWord_of_wordOf hw hd hrs hr ht hsub
  obtain ⟨hrow', hok⟩ := hrow w hdev
  have hreq : reqOf w (s.core n) l out = devReq s n op sub d rs r t l out := by
    simp only [reqOf, devReq, hdev.opcode, hdev.sub, hdev.rd, hdev.rs, hdev.rt, hdev.ta]
  rw [hi, hissue row e hrow' hok, he w hdev, hreq, after_request_served hserve hon]

/-! ### Answers (R96) -/

/-- From what `s` sent to `t` the waiting core is as it was. -/
theorem core_sent : (s.sent n q).core n = sentCore s n q none := core_withCore_self ..

/-- An answer changes the waiting core alone. -/
theorem after_answer {t : State} (hcore : t.core n = sentCore s n q none) (code : Nat) (rd dres : Word) (blk : List Word) :
    t.after (answer n code rd dres blk) = t.withCore n (sentCore s n q (some ⟨code, 0, rd, dres, blk, false⟩)) := by
  rw [answer, after_setCore, hcore]
  rfl

/-- An answer given at once leaves nothing but the waiting core changed. -/
theorem after_sent_answer (hrun : (s.core n).run = .running) (code : Nat) (rd dres : Word) (blk : List Word) :
    (s.sent n q).after (answer n code rd dres blk) =
      s.withCore n (sentCore s n q (some ⟨code, 0, rd, dres, blk, false⟩)) := by
  rw [after_answer core_sent, State.sent, withCore_withCore _ _ _ _ (core_ne_reset (by exact hrun))]

end

/-! ### The commands (R109, R110, R114-R128) -/

section
variable {s : State} {n : Fin 65} {rd rs rt ta : Nat} (hserve : ServesAtOnce s n) (hrs : rs < 16)
include hserve hrs

section
variable (htm : s.on 2 = true)
include htm

theorem pushWait_served (hrt : rt < 16) (hring : ((s.core n).gr rs).toNat ≤ 63) (hblk : BlockOk s n rt) :
    Served (.push n) s n 0x33 1 0 rs rt 0 (blockOf s n rt) 0 :=
  served_of_issue rfl hserve htm (by omega) hrs hrt (by omega) fun w hw => by
    rw [hw.rs, hw.rt, hw.sub, inRange_of_ok _ (ringOk_of_le hring), after_lBlock _ hblk]
    rfl

section
variable (hrd : rd < 16)
include hrd

theorem pop_served (hrt : rt < 16) (hring : ((s.core n).gr rs).toNat ≤ 63) (hblk : BlockOk s n rt) :
    Served (.pop n) s n 0x34 0 rd rs rt 0 [] ((s.core n).gr rt).toNat :=
  served_of_issue rfl hserve htm hrd hrs hrt (by omega) fun w hw => by
    rw [hw.rs, hw.rt, inRange_of_ok _ (ringOk_of_le hring), after_lBlock _ hblk]

theorem bufAlloc_served (hclass : ((s.core n).gr rs).toNat ≤ 1) : Served (.bufAlloc n) s n 0x3E 0 rd rs 0 0 [] 0 :=
  served_of_issue rfl hserve htm hrd hrs (by omega) (by omega) fun w hw => by
    rw [hw.rs, inRange_of_ok _ (decide_eq_true hclass)]

theorem macreqAck_served (hrt : rt < 16) (hta : ta < 4) (hblk : BlockOk s n rs) (hflags : ((s.core n).gr rt).toNat < 4) :
    Served (.macreqAck n) s n 0x3D 1 rd rs rt ta (blockOf s n rs) 0 :=
  served_of_issue rfl hserve htm hrd hrs hrt hta fun w hw => by
    rw [hw.rs, hw.rt, after_lBlock _ hblk, inRange_of_ok _ (decide_eq_true hflags)]

end
end

section
variable (hrd : rd < 16) (hacc : s.on 0 = true)
include hrd hacc

theorem trigArm_served (hta : ta < 4) (hok : actionOk ((s.core n).gr rs) = true) :
    Served (.trigArm n) s n 0x32 0 rd rs 0 ta [] 0 :=
  served_of_issue rfl hserve hacc hrd hrs (by omega) hta fun w hw => by
    rw [hw.rs, if_pos hok]

theorem trigCancel_served (hcomp : ((s.core n).gr rs).toNat ≤ 511) : Served (.trigCancel n) s n 0x32 1 rd rs 0 0 [] 0 :=
  served_of_issue rfl hserve hacc hrd hrs (by omega) (by omega) fun w hw => by
    rw [hw.rs, inRange_of_ok _ (decide_eq_true hcomp)]

end
end

end Sys2Proof.Machine
end

section
/-!
PROOFS: POP, PUSH WAIT, BUF ALLOC, TRIG ARM and TRIG CANCEL served (O17).
-/
namespace Sys2Proof.Machine

open Sys2Proof

/-! ### The first of several free units, from a free start -/

/-- A search of all units that starts at any of them finds one, if there is one. -/
theorem find_rotation {m start x : Nat} {p : Nat → Bool} (hx : x < m) (hp : p x = true) :
    ∃ y < m, p y = true ∧ ((List.range m).map (fun i => (start + i) % m)).find? p = some y := by
  have hmem : x ∈ (List.range m).map (fun i => (start + i) % m) := by
    refine List.mem_map.2 ⟨(x + (m - start % m)) % m, List.mem_range.2 (Nat.mod_lt _ (by omega)), ?_⟩
    have hstart : start % m < m := Nat.mod_lt _ (by omega)
    rw [Nat.add_mod_mod, ← Nat.mod_add_mod, show start % m + (x + (m - start % m)) = x + m by omega, Nat.add_mod_right,
      Nat.mod_eq_of_lt hx]
  obtain ⟨y, hy⟩ := Option.isSome_iff_exists.1 (List.find?_isSome.2 ⟨x, hmem, hp⟩)
  obtain ⟨i, -, hi⟩ := List.mem_map.1 (List.mem_of_find?_eq_some hy)
  exact ⟨y, by rw [← hi]; exact Nat.mod_lt _ (by omega), List.find?_some hy, hy⟩

theorem pickBuf_of_free {s : State} (h : ∃ x < 16384, s.isFree x = true) :
    ∃ b < 16384, s.isFree b = true ∧ s.pickBuf = some b := by
  obtain ⟨x, hx, hfree⟩ := h
  unfold State.pickBuf
  exact find_rotation (m := 16384) (start := s.free 14) (p := s.isFree) hx hfree

theorem freeComp_of_unarmed {s : State} (f : Nat) (h : ∃ x, 96 ≤ x ∧ x < 512 ∧ (s.comp x).armed = false) :
    ∃ i, 96 ≤ i ∧ i < 512 ∧ (s.comp i).armed = false ∧ s.freeComp f = some i := by
  obtain ⟨x, hl, hh, harmed⟩ := h
  obtain ⟨y, hy, hfree, hfind⟩ := find_rotation (m := 416) (start := f) (x := x - 96) (p := fun j => !(s.comp (96 + j)).armed)
    (by omega) (by rw [Nat.add_sub_cancel' hl, harmed]; rfl)
  refine ⟨96 + y, by omega, by omega, by simpa using hfree, ?_⟩
  have hmap : (List.range 416).map (fun i => 96 + (f + i) % 416) =
      ((List.range 416).map (fun i => (f + i) % 416)).map (96 + ·) := by rw [List.map_map]; rfl
  rw [State.freeComp, hmap, List.find?_map]
  exact congrArg (Option.map (96 + ·)) hfind

/-! ### Effects that leave the cores and the traffic manager alone -/

theorem keeps_putBytes {α : Type} {f : State → α} (h : ∀ t a b, f (State.apply t (.mem a b)) = f t) (a : Nat) (l : List Nat) :
    Keeps f (putBytes a l) :=
  keeps_changes fun _ t c hc => by
    obtain ⟨e, -, rfl⟩ := List.mem_map.1 hc
    exact h t _ _

theorem keeps_setHolder {α : Type} {f : State → α} (h : ∀ t a b, f (State.apply t (.mem a b)) = f t) (b v : Nat) :
    Keeps f (setHolder b v) :=
  keeps_ask (g := fun s => putMem (metaAddr b) 4 (putBits (s.meta b) 31 25 v)) fun _ => keeps_putBytes h _ _

theorem keeps_newHeadTag {α : Type} {f : State → α} (h : ∀ t k v, f (State.apply t (.reg k v)) = f t) (r len : Nat) :
    Keeps f (newHeadTag r len) := by
  refine keeps_ask fun s => ?_
  split
  · exact keeps_setReg h _ _
  · exact keeps_nothing f

/-! ### Rings (R303, R305, R306) -/

section
variable {s : State} {r : Nat}

theorem after_pointerCheck (h : (s.ring r).ptrFault = 0) : s.after (pointerCheck r) = s := by
  simp only [pointerCheck, after_ask, h]
  rfl

/-- A pop of an empty ring goes on without a descriptor. -/
theorem after_pop_empty (k : Option Desc → Effect) (hptr : (s.ring r).ptrFault = 0) (hq : (s.ring r).q = []) :
    s.after (pop r k) = s.after (k none) := by
  rw [pop, after_seq_cons, after_seq_cons, after_seq_nil, after_pointerCheck hptr, after_ask]
  simp only [hq]

theorem ring_setRing (s : State) (r : Nat) (x : Ring) : (s.after (setRing r x)).ring r = x := by
  simp [setRing, State.after, State.ring]

theorem after_placeHeld (h : s.tm.held = []) : s.after (placeHeld r) = s := by
  simp only [placeHeld, after_ask, h, placeHeld.go, after_nothing]

theorem after_ringDrained (h : s.flag (TM.RING_CTL_EN r) = true) : s.after (ringDrained r) = s := by
  simp [ringDrained, h]

/-- A pop of an enabled shallow ring, with no completion held, goes on with the head's descriptor and leaves the rest. -/
theorem after_pop_shallow (k : Option Desc → Effect) {e : RingEntry} {l : List RingEntry} (hshallow : s.shallow r = true)
    (hptr : (s.ring r).ptrFault = 0) (hq : (s.ring r).q = e :: l) (hheld : s.tm.held = [])
    (hen : s.flag (TM.RING_CTL_EN r) = true) :
    ∃ t : State, s.after (pop r k) = t.after (k (some e.d)) ∧ (t.ring r).q = l ∧ t.cores = s.cores := by
  have hdelivered : s.delivered r e = (e.d, false, false, true) := by rw [State.delivered, hshallow, if_pos rfl]
  have hne : TM.RING_CTL r ≠ TM.HWM_SOJ r := by simp only [TM.RING_CTL, TM.HWM_SOJ]; omega
  rw [pop, after_seq_cons, after_seq_cons, after_seq_nil, after_pointerCheck hptr, after_ask]
  simp only [hq, hdelivered, after_seq_cons, after_seq_nil]
  rw [after_when _ true, if_pos rfl, after_when _ false, if_neg Bool.false_ne_true, after_when _ false,
    if_neg Bool.false_ne_true]
  generalize hu : s.after (setRing r _) = u
  have hholder : ∀ {α : Type} {f : State → α} (_ : ∀ t a b, f (State.apply t (.mem a b)) = f t),
      f (u.after (when (decide (e.d.len ≠ 0)) (setHolder e.d.buf 0x40))) = f u :=
    fun h => keeps_when (keeps_setHolder h _ _) u
  generalize u.after (when _ _) = v at hholder ⊢
  generalize hw : v.after (setFld (TM.HWM_SOJ_US r) _) = w
  have htm : w.tm = u.tm := by rw [← hw, ← hholder (f := State.tm) fun _ _ _ => rfl]; rfl
  have hcores : w.cores = u.cores := by rw [← hw, ← hholder (f := State.cores) fun _ _ _ => rfl]; rfl
  have hreg : w.reg (TM.RING_CTL r) = u.reg (TM.RING_CTL r) := by
    rw [← hw, ← hholder (f := (State.reg · (TM.RING_CTL r))) fun _ _ _ => rfl, after_setFld]
    exact reg_apply_ne _ _ _ _ hne
  rw [after_placeHeld (by rw [htm, ← hu]; exact hheld),
    after_ringDrained ((flag_eq_of_reg (f := TM.RING_CTL_EN r) (hreg.trans (by rw [← hu]; rfl))).trans hen)]
  refine ⟨w, rfl, ?_, by rw [hcores, ← hu]; rfl⟩
  rw [State.ring, htm, ← State.ring, ← hu, ring_setRing]

/-- A slot that latches changes no core's wait. -/
theorem keeps_wait_latchSlotAt (n m k arg : Nat) (i : Instant) : Keeps (fun t => (t.core n).wait) (latchSlotAt m k arg i) := by
  refine keeps_ask fun _ => keeps_ite (keeps_nothing _) (keeps_ite (fun _ => rfl) fun u => ?_)
  rw [after_setCore]
  by_cases hm : n = m
  · subst hm
    rw [core_withCore_self]
  · rw [core_withCore_ne _ _ _ _ hm]

theorem keeps_wait_ringReport (n r : Nat) : Keeps (fun t => (t.core n).wait) (ringReport r) :=
  keeps_ask fun _ => keeps_forEach fun x _ => keeps_ask fun u => keeps_wait_latchSlotAt n x.1 x.2 0 u.now

theorem keeps_tm_ringReport (r : Nat) : Keeps State.tm (ringReport r) :=
  keeps_ask fun _ => keeps_forEach fun x _ => keeps_ask fun u =>
    (keeps_ask fun _ => keeps_ite (keeps_nothing _) (keeps_ite (fun _ => rfl) fun _ => rfl) :
      Keeps State.tm (latchSlotAt x.1 x.2 0 u.now))

/-- A descriptor appended is the ring's last. -/
theorem ring_append (s : State) (r : Nat) (d : Desc) : ((s.after (append r d)).ring r).q =
    (s.ring r).q ++ [⟨d, s.ltbUs % 2 ^ 32, (s.ring r).tail⟩] := by
  have hmem : ∀ (t : State) a b, (t.apply (.mem a b)).tm = t.tm := fun _ _ _ => rfl
  rw [append, after_ask]
  dsimp only
  rw [after_seq_cons, after_seq_cons]
  refine (congrArg (fun x : Tm => (getD x.rings r {}).q) (keeps_seq_cons (f := State.tm)
    (keeps_ite (keeps_putBytes hmem _ _) (keeps_putBytes hmem _ _)) (keeps_seq_cons (keeps_when (keeps_setHolder hmem _ _))
    (keeps_seq_cons (fun _ => rfl) (keeps_seq_cons (keeps_when (keeps_newHeadTag (fun _ _ _ => rfl) _ _))
    (keeps_seq_cons (keeps_when (keeps_tm_ringReport r)) (keeps_seq_nil _))))) _)).trans ?_
  exact congrArg Ring.q (ring_setRing s r _)

theorem keeps_wait_append (n r : Nat) (d : Desc) : Keeps (fun t => (t.core n).wait) (append r d) :=
  keeps_ask fun _ => keeps_seq_cons (fun _ => rfl) (keeps_seq_cons (fun _ => rfl) (keeps_seq_cons
    (keeps_ite (keeps_putBytes (fun _ _ _ => rfl) _ _) (keeps_putBytes (fun _ _ _ => rfl) _ _)) (keeps_seq_cons
    (keeps_when (keeps_setHolder (fun _ _ _ => rfl) _ _)) (keeps_seq_cons (fun _ => rfl) (keeps_seq_cons
    (keeps_when (keeps_newHeadTag (fun _ _ _ => rfl) _ _)) (keeps_seq_cons (keeps_when (keeps_wait_ringReport n r))
    (keeps_seq_nil _)))))))

/-- A program's push to an enabled ring: appended where there is room, refused as full where there is none. -/
theorem after_programPush {d : Desc} (full disabled ok : Effect) (htype : d.type ≠ 0xF) (hptr : (s.ring r).ptrFault = 0)
    (hen : s.flag (TM.RING_CTL_EN r) = true) : s.after (programPush r d full disabled ok) =
      if s.hasRoom r then (s.after (append r d)).after ok else s.after full := by
  rw [programPush, if_neg htype, after_seq_cons, after_seq_cons, after_seq_nil, after_pointerCheck hptr, after_ask, hen,
    Bool.not_true, if_neg Bool.false_ne_true, after_ite, after_seq_cons, after_seq_cons, after_seq_nil]

theorem hasRoom_eq (hen : s.flag (TM.RING_CTL_EN r) = true) (hreclaim : (s.ring r).reclaiming = false) :
    s.hasRoom r = decide ((s.ring r).q.length < s.depth r) := by
  simp [State.hasRoom, hen, hreclaim]

end

/-! ### Allocation (R293, R296) -/

section
variable {s : State} {b cls : Nat}

/-- Events and the pool's marks are read past by what reads neither registers nor the router. -/
theorem keeps_setFree {α : Type} {f : State → α} (hf : SkipsEvents f)
    (hreg : ∀ t v, f (State.apply t (.reg TM.POOL_STATUS v)) = f t) (k : Nat) : Keeps f (setFree k) :=
  keeps_seq_cons (fun _ => hreg _ _) (keeps_seq_cons (keeps_ask fun _ => keeps_seq_cons (fun _ => hreg _ _) (keeps_seq_cons
    (keeps_ite (keeps_seq_cons (fun _ => hreg _ _) (keeps_seq_cons (keeps_fire hf (by omega) _) (keeps_seq_nil _)))
      (keeps_when fun _ => hreg _ _)) (keeps_seq_nil _))) (keeps_seq_nil _))

theorem skipsEvents_fld {g : Fld} (h1 : g.addr ≠ PLT.WAKE_PEND) (h2 : g.addr / 0x10000 ≠ 0x4012) :
    SkipsEvents (State.fld · g) where
  reg t k v hk := congrArg (fun w : Word => bits w.toNat g.hi g.lo) ((skipsEvents_reg h1 h2).reg t k v hk)
  evt _ _ := rfl
  plt _ _ := rfl

/-- The marks EXHAUST and LOW lie beside FREE. -/
theorem fld_poolMarks (s : State) : (s.after poolMarks).fld TM.POOL_STATUS_FREE = s.fld TM.POOL_STATUS_FREE := by
  have hfire : ∀ arg, Keeps (State.fld · TM.POOL_STATUS_FREE) (fire 63 arg) := fun arg =>
    keeps_fire (skipsEvents_fld (by decide) (by decide)) (by omega) arg
  have hexhaust : ∀ v, Keeps (State.fld · TM.POOL_STATUS_FREE) (setFld TM.POOL_STATUS_EXHAUST v) := fun v t =>
    fld_setFld_disjoint t _ _ v rfl (.inr (by decide)) (by decide) (by decide) (by decide)
  have hlow : ∀ v, Keeps (State.fld · TM.POOL_STATUS_FREE) (setFld TM.POOL_STATUS_LOW v) := fun v t =>
    fld_setFld_disjoint t _ _ v rfl (.inr (by decide)) (by decide) (by decide) (by decide)
  exact keeps_ask (fun _ => keeps_seq_cons (hexhaust _) (keeps_seq_cons (keeps_ite (keeps_seq_cons (hlow 1)
    (keeps_seq_cons (hfire _) (keeps_seq_nil _))) (keeps_when (hlow 0))) (keeps_seq_nil _))) s

theorem fld_setFree (s : State) {k : Nat} (hk : k < 2 ^ 15) : (s.after (setFree k)).fld TM.POOL_STATUS_FREE = k := by
  rw [setFree, after_seq_cons, after_seq_cons, after_seq_nil, fld_poolMarks, fld_setFld _ _ _ (by decide) (by decide)]
  exact Nat.mod_eq_of_lt hk

/-- What a taken buffer's metadata word holds: HOLDER 0x40, FILL 256, HEAD 1, LAST 1, NEXT 0 (R293). -/
abbrev takenMeta : Nat := 0x40 * 2 ^ 25 + 256 * 2 ^ 16 + 2 ^ 15 + 2 ^ 14

/-- A buffer of class 0 or 1 is taken: its metadata word is written, and FREE counts down. -/
theorem after_takeBuf (s : State) (b : Nat) (hcls : cls ≤ 1) : s.after (takeBuf b cls) =
    ((s.apply .draw).after (putMem (metaAddr b) 4 takenMeta)).after (setFree (s.fld TM.POOL_STATUS_FREE - 1)) := by
  have hne : decide (cls = 2) = false := decide_eq_false (by omega)
  rw [takeBuf, after_ask, after_seq_cons, after_seq_cons, after_seq_cons, after_seq_cons, after_seq_nil, hne, after_when,
    if_neg Bool.false_ne_true]
  rfl

theorem mem_takeBuf (s : State) (b : Nat) (hcls : cls ≤ 1) :
    (s.after (takeBuf b cls)).mem = ((s.apply .draw).after (putMem (metaAddr b) 4 takenMeta)).mem := by
  rw [after_takeBuf s b hcls, keeps_setFree skipsEvents_mem (fun _ _ => rfl)]

/-- What reads neither memory nor registers, the router nor the count of free values drawn is left alone. -/
theorem keeps_takeBuf {α : Type} {f : State → α} (hf : SkipsEvents f) (hreg : ∀ t k v, f (State.apply t (.reg k v)) = f t)
    (hmem : ∀ t a v, f (State.apply t (.mem a v)) = f t) (hdraw : ∀ t, f (State.apply t .draw) = f t) (b : Nat)
    (hcls : cls ≤ 1) : Keeps f (takeBuf b cls) := fun s => by
  rw [after_takeBuf s b hcls, keeps_setFree hf (fun t v => hreg t _ v), putMem, keeps_putBytes hmem, hdraw]

theorem free_takeBuf (s : State) (b : Nat) (hcls : cls ≤ 1) :
    (s.after (takeBuf b cls)).fld TM.POOL_STATUS_FREE = s.fld TM.POOL_STATUS_FREE - 1 := by
  have hlt : s.fld TM.POOL_STATUS_FREE < 2 ^ 15 := bits_lt ..
  rw [after_takeBuf s b hcls, fld_setFree _ (by omega)]

theorem byte_eq_of_mem {s t : State} (h : t.mem = s.mem) (x : Nat) : t.byte x = s.byte x := by rw [State.byte, h, State.byte]

theorem memOnly_takeBuf (s : State) (b : Nat) (hcls : cls ≤ 1) : MemOnly (metaAddr b) 4 s (s.after (takeBuf b cls)) :=
  fun x hx => (byte_eq_of_mem (mem_takeBuf s b hcls) x).trans (memOnly_putMem (s.apply .draw) _ _ _ x hx)

theorem meta_takeBuf (s : State) (b : Nat) (hcls : cls ≤ 1) : (s.after (takeBuf b cls)).meta b = takenMeta := by
  have hword : ((s.apply .draw).after (putMem (metaAddr b) 4 takenMeta)).word (metaAddr b) = takenMeta :=
    word_putMem _ _ (by decide)
  rw [← hword, State.meta, State.word, State.mem', State.mem', State.bytes, State.bytes]
  simp only [byte_eq_of_mem (mem_takeBuf s b hcls)]

/-- An allocation above its class's threshold, with a buffer free, goes on with a free buffer. -/
theorem after_withBuf (refused : Effect) (ok : Nat → Effect) (hfree : s.classThreshold cls < s.fld TM.POOL_STATUS_FREE)
    (hsome : ∃ x < 16384, s.isFree x = true) : ∃ b < 16384, s.isFree b = true ∧
      s.after (withBuf cls refused ok) = (s.after (takeBuf b cls)).after (ok b) := by
  obtain ⟨b, hb, hbfree, hpick⟩ := pickBuf_of_free hsome
  refine ⟨b, hb, hbfree, ?_⟩
  rw [withBuf, after_ask, if_pos hfree]
  simp only [hpick, after_seq_cons, after_seq_nil]

end

/-! ### Comparators (R109, R110) -/

section
variable {s : State} {n : Nat}

theorem comp_setComp (s : State) (i j : Nat) (f : Comp → Comp) :
    (s.after (setComp i f)).comp j = if j = i then f (s.comp i) else s.comp j := by
  by_cases h : j = i
  · subst h
    simp [setComp, State.after, State.comp]
  · simp [setComp, State.after, State.comp, h]

theorem comp_disarm (s : State) (i j : Nat) :
    (s.after (disarm i)).comp j = if j = i then { s.comp i with armed := false } else s.comp j := comp_setComp ..

/-- TRIG ARM without a quota, at an instant far enough ahead, arms a free PROGRAM comparator and answers with it. -/
theorem after_trigArm {w : Word} {i : Instant} (hquota : s.fld ACC.TRIG_CFG_QUOTA = 0)
    (hsome : ∃ x, 96 ≤ x ∧ x < 512 ∧ (s.comp x).armed = false) (hlead : 100 ≤ tdiff i s.now) :
    ∃ x, 96 ≤ x ∧ x < 512 ∧ (s.comp x).armed = false ∧ ∃ t : State,
      s.after (trigArm n w i) = t.after (answer n 0 (BitVec.ofNat 32 x) 0#32 []) ∧
      t.mem = s.mem ∧ t.regs = s.regs ∧ t.cores = s.cores ∧ t.comp x = ⟨true, i, n, true, false, w, s.acc.eccInject⟩ ∧
      ∀ y, y ≠ x → t.comp y = s.comp y := by
  obtain ⟨x, hl, hh, harmed, hfind⟩ := freeComp_of_unarmed (s.free 9) hsome
  have hfind' : (s.apply .draw).freeComp (s.free 9) = some x := hfind
  have hquota' : (s.apply .draw).fld ACC.TRIG_CFG_QUOTA = 0 := hquota
  have hlead' : ¬tdiff i (s.apply .draw).now < 100 := by
    rw [State.apply_draw_now]
    omega
  have hcomp := fun y => comp_setComp (s.apply .draw) x y fun _ => ⟨true, i, n, true, false, w, s.acc.eccInject⟩
  refine ⟨x, hl, hh, harmed, ((s.apply .draw).after (setComp x fun _ => ⟨true, i, n, true, false, w, s.acc.eccInject⟩)).after
    (setAcc fun a => { a with eccInject := false }), ?_, rfl, rfl, rfl, (hcomp x).trans (if_pos rfl),
    fun y hy => (hcomp y).trans (if_neg hy)⟩
  rw [trigArm, withFree, after_ask, after_seq_cons, after_seq_cons, after_seq_nil, after_changes, applyAll_cons, applyAll_nil,
    after_ask]
  simp only [hfind', hquota', ne_eq, not_true, decide_false, Bool.false_and, Bool.false_eq_true, if_false, if_neg hlead',
    after_seq_cons, after_seq_nil]
  rfl

/-- TRIG CANCEL of its own core's latest arming, not yet fired, frees the comparator. -/
theorem after_trigCancel {i : Nat} (hi : 96 ≤ i) (hever : (s.comp i).everArmed = true) (howner : (s.comp i).owner = n)
    (hfired : (s.comp i).fired = false) :
    s.after (trigCancel n i) = (s.after (disarm i)).after (answer n 0 0#32 0#32 []) := by
  rw [trigCancel, after_ask]
  dsimp only
  rw [if_neg (by simp [hever, howner]; omega), hfired, if_neg Bool.false_ne_true, after_seq_cons, after_seq_cons, after_seq_nil]

end

/-! ### The operations at their targets -/

section
variable {s : State} {n : Fin 65} {q : QReq} {r : Nat}

theorem core_eq_of_cores {s t : State} (h : t.cores = s.cores) (m : Nat) : t.core m = s.core m := by
  rw [State.core, h, State.core]

theorem isFree_sent (x : Nat) : (s.sent n q).isFree x = s.isFree x := by
  have h : (s.sent n q).holder x = s.holder x := rfl
  rw [State.isFree, State.isFree, h]

/-- A pop of an enabled shallow ring with descriptors is answered with the head, which leaves the ring. -/
theorem sent_pop {e : RingEntry} {l : List RingEntry} (hshallow : s.shallow r = true) (hptr : (s.ring r).ptrFault = 0)
    (hq : (s.ring r).q = e :: l) (hheld : s.tm.held = []) (hen : s.flag (TM.RING_CTL_EN r) = true) :
    let t := (s.sent n q).after (pop r (popAnswer n))
    (t.ring r).q = l ∧
      t.core n = sentCore s n q (some ⟨if e.d.poison then 9 else 0, 0, e.d.w0, e.d.w1, e.d.words, false⟩) := by
  intro t
  obtain ⟨u, hu, hring, hcores⟩ := after_pop_shallow (s := s.sent n q) (popAnswer n) hshallow hptr hq hheld hen
  have hcore : u.core n = sentCore s n q none := (core_eq_of_cores hcores n).trans core_sent
  rw [show t = _ from hu, popAnswer, after_answer hcore]
  exact ⟨hring, core_withCore_self ..⟩

/-- A pop of an empty ring is answered EMPTY with the idle item. -/
theorem sent_pop_empty (hrun : (s.core n).run = .running) (hptr : (s.ring r).ptrFault = 0) (hq : (s.ring r).q = []) :
    (s.sent n q).after (pop r (popAnswer n)) =
      s.withCore n (sentCore s n q (some ⟨1, 0, 0xF#32, 0#32, [0xF#32, 0#32, 0#32, 0#32], false⟩)) :=
  (after_pop_empty (s := s.sent n q) (popAnswer n) hptr hq).trans (after_sent_answer hrun 1 _ _ _)

section
variable {d : Desc} (hptr : (s.ring r).ptrFault = 0) (hreclaim : (s.ring r).reclaiming = false)
  (hen : s.flag (TM.RING_CTL_EN r) = true) (htype : d.type ≠ 0xF)
include hptr hreclaim hen htype

/-- A waited-for push to an enabled ring with room appends its descriptor. -/
theorem sent_push (disabled : Effect) (hroom : (s.ring r).q.length < s.depth r) :
    let t := (s.sent n q).after (programPush r d (answer n 2 0#32 0#32 []) disabled (answer n 0 0#32 0#32 []))
    (t.ring r).q = (s.ring r).q ++ [⟨d, s.ltbUs % 2 ^ 32, (s.ring r).tail⟩] ∧
      (t.core n).wait = .query q (some ⟨0, 0, 0, 0, [], false⟩) := by
  intro t
  have hroom' : (s.sent n q).hasRoom r = true := (hasRoom_eq hen hreclaim).trans (decide_eq_true hroom)
  have ht : t = ((s.sent n q).after (append r d)).after (answer n 0 0#32 0#32 []) :=
    (after_programPush (s := s.sent n q) _ disabled _ htype hptr hen).trans (if_pos hroom')
  have hwait : (((s.sent n q).after (append r d)).core n).wait = .query q none :=
    (keeps_wait_append n r d (s.sent n q)).trans (congrArg Core.wait core_sent)
  have hring := ring_append (s.sent n q) r d
  generalize (s.sent n q).after (append r d) = u at ht hwait hring
  rw [ht, answer, after_setCore, hwait, core_withCore_self]
  exact ⟨hring, rfl⟩

/-- A waited-for push to a full ring is answered FULL. -/
theorem sent_push_full (disabled ok : Effect) (hrun : (s.core n).run = .running) (hfull : s.depth r ≤ (s.ring r).q.length) :
    (s.sent n q).after (programPush r d (answer n 2 0#32 0#32 []) disabled ok) =
      s.withCore n (sentCore s n q (some ⟨2, 0, 0, 0, [], false⟩)) := by
  have hroom : (s.sent n q).hasRoom r = false := (hasRoom_eq hen hreclaim).trans (decide_eq_false (Nat.not_lt.2 hfull))
  rw [after_programPush (s := s.sent n q) _ disabled ok htype hptr hen, hroom, if_neg Bool.false_ne_true]
  exact after_sent_answer hrun 2 _ _ _

end

theorem serveAt_bufAlloc (n : Nat) {q : QReq} (h : q.opcode = 0x3E) : serveAt n q = withBuf q.a.toNat
    (answer n 2 0xFFFFFFFF#32 0#32 []) (fun b => answer n 0 (BitVec.ofNat 32 b) 0#32 []) := by
  simp only [serveAt, h]

/-- An allocation of class 0 or 1 above its threshold takes a free buffer and is answered with it. -/
theorem sent_bufAlloc {cls : Nat} (refused : Effect) (hcls : cls ≤ 1)
    (hfree : s.classThreshold cls < s.fld TM.POOL_STATUS_FREE) (hsome : ∃ x < 16384, s.isFree x = true) :
    let t := (s.sent n q).after (withBuf cls refused (fun b => answer n 0 (BitVec.ofNat 32 b) 0#32 []))
    ∃ x < 16384, s.isFree x = true ∧ t.meta x = takenMeta ∧ MemOnly (metaAddr x) 4 s t ∧
      t.fld TM.POOL_STATUS_FREE = s.fld TM.POOL_STATUS_FREE - 1 ∧
      t.core n = sentCore s n q (some ⟨0, 0, BitVec.ofNat 32 x, 0, [], false⟩) := by
  intro t
  obtain ⟨x, hx, hxfree, hafter⟩ := after_withBuf (s := s.sent n q) (cls := cls) refused
    (fun b => answer n 0 (BitVec.ofNat 32 b) 0#32 []) hfree hsome
  have hcore : ((s.sent n q).after (takeBuf x cls)).core n = sentCore s n q none :=
    (core_eq_of_cores (keeps_takeBuf skipsEvents_cores (fun _ _ _ => rfl) (fun _ _ _ => rfl) (fun _ => rfl) x hcls _) n).trans
      core_sent
  have hmeta := meta_takeBuf (s.sent n q) x hcls
  have hmem := memOnly_takeBuf (s.sent n q) x hcls
  have hpool := free_takeBuf (s.sent n q) x hcls
  generalize (s.sent n q).after (takeBuf x cls) = u at hafter hcore hmeta hmem hpool
  rw [show t = _ from hafter, after_answer hcore]
  exact ⟨x, hx, isFree_sent x ▸ hxfree, hmeta, hmem, hpool, core_withCore_self ..⟩

/-- TRIG ARM arms a free PROGRAM comparator for its core and is answered with it. -/
theorem sent_trigArm {w : Word} {i : Instant} (hquota : s.fld ACC.TRIG_CFG_QUOTA = 0)
    (hsome : ∃ x, 96 ≤ x ∧ x < 512 ∧ (s.comp x).armed = false) (hlead : 100 ≤ tdiff i s.now) :
    let t := (s.sent n q).after (trigArm n w i)
    ∃ x, 96 ≤ x ∧ x < 512 ∧ (s.comp x).armed = false ∧ (t.comp x).armed = true ∧ (t.comp x).at_ = i ∧
      (t.comp x).owner = n.val ∧ (t.comp x).action = w ∧ (∀ y, y ≠ x → t.comp y = s.comp y) ∧ t.mem = s.mem ∧
      t.regs = s.regs ∧ t.core n = sentCore s n q (some ⟨0, 0, BitVec.ofNat 32 x, 0, [], false⟩) := by
  intro t
  obtain ⟨x, hl, hh, harmed, u, hafter, hmem, hregs, hcores, hself, hother⟩ :=
    after_trigArm (s := s.sent n q) (n := n) (w := w) hquota hsome hlead
  rw [show t = _ from hafter, after_answer ((core_eq_of_cores hcores n).trans core_sent)]
  exact ⟨x, hl, hh, harmed, congrArg Comp.armed hself, congrArg Comp.at_ hself, congrArg Comp.owner hself,
    congrArg Comp.action hself, hother, hmem, hregs, core_withCore_self ..⟩

/-- TRIG CANCEL frees its core's armed comparator. -/
theorem sent_trigCancel {i : Nat} (hprogram : 96 ≤ i) (hever : (s.comp i).everArmed = true)
    (howner : (s.comp i).owner = n.val) (hfired : (s.comp i).fired = false) :
    let t := (s.sent n q).after (trigCancel n i)
    (t.comp i).armed = false ∧ (∀ y, y ≠ i → t.comp y = s.comp y) ∧ t.mem = s.mem ∧ t.regs = s.regs ∧
      t.core n = sentCore s n q (some ⟨0, 0, 0, 0, [], false⟩) := by
  intro t
  have hafter := after_trigCancel (s := s.sent n q) (n := n) hprogram hever howner hfired
  have hcomp := comp_disarm (s.sent n q) i
  have hframe : ((s.sent n q).after (disarm i)).mem = s.mem ∧ ((s.sent n q).after (disarm i)).regs = s.regs ∧
      ((s.sent n q).after (disarm i)).core n = sentCore s n q none := ⟨rfl, rfl, core_sent⟩
  obtain ⟨hmem, hregs, hcore⟩ := hframe
  generalize (s.sent n q).after (disarm i) = u at hafter hcomp hmem hregs hcore
  rw [show t = _ from hafter, after_answer hcore]
  exact ⟨congrArg Comp.armed ((hcomp i).trans (if_pos rfl)), fun y hy => (hcomp y).trans (if_neg hy), hmem, hregs,
    core_withCore_self ..⟩

end

/-! ### The statement -/

/-- Settles O17: each request is served as soon as it is sent, and each clause is what its target's operation leaves. -/
theorem servedAtTmAndAcc : Obligations.ServedAtTmAndAcc := by
  unfold Obligations.ServedAtTmAndAcc
  intro n s rd rs rt ta hrd hrs hrt hta hpost hstall hfetch htm hacc c a b r block inL word waits
  have hserve : ServesAtOnce s n := ⟨hpost, hstall, hfetch⟩
  refine ⟨?pop, ?popEmpty, ?push, ?alloc, ?arm, ?cancel⟩
  case pop =>
    intro e l hruns hring hblk hshallow hptr hq hheld hen
    exact ⟨_, pop_served hserve hrs htm hrd hrt hring hblk hruns, sent_pop hshallow hptr hq hheld hen⟩
  case popEmpty =>
    intro hruns hring hblk hptr hq
    exact (pop_served hserve hrs htm hrd hrt hring hblk hruns).trans (congrArg _ (sent_pop_empty hruns.running hptr hq))
  case push =>
    intro hruns hring hblk hptr hreclaim hen htype
    have hserved := pushWait_served hserve hrs htm hrt hring hblk hruns
    exact ⟨fun hroom => ⟨_, hserved, sent_push hptr hreclaim hen htype _ hroom⟩,
      fun hfull => hserved.trans (congrArg _ (sent_push_full hptr hreclaim hen htype _ _ hruns.running hfull))⟩
  case alloc =>
    intro hruns hcls hfree hsome
    have hserved := bufAlloc_served hserve hrs htm hrd hcls hruns
    rw [serveAt_bufAlloc n rfl] at hserved
    exact ⟨_, hserved, sent_bufAlloc _ hcls hfree hsome⟩
  case arm =>
    intro hruns hok hquota hsome hlead
    exact ⟨_, trigArm_served hserve hrs hrd hacc hta hok hruns, sent_trigArm hquota hsome hlead⟩
  case cancel =>
    intro hruns hprogram hcomp _ hever howner hfired
    exact ⟨_, trigCancel_served hserve hrs hrd hacc hcomp hruns, sent_trigCancel hprogram hever howner hfired⟩

end Sys2Proof.Machine
end

section
/-!
PROOFS: the statement on LOOKUP, KFETCH, TXAT, LISTEN, MACREQ DLCOUNT and MACREQ ACK does not hold as it stands (O18).
MACREQ ACK takes its buffer before it stages: FREE counts down in between. The statement does not bound the mode of the
measurement (Table 05.2 has 16), and past the table LR_PROF's registers run on into the traffic manager's window, where
mode 49156 reads POOL_STATUS: the airtime staged is then not the airtime that was found free.
-/
namespace Sys2Proof.Machine

open Sys2Proof

/-! ### Freeing a chain -/

theorem keeps_count {α : Type} {f : State → α} (h : ∀ t k v, f (State.apply t (.reg k v)) = f t) (g : Fld) :
    Keeps f (count g) :=
  keeps_ask (g := fun s => setFld g (min (s.fld g + 1) (2 ^ (g.hi - g.lo + 1) - 1))) fun _ => keeps_setFld h g _

theorem keeps_chainErrorAlways {α : Type} {f : State → α} (hf : SkipsEvents f)
    (hreg : ∀ t k v, f (State.apply t (.reg k v)) = f t) (b cause : Nat) : Keeps f (chainErrorAlways b cause) :=
  keeps_seq_cons (keeps_count hreg _) (keeps_seq_cons (keeps_fire hf (by omega) _) (keeps_seq_nil _))

/-- What reads neither memory nor registers nor the router does not see a chain freed. -/
theorem keeps_freeChain {α : Type} {f : State → α} (hf : SkipsEvents f) (hreg : ∀ t k v, f (State.apply t (.reg k v)) = f t)
    (hmem : ∀ t a v, f (State.apply t (.mem a v)) = f t) (h : Nat) : Keeps f (freeChain h) := by
  refine keeps_ask fun s => keeps_ite (keeps_count hreg _) (keeps_ite (keeps_chainErrorAlways hf hreg _ _) ?_)
  exact keeps_seq_cons (keeps_forEach fun _ _ => keeps_setHolder hmem _ _)
    (keeps_seq_cons (keeps_setFree hf (fun t v => hreg t _ v) _)
      (keeps_seq_cons (keeps_when (keeps_chainErrorAlways hf hreg _ _)) (keeps_seq_nil _)))

theorem skipsEvents_bb : SkipsEvents State.bb := ⟨fun _ _ _ _ => rfl, fun _ _ => rfl, fun _ _ => rfl⟩

theorem skipsEvents_fe : SkipsEvents State.fe := ⟨fun _ _ _ _ => rfl, fun _ _ => rfl, fun _ _ => rfl⟩

theorem keeps_bb_answerFree (n code : Nat) : Keeps State.bb (answerFree n code) := fun s => by
  rw [answerFree, withFree, after_ask, after_seq_cons, after_seq_cons, after_seq_nil]
  rfl

/-! ### Staging in a reserved interval (R146, R147) -/

/-- A transmission that meets a forced calibration's interval is not staged. -/
theorem reserved_of_forced {s : State} {p : Nat} {l f : Instant} {air : Nat} (hforced : (s.port p).forcedAt = some f)
    (hover : overlaps l (tplus l air) f (tplus f (dCal p + 20000)) = true) : s.reserved p l air = true := by
  have hmatch : (match (s.port p).forcedAt with
      | some f => overlaps l (tplus l air) f (tplus f (dCal p + 20000))
      | none => false) = true := by rw [hforced]; exact hover
  simp only [State.reserved]
  rw [Bool.or_eq_true, Bool.or_eq_true]
  exact .inl (.inr hmatch)

/-- A transmission in a reserved interval is refused, whatever else holds of it. -/
theorem after_stage_reserved {s : State} {r : TxReq} (refused : Nat → Effect) (ok : Nat → Nat → Effect)
    (h : s.reserved r.port (tplus r.trig 200) (s.airtime r.mode r.len) = true) :
    ∃ code, s.after (stage r refused ok) = s.after (refused code) := by
  rw [stage, after_ask]
  dsimp only
  by_cases hen : s.flag (FE.PORT_CTL_EN r.port) = true
  · exact ⟨5, by rw [hen, h]; simp⟩
  · exact ⟨0x0C, by simp [hen]⟩

/-! ### MACREQ ACK (R128, R235) -/

/-- The transmission of the unsecured acknowledgement that answers measurement `m` of node `i` from buffer `b`. -/
def ackReq (s : State) (x : Node) (m : Meas) (fp : Bool) (i : Nat) (ta : Instant) (b : Nat) : TxReq :=
  { port := m.port, chan := m.chan, mode := m.mode, request := signed 8 x.txpwr, fcs := true, cca := false, buf := b
    len := (s.ackBytes x m fp).1.length + micLen m.level + 2, tag := 0#32, cring := 0, owner := .ack, ident := i, trig := ta }

/-- The acknowledgement is built in buffer `b` and staged. -/
def ackBuild (s : State) (x : Node) (m : Meas) (fp : Bool) (i : Nat) (ta : Instant) (refused : Nat → Effect)
    (ok : Nat → Nat → Effect) (b : Nat) : Effect :=
  seq [putBytes (bufAddr b) (s.ackBytes x m fp).1, stage (ackReq s x m fp i ta b) (fun c => seq [freeChain b, refused c])
    (fun v c => seq [ackStaged i x m fp b, ok v c])]

section
variable {s : State} {d : Desc} {x : Node} {m : Meas} (ta : Instant) (fp : Bool) (refused : Nat → Effect)
  (ok : Nat → Nat → Effect) (hen : s.flag MAC.MAC_CTL_EN = true) (hnode : find s.mac.cache d.nidx = some x)
  (hstate : x.state ≠ 0) (hmeas : find s.mac.meas d.nidx = some m) (hsfd : m.sfd = d.sfd) (hlevel : m.level = 0)
include hen hnode hstate hmeas hsfd hlevel

/-- The acknowledgement of an unsecured poll of a cached node takes a buffer first. -/
theorem after_macAck_unsecured : s.after (macAck d ta fp false refused ok) =
    s.after (withMacBuf (refused 5) (ackBuild s x m fp d.nidx ta refused ok)) := by
  have hfilter : (find s.mac.meas d.nidx).filter (fun x => x.sfd = d.sfd) = some m := by
    rw [hmeas, Option.filter_some, if_pos (decide_eq_true hsfd)]
  rw [macAck, after_ask]
  dsimp only
  rw [hen, Bool.not_true, if_neg Bool.false_ne_true, withNode, after_ask, hnode]
  dsimp only
  rw [after_ask, if_neg hstate, hfilter]
  dsimp only
  rw [if_neg Bool.false_ne_true]
  simp only [if_pos hlevel]
  rfl

/-- While a buffer is free, it is the control class's. -/
theorem after_macAck_built (hfree : 64 < s.fld TM.POOL_STATUS_FREE) (hsome : ∃ y < 16384, s.isFree y = true) :
    ∃ b, s.after (macAck d ta fp false refused ok) =
      (s.after (takeBuf b 1)).after (ackBuild s x m fp d.nidx ta refused ok b) := by
  obtain ⟨b, -, -, hbuf⟩ := after_withBuf (s := s) (cls := 1)
    (withBuf 2 (refused 5) (ackBuild s x m fp d.nidx ta refused ok)) (ackBuild s x m fp d.nidx ta refused ok) hfree hsome
  exact ⟨b, (after_macAck_unsecured ta fp refused ok hen hnode hstate hmeas hsfd hlevel).trans hbuf⟩

end

/-! ### The counterexample -/

/-- A measurement in a mode past Table 05.2's, whose LR_PROF register is POOL_STATUS. -/
def farMode : Nat := 49156
def farMeas : Meas :=
  { sfd := 0, wake := 0, err := 0, ends := 0, port := 0, chan := 0, mode := farMode, level := 0, seq := 0, kind := 0
    searched := false }

/-- Core 7 with t0 10 ms ahead, at MACREQ ACK of the poll descriptor at the start of its L space. -/
def ackCore : Core := { run := .running, t := [(0, 10000000#64)] }

/-- MAC and port 0 enabled, a profile active that permits channel 0 for 100 ms, node 0 WAITING with that measurement, and
a calibration of port 0 forced at 200 ms. -/
def ackState : State :=
  { (issuingState ackCore (instrWord false 0 0x3D (2 ^ 4))).after (seq [setFld MAC.MAC_CTL_EN 1, setFld (FE.PORT_CTL_EN 0) 1,
      setFld (FE.PORT_STATUS_READY 0) 1, setFld FE.PROF_STATE_NONE 0, putBytes (profAddr 0 + 0x10) [1],
      putBytes (profAddr 0 + 0x20) [1], putBytes (profAddr 0 + 0x50) [0, 0, 0, 1, 0xE8, 3, 1, 0]]) with
    fe := { ports := [(0, { forcedAt := some 200000000#64 })] }
    mac := { cache := [(0, { state := 2 })], meas := [(0, farMeas)] } }

/-- The instant of its first chip, and its airtime while no buffer is taken. -/
def ackFirst : Instant := tplus ((ackState.core (7 : Fin 65)).tr 0) 200
def ackAir : Nat := ackState.airtime farMeas.mode
  ((ackState.ackBytes { state := 2 } farMeas ((ackState.core (7 : Fin 65)).gr 0).toNat.bodd).1.length + 2)

theorem ackState_issues : ackState.on (coreDomain 7) = true ∧ (ackState.core 7).run = .running ∧
    (ackState.core 7).wait = .none ∧ ackState.fetch 7 = instrWord false 0 0x3D (2 ^ 4) := by
  decide +kernel

theorem ackState_runs : Runs ackState (7 : Fin 65) 0x3D (0 * 2 ^ 18 + 0 * 2 ^ 14 + 0 * 2 ^ 10 + 0 * 2 ^ 8 + 2 ^ 4) := by
  obtain ⟨hon, hrun, hwait, hfetch⟩ := ackState_issues
  exact ⟨hon, hrun, hwait, false, 0, by norm_num, by simp [Core.pr], hfetch⟩

theorem ackState_servesAtOnce : (ackState.core (7 : Fin 65)).dpost = 0 ∧ ackState.plt.stalled.isEmpty = true ∧
    ackState.fetching (7 : Fin 65) = false ∧ ackState.on 2 = true := by
  decide +kernel

/-- Its operands: the poll descriptor of node 0 at address 0, no flags, an instant 10 ms ahead. -/
theorem ackState_operands : BlockOk ackState 7 0 ∧ descOf (blockOf ackState 7 0) = ⟨0, 0, 0, 0⟩ ∧
    (ackState.core (7 : Fin 65)).gr 0 = 0#32 ∧ (ackState.core (7 : Fin 65)).tr 0 = 10000000#64 ∧
    2000 ≤ tdiff ((ackState.core (7 : Fin 65)).tr 0) ackState.now := by
  unfold BlockOk
  decide +kernel

theorem ackState_polled : ackState.mac.inbox.isEmpty = true ∧ ackState.cry.ctxs.isEmpty = true ∧
    find ackState.mac.cache (descOf (blockOf ackState 7 0)).nidx = some { state := 2 } ∧
    find ackState.mac.meas (descOf (blockOf ackState 7 0)).nidx = some farMeas ∧
    farMeas.sfd = (descOf (blockOf ackState 7 0)).sfd := by
  decide +kernel

/-- As long as no buffer is taken the acknowledgement can be staged. -/
theorem ackState_stageable : ackState.flag (FE.PORT_CTL_EN farMeas.port) = true ∧
    ackState.flag (FE.PORT_STATUS_READY farMeas.port) = true ∧ ackState.reserved farMeas.port ackFirst ackAir = false ∧
    ackState.permits (ackState.profileAt ackFirst) farMeas.port farMeas.chan = some (0, 0) ∧
    (ackState.resolve 0 0 farMeas.port (signed 8 0)).isSome = true ∧ ackState.assess 0 0 false = none ∧
    ackState.voiceFor farMeas.port farMeas.chan ackFirst (tplus ackFirst (ackAir + 10000)) = some 0 ∧
    ackState.dutyBreach 0 0 ackFirst.toNat ackAir = false ∧
    ackState.dwellBreach 0 0 farMeas.port farMeas.chan ackFirst.toNat ackAir = false := by
  decide +kernel

/-! ### Where the acknowledgement is not staged -/

/-- With a buffer taken from 16,384 free the mode's register holds 16,383 in its low bits. -/
theorem airtime_farMode {s : State} (h : s.fld TM.POOL_STATUS_FREE = 16383) : s.airtime farMode 15 = 1059840000 := by
  have hmod : s.regN TM.POOL_STATUS % 2 ^ 15 = 16383 := by
    have hbits : bits (s.regN TM.POOL_STATUS) 14 0 = 16383 := h
    rwa [bits, Nat.pow_zero, Nat.div_one] at hbits
  have hsf : s.fld (BB.LR_PROF_SF (farMode - 8)) = 7 := by
    show bits (s.regN TM.POOL_STATUS) 6 4 = 7
    rw [bits]
    omega
  have hcr : s.fld (BB.LR_PROF_CR (farMode - 8)) = 3 := by
    show bits (s.regN TM.POOL_STATUS) 1 0 = 3
    rw [bits]
    omega
  have hqpsk : s.fld (BB.LR_PROF_QPSK (farMode - 8)) = 1 := by
    show bits (s.regN TM.POOL_STATUS) 7 7 = 1
    rw [bits]
    omega
  simp only [State.airtime, State.tSfd, State.bodyTime, State.tSym, State.qpsk, State.flag, hsf, hcr, hqpsk]
  decide

/-- What of a state makes MACREQ ACK on node 0's poll take a buffer and then refuse: a measurement in the far mode, and a
calibration of its port forced at 200 ms. -/
structure AckRefused (s : State) : Prop where
  enabled : s.flag MAC.MAC_CTL_EN = true
  pool : s.fld TM.POOL_STATUS_FREE = 16384
  buffer : s.isFree 0 = true
  measured : s.ackWaits ⟨0, 0, 0, 0⟩ = false
  node : find s.mac.cache 0 = some { state := 2 }
  meas : find s.mac.meas 0 = some farMeas
  forced : (s.port 0).forcedAt = some 200000000#64
  staged : s.bb.staged = []

/-- A request sent changes none of it. -/
theorem AckRefused.sent {s : State} (h : AckRefused s) (n : Fin 65) (q : QReq) : AckRefused (s.sent n q) where
  enabled := h.enabled
  pool := h.pool
  buffer := (isFree_sent 0).trans h.buffer
  measured := h.measured
  node := h.node
  meas := h.meas
  forced := h.forced
  staged := h.staged

/-- In the buffer taken, the acknowledgement's airtime is twelve times as long, and it meets the calibration. -/
theorem reserved_farMode {s : State} {l : List Nat} (b : Nat) (h : AckRefused s) :
    let t := (s.after (takeBuf b 1)).after (putBytes (bufAddr b) l)
    t.reserved 0 (tplus 10000000#64 200) (t.airtime farMode 15) = true := by
  intro t
  have hpool : t.fld TM.POOL_STATUS_FREE = 16383 :=
    (keeps_putBytes (f := (State.fld · TM.POOL_STATUS_FREE)) (fun _ _ _ => rfl) _ _ _).trans
      ((free_takeBuf s b le_rfl).trans (by rw [h.pool]))
  have hfe : t.fe = s.fe := (keeps_putBytes (f := State.fe) (fun _ _ _ => rfl) _ _ _).trans
    (keeps_takeBuf skipsEvents_fe (fun _ _ _ => rfl) (fun _ _ _ => rfl) (fun _ => rfl) b le_rfl s)
  have hforced : (t.port 0).forcedAt = some 200000000#64 := by
    rw [State.port, hfe]
    exact h.forced
  rw [airtime_farMode hpool]
  exact reserved_of_forced hforced (by decide)

theorem ackServe_notStaged {s : State} {n : Nat} {blk : List Word} (h : AckRefused s) (hblk : descOf blk = ⟨0, 0, 0, 0⟩) :
    (s.after (ackServe n blk 0#32 10000000#64)).bb.staged = [] := by
  have hnode : find s.mac.cache (Desc.nidx ⟨0, 0, 0, 0⟩) = some { state := 2 } := h.node
  have hmeas : find s.mac.meas (Desc.nidx ⟨0, 0, 0, 0⟩) = some farMeas := h.meas
  obtain ⟨b, hack⟩ := after_macAck_built (s := s) (d := ⟨0, 0, 0, 0⟩) 10000000#64 false (answerFree n)
    (fun v c => answer n 0 (BitVec.ofNat 32 v) (BitVec.ofNat 32 c) []) h.enabled hnode (by decide) hmeas rfl rfl
    (by rw [h.pool]; norm_num) ⟨0, by norm_num, h.buffer⟩
  have hserve : s.after (ackServe n blk 0#32 10000000#64) = s.after (macAck ⟨0, 0, 0, 0⟩ 10000000#64 false false
      (answerFree n) (fun v c => answer n 0 (BitVec.ofNat 32 v) (BitVec.ofNat 32 c) [])) := by
    rw [ackServe, after_ask, hblk, h.measured, Bool.and_false, Bool.not_false, after_when, if_pos rfl]
    rfl
  have hbb : ∀ l, (((s.after (takeBuf b 1)).after (putBytes (bufAddr b) l))).bb = s.bb := fun l =>
    (keeps_putBytes (f := State.bb) (fun _ _ _ => rfl) _ _ _).trans
      (keeps_takeBuf skipsEvents_bb (fun _ _ _ => rfl) (fun _ _ _ => rfl) (fun _ => rfl) b le_rfl s)
  rw [hserve, hack, ackBuild, after_seq_cons, after_seq_cons, after_seq_nil]
  obtain ⟨code, hcode⟩ := after_stage_reserved (r := ackReq s { state := 2 } farMeas false 0 10000000#64 b)
    (fun c => seq [freeChain b, answerFree n c])
    (fun v c => seq [ackStaged 0 { state := 2 } farMeas false b, answer n 0 (BitVec.ofNat 32 v) (BitVec.ofNat 32 c) []])
    (reserved_farMode (l := (s.ackBytes { state := 2 } farMeas false).1) b h)
  refine (congrArg (fun t : State => t.bb.staged) hcode).trans ?_
  rw [after_seq_cons, after_seq_cons, after_seq_nil, keeps_bb_answerFree, keeps_freeChain skipsEvents_bb (fun _ _ _ => rfl)
    (fun _ _ _ => rfl), hbb, h.staged]

/-! ### The statement -/

theorem ackState_refused : AckRefused ackState where
  enabled := by decide +kernel
  pool := by decide +kernel
  buffer := by decide +kernel
  measured := by decide +kernel
  node := by decide +kernel
  meas := by decide +kernel
  forced := by decide +kernel
  staged := by decide +kernel

theorem serveAt_macAck (n : Nat) {q : QReq} (h : q.opcode = 0x3D) (hsub : q.sub = 1) :
    serveAt n q = ackServe n q.blk q.b q.ta := by
  simp [serveAt, h, hsub]

/-- Refutes O18: MACREQ ACK of `ackState` meets every hypothesis of the statement's second part, and stages nothing. -/
theorem not_servedAtOtherEngines : ¬ Obligations.ServedAtOtherEngines := by
  unfold Obligations.ServedAtOtherEngines
  rintro ⟨-, hack⟩
  obtain ⟨hpost, hstalled, hfetching, hon⟩ := ackState_servesAtOnce
  obtain ⟨hblk, hdesc, hgr, htr, hlead⟩ := ackState_operands
  obtain ⟨hinbox, hctxs, hnode, hmeas, hsfd⟩ := ackState_polled
  obtain ⟨hen, hready, hreserved, hpermits, hresolve, hassess, hvoice, hduty, hdwell⟩ := ackState_stageable
  have hflags : ((ackState.core (7 : Fin 65)).gr 0).toNat < 2 := by rw [hgr]; norm_num
  have hpool : 64 < ackState.fld TM.POOL_STATUS_FREE := by rw [ackState_refused.pool]; norm_num
  rw [List.isEmpty_iff] at hstalled hinbox hctxs
  obtain ⟨t, ht, y, hy, -⟩ := hack 7 ackState 0 0 0 0 { state := 2 } farMeas 0 0 0 (by norm_num) (by norm_num) (by norm_num)
    (by norm_num) hpost hstalled hfetching hon ackState_runs hblk.1 hblk.2 hflags ackState_refused.enabled hinbox hctxs hnode
    rfl hmeas hsfd rfl hpool ⟨0, by norm_num, ackState_refused.buffer⟩ hen hready (by decide) hreserved hpermits hresolve
    hassess hvoice hduty hdwell hlead
  have hserved := macreqAck_served (s := ackState) (n := 7) ⟨hpost, hstalled, hfetching⟩ (by norm_num) hon (rd := 0)
    (by norm_num) (rt := 0) (ta := 0) (by norm_num) (by norm_num) hblk (by omega) ackState_runs
  rw [hserved] at ht
  injection ht with ht
  have hnone : t.bb.staged = [] := by
    rw [← ht, serveAt_macAck _ rfl rfl]
    dsimp only [devReq]
    rw [hgr, htr]
    exact ackServe_notStaged (ackState_refused.sent 7 _) hdesc
  rw [hnone] at hy
  exact absurd hy List.not_mem_nil

end Sys2Proof.Machine
end

section
/-!
PROOFS: the hypotheses of O17 and O19 are met, each at a boundary value, and what the two statements then give.
-/
namespace Sys2Proof.Machine

open Sys2Proof

/-! ### O17 -/

/-- The registers of core 7: the last ring, the last L block, a time action word, the last comparator, the control class;
t0 is 100 ns ahead. -/
def servedCore : Core :=
  { run := .running, g := [(1, 63#32), (2, 0x7FF0#32), (3, 0x10004000#32), (4, 511#32), (5, 1#32)], t := [(0, 100#64)] }

/-- Core 7 at a word; the last ring enabled, with one descriptor of length 0, and the last comparator armed by core 7. -/
def servedState (op rest : Nat) : State :=
  { (issuingState servedCore (instrWord false 0 op rest)).after (setFld (TM.RING_CTL_EN 63) 1) with
    tm := { rings := [(63, { q := [⟨⟨0x10#32, 0#32, 0#32, 0#32⟩, 0, 0⟩] })] }
    acc := { comps := [(511, { armed := true, at_ := 100#64, owner := 7, everArmed := true })] } }

/-- What O17 asks of every command, as one test. -/
def servedAtWord (s : State) (op rest : Nat) : Bool :=
  s.on (coreDomain 7) && (s.core 7).run == .running && (s.core 7).wait == .none && s.fetch 7 == instrWord false 0 op rest &&
    (s.core 7).dpost == 0 && s.plt.stalled.isEmpty && !s.fetching 7 && s.on 2 && s.on 0

theorem serves_of_servedAtWord {s : State} {op rest : Nat} (h : servedAtWord s op rest = true) :
    Runs s (7 : Fin 65) op rest ∧ ServesAtOnce s (7 : Fin 65) ∧ s.on 2 = true ∧ s.on 0 = true := by
  simp only [servedAtWord, Bool.and_eq_true, beq_iff_eq, List.isEmpty_iff, Bool.not_eq_true'] at h
  obtain ⟨⟨⟨⟨⟨⟨⟨⟨hon, hrun⟩, hwait⟩, hfetch⟩, hpost⟩, hstalled⟩, hkeys⟩, htm⟩, hacc⟩ := h
  exact ⟨⟨hon, hrun, hwait, false, 0, by norm_num, by simp [Core.pr], hfetch⟩, ⟨hpost, hstalled, hkeys⟩, htm, hacc⟩

/-- POP of the last ring. -/
def popState : State := servedState 0x34 (6 * 2 ^ 18 + 1 * 2 ^ 14 + 2 * 2 ^ 10 + 0 * 2 ^ 8 + 0 * 2 ^ 4)

theorem popState_pops : Answers (.pop 7) popState (fun t => (t.ring 63).q = []) := by
  obtain ⟨hruns, ⟨hposted, hstalled, hfetching⟩, htm, hacc⟩ := serves_of_servedAtWord (s := popState) (op := 0x34)
    (rest := 6 * 2 ^ 18 + 1 * 2 ^ 14 + 2 * 2 ^ 10 + 0 * 2 ^ 8 + 0 * 2 ^ 4) (by decide +kernel)
  obtain ⟨hpop, -⟩ := servedAtTmAndAcc 7 popState 6 1 2 0 (by norm_num) (by norm_num) (by norm_num) (by norm_num) hposted
    hstalled hfetching htm hacc
  obtain ⟨t, ht, hq, -⟩ := hpop _ _ hruns (by decide +kernel) (by decide +kernel) (by decide +kernel) (by decide +kernel) rfl
    rfl (by decide +kernel)
  exact ⟨t, ht, hq⟩

/-- PUSH of the last L block on the last ring, WAIT. -/
def pushState : State := servedState 0x33 (0 * 2 ^ 18 + 1 * 2 ^ 14 + 2 * 2 ^ 10 + 0 * 2 ^ 8 + 1 * 2 ^ 4)

theorem pushState_pushes : Answers (.push 7) pushState (fun t => (t.ring 63).q.length = 2) := by
  obtain ⟨hruns, ⟨hposted, hstalled, hfetching⟩, htm, hacc⟩ := serves_of_servedAtWord (s := pushState) (op := 0x33)
    (rest := 0 * 2 ^ 18 + 1 * 2 ^ 14 + 2 * 2 ^ 10 + 0 * 2 ^ 8 + 1 * 2 ^ 4) (by decide +kernel)
  obtain ⟨-, -, hpush, -⟩ := servedAtTmAndAcc 7 pushState 0 1 2 0 (by norm_num) (by norm_num) (by norm_num) (by norm_num)
    hposted hstalled hfetching htm hacc
  obtain ⟨hroom, -⟩ := hpush hruns (by decide +kernel) (by decide +kernel) (by decide +kernel) (by decide +kernel)
    (by decide +kernel) (by decide +kernel)
  obtain ⟨t, ht, hq, -⟩ := hroom (by decide +kernel)
  exact ⟨t, ht, (congrArg List.length hq).trans List.length_append⟩

/-- BUF ALLOC of the control class, every buffer free. -/
def allocState : State := servedState 0x3E (6 * 2 ^ 18 + 5 * 2 ^ 14 + 0 * 2 ^ 10 + 0 * 2 ^ 8 + 0 * 2 ^ 4)

theorem allocState_allocates : Answers (.bufAlloc 7) allocState (fun t => t.fld TM.POOL_STATUS_FREE = 16383) := by
  obtain ⟨hruns, ⟨hposted, hstalled, hfetching⟩, htm, hacc⟩ := serves_of_servedAtWord (s := allocState) (op := 0x3E)
    (rest := 6 * 2 ^ 18 + 5 * 2 ^ 14 + 0 * 2 ^ 10 + 0 * 2 ^ 8 + 0 * 2 ^ 4) (by decide +kernel)
  obtain ⟨-, -, -, halloc, -⟩ := servedAtTmAndAcc 7 allocState 6 5 0 0 (by norm_num) (by norm_num) (by norm_num) (by norm_num)
    hposted hstalled hfetching htm hacc
  obtain ⟨t, ht, -, -, -, -, -, hpool, -⟩ := halloc hruns (by decide +kernel) (by decide +kernel)
    ⟨0, by norm_num, by decide +kernel⟩
  have hfree : allocState.fld TM.POOL_STATUS_FREE = 16384 := by decide +kernel
  exact ⟨t, ht, hpool.trans (by rw [hfree])⟩

/-- TRIG ARM at the first instant that is not late. -/
def armState : State := servedState 0x32 (6 * 2 ^ 18 + 3 * 2 ^ 14 + 0 * 2 ^ 10 + 0 * 2 ^ 8 + 0 * 2 ^ 4)

theorem armState_arms : Answers (.trigArm 7) armState (fun t => ∃ x, (armState.comp x).armed = false ∧
    (t.comp x).armed = true ∧ (t.comp x).at_ = 100#64) := by
  obtain ⟨hruns, ⟨hposted, hstalled, hfetching⟩, htm, hacc⟩ := serves_of_servedAtWord (s := armState) (op := 0x32)
    (rest := 6 * 2 ^ 18 + 3 * 2 ^ 14 + 0 * 2 ^ 10 + 0 * 2 ^ 8 + 0 * 2 ^ 4) (by decide +kernel)
  obtain ⟨-, -, -, -, harm, -⟩ := servedAtTmAndAcc 7 armState 6 3 0 0 (by norm_num) (by norm_num) (by norm_num) (by norm_num)
    hposted hstalled hfetching htm hacc
  obtain ⟨t, ht, x, -, -, hfree, harmed, hat, -⟩ := harm hruns (by decide +kernel) (by decide +kernel)
    ⟨96, by norm_num, by norm_num, by decide +kernel⟩ (by decide +kernel)
  have htime : (armState.core (7 : Fin 65)).tr 0 = 100#64 := by decide +kernel
  exact ⟨t, ht, x, hfree, harmed, hat.trans htime⟩

/-- TRIG CANCEL of the last comparator. -/
def cancelState : State := servedState 0x32 (6 * 2 ^ 18 + 4 * 2 ^ 14 + 0 * 2 ^ 10 + 0 * 2 ^ 8 + 1 * 2 ^ 4)

theorem cancelState_cancels : Answers (.trigCancel 7) cancelState (fun t => (t.comp 511).armed = false) := by
  obtain ⟨hruns, ⟨hposted, hstalled, hfetching⟩, htm, hacc⟩ := serves_of_servedAtWord (s := cancelState) (op := 0x32)
    (rest := 6 * 2 ^ 18 + 4 * 2 ^ 14 + 0 * 2 ^ 10 + 0 * 2 ^ 8 + 1 * 2 ^ 4) (by decide +kernel)
  obtain ⟨-, -, -, -, -, hcancel⟩ := servedAtTmAndAcc 7 cancelState 6 4 0 0 (by norm_num) (by norm_num) (by norm_num)
    (by norm_num) hposted hstalled hfetching htm hacc
  have hcomp : ((cancelState.core (7 : Fin 65)).gr 4).toNat = 511 := by decide +kernel
  obtain ⟨t, ht, hfree, -⟩ := hcancel hruns (by decide +kernel) (by decide +kernel) (by decide +kernel) (by decide +kernel)
    (by decide +kernel) (by decide +kernel)
  exact ⟨t, ht, by rwa [hcomp] at hfree⟩

/-! ### O19 -/

/-- Core 7 with a POP answered and an error of a P-class operation back, DERR already saturated. -/
def answeredCore : Core :=
  { run := .running, wait := .query ⟨0x34, 0, 6, 63#32, 0#32, [], 0, 0#64⟩ (some ⟨1, 0, 0xF#32, 0xFFFFFFFF#32, [], false⟩)
    posted := [.refused 14 255], derr := 0xFFFF8001#32 }

def answeredState : State := issuingState answeredCore 0

theorem core_answeredState : answeredState.core (7 : Fin 65) = answeredCore := core_issuingState ..

theorem answeredState_goesOn : Answers (.qResponse 7) answeredState (fun t => OnlyCore (7 : Fin 65) answeredState t ∧
    (t.core (7 : Fin 65)).gr 6 = 0xF#32 ∧ (t.core (7 : Fin 65)).dres = 0xFFFFFFFF#32 ∧
    (t.core (7 : Fin 65)).dstat = 0x401#32) := by
  obtain ⟨hanswer, -⟩ := operationEnds 7 answeredState
  rw [core_answeredState] at hanswer
  obtain ⟨t, ht, honly, hcore⟩ := hanswer _ 1 0 _ _ rfl rfl (issuingState_flows _ _ rfl) (by decide) (by decide) (by decide)
    (by norm_num) (by norm_num)
  exact ⟨t, ht, honly, by rw [hcore]; rfl, by rw [hcore], by rw [hcore]; rfl⟩

theorem answeredState_derr : exec (.asyncErrorResponse 7) answeredState =
    .next (answeredState.withCore 7 { answeredCore with posted := [] }) := by
  obtain ⟨-, -, hderr⟩ := operationEnds 7 answeredState
  rw [core_answeredState] at hderr
  exact hderr 14 255 [] rfl (by norm_num) (by norm_num)

/-- Core 7 with BERR_NOFAULT set, its TRIG ARM answered by a bus error. -/
def absorbedState : State :=
  (issuingState { answeredCore with
    wait := .query ⟨0x32, 0, 6, 0#32, 0#32, [], 0, 0#64⟩ (some ⟨0x0D, 0, 0xFFFFFFFF#32, 0, [], true⟩) } 0).after
    (setFld (SEQ.CORE_EXP_BERR_NOFAULT 7) 1)

theorem absorbedState_absorbs : Answers (.qResponse 7) absorbedState (fun t =>
    (t.core (7 : Fin 65)).gr 6 = 0xFFFFFFFF#32 ∧ (t.core (7 : Fin 65)).be = true) := by
  obtain ⟨-, habsorb, -⟩ := operationEnds 7 absorbedState
  have hflows : (absorbedState.core 7).pc + 4 < iSize 7 ∧ absorbedState.flag (SEQ.CORE_EXP_STEP 7) = false := by
    decide +kernel
  obtain ⟨t, ht, -, hcore⟩ := habsorb ⟨0x32, 0, 6, 0#32, 0#32, [], 0, 0#64⟩ (by norm_num) (by decide +kernel)
    (by decide +kernel) ⟨hflows.1, .inr hflows.2⟩ (by decide +kernel) (by norm_num) (by norm_num) (by norm_num)
  exact ⟨t, ht, by rw [hcore]; rfl, by rw [hcore]⟩

end Sys2Proof.Machine
end

section
/-!
PROOFS: what the traffic manager's work leaves alone, and the end of a staged transmission: the RF front-end, the staged
transmissions and the registers below MAC's window see no push, completion, freed chain or event.
-/
namespace Sys2Proof.Machine

open Sys2Proof

/-! ### Reads beside the traffic manager -/

/-- The read `f` sees no register from MAC's window on, no memory, no core, and of the engines' working state only the RF
front-end's and the staged transmissions. -/
structure Beside {α : Type} (f : State → α) : Prop where
  reg : ∀ (t : State) k v, 0x40020000 ≤ k → f (t.apply (.reg k v)) = f t
  mem : ∀ (t : State) a b, f (t.apply (.mem a b)) = f t
  core : ∀ (t : State) n c, f (t.apply (.core n c)) = f t
  first : ∀ (t : State) k b, f (t.apply (.first k b)) = f t
  draw : ∀ t : State, f (t.apply .draw) = f t
  mac : ∀ (t : State) x, f (t.apply (.mac x)) = f t
  fwd : ∀ (t : State) x, f (t.apply (.fwd x)) = f t
  tm : ∀ (t : State) x, f (t.apply (.tm x)) = f t
  cry : ∀ (t : State) x, f (t.apply (.cry x)) = f t
  key : ∀ (t : State) x, f (t.apply (.key x)) = f t
  acc : ∀ (t : State) x, f (t.apply (.acc x)) = f t
  plt : ∀ (t : State) x, f (t.apply (.plt x)) = f t
  evt : ∀ (t : State) x, f (t.apply (.evt x)) = f t
  lanes : ∀ (t : State) l, f (t.apply (.bb { t.bb with lanes := l })) = f t
  done : ∀ (t : State) l, f (t.apply (.bb { t.bb with done := l })) = f t

theorem beside_fe : Beside State.fe := by constructor <;> intros <;> rfl

theorem beside_port (p : Nat) : Beside (State.port · p) := by constructor <;> intros <;> rfl

theorem beside_staged : Beside (fun t => t.bb.staged) := by constructor <;> intros <;> rfl

theorem beside_reg {k : Nat} (h : k < 0x40020000) : Beside (State.reg · k) where
  reg t j v hj := reg_apply_ne t j k v (by omega)
  mem _ _ _ := rfl
  core _ _ _ := rfl
  first _ _ _ := rfl
  draw _ := rfl
  mac _ _ := rfl
  fwd _ _ := rfl
  tm _ _ := rfl
  cry _ _ := rfl
  key _ _ := rfl
  acc _ _ := rfl
  plt _ _ := rfl
  evt _ _ := rfl
  lanes _ _ := rfl
  done _ _ := rfl

namespace Beside
variable {α : Type} {f : State → α}

/-- What is computed from such a read is one. -/
theorem comp {β : Type} (hf : Beside f) (g : α → β) : Beside (fun t => g (f t)) where
  reg t k v h := congrArg g (hf.reg t k v h)
  mem t a b := congrArg g (hf.mem t a b)
  core t n c := congrArg g (hf.core t n c)
  first t k b := congrArg g (hf.first t k b)
  draw t := congrArg g (hf.draw t)
  mac t x := congrArg g (hf.mac t x)
  fwd t x := congrArg g (hf.fwd t x)
  tm t x := congrArg g (hf.tm t x)
  cry t x := congrArg g (hf.cry t x)
  key t x := congrArg g (hf.key t x)
  acc t x := congrArg g (hf.acc t x)
  plt t x := congrArg g (hf.plt t x)
  evt t x := congrArg g (hf.evt t x)
  lanes t l := congrArg g (hf.lanes t l)
  done t l := congrArg g (hf.done t l)

theorem skipsEvents (hf : Beside f) : SkipsEvents f where
  reg t k v hk := hf.reg t k v (by rcases hk with rfl | hk; · decide
                                   · omega)
  evt := hf.evt
  plt := hf.plt

theorem keeps_setFld (hf : Beside f) {g : Fld} (h : 0x40020000 ≤ g.addr) (v : Nat) : Keeps f (setFld g v) :=
  fun s => hf.reg s _ _ h

theorem keeps_count (hf : Beside f) {g : Fld} (h : 0x40020000 ≤ g.addr) : Keeps f (count g) :=
  keeps_ask (g := fun s => setFld g (min (s.fld g + 1) (2 ^ (g.hi - g.lo + 1) - 1))) fun _ => hf.keeps_setFld h _

theorem keeps_fire (hf : Beside f) {n : Nat} (hn : n < 96) (arg : Nat) : Keeps f (fire n arg) :=
  Machine.keeps_fire hf.skipsEvents hn arg

theorem keeps_fireFirst (hf : Beside f) (a cause : Nat) {n : Nat} (hn : n < 96) (arg : Nat) :
    Keeps f (fireFirst a cause n arg) :=
  keeps_ask fun _ => keeps_ite (keeps_nothing f)
    (keeps_seq_cons (fun s => hf.first s _ _) (keeps_seq_cons (hf.keeps_fire hn arg) (keeps_seq_nil f)))

theorem keeps_disarm (hf : Beside f) (i : Nat) : Keeps f (disarm i) := fun s => hf.acc s _

theorem keeps_setLane (hf : Beside f) (n : Nat) (g : Lane → Lane) : Keeps f (setLane n g) := fun s => hf.lanes s _

/-! ### Chains and rings (R295, R303, R310) -/

theorem keeps_chainErrorAlways (hf : Beside f) (b cause : Nat) : Keeps f (chainErrorAlways b cause) :=
  keeps_seq_cons (hf.keeps_count (by decide)) (keeps_seq_cons (hf.keeps_fire (by omega) _) (keeps_seq_nil _))

theorem keeps_freeChain (hf : Beside f) (h : Nat) : Keeps f (freeChain h) := by
  refine keeps_ask fun s => keeps_ite (hf.keeps_count (by decide)) (keeps_ite (hf.keeps_chainErrorAlways _ _) ?_)
  exact keeps_seq_cons (keeps_forEach fun _ _ => keeps_setHolder hf.mem _ _)
    (keeps_seq_cons (keeps_setFree hf.skipsEvents (fun t v => hf.reg t _ v (by decide)) _)
      (keeps_seq_cons (keeps_when (hf.keeps_chainErrorAlways _ _)) (keeps_seq_nil _)))

theorem keeps_setRing (hf : Beside f) (n : Nat) (r : Ring) : Keeps f (setRing n r) := fun s => hf.tm s _

theorem keeps_pointerCheck (hf : Beside f) (n : Nat) : Keeps f (pointerCheck n) := by
  have hcount : Keeps f (count (TM.RING_CNT_B_PTRERR n)) :=
    hf.keeps_count (by simp only [TM.RING_CNT_B_PTRERR, TM.RING_CNT_B]; omega)
  refine keeps_ask fun s => ?_
  dsimp only
  split
  · exact keeps_nothing f
  · exact keeps_seq_cons (hf.keeps_setRing _ _) (keeps_seq_cons hcount (keeps_seq_cons (hf.keeps_fire (by omega) _)
      (keeps_seq_nil f)))
  · exact keeps_seq_cons (hf.keeps_setRing _ _) (keeps_seq_cons hcount (keeps_seq_cons (hf.keeps_fire (by omega) _)
      (keeps_seq_nil f)))

theorem keeps_newHeadTag (hf : Beside f) (r len : Nat) : Keeps f (newHeadTag r len) := by
  refine keeps_ask fun s => ?_
  split
  · exact fun s => hf.reg s _ _ (by simp only [TM.RING_FTAG]; omega)
  · exact keeps_nothing f

theorem keeps_latchSlotAt (hf : Beside f) (n k arg : Nat) (i : Instant) : Keeps f (latchSlotAt n k arg i) := by
  refine keeps_ask fun _ => keeps_ite (keeps_nothing f) (keeps_ite (hf.keeps_count ?_) fun s => hf.core s _ _)
  unfold mergedOf
  split
  · decide
  · simp only [SEQ.CNT_MERGED, SEQ.CNT]
    omega

theorem keeps_ringReport (hf : Beside f) (r : Nat) : Keeps f (ringReport r) :=
  keeps_ask fun _ => keeps_forEach fun x _ => keeps_ask fun u => hf.keeps_latchSlotAt x.1 x.2 0 u.now

theorem keeps_append (hf : Beside f) (r : Nat) (d : Desc) : Keeps f (append r d) :=
  keeps_ask fun _ => keeps_seq_cons (hf.keeps_setRing _ _) (keeps_seq_cons (fun s => hf.tm s _) (keeps_seq_cons
    (keeps_ite (keeps_putBytes hf.mem _ _) (keeps_putBytes hf.mem _ _)) (keeps_seq_cons
    (keeps_when (keeps_setHolder hf.mem _ _)) (keeps_seq_cons
    (hf.keeps_setFld (by simp only [TM.HWM_DEPTH_DEPTH, TM.HWM_DEPTH]; omega) _) (keeps_seq_cons
    (keeps_when (hf.keeps_newHeadTag _ _)) (keeps_seq_cons (keeps_when (hf.keeps_ringReport r)) (keeps_seq_nil _)))))))

theorem keeps_complete (hf : Beside f) (source unit r : Nat) (d : Desc) : Keeps f (complete source unit r d) :=
  keeps_seq_cons (hf.keeps_pointerCheck r) (keeps_seq_cons
    (keeps_ask fun _ => keeps_ite (hf.keeps_append r d) fun s => hf.tm s _) (keeps_seq_nil f))

/-! ### The end of a staged transmission (R214, R243, R281) -/

theorem keeps_jobCheck (hf : Beside f) (id : Nat) : Keeps f (jobCheck id) := by
  refine keeps_ask fun s => ?_
  split
  · exact keeps_nothing f
  · refine keeps_when ?_
    split
    · exact keeps_seq_cons (fun s => hf.fwd s _) (keeps_seq_cons (hf.keeps_complete _ _ _ _) (keeps_seq_nil f))
    · exact keeps_seq_cons (fun s => hf.fwd s _) (keeps_seq_cons (hf.keeps_freeChain _) (keeps_seq_nil f))

theorem keeps_targetEnd (hf : Beside f) (id index : Nat) (sent : Bool) : Keeps f (targetEnd id index sent) :=
  keeps_seq_cons (keeps_ite (hf.keeps_count (by decide)) (hf.keeps_count (by decide)))
    (keeps_seq_cons (fun s => hf.fwd s _) (keeps_seq_cons (hf.keeps_jobCheck id) (keeps_seq_nil f)))

theorem keeps_beaconSkip (hf : Beside f) (p chan : Nat) : Keeps f (beaconSkip p chan) :=
  keeps_seq_cons (hf.keeps_count (by decide)) (keeps_seq_cons (hf.keeps_fireFirst _ _ (by omega) _) (keeps_seq_nil f))

/-- An ended transmission leaves its place; nothing else that `f` sees changes, unless `f` sees the count of those sent. -/
theorem endTx (hf : Beside f) (s : State) (x : Staged) (status : Nat)
    (hcount : status = 0 → Keeps f (Machine.count (BB.COUNT_HI x.port 6))) :
    f (s.after (Machine.endTx x status)) =
      f (s.apply (.bb { s.bb with staged := s.bb.staged.filter fun y => y.voice ≠ x.voice || y.place ≠ x.place })) := by
  have hsent : Keeps f (when (decide (status = 0)) (count (BB.COUNT_HI x.port 6))) := by
    by_cases h : status = 0
    · exact keeps_when (hcount h)
    · rw [decide_eq_false h]
      exact keeps_nothing f
  unfold Machine.endTx
  rw [after_seq_cons]
  refine (?_ : Keeps f (seq _)) _
  refine keeps_seq_cons (hf.keeps_disarm _) (keeps_seq_cons (keeps_when fun s => hf.mac s _)
    (keeps_seq_cons hsent (keeps_seq_cons ?_ (keeps_seq_nil f))))
  have hbeacon : Keeps f (seq [freeChain x.buf,
      when (status = 0) (if x.owner = .beacon then count (MAC.CNT_HI 3) else count (MAC.CNT_LO 6)),
      when (status = 2 || status = 4 || status = 5) (beaconSkip x.port x.chan)]) :=
    keeps_seq_cons (hf.keeps_freeChain _) (keeps_seq_cons (keeps_when (keeps_ite (hf.keeps_count (by decide))
      (hf.keeps_count (by decide)))) (keeps_seq_cons (keeps_when (hf.keeps_beaconSkip _ _)) (keeps_seq_nil f)))
  split
  · exact keeps_ask fun _ => keeps_seq_cons (fun s => hf.draw s) (keeps_seq_cons (hf.keeps_complete _ _ _ _) (keeps_seq_nil f))
  · exact hf.keeps_targetEnd _ _ _
  · exact hbeacon
  · exact hbeacon
  · exact fun s => hf.done s _

theorem keeps_endTx (hf : Beside f) (hstaged : ∀ (t : State) l, f (t.apply (.bb { t.bb with staged := l })) = f t)
    (x : Staged) {status : Nat} (h : status ≠ 0) : Keeps f (Machine.endTx x status) := fun s =>
  (hf.endTx s x status fun h0 => absurd h0 h).trans (hstaged s _)

/-! ### The lanes of a disabled port (R200) -/

theorem keeps_withdraw (hf : Beside f) (b : Nat) : Keeps f (withdraw b) :=
  keeps_ask fun _ => keeps_when (keeps_seq_cons (fun s => hf.fwd s _) (keeps_seq_cons
    (keeps_when (keeps_seq_cons (hf.keeps_setRing _ _) (keeps_seq_cons (keeps_setHolder hf.mem _ _) (keeps_seq_nil f))))
    (keeps_seq_cons (fun s => hf.cry s _) (keeps_seq_cons (fun s => hf.key s _) (keeps_seq_nil f)))))

theorem keeps_dropFrame (hf : Beside f) (n : Nat) : Keeps f (dropFrame n) := by
  refine keeps_seq_cons (keeps_ask fun s => ?_) (keeps_seq_cons (hf.keeps_setLane _ _) (keeps_seq_nil f))
  split
  · exact keeps_seq_cons (hf.keeps_withdraw _) (keeps_seq_cons (hf.keeps_freeChain _) (keeps_seq_nil f))
  · exact keeps_nothing f

theorem keeps_windowCompletion (hf : Beside f) (n status past : Nat) (w : Window) :
    Keeps f (windowCompletion n status past w) :=
  keeps_ask fun _ => keeps_when (hf.keeps_complete _ _ _ _)

theorem keeps_portLanesOff (hf : Beside f) (p : Nat) : Keeps f (portLanesOff p) :=
  keeps_ask fun _ => keeps_when (hf.keeps_fire (by omega) _)

theorem keeps_lanesDisable (hf : Beside f) (p : Nat) : Keeps f (lanesDisable p) := by
  refine keeps_seq_cons (keeps_forEach fun n _ => keeps_ask fun s => keeps_seq_cons
    (keeps_forEach fun w _ => keeps_ask fun _ => hf.keeps_windowCompletion _ _ _ _) (keeps_seq_cons (hf.keeps_setLane _ _)
    (keeps_seq_cons (hf.keeps_disarm _) (keeps_seq_cons ?_ (keeps_seq_nil f))))) (keeps_seq_cons
    (hf.keeps_portLanesOff p) (keeps_seq_nil f))
  split
  · exact keeps_seq_cons (hf.keeps_dropFrame n) (keeps_seq_cons (hf.keeps_setLane _ _) (keeps_seq_nil f))
  · exact keeps_nothing f
  · exact keeps_nothing f
  · exact hf.keeps_setLane _ _

end Beside

theorem beside_fld {g : Fld} (h : g.addr < 0x40020000) : Beside (State.fld · g) :=
  (beside_reg h).comp fun w => bits w.toNat g.hi g.lo

theorem beside_flag {g : Fld} (h : g.addr < 0x40020000) : Beside (State.flag · g) :=
  (beside_fld h).comp fun v => decide (v = 1)

/-! ### The transmissions left staged -/

/-- An ended transmission leaves its place; every other stays staged. -/
theorem staged_endTx (s : State) (x : Staged) (status : Nat) :
    (s.after (endTx x status)).bb.staged = s.bb.staged.filter (fun y => y.voice ≠ x.voice || y.place ≠ x.place) :=
  beside_staged.endTx s x status fun _ => keeps_count (fun _ _ _ => rfl) _

/-- Of several transmissions ended one after the other, none stays staged. -/
theorem staged_forEach_end {e : Staged → Effect} (he : ∀ (x : Staged) (s : State), (s.after (e x)).bb.staged =
      s.bb.staged.filter (fun y => y.voice ≠ x.voice || y.place ≠ x.place)) (l : List Staged) (s : State) :
    ∀ y ∈ (s.after (forEach l e)).bb.staged, y ∈ s.bb.staged ∧ y ∉ l := by
  induction l generalizing s with
  | nil => exact fun y hy => ⟨hy, List.not_mem_nil⟩
  | cons x l ih =>
    intro y hy
    rw [after_forEach_cons] at hy
    obtain ⟨hstaged, hl⟩ := ih _ y hy
    rw [he, List.mem_filter] at hstaged
    refine ⟨hstaged.1, fun hmem => ?_⟩
    rcases List.mem_cons.1 hmem with rfl | hmem
    · simp at hstaged
    · exact hl hmem

end Sys2Proof.Machine
end

section
/-!
PROOFS: an RF port, its calibration, its sensors and its control lines (O22).
-/
namespace Sys2Proof.Machine

open Sys2Proof

/-! ### A port's working state -/

theorem port_setPort (s : State) (p q : Nat) (f : FePort → FePort) :
    (s.after (setPort p f)).port q = if q = p then f (s.port p) else s.port q := by
  by_cases h : q = p <;> simp [setPort, State.after, State.port, h]

theorem port_setPort_self (s : State) (p : Nat) (f : FePort → FePort) : (s.after (setPort p f)).port p = f (s.port p) := by
  rw [port_setPort, if_pos rfl]

@[simp] theorem mem_setPort (s : State) (p : Nat) (f : FePort → FePort) : (s.after (setPort p f)).mem = s.mem := rfl
@[simp] theorem cores_setPort (s : State) (p : Nat) (f : FePort → FePort) : (s.after (setPort p f)).cores = s.cores := rfl
@[simp] theorem bb_setPort (s : State) (p : Nat) (f : FePort → FePort) : (s.after (setPort p f)).bb = s.bb := rfl
@[simp] theorem flag_setPort (s : State) (p : Nat) (f : FePort → FePort) (g : Fld) :
    (s.after (setPort p f)).flag g = s.flag g := rfl
@[simp] theorem fld_setPort (s : State) (p : Nat) (f : FePort → FePort) (g : Fld) :
    (s.after (setPort p f)).fld g = s.fld g := rfl
@[simp] theorem mem_setFld (s : State) (f : Fld) (v : Nat) : (s.after (setFld f v)).mem = s.mem := rfl
@[simp] theorem cores_setFld (s : State) (f : Fld) (v : Nat) : (s.after (setFld f v)).cores = s.cores := rfl
@[simp] theorem mem_count (s : State) (f : Fld) : (s.after (count f)).mem = s.mem := rfl
@[simp] theorem cores_count (s : State) (f : Fld) : (s.after (count f)).cores = s.cores := rfl
@[simp] theorem port_setFld (s : State) (f : Fld) (v p : Nat) : (s.after (setFld f v)).port p = s.port p := rfl

@[simp] theorem port_count (s : State) (f : Fld) (p : Nat) : (s.after (count f)).port p = s.port p := rfl

theorem keeps_setPort {α : Type} {f : State → α} (h : ∀ t x, f (State.apply t (.fe { t.fe with ports := x })) = f t) (p : Nat)
    (g : FePort → FePort) : Keeps f (setPort p g) := fun s => h s _

/-! ### Fields of one register -/

/-- A write of some bits of a register keeps the field of others. -/
theorem keeps_fld_bits {k hi lo hi' lo' : Nat} (h : hi < lo' ∨ hi' < lo) (h1 : lo ≤ hi) (h2 : hi < 32) (h3 : lo' ≤ hi')
    (v : Nat) : Keeps (State.fld · ⟨k, hi', lo'⟩) (setFld ⟨k, hi, lo⟩ v) := fun s =>
  fld_setFld_disjoint s ⟨k, hi, lo⟩ ⟨k, hi', lo'⟩ v rfl h h1 h2 h3

theorem keeps_flag_bit {k i j : Nat} (h : j ≠ i) (hi : i < 32) (v : Nat) :
    Keeps (State.flag · ⟨k, j, j⟩) (setFld ⟨k, i, i⟩ v) := fun s =>
  (flag_setFld_bit s k i j v hi).trans (if_neg h)

theorem flag_setFld_self (s : State) (k i v : Nat) (hi : i < 32) :
    (s.after (setFld ⟨k, i, i⟩ v)).flag ⟨k, i, i⟩ = decide (v % 2 = 1) := by
  rw [flag_setFld_bit s k i i v hi, if_pos rfl]

theorem fld_setFld_self (s : State) {k hi lo : Nat} (h1 : lo ≤ hi) (h2 : hi < 32) (v : Nat) :
    (s.after (setFld ⟨k, hi, lo⟩ v)).fld ⟨k, hi, lo⟩ = v % 2 ^ (hi - lo + 1) :=
  fld_setFld s ⟨k, hi, lo⟩ v h1 h2

theorem flag_count_ne (s : State) {f g : Fld} (h : g.addr ≠ f.addr) : (s.after (count f)).flag g = s.flag g :=
  flag_eq_of_reg (reg_apply_ne s _ _ _ h)

theorem fld_eq_of_reg {s t : State} {f : Fld} (h : t.reg f.addr = s.reg f.addr) : t.fld f = s.fld f := by
  rw [State.fld, State.fld, State.regN, State.regN, h]

/-! ### The start of a calibration (R143) -/

/-- State `t` is `s` with a calibration of port `p` under way for cause `c`: the port neither locked nor ready. -/
structure CalStarted (p c : Nat) (s t : State) : Prop where
  port : t.port p = { s.port p with
    cal := some c, pend := none, forcedAt := none, paEn := false, calSince := s.acc.ltb }
  busy : t.flag (FE.PORT_STATUS_CAL_BUSY p) = true
  wait : t.flag (FE.PORT_STATUS_CAL_WAIT p) = false
  ready : t.flag (FE.PORT_STATUS_READY p) = false
  locked : t.flag (FE.PORT_STATUS_LOCKED p) = false

/-- The four status flags that a calibration's start writes. -/
theorem calStart_flags (s : State) (p : Nat) :
    let t := s.after (seq [setFld (FE.PORT_STATUS_CAL_BUSY p) 1, setFld (FE.PORT_STATUS_CAL_WAIT p) 0,
      setFld (FE.PORT_STATUS_READY p) 0, setFld (FE.PORT_STATUS_LOCKED p) 0])
    t.flag (FE.PORT_STATUS_CAL_BUSY p) = true ∧ t.flag (FE.PORT_STATUS_CAL_WAIT p) = false ∧
      t.flag (FE.PORT_STATUS_READY p) = false ∧ t.flag (FE.PORT_STATUS_LOCKED p) = false := by
  simp [FE.PORT_STATUS_CAL_BUSY, FE.PORT_STATUS_CAL_WAIT, FE.PORT_STATUS_READY, FE.PORT_STATUS_LOCKED, flag_setFld_bit]

theorem calStart_started (s : State) (p c : Nat) : CalStarted p c s (s.after (calStart p c)) := by
  have hport : ∀ (u : State) f v, (u.after (setFld f v)).port p = u.port p := fun _ _ _ => rfl
  unfold calStart
  rw [after_seq_cons, after_seq_cons, after_ask]
  obtain ⟨hbusy, hwait, hready, hlocked⟩ := calStart_flags ((s.after (setPort p fun x =>
    { x with cal := some c, pend := none, forcedAt := none, paEn := false })).after
      (setPort p fun x => { x with calSince := s.acc.ltb })) p
  refine ⟨?_, hbusy, hwait, hready, hlocked⟩
  simp only [after_seq_cons, after_seq_nil, hport, port_setPort_self]
  rfl

/-- A calibration's start is not seen by what reads neither the ports' working state nor the port's status. -/
theorem keeps_calStart {α : Type} {f : State → α} {p : Nat}
    (hfe : ∀ t x, f (State.apply t (.fe { t.fe with ports := x })) = f t)
    (hreg : ∀ t v, f (State.apply t (.reg (FE.PORT_STATUS p) v)) = f t) (c : Nat) : Keeps f (calStart p c) :=
  keeps_seq_cons (keeps_setPort hfe _ _) (keeps_seq_cons (keeps_ask fun _ => keeps_setPort hfe _ _)
    (keeps_seq_cons (fun _ => hreg _ _) (keeps_seq_cons (fun _ => hreg _ _) (keeps_seq_cons (fun _ => hreg _ _)
      (keeps_seq_cons (fun _ => hreg _ _) (keeps_seq_nil f))))))

/-- What the statement says of a command that starts a calibration. -/
def Starts (i : Instr) (p c : Nat) (s : State) : Prop :=
  Answers i s (fun t => (t.port p).cal = some c ∧ (t.port p).calSince = s.acc.ltb ∧ (t.port p).pend = none ∧
    (t.port p).paEn = false ∧ t.flag (FE.PORT_STATUS_CAL_BUSY p) = true ∧ t.flag (FE.PORT_STATUS_CAL_WAIT p) = false ∧
    t.flag (FE.PORT_STATUS_READY p) = false ∧ t.flag (FE.PORT_STATUS_LOCKED p) = false)

/-- A command whose effect comes down to a calibration's start, with LTB as it was. -/
theorem starts_of_after {i : Instr} {e : Effect} {p c : Nat} {s u : State} (hexec : exec i s = run e s)
    (hafter : s.after e = u.after (calStart p c)) (hltb : u.acc.ltb = s.acc.ltb) : Starts i p c s := by
  have h := calStart_started u p c
  refine answers_run hexec ?_
  rw [hafter, h.port]
  exact ⟨rfl, hltb, rfl, rfl, h.busy, h.wait, h.ready, h.locked⟩

/-! ### Effects of a port's commands -/

theorem keeps_lanesEnable {α : Type} {f : State → α} (h : ∀ t l, f (State.apply t (.bb { t.bb with lanes := l })) = f t)
    (p : Nat) : Keeps f (lanesEnable p) :=
  keeps_ask fun _ => keeps_when (keeps_forEach fun _ _ => keeps_ask fun _ => keeps_when fun s => h s _)

theorem keeps_switchEnd {α : Type} {f : State → α} (hf : Beside f)
    (hsw : ∀ t x, f (State.apply t (.fe { t.fe with switching := x })) = f t) (failed : List Nat) (old : Nat) (none_ : Bool) :
    Keeps f (switchEnd failed old none_) :=
  keeps_ask fun _ => keeps_seq_cons (hf.keeps_fire (by omega) _) (keeps_seq_cons (fun s => hsw s _) (keeps_seq_cons
    (keeps_ask fun _ => keeps_ask fun _ => keeps_putBytes hf.mem _ _) (keeps_seq_nil f)))

/-- The end of a switch's calibration is not seen by what lies beside the traffic manager, the switch under way apart. -/
theorem keeps_switchStep {α : Type} {f : State → α} (hf : Beside f)
    (hsw : ∀ t x, f (State.apply t (.fe { t.fe with switching := x })) = f t) (p : Nat) (ok : Bool) :
    Keeps f (switchStep p ok) := by
  refine keeps_ask fun s => ?_
  split
  · exact keeps_nothing f
  · exact keeps_when (keeps_ite (keeps_switchEnd hf hsw _ _ _) fun s => hsw s _)

theorem keeps_synthStop {α : Type} {f : State → α} {p : Nat} (h : ∀ v, Keeps f (setFld (FE.PORT_STATUS_LOCKED p) v)) :
    Keeps f (synthStop p) :=
  keeps_ask fun _ => keeps_when (h 0)

/-- What PORT_DISABLE does once the port holds no calibration: the switch's end, the synthesiser and the lanes. -/
def portSettle (p : Nat) : Effect :=
  seq [setFld (FE.PORT_STATUS_CAL_WAIT p) 0, switchStep p false, synthStop p, lanesDisable p]

theorem keeps_portSettle {α : Type} {f : State → α} {p : Nat} (hf : Beside f)
    (hsw : ∀ t x, f (State.apply t (.fe { t.fe with switching := x })) = f t)
    (hwait : ∀ v, Keeps f (setFld (FE.PORT_STATUS_CAL_WAIT p) v))
    (hlocked : ∀ v, Keeps f (setFld (FE.PORT_STATUS_LOCKED p) v)) : Keeps f (portSettle p) :=
  keeps_seq_cons (hwait 0) (keeps_seq_cons (keeps_switchStep hf hsw p false) (keeps_seq_cons (keeps_synthStop hlocked)
    (keeps_seq_cons (hf.keeps_lanesDisable p) (keeps_seq_nil f))))

/-- The transmissions that PORT_DISABLE flushes. -/
def State.unlaunched (s : State) (p : Nat) : List Staged := (s.stagedOn p).filter (fun x => x.phase ≠ .onAir)

/-! ### PORT_ENABLE and PORT_DISABLE (R144, R172) -/

section
variable {p : Fin 3} {s : State}

/-- A block's command acts while the block's domain is ON. -/
theorem after_inDomain_on {d : Nat} (hon : s.on d = true) (e : Effect) : s.after (inDomain d e) = s.after e := by
  rw [after_inDomain, if_pos hon]

theorem answers_inDomain {i : Instr} {e : Effect} {d : Nat} {P : State → Prop} (hon : s.on d = true)
    (hexec : exec i s = run (inDomain d e) s) (h : P (s.after e)) : Answers i s P :=
  answers_run hexec (by rwa [after_inDomain_on hon])

/-- PORT_ENABLE sets EN, frees the lanes, and starts a calibration. -/
theorem after_portEnable (hen : s.flag (FE.PORT_CTL_EN p) = false) (hcal : (s.port p).cal = none) :
    s.after (portEnable p) = (((s.after (setFld (FE.PORT_CTL_EN p) 1)).after (lanesEnable p)).after
      (setPort p fun x => { x with retry := none })).after (calStart p 0) := by
  simp [portEnable, hen, hcal]

theorem ctl_ne_status : FE.PORT_CTL p ≠ FE.PORT_STATUS p := by
  simp only [FE.PORT_CTL, FE.PORT_STATUS]
  omega

theorem portEnable_starts (hon : s.on (portDomain p) = true) (hen : s.flag (FE.PORT_CTL_EN p) = false)
    (hcal : (s.port p).cal = none) : Starts (.portEnable p) p 0 s :=
  starts_of_after rfl ((after_inDomain_on hon _).trans (after_portEnable hen hcal))
    (congrArg Acc.ltb (keeps_lanesEnable (f := State.acc) (fun _ _ => rfl) p _))

theorem portEnable_frame (hon : s.on (portDomain p) = true) (hen : s.flag (FE.PORT_CTL_EN p) = false)
    (hcal : (s.port p).cal = none) : Answers (.portEnable p) s (fun t => t.flag (FE.PORT_CTL_EN p) = true ∧
      t.mem = s.mem ∧ t.cores = s.cores) := by
  have hkeeps : ∀ {α : Type} {f : State → α}, (∀ t x, f (State.apply t (.fe { t.fe with ports := x })) = f t) →
      (∀ t l, f (State.apply t (.bb { t.bb with lanes := l })) = f t) →
      (∀ t v, f (State.apply t (.reg (FE.PORT_STATUS p) v)) = f t) →
      f (s.after (portEnable p)) = f (s.after (setFld (FE.PORT_CTL_EN p) 1)) := fun hfe hbb hreg => by
    rw [after_portEnable hen hcal, keeps_calStart hfe hreg, keeps_setPort hfe, keeps_lanesEnable hbb]
  refine answers_inDomain hon rfl ⟨?_, hkeeps (fun _ _ => rfl) (fun _ _ => rfl) fun _ _ => rfl,
    hkeeps (fun _ _ => rfl) (fun _ _ => rfl) fun _ _ => rfl⟩
  rw [flag_eq_of_reg (hkeeps (f := (State.reg · (FE.PORT_CTL p))) (fun _ _ => rfl) (fun _ _ => rfl) fun t v =>
    reg_apply_ne t _ _ v ctl_ne_status)]
  exact flag_setFld_self s _ 0 1 (by decide)

/-- The state once PORT_DISABLE has cleared EN and flushed what has not launched. -/
def State.flushed (s : State) (p : Nat) : State :=
  (s.after (setFld (FE.PORT_CTL_EN p) 0)).after (forEach (s.unlaunched p) fun x => endTx x 0x0C)

theorem keeps_flushed {α : Type} {f : State → α} (hf : Beside f)
    (hstaged : ∀ (t : State) l, f (t.apply (.bb { t.bb with staged := l })) = f t) (s : State) (p : Nat) :
    f (s.flushed p) = f (s.after (setFld (FE.PORT_CTL_EN p) 0)) :=
  keeps_forEach (fun x _ => hf.keeps_endTx hstaged x (by norm_num)) _

/-- PORT_DISABLE clears EN, flushes, forgets the calibration, and settles. -/
theorem after_portDisable (hen : s.flag (FE.PORT_CTL_EN p) = true) : s.after (portDisable p) =
    (((s.flushed p).after (setPort p fun x => { x with cal := none, pend := none, forcedAt := none, retry := none })).after
      (setFld (FE.PORT_STATUS_CAL_BUSY p) 0)).after (portSettle p) := by
  rw [portDisable, after_ask, hen, after_when, if_pos rfl, after_seq_cons, after_seq_cons, after_seq_cons, after_seq_cons]
  rfl

theorem ctl_lt (p : Fin 3) : FE.PORT_CTL p < 0x40020000 := by
  simp only [FE.PORT_CTL]
  omega

theorem status_lt (p : Fin 3) : FE.PORT_STATUS p < 0x40020000 := by
  simp only [FE.PORT_STATUS]
  omega

/-- A disabled port holds no calibration, and no request for one. -/
theorem port_portDisable (hen : s.flag (FE.PORT_CTL_EN p) = true) : (s.after (portDisable p)).port p =
    { s.port p with cal := none, pend := none, forcedAt := none, retry := none } := by
  have hsettle : Keeps (State.port · p) (portSettle p) :=
    keeps_portSettle (beside_port p) (fun _ _ => rfl) (fun _ _ => rfl) fun _ _ => rfl
  have hbusy : Keeps (State.port · p) (setFld (FE.PORT_STATUS_CAL_BUSY p) 0) := fun _ => rfl
  have hflushed : (s.flushed p).port p = s.port p := keeps_flushed (beside_port p) (fun _ _ => rfl) s p
  rw [after_portDisable hen, ← hflushed]
  exact (hsettle _).trans ((hbusy _).trans (port_setPort_self ..))

/-- Of a disabled port's transmissions only those on the air stay. -/
theorem staged_portDisable (hen : s.flag (FE.PORT_CTL_EN p) = true) :
    ∀ y ∈ (s.after (portDisable p)).bb.staged, y.port = p.val → y.phase = .onAir := by
  have hsettle : Keeps (fun t => t.bb.staged) (portSettle p) :=
    keeps_portSettle beside_staged (fun _ _ => rfl) (fun _ _ => rfl) fun _ _ => rfl
  have hstaged : (s.after (portDisable p)).bb.staged = (s.flushed p).bb.staged := by
    rw [after_portDisable hen]
    exact hsettle _
  intro y hy hport
  rw [hstaged] at hy
  obtain ⟨hmem, hnot⟩ := staged_forEach_end (fun x u => staged_endTx u x 0x0C) _ _ y hy
  by_contra hair
  exact hnot (List.mem_filter.2 ⟨List.mem_filter.2 ⟨hmem, decide_eq_true hport⟩, by simpa using hair⟩)

/-- Nothing after PORT_DISABLE's first write sets EN again. -/
theorem en_portDisable (hen : s.flag (FE.PORT_CTL_EN p) = true) :
    (s.after (portDisable p)).flag (FE.PORT_CTL_EN p) = false := by
  have hbeside : Beside (State.flag · (FE.PORT_CTL_EN p)) := beside_flag (ctl_lt p)
  have hstatus : ∀ g : Fld, g.addr = FE.PORT_STATUS p → ∀ v, Keeps (State.flag · (FE.PORT_CTL_EN p)) (setFld g v) :=
    fun g hg v t => flag_eq_of_reg (reg_apply_ne t _ _ _ (hg ▸ ctl_ne_status))
  have hsettle : Keeps (State.flag · (FE.PORT_CTL_EN p)) (portSettle p) :=
    keeps_portSettle hbeside (fun _ _ => rfl) (hstatus _ rfl) (hstatus _ rfl)
  rw [after_portDisable hen]
  exact (hsettle _).trans ((hstatus _ rfl 0 _).trans
    ((keeps_flushed hbeside (fun _ _ => rfl) s p).trans (flag_setFld_self s _ 0 0 (by decide))))

/-- Nothing after PORT_DISABLE cuts a calibration short sets CAL_BUSY again. -/
theorem busy_portDisable (hen : s.flag (FE.PORT_CTL_EN p) = true) :
    (s.after (portDisable p)).flag (FE.PORT_STATUS_CAL_BUSY p) = false := by
  have hsettle : Keeps (State.flag · (FE.PORT_STATUS_CAL_BUSY p)) (portSettle p) :=
    keeps_portSettle (beside_flag (status_lt p)) (fun _ _ => rfl) (keeps_flag_bit (by decide) (by decide))
      (keeps_flag_bit (by decide) (by decide))
  rw [after_portDisable hen]
  exact (hsettle _).trans (flag_setFld_self _ _ 4 0 (by decide))

theorem portDisable_answers (hon : s.on (portDomain p) = true) (hen : s.flag (FE.PORT_CTL_EN p) = true) :
    Answers (.portDisable p) s (fun t => t.flag (FE.PORT_CTL_EN p) = false ∧ (t.port p).cal = none ∧
      (t.port p).pend = none ∧ t.flag (FE.PORT_STATUS_CAL_BUSY p) = false ∧
      ∀ y ∈ t.bb.staged, y.port = p.val → y.phase = .onAir) :=
  answers_inDomain hon rfl ⟨en_portDisable hen, by rw [port_portDisable hen], by rw [port_portDisable hen],
    busy_portDisable hen, staged_portDisable hen⟩

/-! ### Requests and their calibrations (R144-R148, R151) -/

theorem calReq_starts (hon : s.on (portDomain p) = true) (hen : s.flag (FE.PORT_CTL_EN p) = true)
    (hfailed : (s.port p).failed = false) (hcal : (s.port p).cal = none) (hpend : (s.port p).pend = none)
    (hretry : (s.port p).retry = none) (hguard : s.guarded p = false) : Starts (.calReq p) p 1 s := by
  refine starts_of_after (u := s) rfl ((after_inDomain_on hon _).trans ?_) rfl
  simp [calReq, calRequest, hen, hfailed, hcal, hpend, hretry, hguard]

/-- A guarded request waits. -/
theorem after_calReq_guarded (hen : s.flag (FE.PORT_CTL_EN p) = true) (hfailed : (s.port p).failed = false)
    (hcal : (s.port p).cal = none) (hpend : (s.port p).pend = none) (hretry : (s.port p).retry = none)
    (hguard : s.guarded p = true) : s.after (calReq p) =
      ((s.after (setPort p fun x => { x with pend := some 1, pendSince := s.acc.ltb })).after
        (setFld (FE.PORT_STATUS_CAL_WAIT p) 1)).after (count (FE.COUNT_B_CAL_DEFER p)) := by
  simp [calReq, calRequest, hen, hfailed, hcal, hpend, hretry, hguard]

theorem calReq_waits (hon : s.on (portDomain p) = true) (hen : s.flag (FE.PORT_CTL_EN p) = true)
    (hfailed : (s.port p).failed = false) (hcal : (s.port p).cal = none) (hpend : (s.port p).pend = none)
    (hretry : (s.port p).retry = none) (hguard : s.guarded p = true) : Answers (.calReq p) s (fun t =>
      (t.port p).pend = some 1 ∧ (t.port p).cal = none ∧ t.flag (FE.PORT_STATUS_CAL_WAIT p) = true ∧ t.mem = s.mem ∧
        t.cores = s.cores) := by
  have hne : FE.PORT_STATUS p ≠ FE.COUNT_B p := by simp only [FE.PORT_STATUS, FE.COUNT_B]; omega
  have hport : (s.after (calReq p)).port p = { s.port p with pend := some 1, pendSince := s.acc.ltb } := by
    rw [after_calReq_guarded hen hfailed hcal hpend hretry hguard, port_count, port_setFld, port_setPort_self]
  refine answers_inDomain hon rfl ⟨by rw [hport], by rw [hport]; exact hcal, ?_, ?_, ?_⟩
  all_goals rw [after_calReq_guarded hen hfailed hcal hpend hretry hguard]
  · rw [flag_count_ne _ hne]
    exact flag_setFld_self _ _ 5 1 (by decide)
  · simp
  · simp

theorem calForce_starts (hon : s.on (portDomain p) = true) (hunlocked : s.flag FE.EXPERT_UNLOCK_UNLOCKED = true)
    (hen : s.flag (FE.PORT_CTL_EN p) = true) (hcal : (s.port p).cal = none) : Starts (.calForce p) p 5 s := by
  refine starts_of_after (u := s) rfl ((after_inDomain_on hon _).trans ?_) rfl
  simp [calForce, hunlocked, hen, hcal]

/-- A waiting request starts once nothing guards it. -/
theorem calibrationStart_pending {c : Nat} (hon : s.on (portDomain p) = true) (hpend : (s.port p).pend = some c)
    (hforced : (s.port p).forcedAt = none) (hguard : s.guarded p = false) : Starts (.calibrationStart p) p c s := by
  refine starts_of_after (u := s) rfl ((after_inDomain_on hon _).trans ?_) rfl
  rw [after_ask]
  dsimp only
  rw [hpend, hforced]
  dsimp only
  rw [hguard, Bool.not_false, after_when, if_pos rfl]

/-- A forced one starts at its instant. -/
theorem calibrationStart_forced {c : Nat} {a : Instant} (hon : s.on (portDomain p) = true)
    (hpend : (s.port p).pend = some c) (hforced : (s.port p).forcedAt = some a) (hreached : s.reached a = true) :
    Starts (.calibrationStart p) p 5 s := by
  refine starts_of_after (u := s) rfl ((after_inDomain_on hon _).trans ?_) rfl
  rw [after_ask]
  dsimp only
  rw [hpend, hforced]
  dsimp only
  rw [hreached, after_when, if_pos rfl]

theorem calForced_sets {c : Nat} (hon : s.on (portDomain p) = true) (hpend : (s.port p).pend = some c)
    (hforced : (s.port p).forcedAt = none)
    (hdefer : (s.port p).pendSince + s.fld (FE.FE_EXP_CAL_MAXDEFER p) * 1000000 ≤ s.acc.ltb) :
    Answers (.calForced p) s (fun t => (t.port p).forcedAt = some (s.freeInstant p) ∧ t.mem = s.mem ∧ t.cores = s.cores) := by
  have hinstant : Keeps (State.freeInstant · p) (fire 22 p) :=
    keeps_fire ⟨fun _ _ _ _ => rfl, fun _ _ => rfl, fun _ _ => rfl⟩ (by norm_num) _
  have hafter : s.after (ask fun s => when ((s.port p).pend.isSome && (s.port p).forcedAt = none &&
      decide ((s.port p).pendSince + s.fld (FE.FE_EXP_CAL_MAXDEFER p) * 1000000 ≤ s.acc.ltb))
      (seq [fire 22 p, ask fun s => setPort p (fun x => { x with forcedAt := some (s.freeInstant p) })])) =
      (s.after (fire 22 p)).after (setPort p fun x => { x with forcedAt := some (s.freeInstant p) }) := by
    rw [after_ask, after_when, if_pos (by simp [hpend, hforced, hdefer]), after_seq_cons, after_seq_cons, after_seq_nil,
      after_ask, show State.freeInstant _ p = _ from hinstant s]
  refine answers_inDomain hon rfl ?_
  rw [hafter]
  exact ⟨congrArg FePort.forcedAt (port_setPort_self ..), keeps_fire skipsEvents_mem (by norm_num) _ s,
    keeps_fire skipsEvents_cores (by norm_num) _ s⟩

theorem calRetry_starts {c a : Nat} (hon : s.on (portDomain p) = true) (hretry : (s.port p).retry = some (c, a))
    (hcal : (s.port p).cal = none) (hdue : a ≤ s.acc.ltb) : Starts (.calRetry p) p c s := by
  refine starts_of_after (u := s) rfl ((after_inDomain_on hon _).trans ?_) rfl
  simp [hretry, hcal, hdue]

/-! ### The end of a calibration (R143, R151, R152) -/

/-- What a calibration that ended well records and reports. -/
def calRecord (p cause rej temp cnt : Nat) : Effect := seq [setFld (FE.CAL_INFO_CAL_TEMP p) temp,
  setFld (FE.CAL_INFO_IMG_REJ p) rej, setFld (FE.CAL_INFO_CAL_COUNT p) cnt, fire 20 (p + cause * 2 ^ 2 + rej * 2 ^ 8),
  switchStep p true]

/-- A calibration that ended well leaves the port locked and, unless it stays in the state of R151, ready. -/
theorem after_calDone (c rej : Nat) (hfailed : (s.port p).failed = false) : s.after (calDone p c rej) =
    ((((s.after (setPort p fun x => { x with cal := none, retry := none, agc := 0, failed := false })).after
      (setFld (FE.PORT_STATUS_CAL_BUSY p) 0)).after (setFld (FE.PORT_STATUS_LOCKED p) 1)).after
      (setFld (FE.PORT_STATUS_READY p) 1)).after (calRecord p c rej (s.fld (FE.PORT_STATUS_TEMP p))
        ((s.fld (FE.CAL_INFO_CAL_COUNT p) + 1) % 256)) := by
  rw [calDone, after_ask, hfailed]
  dsimp only [Bool.false_and, Bool.not_false]
  rw [after_seq_cons, after_seq_cons, after_seq_cons, after_seq_cons]
  rfl

/-- The report of a calibration's end, after its record. -/
theorem keeps_calReport {α : Type} {f : State → α} (hf : Beside f)
    (hsw : ∀ t x, f (State.apply t (.fe { t.fe with switching := x })) = f t) (p arg : Nat) :
    Keeps f (seq [fire 20 arg, switchStep p true]) :=
  keeps_seq_cons (hf.keeps_fire (by norm_num) _) (keeps_seq_cons (keeps_switchStep hf hsw p true) (keeps_seq_nil f))

theorem keeps_calRecord {α : Type} {f : State → α} {p : Nat} (hf : Beside f)
    (hsw : ∀ t x, f (State.apply t (.fe { t.fe with switching := x })) = f t)
    (hreg : ∀ t v, f (State.apply t (.reg (FE.CAL_INFO p) v)) = f t) (c rej temp cnt : Nat) :
    Keeps f (calRecord p c rej temp cnt) :=
  keeps_seq_cons (fun _ => hreg _ _) (keeps_seq_cons (fun _ => hreg _ _) (keeps_seq_cons (fun _ => hreg _ _)
    (keeps_calReport hf hsw p _)))

theorem info_lt (p : Fin 3) : FE.CAL_INFO p < 0x40020000 := by
  simp only [FE.CAL_INFO]
  omega

theorem status_ne_info (p : Fin 3) : FE.PORT_STATUS p ≠ FE.CAL_INFO p := by
  simp only [FE.PORT_STATUS, FE.CAL_INFO]
  omega

/-- The record holds the temperature, the image rejection and the count given. -/
theorem calRecord_fields (s : State) (p : Fin 3) (c rej temp cnt : Nat) :
    let t := s.after (calRecord p c rej temp cnt)
    t.fld (FE.CAL_INFO_CAL_TEMP p) = temp % 2 ^ 10 ∧ t.fld (FE.CAL_INFO_IMG_REJ p) = rej % 2 ^ 8 ∧
      t.fld (FE.CAL_INFO_CAL_COUNT p) = cnt % 2 ^ 8 := by
  intro t
  have ht : t = (((s.after (setFld (FE.CAL_INFO_CAL_TEMP p) temp)).after (setFld (FE.CAL_INFO_IMG_REJ p) rej)).after
      (setFld (FE.CAL_INFO_CAL_COUNT p) cnt)).after (seq [fire 20 (p + c * 2 ^ 2 + rej * 2 ^ 8), switchStep p true]) := by
    show s.after (calRecord p c rej temp cnt) = _
    rw [calRecord, after_seq_cons, after_seq_cons, after_seq_cons]
  have hreport : ∀ {hi lo}, Keeps (State.fld · ⟨FE.CAL_INFO p, hi, lo⟩)
      (seq [fire 20 (p + c * 2 ^ 2 + rej * 2 ^ 8), switchStep p true]) := fun {_ _} =>
    keeps_calReport (beside_fld (info_lt p)) (fun _ _ => rfl) _ _
  have hcount : ∀ {hi lo}, 7 < lo → lo ≤ hi → Keeps (State.fld · ⟨FE.CAL_INFO p, hi, lo⟩)
      (setFld (FE.CAL_INFO_CAL_COUNT p) cnt) := fun h h' => keeps_fld_bits (.inl h) (by decide) (by decide) h' _
  have hrej : Keeps (State.fld · (FE.CAL_INFO_CAL_TEMP p)) (setFld (FE.CAL_INFO_IMG_REJ p) rej) :=
    keeps_fld_bits (.inl (by decide)) (by decide) (by decide) (by decide) _
  rw [ht]
  exact ⟨(hreport _).trans ((hcount (by decide) (by decide) _).trans ((hrej _).trans
      (fld_setFld_self _ (by decide) (by decide) _))),
    (hreport _).trans ((hcount (by decide) (by decide) _).trans (fld_setFld_self _ (by decide) (by decide) _)),
    (hreport _).trans (fld_setFld_self _ (by decide) (by decide) _)⟩

/-- The status flags and the working state that a calibration which ended well leaves, before its record. -/
theorem calDone_flags (s : State) (p : Nat) :
    let t := ((s.after (setFld (FE.PORT_STATUS_CAL_BUSY p) 0)).after (setFld (FE.PORT_STATUS_LOCKED p) 1)).after
      (setFld (FE.PORT_STATUS_READY p) 1)
    t.flag (FE.PORT_STATUS_CAL_BUSY p) = false ∧ t.flag (FE.PORT_STATUS_LOCKED p) = true ∧
      t.flag (FE.PORT_STATUS_READY p) = true := by
  simp [FE.PORT_STATUS_CAL_BUSY, FE.PORT_STATUS_READY, FE.PORT_STATUS_LOCKED, flag_setFld_bit]

theorem calDone_port (s : State) (p : Nat) :
    ((((s.after (setPort p fun x => { x with cal := none, retry := none, agc := 0, failed := false })).after
      (setFld (FE.PORT_STATUS_CAL_BUSY p) 0)).after (setFld (FE.PORT_STATUS_LOCKED p) 1)).after
      (setFld (FE.PORT_STATUS_READY p) 1)).port p = { s.port p with cal := none, retry := none, agc := 0, failed := false } := by
  rw [port_setFld, port_setFld, port_setFld, port_setPort_self]

theorem calibrationComplete_done {c : Nat} {rej : BitVec 8} (hon : s.on (portDomain p) = true)
    (hcal : (s.port p).cal = some c) (hrej : 45 ≤ rej.toNat) (hsupply : bits (s.regN PLT.SUPPLY_STATUS) 5 4 = 0)
    (hfailed : (s.port p).failed = false) (hdue : (s.port p).calSince + dCal p ≤ s.acc.ltb) :
    Answers (.calibrationComplete p true rej) s (fun t => (t.port p).cal = none ∧
      t.flag (FE.PORT_STATUS_CAL_BUSY p) = false ∧ t.flag (FE.PORT_STATUS_LOCKED p) = true ∧
      t.flag (FE.PORT_STATUS_READY p) = true ∧ t.fld (FE.CAL_INFO_IMG_REJ p) = rej.toNat ∧
      t.fld (FE.CAL_INFO_CAL_TEMP p) = s.fld (FE.PORT_STATUS_TEMP p) ∧
      t.fld (FE.CAL_INFO_CAL_COUNT p) = (s.fld (FE.CAL_INFO_CAL_COUNT p) + 1) % 256) := by
  refine answers_inDomain hon rfl ?_
  rw [after_ask, hcal]
  dsimp only
  rw [if_neg (by simp [hsupply]), if_neg (by omega), after_when, if_pos (decide_eq_true hdue), after_calDone _ _ hfailed]
  have hflags := calDone_flags (s.after (setPort p fun x => { x with cal := none, retry := none, agc := 0, failed := false })) p
  have hport := calDone_port s p
  generalize State.after _ (setFld (FE.PORT_STATUS_READY p) 1) = u at hflags hport ⊢
  have hstatus : ∀ {i : Nat}, Keeps (State.flag · ⟨FE.PORT_STATUS p, i, i⟩) (calRecord p c rej.toNat
      (s.fld (FE.PORT_STATUS_TEMP p)) ((s.fld (FE.CAL_INFO_CAL_COUNT p) + 1) % 256)) := fun {_} =>
    keeps_calRecord (beside_flag (status_lt p)) (fun _ _ => rfl)
      (fun t v => flag_eq_of_reg (reg_apply_ne t _ _ v (status_ne_info p))) _ _ _ _
  have hkept : (u.after (calRecord p c rej.toNat (s.fld (FE.PORT_STATUS_TEMP p))
      ((s.fld (FE.CAL_INFO_CAL_COUNT p) + 1) % 256))).port p = u.port p :=
    keeps_calRecord (beside_port p) (fun _ _ => rfl) (fun _ _ => rfl) _ _ _ _ u
  have htemp : s.fld (FE.PORT_STATUS_TEMP p) < 2 ^ 10 := bits_lt ..
  obtain ⟨hbusy, hlocked, hready⟩ := hflags
  obtain ⟨hfTemp, hfRej, hfCount⟩ := calRecord_fields u p c rej.toNat (s.fld (FE.PORT_STATUS_TEMP p))
    ((s.fld (FE.CAL_INFO_CAL_COUNT p) + 1) % 256)
  exact ⟨by rw [hkept, hport], (hstatus u).trans hbusy,
    (hstatus u).trans hlocked, (hstatus u).trans hready, hfRej.trans (Nat.mod_eq_of_lt rej.isLt),
    hfTemp.trans (Nat.mod_eq_of_lt htemp), hfCount.trans (Nat.mod_eq_of_lt (Nat.mod_lt _ (by norm_num)))⟩

theorem calibrationComplete_fails {c : Nat} {rej : BitVec 8} (hon : s.on (portDomain p) = true)
    (hcal : (s.port p).cal = some c) (hretry : (s.port p).retry = none) :
    Answers (.calibrationComplete p false rej) s (fun t => (t.port p).cal = none ∧
      (t.port p).retry = some (c, s.acc.ltb + 10000000) ∧ t.flag (FE.PORT_STATUS_CAL_BUSY p) = false ∧
      t.flag (FE.PORT_STATUS_LOCKED p) = false) := by
  have hfail : s.after (calFail p c 4) = ((s.after (setFld (FE.PORT_STATUS_CAL_BUSY p) 0)).after
      (setFld (FE.PORT_STATUS_LOCKED p) 0)).after
        (setPort p fun x => { x with cal := none, retry := some (c, s.acc.ltb + 10000000) }) := by
    rw [calFail, after_ask, after_seq_cons, after_seq_cons, after_seq_cons, after_seq_nil, hretry]
    rfl
  refine answers_inDomain hon rfl ?_
  rw [after_ask, hcal]
  dsimp only
  rw [if_pos (by simp), hfail]
  refine ⟨by rw [port_setPort_self], by rw [port_setPort_self], ?_, ?_⟩
  · exact (keeps_setPort (f := (State.flag · (FE.PORT_STATUS_CAL_BUSY p))) (fun _ _ => rfl) _ _ _).trans
      ((keeps_flag_bit (by decide) (by decide) _ _).trans (flag_setFld_self _ _ 4 0 (by decide)))
  · exact (keeps_setPort (f := (State.flag · (FE.PORT_STATUS_LOCKED p))) (fun _ _ => rfl) _ _ _).trans
      (flag_setFld_self _ _ 3 0 (by decide))

/-! ### Loss of lock (R149) -/

/-- A transmission ended by the loss of lock. -/
def lockLossEnd (s : State) (p : Nat) (x : Staged) : Effect :=
  seq [endTx x 3, setPort p (fun y => { y with lastEnd := s.acc.ltb })]

theorem staged_lockLossEnd (s u : State) (p : Nat) (x : Staged) : (u.after (lockLossEnd s p x)).bb.staged =
    u.bb.staged.filter (fun y => y.voice ≠ x.voice || y.place ≠ x.place) := by
  rw [lockLossEnd, after_seq_cons, after_seq_cons, after_seq_nil, ← staged_endTx u x 3]
  rfl

theorem synthLockLoss_answers (hon : s.on (portDomain p) = true) (hcal : (s.port p).cal = none)
    (hlocked : s.flag (FE.PORT_STATUS_LOCKED p) = true) (hen : s.flag (FE.PORT_CTL_EN p) = true) :
    Answers (.synthLockLoss p) s (fun t => (t.port p).cal = some 4 ∧ t.flag (FE.PORT_STATUS_LOCKED p) = false ∧
      ∀ y ∈ t.bb.staged, y.port = p.val → y.phase ≠ .onAir) := by
  have hbb : Keeps State.bb (fire 19 p) := keeps_fire skipsEvents_bb (by norm_num) _
  refine answers_inDomain hon rfl ?_
  rw [after_ask, hcal]
  dsimp only
  rw [hlocked, after_when, if_pos rfl, after_seq_cons, after_seq_cons, after_seq_cons, after_seq_cons, after_seq_cons,
    after_seq_nil, hen, after_when, if_pos rfl]
  generalize hu : State.after _ (forEach _ _) = u
  have hstarted := calStart_started (u.after (setPort p fun x => { x with retry := none })) p 4
  refine ⟨by rw [hstarted.port], hstarted.locked, fun y hy hport hair => ?_⟩
  rw [show State.bb _ = _ from keeps_calStart (f := State.bb) (fun _ _ => rfl) (fun _ _ => rfl) 4 _] at hy
  have hstaged : y ∈ u.bb.staged := hy
  rw [← hu] at hstaged
  obtain ⟨hmem, hnot⟩ := staged_forEach_end (fun x v => staged_lockLossEnd s v p x) _ _ y hstaged
  rw [hbb] at hmem
  exact hnot (List.mem_filter.2 ⟨List.mem_filter.2 ⟨hmem, decide_eq_true hport⟩, decide_eq_true hair⟩)

end

end Sys2Proof.Machine
end

section
/-!
PROOFS: a port's sensors and control lines, and the statement on ports (O22).
-/
namespace Sys2Proof.Machine

open Sys2Proof

/-! ### Reads beside a port's status and working state -/

/-- The read `f` sees neither the working state of the ports and voices, nor events, nor COUNT_B, nor the low bits of the
port's status. -/
structure SkipsPort {α : Type} (p : Nat) (f : State → α) : Prop where
  events : SkipsEvents f
  fe : ∀ (t : State) x, f (t.apply (.fe x)) = f t
  bb : ∀ (t : State) x, f (t.apply (.bb x)) = f t
  defer : ∀ v, Keeps f (setFld (FE.COUNT_B_CAL_DEFER p) v)
  status : ∀ hi lo v, lo ≤ hi → hi < 22 → Keeps f (setFld ⟨FE.PORT_STATUS p, hi, lo⟩ v)

theorem skipsPort_mem (p : Nat) : SkipsPort p State.mem :=
  ⟨skipsEvents_mem, fun _ _ => rfl, fun _ _ => rfl, fun _ _ => rfl, fun _ _ _ _ _ _ => rfl⟩

theorem skipsPort_cores (p : Nat) : SkipsPort p State.cores :=
  ⟨skipsEvents_cores, fun _ _ => rfl, fun _ _ => rfl, fun _ _ => rfl, fun _ _ _ _ _ _ => rfl⟩

theorem front_skipsEvents {g : Fld} (h : g.addr < 0x40020000) : SkipsEvents (State.fld · g) := (beside_fld h).skipsEvents

/-- The temperature lies in the status' high bits. -/
theorem skipsPort_temp (p : Fin 3) : SkipsPort p (State.fld · (FE.PORT_STATUS_TEMP p)) where
  events := front_skipsEvents (status_lt p)
  fe _ _ := rfl
  bb _ _ := rfl
  defer v t := fld_setFld_ne t _ _ v (by simp only [FE.PORT_STATUS_TEMP, FE.COUNT_B_CAL_DEFER, FE.PORT_STATUS, FE.COUNT_B]; omega)
  status hi lo v h1 h2 := keeps_fld_bits (.inl h2) h1 (by omega) (by decide) v

theorem skipsPort_loadMeas (p : Fin 3) (hi lo : Nat) : SkipsPort p (State.fld · ⟨FE.LOAD_MEAS p, hi, lo⟩) where
  events := front_skipsEvents (by simp only [FE.LOAD_MEAS]; omega)
  fe _ _ := rfl
  bb _ _ := rfl
  defer v t := fld_setFld_ne t _ _ v (by simp only [FE.COUNT_B_CAL_DEFER, FE.LOAD_MEAS, FE.COUNT_B]; omega)
  status hi lo v _ _ t := fld_setFld_ne t _ _ v (by simp only [FE.LOAD_MEAS, FE.PORT_STATUS]; omega)

namespace SkipsPort
variable {α : Type} {p : Nat} {f : State → α}

theorem keeps_setPort (hf : SkipsPort p f) (q : Nat) (g : FePort → FePort) : Keeps f (setPort q g) :=
  Machine.keeps_setPort (fun t _ => hf.fe t _) q g

theorem keeps_calStart (hf : SkipsPort p f) (c : Nat) : Keeps f (calStart p c) :=
  keeps_seq_cons (hf.keeps_setPort _ _) (keeps_seq_cons (keeps_ask fun _ => hf.keeps_setPort _ _)
    (keeps_seq_cons (hf.status 4 4 1 (by decide) (by decide)) (keeps_seq_cons (hf.status 5 5 0 (by decide) (by decide))
      (keeps_seq_cons (hf.status 6 6 0 (by decide) (by decide)) (keeps_seq_cons (hf.status 3 3 0 (by decide) (by decide))
        (keeps_seq_nil f))))))

theorem keeps_calRequest (hf : SkipsPort p f) (c : Nat) : Keeps f (calRequest p c) :=
  keeps_ask fun _ => keeps_ite (keeps_nothing f) (keeps_ite
    (keeps_seq_cons (hf.keeps_setPort _ _) (keeps_seq_cons (hf.status 5 5 1 (by decide) (by decide)) (keeps_seq_cons
      (keeps_ask (g := fun s => setFld (FE.COUNT_B_CAL_DEFER p) (min (s.fld (FE.COUNT_B_CAL_DEFER p) + 1) _)) fun _ =>
        hf.defer _) (keeps_seq_nil f))))
    (hf.keeps_calStart c))

theorem keeps_foldEnd (hf : SkipsPort p f) (i : Nat) : Keeps f (foldEnd p i) :=
  keeps_ask fun _ => hf.status 17 16 _ (by decide) (by decide)

theorem keeps_foldBegin (hf : SkipsPort p f) (i : Nat) : Keeps f (foldBegin p i) := by
  refine keeps_ask fun _ => keeps_seq_cons (hf.status 17 16 _ (by decide) (by decide)) (keeps_seq_cons
    (keeps_ask fun s => ?_) (keeps_seq_nil f))
  split
  · exact fun s => hf.bb s _
  · exact keeps_nothing f

end SkipsPort

/-! ### Numbers in a field -/

theorem signed_unsigned_10 (z : Int) (h1 : -512 ≤ z) (h2 : z ≤ 511) : signed 10 (unsigned 10 z) = z := by
  simp only [signed, unsigned]
  norm_num
  omega

theorem clampI_eq {lo hi x : Int} (h : lo ≤ hi) : clampI lo hi x = max lo (min hi x) := by
  unfold clampI
  split_ifs <;> omega

theorem fldI_setFldI_10 (s : State) {k hi lo : Nat} (h : hi = lo + 9) (h2 : hi < 32) {z : Int} (hl : -512 ≤ z) (hh : z ≤ 511) :
    (s.after (setFldI ⟨k, hi, lo⟩ z)).fldI ⟨k, hi, lo⟩ = z := by
  subst h
  have hw : lo + 9 - lo + 1 = 10 := by omega
  have hlt : unsigned 10 z < 2 ^ 10 := unsigned_lt 10 z
  rw [setFldI_eq, State.fldI, fld_setFld_self _ (by omega) h2]
  simp only [hw]
  rw [Nat.mod_eq_of_lt hlt, signed_unsigned_10 z hl hh]

section
variable {p : Fin 3} {s : State}

/-! ### Temperature (R144, R161) -/

/-- What follows a port's temperature: the fold-back's begin and end, and a request to calibrate. -/
def tempFollow (p : Nat) (s : State) (t : Int) : Effect :=
  let limit := s.fldI (FE.TEMP_MAX_LIMIT p)
  let hot := bit (s.fld (FE.PORT_STATUS_FOLD_CAUSE p)) 1
  seq [when (decide (limit ≤ t) && !hot) (seq [foldBegin p 1, fire 25 (p + unsigned 10 t * 2 ^ 22)]),
    when (decide (t ≤ limit - 20) && hot) (foldEnd p 1),
    when (s.flag (FE.PORT_CTL_EN p) && !s.flag (FE.FE_EXP_TEMPCAL_DIS p) &&
      decide (32 ≤ (t - s.fldI (FE.CAL_INFO_CAL_TEMP p)).natAbs)) (calRequest p 2)]

theorem after_tempSample (s : State) (p : Nat) (raw : Int) :
    let t := clampI (-512) 511 (raw + s.fldI (FE.TEMP_CAL_X_EFF p))
    s.after (tempSample p raw) = (s.after (setFldI (FE.PORT_STATUS_TEMP p) t)).after (tempFollow p s t) := by
  rw [tempSample, after_ask]
  dsimp only
  rw [after_seq_cons]
  rfl

theorem keeps_tempFollow {α : Type} {p : Nat} {f : State → α} (hf : SkipsPort p f) (s : State) (t : Int) :
    Keeps f (tempFollow p s t) :=
  keeps_seq_cons (keeps_when (keeps_seq_cons (hf.keeps_foldBegin 1) (keeps_seq_cons
    (keeps_fire hf.events (by norm_num) _) (keeps_seq_nil f)))) (keeps_seq_cons (keeps_when (hf.keeps_foldEnd 1))
    (keeps_seq_cons (keeps_when (hf.keeps_calRequest 2)) (keeps_seq_nil f)))

theorem tempSample_answers (hon : s.on (portDomain p) = true) (raw : BitVec 10) (htime : s.acc.ltb % 10000000 = 0) :
    Answers (.tempSample p raw) s (fun t =>
      t.fldI (FE.PORT_STATUS_TEMP p) = max (-512) (min 511 (raw.toInt + s.fldI (FE.TEMP_CAL_X_EFF p))) ∧ t.mem = s.mem ∧
        t.cores = s.cores) := by
  refine answers_inDomain hon rfl ?_
  rw [after_ask, after_when, if_pos (decide_eq_true htime), after_tempSample]
  have hclamp := clampI_eq (lo := -512) (hi := 511) (x := raw.toInt + s.fldI (FE.TEMP_CAL_X_EFF p)) (by norm_num)
  refine ⟨?_, (keeps_tempFollow (skipsPort_mem p) _ _ _).trans (mem_setFld ..),
    (keeps_tempFollow (skipsPort_cores p) _ _ _).trans (cores_setFld ..)⟩
  rw [State.fldI, show State.fld _ _ = _ from keeps_tempFollow (skipsPort_temp p) _ _ _, ← hclamp]
  exact fldI_setFldI_10 s rfl (by decide) (by rw [hclamp]; omega) (by rw [hclamp]; omega)

/-! ### Antenna load (R157-R160) -/

/-- What follows the load's measurement: the counts of faults and good ones, and the fold-back's begin and end. -/
def loadFollow (p : Nat) (s : State) (bad : Bool) (cls rl : Nat) : Effect :=
  let x := s.port p
  let folded := bit (s.fld (FE.PORT_STATUS_FOLD_CAUSE p)) 0
  let goods := if bad then 0 else if folded then x.goods + 1 else 0
  let clear := folded && s.flag (FE.FE_EXP_LOAD_AUTOCLR p) && decide (64 ≤ goods)
  seq [setPort p (fun x => { x with measured := some s.acc.ltb, faults := if bad then x.faults + 1 else 0
                                    goods := if clear then 0 else goods }),
    when (bad && !folded && decide (1 ≤ x.faults)) (seq [foldBegin p 0, fire 16 (p + cls * 2 ^ 2 + rl * 2 ^ 8)]),
    when clear (seq [foldEnd p 0, fire 17 p])]

theorem keeps_loadFollow {α : Type} {p : Nat} {f : State → α} (hf : SkipsPort p f) (s : State) (bad : Bool) (cls rl : Nat) :
    Keeps f (loadFollow p s bad cls rl) :=
  keeps_seq_cons (hf.keeps_setPort _ _) (keeps_seq_cons (keeps_when (keeps_seq_cons (hf.keeps_foldBegin 0)
    (keeps_seq_cons (keeps_fire hf.events (by norm_num) _) (keeps_seq_nil f)))) (keeps_seq_cons
    (keeps_when (keeps_seq_cons (hf.keeps_foldEnd 0) (keeps_seq_cons (keeps_fire hf.events (by norm_num) _)
      (keeps_seq_nil f)))) (keeps_seq_nil f)))

/-- The return loss measured, and the class of a fault or 0. -/
def State.measuredLoss (s : State) (p : Nat) (raw : Int) : Nat := (clampI 0 255 (raw + s.fldI (FE.LOADDET_CAL_X_EFF p))).toNat
def State.measuredClass (s : State) (p : Nat) (raw phase : Int) : Nat :=
  if s.measuredLoss p raw < s.fld (FE.LOAD_CTL_RL_MIN p) then loadClass phase else 0

theorem after_loadMeasure (s : State) (p : Nat) (raw phase : Int) : s.after (loadMeasure p raw phase) =
    (((s.after (setFld (FE.LOAD_MEAS_CLASS p) (s.measuredClass p raw phase))).after
      (setFldI (FE.LOAD_MEAS_PHASE p) phase)).after (setFld (FE.LOAD_MEAS_RL p) (s.measuredLoss p raw))).after
        (loadFollow p s (decide (s.measuredLoss p raw < s.fld (FE.LOAD_CTL_RL_MIN p))) (s.measuredClass p raw phase)
          (s.measuredLoss p raw)) := by
  have hcls : s.measuredClass p raw phase =
      if decide (s.measuredLoss p raw < s.fld (FE.LOAD_CTL_RL_MIN p)) = true then loadClass phase else 0 := by
    simp [State.measuredClass]
  rw [loadMeasure, after_ask, hcls]
  dsimp only
  rw [after_seq_cons, after_seq_cons, after_seq_cons]
  rfl

theorem measuredLoss_eq (s : State) (p : Nat) (raw : Int) :
    (s.measuredLoss p raw : Int) = max 0 (min 255 (raw + s.fldI (FE.LOADDET_CAL_X_EFF p))) := by
  rw [State.measuredLoss, clampI_eq (by norm_num)]
  omega

theorem measuredClass_eq (s : State) (p : Nat) (raw phase : Int) : s.measuredClass p raw phase =
    if max 0 (min 255 (raw + s.fldI (FE.LOADDET_CAL_X_EFF p))) < s.fld (FE.LOAD_CTL_RL_MIN p) then
      (if phase.natAbs ≤ 32 then 1 else if 96 ≤ phase.natAbs then 2 else 3) else 0 := by
  rw [State.measuredClass, ← measuredLoss_eq, loadClass]
  norm_cast

theorem measuredClass_lt (s : State) (p : Nat) (raw phase : Int) : s.measuredClass p raw phase < 2 ^ 2 := by
  rw [State.measuredClass, loadClass]
  split_ifs <;> norm_num

/-- What a measurement of the load records, and leaves alone. -/
theorem loadMeasure_spec (s : State) (p : Fin 3) (raw phase : Int) :
    let t := s.after (loadMeasure p raw phase)
    t.fld (FE.LOAD_MEAS_RL p) = s.measuredLoss p raw ∧ t.fld (FE.LOAD_MEAS_CLASS p) = s.measuredClass p raw phase ∧
      t.mem = s.mem ∧ t.cores = s.cores := by
  have hlt : s.measuredLoss p raw < 2 ^ 8 := by
    have h := measuredLoss_eq s p raw
    omega
  have hphase : Keeps (State.fld · (FE.LOAD_MEAS_CLASS p)) (setFldI (FE.LOAD_MEAS_PHASE p) phase) :=
    keeps_fld_bits (.inl (by decide)) (by decide) (by decide) (by decide) _
  have hrl : Keeps (State.fld · (FE.LOAD_MEAS_CLASS p)) (setFld (FE.LOAD_MEAS_RL p) (s.measuredLoss p raw)) :=
    keeps_fld_bits (.inl (by decide)) (by decide) (by decide) (by decide) _
  have hsets : ∀ {α : Type} {f : State → α}, (∀ t k v, f (State.apply t (.reg k v)) = f t) →
      f (((s.after (setFld (FE.LOAD_MEAS_CLASS p) (s.measuredClass p raw phase))).after
        (setFldI (FE.LOAD_MEAS_PHASE p) phase)).after (setFld (FE.LOAD_MEAS_RL p) (s.measuredLoss p raw))) = f s :=
    fun h => (keeps_setFld h _ _ _).trans ((keeps_setFld h _ _ _).trans (keeps_setFld h _ _ _))
  intro t
  rw [show t = _ from after_loadMeasure s p raw phase]
  refine ⟨(keeps_loadFollow (skipsPort_loadMeas p 15 8) _ _ _ _ _).trans ((fld_setFld_self _ (by decide) (by decide) _).trans
      (Nat.mod_eq_of_lt hlt)), ?_, (keeps_loadFollow (skipsPort_mem p) _ _ _ _ _).trans (hsets fun _ _ _ => rfl),
    (keeps_loadFollow (skipsPort_cores p) _ _ _ _ _).trans (hsets fun _ _ _ => rfl)⟩
  exact (keeps_loadFollow (skipsPort_loadMeas p 31 30) _ _ _ _ _).trans ((hrl _).trans ((hphase _).trans
    ((fld_setFld_self s (by decide) (by decide) _).trans (Nat.mod_eq_of_lt (measuredClass_lt s p raw phase)))))

theorem loadMeasurement_answers (hon : s.on (portDomain p) = true) (rl : Int) (phase : BitVec 8)
    (hair : ∃ y ∈ s.stagedOn p, y.phase = .onAir ∧ -20 ≤ y.power ∧ 16000 ≤ tdiff s.now y.launched ∧
      tdiff s.now y.launched % 8000 = 0) :
    Answers (.loadMeasurement p rl phase) s (fun t =>
      let v := max 0 (min 255 (rl + s.fldI (FE.LOADDET_CAL_X_EFF p)))
      (t.fld (FE.LOAD_MEAS_RL p) : Int) = v ∧
      t.fld (FE.LOAD_MEAS_CLASS p) = (if v < s.fld (FE.LOAD_CTL_RL_MIN p) then
        (if phase.toInt.natAbs ≤ 32 then 1 else if 96 ≤ phase.toInt.natAbs then 2 else 3) else 0) ∧
      t.mem = s.mem ∧ t.cores = s.cores) := by
  obtain ⟨y, hy, hphase, hpower, hlate, hwhole⟩ := hair
  obtain ⟨hloss, hclass, hmem, hcores⟩ := loadMeasure_spec s p rl phase.toInt
  refine answers_inDomain hon rfl ?_
  rw [after_ask, after_when, if_pos (List.any_eq_true.2 ⟨y, hy, by simp [hphase, hpower, hlate, hwhole]⟩)]
  exact ⟨by rw [hloss, measuredLoss_eq], by rw [hclass, measuredClass_eq], hmem, hcores⟩

/-! ### Lines that only the port's working state holds (R138, R153-R156, R160) -/

/-- Of memory, the cores and the ports, port `p` alone differs, and `q` holds of it. -/
def Lines (i : Instr) (p : Nat) (s : State) (q : FePort → Prop) : Prop :=
  Answers i s (fun t => q (t.port p) ∧ t.mem = s.mem ∧ t.cores = s.cores ∧ ∀ r, r ≠ p → t.port r = s.port r)

/-- A command whose effect comes down to a change of its port, between effects that memory, the cores and the ports do not
show. -/
theorem lines_of_after {i : Instr} {e e' : Effect} {s u : State} {g : FePort → FePort} {q : FePort → Prop}
    (hon : s.on (portDomain p) = true) (hexec : exec i s = run (inDomain (portDomain p) e) s)
    (hafter : s.after e = (u.after (setPort p g)).after e') (hbefore : u.fe = s.fe ∧ u.mem = s.mem ∧ u.cores = s.cores)
    (hfe : Keeps State.fe e') (hmem : Keeps State.mem e') (hcores : Keeps State.cores e') (hq : q (g (s.port p))) :
    Lines i p s q := by
  obtain ⟨hufe, humem, hucores⟩ := hbefore
  have hport : ∀ r, (s.after e).port r = if r = p then g (s.port p) else s.port r := fun r => by
    rw [hafter, State.port, hfe, ← State.port, port_setPort, State.port, State.port, hufe]
    rfl
  refine answers_inDomain hon hexec ⟨?_, ?_, ?_, fun r hr => by rw [hport, if_neg hr]⟩
  · rw [hport, if_pos rfl]
    exact hq
  · rw [hafter, hmem, mem_setPort, humem]
  · rw [hafter, hcores, cores_setPort, hucores]

/-- The same of a command that changes its port and nothing else. -/
theorem lines_of_setPort {i : Instr} {e : Effect} {g : FePort → FePort} {q : FePort → Prop}
    (hon : s.on (portDomain p) = true) (hexec : exec i s = run (inDomain (portDomain p) e) s)
    (hafter : s.after e = s.after (setPort p g)) (hq : q (g (s.port p))) : Lines i p s q :=
  lines_of_after (e' := nothing) hon hexec hafter ⟨rfl, rfl, rfl⟩ (keeps_nothing _) (keeps_nothing _) (keeps_nothing _) hq

theorem keeps_foldEnd_of_reg {α : Type} {f : State → α} (h : ∀ t k v, f (State.apply t (.reg k v)) = f t) (p i : Nat) :
    Keeps f (foldEnd p i) :=
  keeps_ask (g := fun s => setFld (FE.PORT_STATUS_FOLD_CAUSE p) (putBit (s.fld (FE.PORT_STATUS_FOLD_CAUSE p)) i false))
    fun _ => keeps_setFld h _ _

theorem loadClr_lines (hon : s.on (portDomain p) = true) : Lines (.loadClr p) p s (fun y => y.faults = 0 ∧ y.goods = 0) :=
  lines_of_after (e' := nothing) (g := fun x => { x with faults := 0, goods := 0 }) (u := s.after (foldEnd p 0)) hon rfl
    (by rw [loadClr, after_seq_cons, after_seq_cons, after_seq_nil, after_nothing])
    ⟨keeps_foldEnd_of_reg (fun _ _ _ => rfl) p 0 s, keeps_foldEnd_of_reg (fun _ _ _ => rfl) p 0 s,
      keeps_foldEnd_of_reg (fun _ _ _ => rfl) p 0 s⟩ (keeps_nothing _) (keeps_nothing _) (keeps_nothing _) ⟨rfl, rfl⟩

theorem bit_zero_putBit_false (n : Nat) : bit (putBit n 0 false) 0 = false := by
  rw [bit_eq_testBit, putBit, putBits_testBit]
  simp [b2n]

theorem loadClr_folds (hon : s.on (portDomain p) = true) :
    Answers (.loadClr p) s (fun t => bit (t.fld (FE.PORT_STATUS_FOLD_CAUSE p)) 0 = false) := by
  have hcause : (s.after (foldEnd p 0)).fld (FE.PORT_STATUS_FOLD_CAUSE p) =
      putBit (s.fld (FE.PORT_STATUS_FOLD_CAUSE p)) 0 false % 2 ^ 2 := by
    rw [foldEnd, after_ask]
    exact fld_setFld_self (k := FE.PORT_STATUS p) (hi := 17) (lo := 16) s (by decide) (by decide) _
  refine answers_inDomain hon rfl ?_
  rw [loadClr, after_seq_cons, after_seq_cons, after_seq_nil, fld_setPort, hcause, bit_eq_testBit, Nat.testBit_mod_two_pow,
    ← bit_eq_testBit, bit_zero_putBit_false, Bool.and_false]

/-- What ANT_SEL_WRITE does to its port: the pins move, or the value waits for the end of a transmission. -/
def antSelPort (s : State) (p v : Nat) (x : FePort) : FePort :=
  if s.busyAir p then { x with antWait := true } else { x with antPins := v % 4, antWait := false }

theorem after_antSelWrite (v : Nat) : s.after (antSelWrite p v) =
    (s.after (setFld (FE.ANT_SEL p) v)).after (setPort p (antSelPort s p v)) := by
  have hport : antSelPort s p v = if s.busyAir p then fun x => { x with antWait := true }
      else fun x => { x with antPins := v % 4, antWait := false } := by
    funext x
    unfold antSelPort
    cases s.busyAir p <;> rfl
  rw [antSelWrite, after_ask, after_seq_cons, after_seq_cons, after_seq_nil, hport]
  cases s.busyAir p <;> rfl

theorem antSelWrite_lines (hon : s.on (portDomain p) = true) (v : BitVec 2) {q : FePort → Prop}
    (hq : q (antSelPort s p v.toNat (s.port p))) : Lines (.antSelWrite p v) p s q :=
  lines_of_after (e' := nothing) hon rfl (after_antSelWrite v.toNat) ⟨rfl, rfl, rfl⟩ (keeps_nothing _) (keeps_nothing _)
    (keeps_nothing _) hq

theorem antSelWrite_stores (hon : s.on (portDomain p) = true) (v : BitVec 2) :
    Answers (.antSelWrite p v) s (fun t => t.fld (FE.ANT_SEL p) = v.toNat) := by
  refine answers_inDomain hon rfl ?_
  rw [after_antSelWrite]
  exact (keeps_setPort (f := (State.fld · (FE.ANT_SEL p))) (fun _ _ => rfl) _ _ _).trans
    ((fld_setFld_self s (by decide) (by decide) _).trans (Nat.mod_eq_of_lt v.isLt))

theorem antSelApply_lines (hon : s.on (portDomain p) = true) (hwait : (s.port p).antWait = true)
    (hbusy : s.busyAir p = false) (hlag : (s.port p).lastEnd + s.paLag p ≤ s.acc.ltb) :
    Lines (.antSelApply p) p s (fun y => y.antPins = s.fld (FE.ANT_SEL p) ∧ y.antWait = false) :=
  lines_of_setPort hon rfl (by rw [after_ask, after_when, if_pos (by simp [hwait, hbusy, hlag])]) ⟨rfl, rfl⟩

theorem paEnAssert_lines (hon : s.on (portDomain p) = true) (hcal : (s.port p).cal = none)
    (hair : ∃ y ∈ s.stagedOn p, s.reached (tplus y.first (-(s.paLead p : Int))) = true) :
    Lines (.paEnAssert p) p s (fun y => y.paEn = true) :=
  lines_of_setPort hon rfl (by rw [after_ask, after_when, if_pos (by rw [hcal, List.any_eq_true.2 hair]; rfl)]) rfl

theorem paEnRelease_lines (hon : s.on (portDomain p) = true) (hnone : s.stagedOn p = [])
    (hlag : (s.port p).lastEnd + s.paLag p ≤ s.acc.ltb) : Lines (.paEnRelease p) p s (fun y => y.paEn = false) :=
  lines_of_setPort (g := fun x => { x with paEn := false }) hon rfl
    (by rw [after_ask]; dsimp only; rw [after_when, if_pos (by simp [hnone, hlag])]) rfl

theorem after_agcTo (step : Nat) : s.after (agcTo p step) = (s.after (setPort p fun x => { x with agc := step })).after
    (fun s => [.bb { s.bb with lanes := s.bb.lanes.map (fun e => if lanePort e.1 = p then
      (e.1, { e.2 with frame := e.2.frame.map (fun f => { f with agcMoved := true }) }) else e) }]) := by
  rw [agcTo, after_seq_cons, after_seq_cons, after_seq_nil]

/-- A gain step moves the port's gain, and marks the frames in reception. -/
theorem agc_lines {i : Instr} {e : Effect} {step : Nat} (hon : s.on (portDomain p) = true)
    (hexec : exec i s = run (inDomain (portDomain p) e) s) (hafter : s.after e = s.after (agcTo p step)) :
    Lines i p s (fun y => y.agc = step) :=
  lines_of_after hon hexec (hafter.trans (after_agcTo step)) ⟨rfl, rfl, rfl⟩ (fun _ => rfl) (fun _ => rfl) (fun _ => rfl) rfl

theorem agcStepDown_lines (hon : s.on (portDomain p) = true) (hhold : s.flag (FE.FE_EXP_AGC_HOLD p) = false)
    (hagc : (s.port p).agc < 5) : Lines (.agcStepDown p) p s (fun y => y.agc = (s.port p).agc + 1) :=
  agc_lines hon rfl (by rw [after_ask, after_when, if_pos (by simp [hhold, hagc])])

theorem agcStepUp_lines (hon : s.on (portDomain p) = true) (hhold : s.flag (FE.FE_EXP_AGC_HOLD p) = false)
    (hagc : 0 < (s.port p).agc) (hframe : s.holdsFrame p = false) :
    Lines (.agcStepUp p) p s (fun y => y.agc = (s.port p).agc - 1) :=
  agc_lines hon rfl (by rw [after_ask, after_when, if_pos (by simp [hhold, hagc, hframe])])

end

/-! ### The statement -/

/-- Settles O22: a port's commands come down to a calibration's start or end, to a change of the port's working state, or
to a flush of its transmissions, and what follows those leaves what is said of them alone. -/
theorem portsAndTheirLines : Obligations.PortsAndTheirLines := by
  unfold Obligations.PortsAndTheirLines
  refine ⟨fun p s hon => ?calibration, fun p s hon => ?lines⟩
  case calibration =>
    refine ⟨fun hen hcal => ⟨portEnable_starts hon hen hcal, portEnable_frame hon hen hcal⟩, portDisable_answers hon,
      fun hen hfailed hcal hpend hretry => ⟨calReq_starts hon hen hfailed hcal hpend hretry,
        calReq_waits hon hen hfailed hcal hpend hretry⟩,
      fun hunlocked hen hcal => calForce_starts hon hunlocked hen hcal,
      fun c hpend => ⟨calibrationStart_pending hon hpend, fun a => calibrationStart_forced hon hpend, calForced_sets hon hpend⟩,
      fun c rej hcal => ⟨calibrationComplete_done hon hcal, calibrationComplete_fails hon hcal⟩,
      fun c a => calRetry_starts hon, synthLockLoss_answers hon⟩
  case lines =>
    refine ⟨tempSample_answers hon, loadMeasurement_answers hon, loadClr_lines hon, loadClr_folds hon,
      fun v => ⟨fun hbusy => antSelWrite_lines hon v (q := fun y => y.antPins = v.toNat ∧ y.antWait = false) ?free,
        fun hbusy => antSelWrite_lines hon v (q := fun y => y.antPins = (s.port p).antPins ∧ y.antWait = true) ?busy,
        antSelWrite_stores hon v⟩,
      antSelApply_lines hon, paEnAssert_lines hon, paEnRelease_lines hon,
      fun hhold => ⟨agcStepDown_lines hon hhold, agcStepUp_lines hon hhold⟩⟩
    case free =>
      rw [antSelPort, hbusy]
      exact ⟨Nat.mod_eq_of_lt v.isLt, rfl⟩
    case busy =>
      rw [antSelPort, hbusy]
      exact ⟨rfl, rfl⟩

end Sys2Proof.Machine
end

section
/-!
PROOFS: region profiles, the scheduled switch and a transmission dropped late (O23).
-/
namespace Sys2Proof.Machine

open Sys2Proof

/-! ### Bytes read from on-chip SRAM and written to MRAM (R165) -/

/-- A source in Flacon's SRAM is read without a bus error. -/
theorem after_engineRead_flacon (s : State) {a k : Nat} (bad : Effect) (ok : List Nat → Effect) (h1 : 0x10000000 ≤ a)
    (h2 : a + k ≤ 0x10400000) (hk : 0 < k) : s.after (engineRead a k bad ok) = s.after (ok (s.bytes a k)) := by
  have hfirst := regionOf_flacon h1 (by omega)
  have hlast : regionOf (a + (k - 1)) = .flacon := regionOf_flacon (by omega) (by omega)
  have hsame : sameRegion a k = true := by rw [sameRegion, hfirst, hlast]; rfl
  simp only [engineRead, hfirst, hsame, if_true, readMem, after_ask]

/-- Bytes copied from one place read there as they read at their source. -/
theorem bytes_putBytes_copy (s : State) (a b k : Nat) : (s.after (putBytes a (s.bytes b k))).bytes a k = s.bytes b k := by
  have hlen := bytes_length s b k
  refine List.map_congr_left fun i hi => ?_
  have hik : i < k := List.mem_range.1 hi
  have hget : (s.bytes b k).getD i 0 = s.byte (b + i) := by simp [State.bytes, hik]
  rw [byte_putBytes s a _ i (by rwa [hlen]), hget, Nat.mod_eq_of_lt (byte_lt s _)]

theorem bytes_eq_of_mem {s t : State} (h : t.mem = s.mem) (a k : Nat) : t.bytes a k = s.bytes a k :=
  List.map_congr_left fun _ _ => byte_eq_of_mem h _

theorem memOnly_putBytes (s : State) (a : Nat) (l : List Nat) : MemOnly a l.length s (s.after (putBytes a l)) := fun x hx =>
  byte_putBytes_ne s a l x hx

section
variable {s : State}

/-! ### PROFILE_INSTALL and INSTALL_COMPLETE (R165) -/

/-- An install of a sound record into a slot that is neither locked nor in use writes it, and runs. -/
theorem after_profileInstall (hbusy : s.flag FE.INSTALL_CTL_BUSY = false)
    (hlocked : bit (s.fld FE.PROF_STATE_LOCKED) (s.fld FE.INSTALL_CTL_SLOT) = false)
    (hactive : s.activeSlot ≠ some (s.fld FE.INSTALL_CTL_SLOT)) (harmed : s.fe.armed = none) (harming : s.fe.arming = none)
    (hlo : 0x10000000 ≤ s.installSrc) (hhi : s.installSrc + 512 ≤ 0x10400000)
    (hcheck : s.profileCheck (s.bytes s.installSrc 512) = 0) : s.after profileInstall =
      ((s.after (mramWrite (profAddr (s.fld FE.INSTALL_CTL_SLOT)) (s.bytes s.installSrc 512))).after
        (setFld FE.INSTALL_CTL_BUSY 1)).after
        (fun t => [.fe { t.fe with install := some (s.fld FE.INSTALL_CTL_SLOT, 0) }]) := by
  rw [profileInstall, after_ask]
  dsimp +zeta only
  rw [hbusy, hlocked, harmed, harming, if_neg Bool.false_ne_true, if_neg Bool.false_ne_true, if_neg (by simp [hactive]),
    after_engineRead_flacon s _ _ hlo hhi (by norm_num), after_ask]
  split
  · rw [after_seq_cons, after_seq_cons, after_seq_nil, after_seq_cons, after_seq_cons, after_seq_nil]
  · next h => exact absurd hcheck h

/-- Bytes written to MRAM read there as at their source; no other byte and no core changes. -/
theorem mramWrite_copies (s : State) (a b k : Nat) :
    let t := s.after (mramWrite a (s.bytes b k))
    t.bytes a k = s.bytes b k ∧ MemOnly a k s t ∧ t.cores = s.cores := by
  obtain ⟨x, hx⟩ := after_mramWrite s a (s.bytes b k)
  have hput := memOnly_putBytes s a (s.bytes b k)
  rw [bytes_length] at hput
  have hbytes := bytes_putBytes_copy s a b k
  have hcores : (s.after (putBytes a (s.bytes b k))).cores = s.cores :=
    keeps_putBytes (f := State.cores) (fun _ _ _ => rfl) _ _ s
  intro t
  rw [show t = _ from hx]
  exact ⟨hbytes, hput, hcores⟩

theorem profileInstall_answers (hon : s.on 2 = true) (hbusy : s.flag FE.INSTALL_CTL_BUSY = false)
    (hlocked : bit (s.fld FE.PROF_STATE_LOCKED) (s.fld FE.INSTALL_CTL_SLOT) = false)
    (hactive : s.activeSlot ≠ some (s.fld FE.INSTALL_CTL_SLOT)) (harmed : s.fe.armed = none) (harming : s.fe.arming = none)
    (hlo : 0x10000000 ≤ s.installSrc) (hhi : s.installSrc + 512 ≤ 0x10400000)
    (hcheck : s.profileCheck (s.bytes s.installSrc 512) = 0) : Answers .profileInstall s (fun t =>
      t.flag FE.INSTALL_CTL_BUSY = true ∧ t.fe.install = some (s.fld FE.INSTALL_CTL_SLOT, 0) ∧
        t.bytes (profAddr (s.fld FE.INSTALL_CTL_SLOT)) 512 = s.bytes s.installSrc 512 ∧
        MemOnly (profAddr (s.fld FE.INSTALL_CTL_SLOT)) 512 s t ∧ t.cores = s.cores) := by
  obtain ⟨hbytes, honly, hcores⟩ := mramWrite_copies s (profAddr (s.fld FE.INSTALL_CTL_SLOT)) s.installSrc 512
  refine answers_inDomain hon rfl ?_
  rw [after_profileInstall hbusy hlocked hactive harmed harming hlo hhi hcheck]
  generalize s.after (mramWrite _ _) = u at hbytes honly hcores ⊢
  have hfront : ∀ {α : Type} {f : State → α}, (∀ t x, f (State.apply t (.fe x)) = f t) →
      Keeps f (fun t => [.fe { t.fe with install := some (s.fld FE.INSTALL_CTL_SLOT, 0) }]) := fun h t => h t _
  have hflag : Keeps (State.flag · FE.INSTALL_CTL_BUSY) _ := hfront fun _ _ => rfl
  have hmem := hfront (f := State.mem) fun _ _ => rfl
  have hmem' := (hmem _).trans (mem_setFld u FE.INSTALL_CTL_BUSY 1)
  exact ⟨(hflag _).trans (flag_setFld_self u FE.INSTALL_CTL 10 1 (by decide)), rfl,
    (bytes_eq_of_mem hmem' _ _).trans hbytes, fun x hx => (byte_eq_of_mem hmem' x).trans (honly x hx),
    (hfront (f := State.cores) (fun _ _ => rfl) _).trans ((cores_setFld u FE.INSTALL_CTL_BUSY 1).trans hcores)⟩

/-- The result an install ends with: a slot that does not read back sound is VERIFY (7). -/
def State.installResult (s : State) (k r : Nat) : Nat := if r = 0 ∧ s.slotCheck k ≠ 0 then 7 else r

/-- What follows an install's RESULT: the slot's VALID bit, and the event of a refusal. -/
def installFollow (s : State) (k r : Nat) : Effect := seq [
  when (r = 0) (setFld FE.PROF_STATE_VALID (putBit (s.fld FE.PROF_STATE_VALID) k (s.installResult k r = 0))),
  when (s.installResult k r ≠ 0) (fire 24 (k + s.installResult k r * 2 ^ 4))]

theorem after_installComplete {k r : Nat} (h : s.fe.install = some (k, r)) :
    ∃ e, exec .installComplete s = run (inDomain 2 e) s ∧ s.after e =
      ((((s.after (fun t => [.fe { t.fe with install := none }])).after (setFld FE.INSTALL_CTL_BUSY 0)).after
        (setFld FE.INSTALL_CTL_DONE 1)).after (setFld FE.INSTALL_CTL_RESULT (s.installResult k r))).after
          (installFollow s k r) := by
  have hres : (if (decide (r = 0) && decide (s.slotCheck k ≠ 0)) = true then 7 else r) = s.installResult k r := by
    simp [State.installResult]
  refine ⟨_, rfl, ?_⟩
  rw [after_ask, h]
  dsimp only
  rw [hres, after_seq_cons, after_seq_cons, after_seq_cons, after_seq_cons]
  rfl

theorem keeps_installFollow {α : Type} {f : State → α} (hf : SkipsEvents f)
    (hreg : ∀ t v, f (State.apply t (.reg FE.PROF_STATE v)) = f t) (s : State) (k r : Nat) : Keeps f (installFollow s k r) :=
  keeps_seq_cons (keeps_when fun _ => hreg _ _) (keeps_seq_cons (keeps_when (keeps_fire hf (by norm_num) _)) (keeps_seq_nil f))

theorem installResult_lt {k r : Nat} (hr : r < 16) : s.installResult k r < 2 ^ 4 := by
  unfold State.installResult
  split_ifs <;> omega

theorem installCtl_lt : FE.INSTALL_CTL < 0x40020000 := by decide

theorem installCtl_ne : FE.INSTALL_CTL ≠ FE.PROF_STATE := by decide

theorem installComplete_answers {k r : Nat} (hon : s.on 2 = true) (h : s.fe.install = some (k, r)) (hr : r < 16) :
    Answers .installComplete s (fun t => t.fe.install = none ∧ t.flag FE.INSTALL_CTL_BUSY = false ∧
      t.flag FE.INSTALL_CTL_DONE = true ∧ t.fld FE.INSTALL_CTL_RESULT = (if r = 0 ∧ s.slotCheck k ≠ 0 then 7 else r) ∧
      t.mem = s.mem) := by
  obtain ⟨e, hexec, hafter⟩ := after_installComplete h
  have hctl : ∀ {hi lo}, Keeps (State.fld · ⟨FE.INSTALL_CTL, hi, lo⟩) (installFollow s k r) := fun {hi lo} =>
    keeps_installFollow (front_skipsEvents installCtl_lt) (fun t v => fld_eq_of_reg (reg_apply_ne t _ _ v installCtl_ne)) s k r
  have hfe : Keeps State.fe (installFollow s k r) := keeps_installFollow skipsEvents_fe (fun _ _ => rfl) s k r
  have hmem : Keeps State.mem (installFollow s k r) := keeps_installFollow skipsEvents_mem (fun _ _ => rfl) s k r
  have hres := installResult_lt (s := s) (k := k) hr
  refine answers_inDomain hon hexec ?_
  rw [hafter]
  have hnone : (s.after (fun t => [.fe { t.fe with install := none }])).fe.install = none := rfl
  have hsame : (s.after (fun t => [.fe { t.fe with install := none }])).mem = s.mem := rfl
  generalize s.after (fun t => [.fe { t.fe with install := none }]) = u at hnone hsame ⊢
  have hbusy : Keeps (State.flag · FE.INSTALL_CTL_BUSY) (setFld FE.INSTALL_CTL_DONE 1) := keeps_flag_bit (by decide) (by decide) _
  have hlow : ∀ {i}, i < 12 → Keeps (State.fld · ⟨FE.INSTALL_CTL, i, i⟩) (setFld FE.INSTALL_CTL_RESULT (s.installResult k r)) :=
    fun hi => keeps_fld_bits (.inr hi) (by decide) (by decide) le_rfl _
  refine ⟨(congrArg Fe.install (hfe _)).trans hnone, ?_, ?_, ?_,
    (hmem _).trans ((mem_setFld ..).trans ((mem_setFld ..).trans ((mem_setFld ..).trans hsame)))⟩
  · exact (congrArg (fun n => decide (n = 1)) ((hctl _).trans (hlow (by decide) _))).trans
      ((hbusy _).trans (flag_setFld_self u FE.INSTALL_CTL 10 0 (by decide)))
  · exact (congrArg (fun n => decide (n = 1)) ((hctl _).trans (hlow (by decide) _))).trans
      (flag_setFld_self _ FE.INSTALL_CTL 11 1 (by decide))
  · exact (hctl _).trans ((fld_setFld_self _ (by decide) (by decide) _).trans (Nat.mod_eq_of_lt hres))

end

end Sys2Proof.Machine
end

section
/-!
PROOFS: slot locks, the scheduled region switch and a transmission dropped late (O23).
-/
namespace Sys2Proof.Machine

open Sys2Proof

@[simp] theorem fe_setFld (s : State) (g : Fld) (v : Nat) : (s.after (setFld g v)).fe = s.fe := rfl

theorem keeps_writeRegState {α : Type} {f : State → α} (h : ∀ t a b, f (State.apply t (.mem a b)) = f t)
    (active locks : Nat) : Keeps f (writeRegState active locks) :=
  keeps_ask fun _ => keeps_putBytes h _ _

theorem keeps_disarm {α : Type} {f : State → α} (h : ∀ t x, f (State.apply t (.acc x)) = f t) (i : Nat) :
    Keeps f (disarm i) := fun s => h s _

theorem keeps_arm {α : Type} {f : State → α} (h : ∀ t x, f (State.apply t (.acc x)) = f t) (i : Nat) (a : Instant) :
    Keeps f (arm i a) := fun s => h s _

theorem profState_lt : FE.PROF_STATE < 0x40020000 := by decide

theorem switchCtl_lt : FE.SWITCH_CTL < 0x40020000 := by decide

theorem switchCtl_ne_profState : FE.SWITCH_CTL ≠ FE.PROF_STATE := by decide

section
variable {s : State}

/-! ### SLOT_LOCK (R166) -/

/-- The locked slots once the slots of `v` are named: those that are valid join. -/
def State.locksWith (s : State) (v : Nat) : Nat := s.fld FE.PROF_STATE_LOCKED ||| (v &&& s.fld FE.PROF_STATE_VALID)

theorem locksWith_lt (v : Nat) : s.locksWith v < 2 ^ 8 :=
  Nat.or_lt_two_pow (bits_lt ..) (Nat.and_lt_two_pow v (bits_lt ..))

theorem after_slotLockWrite {v : Nat} (hv : v < 256) (h : s.locksWith v ≠ s.fld FE.PROF_STATE_LOCKED) :
    s.after (slotLockWrite v) = ((s.after (setFld FE.PROF_STATE_LOCKED (s.locksWith v))).after
      (setFld FE.SLOT_LOCK_LOCK (s.locksWith v))).after (writeRegState s.regActive (s.locksWith v)) := by
  unfold State.locksWith at h ⊢
  rw [slotLockWrite, after_ask]
  dsimp +zeta only
  rw [Nat.mod_eq_of_lt hv, after_when, if_pos (decide_eq_true h), after_seq_cons, after_seq_cons, after_seq_cons,
    after_seq_nil]

theorem after_slotLockWrite_same {v : Nat} (hv : v < 256) (h : s.locksWith v = s.fld FE.PROF_STATE_LOCKED) :
    s.after (slotLockWrite v) = s := by
  unfold State.locksWith at h
  rw [slotLockWrite, after_ask]
  dsimp +zeta only
  rw [Nat.mod_eq_of_lt hv, after_when, if_neg (by simp [h])]

theorem slotLockWrite_answers (hon : s.on 2 = true) (v : BitVec 8) : Answers (.slotLockWrite v) s (fun t =>
    t.fld FE.PROF_STATE_LOCKED = (s.fld FE.PROF_STATE_LOCKED ||| (v.toNat &&& s.fld FE.PROF_STATE_VALID)) ∧
      t.cores = s.cores) := by
  refine answers_inDomain hon rfl ?_
  by_cases h : s.locksWith v.toNat = s.fld FE.PROF_STATE_LOCKED
  · rw [after_slotLockWrite_same v.isLt h]
    exact ⟨h.symm, rfl⟩
  · rw [after_slotLockWrite v.isLt h]
    have hlock : Keeps (State.fld · FE.PROF_STATE_LOCKED) (setFld FE.SLOT_LOCK_LOCK (s.locksWith v.toNat)) :=
      fun t => fld_eq_of_reg (reg_apply_ne t _ _ _ (by decide))
    have hfield : ∀ t : State, (t.after (setFld FE.PROF_STATE_LOCKED (s.locksWith v.toNat))).fld FE.PROF_STATE_LOCKED =
        s.locksWith v.toNat := fun t => (fld_setFld_self t (by decide) (by decide) _).trans (Nat.mod_eq_of_lt (locksWith_lt _))
    have hstate : ∀ {α : Type} {f : State → α}, (∀ t a b, f (State.apply t (.mem a b)) = f t) →
        Keeps f (writeRegState s.regActive (s.locksWith v.toNat)) := fun h => keeps_writeRegState h _ _
    exact ⟨(hstate (f := (State.fld · FE.PROF_STATE_LOCKED)) (fun _ _ _ => rfl) _).trans ((hlock _).trans (hfield s)),
      (hstate (f := State.cores) (fun _ _ _ => rfl) _).trans ((cores_setFld ..).trans (cores_setFld ..))⟩

/-! ### SWITCH_ARM (R169) -/

/-- A refused SWITCH_ARM records its cause and leaves the front-end's working state. -/
theorem switchArm_refused {c : Nat} (hon : s.on 2 = true) (hc : c < 16)
    (h : s.after switchArm = s.after (setFld FE.SWITCH_CTL_ERR c)) :
    Answers .switchArm s (fun t => t.fld FE.SWITCH_CTL_ERR = c ∧ t.fe = s.fe) := by
  refine answers_inDomain hon rfl ?_
  rw [h]
  exact ⟨(fld_setFld_self s (by decide) (by decide) c).trans (Nat.mod_eq_of_lt hc), rfl⟩

theorem switchArm_late (hon : s.on 2 = true) (hlead : tdiff s.switchAt s.now < 10000000) :
    Answers .switchArm s (fun t => t.fld FE.SWITCH_CTL_ERR = 1 ∧ t.fe = s.fe) := by
  refine switchArm_refused hon (by norm_num) ?_
  rw [switchArm, after_ask]
  dsimp +zeta only
  rw [if_pos hlead]

theorem switchArm_invalid (hon : s.on 2 = true) (hlead : 10000000 ≤ tdiff s.switchAt s.now)
    (hslot : s.slotCheck (s.fld FE.SWITCH_CTL_NEXT) ≠ 0) :
    Answers .switchArm s (fun t => t.fld FE.SWITCH_CTL_ERR = 2 ∧ t.fe = s.fe) := by
  refine switchArm_refused hon (by norm_num) ?_
  rw [switchArm, after_ask]
  dsimp +zeta only
  rw [if_neg (not_lt.2 hlead), if_pos hslot]

theorem switchArm_active (hon : s.on 2 = true) (hlead : 10000000 ≤ tdiff s.switchAt s.now)
    (hslot : s.slotCheck (s.fld FE.SWITCH_CTL_NEXT) = 0) (hactive : s.activeSlot = some (s.fld FE.SWITCH_CTL_NEXT)) :
    Answers .switchArm s (fun t => t.fld FE.SWITCH_CTL_ERR = 3 ∧ t.fe = s.fe) := by
  refine switchArm_refused hon (by norm_num) ?_
  rw [switchArm, after_ask]
  dsimp +zeta only
  rw [if_neg (not_lt.2 hlead), if_neg (not_not.2 hslot), if_pos hactive]

theorem switchArm_installing (hon : s.on 2 = true) (hlead : 10000000 ≤ tdiff s.switchAt s.now)
    (hslot : s.slotCheck (s.fld FE.SWITCH_CTL_NEXT) = 0) (hactive : s.activeSlot ≠ some (s.fld FE.SWITCH_CTL_NEXT))
    (hbusy : s.flag FE.INSTALL_CTL_BUSY = true) :
    Answers .switchArm s (fun t => t.fld FE.SWITCH_CTL_ERR = 4 ∧ t.fe = s.fe) := by
  refine switchArm_refused hon (by norm_num) ?_
  rw [switchArm, after_ask]
  dsimp +zeta only
  rw [if_neg (not_lt.2 hlead), if_neg (not_not.2 hslot), if_neg hactive, if_pos hbusy]

theorem switchArm_accepted (hon : s.on 2 = true) (hlead : 10000000 ≤ tdiff s.switchAt s.now)
    (hslot : s.slotCheck (s.fld FE.SWITCH_CTL_NEXT) = 0) (hactive : s.activeSlot ≠ some (s.fld FE.SWITCH_CTL_NEXT))
    (hbusy : s.flag FE.INSTALL_CTL_BUSY = false) : Answers .switchArm s (fun t => t = { s with fe := t.fe } ∧
      t.fe.arming = some (s.fld FE.SWITCH_CTL_NEXT, s.switchAt) ∧ t.fe.armed = s.fe.armed) := by
  refine answers_inDomain hon rfl ?_
  rw [switchArm, after_ask]
  dsimp +zeta only
  rw [if_neg (not_lt.2 hlead), if_neg (not_not.2 hslot), if_neg hactive, hbusy, if_neg Bool.false_ne_true]
  exact ⟨rfl, rfl, rfl⟩

/-! ### SWITCH_CANCEL and SWITCH_ARMED (R169, R170) -/

theorem after_switchCancel {k : Nat} {a : Instant} (h : s.fe.armed = some (k, a)) (hahead : s.reached a = false) :
    s.after switchCancel = (((s.after (fun t => [.fe { t.fe with arming := none }])).after
      (fun t => [.fe { t.fe with armed := none }])).after (setFld FE.SWITCH_CTL_ARMED 0)).after (disarm 73) := by
  rw [switchCancel, after_ask, h]
  dsimp only
  rw [hahead, after_seq_cons, after_seq_cons, after_seq_nil, Bool.not_false, after_when, if_pos rfl, after_seq_cons,
    after_seq_cons, after_seq_cons, after_seq_nil]

theorem switchCancel_answers {k : Nat} {a : Instant} (hon : s.on 2 = true) (h : s.fe.armed = some (k, a))
    (hahead : s.reached a = false) : Answers .switchCancel s (fun t => t.fe.armed = none ∧
      t.fe.arming = none ∧ t.flag FE.SWITCH_CTL_ARMED = false ∧ (t.comp 73).armed = false ∧ t.mem = s.mem) := by
  refine answers_inDomain hon rfl ?_
  rw [after_switchCancel h hahead]
  have hfe : ((s.after (fun t => [.fe { t.fe with arming := none }])).after
      (fun t => [.fe { t.fe with armed := none }])).fe = { s.fe with arming := none, armed := none } := rfl
  have hmem : ((s.after (fun t => [.fe { t.fe with arming := none }])).after
      (fun t => [.fe { t.fe with armed := none }])).mem = s.mem := rfl
  generalize State.after _ _ = u at hfe hmem ⊢
  have hdisarm : ∀ {α : Type} {f : State → α}, (∀ t x, f (State.apply t (.acc x)) = f t) → Keeps f (disarm 73) :=
    fun h => keeps_disarm h 73
  have hkept : ((u.after (setFld FE.SWITCH_CTL_ARMED 0)).after (disarm 73)).fe = _ :=
    (hdisarm (f := State.fe) (fun _ _ => rfl) _).trans ((fe_setFld ..).trans hfe)
  refine ⟨congrArg Fe.armed hkept, congrArg Fe.arming hkept, ?_, ?_, (hdisarm (f := State.mem) (fun _ _ => rfl) _).trans ((mem_setFld ..).trans hmem)⟩
  · exact (hdisarm (f := (State.flag · FE.SWITCH_CTL_ARMED)) (fun _ _ => rfl) _).trans
      (flag_setFld_self u FE.SWITCH_CTL 10 0 (by decide))
  · rw [comp_disarm, if_pos rfl]

/-- An accepted arm sets ARMED; with nothing staged there is nothing to check again. -/
theorem switchArmed_answers {k : Nat} {a : Instant} (hon : s.on 2 = true) (h : s.fe.arming = some (k, a))
    (hstaged : s.bb.staged = []) : Answers .switchArmed s (fun t => t.fe.armed = some (k, a) ∧ t.fe.arming = none ∧
      t.flag FE.SWITCH_CTL_ARMED = true ∧ (t.comp 73).armed = true ∧ (t.comp 73).at_ = a ∧ t.mem = s.mem) := by
  refine answers_inDomain hon rfl ?_
  rw [after_ask, h]
  dsimp only
  rw [hstaged, after_seq_cons, after_seq_cons, after_seq_cons, after_seq_cons, after_seq_nil, after_forEach_nil]
  have hfe : (s.after (fun t => [.fe { t.fe with arming := none, armed := some (k, a) }])).fe =
    { s.fe with arming := none, armed := some (k, a) } := rfl
  have hmem : (s.after (fun t => [.fe { t.fe with arming := none, armed := some (k, a) }])).mem = s.mem := rfl
  generalize State.after s _ = u at hfe hmem ⊢
  have harm : ∀ {α : Type} {f : State → α}, (∀ t x, f (State.apply t (.acc x)) = f t) → Keeps f (arm 73 a) :=
    fun h => keeps_arm h 73 a
  have hkept : ((u.after (setFld FE.SWITCH_CTL_ARMED 1)).after (arm 73 a)).fe = _ :=
    (harm (f := State.fe) (fun _ _ => rfl) _).trans ((fe_setFld ..).trans hfe)
  refine ⟨congrArg Fe.armed hkept, congrArg Fe.arming hkept, ?_, ?_, ?_,
    (harm (f := State.mem) (fun _ _ => rfl) _).trans ((mem_setFld ..).trans hmem)⟩
  · exact (harm (f := (State.flag · FE.SWITCH_CTL_ARMED)) (fun _ _ => rfl) _).trans
      (flag_setFld_self u FE.SWITCH_CTL 10 1 (by decide))
  · rw [arm, comp_setComp, if_pos rfl]
  · rw [arm, comp_setComp, if_pos rfl]

/-! ### The region switch (R171) -/

/-- The ports that a switch to the profile of slot `k` retunes and that can calibrate. -/
def State.switchCals (s : State) (k : Nat) : List Nat :=
  (allBelow 3 (fun p => s.profCentre k p ≠ s.fld (FE.TUNE_CENTRE_KHZ p))).filter
    (fun p => s.on (portDomain p) && s.flag (FE.PORT_CTL_EN p))

/-- What follows the retuning: the airtime charges move, and the ports calibrate or the switch ends. -/
def switchFollow (k : Nat) (cals : List Nat) (old : Nat) (wasNone : Bool) : Effect := seq [
  fun s => [.mac { s.mac with charges := s.mac.charges.map (fun c => { c with sub := (s.subOf k c.port c.chan).getD 18 }) }],
  forEach cals (fun p => seq [setPort p (fun x => { x with retry := none }), calStart p 3]),
  when cals.isEmpty (switchEnd [] old wasNone)]

/-- The state at SWITCH_AT once the new profile is in force, before the ports are tuned. -/
def State.switched (s : State) (k : Nat) : State :=
  (((((s.after (setComp 73 fun c => { c with armed := false, fired := true })).after (fun t => [.fe { t.fe with
    armed := none, switching := some (s.switchCals k, [], s.fld FE.PROF_STATE_ACTIVE, s.flag FE.PROF_STATE_NONE) }])).after
    (setFld FE.SWITCH_CTL_ARMED 0)).after (setFld FE.SWITCH_CTL_DONE 1)).after (setFld FE.PROF_STATE_ACTIVE k)).after
    (setFld FE.PROF_STATE_NONE 0)

theorem after_regionSwitch {k : Nat} {a : Instant} (h : s.fe.armed = some (k, a)) (harmed : (s.comp 73).armed = true)
    (hreached : s.reached a = true) : s.after regionSwitch = ((s.switched k).after (tuneAll (some k))).after
      (switchFollow k (s.switchCals k) (s.fld FE.PROF_STATE_ACTIVE) (s.flag FE.PROF_STATE_NONE)) := by
  rw [regionSwitch, after_ask, h]
  dsimp +zeta only
  rw [harmed, hreached, Bool.and_self, after_when, if_pos rfl, after_seq_cons, after_seq_cons, after_seq_cons,
    after_seq_cons, after_seq_cons, after_seq_cons, after_seq_cons]
  rfl

/-- What follows the retuning is not seen by what lies beside the traffic manager, save the ports' status and the
front-end's working state. -/
theorem keeps_switchFollow {α : Type} {f : State → α} (hf : Beside f)
    (hports : ∀ t x, f (State.apply t (.fe { t.fe with ports := x })) = f t)
    (hsw : ∀ t x, f (State.apply t (.fe { t.fe with switching := x })) = f t) {cals : List Nat}
    (hreg : ∀ p ∈ cals, ∀ t v, f (State.apply t (.reg (FE.PORT_STATUS p) v)) = f t) (k old : Nat) (wasNone : Bool) :
    Keeps f (switchFollow k cals old wasNone) :=
  keeps_seq_cons (fun s => hf.mac s _) (keeps_seq_cons (keeps_forEach fun p hp => keeps_seq_cons (keeps_setPort hports _ _)
    (keeps_seq_cons (keeps_calStart hports (hreg p hp) 3) (keeps_seq_nil f))) (keeps_seq_cons
      (keeps_when (keeps_switchEnd hf hsw _ _ _)) (keeps_seq_nil f)))

theorem keeps_tuneAll {α : Type} {f : State → α}
    (h : ∀ p < 3, ∀ t v, f (State.apply t (.reg (FE.TUNE p) v)) = f t) (k : Option Nat) : Keeps f (tuneAll k) :=
  keeps_ask fun _ => keeps_forEach fun p hp _ => h p (List.mem_range.1 hp) _ _

/-- Every port is tuned to its centre in the profile. -/
theorem tune_tuneAll (k : Nat) (p : Fin 3) (hcentre : s.profCentre k p < 2 ^ 22) :
    (s.after (tuneAll (some k))).fld (FE.TUNE_CENTRE_KHZ p) = s.profCentre k p := by
  have hlist : List.range 3 = [0, 1, 2] := rfl
  have hne : ∀ {i j : Nat}, i ≠ j → ∀ v, Keeps (State.fld · (FE.TUNE_CENTRE_KHZ i)) (setFld (FE.TUNE_CENTRE_KHZ j) v) :=
    fun {i j} h v t => fld_setFld_ne t _ _ v (by simp only [FE.TUNE_CENTRE_KHZ, FE.TUNE]; omega)
  have hself : ∀ (t : State) (i : Nat), s.profCentre k i < 2 ^ 22 →
      (t.after (setFld (FE.TUNE_CENTRE_KHZ i) (s.profCentre k i))).fld (FE.TUNE_CENTRE_KHZ i) = s.profCentre k i :=
    fun t i hi => (fld_setFld_self t (by decide) (by decide) _).trans (Nat.mod_eq_of_lt hi)
  rw [tuneAll, after_ask, hlist, after_forEach_cons, after_forEach_cons, after_forEach_cons, after_forEach_nil]
  match p with
  | 0 => exact (hne (by decide) _ _).trans ((hne (by decide) _ _).trans (hself _ 0 hcentre))
  | 1 => exact (hne (by decide) _ _).trans (hself _ 1 hcentre)
  | 2 => exact hself _ 2 hcentre

/-- The registers and the working state once the new profile is in force. -/
theorem switched_facts {k : Nat} (hk : k < 8) : (s.switched k).fe.armed = none ∧
    (s.switched k).flag FE.SWITCH_CTL_ARMED = false ∧ (s.switched k).flag FE.SWITCH_CTL_DONE = true ∧
    (s.switched k).fld FE.PROF_STATE_ACTIVE = k ∧ (s.switched k).flag FE.PROF_STATE_NONE = false ∧
    (s.switched k).mem = s.mem := by
  unfold State.switched
  have hnone : ((s.after (setComp 73 fun c => { c with armed := false, fired := true })).after (fun t => [.fe { t.fe with
    armed := none, switching := some (s.switchCals k, [], s.fld FE.PROF_STATE_ACTIVE, s.flag FE.PROF_STATE_NONE) }])).fe.armed =
      none := rfl
  have hmem : ((s.after (setComp 73 fun c => { c with armed := false, fired := true })).after (fun t => [.fe { t.fe with
    armed := none, switching := some (s.switchCals k, [], s.fld FE.PROF_STATE_ACTIVE, s.flag FE.PROF_STATE_NONE) }])).mem =
      s.mem := rfl
  generalize State.after (State.after s _) _ = u at hnone hmem ⊢
  have hctl : ∀ {i v} {hi lo : Nat}, Keeps (State.flag · ⟨FE.SWITCH_CTL, i, i⟩) (setFld ⟨FE.PROF_STATE, hi, lo⟩ v) :=
    fun t => flag_eq_of_reg (reg_apply_ne t _ _ _ switchCtl_ne_profState)
  have hactive : Keeps (State.fld · FE.PROF_STATE_ACTIVE) (setFld FE.PROF_STATE_NONE 0) :=
    keeps_fld_bits (.inr (by decide)) (by decide) (by decide) (by decide) _
  have harmed : Keeps (State.flag · FE.SWITCH_CTL_ARMED) (setFld FE.SWITCH_CTL_DONE 1) := keeps_flag_bit (by decide) (by decide) _
  exact ⟨(congrArg Fe.armed ((fe_setFld ..).trans ((fe_setFld ..).trans ((fe_setFld ..).trans (fe_setFld ..))))).trans hnone,
    (hctl _).trans ((hctl _).trans ((harmed _).trans (flag_setFld_self u FE.SWITCH_CTL 10 0 (by decide)))),
    (hctl _).trans ((hctl _).trans (flag_setFld_self _ FE.SWITCH_CTL 11 1 (by decide))),
    (hactive _).trans ((fld_setFld_self _ (by decide) (by decide) k).trans (Nat.mod_eq_of_lt hk)),
    flag_setFld_self _ FE.PROF_STATE 7 0 (by decide),
    (mem_setFld ..).trans ((mem_setFld ..).trans ((mem_setFld ..).trans ((mem_setFld ..).trans hmem)))⟩

theorem port_of_switchCals {k p : Nat} (h : p ∈ s.switchCals k) : p < 3 :=
  (mem_allBelow.1 (List.mem_filter.1 h).1).1

/-- A register outside the ports' status and tuning is as the switch left it before the ports are tuned. -/
theorem reg_regionSwitch {k j : Nat} {a : Instant} (h : s.fe.armed = some (k, a)) (harmed : (s.comp 73).armed = true)
    (hreached : s.reached a = true) (hlt : j < 0x40020000) (hne : ∀ p < 3, j ≠ FE.PORT_STATUS p ∧ j ≠ FE.TUNE p) :
    (s.after regionSwitch).reg j = (s.switched k).reg j := by
  rw [after_regionSwitch h harmed hreached]
  have hfollow := keeps_switchFollow (cals := s.switchCals k) (beside_reg hlt) (fun _ _ => rfl) (fun _ _ => rfl)
    (fun p hp t v => reg_apply_ne t _ j v (hne p (port_of_switchCals hp)).1) k (s.fld FE.PROF_STATE_ACTIVE)
    (s.flag FE.PROF_STATE_NONE)
  have htune := keeps_tuneAll (f := (State.reg · j)) (fun p hp t v => reg_apply_ne t _ j v (hne p hp).2) (some k)
  exact (hfollow _).trans (htune _)

theorem profCentre_eq_of_mem {s t : State} (h : t.mem = s.mem) (k p : Nat) : t.profCentre k p = s.profCentre k p := by
  simp only [State.profCentre, State.prof, State.mem', bytes_eq_of_mem h]

theorem switchCtl_apart {p : Nat} (_ : p < 3) : FE.SWITCH_CTL ≠ FE.PORT_STATUS p ∧ FE.SWITCH_CTL ≠ FE.TUNE p := by
  simp only [FE.SWITCH_CTL, FE.PORT_STATUS, FE.TUNE]
  omega

theorem profState_apart {p : Nat} (_ : p < 3) : FE.PROF_STATE ≠ FE.PORT_STATUS p ∧ FE.PROF_STATE ≠ FE.TUNE p := by
  simp only [FE.PROF_STATE, FE.PORT_STATUS, FE.TUNE]
  omega

theorem regionSwitch_answers {k : Nat} {a : Instant} (hon : s.on 2 = true) (h : s.fe.armed = some (k, a)) (hk : k < 8)
    (hcomp : (s.comp 73).armed = true) (hreached : s.reached a = true) : Answers .regionSwitch s (fun t =>
      t.fe.armed = none ∧ t.flag FE.SWITCH_CTL_ARMED = false ∧ t.flag FE.SWITCH_CTL_DONE = true ∧
        t.fld FE.PROF_STATE_ACTIVE = k ∧ t.flag FE.PROF_STATE_NONE = false ∧
        ∀ p : Fin 3, s.profCentre k p < 2 ^ 22 → t.fld (FE.TUNE_CENTRE_KHZ p) = s.profCentre k p) := by
  obtain ⟨hnone, harmed, hdone, hactive, hprof, hmem⟩ := switched_facts (s := s) hk
  have hswitch := reg_regionSwitch h hcomp hreached switchCtl_lt fun _ => switchCtl_apart
  have hstate := reg_regionSwitch h hcomp hreached profState_lt fun _ => profState_apart
  refine answers_inDomain hon rfl ⟨?_, (flag_eq_of_reg hswitch).trans harmed, (flag_eq_of_reg hswitch).trans hdone,
    (fld_eq_of_reg hstate).trans hactive, (flag_eq_of_reg hstate).trans hprof, fun p hcentre => ?_⟩
  · rw [after_regionSwitch h hcomp hreached]
    have hfollow := keeps_switchFollow (cals := s.switchCals k) (beside_fe.comp Fe.armed) (fun _ _ => rfl) (fun _ _ => rfl)
      (fun _ _ _ _ => rfl) k (s.fld FE.PROF_STATE_ACTIVE) (s.flag FE.PROF_STATE_NONE)
    have htune := keeps_tuneAll (f := fun t => t.fe.armed) (fun _ _ _ _ => rfl) (some k)
    exact (hfollow _).trans ((htune _).trans hnone)
  · have hlt : FE.TUNE p < 0x40020000 := by simp only [FE.TUNE]; omega
    have hne : ∀ q, FE.TUNE p ≠ FE.PORT_STATUS q := fun q => by simp only [FE.TUNE, FE.PORT_STATUS]; omega
    have hfollow := keeps_switchFollow (cals := s.switchCals k) (beside_fld (g := FE.TUNE_CENTRE_KHZ p) hlt) (fun _ _ => rfl)
      (fun _ _ => rfl) (fun q _ t v => fld_eq_of_reg (reg_apply_ne t _ _ v (hne q))) k (s.fld FE.PROF_STATE_ACTIVE)
      (s.flag FE.PROF_STATE_NONE)
    have hsame := profCentre_eq_of_mem hmem k p
    have htune := tune_tuneAll (s := s.switched k) k p (by rwa [hsame])
    rw [after_regionSwitch h hcomp hreached]
    exact (hfollow _).trans (htune.trans hsame)

/-! ### A transmission dropped late (R150) -/

theorem find_place {l : List Staged} {v j : Nat} {x : Staged}
    (h : l.find? (fun y => y.voice = v ∧ y.place = j) = some x) :
    l.find? (fun y => y.voice = v && y.place = j) = some x ∧ x.voice = v ∧ x.place = j := by
  have hx := List.find?_some h
  simp only [Bool.decide_and, decide_eq_true_eq, Bool.and_eq_true] at h hx
  exact ⟨h, hx⟩

theorem txLateDrop_answers {v : Fin 12} {j : Fin 4} {x : Staged} (hon : s.on 12 = true)
    (hfind : s.bb.staged.find? (fun y => y.voice = v.val ∧ y.place = j.val) = some x) (hphase : x.phase = .waitLock)
    (hlate : s.reached (tplus x.first ((s.fld FE.TX_LATE_TOL_NS : Int) - 200)) = true) : Answers (.txLateDrop v j) s (fun t =>
      ∀ y ∈ t.bb.staged, ¬(y.voice = v.val ∧ y.place = j.val)) := by
  obtain ⟨hfound, hvoice, hplace⟩ := find_place hfind
  refine answers_inDomain hon rfl ?_
  rw [after_ask, hfound]
  dsimp only
  rw [hlate, hphase, after_when, if_pos (by decide), after_seq_cons, after_seq_cons, after_seq_cons, after_seq_cons,
    after_seq_nil, bb_setPort]
  have hcount := keeps_count (f := State.bb) (fun _ _ _ => rfl) (FE.COUNT_A_TXLATE x.port)
  have hfire := keeps_fire skipsEvents_bb (show 18 < 96 by norm_num) v
  rw [show State.bb _ = _ from (hfire _).trans (hcount _), staged_endTx, hvoice, hplace]
  intro y hy hyx
  simpa [hyx] using (List.mem_filter.1 hy).2

end

/-- Settles O23, clause by clause. -/
theorem profilesAndSwitch : Obligations.ProfilesAndSwitch := by
  unfold Obligations.ProfilesAndSwitch
  intro s hon
  refine ⟨?_, ?_, ?_, ⟨?_, ?_, ?_, ?_, ?_⟩, ?_, ?_, ?_, ?_⟩
  · exact fun hbusy hlocked hactive harmed harming hlo hhi hcheck =>
      profileInstall_answers hon hbusy hlocked hactive harmed harming hlo hhi hcheck
  · exact fun k r h hr _ => installComplete_answers hon h hr
  · exact fun v => slotLockWrite_answers hon v
  · exact fun hlead hslot hactive hbusy => switchArm_accepted hon hlead hslot hactive hbusy
  · exact fun hlead => switchArm_late hon hlead
  · exact fun hlead hslot => switchArm_invalid hon hlead hslot
  · exact fun hlead hslot hactive => switchArm_active hon hlead hslot hactive
  · exact fun hlead hslot hactive hbusy => switchArm_installing hon hlead hslot hactive hbusy
  · exact fun k a h hahead => switchCancel_answers hon h hahead
  · exact fun k a h hstaged => switchArmed_answers hon h hstaged
  · exact fun k a h hk hcomp hreached => regionSwitch_answers hon h hk hcomp hreached
  · exact fun v j x h12 hfind hphase hlate => txLateDrop_answers h12 hfind hphase hlate

end Sys2Proof.Machine
end

section
/-!
PROOFS: the end of a voice's transmission where the port's counter of those sent is a ring's high-water mark (refutes
O28).
-/
namespace Sys2Proof.Machine

open Sys2Proof

/-! ### A completion that its ring takes (R303) -/

/-- A descriptor appended to a ring that holds some writes one register, the ring's high-water mark. -/
theorem regs_append {s : State} {r : Nat} (d : Desc) (h : (s.ring r).q.isEmpty = false) : (s.after (append r d)).regs =
    (s.after (setFld (TM.HWM_DEPTH_DEPTH r) (max (s.fld (TM.HWM_DEPTH_DEPTH r)) ((s.ring r).q.length + 1)))).regs := by
  have hmem : ∀ (t : State) a b, (t.apply (.mem a b)).regs = t.regs := fun _ _ _ => rfl
  have hregs : ∀ {t u : State} {f : Fld} {v : Nat}, t.regs = u.regs →
      (t.after (setFld f v)).regs = (u.after (setFld f v)).regs := fun {t u f v} h => by
    simp only [setFld, State.after, State.applyAll, State.apply, State.regN, State.reg, h]
  rw [append, after_ask]
  dsimp +zeta only
  rw [h, after_seq_cons, after_seq_cons, after_seq_cons, after_seq_cons, after_seq_cons, after_seq_cons, after_seq_cons,
    after_seq_nil, after_when, if_neg Bool.false_ne_true, after_when, if_neg Bool.false_ne_true]
  refine hregs ((keeps_when (keeps_setHolder hmem _ _) _).trans
    ((keeps_ite (keeps_putBytes hmem _ _) (keeps_putBytes hmem _ _) _).trans rfl))

/-- A ring that takes a push at once has the completion appended. -/
theorem after_complete {s : State} {r : Nat} (source unit : Nat) (d : Desc) (h : s.takes r) :
    s.after (complete source unit r d) = s.after (append r d) := by
  obtain ⟨hroom, hptr, hheld⟩ := h
  rw [complete, after_seq_cons, after_seq_cons, after_seq_nil, after_pointerCheck hptr, after_ask, hroom, hheld]
  rfl

/-! ### A transmission of a program that ends as SENT (R214) -/

/-- The state once an ended transmission has left its place and its comparator is free. -/
def State.unstaged (s : State) (x : Staged) : State :=
  (s.after (fun s => [.bb { s.bb with staged := s.bb.staged.filter (fun y => y.voice ≠ x.voice || y.place ≠ x.place) }])).after
    (disarm (4 * x.voice + x.place))

/-- The state once it is counted and its completion's free bits are drawn. -/
def State.sentCounted (s : State) (x : Staged) : State :=
  ((s.unstaged x).after (count (BB.COUNT_HI x.port 6))).apply .draw

/-- The completion of a transmission that was on the air (Table 05.9). -/
def Staged.sentDesc (x : Staged) : Desc :=
  completion 1 0 x.len x.buf x.voice (x.late % 2 ^ 16 + unsigned 8 x.applied * 2 ^ 16 + b2n x.cut * 2 ^ 24 +
    b2n x.folded * 2 ^ 25) x.tag.toNat

theorem after_endTx_sent {s : State} {x : Staged} (howner : x.owner = .program) (hphase : x.phase = .onAir) :
    s.after (endTx x 0) = (s.sentCounted x).after (complete 1 x.voice x.cring x.sentDesc) := by
  rw [endTx, howner, after_seq_cons, after_seq_cons, after_seq_cons, after_seq_cons, after_seq_cons, after_seq_nil]
  dsimp only
  rw [withFree, after_ask, after_seq_cons, after_seq_cons, after_seq_nil, if_pos hphase]
  rfl

/-- TX_END of a transmission whose air has passed. -/
def State.txEnded (s : State) (x : Staged) : State :=
  s.after (seq [endTx x 0, setPort x.port fun y => { y with lastEnd := s.acc.ltb }, synthStop x.port])

theorem exec_txEnd {s : State} {v : Fin 12} {j : Fin 4} {x : Staged} (hon : s.on 12 = true)
    (hfind : s.bb.staged.find? (fun y => y.voice = v.val && y.place = j.val) = some x) (hphase : x.phase = .onAir)
    (hreached : s.reached (tplus x.launched x.air) = true) : exec (.txEnd v j) s = .next (s.txEnded x) := by
  refine congrArg Host.Outcome.next ((after_inDomain_on hon _).trans ?_)
  rw [after_ask, hfind]
  dsimp only
  rw [hphase, hreached, after_when, if_pos (by decide)]
  rfl

/-- At the end of a transmission on the air, the registers other than the port's status are those its completion leaves. -/
theorem fld_txEnd {s : State} {x : Staged} {g : Fld} (hg : g.addr ≠ FE.PORT_STATUS x.port) (howner : x.owner = .program)
    (hphase : x.phase = .onAir) (htakes : (s.sentCounted x).takes x.cring) : (s.txEnded x).fld g =
      ((s.sentCounted x).after (append x.cring x.sentDesc)).fld g := by
  have hstop : Keeps (State.fld · g) (synthStop x.port) :=
    keeps_synthStop fun v t => fld_eq_of_reg (reg_apply_ne t _ _ _ hg)
  have hport := fld_setPort (s.after (endTx x 0)) x.port (fun y => { y with lastEnd := s.acc.ltb }) g
  rw [State.txEnded, after_seq_cons, after_seq_cons, after_seq_cons, after_seq_nil]
  refine (hstop _).trans (hport.trans ?_)
  rw [after_endTx_sent howner hphase, after_complete 1 x.voice _ htakes]

/-! ### The counterexample -/

/-- A transmission on the air on a port past the last, one whose COUNT[6] lies where ring 2's HWM_DEPTH does. -/
def farSent : Staged :=
  { voice := 0, place := 0, port := 192, chan := 0, mode := 0, request := 0, power := 0, fcs := false, cca := false, buf := 0
    len := 0, tag := 0#32, cring := 2, owner := .program, ident := 0, trig := 0#64, lead := 0, air := 0, stagedAt := 0#64
    phase := .onAir }

/-- Ring 2 one short of full. -/
def almostFull : Ring := { q := List.replicate 65535 ⟨⟨0#32, 0#32, 0#32, 0#32⟩, 0, 0⟩ }

/-- PD_CORE and PD_BB are ON, ring 2 is enabled with a depth of 65,536, holds one fewer and has been full once; the
transmission on the air has ended. -/
def farSentState : State :=
  { State.reset.after (seq [setDomain 2 2, setDomain 12 2, setFld (TM.RING_CTL_EN 2) 1, setFld (TM.RING_CFG_DEPTH 2) 0,
      setReg (TM.HWM_DEPTH 2) 65536]) with
    bb := { staged := [farSent] }
    tm := { rings := [(2, almostFull)] } }

theorem farSentState_ended : farSentState.on 12 = true ∧
    farSentState.reached (tplus farSent.launched farSent.air) = true := by
  decide +kernel

theorem farSentState_count : farSentState.fld (BB.COUNT_HI farSent.port 6) = 1 := by
  decide +kernel

/-- Counted, the transmission makes it 2, which is no depth. -/
theorem farSentState_counted : (farSentState.sentCounted farSent).flag (TM.RING_CTL_EN 2) = true ∧
    (farSentState.sentCounted farSent).depth 2 = 65536 ∧
    (farSentState.sentCounted farSent).fld (TM.HWM_DEPTH_DEPTH 2) = 0 := by
  decide +kernel

/-- The ring's depth of 65,536, written into the same register, makes it 3. -/
theorem farSentState_marked : ((farSentState.sentCounted farSent).after (setFld (TM.HWM_DEPTH_DEPTH 2) 65536)).fld
    (BB.COUNT_HI farSent.port 6) = 3 := by
  decide +kernel

theorem ring_farSent : (farSentState.sentCounted farSent).ring 2 = almostFull := rfl

theorem length_almostFull : almostFull.q.length = 65535 := List.length_replicate

theorem farSent_takes : (farSentState.sentCounted farSent).takes 2 := by
  obtain ⟨hen, hdepth, -⟩ := farSentState_counted
  refine ⟨?_, by rw [ring_farSent]; rfl, rfl⟩
  rw [hasRoom_eq hen (by rw [ring_farSent]; rfl), ring_farSent, length_almostFull, hdepth]
  rfl

theorem fld_of_regs {s t : State} (h : t.regs = s.regs) (g : Fld) : t.fld g = s.fld g :=
  fld_eq_of_reg (by rw [State.reg, h, State.reg])

/-- Refutes O28: at the end of a transmission on the air from port 192 the port's COUNT[6].HI and ring 2's HWM_DEPTH.DEPTH
share a bit, and where 1 transmission was counted the completion leaves 3 there. -/
theorem not_voiceLaunch : ¬ Obligations.VoiceLaunch := by
  unfold Obligations.VoiceLaunch
  intro h
  obtain ⟨hon, hreached⟩ := farSentState_ended
  have hfind : farSentState.bb.staged.find? (fun y => y.voice = (0 : Fin 12).val ∧ y.place = (0 : Fin 4).val) = some farSent := rfl
  obtain ⟨hfound, -, -⟩ := find_place hfind
  obtain ⟨t, ht, -, hcounted, -⟩ := (h 0 0 farSentState farSent hon hfind).2 rfl hreached
  rw [exec_txEnd hon hfound rfl hreached] at ht
  injection ht with ht
  have hq : ((farSentState.sentCounted farSent).ring 2).q.length = 65535 := by rw [ring_farSent, length_almostFull]
  have hthree : t.fld (BB.COUNT_HI farSent.port 6) = 3 := by
    rw [← ht, fld_txEnd (by decide) rfl rfl farSent_takes, show farSent.cring = 2 from rfl,
      fld_of_regs (regs_append _ (by rw [List.isEmpty_eq_false_iff, ← List.length_pos_iff, hq]; norm_num)), hq,
      farSentState_counted.2.2]
    exact farSentState_marked
  rw [Counted, hthree, farSentState_count] at hcounted
  exact absurd hcounted (by decide)

end Sys2Proof.Machine
end

section
/-!
PROOFS: the hypotheses of O22 and O23 are met, each clause shown at a boundary value, and what the statements then give.
-/
namespace Sys2Proof.Machine

open Sys2Proof

/-! ### O22 -/

/-- Every power domain that port 2 and the platform need is ON, nothing else has happened. -/
def poweredPort : State := State.reset.after (seq [setDomain 2 2, setDomain (portDomain 2) 2, setDomain 12 2])

/-- Accord's two time bases at `ns`. -/
def timeAt (ns : Nat) : Acc := { ltb := ns, atb := ns * 2 ^ 48 }

/-- Port 2's working state and registers set in it. -/
def portState (x : FePort) (e : Effect) : State := { poweredPort.after e with fe := { ports := [(2, x)] } }

theorem poweredPort_enables : Answers (.portEnable 2) poweredPort (fun t => (t.port 2).cal = some 0) := by
  obtain ⟨henable, -⟩ := portsAndTheirLines.1 2 poweredPort (by decide +kernel)
  obtain ⟨⟨t, ht, hcal, -⟩, -⟩ := henable (by decide +kernel) (by decide +kernel)
  exact ⟨t, ht, hcal⟩

/-- A transmission of port 2 on the air from instant 0, of `power` half dBm. -/
def onPort2 (power : Int) (phase : TxPhase) : Staged :=
  { farSent with port := 2, power := power, air := 1, phase := phase }

/-- Port 2 enabled, its transmission on the air for 1 ns more, and no guard time. -/
def guardedState : State :=
  { portState {} (setFld (FE.PORT_CTL_EN 2) 1) with bb := { staged := [onPort2 0 .onAir] } }

theorem guardedState_waits : Answers (.calReq 2) guardedState (fun t => (t.port 2).pend = some 1) := by
  obtain ⟨-, -, hrequest, -⟩ := portsAndTheirLines.1 2 guardedState (by decide +kernel)
  obtain ⟨-, hguarded⟩ := hrequest (by decide +kernel) rfl rfl rfl rfl
  obtain ⟨t, ht, hpend, -⟩ := hguarded (by decide +kernel)
  exact ⟨t, ht, hpend⟩

/-- A command calibration of port 2 that began exactly its duration ago. -/
def calibratedState : State := { portState { cal := some 1 } nothing with acc := timeAt (dCal 2) }

theorem calibratedState_locks : Answers (.calibrationComplete 2 true 45#8) calibratedState (fun t =>
    t.flag (FE.PORT_STATUS_LOCKED 2) = true ∧ t.fld (FE.CAL_INFO_CAL_COUNT 2) = 1) := by
  obtain ⟨-, -, -, -, -, hends, -⟩ := portsAndTheirLines.1 2 calibratedState (by decide +kernel)
  obtain ⟨hdone, -⟩ := hends 1 45#8 rfl
  obtain ⟨t, ht, -, -, hlocked, -, -, -, hcount⟩ := hdone (by decide) (by decide +kernel) rfl (by decide +kernel)
  have hone : (calibratedState.fld (FE.CAL_INFO_CAL_COUNT (2 : Fin 3)) + 1) % 256 = 1 := by decide +kernel
  exact ⟨t, ht, hlocked, hcount.trans hone⟩

/-- A failed temperature calibration whose repeat is due now. -/
def retryState : State := portState { retry := some (2, 0) } nothing

theorem retryState_starts : Answers (.calRetry 2) retryState (fun t => (t.port 2).cal = some 2) := by
  obtain ⟨-, -, -, -, -, -, hretry, -⟩ := portsAndTheirLines.1 2 retryState (by decide +kernel)
  obtain ⟨t, ht, hcal, -⟩ := hretry 2 0 rfl rfl (by decide +kernel)
  exact ⟨t, ht, hcal⟩

/-- The sensor's correction takes the largest reading past the largest temperature. -/
def hotState : State := portState {} (setFld (FE.TEMP_CAL_X_EFF 2) 1)

theorem hotState_saturates : Answers (.tempSample 2 511#10) hotState (fun t => t.fldI (FE.PORT_STATUS_TEMP 2) = 511) := by
  obtain ⟨htemp, -⟩ := portsAndTheirLines.2 2 hotState (by decide +kernel)
  obtain ⟨t, ht, hread, -⟩ := htemp 511#10 (by decide +kernel)
  have hclamp : max (-512) (min 511 ((511#10).toInt + hotState.fldI (FE.TEMP_CAL_X_EFF 2))) = 511 := by decide +kernel
  exact ⟨t, ht, hread.trans hclamp⟩

/-- A transmission of -10 dBm, 16 µs after its first chip. -/
def loadedState : State :=
  { portState {} nothing with bb := { staged := [onPort2 (-20) .onAir] }, acc := timeAt 16000 }

theorem loadedState_measures : Answers (.loadMeasurement 2 0 0#8) loadedState (fun t =>
    t.fld (FE.LOAD_MEAS_RL 2) = 0) := by
  obtain ⟨-, hload, -⟩ := portsAndTheirLines.2 2 loadedState (by decide +kernel)
  obtain ⟨t, ht, hread, -⟩ := hload 0 0#8 ⟨onPort2 (-20) .onAir, by decide +kernel⟩
  have hloss : max 0 (min 255 (0 + loadedState.fldI (FE.LOADDET_CAL_X_EFF 2))) = 0 := by decide +kernel
  exact ⟨t, ht, Int.ofNat_eq_zero.1 (hread.trans hloss)⟩

/-- The last step but one. -/
def agcState : State := portState { agc := 4 } nothing

theorem agcState_steps : Answers (.agcStepDown 2) agcState (fun t => (t.port 2).agc = 5) := by
  obtain ⟨-, -, -, -, -, -, -, -, hagc⟩ := portsAndTheirLines.2 2 agcState (by decide +kernel)
  obtain ⟨hdown, -⟩ := hagc (by decide +kernel)
  obtain ⟨t, ht, hstep, -⟩ := hdown (by decide +kernel)
  exact ⟨t, ht, hstep⟩

/-! ### O23 -/

/-- A switch asked for 10 ms ahead, less `early` ns. -/
def switchAhead (early : Nat) : State := poweredPort.after (setPair FE.SWITCH_AT_LO FE.SWITCH_AT_HI (10000000 - early))

theorem switchAhead_late : Answers .switchArm (switchAhead 1) (fun t => t.fld FE.SWITCH_CTL_ERR = 1) := by
  obtain ⟨-, -, -, ⟨-, hlate, -⟩, -⟩ := profilesAndSwitch (switchAhead 1) (by decide +kernel)
  obtain ⟨t, ht, herr, -⟩ := hlate (by decide +kernel)
  exact ⟨t, ht, herr⟩

/-- At 10 ms the switch is in time, and the blank slot it names is invalid. -/
theorem switchAhead_invalid : Answers .switchArm (switchAhead 0) (fun t => t.fld FE.SWITCH_CTL_ERR = 2) := by
  obtain ⟨-, -, -, ⟨-, -, hinvalid, -⟩, -⟩ := profilesAndSwitch (switchAhead 0) (by decide +kernel)
  obtain ⟨t, ht, herr, -⟩ := hinvalid (by decide +kernel) (by decide +kernel)
  exact ⟨t, ht, herr⟩

/-- A switch to the last slot, armed for instant 1, at instant `now`. -/
def armedSwitch (now : Nat) : State :=
  { poweredPort with fe := { armed := some (7, 1#64) }, acc := { timeAt now with comps := [(73, { armed := true, at_ := 1#64 })] } }

theorem armedSwitch_cancels : Answers .switchCancel (armedSwitch 0) (fun t => t.fe.armed = none ∧ (t.comp 73).armed = false) := by
  obtain ⟨-, -, -, -, hcancel, -⟩ := profilesAndSwitch (armedSwitch 0) (by decide +kernel)
  obtain ⟨t, ht, hnone, -, -, hcomp, -⟩ := hcancel 7 1#64 rfl (by decide +kernel)
  exact ⟨t, ht, hnone, hcomp⟩

theorem armedSwitch_switches : Answers .regionSwitch (armedSwitch 1) (fun t => t.fld FE.PROF_STATE_ACTIVE = 7 ∧
    t.fld (FE.TUNE_CENTRE_KHZ 2) = 0) := by
  obtain ⟨-, -, -, -, -, -, hswitch, -⟩ := profilesAndSwitch (armedSwitch 1) (by decide +kernel)
  obtain ⟨t, ht, -, -, -, hactive, -, htune⟩ := hswitch 7 1#64 rfl (by norm_num) rfl (by decide +kernel)
  have hcentre : (armedSwitch 1).profCentre 7 (2 : Fin 3) = 0 := by decide +kernel
  exact ⟨t, ht, hactive, (htune 2 (by rw [hcentre]; norm_num)).trans hcentre⟩

/-- An arm accepted, with nothing staged. -/
def armingSwitch : State := { poweredPort with fe := { arming := some (7, 1#64) } }

theorem armingSwitch_arms : Answers .switchArmed armingSwitch (fun t => t.fe.armed = some (7, 1#64) ∧
    (t.comp 73).at_ = 1#64) := by
  obtain ⟨-, -, -, -, -, harm, -⟩ := profilesAndSwitch armingSwitch (by decide +kernel)
  obtain ⟨t, ht, harmed, -, -, -, hat, -⟩ := harm 7 1#64 rfl rfl
  exact ⟨t, ht, harmed, hat⟩

/-- An install into the last slot that was written without a refusal, and reads back blank. -/
def installedState : State := { poweredPort with fe := { install := some (7, 0) } }

theorem installedState_verifies : Answers .installComplete installedState (fun t => t.fld FE.INSTALL_CTL_RESULT = 7) := by
  obtain ⟨-, hcomplete, -⟩ := profilesAndSwitch installedState (by decide +kernel)
  obtain ⟨t, ht, -, -, -, hresult, -⟩ := hcomplete 7 0 rfl (by norm_num) (by norm_num)
  have hslot : installedState.slotCheck 7 ≠ 0 := by decide +kernel
  exact ⟨t, ht, hresult.trans (if_pos ⟨rfl, hslot⟩)⟩

/-- A transmission that waits for lock, at the instant at which the reset tolerance of 2 µs ends. -/
def waitingState : State := { poweredPort with bb := { staged := [onPort2 0 .waitLock] }, acc := timeAt 2000 }

theorem waitingState_drops : Answers (.txLateDrop 0 0) waitingState (fun t =>
    ∀ y ∈ t.bb.staged, ¬(y.voice = 0 ∧ y.place = 0)) := by
  obtain ⟨-, -, -, -, -, -, -, hdrop⟩ := profilesAndSwitch waitingState (by decide +kernel)
  exact hdrop 0 0 (onPort2 0 .waitLock) (by decide +kernel) rfl rfl (by decide +kernel)

end Sys2Proof.Machine
end

section
/-!
PROOFS: receive lanes. Reads that see neither the traffic manager nor the event router, what a lane's change leaves of the
other lanes, and what a lane is after it abandons its frame or leaves SYNC, RECEIVE or DONE (R198, R200, R201).
-/
namespace Sys2Proof.Machine

open Sys2Proof

/-! ### Reads past the traffic manager and the event router -/

/-- The read `f` sees no register from MAC's window on but the power domains', no memory, no core, and of the engines'
working state only the RF front-end's and the baseband's. -/
structure SkipsTraffic {α : Type} (f : State → α) : Prop where
  reg : ∀ (t : State) k v, 0x40020000 ≤ k → k ≠ PLT.PD_STATE_LO → f (t.apply (.reg k v)) = f t
  mem : ∀ (t : State) a b, f (t.apply (.mem a b)) = f t
  core : ∀ (t : State) n c, f (t.apply (.core n c)) = f t
  fwd : ∀ (t : State) x, f (t.apply (.fwd x)) = f t
  tm : ∀ (t : State) x, f (t.apply (.tm x)) = f t
  cry : ∀ (t : State) x, f (t.apply (.cry x)) = f t
  key : ∀ (t : State) x, f (t.apply (.key x)) = f t
  acc : ∀ (t : State) x, f (t.apply (.acc x)) = f t
  plt : ∀ (t : State) x, f (t.apply (.plt x)) = f t
  evt : ∀ (t : State) x, f (t.apply (.evt x)) = f t

theorem skipsTraffic_lane (m : Nat) : SkipsTraffic (State.lane · m) := by constructor <;> intros <;> rfl

/-- PD_CORE's state lies in a register that traffic does not write. -/
theorem skipsTraffic_on : SkipsTraffic (State.on · 2) where
  reg t k v _ hk := on_two_of_reg (reg_apply_ne t k _ v (Ne.symm hk))
  mem _ _ _ := rfl
  core _ _ _ := rfl
  fwd _ _ := rfl
  tm _ _ := rfl
  cry _ _ := rfl
  key _ _ := rfl
  acc _ _ := rfl
  plt _ _ := rfl
  evt _ _ := rfl

/-- What lies beside the traffic manager is a read past it. -/
theorem Beside.skipsTraffic {α : Type} {f : State → α} (hf : Beside f) : SkipsTraffic f where
  reg t k v hk _ := hf.reg t k v hk
  mem := hf.mem
  core := hf.core
  fwd := hf.fwd
  tm := hf.tm
  cry := hf.cry
  key := hf.key
  acc := hf.acc
  plt := hf.plt
  evt := hf.evt

/-- Arming a window writes comparators alone. -/
theorem keeps_armWindow {α : Type} {f : State → α} (h : ∀ (t : State) x, f (t.apply (.acc x)) = f t) (n : Nat) :
    Keeps f (armWindow n) := by
  refine keeps_ask fun s => ?_
  split
  · exact fun s => h s _
  · refine keeps_ite (fun s => h s _) ?_
    split <;> exact fun s => h s _

theorem keeps_portLanesOff {α : Type} {f : State → α} (hf : SkipsEvents f) (p : Nat) : Keeps f (portLanesOff p) :=
  keeps_ask fun _ => keeps_when (keeps_fire hf (by omega) _)

namespace SkipsTraffic
variable {α : Type} {f : State → α}

theorem skipsEvents (hf : SkipsTraffic f) : SkipsEvents f where
  reg t k v hk := by
    have hplt : PLT.PD_STATE_LO = 0x400F0000 := rfl
    rcases hk with rfl | hk
    · exact hf.reg t _ v (by decide) (by decide)
    · exact hf.reg t k v (by omega) (by omega)
  evt := hf.evt
  plt := hf.plt

theorem keeps_fire (hf : SkipsTraffic f) {n : Nat} (hn : n < 96) (arg : Nat) : Keeps f (fire n arg) :=
  Machine.keeps_fire hf.skipsEvents hn arg

theorem keeps_setFld (hf : SkipsTraffic f) {g : Fld} (h : 0x40020000 ≤ g.addr) (hne : g.addr ≠ PLT.PD_STATE_LO) (v : Nat) :
    Keeps f (setFld g v) := fun s => hf.reg s _ _ h hne

theorem keeps_count (hf : SkipsTraffic f) {g : Fld} (h : 0x40020000 ≤ g.addr) (hne : g.addr ≠ PLT.PD_STATE_LO) :
    Keeps f (count g) :=
  keeps_ask (g := fun s => Machine.setFld g (min (s.fld g + 1) (2 ^ (g.hi - g.lo + 1) - 1))) fun _ =>
    hf.keeps_setFld h hne _

/-! ### Chains (R295, R340) -/

theorem keeps_chainErrorAlways (hf : SkipsTraffic f) (b cause : Nat) : Keeps f (chainErrorAlways b cause) :=
  keeps_seq_cons (hf.keeps_count (by decide) (by decide)) (keeps_seq_cons (hf.keeps_fire (by omega) _) (keeps_seq_nil _))

theorem keeps_freeChain (hf : SkipsTraffic f) (h : Nat) : Keeps f (freeChain h) := by
  refine keeps_ask fun s => keeps_ite (hf.keeps_count (by decide) (by decide))
    (keeps_ite (hf.keeps_chainErrorAlways _ _) ?_)
  exact keeps_seq_cons (keeps_forEach fun _ _ => keeps_setHolder hf.mem _ _)
    (keeps_seq_cons (keeps_setFree hf.skipsEvents (fun t v => hf.reg t _ v (by decide) (by decide)) _)
      (keeps_seq_cons (keeps_when (hf.keeps_chainErrorAlways _ _)) (keeps_seq_nil _)))

theorem keeps_setRing (hf : SkipsTraffic f) (n : Nat) (r : Ring) : Keeps f (setRing n r) := fun s => hf.tm s _

theorem keeps_withdraw (hf : SkipsTraffic f) (b : Nat) : Keeps f (withdraw b) :=
  keeps_ask fun _ => keeps_when (keeps_seq_cons (fun s => hf.fwd s _) (keeps_seq_cons
    (keeps_when (keeps_seq_cons (hf.keeps_setRing _ _) (keeps_seq_cons (keeps_setHolder hf.mem _ _) (keeps_seq_nil f))))
    (keeps_seq_cons (fun s => hf.cry s _) (keeps_seq_cons (fun s => hf.key s _) (keeps_seq_nil f)))))

/-! ### Completions (R78, R303, R310) -/

theorem keeps_pointerCheck (hf : SkipsTraffic f) (n : Nat) : Keeps f (pointerCheck n) := by
  have hcount : Keeps f (count (TM.RING_CNT_B_PTRERR n)) :=
    hf.keeps_count (by simp only [TM.RING_CNT_B_PTRERR, TM.RING_CNT_B]; omega)
      (by simp only [TM.RING_CNT_B_PTRERR, TM.RING_CNT_B, PLT.PD_STATE_LO]; omega)
  refine keeps_ask fun s => ?_
  dsimp only
  split
  · exact keeps_nothing f
  · exact keeps_seq_cons (hf.keeps_setRing _ _) (keeps_seq_cons hcount (keeps_seq_cons (hf.keeps_fire (by omega) _)
      (keeps_seq_nil f)))
  · exact keeps_seq_cons (hf.keeps_setRing _ _) (keeps_seq_cons hcount (keeps_seq_cons (hf.keeps_fire (by omega) _)
      (keeps_seq_nil f)))

theorem keeps_newHeadTag (hf : SkipsTraffic f) (r len : Nat) : Keeps f (newHeadTag r len) := by
  refine keeps_ask fun s => ?_
  split
  · exact fun s => hf.reg s _ _ (by simp only [TM.RING_FTAG]; omega) (by simp only [TM.RING_FTAG, PLT.PD_STATE_LO]; omega)
  · exact keeps_nothing f

theorem keeps_latchSlotAt (hf : SkipsTraffic f) (n k arg : Nat) (i : Instant) : Keeps f (latchSlotAt n k arg i) := by
  have hmerged : 0x40020000 ≤ (mergedOf n).addr ∧ (mergedOf n).addr ≠ PLT.PD_STATE_LO := by
    unfold mergedOf
    split
    · decide
    · simp only [SEQ.CNT_MERGED, SEQ.CNT, PLT.PD_STATE_LO]
      omega
  exact keeps_ask fun _ => keeps_ite (keeps_nothing f)
    (keeps_ite (hf.keeps_count hmerged.1 hmerged.2) fun s => hf.core s _ _)

theorem keeps_ringReport (hf : SkipsTraffic f) (r : Nat) : Keeps f (ringReport r) :=
  keeps_ask fun _ => keeps_forEach fun x _ => keeps_ask fun u => hf.keeps_latchSlotAt x.1 x.2 0 u.now

theorem keeps_append (hf : SkipsTraffic f) (r : Nat) (d : Desc) : Keeps f (append r d) :=
  keeps_ask fun _ => keeps_seq_cons (hf.keeps_setRing _ _) (keeps_seq_cons (fun s => hf.tm s _) (keeps_seq_cons
    (keeps_ite (keeps_putBytes hf.mem _ _) (keeps_putBytes hf.mem _ _)) (keeps_seq_cons
    (keeps_when (keeps_setHolder hf.mem _ _)) (keeps_seq_cons
    (hf.keeps_setFld (by simp only [TM.HWM_DEPTH_DEPTH, TM.HWM_DEPTH]; omega)
      (by simp only [TM.HWM_DEPTH_DEPTH, TM.HWM_DEPTH, PLT.PD_STATE_LO]; omega) _) (keeps_seq_cons
    (keeps_when (hf.keeps_newHeadTag _ _)) (keeps_seq_cons (keeps_when (hf.keeps_ringReport r)) (keeps_seq_nil _)))))))

theorem keeps_complete (hf : SkipsTraffic f) (source unit r : Nat) (d : Desc) : Keeps f (complete source unit r d) :=
  keeps_seq_cons (hf.keeps_pointerCheck r) (keeps_seq_cons
    (keeps_ask fun _ => keeps_ite (hf.keeps_append r d) fun s => hf.tm s _) (keeps_seq_nil f))

/-! ### Lanes -/

theorem keeps_windowCompletion (hf : SkipsTraffic f) (n status past : Nat) (w : Window) :
    Keeps f (windowCompletion n status past w) :=
  keeps_ask fun _ => keeps_when (hf.keeps_complete _ _ _ _)

variable {n : Nat} (hl : ∀ g, Keeps f (setLane n g))
include hl

theorem keeps_dropFrame (hf : SkipsTraffic f) : Keeps f (dropFrame n) := by
  refine keeps_seq_cons (keeps_ask fun s => ?_) (keeps_seq_cons (hl _) (keeps_seq_nil f))
  split
  · exact keeps_seq_cons (hf.keeps_withdraw _) (keeps_seq_cons (hf.keeps_freeChain _) (keeps_seq_nil f))
  · exact keeps_nothing f

theorem keeps_endWindow (hf : SkipsTraffic f) (status : Nat) : Keeps f (endWindow n status) := by
  refine keeps_ask fun s => ?_
  split
  · exact keeps_nothing f
  · exact keeps_seq_cons (hf.keeps_windowCompletion _ _ _ _) (keeps_seq_cons (hl _) (keeps_seq_cons (keeps_armWindow hf.acc n)
      (keeps_seq_cons (keeps_portLanesOff hf.skipsEvents _) (keeps_seq_nil f))))

/-- A lane's leaving is not seen by what sees neither the lane nor the traffic. -/
theorem keeps_leave (hf : SkipsTraffic f) : Keeps f (leave n) := by
  have hoff : ∀ g, Keeps f (seq [setLane n g, portLanesOff (lanePort n)]) := fun g =>
    keeps_seq_cons (hl g) (keeps_seq_cons (keeps_portLanesOff hf.skipsEvents _) (keeps_seq_nil f))
  refine keeps_ask fun s => keeps_ite (hl _) ?_
  split
  · exact keeps_ite (hl _) (keeps_ite (keeps_seq_cons (hl _) (keeps_seq_cons (hf.keeps_endWindow hl 0) (keeps_seq_nil f)))
      (hoff _))
  · refine keeps_ite (hoff _) ?_
    split
    · exact keeps_ite (hl _) (hl _)
    · exact hl _

theorem keeps_abandon (hf : SkipsTraffic f) : Keeps f (abandon n) :=
  keeps_seq_cons (hf.keeps_dropFrame hl) (keeps_seq_cons (hf.keeps_leave hl) (keeps_seq_nil f))

end SkipsTraffic

/-! ### One lane among the others -/

theorem lane_setLane (s : State) (n m : Nat) (g : Lane → Lane) :
    (s.after (setLane n g)).lane m = if m = n then g (s.lane n) else s.lane m := by
  by_cases h : m = n <;> simp [setLane, State.after, State.lane, h]

theorem lane_setLane_self (s : State) (n : Nat) (g : Lane → Lane) : (s.after (setLane n g)).lane n = g (s.lane n) := by
  rw [lane_setLane, if_pos rfl]

theorem keeps_lane_setLane {n m : Nat} (h : m ≠ n) (g : Lane → Lane) : Keeps (State.lane · m) (setLane n g) := fun s =>
  (lane_setLane s n m g).trans (if_neg h)

/-- A lane's change is one of the baseband's alone. -/
theorem after_setLane (s : State) (n : Nat) (g : Lane → Lane) :
    s.after (setLane n g) = { s with bb := (s.after (setLane n g)).bb } := rfl

/-- The effect `e` leaves every lane but `n` as it was. -/
def OnlyLane (n : Nat) (e : Effect) : Prop := ∀ m, m ≠ n → Keeps (State.lane · m) e

theorem onlyLane_dropFrame (n : Nat) : OnlyLane n (dropFrame n) := fun m hm =>
  (skipsTraffic_lane m).keeps_dropFrame (keeps_lane_setLane hm)

theorem onlyLane_abandon (n : Nat) : OnlyLane n (abandon n) := fun m hm =>
  (skipsTraffic_lane m).keeps_abandon (keeps_lane_setLane hm)

/-- Where each lane of a list changes in its turn, a lane of the list changes as from a state in which it was itself. -/
theorem lane_forEach {e : Nat → Effect} (he : ∀ n, OnlyLane n (e n)) {l : List Nat} (hl : l.Nodup) {m : Nat} (hm : m ∈ l)
    (s : State) : ∃ u : State, u.lane m = s.lane m ∧ (s.after (forEach l e)).lane m = (u.after (e m)).lane m := by
  have hrest : ∀ {l : List Nat}, m ∉ l → Keeps (State.lane · m) (forEach l e) := fun hn =>
    keeps_forEach fun x hx => he x m fun h => hn (h ▸ hx)
  induction l generalizing s with
  | nil => exact absurd hm List.not_mem_nil
  | cons x l ih =>
    obtain ⟨hx, hl⟩ := List.nodup_cons.1 hl
    rw [after_forEach_cons]
    by_cases h : m = x
    · subst h
      exact ⟨s, rfl, hrest hx _⟩
    · obtain ⟨u, hu, hafter⟩ := ih hl ((List.mem_cons.1 hm).resolve_left h) (s.after (e x))
      exact ⟨u, hu.trans (he x m h s), hafter⟩

theorem lane_forEach_of_notMem {e : Nat → Effect} (he : ∀ n, OnlyLane n (e n)) {l : List Nat} {m : Nat} (hm : m ∉ l)
    (s : State) : (s.after (forEach l e)).lane m = s.lane m :=
  keeps_forEach (f := (State.lane · m)) (fun x hx => he x m fun h => hm (h ▸ hx)) s

/-- The lanes of a port, in order. -/
def lanesOf (p : Nat) : List Nat := (List.range ((portLanes p).2 - (portLanes p).1)).map (· + (portLanes p).1)

theorem mem_lanesOf {p m : Nat} : m ∈ lanesOf p ↔ (portLanes p).1 ≤ m ∧ m < (portLanes p).2 := by
  rw [lanesOf, List.mem_map]
  constructor
  · rintro ⟨i, hi, rfl⟩
    rw [List.mem_range] at hi
    omega
  · rintro ⟨hlo, hhi⟩
    exact ⟨m - (portLanes p).1, List.mem_range.2 (by omega), Nat.sub_add_cancel hlo⟩

theorem nodup_lanesOf (p : Nat) : (lanesOf p).Nodup :=
  List.nodup_range.map fun _ _ h => Nat.add_right_cancel h

/-! ### The streams' lanes (R193) -/

theorem mem_streamLanes {s : State} {p k m : Nat} : m ∈ s.streamLanes p k ↔ m < 96 ∧ s.laneOn p k m = true := by
  rw [State.streamLanes, allBelow, List.mem_filter, List.mem_range]

theorem nodup_streamLanes (s : State) (p k : Nat) : (s.streamLanes p k).Nodup := List.nodup_range.filter _

/-! ### A lane that gives up its frame, and one that leaves -/

theorem lane_dropFrame (s : State) (n : Nat) : (s.after (dropFrame n)).lane n = { s.lane n with frame := none } := by
  have hchain : ∀ o : Option Nat, Keeps (State.lane · n) (match o with
      | some b => seq [withdraw b, freeChain b]
      | none => nothing) := fun o => by
    cases o with
    | none => exact keeps_nothing _
    | some b => exact keeps_seq_cons ((skipsTraffic_lane n).keeps_withdraw b) (keeps_seq_cons
        ((skipsTraffic_lane n).keeps_freeChain b) (keeps_seq_nil _))
  rw [dropFrame, after_seq_cons, after_seq_cons, after_seq_nil, lane_setLane_self, after_ask]
  exact congrArg (fun l : Lane => { l with frame := none }) (hchain _ s)

section
variable (s : State) (n m : Nat)

@[simp] theorem lane_portLanesOff (p : Nat) : (s.after (portLanesOff p)).lane m = s.lane m :=
  keeps_portLanesOff (skipsTraffic_lane m).skipsEvents p s

@[simp] theorem lane_armWindow : (s.after (armWindow n)).lane m = s.lane m :=
  keeps_armWindow (f := (State.lane · m)) (skipsTraffic_lane m).acc n s

@[simp] theorem lane_windowCompletion (status past : Nat) (w : Window) :
    (s.after (windowCompletion n status past w)).lane m = s.lane m :=
  (skipsTraffic_lane m).keeps_windowCompletion n status past w s

end

/-- Microseconds by which the end of window `w` has passed. -/
def State.overrun (s : State) (w : Window) : Nat := (tdiff s.now (tplus w.from_ w.dur)).toNat / 1000

/-- The windows that follow one that ended `past` microseconds late: the next, if it is due, carries the lateness. -/
def State.following (s : State) (past : Nat) : List Window → List Window
  | w :: ws => (if s.reached w.from_ then { w with late := past } else w) :: ws
  | [] => []

theorem length_following (s : State) (past : Nat) (ws : List Window) : (s.following past ws).length = ws.length := by
  cases ws <;> rfl

/-- A lane whose window ends goes OFF, and its next window comes first. -/
theorem lane_endWindow {s : State} {n : Nat} {w : Window} {ws : List Window} (h : (s.lane n).windows = w :: ws)
    (status : Nat) : (s.after (endWindow n status)).lane n =
      { s.lane n with run := .off, paused := false, windows := s.following (s.overrun w) ws } := by
  rw [endWindow, after_ask, h]
  simp only [after_seq_cons, after_seq_nil, lane_portLanesOff, lane_armWindow, lane_setLane_self, lane_windowCompletion]
  cases ws <;> rfl

/-- What remains of lane `l` in lane `l'`, which it becomes as it leaves for SEARCH, FREE or OFF: its output queue, and its
frame at most. -/
structure Leaves (l l' : Lane) : Prop where
  outq : l'.outq = l.outq
  frame : l'.frame = none ∨ l'.frame = l.frame

theorem lane_leave (s : State) (n : Nat) : Leaves (s.lane n) ((s.after (leave n)).lane n) := by
  have hset : ∀ g : Lane → Lane, Leaves (s.lane n) (g (s.lane n)) → Leaves (s.lane n) ((s.after (setLane n g)).lane n) :=
    fun g h => by rwa [lane_setLane_self]
  have hoff : ∀ g : Lane → Lane, Leaves (s.lane n) (g (s.lane n)) →
      Leaves (s.lane n) ((s.after (seq [setLane n g, portLanesOff (lanePort n)])).lane n) := fun g h => by
    rwa [after_seq_cons, after_seq_cons, after_seq_nil, lane_portLanesOff, lane_setLane_self]
  have hclosed : ∀ {w ws}, (s.lane n).windows = w :: ws → Leaves (s.lane n)
      ((s.after (seq [setLane n fun l => { l with frame := none }, endWindow n 0])).lane n) := fun {w ws} h => by
    have hlane := lane_setLane_self s n fun l => { l with frame := none }
    rw [after_seq_cons, after_seq_cons, after_seq_nil, lane_endWindow (by rw [hlane]; exact h), hlane]
    exact ⟨rfl, .inl rfl⟩
  rw [leave, after_ask]
  dsimp only
  split
  case isTrue => exact hset _ ⟨rfl, .inr rfl⟩
  case isFalse =>
    split
    next w ws hw =>
      split
      · exact hset _ ⟨rfl, .inl rfl⟩
      · split
        · exact hclosed hw
        · exact hoff _ ⟨rfl, .inl rfl⟩
    next =>
      split
      · exact hoff _ ⟨rfl, .inl rfl⟩
      · split
        · split <;> exact hset _ ⟨rfl, .inl rfl⟩
        · exact hset _ ⟨rfl, .inl rfl⟩

/-- A lane that abandons its frame is left without one. -/
theorem frame_abandon (s : State) (n : Nat) : ((s.after (abandon n)).lane n).frame = none := by
  rw [abandon, after_seq_cons, after_seq_cons, after_seq_nil]
  rcases (lane_leave (s.after (dropFrame n)) n).frame with h | h
  · exact h
  · rw [h, lane_dropFrame]

end Sys2Proof.Machine
end

section
/-!
PROOFS: streams enabled and disabled, and the allocator of lanes (O24).
-/
namespace Sys2Proof.Machine

open Sys2Proof

/-! ### STREAM_k's fields (Table 05.15) -/

/-- The effect that stores a stream's channel and mode. -/
def storeStream (p k chan mode : Nat) : Effect := seq [setFld (BB.STREAM_CHAN p k) chan, setFld (BB.STREAM_MODE p k) mode]

section
variable (s : State) {p k chan mode : Nat}

theorem fld_storeStream (hchan : chan < 2 ^ 7) (hmode : mode < 2 ^ 4) :
    (s.after (storeStream p k chan mode)).fld (BB.STREAM_CHAN p k) = chan ∧
      (s.after (storeStream p k chan mode)).fld (BB.STREAM_MODE p k) = mode := by
  rw [storeStream, after_seq_cons, after_seq_cons, after_seq_nil]
  constructor
  · refine (keeps_fld_bits (by decide) (by decide) (by decide) (by decide) mode _).trans ?_
    exact (fld_setFld_self s (by decide) (by decide) chan).trans (Nat.mod_eq_of_lt hchan)
  · exact (fld_setFld_self _ (by decide) (by decide) mode).trans (Nat.mod_eq_of_lt hmode)

theorem flag_storeStream : (s.after (storeStream p k chan mode)).flag (BB.STREAM_EN p k) = s.flag (BB.STREAM_EN p k) := by
  have hkeeps : Keeps (State.fld · (BB.STREAM_EN p k)) (storeStream p k chan mode) :=
    keeps_seq_cons (keeps_fld_bits (by decide) (by decide) (by decide) (by decide) _)
      (keeps_seq_cons (keeps_fld_bits (by decide) (by decide) (by decide) (by decide) _) (keeps_seq_nil _))
  exact congrArg (fun v => decide (v = 1)) (hkeeps s)

/-- Nothing but a register is written. -/
theorem keeps_storeStream {α : Type} {f : State → α} (h : ∀ t k v, f (State.apply t (.reg k v)) = f t) (p k chan mode : Nat) :
    Keeps f (storeStream p k chan mode) :=
  keeps_seq_cons (keeps_setFld h _ _) (keeps_seq_cons (keeps_setFld h _ _) (keeps_seq_nil f))

/-- EN of a stream set or cleared leaves its channel and mode. -/
theorem fld_setEn (v : Nat) : (s.after (setFld (BB.STREAM_EN p k) v)).fld (BB.STREAM_CHAN p k) = s.fld (BB.STREAM_CHAN p k) ∧
    (s.after (setFld (BB.STREAM_EN p k) v)).fld (BB.STREAM_MODE p k) = s.fld (BB.STREAM_MODE p k) :=
  ⟨keeps_fld_bits (by decide) (by decide) (by decide) (by decide) v s,
    keeps_fld_bits (by decide) (by decide) (by decide) (by decide) v s⟩

end

/-! ### A refused write (R189, R190) -/

/-- A write of STREAM_k refused with `code`: STREAM_ERR names it, EV32 is raised, and no working state changes. -/
def StreamRefused (p k code : Nat) (s t : State) : Prop :=
  t.fld (BB.STREAM_ERR_CODE p) = code ∧ t.fld (BB.STREAM_ERR_STREAM p) = k ∧
    (s.on 2 = true → t.raised 32 (p + k * 2 ^ 8 + code * 2 ^ 16)) ∧ t.bb = s.bb ∧ t.mem = s.mem ∧ t.cores = s.cores

section
variable {s : State} {p : Fin 3} {k : Fin 32} {chan mode code : Nat}

theorem stream_lt (p : Fin 3) (k : Fin 32) : BB.STREAM p k < 0x40020000 := by
  simp only [BB.STREAM]
  omega

theorem streamErr_lt (p : Fin 3) : BB.STREAM_ERR p < 0x40020000 := by
  simp only [BB.STREAM_ERR]
  omega

theorem stream_ne_streamErr (p : Fin 3) (k : Fin 32) : BB.STREAM p k ≠ BB.STREAM_ERR p := by
  simp only [BB.STREAM, BB.STREAM_ERR]
  omega

/-- A register of the windows below MAC's is no power domain's. -/
theorem on_setFld_of_lt (s : State) {g : Fld} (h : g.addr < 0x40020000) (v : Nat) : (s.after (setFld g v)).on 2 = s.on 2 := by
  have hplt : PLT.PD_STATE_LO = 0x400F0000 := rfl
  exact on_two_of_reg (reg_apply_ne s _ _ _ (by omega))

theorem streamError_refused (s : State) (hcode : code < 16) : StreamRefused p k code s (s.after (streamError p k code)) := by
  have hfire : ∀ {α : Type} {f : State → α} (_ : SkipsEvents f) (t : State),
      f (t.after (fire 32 (p + k * 2 ^ 8 + code * 2 ^ 16))) = f t := fun hf t => keeps_fire hf (by omega) _ t
  have herr : ∀ {g : Fld}, g.addr = BB.STREAM_ERR p → SkipsEvents (State.fld · g) := fun hg =>
    (beside_fld (hg ▸ streamErr_lt p)).skipsEvents
  rw [streamError, after_seq_cons, after_seq_cons, after_seq_cons, after_seq_nil]
  refine ⟨(hfire (herr rfl) _).trans ?_, (hfire (herr rfl) _).trans ?_, fun hon => raised_fire _ _ _ ?_ (by omega),
    hfire skipsEvents_bb _, hfire skipsEvents_mem _, hfire skipsEvents_cores _⟩
  · exact (fld_setFld_self _ (by decide) (by decide) code).trans (Nat.mod_eq_of_lt hcode)
  · refine (keeps_fld_bits (by decide) (by decide) (by decide) (by decide) code _).trans ?_
    exact (fld_setFld_self _ (by decide) (by decide) k.val).trans (Nat.mod_eq_of_lt k.isLt)
  · rw [on_setFld_of_lt _ (streamErr_lt p), on_setFld_of_lt _ (streamErr_lt p), hon]

/-- A refused write leaves STREAM_k as it stands. -/
theorem keeps_streamError {g : Fld} (hg : g.addr = BB.STREAM p k) : Keeps (State.fld · g) (streamError p k code) := by
  have hne : g.addr ≠ BB.STREAM_ERR p := hg ▸ stream_ne_streamErr p k
  exact keeps_seq_cons (fun t => fld_setFld_ne t _ _ _ hne) (keeps_seq_cons (fun t => fld_setFld_ne t _ _ _ hne)
    (keeps_seq_cons ((beside_fld (hg ▸ stream_lt p k)).keeps_fire (by omega) _) (keeps_seq_nil _)))

theorem keeps_flag_streamError : Keeps (State.flag · (BB.STREAM_EN p k)) (streamError p k code) := fun t =>
  congrArg (fun v => decide (v = 1)) (keeps_streamError rfl t)

/-- A refused write is not seen by what sees neither registers nor events. -/
theorem SkipsEvents.keeps_streamError {α : Type} {f : State → α} (hf : SkipsEvents f)
    (hreg : ∀ t k v, f (State.apply t (.reg k v)) = f t) : Keeps f (streamError p k code) :=
  keeps_seq_cons (keeps_setFld hreg _ _) (keeps_seq_cons (keeps_setFld hreg _ _)
    (keeps_seq_cons (keeps_fire hf (by omega) _) (keeps_seq_nil f)))

/-! ### STREAM_k written (R189, R190) -/

/-- Another enabled stream of the port has this channel and mode. -/
def State.streamTaken (s : State) (p k chan mode : Nat) : Bool :=
  (List.range (portStreams p)).any (fun j => j ≠ k && s.flag (BB.STREAM_EN p j) &&
      s.fld (BB.STREAM_CHAN p j) = chan && s.fld (BB.STREAM_MODE p j) = mode)

theorem streamTaken_iff {p k : Nat} : s.streamTaken p k chan mode = true ↔ ∃ j, j < portStreams p ∧ j ≠ k ∧
    s.flag (BB.STREAM_EN p j) = true ∧ s.fld (BB.STREAM_CHAN p j) = chan ∧ s.fld (BB.STREAM_MODE p j) = mode := by
  simp only [State.streamTaken, List.any_eq_true, List.mem_range, Bool.and_eq_true, decide_eq_true_eq, and_assoc]

/-- What enabling a stream that is not enabled does after its channel and mode are stored. -/
def enableVerdict (s : State) (p k chan mode : Nat) : Effect :=
  if !modeOk p mode then streamError p k 2
  else if !validChan p chan then streamError p k 1
  else if s.streamTaken p k chan mode then streamError p k 3
  else setFld (BB.STREAM_EN p k) 1

theorem after_streamWrite_enable (hen : s.flag (BB.STREAM_EN p k) = false) :
    s.after (streamWrite p k true chan mode) = (s.after (storeStream p k chan mode)).after (enableVerdict s p k chan mode) := by
  have hseq : ∀ e, s.after (seq [seq [setFld (BB.STREAM_CHAN p k) chan, setFld (BB.STREAM_MODE p k) mode], e]) =
      (s.after (storeStream p k chan mode)).after e := fun e => by
    rw [after_seq_cons, after_seq_cons, after_seq_nil, storeStream]
  rw [streamWrite, after_ask, hen, enableVerdict]
  unfold State.streamTaken
  simp only [Bool.false_eq_true, if_false, Bool.not_true]
  split
  · exact hseq _
  · split
    · exact hseq _
    · split <;> exact hseq _

theorem after_streamWrite_store (hen : s.flag (BB.STREAM_EN p k) = false) :
    s.after (streamWrite p k false chan mode) = s.after (storeStream p k chan mode) := by
  rw [streamWrite, after_ask, hen]
  rfl

/-- A write to an enabled stream: refused where it changes the channel or the mode, and releasing the lanes where it
disables. -/
theorem after_streamWrite_enabled (en : Bool) (hen : s.flag (BB.STREAM_EN p k) = true) :
    s.after (streamWrite p k en chan mode) =
      (s.after (when (chan ≠ s.fld (BB.STREAM_CHAN p k) || mode ≠ s.fld (BB.STREAM_MODE p k)) (streamError p k 4))).after
        (when (!en) (seq [setFld (BB.STREAM_EN p k) 0, streamRelease p k])) := by
  rw [streamWrite, after_ask, hen]
  dsimp only
  rw [if_pos rfl, after_seq_cons, after_seq_cons, after_seq_nil]

/-- Writes to a stream of the port act while the baseband is ON. -/
theorem answers_streamOn {c : Instr} {e : Effect} {P : State → Prop} (hon : s.on 12 = true) (hk : k.val < portStreams p)
    (hexec : exec c s = run (streamOn p k e) s) (h : P (s.after e)) : Answers c s P :=
  answers_run hexec (by rwa [streamOn, after_when, if_pos (decide_eq_true hk), after_inDomain_on hon])

/-- Past the port's last stream nothing is written. -/
theorem answers_streamOff {c : Instr} {e : Effect} (hk : portStreams p ≤ k.val)
    (hexec : exec c s = run (streamOn p k e) s) : Answers c s (fun t => t = s) :=
  answers_run hexec (by rw [streamOn, after_when, if_neg (by simpa using hk)])

end

section
variable {s : State} {p : Fin 3} {k : Fin 32} {chan : BitVec 7} {mode : BitVec 4} (hon : s.on 12 = true)
  (hk : k.val < portStreams p)
include hon hk

section
variable (hen : s.flag (BB.STREAM_EN p k) = false)
include hen

/-- Enabling, with a code that refuses it: the stream keeps what was written and stays disabled. -/
theorem streamEnable_refused {code : Nat} (hcode : code < 16)
    (h : enableVerdict s p k chan.toNat mode.toNat = streamError p k code) : Answers (.streamEnable p k chan mode) s
      (fun t => t.flag (BB.STREAM_EN p k) = false ∧ (t.fld (BB.STREAM_CHAN p k) = chan.toNat ∧
        t.fld (BB.STREAM_MODE p k) = mode.toNat) ∧ StreamRefused p k code s t) := by
  refine answers_streamOn hon hk rfl ?_
  rw [after_streamWrite_enable hen, h]
  obtain ⟨hchan, hmode⟩ := fld_storeStream s (p := p) (k := k) chan.isLt mode.isLt
  obtain ⟨herr, hstream, hraised, hrest⟩ := streamError_refused (p := p) (k := k)
    (s.after (storeStream p k chan.toNat mode.toNat)) hcode
  have hon2 : (s.after (storeStream p k chan.toNat mode.toNat)).on 2 = s.on 2 := by
    rw [storeStream, after_seq_cons, after_seq_cons, after_seq_nil, on_setFld_of_lt _ (stream_lt p k),
      on_setFld_of_lt _ (stream_lt p k)]
  exact ⟨(keeps_flag_streamError _).trans ((flag_storeStream s).trans hen),
    ⟨(keeps_streamError rfl _).trans hchan, (keeps_streamError rfl _).trans hmode⟩,
    herr, hstream, fun h2 => hraised (hon2.trans h2), hrest⟩

theorem streamEnable_enables (hmode : modeOk p mode.toNat = true) (hchan : validChan p chan.toNat = true)
    (hfree : s.streamTaken p k chan.toNat mode.toNat = false) : Answers (.streamEnable p k chan mode) s
      (fun t => t.flag (BB.STREAM_EN p k) = true ∧ (t.fld (BB.STREAM_CHAN p k) = chan.toNat ∧
        t.fld (BB.STREAM_MODE p k) = mode.toNat) ∧ (t.bb = s.bb ∧ t.mem = s.mem ∧ t.cores = s.cores) ∧ t.evt = s.evt) := by
  have hverdict : enableVerdict s p k chan.toNat mode.toNat = setFld (BB.STREAM_EN p k) 1 := by
    simp [enableVerdict, hmode, hchan, hfree]
  refine answers_streamOn hon hk rfl ?_
  rw [after_streamWrite_enable hen, hverdict]
  obtain ⟨hkchan, hkmode⟩ := fld_setEn (s.after (storeStream p k chan.toNat mode.toNat)) (p := p) (k := k) 1
  obtain ⟨hstored, hstoredMode⟩ := fld_storeStream s (p := p) (k := k) chan.isLt mode.isLt
  have hrest : ∀ {α : Type} {f : State → α} (_ : ∀ t k v, f (State.apply t (.reg k v)) = f t),
      f ((s.after (storeStream p k chan.toNat mode.toNat)).after (setFld (BB.STREAM_EN p k) 1)) = f s := fun h =>
    (keeps_setFld h _ _ _).trans (keeps_storeStream h _ _ _ _ s)
  exact ⟨flag_setFld_self _ _ 31 1 (by decide), ⟨hkchan.trans hstored, hkmode.trans hstoredMode⟩,
    ⟨hrest fun _ _ _ => rfl, hrest fun _ _ _ => rfl, hrest fun _ _ _ => rfl⟩, hrest fun _ _ _ => rfl⟩

theorem streamDisable_stores : Answers (.streamDisable p k chan mode) s
    (fun t => t.flag (BB.STREAM_EN p k) = false ∧ (t.fld (BB.STREAM_CHAN p k) = chan.toNat ∧
      t.fld (BB.STREAM_MODE p k) = mode.toNat) ∧ t.bb = s.bb ∧ t.mem = s.mem ∧ t.cores = s.cores) := by
  refine answers_streamOn hon hk rfl ?_
  rw [after_streamWrite_store hen]
  exact ⟨(flag_storeStream s).trans hen, fld_storeStream s chan.isLt mode.isLt,
    keeps_storeStream (fun _ _ _ => rfl) _ _ _ _ s, keeps_storeStream (fun _ _ _ => rfl) _ _ _ _ s,
    keeps_storeStream (fun _ _ _ => rfl) _ _ _ _ s⟩

end

/-! ### Disabling a stream (R190) -/

end

/-- A lane that its stream releases: FREE if it searched or was in SYNC. -/
def Lane.released (l : Lane) : Lane := match l.run with
  | .search => { l with run := .free, stream := none, paused := false }
  | .sync => { l with run := .free, stream := none, paused := false, frame := none }
  | _ => l

/-- What STREAM_k's disabling does at one of its lanes. -/
def releaseLane (n : Nat) : Effect := ask fun s => match (s.lane n).run with
  | .search => setLane n fun l => { l with run := .free, stream := none, paused := false }
  | .sync => seq [dropFrame n, setLane n fun l => { l with run := .free, stream := none, paused := false }]
  | _ => nothing

theorem streamRelease_eq (p k : Nat) : streamRelease p k = ask fun s => forEach (s.streamLanes p k) releaseLane := rfl

theorem lane_releaseLane (s : State) (n : Nat) : (s.after (releaseLane n)).lane n = (s.lane n).released := by
  rw [releaseLane, after_ask, Lane.released]
  cases h : (s.lane n).run
  case search => exact lane_setLane_self s n _
  case sync =>
    dsimp only
    rw [after_seq_cons, after_seq_cons, after_seq_nil, lane_setLane_self, lane_dropFrame]
  all_goals rfl

theorem onlyLane_releaseLane (n : Nat) : OnlyLane n (releaseLane n) := fun m hm => by
  refine keeps_ask fun s => ?_
  split
  · exact keeps_lane_setLane hm _
  · exact keeps_seq_cons (onlyLane_dropFrame n m hm) (keeps_seq_cons (keeps_lane_setLane hm _) (keeps_seq_nil _))
  · exact keeps_nothing _

/-- Releasing a stream's lanes is not seen by what sees neither lanes nor traffic. -/
theorem SkipsTraffic.keeps_streamRelease {α : Type} {f : State → α} (hf : SkipsTraffic f)
    (hl : ∀ n g, Keeps f (setLane n g)) (p k : Nat) : Keeps f (streamRelease p k) := by
  rw [streamRelease_eq]
  refine keeps_ask fun s => keeps_forEach fun n _ => keeps_ask fun u => ?_
  split
  · exact hl n _
  · exact keeps_seq_cons (hf.keeps_dropFrame (hl n)) (keeps_seq_cons (hl n _) (keeps_seq_nil _))
  · exact keeps_nothing _

/-- The stream's lanes are released, and no other. -/
theorem lane_streamRelease (s : State) (p k : Nat) {m : Nat} (hm : m < 96) : (s.after (streamRelease p k)).lane m =
    if s.laneOn p k m then (s.lane m).released else s.lane m := by
  rw [streamRelease_eq, after_ask]
  split
  case isTrue h =>
    obtain ⟨u, hu, hafter⟩ := lane_forEach onlyLane_releaseLane (nodup_streamLanes s p k) (mem_streamLanes.2 ⟨hm, h⟩) s
    rw [hafter, lane_releaseLane, hu]
  case isFalse h => exact lane_forEach_of_notMem onlyLane_releaseLane (fun hmem => h (mem_streamLanes.1 hmem).2) s

section
variable {s : State} {p : Fin 3} {k : Fin 32} {chan : BitVec 7} {mode : BitVec 4} (hon : s.on 12 = true)
  (hk : k.val < portStreams p) (hen : s.flag (BB.STREAM_EN p k) = true)
include hon hk hen

/-- A write that changes an enabled stream's channel or mode is refused. -/
theorem streamEnable_keeps (hdiff : ¬(s.fld (BB.STREAM_CHAN p k) = chan.toNat ∧ s.fld (BB.STREAM_MODE p k) = mode.toNat)) :
    Answers (.streamEnable p k chan mode) s (fun t => t.flag (BB.STREAM_EN p k) = true ∧
      (t.fld (BB.STREAM_CHAN p k) = s.fld (BB.STREAM_CHAN p k) ∧ t.fld (BB.STREAM_MODE p k) = s.fld (BB.STREAM_MODE p k)) ∧
      StreamRefused p k 4 s t) := by
  have hchanged : (chan.toNat ≠ s.fld (BB.STREAM_CHAN p k) || mode.toNat ≠ s.fld (BB.STREAM_MODE p k)) = true := by
    rw [Bool.or_eq_true, decide_eq_true_eq, decide_eq_true_eq]
    by_contra h
    rw [not_or, not_not, not_not] at h
    exact hdiff ⟨h.1.symm, h.2.symm⟩
  refine answers_streamOn hon hk rfl ?_
  rw [after_streamWrite_enabled true hen, hchanged, Bool.not_true, after_when _ false, if_neg Bool.false_ne_true,
    after_when, if_pos rfl]
  exact ⟨(keeps_flag_streamError s).trans hen, ⟨keeps_streamError rfl s, keeps_streamError rfl s⟩,
    streamError_refused s (by norm_num)⟩

/-- A write of what an enabled stream holds changes nothing. -/
theorem streamEnable_same (hsame : s.fld (BB.STREAM_CHAN p k) = chan.toNat ∧ s.fld (BB.STREAM_MODE p k) = mode.toNat) :
    Answers (.streamEnable p k chan mode) s (fun t => t = s) := by
  refine answers_streamOn hon hk rfl ?_
  rw [after_streamWrite_enabled true hen, hsame.1, hsame.2]
  simp

/-- An enabled stream that is disabled keeps its channel and mode, and releases its lanes. -/
theorem streamDisable_releases : Answers (.streamDisable p k chan mode) s (fun t => t.flag (BB.STREAM_EN p k) = false ∧
    (t.fld (BB.STREAM_CHAN p k) = s.fld (BB.STREAM_CHAN p k) ∧ t.fld (BB.STREAM_MODE p k) = s.fld (BB.STREAM_MODE p k)) ∧
    ∀ m < 96, t.lane m = if s.laneOn p k m then (s.lane m).released else s.lane m) := by
  refine answers_streamOn hon hk rfl ?_
  have hrelease : ∀ {g : Fld}, g.addr = BB.STREAM p k → Keeps (State.fld · g) (streamRelease p k) := fun hg =>
    (beside_fld (hg ▸ stream_lt p k)).skipsTraffic.keeps_streamRelease (fun _ _ _ => rfl) p k
  rw [after_streamWrite_enabled false hen, Bool.not_false, after_when _ true, if_pos rfl, after_seq_cons, after_seq_cons,
    after_seq_nil]
  generalize hu : s.after (when _ (streamError p k 4)) = u
  have hkept : ∀ {g : Fld}, g.addr = BB.STREAM p k → u.fld g = s.fld g := fun hg =>
    hu ▸ keeps_when (keeps_streamError hg) s
  have hlane : ∀ m, (u.after (setFld (BB.STREAM_EN p k) 0)).lane m = s.lane m := fun m =>
    (keeps_setFld (f := (State.lane · m)) (fun _ _ _ => rfl) _ _ u).trans
      (hu ▸ keeps_when ((skipsTraffic_lane m).skipsEvents.keeps_streamError fun _ _ _ => rfl) s)
  obtain ⟨hchan, hmode⟩ := fld_setEn u (p := p) (k := k) 0
  refine ⟨(congrArg (fun v => decide (v = 1)) (hrelease rfl _)).trans (flag_setFld_self u _ 31 0 (by decide)),
    ⟨(hrelease rfl _).trans (hchan.trans (hkept rfl)), (hrelease rfl _).trans (hmode.trans (hkept rfl))⟩, fun m hm => ?_⟩
  rw [lane_streamRelease _ _ _ hm, State.laneOn, hlane]
  rfl

end

end Sys2Proof.Machine
end

section
/-!
PROOFS: the allocator of receive lanes, and the statement on streams (O24).
-/
namespace Sys2Proof.Machine

open Sys2Proof

/-! ### What LANE_ATTACH looks for (R193) -/

/-- The enabled streams of a port without a lane, and those without a searcher that may take another. -/
def State.bareStreams (s : State) (p : Nat) : List Nat :=
  ((List.range (portStreams p)).filter (fun k => s.flag (BB.STREAM_EN p k))).filter (fun k => (s.streamLanes p k).isEmpty)
def State.lackingStreams (s : State) (p : Nat) : List Nat :=
  ((List.range (portStreams p)).filter (fun k => s.flag (BB.STREAM_EN p k))).filter
    (fun k => (s.searchers p k).isEmpty && decide ((s.streamLanes p k).length < 4))

/-- A port's FREE lanes. -/
def State.freeLanes (s : State) (p : Nat) : List Nat := (lanesOf p).filter (fun n => (s.lane n).run = .free)

/-- The streams that hold a lane again have ended their period without one. -/
def endPeriods (p : Nat) (bare : List Nat) : Effect := fun s =>
  [.bb { s.bb with noSearch := s.bb.noSearch.filter (fun x => x / 32 ≠ p || bare.contains (x % 32)) }]

/-- A stream's period without a lane is over. -/
def endPeriod (p k : Nat) : Effect := fun s => [.bb { s.bb with noSearch := s.bb.noSearch.filter (· ≠ p * 32 + k) }]

/-- Lane `n` searches for stream `k`. -/
def attachLane (p k n : Nat) (paused : Bool) : Effect := seq [yieldUnit 0 n,
  setLane n fun l => { l with run := .search, stream := some k, paused := paused }, endPeriod p k]

/-- A stream's period without a lane begins, and is reported. -/
def reportBare (p k : Nat) : Effect := seq [fire 33 (p + k * 2 ^ 8),
  fun s => [.bb { s.bb with noSearch := s.bb.noSearch ++ [p * 32 + k] }]]

section
variable {s : State} {p : Fin 3}

theorem mem_bareStreams {j : Nat} : j ∈ s.bareStreams p ↔
    j < portStreams p ∧ s.flag (BB.STREAM_EN p j) = true ∧ s.streamLanes p j = [] := by
  rw [State.bareStreams, List.mem_filter, List.mem_filter, List.mem_range, List.isEmpty_iff, and_assoc]

theorem mem_lackingStreams {j : Nat} : j ∈ s.lackingStreams p ↔
    j < portStreams p ∧ s.flag (BB.STREAM_EN p j) = true ∧ s.searchers p j = [] ∧ (s.streamLanes p j).length < 4 := by
  rw [State.lackingStreams, List.mem_filter, List.mem_filter, List.mem_range, Bool.and_eq_true, List.isEmpty_iff,
    decide_eq_true_eq, and_assoc]

theorem mem_freeLanes {n : Nat} : n ∈ s.freeLanes p ↔
    ((portLanes p).1 ≤ n ∧ n < (portLanes p).2) ∧ (s.lane n).run = .free := by
  rw [State.freeLanes, List.mem_filter, mem_lanesOf, decide_eq_true_eq]

/-- The head of a rising list is its least element. -/
theorem head?_of_least {l : List Nat} (hl : l.Pairwise (· < ·)) {j : Nat} (hj : j ∈ l) (hmin : ∀ i ∈ l, j ≤ i) :
    l.head? = some j := by
  cases l with
  | nil => exact absurd hj List.not_mem_nil
  | cons x l =>
    have hx := hmin x (List.mem_cons_self ..)
    rcases List.mem_cons.1 hj with rfl | hmem
    · rfl
    · have := (List.pairwise_cons.1 hl).1 j hmem
      omega

theorem pairwise_bareStreams : (s.bareStreams p).Pairwise (· < ·) := (List.pairwise_lt_range.filter _).filter _

theorem pairwise_lackingStreams : (s.lackingStreams p).Pairwise (· < ·) := (List.pairwise_lt_range.filter _).filter _

/-- The allocator while no lane is under test: it serves the first stream in need. -/
theorem after_laneAttach (hon : s.on 12 = true) (hserve : ∀ u, s.inSlice 0 u = false) :
    ∃ e : Effect, exec (.laneAttach p) s = run e s ∧ s.after e = (s.after (endPeriods p (s.bareStreams p))).after
      (match (s.bareStreams p ++ s.lackingStreams p).head? with
        | none => nothing
        | some k => withFree 8 fun f => match (s.freeLanes p)[f % max (s.freeLanes p).length 1]? with
          | some n => attachLane p k n (s.bb.blanked.contains p)
          | none => forEach ((s.bareStreams p).filter (fun k => !s.bb.noSearch.contains (p * 32 + k))) (reportBare p)) := by
  refine ⟨_, rfl, (after_inDomain_on hon _).trans ?_⟩
  have hfilter : ∀ l : List Nat, l.filter (fun n => !s.inSlice 0 n) = l := fun l =>
    List.filter_eq_self.2 fun n _ => by rw [hserve]; rfl
  have hallot : ∀ l : List Nat, l.isEmpty = true → (s.allot 0 l).toList = l := fun l hl => by
    rw [List.isEmpty_iff.1 hl]
    rfl
  rw [after_ask]
  simp only [hfilter]
  have hfree : ∀ l : List Nat, (if l.isEmpty = true then (s.allot 0 l).toList else l) = l := fun l => by
    split
    · exact hallot l ‹_›
    · rfl
  simp only [hfree]
  rw [after_seq_cons, after_seq_cons, after_seq_nil]
  rfl

/-- No slice runs on a unit in service, so none yields, whatever runs elsewhere. -/
theorem after_yieldUnit_of_notInSlice {c u : Nat} (h : s.inSlice c u = false) : s.after (yieldUnit c u) = s := by
  have hnone : s.ist.running.find? (fun x => x.cls = c && x.unit = u && !x.forced) = none := by
    rw [State.inSlice, Bool.or_eq_false_iff, List.any_eq_false] at h
    exact List.find?_eq_none.2 fun x hx hslice => h.1 x hx (Bool.and_eq_true _ _ ▸ hslice).1
  rw [yieldUnit, after_ask, hnone]
  rfl

/-- A lane attached is the only one that differs. -/
theorem attachLane_attaches {p k n : Nat} (paused : Bool) (h : s.inSlice 0 n = false) :
    LaneIs n { s.lane n with run := .search, stream := some k, paused := paused } s (s.after (attachLane p k n paused)) ∧
      (s.after (attachLane p k n paused)).regs = s.regs ∧ (s.after (attachLane p k n paused)).mem = s.mem ∧
      (s.after (attachLane p k n paused)).cores = s.cores := by
  have hend : ∀ (t : State) m, (t.after (endPeriod p k)).lane m = t.lane m := fun _ _ => rfl
  rw [attachLane, after_seq_cons, after_seq_cons, after_seq_cons, after_seq_nil, after_yieldUnit_of_notInSlice h]
  exact ⟨⟨(hend _ n).trans (lane_setLane_self ..), fun m hm => (hend _ m).trans (keeps_lane_setLane hm _ s)⟩, rfl, rfl, rfl⟩

/-- A FREE lane, if the port has one, is attached to the stream served. -/
theorem laneAttach_attaches (hon : s.on 12 = true) (hserve : ∀ u, s.inSlice 0 u = false) {j : Nat}
    (hhead : (s.bareStreams p ++ s.lackingStreams p).head? = some j) (hfree : s.freeLanes p ≠ []) :
    Answers (.laneAttach p) s (fun t => ∃ n, (portLanes p).1 ≤ n ∧ n < (portLanes p).2 ∧ (s.lane n).run = .free ∧
      LaneIs n { s.lane n with run := .search, stream := some j, paused := s.bb.blanked.contains p.val } s t ∧
      t.regs = s.regs ∧ t.mem = s.mem ∧ t.cores = s.cores) := by
  obtain ⟨e, hexec, hafter⟩ := after_laneAttach (p := p) hon hserve
  obtain ⟨u, hu, hlane, hinSlice, hregs, hmem, hcores⟩ : ∃ u : State,
      s.after (endPeriods p (s.bareStreams p)) = u ∧ (∀ m, u.lane m = s.lane m) ∧ (∀ c m, u.inSlice c m = s.inSlice c m) ∧
        u.regs = s.regs ∧ u.mem = s.mem ∧ u.cores = s.cores :=
    ⟨_, rfl, fun _ => rfl, fun _ _ => rfl, rfl, rfl, rfl⟩
  have hi : u.free 8 % max (s.freeLanes p).length 1 < (s.freeLanes p).length := by
    have hpos := List.length_pos_iff.2 hfree
    rw [Nat.max_eq_left hpos]
    exact Nat.mod_lt _ hpos
  obtain ⟨⟨hlo, hhi⟩, hrun⟩ := mem_freeLanes.1 (List.getElem_mem hi)
  refine answers_run hexec ⟨_, hlo, hhi, hrun, ?_⟩
  rw [hafter, hu, hhead]
  dsimp only
  rw [withFree, after_ask, List.getElem?_eq_getElem hi]
  generalize (s.freeLanes p)[u.free 8 % max (s.freeLanes p).length 1] = n
  dsimp only
  rw [after_seq_cons, after_seq_cons, after_seq_nil, after_changes, applyAll_cons, applyAll_nil]
  obtain ⟨⟨hself, hothers⟩, hregs', hmem', hcores'⟩ := attachLane_attaches (s := u.apply .draw) (p := p) (k := j)
    (s.bb.blanked.contains p.val) ((hinSlice 0 n).trans (hserve n))
  refine ⟨⟨hself.trans ?_, fun m hm => (hothers m hm).trans (hlane m)⟩, hregs'.trans hregs, hmem'.trans hmem,
    hcores'.trans hcores⟩
  exact congrArg (fun l : Lane => { l with run := .search, stream := some j, paused := s.bb.blanked.contains p.val }) (hlane n)

/-- A stream's period without a lane, once reported, stays. -/
theorem noSearch_reports (l : List Nat) (s : State) (x : Nat) (h : s.bb.noSearch.contains x = true ∨ ∃ k ∈ l, x = p * 32 + k) :
    (s.after (forEach l (reportBare p))).bb.noSearch.contains x = true := by
  induction l generalizing s with
  | nil => exact h.resolve_right (by simp)
  | cons k l ih =>
    have hreport : (s.after (reportBare p k)).bb.noSearch = s.bb.noSearch ++ [p * 32 + k] := by
      rw [reportBare, after_seq_cons, after_seq_cons, after_seq_nil]
      exact congrArg (fun b : Bb => b.noSearch ++ [p * 32 + k]) (keeps_fire skipsEvents_bb (by omega) _ s)
    rw [after_forEach_cons]
    refine ih _ ?_
    rw [hreport, List.contains_iff_mem, List.mem_append]
    rcases h with h | ⟨i, hi, rfl⟩
    · exact .inl (.inl (List.contains_iff_mem.1 h))
    · rcases List.mem_cons.1 hi with rfl | hi
      · exact .inl (.inr (List.mem_singleton.2 rfl))
      · exact .inr ⟨i, hi, rfl⟩

/-- A report is seen by what sees the streams' periods or the events alone. -/
theorem SkipsEvents.keeps_reportBare {α : Type} {f : State → α} (hf : SkipsEvents f)
    (hbb : ∀ (t : State) l, f (t.apply (.bb { t.bb with noSearch := l })) = f t) (k : Nat) : Keeps f (reportBare p k) :=
  keeps_seq_cons (keeps_fire hf (by omega) _) (keeps_seq_cons (fun t => hbb t _) (keeps_seq_nil f))

/-- Where no lane is FREE the bare streams are reported. -/
theorem laneAttach_reports (hon : s.on 12 = true) (hserve : ∀ u, s.inSlice 0 u = false) {j : Nat}
    (hj : j ∈ s.bareStreams p) (hfree : s.freeLanes p = []) : Answers (.laneAttach p) s (fun t =>
      t.bb.lanes = s.bb.lanes ∧ t.bb.noSearch.contains (p * 32 + j) = true ∧ t.mem = s.mem ∧ t.cores = s.cores) := by
  obtain ⟨e, hexec, hafter⟩ := after_laneAttach (p := p) hon hserve
  obtain ⟨hlt, -, -⟩ := mem_bareStreams.1 hj
  have hj32 : j < 32 := hlt.trans_le (by rw [portStreams]; split <;> omega)
  obtain ⟨i, hhead⟩ : ∃ i, (s.bareStreams p ++ s.lackingStreams p).head? = some i :=
    Option.isSome_iff_exists.1 (List.isSome_head?.2 fun h => by
      rw [(List.append_eq_nil_iff.1 h).1] at hj
      exact absurd hj List.not_mem_nil)
  obtain ⟨u, hu, hlanes, hnoSearch, hmem, hcores⟩ : ∃ u : State, (s.after (endPeriods p (s.bareStreams p))).apply .draw = u ∧
      u.bb.lanes = s.bb.lanes ∧ u.bb.noSearch =
        s.bb.noSearch.filter (fun x => x / 32 ≠ p.val || (s.bareStreams p).contains (x % 32)) ∧
      u.mem = s.mem ∧ u.cores = s.cores := ⟨_, rfl, rfl, rfl, rfl, rfl⟩
  refine answers_run hexec ?_
  rw [hafter, hhead]
  dsimp only
  rw [withFree, after_ask, hfree, List.getElem?_nil]
  dsimp only
  rw [after_seq_cons, after_seq_cons, after_seq_nil, after_changes, applyAll_cons, applyAll_nil, hu]
  have hkeeps : ∀ {α : Type} {f : State → α}, SkipsEvents f → (∀ (t : State) l, f (t.apply (.bb { t.bb with noSearch := l })) = f t) →
      ∀ l, f (u.after (forEach l (reportBare p))) = f u := fun hf hbb l =>
    keeps_forEach (fun k _ => hf.keeps_reportBare hbb k) u
  refine ⟨(hkeeps (f := fun t => t.bb.lanes) ⟨fun _ _ _ _ => rfl, fun _ _ => rfl, fun _ _ => rfl⟩ (fun _ _ => rfl) _).trans hlanes,
    noSearch_reports _ _ _ ?_, (hkeeps skipsEvents_mem (fun _ _ => rfl) _).trans hmem,
    (hkeeps skipsEvents_cores (fun _ _ => rfl) _).trans hcores⟩
  by_cases hold : s.bb.noSearch.contains (p * 32 + j) = true
  · left
    rw [hnoSearch, List.contains_iff_mem, List.mem_filter]
    refine ⟨List.contains_iff_mem.1 hold, ?_⟩
    rw [show (p.val * 32 + j) % 32 = j by omega, List.contains_iff_mem.2 hj, Bool.or_true]
  · exact .inr ⟨j, List.mem_filter.2 ⟨hj, by simpa using hold⟩, rfl⟩

end

/-! ### The statement -/

/-- Settles O24: a write of STREAM_k comes down to what is stored and one verdict; the allocator serves the first stream in
need. -/
theorem streamControl : Obligations.StreamControl := by
  unfold Obligations.StreamControl
  intro p k chan mode s hon
  refine ⟨fun hk => ⟨fun hen => ?disabled, fun hen => ⟨fun hdiff => streamEnable_keeps hon hk hen hdiff,
    fun hsame => streamEnable_same hon hk hen hsame, streamDisable_releases hon hk hen⟩⟩,
    fun hk => ⟨answers_streamOff hk rfl, answers_streamOff hk rfl⟩, fun hserve => ⟨fun j hfree => ?served, fun j hj hfree => ?none⟩⟩
  case disabled =>
    have hen : s.flag (BB.STREAM_EN p k) = false := by simpa using hen
    refine ⟨fun hmode hchan hfree => streamEnable_enables hon hk hen hmode hchan ?_,
      fun hmode _ => streamEnable_refused hon hk hen (by norm_num) (by simp [enableVerdict, hmode]),
      fun hmode hchan => streamEnable_refused hon hk hen (by norm_num) (by simp [enableVerdict, hmode, hchan]),
      fun hmode hchan hdup => streamEnable_refused hon hk hen (by norm_num) ?_, streamDisable_stores hon hk hen⟩
    · rw [Bool.eq_false_iff]
      exact fun h => hfree (streamTaken_iff.1 h)
    · simp [enableVerdict, hmode, hchan, streamTaken_iff.2 hdup]
  case served =>
    obtain ⟨n, hlo, hhi, hrun⟩ := hfree
    have hne : s.freeLanes p ≠ [] := List.ne_nil_of_mem (mem_freeLanes.2 ⟨⟨hlo, hhi⟩, hrun⟩)
    refine ⟨fun hj hmin => laneAttach_attaches hon hserve ?_ hne, fun hj hnone hmin => laneAttach_attaches hon hserve ?_ hne⟩
    · rw [List.head?_append, head?_of_least pairwise_bareStreams (mem_bareStreams.2 hj) fun i hi => hmin i (mem_bareStreams.1 hi)]
      rfl
    · rw [List.eq_nil_iff_forall_not_mem.2 fun i hi => hnone i (mem_bareStreams.1 hi), List.nil_append]
      exact head?_of_least pairwise_lackingStreams (mem_lackingStreams.2 hj) fun i hi => hmin i (mem_lackingStreams.1 hi)
  case none =>
    refine laneAttach_reports hon hserve (mem_bareStreams.2 hj) ?_
    exact List.eq_nil_iff_forall_not_mem.2 fun n hn =>
      hfree n (mem_freeLanes.1 hn).1.1 (mem_freeLanes.1 hn).1.2 (mem_freeLanes.1 hn).2

end Sys2Proof.Machine
end

section
/-!
PROOFS: receivers blanked and resumed, a lane's fault, and listen windows opened and closed (O27).
-/
namespace Sys2Proof.Machine

open Sys2Proof

/-! ### Blanking (R199) -/

/-- What a blank does at one lane of its port: a searcher pauses, a frame being received is abandoned. -/
def blankLane (p n : Nat) : Effect := ask fun s => match (s.lane n).run with
  | .search => setLane n (fun l => { l with paused := true })
  | .sync => seq [count (BB.COUNT_HI p 5), abandon n, setLane n (fun l => { l with paused := l.run = .search })]
  | .receive => seq [count (BB.COUNT_HI p 5), abandon n, setLane n (fun l => { l with paused := l.run = .search })]
  | _ => nothing

/-- What the end of a blank does at one lane. -/
def unblankLane (n : Nat) : Effect := ask fun s => when (s.lane n).paused (setLane n (fun l => { l with paused := false }))

theorem blank_eq (p : Nat) : blank p = ask fun s => when (!s.bb.blanked.contains p) (seq [
    fun s => [.bb { s.bb with blanked := s.bb.blanked ++ [p] }], forEach (lanesOf p) (blankLane p)]) := rfl

theorem unblank_eq (p : Nat) : unblank p = seq [fun s => [.bb { s.bb with blanked := s.bb.blanked.filter (· ≠ p) }],
    forEach (lanesOf p) unblankLane] := rfl

/-- A blank at a lane is not seen by what sees neither it nor traffic nor registers. -/
theorem keeps_blankLane {α : Type} {f : State → α} {n : Nat} (hf : SkipsTraffic f)
    (hreg : ∀ t k v, f (State.apply t (.reg k v)) = f t) (hl : ∀ g, Keeps f (setLane n g)) (p : Nat) :
    Keeps f (blankLane p n) := by
  have habandon : Keeps f (seq [count (BB.COUNT_HI p 5), abandon n, setLane n (fun l => { l with paused := l.run = .search })]) :=
    keeps_seq_cons (keeps_count hreg _) (keeps_seq_cons (hf.keeps_abandon hl) (keeps_seq_cons (hl _) (keeps_seq_nil f)))
  refine keeps_ask fun s => ?_
  split
  · exact hl _
  · exact habandon
  · exact habandon
  · exact keeps_nothing f

theorem onlyLane_blankLane (p n : Nat) : OnlyLane n (blankLane p n) := fun m hm =>
  keeps_blankLane (skipsTraffic_lane m) (fun _ _ _ => rfl) (keeps_lane_setLane hm) p

theorem onlyLane_unblankLane (n : Nat) : OnlyLane n (unblankLane n) := fun _ hm =>
  keeps_ask fun _ => keeps_when (keeps_lane_setLane hm _)

theorem lane_blankLane_search {s : State} {n : Nat} (p : Nat) (h : (s.lane n).run = .search) :
    (s.after (blankLane p n)).lane n = { s.lane n with paused := true } := by
  rw [blankLane, after_ask, h]
  exact lane_setLane_self s n _

/-- A lane that receives loses its frame, and a search it goes on to is paused. -/
theorem lane_blankLane_receives {s : State} {n : Nat} (p : Nat) (h : (s.lane n).run = .sync ∨ (s.lane n).run = .receive) :
    ((s.after (blankLane p n)).lane n).frame = none ∧
      (((s.after (blankLane p n)).lane n).run = .search → ((s.after (blankLane p n)).lane n).paused = true) := by
  have hblank : s.after (blankLane p n) = ((s.after (count (BB.COUNT_HI p 5))).after (abandon n)).after
      (setLane n (fun l => { l with paused := l.run = .search })) := by
    rw [blankLane, after_ask]
    rcases h with h | h <;> rw [h] <;> dsimp only <;>
      rw [after_seq_cons, after_seq_cons, after_seq_cons, after_seq_nil]
  rw [hblank, lane_setLane_self]
  exact ⟨frame_abandon _ n, fun hrun => decide_eq_true hrun⟩

theorem lane_unblankLane (s : State) (n : Nat) : (s.after (unblankLane n)).lane n = { s.lane n with paused := false } := by
  rw [unblankLane, after_ask, after_when]
  split
  case isTrue => exact lane_setLane_self s n _
  case isFalse h =>
    rw [← Bool.eq_false_iff.2 h]

/-- Lanes that resume change the baseband alone. -/
theorem after_forEach_unblankLane (l : List Nat) (s : State) :
    s.after (forEach l unblankLane) = { s with bb := (s.after (forEach l unblankLane)).bb } := by
  induction l generalizing s with
  | nil => rfl
  | cons n l ih =>
    have hlane : s.after (unblankLane n) = { s with bb := (s.after (unblankLane n)).bb } := by
      rw [unblankLane, after_ask, after_when]
      split <;> rfl
    rw [after_forEach_cons]
    refine (ih _).trans ?_
    generalize ((s.after (unblankLane n)).after (forEach l unblankLane)).bb = b
    rw [hlane]

section
variable {s : State} {p : Fin 3} (hon : s.on 12 = true)
include hon

theorem rxBlankStart_blanks (hmust : s.mustBlank p = true) (hnew : s.bb.blanked.contains p.val = false) :
    Answers (.rxBlankStart p) s (fun t => t.bb.blanked = s.bb.blanked ++ [p.val] ∧ ∀ m,
      ((portLanes p).1 ≤ m ∧ m < (portLanes p).2 → (s.lane m).run = .search → t.lane m = { s.lane m with paused := true }) ∧
      ((portLanes p).1 ≤ m ∧ m < (portLanes p).2 → (s.lane m).run = .sync ∨ (s.lane m).run = .receive →
        (t.lane m).frame = none ∧ ((t.lane m).run = .search → (t.lane m).paused = true)) ∧
      (¬((portLanes p).1 ≤ m ∧ m < (portLanes p).2) → t.lane m = s.lane m)) := by
  obtain ⟨u, hu, hlane, hblanked⟩ : ∃ u : State,
      s.after (fun s => [.bb { s.bb with blanked := s.bb.blanked ++ [p.val] }]) = u ∧ (∀ m, u.lane m = s.lane m) ∧
        u.bb.blanked = s.bb.blanked ++ [p.val] := ⟨_, rfl, fun _ => rfl, rfl⟩
  refine answers_inDomain hon rfl ?_
  rw [after_ask, hmust, after_when, if_pos rfl, blank_eq, after_ask, hnew, Bool.not_false, after_when, if_pos rfl,
    after_seq_cons, after_seq_cons, after_seq_nil, hu]
  have hkept : Keeps (fun t => t.bb.blanked) (forEach (lanesOf p) (blankLane p)) := keeps_forEach fun n _ =>
    keeps_blankLane (by constructor <;> intros <;> rfl) (fun _ _ _ => rfl) (fun _ _ => rfl) p
  refine ⟨(hkept u).trans hblanked, fun m => ⟨fun hport hrun => ?_, fun hport hrun => ?_, fun hport => ?_⟩⟩
  · obtain ⟨v, hv, hafter⟩ := lane_forEach (onlyLane_blankLane p) (nodup_lanesOf p) (mem_lanesOf.2 hport) u
    rw [hlane] at hv
    rw [hafter, lane_blankLane_search _ (hv ▸ hrun), hv]
  · obtain ⟨v, hv, hafter⟩ := lane_forEach (onlyLane_blankLane p) (nodup_lanesOf p) (mem_lanesOf.2 hport) u
    rw [hlane] at hv
    rw [hafter]
    exact lane_blankLane_receives _ (hv ▸ hrun)
  · exact (lane_forEach_of_notMem (onlyLane_blankLane p) (fun h => hport (mem_lanesOf.1 h)) u).trans (hlane m)

theorem rxBlankEnd_resumes (hmust : s.mustBlank p = false) : Answers (.rxBlankEnd p) s (fun t => t = { s with bb := t.bb } ∧
    t.bb.blanked.contains p.val = false ∧ ∀ m,
      ((portLanes p).1 ≤ m ∧ m < (portLanes p).2 → t.lane m = { s.lane m with paused := false }) ∧
      (¬((portLanes p).1 ≤ m ∧ m < (portLanes p).2) → t.lane m = s.lane m)) := by
  obtain ⟨u, hu, hbb, hlane, hblanked⟩ : ∃ u : State,
      s.after (fun s => [.bb { s.bb with blanked := s.bb.blanked.filter (· ≠ p.val) }]) = u ∧ u = { s with bb := u.bb } ∧
        (∀ m, u.lane m = s.lane m) ∧ u.bb.blanked = s.bb.blanked.filter (· ≠ p.val) := ⟨_, rfl, rfl, fun _ => rfl, rfl⟩
  refine answers_inDomain hon rfl ?_
  rw [after_ask, hmust, Bool.not_false, after_when, if_pos rfl, unblank_eq, after_seq_cons, after_seq_cons, after_seq_nil, hu]
  have hkept : Keeps (fun t => t.bb.blanked) (forEach (lanesOf p) unblankLane) := keeps_forEach fun n _ =>
    keeps_ask fun _ => keeps_when fun _ => rfl
  refine ⟨?_, ?_, fun m => ⟨fun hport => ?_, fun hport => ?_⟩⟩
  · rw [after_forEach_unblankLane]
    generalize (u.after (forEach (lanesOf p) unblankLane)).bb = b
    rw [hbb]
  · have hb : (u.after (forEach (lanesOf p) unblankLane)).bb.blanked = s.bb.blanked.filter (· ≠ p.val) :=
      (hkept u).trans hblanked
    rw [Bool.eq_false_iff, Ne, List.contains_iff_mem, hb]
    exact fun h => by simpa using (List.mem_filter.1 h).2
  · obtain ⟨v, hv, hafter⟩ := lane_forEach onlyLane_unblankLane (nodup_lanesOf p) (mem_lanesOf.2 hport) u
    rw [hafter, lane_unblankLane, hv, hlane]
  · exact (lane_forEach_of_notMem onlyLane_unblankLane (fun h => hport (mem_lanesOf.1 h)) u).trans (hlane m)

end

/-! ### Parity errors and failed checks (R191, R216) -/

/-- A lane of a bank with a parity error abandons what it receives. -/
def spoilLane (n : Nat) : Effect := ask fun s =>
  when ((s.lane n).run = .sync || (s.lane n).run = .receive) (abandon n)

theorem onlyLane_spoilLane (n : Nat) : OnlyLane n (spoilLane n) := fun m hm =>
  keeps_ask fun _ => keeps_when (onlyLane_abandon n m hm)

theorem frame_spoilLane {s : State} {n : Nat} (h : (s.lane n).run = .sync ∨ (s.lane n).run = .receive) :
    ((s.after (spoilLane n)).lane n).frame = none := by
  rw [spoilLane, after_ask, after_when, if_pos (by simpa using h)]
  exact frame_abandon s n

theorem lane_fire (s : State) (m : Nat) {n : Nat} (hn : n < 96) (arg : Nat) : (s.after (fire n arg)).lane m = s.lane m :=
  (skipsTraffic_lane m).keeps_fire hn arg s

section
variable {s : State} {p : Fin 3} (hon : s.on 12 = true)
include hon

theorem sampleParityError_spoils {k : Fin 32} (hk : k.val < portStreams p) (hon2 : s.on 2 = true) :
    Answers (.sampleParityError p k) s (fun t => t.raised 38 (p + k * 2 ^ 8) ∧ ∀ m < 96,
      (s.laneOn p k m = true → (s.lane m).run = .sync ∨ (s.lane m).run = .receive → (t.lane m).frame = none) ∧
      (s.laneOn p k m = false → t.lane m = s.lane m)) := by
  have hspoil : Keeps (State.on · 2) (forEach (s.streamLanes p k) spoilLane) := keeps_forEach fun n _ =>
    keeps_ask fun _ => keeps_when (skipsTraffic_on.keeps_abandon fun _ _ => rfl)
  refine answers_streamOn hon hk (e := ask fun s => seq [forEach (s.streamLanes p k) spoilLane, fire 38 (p + k * 2 ^ 8)]) rfl ?_
  rw [after_ask, after_seq_cons, after_seq_cons, after_seq_nil]
  refine ⟨raised_fire _ _ _ ((hspoil s).trans hon2) (by omega), fun m hm => ⟨fun hlane hrun => ?_, fun hlane => ?_⟩⟩
  · obtain ⟨u, hu, hafter⟩ := lane_forEach onlyLane_spoilLane (nodup_streamLanes s p k) (mem_streamLanes.2 ⟨hm, hlane⟩) s
    rw [lane_fire _ _ (by omega), hafter, frame_spoilLane (by rwa [hu])]
  · rw [lane_fire _ _ (by omega)]
    refine lane_forEach_of_notMem onlyLane_spoilLane (fun h => ?_) s
    rw [(mem_streamLanes.1 h).2] at hlane
    exact absurd hlane (by decide)

end

/-- A firing of another event leaves the unserved firing of event `n`. -/
theorem preserves_fire {n arg k b : Nat} (hn : n ≠ k) (hk : k < 96) : Preserves (OnAndRaised n arg) (fire k b) := fun s hs => by
  rw [after_fire s k b hs.1]
  exact preserves_raise hn hk s hs

/-- The close of an open window: at once where its lane searches, or marked where the lane still has a frame. -/
def closeWindow (n : Nat) (w : Window) (ws : List Window) : Effect := ask fun s => match (s.lane n).run with
  | .sync | .receive | .done => setLane n fun l => { l with windows := { w with closed := true } :: ws }
  | _ => endWindow n 0

section
variable {s : State} {n : Fin 96} (hon : s.on 12 = true)
include hon

theorem laneCheckFail_stops (hon2 : s.on 2 = true) : Answers (.laneCheckFail n) s (fun t => t.raised 39 n ∧
    LaneIs n { s.lane n with run := .off, stream := none, paused := false, broken := true, frame := none } s t) := by
  refine answers_inDomain hon rfl ?_
  rw [after_seq_cons, after_seq_cons, after_seq_cons, after_seq_cons, after_seq_nil]
  generalize hu : (s.after (dropFrame n)).after (setLane n fun l =>
    { l with run := .off, stream := none, paused := false, broken := true }) = u
  have honu : u.on 2 = true := hu ▸ (skipsTraffic_on.keeps_dropFrame (fun _ _ => rfl) s).trans hon2
  have hraised : OnAndRaised 39 n (u.after (fire 39 n)) :=
    ⟨(skipsTraffic_on.keeps_fire (by omega) _ u).trans honu, raised_fire u 39 n honu (by omega)⟩
  have hlanes : ∀ m, ((u.after (fire 39 n)).after (portLanesOff (lanePort n))).lane m = u.lane m := fun m => by
    rw [lane_portLanesOff, lane_fire _ _ (by omega)]
  refine ⟨(?_ : OnAndRaised 39 n _).2, ?_, fun m hm => ?_⟩
  · rw [portLanesOff, after_ask]
    exact preserves_when (preserves_fire (by omega) (by omega)) _ hraised
  · rw [hlanes, ← hu, lane_setLane_self, lane_dropFrame]
  · rw [hlanes, ← hu]
    exact (keeps_lane_setLane hm _ _).trans (onlyLane_dropFrame n m hm s)

/-! ### Listen windows (R201) -/

variable {w : Window} {ws : List Window} (hw : (s.lane n).windows = w :: ws)
include hw

theorem listenWindowOpen_opens (hclosed : w.opened = false) (hreached : s.reached w.from_ = true)
    (hbroken : (s.lane n).broken = false) (hrun : (s.lane n).run = .off) : Answers (.listenWindowOpen n) s (fun t =>
      t.mem = s.mem ∧ t.regs = s.regs ∧ t.cores = s.cores ∧ LaneIs n { s.lane n with
        run := .search, stream := none, paused := s.bb.blanked.contains (lanePort n)
        windows := { w with opened := true } :: ws } s t) := by
  have hguard : (!w.opened && s.reached w.from_ && !(s.lane n).broken && (s.lane n).run = .off) = true := by
    rw [hclosed, hreached, hbroken, hrun]; rfl
  refine answers_inDomain hon rfl ?_
  rw [after_ask, hw]
  dsimp only
  rw [hguard, after_when, if_pos rfl, after_seq_cons, after_seq_cons, after_seq_nil]
  refine ⟨keeps_armWindow (fun _ _ => rfl) n _, keeps_armWindow (fun _ _ => rfl) n _, keeps_armWindow (fun _ _ => rfl) n _, ?_,
    fun m hm => ?_⟩
  · rw [lane_armWindow, lane_setLane_self]
  · rw [lane_armWindow]
    exact keeps_lane_setLane hm _ s

section
variable (hopen : w.opened = true) (hclosed : w.closed = false) (hreached : s.reached (tplus w.from_ w.dur) = true)
include hopen hclosed hreached

/-- A window is closed at its end as its lane's run says. -/
theorem after_listenWindowClose {P : State → Prop} (h : P (s.after (closeWindow n w ws))) :
    Answers (.listenWindowClose n) s P := by
  have hguard : (w.opened && !w.closed && s.reached (tplus w.from_ w.dur)) = true := by
    rw [hopen, hclosed, hreached]; rfl
  refine answers_inDomain hon rfl ?_
  rw [after_ask, hw]
  dsimp only
  rw [hguard, after_when, if_pos rfl]
  exact h

theorem listenWindowClose_waits (hrun : (s.lane n).run = .sync ∨ (s.lane n).run = .receive ∨ (s.lane n).run = .done) :
    Answers (.listenWindowClose n) s (fun t => t = { s with bb := t.bb } ∧
      LaneIs n { s.lane n with windows := { w with closed := true } :: ws } s t) := by
  have hclose : s.after (closeWindow n w ws) = s.after (setLane n fun l => { l with windows := { w with closed := true } :: ws }) := by
    rw [closeWindow, after_ask]
    rcases hrun with h | h | h <;> rw [h]
  refine after_listenWindowClose hon hw hopen hclosed hreached ?_
  rw [hclose]
  exact ⟨rfl, lane_setLane_self s n _, fun m hm => keeps_lane_setLane hm _ s⟩

/-- A searching lane's window ends with its completion (R201). -/
theorem listenWindowClose_ends (hrun : (s.lane n).run = .search) (hlisten : w.byListen = true)
    (htakes : s.takes (s.fld BB.LISTEN_RING_RING)) : Answers (.listenWindowClose n) s (fun t =>
      (t.lane n).run = .off ∧ (t.lane n).windows.length = ws.length ∧ (∀ m, m ≠ n.val → t.lane m = s.lane m) ∧
      Pushed (s.fld BB.LISTEN_RING_RING) (completion 3 0 0 0 (n - (portLanes (lanePort n)).1) (lanePort n +
        min w.frames 255 * 2 ^ 8 + min (if s.overrun w = 0 then w.late else s.overrun w) 65535 * 2 ^ 16) 0) s t) := by
  have hclose : s.after (closeWindow n w ws) = s.after (endWindow n 0) := by rw [closeWindow, after_ask, hrun]
  refine after_listenWindowClose hon hw hopen hclosed hreached ?_
  rw [hclose]
  refine ⟨?_, ?_, fun m hm => ?_, ?_⟩
  · rw [lane_endWindow hw]
  · rw [lane_endWindow hw]
    exact length_following s _ ws
  · exact (skipsTraffic_lane m).keeps_endWindow (keeps_lane_setLane hm) 0 s
  · have hring : ∀ {r g p}, Keeps (State.ring · r) (seq [setLane n g, armWindow n, portLanesOff p]) := fun {r g p} =>
      keeps_seq_cons (fun _ => rfl) (keeps_seq_cons (keeps_armWindow (fun _ _ => rfl) n) (keeps_seq_cons
        (keeps_portLanesOff ⟨fun _ _ _ _ => rfl, fun _ _ => rfl, fun _ _ => rfl⟩ p) (keeps_seq_nil _)))
    have hcomplete : s.after (windowCompletion n 0 (s.overrun w) w) = s.after (append (s.fld BB.LISTEN_RING_RING)
        (completion 3 0 0 0 (n - (portLanes (lanePort n)).1) (lanePort n + min w.frames 255 * 2 ^ 8 +
          min (if s.overrun w = 0 then w.late else s.overrun w) 65535 * 2 ^ 16) 0)) := by
      rw [windowCompletion, after_ask, hlisten, after_when, if_pos rfl, after_complete 3 n _ htakes]
    rw [endWindow, after_ask, hw]
    dsimp only
    rw [after_seq_cons]
    exact (congrArg Ring.q (hring _)).trans
      ((congrArg (fun t : State => (t.ring _).q) hcomplete).trans (ring_append s _ _))

end

end

/-! ### The statement -/

/-- Settles O27: each lane of a port changes in its turn as its own state says, and no other; a window's end is its lane's. -/
theorem blanksFaultsAndWindows : Obligations.BlanksFaultsAndWindows := by
  unfold Obligations.BlanksFaultsAndWindows
  refine fun s hon => ⟨fun p => ⟨rxBlankStart_blanks hon, rxBlankEnd_resumes hon,
    fun k hk hon2 => sampleParityError_spoils hon hk hon2⟩, fun n => ⟨laneCheckFail_stops hon, fun w ws hw =>
    ⟨listenWindowOpen_opens hon hw, fun hopen hclosed hreached => ⟨listenWindowClose_waits hon hw hopen hclosed hreached,
      listenWindowClose_ends hon hw hopen hclosed hreached⟩⟩⟩⟩

end Sys2Proof.Machine
end

section
/-!
PROOFS: the end of a reception (O26). Bytes written into a chain of one buffer, the record of Table 05.7, and a lane that
hands its frame on.
-/
namespace Sys2Proof.Machine

open Sys2Proof

/-! ### Bytes and counters -/

theorem mem'_congr {s t : State} {a k : Nat} (h : ∀ i < k, t.byte (a + i) = s.byte (a + i)) : t.mem' a k = s.mem' a k :=
  congrArg ofLe (List.map_congr_left fun i hi => h i (List.mem_range.1 hi))

/-- Two bytes that read as the low bytes of `v`, lowest first. -/
theorem mem'_two_of_bytes {t : State} {a v : Nat} (h0 : t.byte a = v % 256) (h1 : t.byte (a + 1) = v / 256 % 256) :
    t.mem' a 2 = v % 2 ^ 16 := by
  rw [mem'_half, h0, h1]
  omega

/-- A counter counts one more, or stays full. -/
theorem counted_count (s : State) {k hi lo : Nat} (h1 : lo ≤ hi) (h2 : hi < 32) :
    Counted ⟨k, hi, lo⟩ s (s.after (count ⟨k, hi, lo⟩)) := by
  have hpos : 0 < 2 ^ (hi - lo + 1) := Nat.two_pow_pos _
  have hcount : s.after (count ⟨k, hi, lo⟩) =
      s.after (setFld ⟨k, hi, lo⟩ (min (s.fld ⟨k, hi, lo⟩ + 1) (2 ^ (hi - lo + 1) - 1))) := rfl
  rw [Counted, hcount, fld_setFld_self s h1 h2]
  exact Nat.mod_eq_of_lt (by omega)

/-! ### A buffer's metadata, and a chain of one buffer (R291-R293) -/

theorem after_setMeta (s : State) (b hi lo v : Nat) :
    s.after (setMeta b hi lo v) = s.after (putBytes (metaAddr b) (leBytes (putBits (s.meta b) hi lo v) 4)) := rfl

theorem meta_setMeta (s : State) (b v : Nat) {hi lo : Nat} (h1 : lo ≤ hi) (h2 : hi < 32) :
    (s.after (setMeta b hi lo v)).meta b = putBits (s.meta b) hi lo v := by
  have hlt : s.meta b < 2 ^ 32 := by
    have h0 := byte_lt s (metaAddr b)
    have h1 := byte_lt s (metaAddr b + 1)
    have h2 := byte_lt s (metaAddr b + 2)
    have h3 := byte_lt s (metaAddr b + 3)
    rw [State.meta, mem'_four]
    omega
  exact word_putMem s _ (putBits_lt _ _ _ _ hlt h2 h1)

/-- The head of a chain is its only buffer. -/
structure State.Single (s : State) (h : Nat) : Prop where
  used : s.isFree h = false
  last : s.isLast h = true

theorem chain_of_single {s : State} {h : Nat} (hs : s.Single h) : s.chain h = [h] := by
  rw [State.chain, walk, if_neg (by rw [hs.used]; exact Bool.false_ne_true), if_pos hs.last]

/-- FILL set, the buffer is still its chain's only one. -/
theorem State.Single.setFill {s : State} {h : Nat} (hs : s.Single h) (v : Nat) : (s.after (setMeta h 24 16 v)).Single h where
  used := by
    rw [← hs.used, State.isFree, State.isFree, State.holder, State.holder, meta_setMeta s h v (by omega) (by omega),
      bits_putBits_ne _ _ _ _ _ _ (by omega) (by omega) (by omega)]
  last := by
    rw [← hs.last, State.isLast, State.isLast, bit_eq_testBit, bit_eq_testBit, meta_setMeta s h v (by omega) (by omega),
      putBits_testBit, if_neg (by omega)]

theorem fill_setFill (s : State) (h : Nat) {v : Nat} (hv : v < 512) : (s.after (setMeta h 24 16 v)).fill h = v := by
  rw [State.fill, meta_setMeta s h v (by omega) (by omega), bits_putBits_self]
  exact Nat.mod_eq_of_lt hv

theorem chainAddrs_of_single {s : State} {h k : Nat} (hs : s.Single h) (hk : k < s.fill h) :
    (s.chainAddrs h)[k]? = some (bufAddr h + k) := by
  rw [State.chainAddrs, chain_of_single hs, List.flatMap_singleton, List.getElem?_map, List.getElem?_range hk]
  rfl

theorem after_putMem_one (s : State) (a v : Nat) : s.after (putMem a 1 v) = s.apply (.mem a (BitVec.ofNat 8 v)) := by
  have hbyte : BitVec.ofNat 8 (v % 256) = BitVec.ofNat 8 v := BitVec.eq_of_toNat_eq (by simp)
  change s.apply (.mem (a + 0) (BitVec.ofNat 8 (v % 256))) = _
  rw [hbyte, Nat.add_zero]

/-- Chain bytes that lie in a row from address `a` are written as bytes from `a`. -/
theorem after_putChain {s : State} {h off a : Nat} {l : List Nat}
    (haddr : ∀ i < l.length, (s.chainAddrs h)[off + i]? = some (a + i)) :
    s.after (putChain h off l) = s.after (putBytes a l) := by
  have hrow : ∀ (l : List Nat) (j : Nat) (t : State), (∀ i < l.length, (s.chainAddrs h)[off + (j + i)]? = some (a + (j + i))) →
      t.after (forEach (enumFrom (off + j) l) fun e => match (s.chainAddrs h)[e.1]? with
        | some x => putMem x 1 e.2
        | none => nothing) = t.applyAll ((enumFrom j l).map fun e => .mem (a + e.1) (BitVec.ofNat 8 e.2)) := fun l => by
    induction l with
    | nil => intros; rfl
    | cons x l ih =>
      intro j t hj
      have hx := hj 0 (Nat.zero_lt_succ _)
      rw [Nat.add_zero] at hx
      have hrest := ih (j + 1) (t.apply (.mem (a + j) (BitVec.ofNat 8 x))) fun i hi => by
        have hnext := hj (i + 1) (Nat.succ_lt_succ hi)
        rwa [show j + (i + 1) = j + 1 + i by omega] at hnext
      rw [enumFrom, enumFrom, after_forEach_cons, List.map_cons, applyAll_cons, hx, after_putMem_one]
      exact hrest
  have hfrom := hrow l 0 s fun i hi => by rw [Nat.zero_add]; exact haddr i hi
  exact hfrom

/-! ### The record of Table 05.7 -/

/-- What the 16 bytes from address `a` of state `t` say of frame `f`, received by lane `n` (Table 05.7). -/
structure RecordAt (a n : Nat) (f : RxFrame) (good : Bool) (rho evm : Nat) (cfo snr : Int) (t : State) : Prop where
  rssi : t.mem' a 2 = unsigned 16 f.rssi
  lqi : (t.byte (a + 2) : Int) = clampI 0 255 ((340 * (rho : Int) + 32768) / 65536 - 85)
  flags : t.byte (a + 3) = b2n good + 2 * b2n f.captured + 4 * b2n f.preempted + 8 * b2n f.overlap + 16 * b2n f.listen +
    32 * b2n f.agcMoved
  evm : t.mem' (a + 4) 2 = min evm 65535
  mode : t.byte (a + 6) = f.mode + f.agc * 16
  lane : t.byte (a + 7) = n
  frac : t.mem' (a + 8) 2 = f.frac % 2 ^ 16
  cfo : t.mem' (a + 10) 2 = unsigned 16 cfo
  snr : t.mem' (a + 12) 2 = unsigned 16 snr
  peak : t.mem' (a + 14) 2 = unsigned 16 f.peak

theorem unsigned_mod (w : Nat) (z : Int) : unsigned w z % 2 ^ w = unsigned w z := by
  have hpos : (0 : Int) < ((2 ^ w : Nat) : Int) := by exact_mod_cast Nat.two_pow_pos w
  have hlo := Int.emod_nonneg z hpos.ne'
  have hhi := Int.emod_lt_of_pos z hpos
  refine Nat.mod_eq_of_lt ?_
  rw [unsigned]
  omega

theorem b2n_le (b : Bool) : b2n b ≤ 1 := by cases b <;> decide

theorem clampI_byte (x : Int) : (((clampI 0 255 x).toNat % 256 : Nat) : Int) = clampI 0 255 x := by
  unfold clampI
  split
  · decide
  · split <;> omega

section
variable {a n : Nat} {f : RxFrame} {good : Bool} {rho evm : Nat} {cfo snr : Int} {t : State}

/-- The record's bytes, read back, are Table 05.7's fields. -/
theorem recordAt_of_bytes (hn : n < 96) (hmode : f.mode < 16) (hagc : f.agc < 8)
    (h : ∀ i < 16, t.byte (a + i) = (recordBytes n f good rho evm cfo snr).getD i 0 % 256) :
    RecordAt a n f good rho evm cfo snr t := by
  have hhalf : ∀ i < 15, ∀ v, (recordBytes n f good rho evm cfo snr).getD i 0 = v % 256 →
      (recordBytes n f good rho evm cfo snr).getD (i + 1) 0 = v / 256 % 256 → t.mem' (a + i) 2 = v % 2 ^ 16 :=
    fun i hi v h0 h1 => mem'_two_of_bytes (by rw [h i (by omega), h0, Nat.mod_mod])
      (by rw [Nat.add_assoc, h (i + 1) (by omega), h1, Nat.mod_mod])
  have hflags := b2n_le good
  have hcaptured := b2n_le f.captured
  have hpreempted := b2n_le f.preempted
  have hoverlap := b2n_le f.overlap
  have hlisten := b2n_le f.listen
  have hmoved := b2n_le f.agcMoved
  exact
    { rssi := (hhalf 0 (by omega) _ rfl rfl).trans (unsigned_mod 16 _)
      lqi := by
        rw [h 2 (by omega)]
        exact clampI_byte _
      flags := (h 3 (by omega)).trans (Nat.mod_eq_of_lt (show b2n good + 2 * b2n f.captured + 4 * b2n f.preempted +
        8 * b2n f.overlap + 16 * b2n f.listen + 32 * b2n f.agcMoved < 256 by omega))
      evm := (hhalf 4 (by omega) _ rfl rfl).trans (Nat.mod_eq_of_lt (by omega))
      mode := (h 6 (by omega)).trans (Nat.mod_eq_of_lt (show f.mode + f.agc * 16 < 256 by omega))
      lane := (h 7 (by omega)).trans (Nat.mod_eq_of_lt (show n < 256 by omega))
      frac := hhalf 8 (by omega) _ rfl rfl
      cfo := (hhalf 10 (by omega) _ rfl rfl).trans (unsigned_mod 16 _)
      snr := (hhalf 12 (by omega) _ rfl rfl).trans (unsigned_mod 16 _)
      peak := (hhalf 14 (by omega) _ rfl rfl).trans (unsigned_mod 16 _) }

end

/-- The state once the record stands after the PSDU of a frame of one buffer, and FILL covers it. -/
def State.recorded (s : State) (h len : Nat) (l : List Nat) : State :=
  (s.after (setMeta h 24 16 (len + 16))).after (putBytes (bufAddr h + len) l)

section
variable {s : State} {h len : Nat} {l : List Nat}

/-- The record changes memory alone. -/
theorem recorded_frame : s.recorded h len l = { s with mem := (s.recorded h len l).mem } := by
  rw [State.recorded, after_putBytes, after_setMeta, after_putBytes s]

theorem after_record (hs : s.Single h) (hl : l.length = 16) (hlen : len + 16 ≤ 256) :
    (s.after (ask fun s => setMeta (s.lastBuf h) 24 16 (len + 16))).after (putChain h len l) = s.recorded h len l := by
  have hlast : s.lastBuf h = h := by rw [State.lastBuf, chain_of_single hs]; rfl
  rw [after_ask, hlast]
  refine after_putChain fun i hi => ?_
  rw [chainAddrs_of_single (hs.setFill _) (by rw [fill_setFill s h (by omega)]; omega), Nat.add_assoc]

/-- Buffers and their metadata lie apart, so FILL stands. -/
theorem fill_recorded (hl : l.length = 16) (hlen : len + 16 ≤ 256) (hh : h < 16384) : (s.recorded h len l).fill h = len + 16 := by
  have hmeta : (s.recorded h len l).meta h = (s.after (setMeta h 24 16 (len + 16))).meta h :=
    mem'_congr fun i hi => memOnly_putBytes _ _ l _ (by rw [hl, metaAddr, bufAddr]; omega)
  rw [State.fill, hmeta]
  exact fill_setFill s h (by omega)

theorem byte_recorded {i : Nat} (hi : i < l.length) : (s.recorded h len l).byte (bufAddr h + len + i) = l.getD i 0 % 256 :=
  byte_putBytes _ _ l i hi

end

/-! ### A lane hands its frame on (R198) -/

/-- The descriptor of frame `f` in the chain headed by `h`. -/
def RxFrame.desc (f : RxFrame) (h : Nat) : Desc := rxDesc f.port f.chan f.len h f.sfd.toNat 0

theorem buf_desc (f : RxFrame) {h : Nat} (hh : h < 16384) : (f.desc h).buf = h := by
  change bits ((h + 0 * 2 ^ 15) % 2 ^ 32) 13 0 = h
  unfold bits
  omega

theorem find_of_decisionOn {s : State} {b : Nat} (h : s.decisionOn b = none) : find s.fwd.decisions b = none := by
  rw [State.decisionOn] at h
  split at h
  · exact absurd h (Option.some_ne_none _)
  · assumption

/-- An output queue whose head waits for its decision delivers nothing. -/
theorem serveOut_waits {s : State} {n : Nat} {e : OutEntry} {rest : List OutEntry} (hq : (s.lane n).outq = e :: rest)
    (hgood : e.good = true) (hnone : find s.fwd.decisions e.d.buf = none) (hen : s.flag FWD.FWD_CTL_EN = true) :
    s.after (serveOut n) = s := by
  rw [serveOut, serveOutBy, after_ask, hq]
  dsimp only
  rw [hen, Bool.not_true, Bool.false_and, if_neg Bool.false_ne_true, hgood, Bool.not_true, if_neg Bool.false_ne_true, hnone]
  rfl

/-- A good frame that nothing has decided yet joins the output queue. -/
theorem after_frameGood {s : State} {n : Nat} {d : Desc} (h : s.decisionOn d.buf = none) : s.after (frameGood n d) =
    (s.after (setLane n fun l => { l with outq := l.outq ++ [⟨d, true⟩] })).after (serveOut n) := by
  rw [frameGood, after_ask, h]
  dsimp only
  rw [after_seq_cons, after_seq_cons, after_seq_nil]

/-- A lane with no closed window leaves without a completion: memory stays, and the registers before MAC's. -/
theorem keeps_leave_of_open {α : Type} {f : State → α} (hf : SkipsEvents f) (hl : ∀ n g, Keeps f (setLane n g)) {s : State}
    {n : Nat} (hw : ∀ w ∈ (s.lane n).windows, w.closed = false) : f (s.after (leave n)) = f s := by
  have hoff : ∀ g, Keeps f (seq [setLane n g, portLanesOff (lanePort n)]) := fun g =>
    keeps_seq_cons (hl n g) (keeps_seq_cons (keeps_portLanesOff hf _) (keeps_seq_nil f))
  rw [leave, after_ask]
  dsimp only
  split
  case isTrue => exact hl n _ s
  case isFalse =>
    split
    next w ws hws =>
      have hopen : w.closed = false := hw w (by rw [hws]; exact List.mem_cons_self)
      rw [hopen, Bool.not_false, Bool.and_true]
      split
      · exact hl n _ s
      · exact hoff _ s
    next =>
      split
      · exact hoff _ s
      · split
        · split <;> exact hl n _ s
        · exact hl n _ s

/-- State `u` is `s` with lane `n` about to leave: no frame, output queue `q`, no closed window. -/
structure Leaving (n : Nat) (q : List OutEntry) (s u : State) : Prop where
  frame : (u.lane n).frame = none
  outq : (u.lane n).outq = q
  windows : ∀ w ∈ (u.lane n).windows, w.closed = false
  bb : u = { s with bb := u.bb }

/-- A lane counts its frame in its window, and is rid of it. -/
def releaseFrame (n : Nat) : Effect := seq [
  setLane n fun l => { l with windows := match l.windows with
    | w :: ws => { w with frames := w.frames + 1 } :: ws
    | [] => [] },
  setLane n fun l => { l with frame := none }]

/-- A lane whose output queue has filled is full from now on. -/
def markFull (n : Nat) : Effect := ask fun s =>
  when ((s.lane n).outq.length = 8) (setLane n fun l => { l with fullSince := some s.acc.ltb })

section
variable {s u : State} {n : Nat} {q : List OutEntry}

theorem leaving_releaseFrame (hopen : ∀ w ∈ (s.lane n).windows, w.closed = false) :
    Leaving n (s.lane n).outq s (s.after (releaseFrame n)) := by
  rw [releaseFrame, after_seq_cons, after_seq_cons, after_seq_nil]
  refine ⟨?_, ?_, ?_, rfl⟩ <;> rw [lane_setLane_self, lane_setLane_self]
  dsimp only
  cases hw : (s.lane n).windows with
  | nil => exact fun w hmem => absurd hmem List.not_mem_nil
  | cons v vs =>
    rw [hw, List.forall_mem_cons] at hopen
    exact List.forall_mem_cons.2 hopen

theorem Leaving.setLane (h : Leaving n q s u) {g : Lane → Lane} {q' : List OutEntry} (hframe : ∀ l, (g l).frame = l.frame)
    (hq : (g (u.lane n)).outq = q') (hw : ∀ l, (g l).windows = l.windows) : Leaving n q' s (u.after (setLane n g)) where
  frame := by rw [lane_setLane_self, hframe, h.frame]
  outq := by rw [lane_setLane_self, hq]
  windows := by rw [lane_setLane_self, hw]; exact h.windows
  bb := by
    rw [after_setLane]
    generalize (u.after (Machine.setLane n g)).bb = b
    rw [h.bb]

theorem Leaving.markFull (h : Leaving n q s u) : Leaving n q s (u.after (markFull n)) := by
  rw [Machine.markFull, after_ask, after_when]
  split
  · exact h.setLane (fun _ => rfl) h.outq fun _ => rfl
  · exact h

/-- What reads neither lanes nor the event router and the registers it writes is kept by a lane that leaves so. -/
theorem Leaving.kept (h : Leaving n q s u) {α : Type} {f : State → α} (hf : SkipsEvents f)
    (hbb : ∀ (t : State) x, f { t with bb := x } = f t) : f (u.after (leave n)) = f s := by
  rw [keeps_leave_of_open hf (fun _ _ t => hbb t _) h.windows, h.bb, hbb]

end

section
variable {s : State} {n h : Nat} {f : RxFrame} (hframe : (s.lane n).frame = some f) (hbuf : f.buf = some h)
  (hgood : f.fcsOk = true) (hroom : (s.lane n).outq.length < 8)
include hframe hbuf hgood hroom

theorem after_handOn : s.after (handOn n) =
    (((s.after (releaseFrame n)).after (frameGood n (f.desc h))).after (markFull n)).after (leave n) := by
  have hroom' : decide ((s.lane n).outq.length < 8) = true := decide_eq_true hroom
  rw [handOn, after_ask, hframe]
  dsimp only
  rw [hbuf, Option.getD_some, hroom', Bool.or_true, if_pos rfl, hgood, if_pos rfl, after_seq_cons, after_seq_cons, after_seq_cons,
    after_seq_cons, after_seq_cons, after_seq_nil, releaseFrame, after_seq_cons, after_seq_cons, after_seq_nil]
  rfl

/-- A lane with room in its output queue hands a good frame on, which waits there for its decision behind the others. -/
theorem leaving_handOn (hh : h < 16384) (hopen : ∀ w ∈ (s.lane n).windows, w.closed = false) (hdecision : s.decisionOn h = none)
    (hen : s.flag FWD.FWD_CTL_EN = true)
    (hhead : ∀ e rest, (s.lane n).outq = e :: rest → e.good = true ∧ find s.fwd.decisions e.d.buf = none) :
    ∃ u, Leaving n ((s.lane n).outq ++ [⟨f.desc h, true⟩]) s u ∧ s.after (handOn n) = u.after (leave n) := by
  have hreleased := leaving_releaseFrame hopen
  rw [after_handOn hframe hbuf hgood hroom]
  generalize s.after (releaseFrame n) = u at hreleased
  have hdecision' : u.decisionOn (f.desc h).buf = none := by rw [buf_desc f hh, hreleased.bb]; exact hdecision
  have hqueued : Leaving n ((s.lane n).outq ++ [⟨f.desc h, true⟩]) s (u.after (setLane n fun l =>
      { l with outq := l.outq ++ [⟨f.desc h, true⟩] })) :=
    hreleased.setLane (fun _ => rfl) (congrArg (· ++ [_]) hreleased.outq) fun _ => rfl
  rw [after_frameGood hdecision']
  generalize u.after (setLane n _) = v at hqueued
  have hwaits : ∃ e rest, (v.lane n).outq = e :: rest ∧ e.good = true ∧ find v.fwd.decisions e.d.buf = none := by
    rw [hqueued.outq, hqueued.bb]
    cases hq : (s.lane n).outq with
    | nil => exact ⟨_, _, rfl, rfl, by rw [buf_desc f hh]; exact find_of_decisionOn hdecision⟩
    | cons e rest => exact ⟨e, _, rfl, hhead e rest hq⟩
  obtain ⟨e, rest, hq, he, hnone⟩ := hwaits
  rw [serveOut_waits hq he hnone (by rw [hqueued.bb]; exact hen)]
  exact ⟨_, hqueued.markFull, rfl⟩

end

/-! ### FRAME_END, OUTQ_RELEASE and OUTQ_STALL (R198, R205, R207) -/

/-- The FCS of the PSDU of frame `f` holds. -/
abbrev RxFrame.fcsHolds (f : RxFrame) : Prop := crc16 (f.psdu.take (f.len - 2)) = fieldLe f.psdu (f.len - 2) 2

/-- A lane whose frame in chain `h` has its record counts it where its output queue is full, and hands it on. -/
def putOn (n h : Nat) : Effect := seq [ask fun s => when (decide (8 ≤ (s.lane n).outq.length) &&
  !((s.decisionOn h).map Decision.opened).getD false) (count (BB.COUNT_LO (lanePort n) 5)), handOn n]

theorem after_putOn {s : State} {n h : Nat} (hroom : (s.lane n).outq.length < 8) : s.after (putOn n h) = s.after (handOn n) := by
  have hfull : decide (8 ≤ (s.lane n).outq.length) = false := decide_eq_false (by omega)
  rw [putOn, after_seq_cons, after_seq_cons, after_seq_nil, after_ask, hfull, Bool.false_and, after_when,
    if_neg Bool.false_ne_true]

theorem count_addr_lt (n : Fin 96) (j : Fin 8) : BB.COUNT (lanePort n) j < 0x40020000 := by
  have hport : lanePort n ≤ 2 := by
    unfold lanePort
    split
    · omega
    · split <;> omega
  rw [BB.COUNT]
  omega

/-- The state once a good frame of one buffer has its record, and is counted. -/
def State.frameCounted (s : State) (n h len : Nat) (l : List Nat) : State :=
  ((s.recorded h len l).after (setFrame n fun f => { f with fcsOk := true })).after (count (BB.COUNT_HI (lanePort n) 1))

section
variable (s : State) (n h len : Nat) (l : List Nat)

theorem frameCounted_frame : s.frameCounted n h len l = { s with
    mem := (s.recorded h len l).mem
    bb := (s.frameCounted n h len l).bb
    regs := (s.frameCounted n h len l).regs } := by
  have hcount : ∀ t : State, t.after (count (BB.COUNT_HI (lanePort n) 1)) =
      { t with regs := (t.after (count (BB.COUNT_HI (lanePort n) 1))).regs } := fun _ => rfl
  rw [State.frameCounted, hcount, setFrame, after_setLane, recorded_frame]

theorem counted_frameCounted : Counted (BB.COUNT_HI (lanePort n) 1) s (s.frameCounted n h len l) := by
  have hbefore : ((s.recorded h len l).after (setFrame n fun f => { f with fcsOk := true })).fld (BB.COUNT_HI (lanePort n) 1) =
      s.fld (BB.COUNT_HI (lanePort n) 1) := by
    rw [setFrame, after_setLane, recorded_frame]
    rfl
  rw [Counted, ← hbefore]
  exact counted_count _ (by omega) (by omega)

theorem lane_frameCounted : (s.frameCounted n h len l).lane n = { s.lane n with
    frame := (s.lane n).frame.map fun f => { f with fcsOk := true } } := by
  have hcount : (s.frameCounted n h len l).lane n = ((s.recorded h len l).after (setFrame n fun f => { f with fcsOk := true })).lane n :=
    keeps_count (f := (State.lane · n)) (fun _ _ _ => rfl) _ _
  rw [hcount, setFrame, lane_setLane_self, recorded_frame]
  rfl

theorem flag_frameCounted (n : Fin 96) : (s.frameCounted n h len l).flag FWD.FWD_CTL_EN = s.flag FWD.FWD_CTL_EN := by
  have hne : FWD.FWD_CTL_EN.addr ≠ (BB.COUNT_HI (lanePort n) 1).addr := by
    have haddr : BB.COUNT (lanePort n) (1 : Fin 8) < 0x40020000 := count_addr_lt n 1
    exact ne_of_gt (haddr.trans (by decide))
  rw [State.frameCounted, flag_count_ne _ hne, setFrame, after_setLane, recorded_frame]
  rfl

end

section
variable {s : State} {n : Fin 96} {rho : Fin 65537} {evm : Nat} {cfo snr : Int} {f : RxFrame} {h : Nat} (hon : s.on 12 = true)
  (hrun : (s.lane n).run = .receive) (hframe : (s.lane n).frame = some f) (hbuf : f.buf = some h) (hlen : 0 < f.len)
  (hgot : f.got = f.len)
include hon hrun hframe hbuf hlen hgot

theorem answers_frameEnd_good (hsingle : s.Single h) (hfit : f.len + 16 ≤ 256) (hfcs : f.fcsHolds) {P : State → Prop}
    (hP : P ((s.frameCounted n h f.len (recordBytes n f true rho evm cfo snr)).after (putOn n h))) :
    Answers (.frameEnd n rho evm cfo snr) s P := by
  have hguard : (decide (0 < f.len) && f.got = f.len) = true := by simp [hlen, hgot]
  have hfill : f.len + 16 - 256 * ((f.len + 15) / 256) = f.len + 16 := by omega
  refine answers_inDomain hon rfl ?_
  rw [after_ask]
  dsimp only
  rw [hrun, hframe]
  dsimp only
  rw [hbuf]
  dsimp only
  rw [hguard, after_when, if_pos rfl, if_pos hfcs, if_pos hfit, decide_eq_true hfcs, hfill, after_seq_cons, after_seq_cons,
    after_seq_cons, after_seq_cons, after_seq_nil, after_record hsingle rfl hfit, after_seq_cons, after_seq_cons, after_seq_nil]
  exact hP

/-- A frame whose FCS fails is counted and dropped, where such frames are not kept (R205). -/
theorem answers_frameEnd_bad (hfcs : ¬f.fcsHolds) (hkeep : s.flag BB.BB_EXP_KEEP_BADFCS = false) {P : State → Prop}
    (hP : P (((s.after (count (BB.COUNT_LO (lanePort n) 1))).after (withdraw h)).after (abandon n))) :
    Answers (.frameEnd n rho evm cfo snr) s P := by
  have hguard : (decide (0 < f.len) && f.got = f.len) = true := by simp [hlen, hgot]
  refine answers_inDomain hon rfl ?_
  rw [after_ask]
  dsimp only
  rw [hrun, hframe]
  dsimp only
  rw [hbuf]
  dsimp only
  rw [hguard, after_when, if_pos rfl, if_neg hfcs, hkeep, if_neg Bool.false_ne_true, after_seq_cons, after_seq_cons,
    after_seq_cons, after_seq_nil]
  exact hP

theorem frameEnd_drops (hfcs : ¬f.fcsHolds) (hkeep : s.flag BB.BB_EXP_KEEP_BADFCS = false) :
    Answers (.frameEnd n rho evm cfo snr) s (fun t => Counted (BB.COUNT_LO (lanePort n) 1) s t ∧ (t.lane n).frame = none ∧
      ∀ m, m ≠ n.val → t.lane m = s.lane m) := by
  refine answers_frameEnd_bad hon hrun hframe hbuf hlen hgot hfcs hkeep ⟨?_, frame_abandon _ _, fun m hm => ?_⟩
  · have hskips := (beside_fld (g := BB.COUNT_LO (lanePort n) 1) (count_addr_lt n 1)).skipsTraffic
    exact ((hskips.keeps_abandon (fun _ _ => rfl) _).trans (hskips.keeps_withdraw h _)).trans
      (counted_count s (by omega) (by omega))
  · exact ((onlyLane_abandon n m hm) _).trans ((skipsTraffic_lane m).keeps_withdraw h _)

/-- The frame's record stands after its PSDU, and its descriptor waits in the output queue (R198, R207). -/
theorem frameEnd_delivers (hmode : f.mode < 16) (hagc : f.agc < 8) (hh : h < 16384) (hsingle : s.Single h)
    (hfit : f.len + 16 ≤ 256) (hopen : ∀ w ∈ (s.lane n).windows, w.closed = false) (hfcs : f.fcsHolds)
    (hdecision : s.decisionOn h = none) (hq : (s.lane n).outq = []) (hen : s.flag FWD.FWD_CTL_EN = true) :
    Answers (.frameEnd n rho evm cfo snr) s (fun t => Counted (BB.COUNT_HI (lanePort n) 1) s t ∧ (t.lane n).frame = none ∧
      (t.lane n).outq = [⟨f.desc h, true⟩] ∧ t.fill h = f.len + 16 ∧
      RecordAt (bufAddr h + f.len) n f true rho evm cfo snr t) := by
  refine answers_frameEnd_good hon hrun hframe hbuf hlen hgot hsingle hfit hfcs ?_
  have hframe' := frameCounted_frame s n h f.len (recordBytes n f true rho evm cfo snr)
  have hlane := lane_frameCounted s n h f.len (recordBytes n f true rho evm cfo snr)
  have hcounted := counted_frameCounted s n h f.len (recordBytes n f true rho evm cfo snr)
  have hen' := (flag_frameCounted s h f.len (recordBytes n f true rho evm cfo snr) n).trans hen
  generalize s.frameCounted n h f.len (recordBytes n f true rho evm cfo snr) = w at *
  rw [hframe, Option.map_some] at hlane
  have hq' : (w.lane n).outq = [] := by rw [hlane]; exact hq
  have hdecision' : w.decisionOn h = none := by rw [hframe']; exact hdecision
  obtain ⟨u, hleaving, hafter⟩ := leaving_handOn (s := w) (n := n) (h := h) (f := { f with fcsOk := true })
    (by rw [hlane]) hbuf rfl (by rw [hq']; exact Nat.zero_lt_succ _) hh (by rw [hlane]; exact hopen) hdecision' hen'
    (fun e rest he => absurd (hq'.symm.trans he) (List.cons_ne_nil _ _).symm)
  rw [hq', List.nil_append] at hleaving
  rw [after_putOn (by rw [hq']; exact Nat.zero_lt_succ _), hafter]
  have hleft := lane_leave u n
  have hmem : (u.after (leave n)).mem = (s.recorded h f.len (recordBytes n f true rho evm cfo snr)).mem := by
    rw [hleaving.kept skipsEvents_mem fun _ _ => rfl, hframe']
  have hbyte := byte_eq_of_mem hmem
  refine ⟨?_, hleft.frame.elim id fun hkept => hkept.trans hleaving.frame, hleft.outq.trans hleaving.outq, ?_, ?_⟩
  · exact (hleaving.kept (beside_fld (g := BB.COUNT_HI (lanePort n) 1) (count_addr_lt n 1)).skipsEvents fun _ _ => rfl).trans
      hcounted
  · rw [← fill_recorded (s := s) (l := recordBytes n f true rho evm cfo snr) rfl hfit hh]
    exact congrArg (bits · 24 16) (mem'_congr fun i _ => hbyte _)
  · exact recordAt_of_bytes n.isLt hmode hagc fun i hi => (hbyte _).trans (byte_recorded hi)

end

section
variable {s : State} {n : Fin 96} (hon : s.on 12 = true)
include hon

/-- A lane in DONE hands its frame on once its output queue has room. -/
theorem outqRelease_hands {f : RxFrame} {h : Nat} {e : OutEntry} {rest : List OutEntry} (hrun : (s.lane n).run = .done)
    (hframe : (s.lane n).frame = some f) (hbuf : f.buf = some h) (hh : h < 16384)
    (hopen : ∀ w ∈ (s.lane n).windows, w.closed = false) (hgood : f.fcsOk = true) (hdecision : s.decisionOn h = none)
    (hq : (s.lane n).outq = e :: rest) (hroom : (s.lane n).outq.length < 8) (he : e.good = true)
    (hnone : find s.fwd.decisions e.d.buf = none) (hen : s.flag FWD.FWD_CTL_EN = true) :
    Answers (.outqRelease n) s (fun t => (t.lane n).frame = none ∧
      (t.lane n).outq = (s.lane n).outq ++ [⟨f.desc h, true⟩] ∧ t.mem = s.mem) := by
  have hguard : (decide ((s.lane n).run = .done) && decide ((s.lane n).outq.length < 8)) = true := by simp [hrun, hroom]
  obtain ⟨u, hleaving, hafter⟩ := leaving_handOn hframe hbuf hgood hroom hh hopen hdecision hen fun e' rest' he' => by
    rw [hq] at he'
    injection he' with he'
    rw [← he']
    exact ⟨he, hnone⟩
  have hleft := lane_leave u n
  refine answers_inDomain hon rfl ?_
  rw [after_ask, hguard, after_when, if_pos rfl, hafter]
  exact ⟨hleft.frame.elim id fun hkept => hkept.trans hleaving.frame, hleft.outq.trans hleaving.outq,
    hleaving.kept skipsEvents_mem fun _ _ => rfl⟩

/-- An output queue full for 100 µs is reported, once (R205). -/
theorem outqStall_reports {x : Nat} (hfull : (s.lane n).fullSince = some x) (hdue : x + 100000 ≤ s.acc.ltb)
    (hon2 : s.on 2 = true) : Answers (.outqStall n) s (fun t =>
      LaneIs n { s.lane n with fullSince := none } s t ∧ t.raised 36 n ∧ t.mem = s.mem ∧ t.cores = s.cores) := by
  refine answers_inDomain hon rfl ?_
  rw [after_ask, hfull]
  dsimp only
  rw [decide_eq_true hdue, after_when, if_pos rfl, after_seq_cons, after_seq_cons, after_seq_nil]
  refine ⟨⟨?_, fun m hm => ?_⟩, raised_fire _ 36 n hon2 (by omega), keeps_fire skipsEvents_mem (by omega) _ _,
    keeps_fire skipsEvents_cores (by omega) _ _⟩
  · rw [lane_fire _ _ (by omega), lane_setLane_self]
  · rw [lane_fire _ _ (by omega)]
    exact keeps_lane_setLane hm _ s

end

/-! ### The statement -/

/-- Settles O26: the record's bytes are written where the chain's only buffer holds them, and a lane that leaves keeps its
output queue. -/
theorem laneDelivery : Obligations.LaneDelivery := by
  unfold Obligations.LaneDelivery
  intro n s hon
  refine ⟨fun rho evm cfo snr f h hrun hframe hbuf hlen hgot _ hmode hagc hh hfree hlast hfit hopen => ⟨?_, ?_⟩, ?_, ?_⟩
  · intro hfcs hdecision hq hen
    obtain ⟨t, ht, hcounted, hgone, hout, hfill, hrecord⟩ := frameEnd_delivers (rho := rho) (evm := evm) (cfo := cfo) (snr := snr)
      hon hrun hframe hbuf hlen hgot hmode hagc hh ⟨hfree, hlast⟩ hfit hopen hfcs hdecision hq hen
    exact ⟨t, ht, hcounted, hgone, hout, hfill, hrecord.rssi, hrecord.lqi, hrecord.flags, hrecord.evm, hrecord.mode,
      hrecord.lane, hrecord.frac, hrecord.cfo, hrecord.snr, hrecord.peak⟩
  · exact frameEnd_drops hon hrun hframe hbuf hlen hgot
  · intro f h e rest hrun hframe hbuf hh hopen hgood hdecision hq hroom he hnone hen
    exact outqRelease_hands hon hrun hframe hbuf hh hopen hgood hdecision hq hroom he hnone hen
  · intro x hfull hdue hon2
    exact outqStall_reports hon hfull hdue hon2

end Sys2Proof.Machine
end

section
/-!
PROOFS: the counterexample to O25. A lane's stream is any number in the model, and nothing in the statement holds it below
32: port 2's STREAM_36 would lie where its COUNT[0] does, so a preamble that is counted changes the mode that the lane tunes to.
-/
namespace Sys2Proof.Machine

open Sys2Proof

/-- PD_CORE and PD_BB are ON; lane 0, of port 2, searches for a stream past the last. -/
def farLaneState : State := { poweredPort with bb := { lanes := [(0, { run := .search, stream := some 36 })] } }

theorem farLaneState_rivals : farLaneState.on 12 = true ∧ farLaneState.rivals 0 = [] := by decide +kernel

/-- Nothing has been counted, so the lane tunes to mode 0. -/
theorem farLaneState_tune : farLaneState.laneTune 0 = (0, 0) := by decide +kernel

/-- The mode of lane `n`'s frame after an instruction. -/
def modeAfter (n : Nat) : Host.Outcome State Fault Refusal → Option Nat
  | .next t => (t.lane n).frame.map RxFrame.mode
  | _ => none

/-- The preamble is counted first, and the frame's mode is read from the counter: 1. -/
theorem farLaneState_detects : modeAfter 0 (exec (.preambleDetect 0 0) farLaneState) = some 1 := by decide +kernel

/-- Refutes O25: lane 0 searches for stream 36 of port 2, whose register would be the port's COUNT[0]; the preamble counted
there makes the mode 1 that the lane tuned to as 0. -/
theorem not_laneReception : ¬ Obligations.LaneReception := by
  unfold Obligations.LaneReception
  intro h
  obtain ⟨hon, hrivals⟩ := farLaneState_rivals
  obtain ⟨hdetect, -⟩ := h 0 farLaneState hon
  obtain ⟨t, ht, hlane, -⟩ := (hdetect 0 rfl rfl).1 fun m hm => absurd (hrivals ▸ hm) List.not_mem_nil
  have hmode : modeAfter 0 (exec (.preambleDetect 0 0) farLaneState) = some (farLaneState.laneTune 0).2 := by
    rw [ht]
    exact congrArg (fun l : Lane => l.frame.map RxFrame.mode) hlane
  rw [farLaneState_detects, farLaneState_tune] at hmode
  exact absurd hmode (by decide)

end Sys2Proof.Machine
end

section
/-!
PROOFS: the hypotheses of O24, O26 and O27 are met, each clause shown at a boundary value, and what the statements then give.
-/
namespace Sys2Proof.Machine

open Sys2Proof

/-- Port 2's lanes as listed, and registers set. -/
def laneState (lanes : List (Nat × Lane)) (e : Effect) : State := { poweredPort.after e with bb := { lanes := lanes } }

/-! ### O24 -/

/-- Stream 30 of port 2 enabled on the port's last channel. -/
def enabledStream : Effect := seq [setFld (BB.STREAM_CHAN 2 30) 105, setFld (BB.STREAM_EN 2 30) 1]

/-- The last stream of the port, on its last channel. -/
theorem poweredPort_streams : Answers (.streamEnable 2 31 105 0) poweredPort (fun t => t.flag (BB.STREAM_EN 2 31) = true) := by
  obtain ⟨hport, -⟩ := streamControl 2 31 105 0 poweredPort (by decide +kernel)
  obtain ⟨hidle, -⟩ := hport (by decide +kernel)
  obtain ⟨henable, -⟩ := hidle (by decide +kernel)
  obtain ⟨t, ht, hen, -⟩ := henable (by decide +kernel) (by decide +kernel) (by decide +kernel)
  exact ⟨t, ht, hen⟩

/-- One channel past the last. -/
theorem poweredPort_noChannel : Answers (.streamEnable 2 31 106 0) poweredPort (fun t => t.fld (BB.STREAM_ERR_CODE 2) = 1) := by
  obtain ⟨hport, -⟩ := streamControl 2 31 106 0 poweredPort (by decide +kernel)
  obtain ⟨hidle, -⟩ := hport (by decide +kernel)
  obtain ⟨-, -, hchan, -⟩ := hidle (by decide +kernel)
  obtain ⟨t, ht, -, -, hcode, -⟩ := hchan (by decide +kernel) (by decide +kernel)
  exact ⟨t, ht, hcode⟩

/-- Mode 1 is another port's. -/
theorem poweredPort_noMode : Answers (.streamEnable 2 31 105 1) poweredPort (fun t => t.fld (BB.STREAM_ERR_CODE 2) = 2) := by
  obtain ⟨hport, -⟩ := streamControl 2 31 105 1 poweredPort (by decide +kernel)
  obtain ⟨hidle, -⟩ := hport (by decide +kernel)
  obtain ⟨-, hmode, -⟩ := hidle (by decide +kernel)
  obtain ⟨t, ht, -, -, hcode, -⟩ := hmode (by decide +kernel) (by decide +kernel)
  exact ⟨t, ht, hcode⟩

theorem enabledStream_duplicated : Answers (.streamEnable 2 31 105 0) (laneState [] enabledStream) (fun t =>
    t.fld (BB.STREAM_ERR_CODE 2) = 3) := by
  obtain ⟨hport, -⟩ := streamControl 2 31 105 0 (laneState [] enabledStream) (by decide +kernel)
  obtain ⟨hidle, -⟩ := hport (by decide +kernel)
  obtain ⟨-, -, -, hdup, -⟩ := hidle (by decide +kernel)
  obtain ⟨t, ht, -, -, hcode, -⟩ := hdup (by decide +kernel) (by decide +kernel)
    ⟨30, by decide +kernel, by decide +kernel, by decide +kernel, by decide +kernel⟩
  exact ⟨t, ht, hcode⟩

theorem enabledStream_keeps : Answers (.streamEnable 2 30 104 0) (laneState [] enabledStream) (fun t =>
    t.fld (BB.STREAM_ERR_CODE 2) = 4) := by
  obtain ⟨hport, -⟩ := streamControl 2 30 104 0 (laneState [] enabledStream) (by decide +kernel)
  obtain ⟨-, hactive⟩ := hport (by decide +kernel)
  obtain ⟨hdiff, -⟩ := hactive (by decide +kernel)
  obtain ⟨t, ht, -, -, hcode, -⟩ := hdiff (by decide +kernel)
  exact ⟨t, ht, hcode⟩

/-- The port's last lane is in SYNC for the stream. -/
theorem enabledStream_releases : Answers (.streamDisable 2 30 105 0)
    (laneState [(47, { run := .sync, stream := some 30 })] enabledStream) (fun t => t.lane 47 = { run := .free }) := by
  obtain ⟨hport, -⟩ := streamControl 2 30 105 0 (laneState [(47, { run := .sync, stream := some 30 })] enabledStream)
    (by decide +kernel)
  obtain ⟨-, hactive⟩ := hport (by decide +kernel)
  obtain ⟨-, -, hdisable⟩ := hactive (by decide +kernel)
  obtain ⟨t, ht, -, -, hlanes⟩ := hdisable
  refine ⟨t, ht, (hlanes 47 (by decide)).trans ?_⟩
  decide +kernel

theorem freeLane_unique : ∀ n < 48, ((laneState [(47, { run := .free })] enabledStream).lane n).run = .free → n = 47 := by
  decide +kernel

theorem enabledStream_first : ∀ i < 30, (laneState [(47, { run := .free })] enabledStream).flag (BB.STREAM_EN 2 i) = false := by
  decide +kernel

/-- The port's last lane is its only FREE one, and stream 30 the only one enabled. -/
theorem enabledStream_attaches : Answers (.laneAttach 2) (laneState [(47, { run := .free })] enabledStream) (fun t =>
    t.lane 47 = { run := .search, stream := some 30 }) := by
  obtain ⟨-, -, hattach⟩ := streamControl 2 30 105 0 (laneState [(47, { run := .free })] enabledStream) (by decide +kernel)
  obtain ⟨hserves, -⟩ := hattach fun u => rfl
  obtain ⟨hbare, -⟩ := hserves 30 ⟨47, by decide +kernel⟩
  obtain ⟨t, ht, n, -, hlt, hfree, ⟨hlane, -⟩, -⟩ := hbare (by decide +kernel) fun i hi => by
    by_contra hlt
    have hoff := enabledStream_first i (by omega)
    exact Bool.false_ne_true (hoff.symm.trans hi.2.1)
  obtain rfl : n = 47 := freeLane_unique n hlt hfree
  exact ⟨t, ht, hlane⟩

theorem enabledStream_reports : Answers (.laneAttach 2) (laneState [] enabledStream) (fun t =>
    t.bb.noSearch.contains 94 = true) := by
  obtain ⟨-, -, hattach⟩ := streamControl 2 30 105 0 (laneState [] enabledStream) (by decide +kernel)
  obtain ⟨-, hnone⟩ := hattach fun u => rfl
  obtain ⟨t, ht, -, hreport, -⟩ := hnone 30 (by decide +kernel) fun n _ _ =>
    (by decide : LaneRun.off ≠ LaneRun.free)
  exact ⟨t, ht, hreport⟩

/-! ### O26 -/

/-- A frame of 240 bytes in the last buffer: with its record, 256. -/
def fullFrame (psdu : List Nat) : RxFrame :=
  { port := 0, chan := 36, mode := 15, peak := -1, agc := 7, buf := some 16383, len := 240, got := 240, psdu := psdu }

/-- FWD is enabled, and the last buffer is a chain of its own. -/
def takenBuffer : Effect := seq [setFld FWD.FWD_CTL_EN 1, putMem (metaAddr 16383) 4 takenMeta]

/-- The last lane has received the last byte of its frame. -/
def endedState (psdu : List Nat) : State := laneState [(95, { run := .receive, frame := some (fullFrame psdu) })] takenBuffer

/-- Bytes of 0 have an FCS of 0. -/
theorem endedState_delivers : Answers (.frameEnd 95 65536 65536 (-1) (-1)) (endedState (List.replicate 240 0)) (fun t =>
    t.fill 16383 = 256 ∧ t.byte (bufAddr 16383 + 247) = 95 ∧ t.mem' (bufAddr 16383 + 254) 2 = 65535) := by
  obtain ⟨hends, -⟩ := laneDelivery 95 (endedState (List.replicate 240 0)) (by decide +kernel)
  obtain ⟨hgood, -⟩ := hends 65536 65536 (-1) (-1) (fullFrame (List.replicate 240 0)) 16383 rfl rfl rfl (by decide) rfl
    List.length_replicate (by decide) (by decide) (by decide) (by decide +kernel) (by decide +kernel) (by decide)
    fun w hw => absurd hw List.not_mem_nil
  obtain ⟨t, ht, -, -, -, hfill, -, -, -, -, -, hlane, -, -, -, hpeak⟩ := hgood (by decide +kernel) (by decide +kernel) rfl
    (by decide +kernel)
  exact ⟨t, ht, hfill, hlane, hpeak⟩

/-- One bit differs. -/
theorem endedState_drops : Answers (.frameEnd 95 65536 65536 (-1) (-1)) (endedState (1 :: List.replicate 239 0)) (fun t =>
    (t.lane 95).frame = none ∧ t.fld (BB.COUNT_LO 0 1) = 1) := by
  obtain ⟨hends, -⟩ := laneDelivery 95 (endedState (1 :: List.replicate 239 0)) (by decide +kernel)
  obtain ⟨-, hbad⟩ := hends 65536 65536 (-1) (-1) (fullFrame (1 :: List.replicate 239 0)) 16383 rfl rfl rfl (by decide) rfl
    (by decide +kernel) (by decide) (by decide) (by decide) (by decide +kernel) (by decide +kernel) (by decide)
    fun w hw => absurd hw List.not_mem_nil
  obtain ⟨t, ht, hcounted, hgone, -⟩ := hbad (by decide +kernel) (by decide +kernel)
  exact ⟨t, ht, hgone, hcounted.trans (by decide +kernel)⟩

/-- The last lane is in DONE with room for one frame behind seven, and its queue has been full for 100 µs. -/
def doneState : State :=
  { laneState [(95, { run := .done, frame := some { fullFrame [] with fcsOk := true }, fullSince := some 0
                      outq := List.replicate 7 ⟨(fullFrame []).desc 0, true⟩ })] takenBuffer with acc := timeAt 100000 }

theorem doneState_releases : Answers (.outqRelease 95) doneState (fun t => (t.lane 95).outq.length = 8) := by
  obtain ⟨-, hrelease, -⟩ := laneDelivery 95 doneState (by decide +kernel)
  obtain ⟨t, ht, -, hq, -⟩ := hrelease { fullFrame [] with fcsOk := true } 16383 ⟨(fullFrame []).desc 0, true⟩
    (List.replicate 6 ⟨(fullFrame []).desc 0, true⟩) rfl rfl rfl (by decide) (fun w hw => absurd hw List.not_mem_nil) rfl
    (by decide +kernel) rfl (by decide) rfl rfl (by decide +kernel)
  exact ⟨t, ht, congrArg List.length hq⟩

theorem doneState_stalls : Answers (.outqStall 95) doneState (fun t => t.raised 36 95) := by
  obtain ⟨-, -, hstall⟩ := laneDelivery 95 doneState (by decide +kernel)
  obtain ⟨t, ht, -, hraised, -⟩ := hstall 0 rfl (by decide +kernel) (by decide +kernel)
  exact ⟨t, ht, hraised⟩

/-! ### O27 -/

/-- Port 2's last lane in a state of its own; a transmission of the port is on the air. -/
def blankingState (l : Lane) (blanked : List Nat) : State :=
  { poweredPort with bb := { lanes := [(47, l)], staged := [onPort2 0 .onAir], blanked := blanked } }

theorem blankingState_pauses : Answers (.rxBlankStart 2) (blankingState { run := .search, stream := some 31 } []) (fun t =>
    t.lane 47 = { run := .search, stream := some 31, paused := true }) := by
  obtain ⟨hport, -⟩ := blanksFaultsAndWindows (blankingState { run := .search, stream := some 31 } []) (by decide +kernel)
  obtain ⟨hstart, -⟩ := hport 2
  obtain ⟨t, ht, -, hlanes⟩ := hstart (by decide +kernel) rfl
  obtain ⟨hsearch, -⟩ := hlanes 47
  exact ⟨t, ht, hsearch (by decide) rfl⟩

/-- The transmission has gone. -/
def blankedState : State :=
  { poweredPort with bb := { lanes := [(47, { run := .search, stream := some 31, paused := true })], blanked := [2] } }

theorem blankedState_resumes : Answers (.rxBlankEnd 2) blankedState (fun t =>
    t.lane 47 = { run := .search, stream := some 31 }) := by
  obtain ⟨hport, -⟩ := blanksFaultsAndWindows blankedState (by decide +kernel)
  obtain ⟨-, hend, -⟩ := hport 2
  obtain ⟨t, ht, -, -, hlanes⟩ := hend (by decide +kernel)
  obtain ⟨hresume, -⟩ := hlanes 47
  exact ⟨t, ht, hresume (by decide)⟩

theorem blankingState_spoils : Answers (.sampleParityError 2 31)
    (blankingState { run := .receive, stream := some 31, frame := some (fullFrame []) } []) (fun t =>
      (t.lane 47).frame = none ∧ t.raised 38 7938) := by
  obtain ⟨hport, -⟩ := blanksFaultsAndWindows
    (blankingState { run := .receive, stream := some 31, frame := some (fullFrame []) } []) (by decide +kernel)
  obtain ⟨-, -, hparity⟩ := hport 2
  obtain ⟨t, ht, hraised, hlanes⟩ := hparity 31 (by decide) (by decide +kernel)
  obtain ⟨hspoiled, -⟩ := hlanes 47 (by decide)
  exact ⟨t, ht, hspoiled (by decide +kernel) (.inr rfl), hraised⟩

theorem blankingState_fails : Answers (.laneCheckFail 47) (blankingState { run := .search, stream := some 31 } []) (fun t =>
    t.lane 47 = { run := .off, broken := true } ∧ t.raised 39 47) := by
  obtain ⟨-, hlane⟩ := blanksFaultsAndWindows (blankingState { run := .search, stream := some 31 } []) (by decide +kernel)
  obtain ⟨hfail, -⟩ := hlane 47
  obtain ⟨t, ht, hraised, hoff, -⟩ := hfail (by decide +kernel)
  exact ⟨t, ht, hoff, hraised⟩

/-- A window of a LISTEN from instant 1 for 1 ns. -/
def shortWindow (opened : Bool) : Window := { from_ := 1#64, dur := 1, chan := 23, mode := 0, byListen := true, opened := opened }

/-- The last lane of port 2 with that window, at instant `now`; ring 0 is enabled with a depth of 16. -/
def windowState (run : LaneRun) (opened : Bool) (now : Nat) : State :=
  { laneState [(47, { run := run, windows := [shortWindow opened] })] (seq [setFld (TM.RING_CTL_EN 0) 1, setFld (TM.RING_CFG_DEPTH 0) 4])
    with acc := timeAt now }

theorem windowState_opens : Answers (.listenWindowOpen 47) (windowState .off false 1) (fun t => (t.lane 47).run = .search) := by
  obtain ⟨-, hlane⟩ := blanksFaultsAndWindows (windowState .off false 1) (by decide +kernel)
  obtain ⟨-, hwindow⟩ := hlane 47
  obtain ⟨hopen, -⟩ := hwindow (shortWindow false) [] rfl
  obtain ⟨t, ht, -, -, -, hsearch, -⟩ := hopen rfl (by decide +kernel) rfl rfl
  exact ⟨t, ht, congrArg Lane.run hsearch⟩

/-- At its end the window waits for the frame that the lane receives. -/
theorem windowState_waits : Answers (.listenWindowClose 47) (windowState .receive true 2) (fun t =>
    (t.lane 47).run = .receive ∧ (t.lane 47).windows = [{ shortWindow true with closed := true }]) := by
  obtain ⟨-, hlane⟩ := blanksFaultsAndWindows (windowState .receive true 2) (by decide +kernel)
  obtain ⟨-, hwindow⟩ := hlane 47
  obtain ⟨-, hclose⟩ := hwindow (shortWindow true) [] rfl
  obtain ⟨hwaits, -⟩ := hclose rfl rfl (by decide +kernel)
  obtain ⟨t, ht, -, hclosed, -⟩ := hwaits (.inr (.inl rfl))
  exact ⟨t, ht, congrArg Lane.run hclosed, congrArg Lane.windows hclosed⟩

theorem windowState_ends : Answers (.listenWindowClose 47) (windowState .search true 2) (fun t =>
    (t.lane 47).run = .off ∧ (t.ring 0).q.length = 1) := by
  obtain ⟨-, hlane⟩ := blanksFaultsAndWindows (windowState .search true 2) (by decide +kernel)
  obtain ⟨-, hwindow⟩ := hlane 47
  obtain ⟨-, hclose⟩ := hwindow (shortWindow true) [] rfl
  obtain ⟨-, hends⟩ := hclose rfl rfl (by decide +kernel)
  have hring : (windowState .search true 2).fld BB.LISTEN_RING_RING = 0 := by decide +kernel
  obtain ⟨t, ht, hoff, -, -, hpushed⟩ := hends rfl rfl (by rw [hring]; exact ⟨by decide +kernel, rfl, rfl⟩)
  rw [Pushed, hring] at hpushed
  exact ⟨t, ht, hoff, congrArg List.length hpushed⟩

end Sys2Proof.Machine
end

section
/-!
PROOFS: what MAC sees of the state, and the work of the other blocks that it does not see: events, freed chains, windows
withdrawn from lanes (R234, R295, R598).
-/
namespace Sys2Proof.Machine

open Sys2Proof

/-! ### MAC's view -/

/-- What MAC's own operations read: its working state, the registers of its window, PD_CORE's power, ATB, and the staged
transmissions. -/
structure MacSide where
  mac : Mac
  reg : Nat → Word
  on : Bool
  ns : Nat
  staged : List Staged

def State.macSide (s : State) : MacSide :=
  { mac := s.mac, reg := fun k => s.reg (0x40020000 + k % 0x10000), on := s.on 2, ns := s.ns, staged := s.bb.staged }

section
variable {s t : State} (h : t.macSide = s.macSide)
include h

theorem mac_of_macSide : t.mac = s.mac := congrArg MacSide.mac h
theorem on_of_macSide : t.on 2 = s.on 2 := congrArg MacSide.on h
theorem ns_of_macSide : t.ns = s.ns := congrArg MacSide.ns h
theorem staged_of_macSide : t.bb.staged = s.bb.staged := congrArg MacSide.staged h

theorem reg_of_macSide {k : Nat} (hk : k / 0x10000 = 0x4002) : t.reg k = s.reg k := by
  have hreg := congrFun (congrArg MacSide.reg h) k
  have hkey : 0x40020000 + k % 0x10000 = k := by omega
  simpa only [State.macSide, hkey] using hreg

theorem fld_of_macSide {g : Fld} (hg : g.addr / 0x10000 = 0x4002) : t.fld g = s.fld g :=
  fld_eq_of_reg (reg_of_macSide h hg)

theorem flag_of_macSide {g : Fld} (hg : g.addr / 0x10000 = 0x4002) : t.flag g = s.flag g :=
  flag_eq_of_reg (reg_of_macSide h hg)

end

/-- MAC does not see a register of another window, PD_CORE's state apart. -/
theorem macSide_apply_reg (s : State) {k : Nat} (v : Word) (hk : k / 0x10000 ≠ 0x4002) (hon : k ≠ PLT.PD_STATE_LO) :
    (s.apply (.reg k v)).macSide = s.macSide := by
  have hreg : ∀ j, (s.apply (.reg k v)).reg (0x40020000 + j % 0x10000) = s.reg (0x40020000 + j % 0x10000) := fun j =>
    reg_apply_ne s k _ v (by omega)
  have hpower : (s.apply (.reg k v)).on 2 = s.on 2 := on_two_of_reg (reg_apply_ne s k _ v (Ne.symm hon))
  simp only [State.macSide, hreg, hpower]
  rfl

theorem skipsEvents_macSide : SkipsEvents State.macSide where
  reg t k v hk := macSide_apply_reg t v (by rcases hk with rfl | hk; · decide
                                            · omega) (by rintro rfl; revert hk; decide)
  evt _ _ := rfl
  plt _ _ := rfl

theorem keeps_setFld_macSide {g : Fld} (hg : g.addr / 0x10000 ≠ 0x4002) (hon : g.addr ≠ PLT.PD_STATE_LO) (v : Nat) :
    Keeps State.macSide (setFld g v) := fun s => macSide_apply_reg s _ hg hon

theorem keeps_count_macSide {g : Fld} (hg : g.addr / 0x10000 ≠ 0x4002) (hon : g.addr ≠ PLT.PD_STATE_LO) :
    Keeps State.macSide (count g) := fun s => macSide_apply_reg s _ hg hon

theorem keeps_fire_macSide {n : Nat} (hn : n < 96) (arg : Nat) : Keeps State.macSide (fire n arg) :=
  keeps_fire skipsEvents_macSide hn arg

theorem keeps_fireFirst_macSide (a cause : Nat) {n : Nat} (hn : n < 96) (arg : Nat) :
    Keeps State.macSide (fireFirst a cause n arg) :=
  keeps_ask fun _ => keeps_ite (keeps_nothing _) (keeps_seq_cons (fun _ => rfl) (keeps_seq_cons (keeps_fire_macSide hn arg)
    (keeps_seq_nil _)))

/-! ### Chains freed (R295) -/

theorem keeps_chainErrorAlways_macSide (b cause : Nat) : Keeps State.macSide (chainErrorAlways b cause) :=
  keeps_seq_cons (keeps_count_macSide (by decide) (by decide)) (keeps_seq_cons (keeps_fire_macSide (by omega) _)
    (keeps_seq_nil _))

theorem keeps_freeChain_macSide (b : Nat) : Keeps State.macSide (freeChain b) :=
  keeps_ask fun _ => keeps_ite (keeps_count_macSide (by decide) (by decide)) (keeps_ite (keeps_chainErrorAlways_macSide _ _)
    (keeps_seq_cons (keeps_forEach fun _ _ => keeps_setHolder (fun _ _ _ => rfl) _ _) (keeps_seq_cons
      (keeps_setFree skipsEvents_macSide (fun t v => macSide_apply_reg t v (by decide) (by decide)) _) (keeps_seq_cons
      (keeps_when (keeps_chainErrorAlways_macSide _ _)) (keeps_seq_nil _)))))

theorem keeps_freeDesc_macSide (d : Desc) : Keeps State.macSide (freeDesc d) := keeps_when (keeps_freeChain_macSide _)

/-! ### Properties that an effect preserves -/

theorem preserves_of_keeps {α : Type} {f : State → α} {e : Effect} (h : Keeps f e) (v : α) : Preserves (fun t => f t = v) e :=
  fun s hs => (h s).trans hs

theorem keeps_of_preserves {α : Type} {f : State → α} {e : Effect} (h : ∀ v, Preserves (fun t => f t = v) e) : Keeps f e :=
  fun s => h (f s) s rfl

theorem preserves_nothing (P : State → Prop) : Preserves P nothing := fun _ h => h

theorem preserves_ask {P : State → Prop} {g : State → Effect} (h : ∀ s, Preserves P (g s)) : Preserves P (ask g) :=
  fun s => h s s

theorem preserves_ite {P : State → Prop} {p : Prop} [Decidable p] {a b : Effect} (ha : Preserves P a) (hb : Preserves P b) :
    Preserves P (if p then a else b) := by
  split
  · exact ha
  · exact hb

theorem preserves_forEach {α : Type} {P : State → Prop} {l : List α} {e : α → Effect} (h : ∀ x ∈ l, Preserves P (e x)) :
    Preserves P (forEach l e) := by
  intro s hs
  induction l generalizing s with
  | nil => exact hs
  | cons x l ih =>
    rw [after_forEach_cons]
    exact ih (fun y hy => h y (List.mem_cons_of_mem _ hy)) _ (h x (List.mem_cons_self ..) s hs)

/-! ### Windows withdrawn from lanes (R201, R234) -/

/-- The property `P` outlasts a change of a lane, of a comparator, and the event of a port's last lane (R216). -/
structure OutlastsLanes (P : State → Prop) : Prop where
  lane : ∀ n g, Preserves P (setLane n g)
  comp : ∀ i g, Preserves P (setComp i g)
  off : ∀ arg, Preserves P (fire 37 arg)

namespace OutlastsLanes
variable {P : State → Prop} (hP : OutlastsLanes P)
include hP

theorem armWindow (n : Nat) : Preserves P (armWindow n) := by
  refine preserves_ask fun s => ?_
  split
  · exact hP.comp _ _
  · refine preserves_ite (hP.comp _ _) ?_
    split <;> exact hP.comp _ _

theorem portLanesOff (p : Nat) : Preserves P (portLanesOff p) := preserves_ask fun _ => preserves_when (hP.off p)

/-- A window that LISTEN did not open ends without a completion. -/
theorem endWindow {s : State} {n status : Nat} {w : Window} {ws : List Window} (hw : (s.lane n).windows = w :: ws)
    (hmac : w.byListen = false) (hs : P s) : P (s.after (endWindow n status)) := by
  have hend : ∀ past g, Preserves P (seq [windowCompletion n status past w, setLane n g, Machine.armWindow n,
      Machine.portLanesOff (lanePort n)]) := fun past g =>
    preserves_seq_cons (preserves_ask fun _ => by rw [hmac]; exact preserves_nothing P) (preserves_seq_cons (hP.lane n g)
      (preserves_seq_cons (hP.armWindow n) (preserves_seq_cons (hP.portLanesOff _) (preserves_seq_nil P))))
  rw [Machine.endWindow, after_ask, hw]
  exact hend _ _ s hs

theorem dropWindow (n : Nat) (t : Instant) : Preserves P (dropWindow n t) := by
  intro s hs
  rw [Machine.dropWindow, after_ask]
  dsimp only
  split
  · exact hs
  · next w ws hw =>
    rw [after_ite]
    split
    case isTrue h =>
      have hmac : w.byListen = false := by simp at h; exact h.2
      rw [after_ite]
      split
      · exact hP.endWindow hw hmac hs
      · exact hP.lane n _ s hs
    case isFalse =>
      exact preserves_seq_cons (hP.lane n _) (preserves_seq_cons (hP.armWindow n) (preserves_seq_nil P)) s hs

end OutlastsLanes

theorem keeps_dropWindow_macSide (n : Nat) (t : Instant) : Keeps State.macSide (dropWindow n t) :=
  keeps_of_preserves fun v => (⟨fun _ _ => preserves_of_keeps (fun _ => rfl) v, fun _ _ => preserves_of_keeps (fun _ => rfl) v,
    fun arg => preserves_of_keeps (keeps_fire_macSide (by omega) arg) v⟩ : OutlastsLanes fun s => s.macSide = v).dropWindow n t

theorem keeps_dropWindow_cores (n : Nat) (t : Instant) : Keeps State.cores (dropWindow n t) :=
  keeps_of_preserves fun v => (⟨fun _ _ => preserves_of_keeps (fun _ => rfl) v, fun _ _ => preserves_of_keeps (fun _ => rfl) v,
    fun arg => preserves_of_keeps (keeps_fire skipsEvents_cores (by omega) arg) v⟩ :
      OutlastsLanes fun s => s.cores = v).dropWindow n t

theorem outlastsLanes_onAndRaised {n : Nat} (arg : Nat) (hn : n ≠ 37) : OutlastsLanes (OnAndRaised n arg) where
  lane _ _ _ hs := onAndRaised_of_queue hs rfl rfl
  comp _ _ _ hs := onAndRaised_of_queue hs rfl rfl
  off _ := preserves_fire hn (by omega)

end Sys2Proof.Machine
end

section
/-!
PROOFS: node operations (O29). Records in the node cache, the watches of a node, and what ALLOC, RELEASE, FLUSH and LOAD
leave.
-/
namespace Sys2Proof.Machine

open Sys2Proof

/-! ### Records in the node cache (R227) -/

theorem after_setMac (s : State) (f : Mac → Mac) : s.after (setMac f) = { s with mac := f s.mac } := rfl

/-- A record written: the node cache, and the twin's list of changed records. -/
theorem after_putNode (s : State) (i : Nat) (n : Node) : s.after (putNode i n) = { s with
    mac := { s.mac with cache := insertKey s.mac.cache i n }, twn := (s.after (putNode i n)).twn } := by
  rw [putNode, after_seq_cons, after_seq_cons, after_seq_nil, markNode, after_ask, after_when]
  split <;> rfl

theorem mac_putNode (s : State) (i : Nat) (n : Node) :
    (s.after (putNode i n)).mac = { s.mac with cache := insertKey s.mac.cache i n } := by rw [after_putNode]

/-- What sees neither MAC's working state nor the twin's sees no record written. -/
theorem keeps_putNode {α : Type} {f : State → α} (hmac : ∀ (t : State) x, f (t.apply (.mac x)) = f t)
    (htwn : ∀ (t : State) x, f (t.apply (.twn x)) = f t) (i : Nat) (n : Node) : Keeps f (putNode i n) :=
  keeps_seq_cons (fun s => hmac s _) (keeps_seq_cons (keeps_ask fun _ => keeps_when fun s => htwn s _) (keeps_seq_nil f))

section
variable {s : State} {i : Nat} {n : Node} (h : find s.mac.cache i = some n)
include h

theorem after_withNode (k : Node → Effect) : s.after (withNode i k) = s.after (k n) := by
  rw [withNode, after_ask, h]

theorem after_mapNode (f : Node → Node) : s.after (mapNode i f) = s.after (putNode i (f n)) := by
  rw [mapNode, after_ask, h]

end

theorem find_insertKey_self {α : Type} (m : List (Nat × α)) (k : Nat) (v : α) : find (insertKey m k v) k = some v := by
  rw [find_insertKey, if_pos rfl]

theorem find_insertKey_ne {α : Type} (m : List (Nat × α)) {k j : Nat} (v : α) (h : j ≠ k) :
    find (insertKey m k v) j = find m j := by
  rw [find_insertKey, if_neg h]

theorem getD_eraseKey_self {α : Type} (m : List (Nat × α)) (k : Nat) (d : α) : getD (eraseKey m k) k d = d := by
  rw [getD, find_eraseKey, if_pos rfl]
  rfl

/-! ### The watches of a node (R233, R236) -/

/-- MAC's side of the state, but for its watches. -/
def State.sansWatches (s : State) : MacSide := { s.macSide with mac := { s.mac with watches := [] } }

/-- A watch leaves the list. -/
def eraseWatch (x : Watch) : Effect := setMac fun m => { m with watches := m.watches.erase x }

theorem mac_of_sansWatches {s t : State} (h : t.sansWatches = s.sansWatches) :
    t.mac = { s.mac with watches := t.mac.watches } := by
  have hmac := congrArg (fun v : MacSide => { v.mac with watches := t.mac.watches }) h
  exact hmac

/-- A watch of a cached node ends: it leaves the list, and its window, if it has one, is withdrawn. -/
theorem after_endWatch {s : State} {x : Watch} {n : Node} (h : find s.mac.cache x.nidx = some n) :
    s.after (endWatch x) = s.after (eraseWatch x) ∨ ∃ l t, s.after (endWatch x) = (s.after (eraseWatch x)).after (dropWindow l t) := by
  have hcache : find (s.after (eraseWatch x)).mac.cache x.nidx = some n := h
  rw [endWatch, ← eraseWatch, after_seq_cons, after_seq_cons, after_seq_nil]
  cases x.lane with
  | none =>
    left
    rw [after_nothing]
  | some l =>
    right
    refine ⟨l, BitVec.ofInt 64 ((s.after (eraseWatch x)).watchFrom n x), ?_⟩
    dsimp only
    rw [after_withNode hcache, after_ask]

section
variable {P : State → Prop} {i : Nat} (hdrop : ∀ l a, Preserves P (dropWindow l a))
  (herase : ∀ x, Preserves P (eraseWatch x)) (hcached : ∀ s, P s → ∃ n, find s.mac.cache i = some n)
include hdrop herase hcached

theorem preserves_endWatch {x : Watch} (hx : x.nidx = i) : Preserves P (endWatch x) := fun s hs => by
  obtain ⟨n, hn⟩ := hcached s hs
  rcases after_endWatch (x := x) (by rw [hx]; exact hn) with h | ⟨l, t, h⟩
  · rw [h]
    exact herase x s hs
  · rw [h]
    exact hdrop l t _ (herase x s hs)

theorem preserves_endWatches (all : Bool) : Preserves P (endWatches i all) :=
  preserves_ask fun s => preserves_forEach fun x hx => preserves_endWatch hdrop herase hcached (by
    have hmine := (List.mem_filter.1 hx).2
    simp at hmine
    exact hmine.1)

end

/-- A list without those of its elements that satisfy `p`. -/
theorem diff_filter {α : Type} [DecidableEq α] (p : α → Bool) (l : List α) : l.diff (l.filter p) = l.filter fun x => !p x := by
  induction l with
  | nil => rfl
  | cons a l ih =>
    cases h : p a
    · have hnot : a ∉ l.filter p := fun hmem => by
        rw [(List.mem_filter.1 hmem).2] at h
        exact Bool.noConfusion h
      rw [List.filter_cons_of_neg (by simp [h]), List.filter_cons_of_pos (by simp [h]), List.cons_diff_of_not_mem hnot, ih]
    · rw [List.filter_cons_of_pos h, List.filter_cons_of_neg (by simp [h]), List.diff_cons, List.erase_cons_head, ih]

section
variable {s : State} {i : Nat} {n : Node} (h : find s.mac.cache i = some n) (all : Bool)
include h

theorem sansWatches_endWatches : (s.after (endWatches i all)).sansWatches = s.sansWatches :=
  preserves_endWatches (P := fun t => t.sansWatches = s.sansWatches)
    (fun l a => preserves_of_keeps (fun u => congrArg (fun v : MacSide => { v with mac := { v.mac with watches := [] } })
      (keeps_dropWindow_macSide l a u)) _)
    (fun _ => preserves_of_keeps (fun _ => rfl) _)
    (fun _ ht => ⟨n, (congrArg (fun v : MacSide => find v.mac.cache i) ht).trans h⟩) all s rfl

theorem cores_endWatches : (s.after (endWatches i all)).cores = s.cores :=
  (preserves_endWatches (P := fun t => t.cores = s.cores ∧ t.mac.cache = s.mac.cache)
    (fun l a u hu => ⟨(keeps_dropWindow_cores l a u).trans hu.1,
      (congrArg (fun v : MacSide => v.mac.cache) (keeps_dropWindow_macSide l a u)).trans hu.2⟩)
    (fun _ _ hu => hu) (fun _ ht => ⟨n, ht.2 ▸ h⟩) all s ⟨rfl, rfl⟩).1

/-- The watches left are those of other nodes, and unless all end, the node's main one. -/
theorem watches_endWatches : (s.after (endWatches i all)).mac.watches =
    s.mac.watches.filter fun x => !(x.nidx = i && (all || x.alt)) := by
  have hfold : ∀ (l : List Watch) (t : State), (∀ x ∈ l, x.nidx = i) → find t.mac.cache i = some n →
      (t.after (forEach l endWatch)).mac.watches = t.mac.watches.diff l := fun l => by
    induction l with
    | nil => exact fun _ _ _ => (List.diff_nil _).symm
    | cons x l ih =>
      intro t hl hn
      have hmac : (t.after (endWatch x)).mac = (t.after (eraseWatch x)).mac := by
        rcases after_endWatch (x := x) (by rw [hl x (List.mem_cons_self ..)]; exact hn) with h | ⟨m, u, h⟩
        · rw [h]
        · rw [h, mac_of_macSide (keeps_dropWindow_macSide m u _)]
      rw [after_forEach_cons, ih _ (fun y hy => hl y (List.mem_cons_of_mem _ hy)) (by rw [hmac]; exact hn), hmac,
        List.diff_cons]
      rfl
  rw [endWatches, after_ask, hfold _ s (fun x hx => by
    have hmine := (List.mem_filter.1 hx).2
    simp at hmine
    exact hmine.1) h]
  exact diff_filter _ _

end

/-! ### The end of a node operation (R228) -/

theorem mac_setFld (s : State) (g : Fld) (v : Nat) : (s.after (setFld g v)).mac = s.mac := rfl

theorem after_nodeDone (s : State) (r : Nat) :
    s.after (nodeDone r) = (s.after (setFld MAC.NODE_OP_RESULT r)).after (setFld MAC.NODE_OP_BUSY 0) := by
  rw [nodeDone, after_seq_cons, after_seq_cons, after_seq_nil]

theorem mac_nodeDone (s : State) (r : Nat) : (s.after (nodeDone r)).mac = s.mac := by rw [after_nodeDone, mac_setFld, mac_setFld]

theorem mem_nodeDone (s : State) (r : Nat) : (s.after (nodeDone r)).mem = s.mem := by rw [after_nodeDone, mem_setFld, mem_setFld]

theorem cores_nodeDone (s : State) (r : Nat) : (s.after (nodeDone r)).cores = s.cores := by
  rw [after_nodeDone, cores_setFld, cores_setFld]

theorem reg_nodeDone (s : State) (r : Nat) {k : Nat} (hk : k ≠ MAC.NODE_OP) : (s.after (nodeDone r)).reg k = s.reg k := by
  have hne : k ≠ MAC.NODE_OP_BUSY.addr ∧ k ≠ MAC.NODE_OP_RESULT.addr := ⟨hk, hk⟩
  rw [after_nodeDone, after_setFld, reg_apply_ne _ _ _ _ hne.1, after_setFld, reg_apply_ne _ _ _ _ hne.2]

theorem busy_nodeDone (s : State) (r : Nat) : (s.after (nodeDone r)).flag MAC.NODE_OP_BUSY = false := by
  rw [after_nodeDone]
  exact flag_setFld_self _ MAC.NODE_OP 31 0 (by decide)

theorem result_nodeDone (s : State) {r : Nat} (hr : r < 8) : (s.after (nodeDone r)).fld MAC.NODE_OP_RESULT = r := by
  rw [after_nodeDone, fld_setFld_disjoint _ MAC.NODE_OP_BUSY MAC.NODE_OP_RESULT 0 rfl (.inr (by decide)) (by decide)
    (by decide) (by decide), fld_setFld _ _ _ (by decide) (by decide)]
  exact Nat.mod_eq_of_lt hr

/-- What a node operation leaves where its RESULT is `r` (R228): its own node's record aside, no cached record changed. -/
def NodeOpEnds (i r : Nat) (s t : State) : Prop := t.fld MAC.NODE_OP_RESULT = r ∧ t.flag MAC.NODE_OP_BUSY = false ∧
  ∀ j, j ≠ i → find t.mac.cache j = find s.mac.cache j

theorem nodeOpEnds_nodeDone {s u : State} {i r : Nat} (hr : r < 8) (h : ∀ j, j ≠ i → find u.mac.cache j = find s.mac.cache j) :
    NodeOpEnds i r s (u.after (nodeDone r)) :=
  ⟨result_nodeDone u hr, busy_nodeDone u r, by rw [mac_nodeDone]; exact h⟩

/-- A node operation has put its node into NODE_OP. -/
structure NodeOpStarts (s u : State) : Prop where
  mac : u.mac = s.mac
  mem : u.mem = s.mem
  cores : u.cores = s.cores
  plt : u.plt = s.plt
  reg : ∀ k, k ≠ MAC.NODE_OP → u.reg k = s.reg k

namespace NodeOpStarts
variable {s u : State} (h : NodeOpStarts s u)
include h

theorem fld {g : Fld} (hg : g.addr ≠ MAC.NODE_OP) : u.fld g = s.fld g := fld_eq_of_reg (h.reg _ hg)

theorem flag {g : Fld} (hg : g.addr ≠ MAC.NODE_OP) : u.flag g = s.flag g := flag_eq_of_reg (h.reg _ hg)

theorem regN {k : Nat} (hk : k ≠ MAC.NODE_OP) : u.regN k = s.regN k := congrArg BitVec.toNat (h.reg k hk)

theorem nodeAddr (i : Nat) : u.nodeAddr i = s.nodeAddr i := by
  rw [State.nodeAddr, State.nodeAddr, h.fld (by decide), h.fld (by decide)]

theorem dramTop : u.dramTop = s.dramTop := by
  rw [State.dramTop, State.dramTop, h.fld (by decide), h.flag (by decide)]

theorem dramReady : u.dramReady = s.dramReady := by
  have hon : u.on 17 = s.on 17 := by
    simp only [State.on, State.domain, h.regN (k := PLT.PD_STATE_LO) (by decide), h.regN (k := PLT.PD_STATE_HI) (by decide)]
    rfl
  rw [State.dramReady, State.dramReady, h.fld (by decide), h.plt, hon]

/-- A refused operation changes NODE_OP alone. -/
theorem refuses {i r : Nat} (hr : r < 8) : NodeOpEnds i r s (u.after (nodeDone r)) ∧ (u.after (nodeDone r)).mac = s.mac ∧
    (u.after (nodeDone r)).mem = s.mem :=
  ⟨nodeOpEnds_nodeDone hr fun _ _ => by rw [h.mac], by rw [mac_nodeDone, h.mac], by rw [mem_nodeDone, h.mem]⟩

end NodeOpStarts

theorem mac_setMac (s : State) (f : Mac → Mac) : (s.after (setMac f)).mac = f s.mac := rfl

theorem cores_setMac (s : State) (f : Mac → Mac) : (s.after (setMac f)).cores = s.cores := rfl

theorem mac_setKey (s : State) (f : Key → Key) : (s.after (setKey f)).mac = s.mac := rfl

theorem cores_setKey (s : State) (f : Key → Key) : (s.after (setKey f)).cores = s.cores := rfl

theorem mac_mapNode {s : State} {i : Nat} {n : Node} (h : find s.mac.cache i = some n) (f : Node → Node) :
    (s.after (mapNode i f)).mac = { s.mac with cache := insertKey s.mac.cache i (f n) } := by
  rw [after_mapNode h, mac_putNode]

theorem cores_mapNode {s : State} {i : Nat} {n : Node} (h : find s.mac.cache i = some n) (f : Node → Node) :
    (s.after (mapNode i f)).cores = s.cores := by
  rw [after_mapNode h]
  exact keeps_putNode (fun _ _ => rfl) (fun _ _ => rfl) _ _ s

section
variable {s : State} {i : Nat} {n : Node} (hn : find s.mac.cache i = some n)
include hn

/-- A node operation on a cached node goes on with its record, NODE_OP naming the node. -/
theorem after_nodeOp (k : Node → Effect) :
    ∃ u, NodeOpStarts s u ∧ s.after (seq [setFld MAC.NODE_OP_NIDX i, withNode i k]) = u.after (k n) := by
  refine ⟨s.after (setFld MAC.NODE_OP_NIDX i), ⟨mac_setFld .., mem_setFld .., cores_setFld .., rfl, fun j hj => ?_⟩, ?_⟩
  · have hne : j ≠ MAC.NODE_OP_NIDX.addr := hj
    rw [after_setFld, reg_apply_ne _ _ _ _ hne]
  · rw [after_seq_cons, after_seq_cons, after_seq_nil, after_withNode (by rw [mac_setFld]; exact hn)]

/-! ### ALLOC -/

/-- The record that ALLOC writes. -/
def State.allocated (s : State) : Node := {
  eui := s.pair MAC.NODE_ARG0 MAC.NODE_ARG1, state := 1, port := s.fld MAC.NODE_ARG2_PORT
  mode := s.fld MAC.NODE_ARG2_MODE, chan := s.fld MAC.NODE_ARG2_CHAN, txpwr := s.fld MAC.NODE_ARG2_TXPWR
  interval := s.fld MAC.NODE_ARG3_INTERVAL, dev := s.fld MAC.MISS_CFG_DEV_INIT * 10
  dlHead := 0xFFFFFFFF, dlTail := 0xFFFFFFFF, calEntry := 0xFFFFFFFF }

omit hn in
theorem NodeOpStarts.allocated {u : State} (h : NodeOpStarts s u) : u.allocated = s.allocated := by
  rw [State.allocated, State.pair, h.regN (by decide), h.regN (by decide), h.fld (by decide), h.fld (by decide),
    h.fld (by decide), h.fld (by decide), h.fld (by decide), h.fld (by decide)]
  rfl

theorem nodeAlloc_refuses (hstate : n.state ≠ 0) : NodeOpEnds i 2 s (s.after (nodeAlloc i)) ∧
    (s.after (nodeAlloc i)).mac = s.mac ∧ (s.after (nodeAlloc i)).mem = s.mem := by
  obtain ⟨u, hu, hop⟩ := after_nodeOp hn _
  rw [nodeAlloc, hop, after_ask, if_pos hstate]
  exact hu.refuses (by decide)

theorem nodeAlloc_frees (hstate : n.state = 0) : NodeOpEnds i 0 s (s.after (nodeAlloc i)) ∧
    (s.after (nodeAlloc i)).mem = s.mem ∧ (s.after (nodeAlloc i)).cores = s.cores ∧
    find (s.after (nodeAlloc i)).mac.cache i = some s.allocated := by
  obtain ⟨u, hu, hop⟩ := after_nodeOp hn _
  rw [nodeAlloc, hop, after_ask, if_neg (not_not_intro hstate), after_seq_cons, after_seq_cons, after_seq_cons, after_seq_nil]
  have hput := after_putNode u i u.allocated
  rw [State.allocated] at hput
  rw [hput, after_setMac, mac_nodeDone, mem_nodeDone, cores_nodeDone, hu.mem, hu.cores, hu.mac]
  refine ⟨nodeOpEnds_nodeDone (by decide) fun j hj => find_insertKey_ne _ _ hj, rfl, rfl, ?_⟩
  rw [find_insertKey_self, ← hu.allocated]
  rfl

/-! ### RELEASE -/

theorem nodeRelease_refuses (hstate : n.state = 0) : NodeOpEnds i 3 s (s.after (nodeRelease i)) ∧
    (s.after (nodeRelease i)).mac = s.mac ∧ (s.after (nodeRelease i)).mem = s.mem := by
  obtain ⟨u, hu, hop⟩ := after_nodeOp hn _
  rw [nodeRelease, hop, after_ask, if_pos hstate]
  exact hu.refuses (by decide)

/-- The record that RELEASE leaves. -/
def Node.released (n : Node) : Node :=
  { n with state := 0, dlCount := 0, calEntry := 0xFFFFFFFF, dlHead := 0xFFFFFFFF, dlTail := 0xFFFFFFFF }

/-- MAC's working state after a RELEASE. -/
def Mac.released (m : Mac) (i : Nat) (n : Node) : Mac := { m with
  watches := m.watches.filter fun x => !(x.nidx = i && true), calendar := m.calendar.filter fun e => e.nidx ≠ i
  downlink := eraseKey m.downlink i, bursts := eraseKey m.bursts i, search := m.search.filter (· ≠ i)
  synced := eraseKey m.synced i, meas := eraseKey m.meas i, cache := insertKey m.cache i n.released }

theorem after_nodeRelease (hstate : n.state ≠ 0) : ∃ u : State, u.mac = s.mac.released i n ∧ u.cores = s.cores ∧
    s.after (nodeRelease i) = u.after (nodeDone 0) := by
  obtain ⟨u, hu, hop⟩ := after_nodeOp hn _
  have hnu : find u.mac.cache i = some n := by rw [hu.mac]; exact hn
  have hwatch : (u.after (endWatches i true)).mac = { s.mac with watches := s.mac.watches.filter fun x => !(x.nidx = i && true) } := by
    rw [mac_of_sansWatches (sansWatches_endWatches hnu true), watches_endWatches hnu true, hu.mac]
    simp only [Bool.true_or]
  have hfree : Keeps State.macSide (forEach (u.dlRing i) fun f => freeDesc f.d) := keeps_forEach fun _ _ => keeps_freeDesc_macSide _
  have hcores : Keeps State.cores (forEach (u.dlRing i) fun f => freeDesc f.d) := keeps_forEach fun _ _ =>
    keeps_when (keeps_freeChain skipsEvents_cores (fun _ _ _ => rfl) (fun _ _ _ => rfl) _)
  rw [nodeRelease, hop, after_ask, if_neg hstate]
  iterate 7 rw [after_seq_cons]
  rw [after_seq_nil]
  refine ⟨_, ?_, ?_, rfl⟩
  · rw [mac_setKey, mac_mapNode (n := n) (by
      rw [mac_setMac, mac_of_macSide (hfree _), unfile, mac_setMac, hwatch]
      exact hn), mac_setMac, mac_of_macSide (hfree _), unfile, mac_setMac, hwatch]
    rfl
  · rw [cores_setKey, cores_mapNode (n := n) (by
      rw [mac_setMac, mac_of_macSide (hfree _), unfile, mac_setMac, hwatch]
      exact hn), cores_setMac, hcores, unfile, cores_setMac, cores_endWatches hnu true, hu.cores]

theorem nodeRelease_frees (hstate : n.state ≠ 0) : NodeOpEnds i 0 s (s.after (nodeRelease i)) ∧
    (s.after (nodeRelease i)).mac = s.mac.released i n ∧ (s.after (nodeRelease i)).cores = s.cores := by
  obtain ⟨u, hmac, hcores, hu⟩ := after_nodeRelease hn hstate
  rw [hu, mac_nodeDone, cores_nodeDone]
  exact ⟨nodeOpEnds_nodeDone (by decide) fun j hj => by rw [hmac]; exact find_insertKey_ne _ _ hj, hmac, hcores⟩

omit hn in
theorem mac_released_entries (m : Mac) (i : Nat) (n : Node) : getD (m.released i n).downlink i [] = [] ∧
    (∀ e ∈ (m.released i n).calendar, e.nidx ≠ i) ∧ (∀ w ∈ (m.released i n).watches, w.nidx ≠ i) ∧
    find (m.released i n).cache i = some n.released :=
  ⟨getD_eraseKey_self _ _ _, fun _ he => of_decide_eq_true (List.mem_filter.1 he).2,
    fun _ hw => by simpa using (List.mem_filter.1 hw).2, find_insertKey_self _ _ _⟩

/-! ### FLUSH -/

theorem nodeFlush_refuses (hstate : n.state = 0) : NodeOpEnds i 3 s (s.after (nodeFlush i)) ∧
    (s.after (nodeFlush i)).mac = s.mac ∧ (s.after (nodeFlush i)).mem = s.mem := by
  obtain ⟨u, hu, hop⟩ := after_nodeOp hn _
  rw [nodeFlush, hop, if_pos hstate]
  exact hu.refuses (by decide)

end

theorem keeps_dramTouch {α : Type} {f : State → α} (hddr : ∀ (t : State) x, f (t.apply (.ddr x)) = f t)
    (hself : ∀ v, Keeps f (setFld DDR.DDR_STATUS_SELFREF v)) : Keeps f dramTouch :=
  keeps_ask fun _ => keeps_seq_cons (fun s => hddr s _) (keeps_seq_cons
    (keeps_when (keeps_seq_cons (hself _) (keeps_seq_cons (fun s => hddr s _) (keeps_seq_nil f)))) (keeps_seq_nil f))

theorem after_ddr (s : State) (f : State → Ddr) : s.after (fun s => [.ddr (f s)]) = s.apply (.ddr (f s)) := rfl

/-- A write to DRAM that answers puts its bytes there. -/
theorem after_writeMem_dram {s : State} {a : Nat} {l : List Nat} (hr : regionOf a = .dram) (hle : a + l.length ≤ s.dramTop)
    (hready : s.dramReady = true) (bad ok : Effect) :
    ∃ x, s.after (writeMem a l bad ok) = (((s.after dramTouch).after (putBytes a l)).apply (.ddr x)).after ok := by
  rw [writeMem, after_ask, hr]
  dsimp only
  rw [if_neg (not_lt.2 hle), if_neg (show ¬(!s.dramReady) = true by rw [hready]; decide)]
  iterate 4 rw [after_seq_cons]
  rw [after_seq_nil, after_ddr]
  exact ⟨_, rfl⟩

theorem nodeBytes_length (n : Node) : (nodeBytes n).length = 128 := by
  delta nodeBytes
  simp only [List.length_append, leBytes_length, List.length_cons, List.length_nil, List.length_replicate]

theorem bytes_putBytes (s : State) (a : Nat) (l : List Nat) : (s.after (putBytes a l)).bytes a l.length = l.map (· % 256) := by
  refine List.ext_getElem (by rw [bytes_length, List.length_map]) fun j hj _ => ?_
  rw [bytes_length] at hj
  have hbyte := byte_putBytes s a l j hj
  rw [List.getD_eq_getElem _ _ hj] at hbyte
  simpa [State.bytes] using hbyte

/-- A record written back to DRAM. -/
theorem writeBack_writes {s : State} {i : Nat} {n : Node} (hn : find s.mac.cache i = some n)
    (hr : regionOf (s.nodeAddr i) = .dram) (hle : s.nodeAddr i + 128 ≤ s.dramTop) (hready : s.dramReady = true) :
    (s.after (writeBack i)).bytes (s.nodeAddr i) 128 = (nodeBytes n).map (· % 256) ∧
    MemOnly (s.nodeAddr i) 128 s (s.after (writeBack i)) ∧ (s.after (writeBack i)).mac = s.mac ∧
    (s.after (writeBack i)).cores = s.cores := by
  obtain ⟨x, hx⟩ := after_writeMem_dram (l := nodeBytes n) hr (by rw [nodeBytes_length]; exact hle) hready nothing nothing
  have hmem : (s.after dramTouch).mem = s.mem := keeps_dramTouch (f := State.mem) (fun _ _ => rfl) (fun v t => mem_setFld t _ v) s
  have hcores : (s.after dramTouch).cores = s.cores := keeps_dramTouch (f := State.cores) (fun _ _ => rfl) (fun v t => cores_setFld t _ v) s
  have hmac : (s.after dramTouch).mac = s.mac := keeps_dramTouch (f := State.mac) (fun _ _ => rfl) (fun v t => mac_setFld t _ v) s
  rw [writeBack, after_ask, hn]
  dsimp only
  rw [hx, after_nothing]
  refine ⟨?_, fun a ha => ?_, ?_, ?_⟩
  · have hbytes := bytes_putBytes (s.after dramTouch) (s.nodeAddr i) (nodeBytes n)
    rw [nodeBytes_length] at hbytes
    rw [State.apply_ddr_bytes, hbytes]
  · rw [State.apply_ddr_byte, byte_putBytes_ne _ _ _ _ (by rw [nodeBytes_length]; exact ha), State.byte, hmem, ← State.byte]
  · rw [State.apply_ddr_mac, after_putBytes, hmac]
  · rw [State.apply_ddr_cores, after_putBytes, hcores]

section
variable {s : State} {i : Nat} {n : Node} (hn : find s.mac.cache i = some n)
include hn

theorem nodeFlush_writes (hstate : n.state ≠ 0) (hr : regionOf (s.nodeAddr i) = .dram)
    (hle : s.nodeAddr i + 128 ≤ s.dramTop) (hready : s.dramReady = true) : NodeOpEnds i 0 s (s.after (nodeFlush i)) ∧
    (s.after (nodeFlush i)).bytes (s.nodeAddr i) 128 = (nodeBytes n).map (· % 256) ∧
    MemOnly (s.nodeAddr i) 128 s (s.after (nodeFlush i)) ∧ (s.after (nodeFlush i)).mac = s.mac ∧
    (s.after (nodeFlush i)).cores = s.cores := by
  obtain ⟨u, hu, hop⟩ := after_nodeOp hn _
  obtain ⟨hbytes, honly, hmac, hcores⟩ := writeBack_writes (s := u) (i := i) (by rw [hu.mac]; exact hn)
    (by rw [hu.nodeAddr]; exact hr) (by rw [hu.nodeAddr, hu.dramTop]; exact hle) (by rw [hu.dramReady]; exact hready)
  rw [hu.nodeAddr] at hbytes honly
  rw [nodeFlush, hop, if_neg hstate, after_seq_cons, after_seq_cons, after_seq_nil]
  have hmem := mem_nodeDone (u.after (writeBack i)) 0
  refine ⟨nodeOpEnds_nodeDone (by decide) fun _ _ => by rw [hmac, hu.mac], ?_, fun a ha => ?_, ?_, ?_⟩
  · rw [bytes_eq_of_mem hmem, hbytes]
  · rw [State.byte, hmem, ← State.byte, honly a ha, State.byte, hu.mem, ← State.byte]
  · rw [mac_nodeDone, hmac, hu.mac]
  · rw [cores_nodeDone, hcores, hu.cores]

end

/-! ### LOAD -/

/-- The words shown in NODE_VIEW. -/
def showNode (n : Node) (l : List Nat) : Effect := forEach l fun w => setReg (MAC.NODE_VIEW w) (fieldLe (nodeBytes n) (4 * w) 4)

theorem reg_showNode (n : Node) {l : List Nat} (s : State) {w : Nat} :
    (w ∈ l → (s.after (showNode n l)).regN (MAC.NODE_VIEW w) = fieldLe (nodeBytes n) (4 * w) 4 % 2 ^ 32) ∧
    (w ∉ l → (s.after (showNode n l)).regN (MAC.NODE_VIEW w) = s.regN (MAC.NODE_VIEW w)) := by
  induction l generalizing s with
  | nil => exact ⟨fun h => absurd h List.not_mem_nil, fun _ => rfl⟩
  | cons v l ih =>
    obtain ⟨hin, hout⟩ := ih (s.after (setReg (MAC.NODE_VIEW v) (fieldLe (nodeBytes n) (4 * v) 4)))
    have hstep : s.after (showNode n (v :: l)) = _ := after_forEach_cons s v l _
    rw [hstep]
    refine ⟨fun h => ?_, fun h => ?_⟩
    · by_cases hl : w ∈ l
      · exact hin hl
      · obtain rfl : w = v := (List.mem_cons.1 h).resolve_right hl
        refine (hout hl).trans ?_
        rw [after_setReg, State.regN, reg_apply_self, BitVec.toNat_ofNat]
    · obtain ⟨hv, hl⟩ := not_or.1 (List.mem_cons.not.1 h)
      have hne : MAC.NODE_VIEW w ≠ MAC.NODE_VIEW v := fun heq => hv (by simp only [MAC.NODE_VIEW] at heq; omega)
      refine (hout hl).trans ?_
      rw [after_setReg, State.regN, reg_apply_ne _ _ _ _ hne, State.regN]

/-- The number that four bytes of a 32-bit number make. -/
theorem ofLe_leBytes_four (v : Nat) : ofLe (leBytes v 4) = v % 2 ^ 32 := by
  simp only [leBytes, ofLe]
  omega

theorem fieldLe_append_left {l m : List Nat} {o k : Nat} (h : o + k ≤ l.length) : fieldLe (l ++ m) o k = fieldLe l o k := by
  rw [fieldLe, List.drop_append_of_le_length (by omega), List.take_append_of_le_length (by rw [List.length_drop]; omega), fieldLe]

theorem fieldLe_append_right {l m : List Nat} {o k : Nat} (ho : l.length = o) (hk : m.length = k) :
    fieldLe (l ++ m) o k = ofLe m := by
  rw [fieldLe, List.drop_left' ho, ← hk, List.take_length]

/-- A node's INTERVAL and DEV among the bytes of its record. -/
theorem fieldLe_nodeBytes (n : Node) : fieldLe (nodeBytes n) 40 4 = n.interval % 2 ^ 32 ∧
    fieldLe (nodeBytes n) 48 4 = n.dev % 2 ^ 32 := by
  delta nodeBytes
  constructor
  · iterate 16 rw [fieldLe_append_left (by simp only [List.length_append, leBytes_length, List.length_cons, List.length_nil]; decide)]
    rw [fieldLe_append_right (by simp only [List.length_append, leBytes_length, List.length_cons, List.length_nil])
      (leBytes_length _ _), ofLe_leBytes_four]
  · iterate 14 rw [fieldLe_append_left (by simp only [List.length_append, leBytes_length, List.length_cons, List.length_nil]; decide)]
    rw [fieldLe_append_right (by simp only [List.length_append, leBytes_length, List.length_cons, List.length_nil])
      (leBytes_length _ _), ofLe_leBytes_four]

section
variable {s : State} {i : Nat} {n : Node} (hn : find s.mac.cache i = some n)
include hn

theorem nodeLoad_shows : NodeOpEnds i 0 s (s.after (nodeLoad i)) ∧ (s.after (nodeLoad i)).mac = s.mac ∧
    (s.after (nodeLoad i)).mem = s.mem ∧
    ∀ w < 32, (s.after (nodeLoad i)).regN (MAC.NODE_VIEW w) = fieldLe (nodeBytes n) (4 * w) 4 % 2 ^ 32 := by
  obtain ⟨u, hu, hop⟩ := after_nodeOp hn _
  have hmac : (u.after (showNode n (List.range 32))).mac = u.mac := keeps_forEach (f := State.mac) (fun _ _ _ => rfl) u
  have hmem : (u.after (showNode n (List.range 32))).mem = u.mem := keeps_forEach (f := State.mem) (fun _ _ _ => rfl) u
  rw [nodeLoad, hop, after_seq_cons, after_seq_cons, after_seq_nil, ← showNode, mac_nodeDone, mem_nodeDone, hmac, hmem]
  refine ⟨nodeOpEnds_nodeDone (by decide) fun _ _ => by rw [hmac, hu.mac], hu.mac, hu.mem, fun w hw => ?_⟩
  have hview : MAC.NODE_VIEW w ≠ MAC.NODE_OP := by
    simp only [MAC.NODE_VIEW, MAC.NODE_OP]
    omega
  rw [State.regN, reg_nodeDone _ _ hview]
  exact (reg_showNode n u).1 (List.mem_range.2 hw)

end

/-- Settles O29: each operation on a cached node by its RESULT, through what it leaves of MAC's working state. -/
theorem nodeOperations : Obligations.NodeOperations := by
  intro i n s hon hn ends refused
  refine ⟨fun hfree => ⟨?_, ?_, ?_⟩, fun hused => ⟨?_, ?_, fun hr hle hready => ?_⟩, ?_⟩
  · exact answers_inDomain hon rfl (nodeAlloc_frees hn hfree)
  · exact answers_inDomain hon rfl (nodeRelease_refuses hn hfree)
  · exact answers_inDomain hon rfl (nodeFlush_refuses hn hfree)
  · exact answers_inDomain hon rfl (nodeAlloc_refuses hn hused)
  · obtain ⟨hends, hmac, hcores⟩ := nodeRelease_frees hn hused
    obtain ⟨hring, hcal, hwatch, hcache⟩ := mac_released_entries s.mac i n
    refine answers_inDomain hon rfl ⟨hends, ?_, ?_, ?_, hcores, ?_⟩
    · rw [State.dlRing, hmac, hring]
    · rw [hmac]
      exact hcal
    · rw [hmac]
      exact hwatch
    · rw [hmac]
      exact hcache
  · exact answers_inDomain hon rfl (nodeFlush_writes hn hused hr hle hready)
  · obtain ⟨hends, hmac, hmem, hview⟩ := nodeLoad_shows hn
    obtain ⟨hinterval, hdev⟩ := fieldLe_nodeBytes n
    refine answers_inDomain hon rfl ⟨hends, hmac, hmem, hview, ?_, ?_⟩
    · rw [hview 10 (by decide), show 4 * 10 = 40 from rfl, hinterval, Nat.mod_mod]
    · rw [hview 12 (by decide), show 4 * 12 = 48 from rfl, hdev, Nat.mod_mod]

end Sys2Proof.Machine
end

section
/-!
PROOFS: wakes (O31). What an effect leaves of MAC's registers, the calendar's filing, a node sent to SEARCH, an alternate
wake withdrawn, and the record of an authenticated frame.
-/
namespace Sys2Proof.Machine

open Sys2Proof

/-! ### MAC's registers but for some counters -/

/-- MAC's registers but for the counters of `ks`, PD_CORE's power, ATB, and the staged transmissions. -/
structure MacRegs where
  reg : Nat → Word
  on : Bool
  ns : Nat
  staged : List Staged

def isCounter (ks : List Nat) (k : Nat) : Bool := ks.any fun j => k = MAC.CNT j

def MacSide.regs (ks : List Nat) (v : MacSide) : MacRegs :=
  { reg := fun k => if isCounter ks (0x40020000 + k % 0x10000) then 0 else v.reg k, on := v.on, ns := v.ns, staged := v.staged }

def State.macRegs (ks : List Nat) (s : State) : MacRegs := s.macSide.regs ks

theorem macRegs_of_macSide {s t : State} (h : t.macSide = s.macSide) (ks : List Nat) : t.macRegs ks = s.macRegs ks :=
  congrArg (MacSide.regs ks) h

theorem macRegs_of_sansWatches {s t : State} (h : t.sansWatches = s.sansWatches) (ks : List Nat) : t.macRegs ks = s.macRegs ks := by
  have hregs := congrArg (MacSide.regs ks) h
  exact hregs

theorem keeps_macRegs {e : Effect} (h : Keeps State.macSide e) (ks : List Nat) : Keeps (State.macRegs ks) e :=
  fun s => macRegs_of_macSide (h s) ks

section
variable {ks : List Nat} {s t : State} (h : t.macRegs ks = s.macRegs ks)
include h

theorem on_of_macRegs : t.on 2 = s.on 2 := congrArg MacRegs.on h
theorem ns_of_macRegs : t.ns = s.ns := congrArg MacRegs.ns h
theorem staged_of_macRegs : t.bb.staged = s.bb.staged := congrArg MacRegs.staged h

theorem reg_of_macRegs {k : Nat} (hk : k / 0x10000 = 0x4002) (hks : isCounter ks k = false) : t.reg k = s.reg k := by
  have hreg := congrFun (congrArg MacRegs.reg h) k
  have hkey : 0x40020000 + k % 0x10000 = k := by omega
  simpa only [State.macRegs, MacSide.regs, State.macSide, hkey, hks, Bool.false_eq_true, if_false] using hreg

theorem fld_of_macRegs {g : Fld} (hg : g.addr / 0x10000 = 0x4002) (hks : isCounter ks g.addr = false) : t.fld g = s.fld g :=
  fld_eq_of_reg (reg_of_macRegs h hg hks)

theorem flag_of_macRegs {g : Fld} (hg : g.addr / 0x10000 = 0x4002) (hks : isCounter ks g.addr = false) : t.flag g = s.flag g :=
  flag_eq_of_reg (reg_of_macRegs h hg hks)

end

theorem macRegs_apply_reg (ks : List Nat) (s : State) {k : Nat} (v : Word) (hk : k / 0x10000 = 0x4002)
    (hks : isCounter ks k = true) : (s.apply (.reg k v)).macRegs ks = s.macRegs ks := by
  have hon : (s.apply (.reg k v)).on 2 = s.on 2 := on_two_of_reg (reg_apply_ne s k _ v (by rintro rfl; revert hk; decide))
  have hreg : ∀ j, (if isCounter ks (0x40020000 + j % 0x10000) then 0 else (s.apply (.reg k v)).reg (0x40020000 + j % 0x10000)) =
      if isCounter ks (0x40020000 + j % 0x10000) then 0 else s.reg (0x40020000 + j % 0x10000) := fun j => by
    by_cases hj : 0x40020000 + j % 0x10000 = k
    · rw [hj, if_pos hks, if_pos hks]
    · rw [reg_apply_ne _ _ _ _ hj]
  simp only [State.macRegs, MacSide.regs, State.macSide, hon, hreg]
  rfl

theorem keeps_setMac_macRegs (ks : List Nat) (f : Mac → Mac) : Keeps (State.macRegs ks) (setMac f) := fun _ => rfl

theorem keeps_count_macRegs {ks : List Nat} {g : Fld} (hg : g.addr / 0x10000 = 0x4002) (hks : isCounter ks g.addr = true) :
    Keeps (State.macRegs ks) (count g) := fun s => macRegs_apply_reg ks s _ hg hks

theorem keeps_fire_macRegs (ks : List Nat) {n : Nat} (hn : n < 96) (arg : Nat) : Keeps (State.macRegs ks) (fire n arg) :=
  keeps_macRegs (keeps_fire_macSide hn arg) ks

theorem keeps_putNode_macRegs (ks : List Nat) (i : Nat) (n : Node) : Keeps (State.macRegs ks) (putNode i n) :=
  keeps_putNode (fun _ _ => rfl) (fun _ _ => rfl) i n

/-! ### Properties of an unserved event, kept by MAC's own work -/

theorem preserves_setMac (n arg : Nat) (f : Mac → Mac) : Preserves (OnAndRaised n arg) (setMac f) := fun _ hs =>
  onAndRaised_of_queue hs rfl rfl

theorem preserves_count_mac {n arg : Nat} {g : Fld} (hg : g.addr / 0x10000 = 0x4002) : Preserves (OnAndRaised n arg) (count g) :=
  fun s hs => onAndRaised_of_queue hs (on_two_of_reg (reg_apply_ne s _ _ _ fun h => by
    rw [← h] at hg
    revert hg
    decide)) rfl

theorem preserves_putNode (n arg i : Nat) (m : Node) : Preserves (OnAndRaised n arg) (putNode i m) := fun s hs =>
  have hkeep := keeps_putNode (f := fun t : State => (t.on 2, t.evt.queue)) (fun _ _ => rfl) (fun _ _ => rfl) i m s
  onAndRaised_of_queue hs (congrArg Prod.fst hkeep) (congrArg Prod.snd hkeep)

/-! ### A node sent to SEARCH (R233, R252) -/

/-- The record of a node in SEARCH. -/
def State.searching (s : State) (n : Node) : Node := { n with state := 4, searchSince := s.ns % 2 ^ 64, calEntry := 0xFFFFFFFF }

/-- MAC's working state once node `i` is in SEARCH with record `m`. -/
def Mac.searching (c : Mac) (i : Nat) (m : Node) : Mac := { c with
  cache := insertKey c.cache i m, calendar := c.calendar.filter fun e => e.nidx ≠ i
  search := c.search.filter (· ≠ i) ++ [i], synced := eraseKey c.synced i }

theorem mac_count (s : State) (g : Fld) : (s.after (count g)).mac = s.mac := rfl

theorem mac_fire (s : State) {n : Nat} (hn : n < 96) (arg : Nat) : (s.after (fire n arg)).mac = s.mac :=
  mac_of_macSide (keeps_fire_macSide hn arg s)

theorem after_enterSearch (s : State) (i : Nat) (n : Node) : s.after (enterSearch i n) =
    ((((s.after (putNode i (s.searching n))).after (unfile i)).after (setMac fun m => { m with
      search := m.search.filter (· ≠ i) ++ [i], synced := eraseKey m.synced i })).after (count (MAC.CNT_HI 7))).after (fire 42 i) := by
  rw [enterSearch, after_ask]
  iterate 5 rw [after_seq_cons]
  rw [after_seq_nil]
  rfl

theorem mac_enterSearch (s : State) (i : Nat) (n : Node) :
    (s.after (enterSearch i n)).mac = s.mac.searching i (s.searching n) := by
  rw [after_enterSearch, mac_fire _ (by decide), mac_count, mac_setMac, unfile, mac_setMac, mac_putNode]
  rfl

theorem keeps_enterSearch_macRegs {ks : List Nat} (hks : 7 ∈ ks) (i : Nat) (n : Node) : Keeps (State.macRegs ks) (enterSearch i n) :=
  keeps_ask fun _ => keeps_seq_cons (keeps_putNode_macRegs ks _ _) (keeps_seq_cons (keeps_setMac_macRegs ks _)
    (keeps_seq_cons (keeps_setMac_macRegs ks _) (keeps_seq_cons (keeps_count_macRegs rfl
      (List.any_eq_true.2 ⟨7, hks, decide_eq_true rfl⟩)) (keeps_seq_cons (keeps_fire_macRegs ks (by decide) _) (keeps_seq_nil _)))))

theorem preserves_enterSearch {n arg : Nat} (hn : n ≠ 42) (i : Nat) (m : Node) : Preserves (OnAndRaised n arg) (enterSearch i m) :=
  preserves_ask fun _ => preserves_seq_cons (preserves_putNode _ _ _ _) (preserves_seq_cons (preserves_setMac _ _ _)
    (preserves_seq_cons (preserves_setMac _ _ _) (preserves_seq_cons (preserves_count_mac rfl)
      (preserves_seq_cons (preserves_fire hn (by decide)) (preserves_seq_nil _)))))

/-! ### Filing on the calendar (R237-R239) -/

/-- An entry joins the calendar. -/
def addEntry (y : CalEntry) : Effect := setMac fun m => { m with calendar := m.calendar ++ [y] }

/-- An entry is filed in some slot; on the overflow list only beyond the horizon (R237). -/
theorem after_placeEntry (s : State) (x : CalEntry) : ∃ k o, (o = true → s.ns / 250000 + (2 ^ 20 - 2 ^ 16) ≤ k) ∧
    (s.after (placeEntry x) = s.after (addEntry { x with slot := k, overflow := o }) ∨
     s.after (placeEntry x) = (s.after (count (MAC.CNT_HI 6))).after (addEntry { x with slot := k, overflow := o }) ∨
     ∃ a, s.after (placeEntry x) = (s.after (fire 48 a)).after (addEntry { x with slot := k, overflow := o })) := by
  rw [placeEntry, after_ask]
  dsimp only
  split
  next h => exact ⟨max x.slot s.mac.slot, true, fun _ => by omega, .inl rfl⟩
  next =>
    split
    next => exact ⟨max x.slot s.mac.slot, false, fun h => Bool.noConfusion h, .inl rfl⟩
    next j _ _ =>
      refine ⟨max x.slot s.mac.slot - j, false, fun h => Bool.noConfusion h, .inr (.inl ?_)⟩
      rw [after_seq_cons, after_seq_cons, after_seq_nil, addEntry]
    next =>
      rw [after_seq_cons, after_seq_cons, after_seq_nil]
      exact ⟨_, false, fun h => Bool.noConfusion h, .inr (.inr ⟨_, rfl⟩)⟩

theorem mac_placeEntry (s : State) (x : CalEntry) : ∃ k o, (o = true → s.ns / 250000 + (2 ^ 20 - 2 ^ 16) ≤ k) ∧
    (s.after (placeEntry x)).mac = { s.mac with calendar := s.mac.calendar ++ [{ x with slot := k, overflow := o }] } := by
  obtain ⟨k, o, ho, h | h | ⟨a, h⟩⟩ := after_placeEntry s x
  · exact ⟨k, o, ho, by rw [h, addEntry, mac_setMac]⟩
  · exact ⟨k, o, ho, by rw [h, addEntry, mac_setMac, mac_count]⟩
  · exact ⟨k, o, ho, by rw [h, addEntry, mac_setMac, mac_fire _ (by decide)]⟩

/-- What an entry's filing keeps: all that its counter, its event and the calendar keep. -/
theorem preserves_placeEntry {P : State → Prop} (hadd : ∀ f, Preserves P (setMac f)) (hcount : Preserves P (count (MAC.CNT_HI 6)))
    (hfire : ∀ a, Preserves P (fire 48 a)) (x : CalEntry) : Preserves P (placeEntry x) := fun s hs => by
  obtain ⟨k, o, -, h | h | ⟨a, h⟩⟩ := after_placeEntry s x
  · rw [h]
    exact hadd _ s hs
  · rw [h]
    exact hadd _ _ (hcount s hs)
  · rw [h]
    exact hadd _ _ (hfire a s hs)

theorem keeps_placeEntry_macRegs {ks : List Nat} (hks : 6 ∈ ks) (x : CalEntry) : Keeps (State.macRegs ks) (placeEntry x) :=
  keeps_of_preserves fun v => preserves_placeEntry (P := fun t => t.macRegs ks = v)
    (fun f => preserves_of_keeps (keeps_setMac_macRegs ks f) v)
    (preserves_of_keeps (keeps_count_macRegs rfl (List.any_eq_true.2 ⟨6, hks, decide_eq_true rfl⟩)) v)
    (fun _ => preserves_of_keeps (keeps_fire_macRegs ks (by decide) _) v) x

section
variable {s : State} {i : Nat} {n : Node} (hn : find s.mac.cache i = some n)
include hn

/-- A wake is filed: the node's main entry gives way to the new one, which the record names (R239). -/
theorem after_fileWake (w : Nat) : ∃ f k, s.after (fileWake i w) = ((((s.apply .draw).after (unfileMain i)).after
    (putNode i { n with wake := w % 2 ^ 64, calEntry := f })).after (placeEntry ⟨i, k, w, false, false⟩)) := by
  rw [fileWake, after_withNode hn, after_ask]
  dsimp only
  rw [withFree, after_ask]
  iterate 2 rw [after_seq_cons]
  rw [after_seq_nil]
  iterate 3 rw [after_seq_cons]
  rw [after_seq_nil]
  exact ⟨s.free 18, _, rfl⟩

theorem mac_fileWake (w : Nat) : ∃ f k o, (s.after (fileWake i w)).mac = { s.mac with
    cache := insertKey s.mac.cache i { n with wake := w % 2 ^ 64, calEntry := f }
    calendar := s.mac.calendar.filter (fun e => e.nidx ≠ i || e.alt) ++ [⟨i, k, w, false, o⟩] } := by
  obtain ⟨f, k, h⟩ := after_fileWake hn w
  obtain ⟨k', o, -, hplace⟩ := mac_placeEntry (((s.apply .draw).after (unfileMain i)).after
    (putNode i { n with wake := w % 2 ^ 64, calEntry := f })) ⟨i, k, w, false, false⟩
  refine ⟨f, k', o, ?_⟩
  rw [h, hplace, mac_putNode, unfileMain, mac_setMac]
  rfl

theorem macRegs_fileWake {ks : List Nat} (hks : 6 ∈ ks) (w : Nat) : (s.after (fileWake i w)).macRegs ks = s.macRegs ks := by
  obtain ⟨f, k, h⟩ := after_fileWake hn w
  rw [h, keeps_placeEntry_macRegs hks, keeps_putNode_macRegs, unfileMain, keeps_setMac_macRegs]
  rfl

theorem onAndRaised_fileWake {e arg : Nat} (he : e ≠ 48) (hs : OnAndRaised e arg s) (w : Nat) :
    OnAndRaised e arg (s.after (fileWake i w)) := by
  obtain ⟨f, k, h⟩ := after_fileWake hn w
  rw [h]
  exact preserves_placeEntry (fun _ => preserves_setMac _ _ _) (preserves_count_mac rfl) (fun _ => preserves_fire he (by decide)) _ _
    (preserves_putNode _ _ _ _ _ (preserves_setMac _ _ _ _ (onAndRaised_of_queue hs rfl rfl)))

/-! ### An alternate wake withdrawn (R236) -/

/-- MAC's working state with node `i`'s alternate wake gone. -/
def Mac.sansAlt (c : Mac) (i : Nat) (n : Node) : Mac := { c with
  cache := insertKey c.cache i (n.setFlagBit 2 false), calendar := c.calendar.filter fun e => e.nidx ≠ i || !e.alt
  watches := c.watches.filter fun x => !(x.nidx = i && x.alt) }

theorem mac_clearAlt : (s.after (clearAlt i)).mac = s.mac.sansAlt i n ∧ ∀ ks, (s.after (clearAlt i)).macRegs ks = s.macRegs ks := by
  have hput := after_mapNode hn fun n => n.setFlagBit 2 false
  have hmac : ((s.after (mapNode i fun n => n.setFlagBit 2 false)).after (unfileAlt i)).mac = { s.mac with
      cache := insertKey s.mac.cache i (n.setFlagBit 2 false), calendar := s.mac.calendar.filter fun e => e.nidx ≠ i || !e.alt } := by
    rw [unfileAlt, mac_setMac, hput, mac_putNode]
  have hnode : find ((s.after (mapNode i fun n => n.setFlagBit 2 false)).after (unfileAlt i)).mac.cache i =
      some (n.setFlagBit 2 false) := by
    rw [hmac]
    exact find_insertKey_self _ _ _
  rw [clearAlt]
  iterate 3 rw [after_seq_cons]
  rw [after_seq_nil]
  refine ⟨?_, fun ks => ?_⟩
  · rw [mac_of_sansWatches (sansWatches_endWatches hnode false), watches_endWatches hnode false, hmac]
    rfl
  · rw [macRegs_of_sansWatches (sansWatches_endWatches hnode false), unfileAlt, keeps_setMac_macRegs, hput, keeps_putNode_macRegs]

end

end Sys2Proof.Machine
end

section
/-!
PROOFS: a wake's decision and a node's authenticated frame (O31).
-/
namespace Sys2Proof.Machine

open Sys2Proof

theorem flagBit_setFlagBit (n : Node) (k : Nat) (b : Bool) : (n.setFlagBit k b).flagBit k = b := by
  simp [Node.setFlagBit, Node.flagBit, bit_eq_testBit, putBit_testBit]

/-! ### A missed wake (R233) -/

/-- Node `i`'s wake at `w` was missed. -/
def missWake (i w : Nat) : Effect := withNode i fun n => ask fun s =>
  let k := n.misses + 1
  let n' := { n with misses := k, missTotal := min (n.missTotal + 1) 65535 }
  seq [count (MAC.CNT_LO 0), fire 41 (i + k * 2 ^ 20),
    if s.fld MAC.MISS_CFG_MISS_LIMIT < k then seq [enterSearch i n', endWatches i true]
    else seq [putNode i { n' with state := 3 }, fileWake i (w + n.interval * 250000)]]

/-- The record of a node with one more wake missed. -/
def Node.missed (n : Node) : Node := { n with misses := n.misses + 1, missTotal := min (n.missTotal + 1) 65535 }

/-- A miss is counted and reported. -/
def MissReported (i : Nat) (n : Node) (s t : State) : Prop :=
  OnAndRaised 41 (i + (n.misses + 1) * 2 ^ 20) t ∧ Counted (MAC.CNT_LO 0) s t ∧ t.ns = s.ns

section
variable {s : State} {i : Nat} {n : Node} (hn : find s.mac.cache i = some n)

theorem MissReported.later {t u : State} (h : MissReported i n s t) (hraised : OnAndRaised 41 (i + (n.misses + 1) * 2 ^ 20) u)
    {ks : List Nat} (hks : isCounter ks (MAC.CNT 0) = false) (hregs : u.macRegs ks = t.macRegs ks) : MissReported i n s u := by
  obtain ⟨-, hcount, hns⟩ := h
  refine ⟨hraised, ?_, (ns_of_macRegs hregs).trans hns⟩
  rw [Counted, fld_of_macRegs hregs (g := MAC.CNT_LO 0) rfl hks]
  exact hcount

theorem missReported_report (hon : s.on 2 = true) (hi : i < 131072) (hmiss : n.misses < 255) :
    MissReported i n s ((s.after (count (MAC.CNT_LO 0))).after (fire 41 (i + (n.misses + 1) * 2 ^ 20))) := by
  have hregs : (s.after (count (MAC.CNT_LO 0))).macRegs [0] = s.macRegs [0] := keeps_count_macRegs rfl rfl s
  have honCount : (s.after (count (MAC.CNT_LO 0))).on 2 = true := (on_of_macRegs hregs).trans hon
  have hfire := keeps_fire_macSide (n := 41) (by decide) (i + (n.misses + 1) * 2 ^ 20) (s.after (count (MAC.CNT_LO 0)))
  refine ⟨⟨(on_of_macSide hfire).trans honCount, raised_fire _ _ _ honCount (by omega)⟩, ?_, (ns_of_macSide hfire).trans (ns_of_macRegs hregs)⟩
  rw [Counted, fld_of_macSide hfire (g := MAC.CNT_LO 0) rfl]
  exact counted_count s (by decide) (by decide)

include hn

theorem after_missWake (w : Nat) : s.after (missWake i w) =
    ((s.after (count (MAC.CNT_LO 0))).after (fire 41 (i + (n.misses + 1) * 2 ^ 20))).after
      (if s.fld MAC.MISS_CFG_MISS_LIMIT < n.misses + 1 then seq [enterSearch i n.missed, endWatches i true]
       else seq [putNode i { n.missed with state := 3 }, fileWake i (w + n.interval * 250000)]) := by
  rw [missWake, after_withNode hn, after_ask]
  iterate 3 rw [after_seq_cons]
  rw [after_seq_nil]
  rfl

variable (hon : s.on 2 = true) (hi : i < 131072) (hmiss : n.misses < 255)
include hon hi hmiss

/-- Beyond the limit a missed wake sends its node to SEARCH. -/
theorem missWake_searches (w : Nat) (hlimit : s.fld MAC.MISS_CFG_MISS_LIMIT < n.misses + 1) :
    MissReported i n s (s.after (missWake i w)) ∧
    find (s.after (missWake i w)).mac.cache i = some (s.searching n.missed) ∧
    i ∈ (s.after (missWake i w)).mac.search ∧ ∀ e ∈ (s.after (missWake i w)).mac.calendar, e.nidx ≠ i := by
  have hreport := missReported_report (n := n) hon hi hmiss
  have hmac : ((s.after (count (MAC.CNT_LO 0))).after (fire 41 (i + (n.misses + 1) * 2 ^ 20))).mac = s.mac := by
    rw [mac_fire _ (by decide), mac_count]
  rw [after_missWake hn, if_pos hlimit, after_seq_cons, after_seq_cons, after_seq_nil]
  generalize (s.after (count (MAC.CNT_LO 0))).after (fire 41 (i + (n.misses + 1) * 2 ^ 20)) = u at hreport hmac ⊢
  have hsearching : u.searching n.missed = s.searching n.missed := by rw [State.searching, hreport.2.2, State.searching]
  have hcached := mac_enterSearch u i n.missed
  rw [hsearching, hmac] at hcached
  have hnode : find (u.after (enterSearch i n.missed)).mac.cache i = some (s.searching n.missed) := by
    rw [hcached]
    exact find_insertKey_self _ _ _
  have hsans := sansWatches_endWatches hnode true
  have hend := mac_of_sansWatches hsans
  refine ⟨hreport.later (preserves_endWatches (P := fun t => OnAndRaised 41 (i + (n.misses + 1) * 2 ^ 20) t ∧
      find t.mac.cache i = some (s.searching n.missed))
      (fun l a t ht => ⟨(outlastsLanes_onAndRaised _ (by decide)).dropWindow l a t ht.1, by
        rw [mac_of_macSide (keeps_dropWindow_macSide l a t)]
        exact ht.2⟩)
      (fun _ t ht => ⟨preserves_setMac _ _ _ t ht.1, ht.2⟩) (fun t ht => ⟨_, ht.2⟩) true _
      ⟨preserves_enterSearch (by decide) _ _ _ hreport.1, hnode⟩).1 (ks := [7]) (by decide)
      ((macRegs_of_sansWatches hsans _).trans (keeps_enterSearch_macRegs (by decide) _ _ u)), ?_⟩
  rw [hend, hcached]
  refine ⟨find_insertKey_self _ _ _, List.mem_append_right _ (List.mem_singleton_self _), fun e he => ?_⟩
  exact of_decide_eq_true (List.mem_filter.1 he).2

/-- Within the limit a missed wake is followed by the node's next one, with a wider guard. -/
theorem missWake_files (w : Nat) (hlimit : n.misses + 1 ≤ s.fld MAC.MISS_CFG_MISS_LIMIT) :
    MissReported i n s (s.after (missWake i w)) ∧
    (∃ f, find (s.after (missWake i w)).mac.cache i = some { n.missed with
      state := 3, wake := (w + n.interval * 250000) % 2 ^ 64, calEntry := f }) ∧
    ∃ e ∈ (s.after (missWake i w)).mac.calendar, e.nidx = i ∧ e.alt = false ∧ e.wake = w + n.interval * 250000 := by
  have hreport := missReported_report (n := n) hon hi hmiss
  have hmac : ((s.after (count (MAC.CNT_LO 0))).after (fire 41 (i + (n.misses + 1) * 2 ^ 20))).mac = s.mac := by
    rw [mac_fire _ (by decide), mac_count]
  rw [after_missWake hn, if_neg (not_lt.2 hlimit), after_seq_cons, after_seq_cons, after_seq_nil]
  generalize (s.after (count (MAC.CNT_LO 0))).after (fire 41 (i + (n.misses + 1) * 2 ^ 20)) = u at hreport hmac ⊢
  have hnode : find (u.after (putNode i { n.missed with state := 3 })).mac.cache i = some { n.missed with state := 3 } := by
    rw [mac_putNode]
    exact find_insertKey_self _ _ _
  obtain ⟨f, k, o, hfile⟩ := mac_fileWake hnode (w + n.interval * 250000)
  refine ⟨hreport.later (onAndRaised_fileWake hnode (by decide) (preserves_putNode _ _ _ _ _ hreport.1) _) (ks := [6]) (by decide)
    ((macRegs_fileWake hnode (by decide) _).trans (keeps_putNode_macRegs _ _ _ u)), ?_⟩
  rw [hfile]
  exact ⟨⟨f, find_insertKey_self _ _ _⟩, _, List.mem_append_right _ (List.mem_singleton_self _), rfl, rfl, rfl⟩

end

/-! ### The decision (R233, R236) -/

section
variable {s : State} {i : Nat} {n : Node} (hn : find s.mac.cache i = some n)
include hn

/-- A decided wake leaves the watches, with the node's alternate one. -/
theorem mac_decided (x : Watch) :
    ((s.after (eraseWatch x)).after (clearAlt i)).mac = { s.mac with watches := s.mac.watches.erase x }.sansAlt i n ∧
    ∀ ks, ((s.after (eraseWatch x)).after (clearAlt i)).macRegs ks = s.macRegs ks :=
  mac_clearAlt (s := s.after (eraseWatch x)) hn

variable (hen : s.flag MAC.MAC_CTL_EN = true) {x : Watch} (hdecide : x.decide_ ≤ s.ns)
include hen hdecide

omit hn in
theorem answers_wakeDecision {i : Fin 131072} {P : State → Prop} (hon : s.on 2 = true)
    (hx : s.mac.watches.find? (fun y => y.nidx = i.val && !y.alt) = some x)
    (h : P (((s.after (eraseWatch x)).after (clearAlt i)).after (when (!x.heard) (missWake i x.wake)))) :
    Answers (.wakeDecision i) s P := by
  refine answers_inDomain hon rfl ?_
  rw [after_ask, hx]
  dsimp only
  rw [after_when, if_pos (by rw [hen, decide_eq_true hdecide]; rfl)]
  iterate 3 rw [after_seq_cons]
  rw [after_seq_nil]
  exact h

omit hn in
theorem answers_altWakeExpire {i : Fin 131072} {P : State → Prop} (hon : s.on 2 = true)
    (hx : s.mac.watches.find? (fun y => y.nidx = i.val && y.alt) = some x) (h : P (s.after (clearAlt i))) :
    Answers (.altWakeExpire i) s P := by
  refine answers_inDomain hon rfl ?_
  rw [after_ask, hx]
  dsimp only
  rw [after_when, if_pos (by rw [hen, decide_eq_true hdecide]; rfl)]
  exact h

end

section
variable {s : State} {i : Fin 131072} {n : Node} (hn : find s.mac.cache i.val = some n) (hon : s.on 2 = true)
  (hen : s.flag MAC.MAC_CTL_EN = true) {x : Watch} (hdecide : x.decide_ ≤ s.ns)
include hn hon hen hdecide

theorem wakeDecision_heard (hx : s.mac.watches.find? (fun y => y.nidx = i.val && !y.alt) = some x) (hheard : x.heard = true) :
    Answers (.wakeDecision i) s (fun t => t.mac.watches.length < s.mac.watches.length ∧
      find t.mac.cache i.val = some (n.setFlagBit 2 false) ∧ t.fld (MAC.CNT_LO 0) = s.fld (MAC.CNT_LO 0)) := by
  refine answers_wakeDecision hen hdecide hon hx ?_
  obtain ⟨hmac, hregs⟩ := mac_decided hn x
  have hmem := List.mem_of_find?_eq_some hx
  rw [after_when, if_neg (by rw [hheard]; decide), hmac, fld_of_macRegs (hregs []) rfl rfl]
  refine ⟨?_, find_insertKey_self _ _ _, rfl⟩
  calc ((s.mac.watches.erase x).filter _).length ≤ (s.mac.watches.erase x).length := List.length_filter_le _ _
    _ < s.mac.watches.length := by
      rw [List.length_erase_of_mem hmem]
      exact Nat.sub_lt (List.length_pos_of_mem hmem) Nat.one_pos

/-- A missed wake, told from what was there before the decision. -/
theorem wakeDecision_missed (hx : s.mac.watches.find? (fun y => y.nidx = i.val && !y.alt) = some x) (hheard : x.heard = false)
    {Q : Node → State → Prop} (hmissed : ∀ v : State, v.on 2 = true → v.ns = s.ns →
      v.fld MAC.MISS_CFG_MISS_LIMIT = s.fld MAC.MISS_CFG_MISS_LIMIT → find v.mac.cache i.val = some (n.setFlagBit 2 false) →
      MissReported i (n.setFlagBit 2 false) v (v.after (missWake i x.wake)) ∧
      ∃ m, find (v.after (missWake i x.wake)).mac.cache i.val = some m ∧ m.misses = n.misses + 1 ∧
        m.missTotal = min (n.missTotal + 1) 65535 ∧ m.anchor = n.anchor ∧ m.flagBit 2 = false ∧ Q m (v.after (missWake i x.wake))) :
    Answers (.wakeDecision i) s (fun t => t.raised 41 (i + (n.misses + 1) * 2 ^ 20) ∧ Counted (MAC.CNT_LO 0) s t ∧
      ∃ m, find t.mac.cache i.val = some m ∧ m.misses = n.misses + 1 ∧ m.missTotal = min (n.missTotal + 1) 65535 ∧
        m.anchor = n.anchor ∧ m.flagBit 2 = false ∧ Q m t) := by
  refine answers_wakeDecision hen hdecide hon hx ?_
  obtain ⟨hmac, hregs⟩ := mac_decided hn x
  have hnode : find ((s.after (eraseWatch x)).after (clearAlt i)).mac.cache i.val = some (n.setFlagBit 2 false) := by
    rw [hmac]
    exact find_insertKey_self _ _ _
  rw [after_when, if_pos (by rw [hheard]; decide)]
  obtain ⟨⟨⟨-, hraised⟩, hcount, -⟩, hm⟩ := hmissed _ ((on_of_macRegs (hregs [])).trans hon) (ns_of_macRegs (hregs []))
    (fld_of_macRegs (hregs []) rfl rfl) hnode
  refine ⟨hraised, ?_, hm⟩
  rw [Counted, fld_of_macRegs (hregs []) rfl rfl] at hcount
  exact hcount

theorem altWakeExpire_withdraws (hx : s.mac.watches.find? (fun y => y.nidx = i.val && y.alt) = some x) :
    Answers (.altWakeExpire i) s (fun t => find t.mac.cache i.val = some (n.setFlagBit 2 false) ∧
      t.fld (MAC.CNT_LO 0) = s.fld (MAC.CNT_LO 0) ∧ (∀ y ∈ t.mac.watches, ¬(y.nidx = i ∧ y.alt = true)) ∧
      ∀ e ∈ t.mac.calendar, ¬(e.nidx = i ∧ e.alt = true)) := by
  refine answers_altWakeExpire hen hdecide hon hx ?_
  obtain ⟨hmac, hregs⟩ := mac_clearAlt hn
  rw [hmac, fld_of_macRegs (hregs []) rfl rfl]
  refine ⟨find_insertKey_self _ _ _, rfl, fun y hy => ?_, fun e he => ?_⟩
  · simpa [imp_iff_not_or] using (List.mem_filter.1 hy).2
  · simpa [imp_iff_not_or] using (List.mem_filter.1 he).2

variable (hmiss : n.misses < 255) (hx : s.mac.watches.find? (fun y => y.nidx = i.val && !y.alt) = some x)
  (hheard : x.heard = false)
include hmiss hx hheard

theorem wakeDecision_searches (hlimit : s.fld MAC.MISS_CFG_MISS_LIMIT < n.misses + 1) :
    Answers (.wakeDecision i) s (fun t => t.raised 41 (i + (n.misses + 1) * 2 ^ 20) ∧ Counted (MAC.CNT_LO 0) s t ∧
      ∃ m, find t.mac.cache i.val = some m ∧ m.misses = n.misses + 1 ∧ m.missTotal = min (n.missTotal + 1) 65535 ∧
        m.anchor = n.anchor ∧ m.flagBit 2 = false ∧ m.state = 4 ∧ m.searchSince = s.ns % 2 ^ 64 ∧ i.val ∈ t.mac.search ∧
        ∀ e ∈ t.mac.calendar, e.nidx ≠ i) := by
  refine wakeDecision_missed hn hon hen hdecide hx hheard (Q := fun m t => m.state = 4 ∧ m.searchSince = s.ns % 2 ^ 64 ∧
    i.val ∈ t.mac.search ∧ ∀ e ∈ t.mac.calendar, e.nidx ≠ i) fun v honv hns hfld hnode => ?_
  obtain ⟨hreport, hcached, hsearch, hcal⟩ := missWake_searches hnode honv i.isLt hmiss x.wake (by rw [hfld]; exact hlimit)
  exact ⟨hreport, _, hcached, rfl, rfl, rfl, flagBit_setFlagBit n 2 false, rfl, congrArg (· % 2 ^ 64) hns, hsearch, hcal⟩

theorem wakeDecision_files (hlimit : n.misses + 1 ≤ s.fld MAC.MISS_CFG_MISS_LIMIT) :
    Answers (.wakeDecision i) s (fun t => t.raised 41 (i + (n.misses + 1) * 2 ^ 20) ∧ Counted (MAC.CNT_LO 0) s t ∧
      ∃ m, find t.mac.cache i.val = some m ∧ m.misses = n.misses + 1 ∧ m.missTotal = min (n.missTotal + 1) 65535 ∧
        m.anchor = n.anchor ∧ m.flagBit 2 = false ∧ m.state = 3 ∧ m.wake = (x.wake + n.interval * 250000) % 2 ^ 64 ∧
        ∃ e ∈ t.mac.calendar, e.nidx = i ∧ e.alt = false ∧ e.wake = x.wake + n.interval * 250000) := by
  refine wakeDecision_missed hn hon hen hdecide hx hheard (Q := fun m t => m.state = 3 ∧
    m.wake = (x.wake + n.interval * 250000) % 2 ^ 64 ∧
    ∃ e ∈ t.mac.calendar, e.nidx = i ∧ e.alt = false ∧ e.wake = x.wake + n.interval * 250000) fun v honv _ hfld hnode => ?_
  obtain ⟨hreport, ⟨f, hcached⟩, hfiled⟩ := missWake_files hnode honv i.isLt hmiss x.wake (by rw [hfld]; exact hlimit)
  exact ⟨hreport, _, hcached, rfl, rfl, rfl, flagBit_setFlagBit n 2 false, rfl, rfl, hfiled⟩

end

/-! ### The record of an authenticated frame (R230, R231) -/

/-- One record is another but for RATE, DEV and the flags. -/
def SameButDrift (m n : Node) : Prop := m = { n with rate := m.rate, dev := m.dev, flags := m.flags }

theorem sameButDrift_refl (n : Node) : SameButDrift n n := rfl

theorem SameButDrift.trans {k m n : Node} (h1 : SameButDrift k m) (h2 : SameButDrift m n) : SameButDrift k n := by
  rw [SameButDrift] at *
  rw [h1, h2]

theorem sameButDrift_setFlagBit (n : Node) (k : Nat) (b : Bool) : SameButDrift (n.setFlagBit k b) n := rfl

theorem sameButDrift_rateSample (s : State) (n : Node) (w e trim : Int) (out : Bool) :
    SameButDrift (rateSample s n w e trim out) n := by
  rw [rateSample]
  dsimp only
  split
  · rfl
  · split <;> rfl

section
variable {s : State} {n : Node} {w e : Int} {trim : Int}

/-- The first sample of a node sets its rate. -/
theorem rateSample_first (hn : n.flagBit 0 = false) (out : Bool) : rateSample s n w e trim out = { n.setFlagBit 0 true with
    rate := clampI (-(2 ^ 31 - 1)) (2 ^ 31 - 1) (Int.tdiv (e * 1000000) (Int.tdiv (w - n.anchor) 1000)) } := by
  rw [rateSample]
  dsimp only
  rw [if_pos (by rw [hn]; rfl)]

/-- A later sample moves the rate and the deviation toward it. -/
theorem rateSample_later (hn : n.flagBit 0 = true) : rateSample s n w e 0 false =
    let r := Int.tdiv (e * 1000000) (Int.tdiv (w - n.anchor) 1000) - n.rate
    let sh : Int := 2 ^ s.fld MAC.GUARD_CFG_DRIFT_SHIFT
    { n with rate := clampI (-(2 ^ 31 - 1)) (2 ^ 31 - 1) (n.rate + r / sh)
             dev := (clampI 0 (2 ^ 32 - 1) (n.dev + ((r.natAbs : Int) - n.dev) / sh)).toNat } := by
  rw [rateSample]
  dsimp only
  rw [if_neg (by rw [hn]; decide), if_neg (by decide), if_neg (by decide)]

end

/-- What an authenticated frame leaves of MAC's working state, its node's record `m` apart. -/
def FrameNoted (i : Nat) (m : Node) (s t : State) : Prop :=
  t.mac.inbox = s.mac.inbox ∧ t.mac.cache = insertKey s.mac.cache i m ∧ t.mem = s.mem ∧ t.cores = s.cores

/-- The counts and events that follow a frame's record leave memory, the cores and MAC's working state alone. -/
theorem frameNoted_after (s : State) (i : Nat) (m : Node) (g : Mac → Mac) (hg : ∀ c, (g c).inbox = c.inbox ∧ (g c).cache = c.cache)
    (missed searched polled : Bool) (a : Nat) : FrameNoted i m s (s.after (seq [putNode i m, setMac g,
      when missed (count (MAC.CNT_HI 1)), when searched (seq [count (MAC.CNT_LO 7), fire 43 i]),
      when polled (seq [count (MAC.CNT_HI 0), fire 40 a])])) := by
  have hrest : ∀ {α : Type} {f : State → α}, SkipsEvents f → (∀ t k v, f (State.apply t (.reg k v)) = f t) →
      Keeps f (seq [when missed (count (MAC.CNT_HI 1)), when searched (seq [count (MAC.CNT_LO 7), fire 43 i]),
        when polled (seq [count (MAC.CNT_HI 0), fire 40 a])]) := fun hf hreg =>
    keeps_seq_cons (keeps_when (keeps_count hreg _)) (keeps_seq_cons
      (keeps_when (keeps_seq_cons (keeps_count hreg _) (keeps_seq_cons (keeps_fire hf (by decide) _) (keeps_seq_nil _))))
      (keeps_seq_cons (keeps_when (keeps_seq_cons (keeps_count hreg _) (keeps_seq_cons (keeps_fire hf (by decide) _)
        (keeps_seq_nil _)))) (keeps_seq_nil _)))
  have hmac := hrest (f := State.mac) ⟨fun _ _ _ _ => rfl, fun _ _ => rfl, fun _ _ => rfl⟩ (fun _ _ _ => rfl)
    ((s.after (putNode i m)).after (setMac g))
  have hmem := hrest skipsEvents_mem (fun _ _ _ => rfl) ((s.after (putNode i m)).after (setMac g))
  have hcores := hrest skipsEvents_cores (fun _ _ _ => rfl) ((s.after (putNode i m)).after (setMac g))
  rw [mac_setMac, mac_putNode] at hmac
  rw [after_seq_cons, after_seq_cons, FrameNoted, hmac, hmem, hcores, (hg _).1, (hg _).2, cores_setMac]
  exact ⟨rfl, rfl, keeps_putNode (f := State.mem) (fun _ _ => rfl) (fun _ _ => rfl) i m s,
    keeps_putNode (f := State.cores) (fun _ _ => rfl) (fun _ _ => rfl) i m s⟩

theorem driftReport_uplink {f : MacFrame} {h : Hdr} (hform : h.form = .uplink) : driftReport f h = none := by
  rw [driftReport, hform]
  rfl

/-- The frame's own facts in the record that it leaves. -/
def FrameFacts (f : MacFrame) (n m : Node) : Prop :=
  m.lastHeard = f.sfd ∧ m.rxCount = (n.rxCount + 1) % 2 ^ 32 ∧ m.misses = 0 ∧
    m.state = (if n.state = 3 ∨ n.state = 4 then 2 else n.state) ∧ m.rssi = fieldLe f.record 0 2 ∧
    m.lqi = byteAt f.record 2 ∧ m.anchor = n.anchor

/-- The frame's error against wake `w`, and the rate sample it gives, in the record that it leaves (R231). -/
def FrameSample (s : State) (f : MacFrame) (h : Hdr) (n : Node) (w : Int) (m : Node) : Prop :=
  let e := (f.sfd : Int) - (w + s.tSfd f.mode)
  let sample := Int.tdiv (e * 1000000) (Int.tdiv (w - n.anchor) 1000)
  let r := sample - n.rate
  let sh : Int := 2 ^ s.fld MAC.GUARD_CFG_DRIFT_SHIFT
  m.lastErr = unsigned 16 (clampI (-32768) 32767 (roundAway e 1000)) ∧
  (h.form = .uplink → n.state ≠ 4 → s.inContention f = false → getD s.mac.synced f.nidx false = true →
    s.flag MAC.MAC_EXP_DRIFT_FREEZE = false → 1000000000 ≤ w - n.anchor →
    (n.flagBit 0 = false → m.rate = clampI (-(2 ^ 31 - 1)) (2 ^ 31 - 1) sample ∧ m.flagBit 0 = true) ∧
    (n.flagBit 0 = true → m.rate = clampI (-(2 ^ 31 - 1)) (2 ^ 31 - 1) (n.rate + r / sh) ∧
      (m.dev : Int) = clampI 0 (2 ^ 32 - 1) (n.dev + ((r.natAbs : Int) - n.dev) / sh)))

/-- The watch that a frame is heard in, and the same where the frame is a scheduled wake's. -/
def State.heardWatch (s : State) (f : MacFrame) : Option Watch :=
  let hit := fun (alt : Bool) =>
    s.mac.watches.find? (fun x => x.nidx = f.nidx && x.alt = alt && decide (((f.sfd : Int) - x.e).natAbs ≤ x.g))
  match hit false, hit true with
    | some x, _ => some x
    | none, some x => some x
    | none, none => none
def State.scheduledWatch (s : State) (f : MacFrame) : Option Watch :=
  (s.heardWatch f).filter fun x => decide (((f.sfd : Int) - (x.wake + s.tSfd f.mode)).natAbs ≤ 32000000)

/-- The wake that a frame is measured against. -/
def State.frameWake (s : State) (f : MacFrame) : Int := match s.scheduledWatch f with
  | some x => x.wake
  | none => nearSlot 0 ((f.sfd : Int) - s.tSfd f.mode)

/-- A node's record with a frame's own facts, and whether the node was searched for. -/
def State.notedRecord (s : State) (f : MacFrame) (h : Hdr) (n : Node) : Node := { n with
  lastHeard := f.sfd, rssi := fieldLe f.record 0 2, lqi := byteAt f.record 2, rxCount := (n.rxCount + 1) % 2 ^ 32
  lastErr := unsigned 16 (clampI (-32768) 32767 (roundAway ((f.sfd : Int) - (s.frameWake f + s.tSfd f.mode)) 1000)), misses := 0
  state := if n.state = 3 || n.state = 4 then 2 else n.state, temp := match driftReport f h with
    | some (t, _, _) => t
    | none => n.temp }
def State.searchedFrame (s : State) (f : MacFrame) (n : Node) : Bool := n.state = 4 || s.inContention f

/-- The noted record before a rate sample: LOWBAT as reported, drift forgotten by a node that was searched for. -/
def State.reportedRecord (s : State) (f : MacFrame) (h : Hdr) (n : Node) : Node :=
  let n2 := match driftReport f h with
    | some (_, _, b) => (s.notedRecord f h n).setFlagBit 1 b
    | none => s.notedRecord f h n
  if s.searchedFrame f n then { n2.setFlagBit 0 false with dev := s.fld MAC.MISS_CFG_DEV_INIT * 10 } else n2

/-- The record that an authenticated frame leaves. -/
def State.frameRecord (s : State) (f : MacFrame) (h : Hdr) (n : Node) : Node :=
  let n3 := s.reportedRecord f h n
  let sfd : Int := f.sfd
  let tsfd : Int := s.tSfd f.mode
  let w := s.frameWake f
  let trim := match driftReport f h with
    | some (_, t, _) => t
    | none => 0
  let w' := nearSlot n.anchor (sfd - tsfd - Int.tdiv (n.rate * (sfd - n.anchor)) 1000000000)
  if !(getD s.mac.synced f.nidx false && !s.searchedFrame f n) || s.flag MAC.MAC_EXP_DRIFT_FREEZE then n3
  else match s.scheduledWatch f with
    | some _ => if 1000000000 ≤ w - n.anchor then rateSample s n3 w (sfd - (w + tsfd)) trim false else n3
    | none => if decide (1000000000 ≤ w' - n.anchor) && decide ((s.predict n w'.toNat 0).2 < 125000)
        then rateSample s n3 w' (sfd - (w' + tsfd)) trim true else n3

theorem authFrame_notes (s : State) (f : MacFrame) (h : Hdr) (n : Node) :
    FrameNoted f.nidx (s.frameRecord f h n) s (s.after (authFrame f h n)) := by
  rw [authFrame, after_ask]
  refine frameNoted_after s f.nidx (s.frameRecord f h n) _ ?_ _ _ _ _
  exact fun _ => ⟨rfl, rfl⟩

section
variable (s : State) (f : MacFrame) (h : Hdr) (n : Node)

theorem sameButDrift_reportedRecord : SameButDrift (s.reportedRecord f h n) (s.notedRecord f h n) := by
  rw [State.reportedRecord]
  split <;> split <;> rfl

theorem sameButDrift_frameRecord : SameButDrift (s.frameRecord f h n) (s.notedRecord f h n) := by
  refine SameButDrift.trans ?_ (sameButDrift_reportedRecord s f h n)
  rw [State.frameRecord]
  split
  · rfl
  · split
    · split
      · exact sameButDrift_rateSample ..
      · rfl
    · split
      · exact sameButDrift_rateSample ..
      · rfl

theorem frameFacts_frameRecord : FrameFacts f n (s.frameRecord f h n) := by
  rw [sameButDrift_frameRecord s f h n]
  refine ⟨rfl, rfl, rfl, ?_, rfl, rfl, rfl⟩
  simp only [State.notedRecord, Bool.or_eq_true, decide_eq_true_eq]

end

section
variable {s : State} {f : MacFrame} {h : Hdr} {n : Node} {x : Watch}

theorem scheduledWatch_of_single (hx : s.mac.watches = [x]) (hidx : x.nidx = f.nidx) (halt : x.alt = false)
    (hg : ((f.sfd : Int) - x.e).natAbs ≤ x.g) (herr : ((f.sfd : Int) - (x.wake + s.tSfd f.mode)).natAbs ≤ 32000000) :
    s.scheduledWatch f = some x := by
  have hhit : s.mac.watches.find? (fun x => x.nidx = f.nidx && x.alt = false && decide (((f.sfd : Int) - x.e).natAbs ≤ x.g)) =
      some x := by
    rw [hx, List.find?_cons_of_pos]
    rw [decide_eq_true hidx, decide_eq_true halt, decide_eq_true hg]
    rfl
  rw [State.scheduledWatch, State.heardWatch]
  dsimp only
  rw [hhit]
  exact Option.filter_some_pos (decide_eq_true herr)

variable (hwatch : s.scheduledWatch f = some x)
include hwatch

theorem frameWake_of_scheduled : s.frameWake f = x.wake := by rw [State.frameWake, hwatch]

/-- The record of a synchronised node's uplink frame in a scheduled wake, DRIFT not frozen: the rate sample of its wake. -/
theorem frameRecord_sampled (hform : h.form = .uplink) (hstate : n.state ≠ 4) (hcont : s.inContention f = false)
    (hsync : getD s.mac.synced f.nidx false = true) (hfreeze : s.flag MAC.MAC_EXP_DRIFT_FREEZE = false)
    (hlong : 1000000000 ≤ (x.wake : Int) - n.anchor) : s.frameRecord f h n =
      rateSample s (s.notedRecord f h n) x.wake ((f.sfd : Int) - (x.wake + s.tSfd f.mode)) 0 false := by
  have hsearched : s.searchedFrame f n = false := by rw [State.searchedFrame, hcont, decide_eq_false hstate]; rfl
  have hreported : s.reportedRecord f h n = s.notedRecord f h n := by
    rw [State.reportedRecord, driftReport_uplink hform, hsearched]
    rfl
  rw [State.frameRecord, hreported, hsearched, hsync, hfreeze, frameWake_of_scheduled hwatch, driftReport_uplink hform, hwatch]
  exact if_pos hlong

theorem frameSample_frameRecord : FrameSample s f h n x.wake (s.frameRecord f h n) := by
  refine ⟨?_, fun hform hstate hcont hsync hfreeze hlong => ?_⟩
  · rw [sameButDrift_frameRecord s f h n, ← frameWake_of_scheduled hwatch]
    rfl
  · rw [frameRecord_sampled hwatch hform hstate hcont hsync hfreeze hlong]
    refine ⟨fun hfirst => ?_, fun hlater => ?_⟩
    · rw [rateSample_first (n := s.notedRecord f h n) hfirst]
      exact ⟨rfl, flagBit_setFlagBit _ _ _⟩
    · rw [rateSample_later (n := s.notedRecord f h n) hlater]
      refine ⟨rfl, Int.toNat_of_nonneg ?_⟩
      rw [clampI_eq (by decide)]
      exact le_max_left _ _

end

/-- The oldest authenticated frame leaves the inbox, and its node's record takes its facts. -/
theorem authFrame_answers {s : State} (hon : s.on 2 = true) (hen : s.flag MAC.MAC_CTL_EN = true) {f : MacFrame}
    {rest : List MacFrame} {h : Hdr} {n : Node} (hinbox : s.mac.inbox = f :: rest)
    (hparse : parseHdr f.psdu f.psdu.length = some h) (hn : find s.mac.cache f.nidx = some n) (hstate : n.state ≠ 0) :
    Answers .authFrame s (fun t => t.mac.inbox = rest ∧ t.mem = s.mem ∧ t.cores = s.cores ∧
      ∃ m, find t.mac.cache f.nidx = some m ∧ FrameFacts f n m ∧
        ∀ x, s.mac.watches = [x] → x.nidx = f.nidx → x.alt = false → ((f.sfd : Int) - x.e).natAbs ≤ x.g →
          ((f.sfd : Int) - (x.wake + s.tSfd f.mode)).natAbs ≤ 32000000 → FrameSample s f h n x.wake m) := by
  refine answers_inDomain hon rfl ?_
  rw [after_ask, hinbox]
  dsimp only
  rw [after_seq_cons, after_seq_cons, after_seq_nil, after_when, if_pos hen, hparse]
  dsimp only
  have hnode : find (s.after (setMac fun m => { m with inbox := rest })).mac.cache f.nidx = some n := hn
  rw [after_withNode hnode, after_when, if_pos (decide_eq_true hstate)]
  obtain ⟨hinbox', hcache, hmem, hcores⟩ := authFrame_notes (s.after (setMac fun m => { m with inbox := rest })) f h n
  refine ⟨hinbox', hmem, hcores, _, by rw [hcache]; exact find_insertKey_self _ _ _, frameFacts_frameRecord _ f h n,
    fun x hx hidx halt hg herr => ?_⟩
  exact frameSample_frameRecord (scheduledWatch_of_single (s := s.after (setMac fun m => { m with inbox := rest })) hx hidx halt hg herr)

/-- Settles O31: a frame by the record it leaves, a decision by what precedes the miss and what the miss does, an
alternate wake by what its withdrawal leaves. -/
theorem framesAndWakes : Obligations.FramesAndWakes := by
  intro s hon hen
  refine ⟨fun f rest h n hinbox hparse hn hstate => ?_, fun i x n hn hdecide => ⟨fun hx => ⟨?_, ?_, ?_⟩, fun hx => ?_⟩⟩
  · obtain ⟨t, hexec, hinbox', hmem, hcores, m, hm, ⟨hheard, hcount, hmiss, hst, hrssi, hlqi, hanchor⟩, hsample⟩ :=
      authFrame_answers hon hen hinbox hparse hn hstate
    exact ⟨t, hexec, hinbox', hmem, hcores, m, hm, hheard, hcount, hmiss, hst, hrssi, hlqi, hanchor, hsample⟩
  · exact wakeDecision_heard hn hon hen hdecide hx
  · exact fun hlimit hmiss hheard => wakeDecision_searches hn hon hen hdecide hmiss hx hheard hlimit
  · exact fun hlimit hmiss hheard => wakeDecision_files hn hon hen hdecide hmiss hx hheard hlimit
  · exact altWakeExpire_withdraws hn hon hen hdecide hx

end Sys2Proof.Machine
end

section
/-!
PROOFS: acknowledgements and downlink frames as they end (O32).
-/
namespace Sys2Proof.Machine

open Sys2Proof

/-! ### A frame delivered to a ring, as MAC sees it (Table 08.5) -/

theorem keeps_setRing_macSide (n : Nat) (r : Ring) : Keeps State.macSide (setRing n r) := fun _ => rfl

theorem keeps_pointerCheck_macSide (n : Nat) : Keeps State.macSide (pointerCheck n) := by
  have hcount : Keeps State.macSide (count (TM.RING_CNT_B_PTRERR n)) :=
    keeps_count_macSide (by simp only [TM.RING_CNT_B_PTRERR, TM.RING_CNT_B]; omega)
      (by simp only [TM.RING_CNT_B_PTRERR, TM.RING_CNT_B, PLT.PD_STATE_LO]; omega)
  refine keeps_ask fun s => ?_
  dsimp only
  split
  · exact keeps_nothing _
  · exact keeps_seq_cons (keeps_setRing_macSide _ _) (keeps_seq_cons hcount (keeps_seq_cons (keeps_fire_macSide (by omega) _)
      (keeps_seq_nil _)))
  · exact keeps_seq_cons (keeps_setRing_macSide _ _) (keeps_seq_cons hcount (keeps_seq_cons (keeps_fire_macSide (by omega) _)
      (keeps_seq_nil _)))

theorem keeps_newHeadTag_macSide (r len : Nat) : Keeps State.macSide (newHeadTag r len) := by
  refine keeps_ask fun s => ?_
  split
  · exact fun s => macSide_apply_reg s _ (by simp only [TM.RING_FTAG]; omega) (by simp only [TM.RING_FTAG, PLT.PD_STATE_LO]; omega)
  · exact keeps_nothing _

theorem keeps_latchSlotAt_macSide (n k arg : Nat) (i : Instant) : Keeps State.macSide (latchSlotAt n k arg i) := by
  have hmerged : (mergedOf n).addr / 0x10000 ≠ 0x4002 ∧ (mergedOf n).addr ≠ PLT.PD_STATE_LO := by
    unfold mergedOf
    split
    · decide
    · simp only [SEQ.CNT_MERGED, SEQ.CNT, PLT.PD_STATE_LO]
      omega
  exact keeps_ask fun _ => keeps_ite (keeps_nothing _) (keeps_ite (keeps_count_macSide hmerged.1 hmerged.2) fun _ => rfl)

theorem keeps_append_macSide (r : Nat) (d : Desc) : Keeps State.macSide (append r d) :=
  keeps_ask fun _ => keeps_seq_cons (keeps_setRing_macSide _ _) (keeps_seq_cons (fun _ => rfl) (keeps_seq_cons
    (keeps_ite (keeps_putBytes (fun _ _ _ => rfl) _ _) (keeps_putBytes (fun _ _ _ => rfl) _ _)) (keeps_seq_cons
    (keeps_when (keeps_setHolder (fun _ _ _ => rfl) _ _)) (keeps_seq_cons
    (keeps_setFld_macSide (by simp only [TM.HWM_DEPTH_DEPTH, TM.HWM_DEPTH]; omega)
      (by simp only [TM.HWM_DEPTH_DEPTH, TM.HWM_DEPTH, PLT.PD_STATE_LO]; omega) _) (keeps_seq_cons
    (keeps_when (keeps_newHeadTag_macSide _ _)) (keeps_seq_cons (keeps_when (keeps_ask fun _ => keeps_forEach fun x _ =>
      keeps_ask fun u => keeps_latchSlotAt_macSide x.1 x.2 0 u.now)) (keeps_seq_nil _)))))))

theorem keeps_deliver_macSide (r : Nat) (d : Desc) : Keeps State.macSide (deliver r d) :=
  keeps_seq_cons (keeps_pointerCheck_macSide r) (keeps_seq_cons (keeps_ask fun _ => keeps_ite (keeps_append_macSide r d)
    (keeps_seq_cons (keeps_seq_cons (keeps_count_macSide (by simp only [TM.RING_CNT_A_OVERFLOW, TM.RING_CNT_A]; omega)
      (by simp only [TM.RING_CNT_A_OVERFLOW, TM.RING_CNT_A, PLT.PD_STATE_LO]; omega)) (keeps_seq_cons
        (keeps_fireFirst_macSide _ _ (by decide) _) (keeps_seq_nil _)))
      (keeps_seq_cons (keeps_freeDesc_macSide d) (keeps_seq_nil _)))) (keeps_seq_nil _))

/-! ### The head frame of a node's downlink ring (R247) -/

/-- A cached record changed, or none cached: MAC's working state but for the node cache stays. -/
theorem mac_mapNode_cache (s : State) (i : Nat) (f : Node → Node) : ∃ c, (s.after (mapNode i f)).mac = { s.mac with cache := c } := by
  cases h : find s.mac.cache i with
  | some n => exact ⟨_, mac_mapNode h f⟩
  | none => exact ⟨s.mac.cache, by rw [mapNode, after_ask, h]; rfl⟩

theorem keeps_mapNode_macRegs (ks : List Nat) (i : Nat) (f : Node → Node) : Keeps (State.macRegs ks) (mapNode i f) :=
  keeps_ask fun _ => by
    split
    · exact keeps_putNode_macRegs ks _ _
    · exact keeps_nothing _

theorem after_popDl (s : State) (i : Nat) : ∃ f, s.after (popDl i) = ((s.apply .draw).after
    (mapNode i fun n => { n with dlHead := f, dlRetry := 0 })).after (setDl i ((s.dlRing i).drop 1)) := by
  rw [popDl, withFree, after_ask, after_seq_cons, after_seq_cons, after_seq_nil, after_ask, after_seq_cons, after_seq_cons,
    after_seq_nil]
  exact ⟨_, rfl⟩

theorem mac_popDl (s : State) (i : Nat) : ∃ c, (s.after (popDl i)).mac = { s.mac with
    cache := c, downlink := putD s.mac.downlink i ((s.dlRing i).drop 1) [] } := by
  obtain ⟨f, h⟩ := after_popDl s i
  obtain ⟨c, hc⟩ := mac_mapNode_cache (s.apply .draw) i fun n => { n with dlHead := f, dlRetry := 0 }
  obtain ⟨c', hc'⟩ := mac_mapNode_cache (((s.apply .draw).after (mapNode i fun n => { n with dlHead := f, dlRetry := 0 })).after
    (setMac fun m => { m with downlink := putD m.downlink i ((s.dlRing i).drop 1) [] })) i
    fun n => { n with dlCount := ((s.dlRing i).drop 1).length }
  refine ⟨c', ?_⟩
  rw [h, setDl, after_seq_cons, after_seq_cons, after_seq_nil, hc', mac_setMac, hc]
  rfl

theorem keeps_popDl_macRegs (ks : List Nat) (i : Nat) : Keeps (State.macRegs ks) (popDl i) := fun s => by
  obtain ⟨f, h⟩ := after_popDl s i
  rw [h, setDl, after_seq_cons, after_seq_cons, after_seq_nil, keeps_mapNode_macRegs, keeps_setMac_macRegs, keeps_mapNode_macRegs]
  rfl

theorem find_eraseKey_self {α : Type} (m : List (Nat × α)) (k : Nat) : find (eraseKey m k) k = none := by
  rw [find_eraseKey, if_pos rfl]

/-! ### A burst's frame kept, dropped or delivered (R247) -/

theorem mac_endBurst (s : State) (i : Nat) :
    (s.after (endBurst i)).mac = { s.mac with bursts := eraseKey s.mac.bursts i } := by rw [endBurst, mac_setMac]

/-- Node `i`'s burst has ended with a failure of its head frame `r`. -/
def FrameKept (i : Nat) (n : Node) (r : DlFrame) (q : List DlFrame) (s t : State) : Prop :=
  find t.mac.bursts i = none ∧
    if s.fld MAC.DL_CFG_DL_RETRIES ≤ n.dlRetry + 1 then t.dlRing i = q ∧ Counted (MAC.CNT_LO 4) s t
    else t.dlRing i = r :: q ∧ find t.mac.cache i = some { n with dlRetry := n.dlRetry + 1 }

/-- Node `i`'s burst has ended with its head frame delivered. -/
def FrameGone (i : Nat) (q : List DlFrame) (s t : State) : Prop :=
  find t.mac.bursts i = none ∧ t.dlRing i = q ∧ Counted (MAC.CNT_HI 4) s t

section
variable {s s' t t' : State} (hs : s'.macRegs [] = s.macRegs []) (hmac : t'.mac = t.mac)
include hs hmac

theorem FrameKept.congr {i : Nat} {n : Node} {r : DlFrame} {q : List DlFrame} (ht : t'.fld (MAC.CNT_LO 4) = t.fld (MAC.CNT_LO 4))
    (h : FrameKept i n r q s t) : FrameKept i n r q s' t' := by
  rw [FrameKept, fld_of_macRegs hs rfl rfl, Counted, fld_of_macRegs hs rfl rfl, ht, State.dlRing, hmac]
  exact h

theorem FrameGone.congr {i : Nat} {q : List DlFrame} (ht : t'.fld (MAC.CNT_HI 4) = t.fld (MAC.CNT_HI 4))
    (h : FrameGone i q s t) : FrameGone i q s' t' := by
  rw [FrameGone, Counted, fld_of_macRegs hs rfl rfl, ht, State.dlRing, hmac]
  exact h

end

section
variable {s : State} {i : Nat} {r : DlFrame} {q : List DlFrame} (hring : s.dlRing i = r :: q)
include hring

/-- The head frame leaves its node's ring, its chain freed and a counter `g` of MAC's up by one. -/
theorem headFrame_leaves {g : Fld} (hg : g.addr / 0x10000 = 0x4002) (hlo : g.lo ≤ g.hi) (hhi : g.hi < 32) :
    let t := ((s.after (popDl i)).after (freeDesc r.d)).after (count g)
    (∃ c, t.mac = { s.mac with cache := c, downlink := putD s.mac.downlink i q [] }) ∧ Counted g s t := by
  obtain ⟨c, hpop⟩ := mac_popDl s i
  have hfree := keeps_freeDesc_macSide r.d (s.after (popDl i))
  have hregs := (macRegs_of_macSide hfree []).trans (keeps_popDl_macRegs [] i s)
  refine ⟨⟨c, ?_⟩, ?_⟩
  · rw [mac_count, mac_of_macSide hfree, hpop, hring]
    rfl
  · have hcount := counted_count ((s.after (popDl i)).after (freeDesc r.d)) (k := g.addr) hlo hhi
    rw [Counted, fld_of_macRegs hregs (g := ⟨g.addr, g.hi, g.lo⟩) hg rfl] at hcount
    exact hcount

theorem dropDl_drops : (s.after (dropDl i)).dlRing i = q ∧ Counted (MAC.CNT_LO 4) s (s.after (dropDl i)) ∧
    (s.after (dropDl i)).mac.bursts = s.mac.bursts ∧ (s.after (dropDl i)).mac.tagAcks = s.mac.tagAcks := by
  obtain ⟨⟨c, hmac⟩, hcount⟩ := headFrame_leaves hring (g := MAC.CNT_LO 4) rfl (by decide) (by decide)
  rw [dropDl, after_ask, hring]
  dsimp only
  iterate 4 rw [after_seq_cons]
  rw [after_seq_nil]
  generalize ((s.after (popDl i)).after (freeDesc r.d)).after (count (MAC.CNT_LO 4)) = u at hmac hcount ⊢
  have hfire := keeps_fire_macSide (n := 49) (by decide) i u
  rw [State.dlRing, Counted, fld_of_macSide hfire rfl, mac_of_macSide hfire, hmac]
  exact ⟨getD_putD_self _ _ _ _, hcount, rfl, rfl⟩

theorem dlFail_keeps {n : Node} (hn : find s.mac.cache i = some n) : FrameKept i n r q s (s.after (dlFail i)) ∧
    (s.after (dlFail i)).mac.tagAcks = s.mac.tagAcks := by
  have hmac := mac_endBurst s i
  have hnode : find (s.after (endBurst i)).mac.cache i = some n := by rw [hmac]; exact hn
  have hring' : (s.after (endBurst i)).dlRing i = r :: q := by rw [State.dlRing, hmac]; exact hring
  have hregs : (s.after (endBurst i)).macRegs [] = s.macRegs [] := rfl
  have hburst : find (s.after (endBurst i)).mac.bursts i = none := by rw [hmac]; exact find_eraseKey_self _ _
  rw [dlFail, after_seq_cons, after_seq_cons, after_seq_nil, after_withNode hnode, after_ask, FrameKept,
    ← fld_of_macRegs hregs (g := MAC.DL_CFG_DL_RETRIES) rfl rfl]
  split
  · obtain ⟨hdropped, hcount, hbursts, hacks⟩ := dropDl_drops hring'
    rw [hbursts, hacks]
    rw [Counted, fld_of_macRegs hregs rfl rfl] at hcount
    exact ⟨⟨hburst, hdropped, hcount⟩, by rw [hmac]⟩
  · have hput := mac_putNode (s.after (endBurst i)) i { n with dlRetry := n.dlRetry + 1 }
    rw [State.dlRing, hput]
    exact ⟨⟨hburst, hring', find_insertKey_self _ _ _⟩, by rw [hmac]⟩

theorem dlDelivered_gone (b : Burst) (ends : Nat) (hfp : r.fp = false) : FrameGone i q s (s.after (dlDelivered i b ends)) ∧
    (s.after (dlDelivered i b ends)).mac.tagAcks = s.mac.tagAcks := by
  obtain ⟨⟨c, hmac⟩, hcount⟩ := headFrame_leaves hring (g := MAC.CNT_HI 4) rfl (by decide) (by decide)
  rw [dlDelivered, after_ask, hring]
  dsimp only
  rw [if_pos (by rw [hfp]; rfl)]
  iterate 4 rw [after_seq_cons]
  rw [after_seq_nil]
  generalize ((s.after (popDl i)).after (freeDesc r.d)).after (count (MAC.CNT_HI 4)) = u at hmac hcount ⊢
  have hend := mac_endBurst u i
  rw [FrameGone, State.dlRing, hend, hmac]
  exact ⟨⟨find_eraseKey_self _ _, getD_putD_self _ _ _ _, hcount⟩, rfl⟩

end

/-! ### Draining (R251) -/

/-- Draining changes MAC_CTL.DRAINED and raises an event. -/
theorem macDrain_keeps (s : State) : (s.after macDrain).mac = s.mac ∧
    ∀ g : Fld, g.addr / 0x10000 = 0x4002 → g.addr ≠ MAC.MAC_CTL → (s.after macDrain).fld g = s.fld g := by
  rw [macDrain, after_ask, after_when]
  split
  · rw [after_seq_cons, after_seq_cons, after_seq_nil]
    have hfire := keeps_fire_macSide (n := 51) (by decide) 0 (s.after (setFld MAC.MAC_CTL_DRAINED 1))
    refine ⟨by rw [mac_of_macSide hfire, mac_setFld], fun g hg hne => ?_⟩
    rw [fld_of_macSide hfire hg]
    exact fld_setFld_ne s MAC.MAC_CTL_DRAINED g 1 hne
  · exact ⟨rfl, fun _ _ _ => rfl⟩

/-! ### Tag acknowledgements and their deadlines (R247) -/

section
variable {s : State} (hon : s.on 2 = true) {i : Fin 131072} {n : Node} {b : Burst} {r : DlFrame} {q : List DlFrame}
  (hn : find s.mac.cache i.val = some n) (hring : s.dlRing i = r :: q)

/-- The burst that a tag's acknowledgement answers. -/
def State.answered (s : State) (f : MacFrame) : Option (Nat × Burst) :=
  s.mac.bursts.find? (fun e => e.2.port = f.port && e.2.chan = f.chan && (match e.2.await_ with
    | some (_, t) => decide (((f.sfd : Int) - t).natAbs ≤ s.fld MAC.DL_CFG_DL_ACKTOL * 1000)
    | none => false))

/-- What TAG_ACK does once the oldest acknowledgement has left its queue. -/
def tagAckEnds (s : State) (f : MacFrame) : Effect := match s.answered f with
  | some (i, b) =>
    if (b.await_.map Prod.fst) = some (byteAt f.psdu 2) then
      seq [freeChain f.buf, dlDelivered i b (f.sfd + s.bodyTime f.mode f.psdu.length)]
    else seq [deliver (s.fld FWD.RING_SEL0_OTHER) (rxDesc f.port f.chan f.psdu.length f.buf f.sfd 0), dlFail i]
  | none => deliver (s.fld FWD.RING_SEL0_OTHER) (rxDesc f.port f.chan f.psdu.length f.buf f.sfd 0)

/-- The oldest tag acknowledgement leaves the queue. -/
def takeAck (l : List MacFrame) : Effect := setMac fun m => { m with tagAcks := l }

theorem mac_takeAck (s : State) (l : List MacFrame) : (s.after (takeAck l)).mac = { s.mac with tagAcks := l } := rfl

section
include hon

theorem answers_tagAck {P : State → Prop} {f : MacFrame} {l : List MacFrame} (hacks : s.mac.tagAcks = f :: l)
    (h : P ((s.after (takeAck l)).after (tagAckEnds s f))) : Answers .tagAck s P := by
  refine answers_inDomain hon rfl ?_
  rw [after_ask, hacks]
  dsimp only
  rw [after_seq_cons, after_seq_cons, after_seq_nil]
  exact h

variable {f : MacFrame} {l : List MacFrame} (hacks : s.mac.tagAcks = f :: l) {sq t0 : Nat} (hawait : b.await_ = some (sq, t0))
  (hhit : s.answered f = some (i.val, b))
include hacks hawait hhit hring

/-- An acknowledgement of the head frame's number delivers it. -/
theorem tagAck_delivers (hseq : byteAt f.psdu 2 = sq) (hfp : r.fp = false) :
    Answers .tagAck s (fun t => t.mac.tagAcks = l ∧ FrameGone i q s t) := by
  refine answers_tagAck hon hacks ?_
  have hfree := keeps_freeChain_macSide f.buf (s.after (takeAck l))
  have hmac := (mac_of_macSide hfree).trans (mac_takeAck s l)
  have hring' : ((s.after (takeAck l)).after (freeChain f.buf)).dlRing i = r :: q := by rw [State.dlRing, hmac]; exact hring
  obtain ⟨hgone, hqueue⟩ := dlDelivered_gone hring' b (f.sfd + s.bodyTime f.mode f.psdu.length) hfp
  rw [tagAckEnds, hhit]
  dsimp only
  rw [if_pos (by rw [hawait, hseq]; rfl), after_seq_cons, after_seq_cons, after_seq_nil]
  exact ⟨by rw [hqueue, hmac], hgone.congr (macRegs_of_macSide hfree []).symm rfl rfl⟩

include hn

/-- An acknowledgement of another number keeps the head frame, or drops it at its last retry. -/
theorem tagAck_keeps (hseq : byteAt f.psdu 2 ≠ sq) :
    Answers .tagAck s (fun t => t.mac.tagAcks = l ∧ FrameKept i n r q s t) := by
  refine answers_tagAck hon hacks ?_
  have hdel := keeps_deliver_macSide (s.fld FWD.RING_SEL0_OTHER) (rxDesc f.port f.chan f.psdu.length f.buf f.sfd 0) (s.after (takeAck l))
  rw [tagAckEnds, hhit]
  dsimp only
  rw [if_neg (by rw [hawait]; exact fun h => hseq (Option.some.inj h).symm), after_seq_cons, after_seq_cons, after_seq_nil]
  generalize (s.after (takeAck l)).after (deliver (s.fld FWD.RING_SEL0_OTHER) (rxDesc f.port f.chan f.psdu.length f.buf f.sfd 0)) = u
    at hdel ⊢
  have hmac := (mac_of_macSide hdel).trans (mac_takeAck s l)
  have hring' : u.dlRing i = r :: q := by rw [State.dlRing, hmac]; exact hring
  have hnode : find u.mac.cache i.val = some n := by rw [hmac]; exact hn
  obtain ⟨hkept, hqueue⟩ := dlFail_keeps hring' hnode
  exact ⟨by rw [hqueue, hmac], hkept.congr (macRegs_of_macSide hdel []).symm rfl rfl⟩

end

include hon hn hring

theorem dlAckTimeout_keeps (hburst : find s.mac.bursts i.val = some b) {sq t0 : Nat} (hawait : b.await_ = some (sq, t0))
    (hseen : b.seen = none) (hlate : t0 + s.fld MAC.DL_CFG_DL_ACKTOL * 1000 + s.dDec b.mode ≤ s.ns) :
    Answers (.dlAckTimeout i) s (FrameKept i n r q s) := by
  refine answers_inDomain hon rfl ?_
  rw [after_ask, hburst]
  dsimp only
  rw [hawait, hseen]
  dsimp only
  rw [after_when, if_pos (decide_eq_true hlate)]
  exact (dlFail_keeps hring hn).1

end

/-! ### A transmission's end (R236, R247) -/

/-- A transmission's end taken from the baseband. -/
def takeEnd (x : TxDone) : Effect := fun s => [.bb { s.bb with done := s.bb.done.erase x }]

theorem macSide_takeEnd (s : State) (x : TxDone) : (s.after (takeEnd x)).macSide = s.macSide := rfl

theorem after_takeDone {s : State} {p : TxOwner → Bool} {x : TxDone} (hx : s.bb.done.find? (fun y => p y.owner) = some x)
    (k : TxDone → Effect) : s.after (takeDone p k) = (s.after (takeEnd x)).after (k x) := by
  rw [takeDone, after_ask, hx]
  dsimp only
  rw [after_seq_cons, after_seq_cons, after_seq_nil]
  rfl

section
variable {s : State} (hon : s.on 2 = true) {i : Fin 131072} {n : Node} {b : Burst} {r : DlFrame} {q : List DlFrame}
  (hn : find s.mac.cache i.val = some n) (hburst : find s.mac.bursts i.val = some b) (hring : s.dlRing i = r :: q)
  {x : TxDone} (hx : s.bb.done.find? (fun y => decide (y.owner = .downlink) || decide (y.owner = .null)) = some x)
  (howner : x.owner = .downlink) (hident : x.ident = i)

/-- What DL_FRAME_COMPLETION does with the end of a downlink frame's transmission. -/
def dlFrameEnds (i : Nat) (b : Burst) (r : DlFrame) (x : TxDone) : Effect := ask fun s =>
  if x.status = 0 then (
    if bit r.d.w2.toNat 3 then dlDelivered i b x.ends.toNat
    else setBurst i { b with await_ := some (r.seq, x.ends.toNat + s.taEff x.port x.mode + s.tSfd x.mode), seen := none })
  else if x.status = 6 then seq [endBurst i, dropDl i]
  else if x.status = 0x0C then seq [endBurst i, popDl i, freeDesc r.d]
  else dlFail i

include hon hburst hring hx howner hident

theorem answers_dlFrameCompletion {P : State → Prop}
    (h : P (((s.after (takeEnd x)).after (dlFrameEnds i b r x)).after macDrain)) : Answers .dlFrameCompletion s P := by
  refine answers_inDomain hon rfl ?_
  have hburst' : find (s.after (takeEnd x)).mac.bursts x.ident = some b := by rw [hident]; exact hburst
  have hring' : (s.after (takeEnd x)).dlRing x.ident = r :: q := by rw [hident]; exact hring
  rw [after_takeDone hx, after_ask, after_seq_cons, after_seq_cons, after_seq_nil, if_neg (by rw [howner]; decide), hburst', hring']
  rw [hident]
  exact h

theorem dlFrameCompletion_delivers (hstatus : x.status = 0) (hbit : bit r.d.w2.toNat 3 = true) (hfp : r.fp = false) :
    Answers .dlFrameCompletion s (FrameGone i q s) := by
  refine answers_dlFrameCompletion hon hburst hring hx howner hident ?_
  obtain ⟨hmac, hfld⟩ := macDrain_keeps ((s.after (takeEnd x)).after (dlFrameEnds i b r x))
  refine FrameGone.congr (s := s.after (takeEnd x)) (macRegs_of_macSide (macSide_takeEnd s x).symm []) hmac (hfld _ rfl (by decide)) ?_
  rw [dlFrameEnds, after_ask, if_pos hstatus, if_pos hbit]
  exact (dlDelivered_gone (s := s.after (takeEnd x)) hring b _ hfp).1

theorem dlFrameCompletion_awaits (hstatus : x.status = 0) (hbit : bit r.d.w2.toNat 3 = false) :
    Answers .dlFrameCompletion s (fun t => t.dlRing i = r :: q ∧ find t.mac.bursts i.val = some { b with
      await_ := some (r.seq, x.ends.toNat + s.taEff x.port x.mode + s.tSfd x.mode), seen := none }) := by
  refine answers_dlFrameCompletion hon hburst hring hx howner hident ?_
  rw [State.dlRing, (macDrain_keeps _).1, dlFrameEnds, after_ask, if_pos hstatus, if_neg (by rw [hbit]; decide), setBurst, mac_setMac]
  exact ⟨hring, find_insertKey_self _ _ _⟩

include hn

theorem dlFrameCompletion_keeps (hstatus : x.status ∈ [1, 2, 3, 4, 5]) :
    Answers .dlFrameCompletion s (FrameKept i n r q s) := by
  refine answers_dlFrameCompletion hon hburst hring hx howner hident ?_
  obtain ⟨hmac, hfld⟩ := macDrain_keeps ((s.after (takeEnd x)).after (dlFrameEnds i b r x))
  have hfails : x.status ≠ 0 ∧ x.status ≠ 6 ∧ x.status ≠ 0x0C := by
    simp only [List.mem_cons, List.not_mem_nil, or_false] at hstatus
    omega
  obtain ⟨h0, h6, hC⟩ := hfails
  refine FrameKept.congr (s := s.after (takeEnd x)) (macRegs_of_macSide (macSide_takeEnd s x).symm []) hmac (hfld _ rfl (by decide)) ?_
  rw [dlFrameEnds, after_ask, if_neg h0, if_neg h6, if_neg hC]
  exact (dlFail_keeps (s := s.after (takeEnd x)) hring hn).1

end

/-! ### Acknowledgements (R236) -/

/-- An acknowledgement staged for node `i` has ended. -/
def endAck (i : Nat) : Effect := setMac fun m => { m with acks := eraseKey m.acks i }

theorem mac_endAck (s : State) (i : Nat) : (s.after (endAck i)).mac = { s.mac with acks := eraseKey s.mac.acks i } := rfl

/-- What ACK_COMPLETION does to a cached node, by the transmission's status. -/
def ackEnds (i : Nat) (a : AckOut) (x : TxDone) (n : Node) : Effect :=
  if x.status = 0 then seq [
    putNode i { n.setFlagBit 3 false with anchor := a.anchor, state := if n.state = 1 then 2 else n.state },
    setMac fun m => { m with synced := insertKey m.synced i true, tagIv := eraseKey m.tagIv i },
    count (MAC.CNT_HI 2),
    when a.changed (fileAlt i a.oldWake),
    when a.fp (sendDl i ⟨x.port, x.chan, x.mode, 0, false, none, none⟩ x.ends.toNat)]
  else seq [
    putNode i { n.setFlagBit 3 false with anchor := a.oldAnchor }, count (MAC.CNT_LO 2),
    if a.oldState = 1 then seq [unfileMain i, mapNode i fun n => { n with calEntry := 0xFFFFFFFF }] else fileWake i a.oldWake]

section
variable {s : State} (hon : s.on 2 = true) {x : TxDone} {a : AckOut} {n : Node}
  (hx : s.bb.done.find? (fun y => decide (y.owner = .ack)) = some x) (hack : find s.mac.acks x.ident = some a)
  (hn : find s.mac.cache x.ident = some n) (hstate : n.state ≠ 0)
include hon hx hack hn hstate

/-- An acknowledgement's end, from a state that MAC does not tell from the present one but for the ended acknowledgement. -/
theorem answers_ackCompletion {P : State → Prop} (h : ∀ u : State, u.mac = { s.mac with acks := eraseKey s.mac.acks x.ident } →
    u.macRegs [] = s.macRegs [] → P ((u.after (ackEnds x.ident a x n)).after macDrain)) : Answers .ackCompletion s P := by
  refine answers_inDomain hon rfl ?_
  have hfree := (keeps_freeChain_macSide x.buf (s.after (takeEnd x))).trans (macSide_takeEnd s x)
  have hack' : find (s.after (takeEnd x)).mac.acks x.ident = some a := hack
  rw [after_takeDone (p := fun o => decide (o = .ack)) hx, after_ask]
  dsimp only
  rw [hack']
  dsimp only
  iterate 3 rw [after_seq_cons]
  rw [after_seq_nil, after_seq_cons, after_seq_cons, after_seq_nil]
  generalize (s.after (takeEnd x)).after (freeChain x.buf) = v at hfree ⊢
  have hmac := mac_endAck v x.ident
  rw [mac_of_macSide hfree] at hmac
  have hnode : find (v.after (endAck x.ident)).mac.cache x.ident = some n := by rw [hmac]; exact hn
  rw [← endAck, after_withNode hnode, after_when, if_pos (decide_eq_true hstate)]
  exact h _ hmac (macRegs_of_macSide hfree [])

theorem ackCompletion_sent (hstatus : x.status = 0) (hchanged : a.changed = false) (hfp : a.fp = false) :
    Answers .ackCompletion s (fun t => find t.mac.acks x.ident = none ∧ getD t.mac.synced x.ident false = true ∧
      Counted (MAC.CNT_HI 2) s t ∧ find t.mac.cache x.ident = some { n.setFlagBit 3 false with
        anchor := a.anchor, state := if n.state = 1 then 2 else n.state }) := by
  refine answers_ackCompletion hon hx hack hn hstate fun u hmac hregs => ?_
  obtain ⟨hdrain, hfld⟩ := macDrain_keeps (u.after (ackEnds x.ident a x n))
  have hput := mac_putNode u x.ident { n.setFlagBit 3 false with anchor := a.anchor, state := if n.state = 1 then 2 else n.state }
  have hputRegs := keeps_putNode_macRegs [] x.ident
    { n.setFlagBit 3 false with anchor := a.anchor, state := if n.state = 1 then 2 else n.state } u
  rw [Counted, hfld _ rfl (by decide), hdrain, ackEnds, if_pos hstatus, hchanged, hfp]
  iterate 5 rw [after_seq_cons]
  rw [after_seq_nil, after_when, after_when, if_neg (by decide), if_neg (by decide), mac_count, mac_setMac, hput, hmac]
  refine ⟨find_eraseKey_self _ _, ?_, ?_, find_insertKey_self _ _ _⟩
  · rw [getD, find_insertKey_self]
    rfl
  · rw [← fld_of_macRegs ((keeps_setMac_macRegs [] _ _).trans (hputRegs.trans hregs)) rfl rfl]
    exact counted_count _ (by decide) (by decide)

theorem ackCompletion_unsent (hstatus : x.status ≠ 0) (hold : a.oldState ≠ 1) :
    Answers .ackCompletion s (fun t => find t.mac.acks x.ident = none ∧ Counted (MAC.CNT_LO 2) s t ∧
      ∃ m, find t.mac.cache x.ident = some m ∧ m.anchor = a.oldAnchor ∧ m.wake = a.oldWake % 2 ^ 64 ∧
        m.flagBit 3 = false ∧ m.state = n.state) := by
  refine answers_ackCompletion hon hx hack hn hstate fun u hmac hregs => ?_
  obtain ⟨hdrain, hfld⟩ := macDrain_keeps (u.after (ackEnds x.ident a x n))
  have hput := mac_putNode u x.ident { n.setFlagBit 3 false with anchor := a.oldAnchor }
  have hputRegs := keeps_putNode_macRegs [] x.ident { n.setFlagBit 3 false with anchor := a.oldAnchor } u
  rw [Counted, hfld _ rfl (by decide), hdrain, ackEnds, if_neg hstatus, if_neg hold]
  iterate 3 rw [after_seq_cons]
  rw [after_seq_nil, ← fld_of_macRegs (hputRegs.trans hregs) (g := MAC.CNT_LO 2) rfl rfl]
  generalize u.after (putNode x.ident { n.setFlagBit 3 false with anchor := a.oldAnchor }) = v at hput ⊢
  have hnode : find (v.after (count (MAC.CNT_LO 2))).mac.cache x.ident = some { n.setFlagBit 3 false with anchor := a.oldAnchor } := by
    rw [mac_count, hput]
    exact find_insertKey_self _ _ _
  obtain ⟨f, k, o, hfile⟩ := mac_fileWake hnode a.oldWake
  rw [hfile, mac_count, hput, hmac, fld_of_macRegs (macRegs_fileWake hnode (ks := [6]) (by decide) a.oldWake) rfl (by decide)]
  exact ⟨find_eraseKey_self _ _, counted_count v (by decide) (by decide), _, find_insertKey_self _ _ _, rfl, rfl,
    flagBit_setFlagBit n 3 false, rfl⟩

end

/-! ### A record that cannot be read (R227, R252) -/

theorem keeps_writeMem {α : Type} {f : State → α} (hmem : ∀ (t : State) a b, f (t.apply (.mem a b)) = f t)
    (hddr : ∀ (t : State) x, f (t.apply (.ddr x)) = f t) (hnv : ∀ (t : State) x, f (t.apply (.nv x)) = f t)
    (htouch : Keeps f dramTouch) (hready : Keeps f dramNotReady) (a : Nat) (l : List Nat) :
    Keeps f (writeMem a l nothing nothing) := by
  have hput := keeps_putBytes hmem a l
  refine keeps_ask fun s => ?_
  split
  · exact keeps_nothing f
  · exact keeps_nothing f
  · exact keeps_ite (keeps_nothing f) (keeps_ite (keeps_seq_cons hready (keeps_seq_cons (keeps_nothing f) (keeps_seq_nil f)))
      (keeps_seq_cons htouch (keeps_seq_cons hput (keeps_seq_cons (fun s => hddr s _) (keeps_seq_cons (keeps_nothing f)
        (keeps_seq_nil f))))))
  · exact keeps_seq_cons (keeps_ask fun _ => keeps_seq_cons hput (keeps_seq_cons (fun s => hnv s _) (keeps_seq_nil f)))
      (keeps_seq_cons (keeps_nothing f) (keeps_seq_nil f))
  · exact keeps_seq_cons hput (keeps_seq_cons (keeps_nothing f) (keeps_seq_nil f))

theorem keeps_dramTouch_macSide : Keeps State.macSide dramTouch :=
  keeps_dramTouch (fun _ _ => rfl) fun _ => keeps_setFld_macSide (by decide) (by decide) _

theorem keeps_dramNotReady_macSide : Keeps State.macSide dramNotReady :=
  keeps_seq_cons (keeps_count_macSide (by decide) (by decide)) (keeps_seq_cons (keeps_fireFirst_macSide _ _ (by decide) _)
    (keeps_seq_nil _))

theorem keeps_writeBack_macSide (i : Nat) : Keeps State.macSide (writeBack i) := keeps_ask fun _ => by
  split
  · exact keeps_writeMem (fun _ _ _ => rfl) (fun _ _ => rfl) (fun _ _ => rfl) keeps_dramTouch_macSide keeps_dramNotReady_macSide _ _
  · exact keeps_nothing _

/-- MAC's side of the state, but for its node cache. -/
def State.sansCache (s : State) : MacSide := { s.macSide with mac := { s.mac with cache := [] } }

theorem mac_of_sansCache {s t : State} (h : t.sansCache = s.sansCache) : t.mac = { s.mac with cache := t.mac.cache } := by
  have hmac := congrArg (fun v : MacSide => { v.mac with cache := t.mac.cache }) h
  exact hmac

theorem macRegs_of_sansCache {s t : State} (h : t.sansCache = s.sansCache) (ks : List Nat) : t.macRegs ks = s.macRegs ks := by
  have hregs := congrArg (MacSide.regs ks) h
  exact hregs

theorem keeps_sansCache {e : Effect} (h : Keeps State.macSide e) : Keeps State.sansCache e := fun s =>
  congrArg (fun v : MacSide => { v with mac := { v.mac with cache := [] } }) (h s)

/-- A record that enters the cache may drive another one out; nothing else that MAC sees changes (R227). -/
theorem keeps_cacheNode_sansCache (i : Nat) (n : Node) : Keeps State.sansCache (cacheNode i n) :=
  keeps_ask fun _ => keeps_seq_cons (keeps_when (keeps_ask fun _ => keeps_seq_cons (fun _ => rfl) (keeps_seq_cons
    (keeps_ask fun _ => by
      split
      · exact keeps_seq_cons (keeps_sansCache (keeps_writeBack_macSide _)) (keeps_seq_cons (fun _ => rfl) (keeps_seq_nil _))
      · exact keeps_nothing _) (keeps_seq_nil _)))) (keeps_seq_cons (fun _ => rfl) (keeps_seq_nil _))

theorem recordError_searches {s : State} (hon : s.on 2 = true) (i : Fin 131072) (hn : find s.mac.cache i.val = none) :
    Answers (.recordError i) s (fun t => t.raised 50 i ∧ i.val ∈ t.mac.search ∧ (∀ e ∈ t.mac.calendar, e.nidx ≠ i) ∧
      ∃ m, find t.mac.cache i.val = some m ∧ m.state = 4 ∧ m.flagBit 0 = false ∧ m.searchSince = s.ns % 2 ^ 64) := by
  refine answers_inDomain hon rfl ?_
  rw [after_ask, after_when, if_pos (by rw [hn]; rfl)]
  dsimp only
  iterate 3 rw [after_seq_cons]
  rw [after_seq_nil]
  have hcache := macRegs_of_sansCache (keeps_cacheNode_sansCache i ((s.nodeNow i).setFlagBit 0 false) s) [7]
  generalize s.after (cacheNode i ((s.nodeNow i).setFlagBit 0 false)) = u at hcache ⊢
  have hsearch := (keeps_enterSearch_macRegs (ks := [7]) (by decide) i.val ((s.nodeNow i).setFlagBit 0 false) u).trans hcache
  refine ⟨raised_fire _ _ _ ((on_of_macRegs hsearch).trans hon) (by omega), ?_⟩
  rw [mac_fire _ (by decide), mac_enterSearch]
  exact ⟨List.mem_append_right _ (List.mem_singleton_self _), fun e he => of_decide_eq_true (List.mem_filter.1 he).2, _,
    find_insertKey_self _ _ _, rfl, flagBit_setFlagBit _ 0 false, congrArg (· % 2 ^ 64) (ns_of_macRegs hcache)⟩

/-- Settles O32: acknowledgements by their status, head frames by what a burst's end leaves of their ring, an unreadable
record by what a node sent to SEARCH leaves. -/
theorem acksAndDownlink : Obligations.AcksAndDownlink := by
  intro s hon
  refine ⟨fun x a n hx hack hn hstate => ⟨fun hstatus hchanged hfp => ?_, fun hstatus hold => ?_⟩,
    fun i n b r q l hn hburst hring => ⟨fun f sq t0 hacks hawait _ _ hhit => ⟨fun hseq hfp => ?_, fun hseq => ?_⟩,
      fun sq t0 hawait hseen hlate => ?_, fun x hx howner hident => ⟨fun hstatus hbit hfp => ?_, fun hstatus hbit => ?_,
        fun hstatus => ?_⟩⟩, fun i hn => ?_⟩
  · exact ackCompletion_sent hon hx hack hn hstate hstatus hchanged hfp
  · exact ackCompletion_unsent hon hx hack hn hstate hstatus hold
  · exact tagAck_delivers hon hring hacks hawait hhit hseq hfp
  · exact tagAck_keeps hon hn hring hacks hawait hhit hseq
  · exact dlAckTimeout_keeps hon hn hring hburst hawait hseen hlate
  · exact dlFrameCompletion_delivers hon hburst hring hx howner hident hstatus hbit hfp
  · exact dlFrameCompletion_awaits hon hburst hring hx howner hident hstatus hbit
  · exact dlFrameCompletion_keeps hon hn hburst hring hx howner hident hstatus
  · exact recordError_searches hon i hn

end Sys2Proof.Machine
end

section
/-!
PROOFS: the wake calendar (O30). A node's record at hand, a wake opened, the beacons of a slot, and MAC disabled.
-/
namespace Sys2Proof.Machine

open Sys2Proof

/-! ### A record at hand, cached or read from DRAM (R227, R252) -/

/-- A read of memory goes on, with what it read or with a bus error, from a state that MAC cannot tell apart. -/
theorem after_readMem (s : State) (a k : Nat) (bad : Effect) (ok : List Nat → Effect) : ∃ u : State, u.macSide = s.macSide ∧
    (s.after (readMem a k bad ok) = u.after bad ∨ ∃ l, s.after (readMem a k bad ok) = u.after (ok l)) := by
  have htouch := keeps_dramTouch_macSide s
  have hready := keeps_dramNotReady_macSide s
  rw [readMem, after_ask]
  split
  · exact ⟨s, rfl, .inl rfl⟩
  · exact ⟨s, rfl, .inl rfl⟩
  · split
    · exact ⟨s, rfl, .inl rfl⟩
    · split
      · exact ⟨_, hready, .inl (by rw [after_seq_cons, after_seq_cons, after_seq_nil])⟩
      · split
        · split
          · next w _ _ =>
            have herror : Keeps State.macSide (dramError w) :=
              keeps_seq_cons (fun s => macSide_apply_reg s _ (by decide) (by decide)) (keeps_seq_cons
                (fun s => macSide_apply_reg s _ (by decide) (by decide)) (keeps_seq_cons
                (keeps_count_macSide (by decide) (by decide)) (keeps_seq_cons (keeps_fire_macSide (by decide) _) (keeps_seq_nil _))))
            refine ⟨_, (herror _).trans htouch, .inl ?_⟩
            rw [after_seq_cons, after_seq_cons, after_seq_cons, after_seq_nil]
          · exact ⟨_, htouch, .inr ⟨_, by rw [after_seq_cons, after_seq_cons, after_seq_nil]⟩⟩
        · exact ⟨_, htouch, .inr ⟨_, by rw [after_seq_cons, after_seq_cons, after_seq_nil]⟩⟩
  · split
    · next w _ =>
      have herror : Keeps State.macSide (mramError w) :=
        keeps_seq_cons (fun s => macSide_apply_reg s _ (by decide) (by decide)) (keeps_seq_cons
          (keeps_count_macSide (by decide) (by decide)) (keeps_seq_cons (keeps_fire_macSide (by decide) _) (keeps_seq_nil _)))
      exact ⟨_, herror s, .inl (by rw [after_seq_cons, after_seq_cons, after_seq_nil])⟩
    · have hfixed : ∀ l, Keeps State.macSide (forEach l mramFixed) := fun l => keeps_forEach fun _ _ =>
        keeps_seq_cons (keeps_count_macSide (by decide) (by decide)) (keeps_seq_cons (fun _ => rfl)
          (keeps_seq_cons (keeps_fire_macSide (by decide) _) (keeps_seq_nil _)))
      exact ⟨_, hfixed _ s, .inr ⟨_, by rw [after_seq_cons, after_seq_cons, after_seq_nil]⟩⟩
  · exact ⟨s, rfl, .inr ⟨_, rfl⟩⟩

/-- What bringing a record into the cache may change of MAC's working state: the cache, and for a record that cannot be
read, what sends its node to SEARCH. -/
structure Upkeep (s u : State) : Prop where
  mac : ∃ c cal se sy, u.mac = { s.mac with cache := c, calendar := cal, search := se, synced := sy } ∧
    ∀ e ∈ cal, e ∈ s.mac.calendar
  regs : u.macRegs [7] = s.macRegs [7]

theorem upkeep_of_macSide {s u : State} (h : u.macSide = s.macSide) : Upkeep s u :=
  ⟨⟨_, _, _, _, mac_of_macSide h, fun _ he => he⟩, macRegs_of_macSide h _⟩

theorem Upkeep.trans {s t u : State} (h1 : Upkeep s t) (h2 : Upkeep t u) : Upkeep s u := by
  obtain ⟨⟨c, cal, se, sy, hmac, hsub⟩, hregs⟩ := h1
  obtain ⟨⟨c', cal', se', sy', hmac', hsub'⟩, hregs'⟩ := h2
  refine ⟨⟨c', cal', se', sy', by rw [hmac', hmac], fun e he => hsub e ?_⟩, hregs'.trans hregs⟩
  have hmem := hsub' e he
  rw [hmac] at hmem
  exact hmem

theorem upkeep_cacheNode (s : State) (i : Nat) (n : Node) : Upkeep s (s.after (cacheNode i n)) := by
  have h := keeps_cacheNode_sansCache i n s
  exact ⟨⟨_, _, _, _, mac_of_sansCache h, fun _ he => he⟩, macRegs_of_sansCache h _⟩

theorem upkeep_enterSearch (s : State) (i : Nat) (n : Node) : Upkeep s (s.after (enterSearch i n)) :=
  ⟨⟨_, _, _, _, mac_enterSearch s i n, fun _ he => (List.mem_filter.1 he).1⟩, keeps_enterSearch_macRegs (by decide) i n s⟩

/-- Work on a node goes on with its record, from a state with no more than the cache's upkeep done. -/
theorem after_withNode_upkeep (s : State) (i : Nat) (k : Node → Effect) :
    ∃ u n, Upkeep s u ∧ s.after (withNode i k) = u.after (k n) := by
  cases h : find s.mac.cache i with
  | some n => exact ⟨s, n, upkeep_of_macSide rfl, after_withNode h k⟩
  | none =>
    rw [withNode, after_ask, h]
    dsimp only
    obtain ⟨u, hu, hbad | ⟨l, hok⟩⟩ := after_readMem s (s.nodeAddr i) 0x80
      (seq [cacheNode i ((nodeOf (s.bytes (s.nodeAddr i) 0x80)).setFlagBit 0 false),
        enterSearch i ((nodeOf (s.bytes (s.nodeAddr i) 0x80)).setFlagBit 0 false), fire 50 i,
        ask fun t => k ((find t.mac.cache i).getD ((nodeOf (s.bytes (s.nodeAddr i) 0x80)).setFlagBit 0 false))])
      (fun l => seq [cacheNode i (nodeOf l), k (nodeOf l)])
    · rw [hbad]
      iterate 4 rw [after_seq_cons]
      rw [after_seq_nil, after_ask]
      exact ⟨_, _, (upkeep_of_macSide hu).trans ((upkeep_cacheNode u i _).trans ((upkeep_enterSearch _ i _).trans
        (upkeep_of_macSide (keeps_fire_macSide (by decide) i _)))), rfl⟩
    · rw [hok, after_seq_cons, after_seq_cons, after_seq_nil]
      exact ⟨_, _, (upkeep_of_macSide hu).trans (upkeep_cacheNode u i _), rfl⟩

/-- What outlasts a cache's upkeep and the work on any record outlasts the work on a node. -/
theorem preserves_withNode {P : State → Prop} (hup : ∀ s u, Upkeep s u → P s → P u) {i : Nat} {k : Node → Effect}
    (h : ∀ n, Preserves P (k n)) : Preserves P (withNode i k) := fun s hs => by
  obtain ⟨u, n, hu, hafter⟩ := after_withNode_upkeep s i k
  rw [hafter]
  exact h n u (hup s u hu hs)

theorem macRegs_mono {s t : State} {ks ks' : List Nat} (h : t.macRegs ks = s.macRegs ks) (hsub : ks ⊆ ks') :
    t.macRegs ks' = s.macRegs ks' := by
  have hcounter : ∀ k, isCounter ks k = true → isCounter ks' k = true := fun k hk => by
    obtain ⟨j, hj, hkj⟩ := List.any_eq_true.1 hk
    exact List.any_eq_true.2 ⟨j, hsub hj, hkj⟩
  have hreg : ∀ k, (if isCounter ks' (0x40020000 + k % 0x10000) then 0 else t.macSide.reg k) =
      if isCounter ks' (0x40020000 + k % 0x10000) then 0 else s.macSide.reg k := fun k => by
    cases hk : isCounter ks' (0x40020000 + k % 0x10000)
    · have hks : isCounter ks (0x40020000 + k % 0x10000) = false := by
        cases h' : isCounter ks (0x40020000 + k % 0x10000)
        · rfl
        · rw [hcounter _ h'] at hk
          exact Bool.noConfusion hk
      rw [if_neg (by decide), if_neg (by decide)]
      exact reg_of_macRegs h (by omega) hks
    · rfl
  have hon := on_of_macRegs h
  have hns := ns_of_macRegs h
  have hstaged := staged_of_macRegs h
  simp only [State.macRegs, MacSide.regs, hreg]
  simp only [State.macSide, hon, hns, hstaged]

theorem keeps_armWindow_macSide (n : Nat) : Keeps State.macSide (armWindow n) :=
  keeps_of_preserves fun v => (⟨fun _ _ => preserves_of_keeps (fun _ => rfl) v, fun _ _ => preserves_of_keeps (fun _ => rfl) v,
    fun arg => preserves_of_keeps (keeps_fire_macSide (by omega) arg) v⟩ : OutlastsLanes fun s => s.macSide = v).armWindow n

/-! ### A window for MAC (R234) -/

/-- MAC's window is committed to some lane, or not, from a state that differs for MAC in the count of windows without a
lane alone. -/
theorem after_macWindow (s : State) (p chan mode : Nat) (a : Int) (dur : Nat) (ok : Nat → Effect) : ∃ u : State,
    u.mac = s.mac ∧ u.macRegs [1] = s.macRegs [1] ∧
    (s.after (macWindow p chan mode a dur ok) = u ∨ ∃ l, s.after (macWindow p chan mode a dur ok) = u.after (ok l)) := by
  have hcount : (s.after (count (MAC.CNT_LO 1))).macRegs [1] = s.macRegs [1] := keeps_count_macRegs rfl rfl s
  rw [macWindow, after_ask]
  split
  · exact ⟨s, rfl, rfl, .inl rfl⟩
  · split
    · exact ⟨_, mac_count s _, hcount, .inl rfl⟩
    · rw [commitWindow, after_ask]
      split
      · exact ⟨_, mac_count s _, hcount, .inl rfl⟩
      · next n _ =>
        have harm := keeps_armWindow_macSide n
        iterate 4 rw [after_seq_cons]
        rw [after_seq_nil]
        refine ⟨_, ?_, ?_, .inr ⟨n, rfl⟩⟩
        · exact mac_of_macSide (harm _)
        · exact macRegs_of_macSide (harm _) [1]

/-! ### A wake opened (R232, R234) -/

/-- Opening wakes moves no slot on, files no entry, and changes MAC's registers in two counters alone. -/
structure Opening (s t : State) : Prop where
  slot : t.mac.slot = s.mac.slot
  calendar : ∀ e ∈ t.mac.calendar, e ∈ s.mac.calendar
  regs : t.macRegs [1, 7] = s.macRegs [1, 7]

theorem opening_refl (s : State) : Opening s s := ⟨rfl, fun _ he => he, rfl⟩

theorem Opening.trans {s t u : State} (h1 : Opening s t) (h2 : Opening t u) : Opening s u :=
  ⟨h2.slot.trans h1.slot, fun e he => h1.calendar e (h2.calendar e he), h2.regs.trans h1.regs⟩

theorem Upkeep.opening {s u : State} (h : Upkeep s u) : Opening s u := by
  obtain ⟨⟨c, cal, se, sy, hmac, hsub⟩, hregs⟩ := h
  refine ⟨by rw [hmac], fun e he => hsub e ?_, macRegs_mono hregs (by decide)⟩
  rw [hmac] at he
  exact he

/-- The watch of a wake that opens. -/
def State.openedWatch (s : State) (n : Node) (x : CalEntry) : Watch :=
  let e := (s.predict n x.wake n.misses).1
  let g := (s.predict n (if x.alt then n.wake else x.wake) n.misses).2
  let tail := s.bodyTime n.mode 40 + s.dDec n.mode + 100000
  { nidx := x.nidx, wake := x.wake, e := e.toNat, g := g.toNat, decide_ := (e + g + tail).toNat, alt := x.alt, lane := none }

/-- The guard of a wake that opens, as the record holds it. -/
def Node.guarded (n : Node) (g : Nat) : Node := { n with guard := min ((g + 999) / 1000) 65535, calEntry := 0xFFFFFFFF }

/-- A watch begins. -/
def addWatch (w : Watch) : Effect := setMac fun m => { m with watches := m.watches ++ [w] }

/-- A watch has the lane of its window. -/
def giveLane (w : Watch) (l : Nat) : Effect := setMac fun m => { m with
  watches := m.watches.map (fun y => if y = w then { y with lane := some l } else y) }

/-- A wake opens for a record at hand. -/
def openRecord (x : CalEntry) (n : Node) : Effect := ask fun s => when (n.state = 2 || n.state = 3) (seq [
  when (!x.alt) (mapNode x.nidx fun m => m.guarded (s.predict n (if x.alt then n.wake else x.wake) n.misses).2.toNat),
  addWatch (s.openedWatch n x),
  macWindow n.port n.chan n.mode ((s.predict n x.wake n.misses).1 - (s.predict n (if x.alt then n.wake else x.wake) n.misses).2 - s.tSfd n.mode)
    (2 * (s.predict n (if x.alt then n.wake else x.wake) n.misses).2.toNat + s.tSfd n.mode) (giveLane (s.openedWatch n x))])

theorem openWake_eq (x : CalEntry) : openWake x = withNode x.nidx (openRecord x) := rfl

theorem opening_setMac (s : State) (f : Mac → Mac) (hslot : (f s.mac).slot = s.mac.slot) (hcal : (f s.mac).calendar = s.mac.calendar) :
    Opening s (s.after (setMac f)) :=
  ⟨hslot, fun e he => by rw [mac_setMac, hcal] at he; exact he, keeps_setMac_macRegs _ f s⟩

theorem opening_mapNode (s : State) (i : Nat) (f : Node → Node) : Opening s (s.after (mapNode i f)) := by
  obtain ⟨c, hmac⟩ := mac_mapNode_cache s i f
  exact ⟨by rw [hmac], fun e he => by rw [hmac] at he; exact he, keeps_mapNode_macRegs _ i f s⟩

theorem opening_openRecord (s : State) (x : CalEntry) (n : Node) : Opening s (s.after (openRecord x n)) := by
  rw [openRecord, after_ask, after_when]
  split
  · iterate 3 rw [after_seq_cons]
    rw [after_seq_nil]
    have hguard : Opening s (s.after (when (!x.alt) (mapNode x.nidx fun m =>
        m.guarded (s.predict n (if x.alt then n.wake else x.wake) n.misses).2.toNat))) := by
      rw [after_when]
      split
      · exact opening_mapNode s _ _
      · exact opening_refl s
    have hwatch := hguard.trans (opening_setMac _ (fun m => { m with watches := m.watches ++ [s.openedWatch n x] }) rfl rfl)
    rw [addWatch]
    generalize (s.after (when (!x.alt) _)).after (setMac _) = t at hwatch ⊢
    obtain ⟨u, hmac, hregs, h | ⟨l, h⟩⟩ := after_macWindow t n.port n.chan n.mode
      ((s.predict n x.wake n.misses).1 - (s.predict n (if x.alt then n.wake else x.wake) n.misses).2 - s.tSfd n.mode)
      (2 * (s.predict n (if x.alt then n.wake else x.wake) n.misses).2.toNat + s.tSfd n.mode) (giveLane (s.openedWatch n x))
    all_goals
      have hu : Opening t u := ⟨by rw [hmac], fun e he => by rw [hmac] at he; exact he, macRegs_mono hregs (by decide)⟩
      rw [h]
    · exact hwatch.trans hu
    · exact hwatch.trans (hu.trans (opening_setMac _ _ rfl rfl))
  · exact opening_refl s

theorem opening_openWake (s : State) (x : CalEntry) : Opening s (s.after (openWake x)) := by
  obtain ⟨u, n, hu, h⟩ := after_withNode_upkeep s x.nidx (openRecord x)
  rw [openWake_eq, h]
  exact hu.opening.trans (opening_openRecord u x n)

theorem opening_openWakes (s : State) (l : List CalEntry) : Opening s (s.after (forEach l openWake)) :=
  rel_forEach opening_refl (fun _ _ _ => Opening.trans) l (fun x _ t => opening_openWake t x) s

/-- A tracked node's main wake opens: its watch holds E and the guard, and the record the guard (R232). -/
theorem openWake_watches {s : State} {x : CalEntry} {n : Node} (hn : find s.mac.cache x.nidx = some n) (hstate : n.state = 2)
    (halt : x.alt = false) : (∃ w ∈ (s.after (openWake x)).mac.watches, w.nidx = x.nidx ∧ w.wake = x.wake ∧
      w.e = (s.predict n x.wake n.misses).1.toNat ∧ w.g = (s.predict n x.wake n.misses).2.toNat ∧ w.alt = false ∧ w.heard = false) ∧
    find (s.after (openWake x)).mac.cache x.nidx = some (n.guarded (s.predict n x.wake n.misses).2.toNat) := by
  have hg : (if x.alt then n.wake else x.wake) = x.wake := by rw [halt]; rfl
  have hwatch : (s.openedWatch n x).e = (s.predict n x.wake n.misses).1.toNat ∧
      (s.openedWatch n x).g = (s.predict n x.wake n.misses).2.toNat ∧ (s.openedWatch n x).alt = false := by
    rw [State.openedWatch]
    exact ⟨rfl, by rw [hg], halt⟩
  obtain ⟨he, hg', halt'⟩ := hwatch
  have hmap := mac_mapNode hn fun m => m.guarded (s.predict n x.wake n.misses).2.toNat
  rw [openWake_eq, after_withNode hn, openRecord, after_ask, after_when, if_pos (by rw [hstate]; rfl), hg]
  iterate 3 rw [after_seq_cons]
  rw [after_seq_nil, after_when, if_pos (by rw [halt]; rfl), addWatch]
  generalize ht : (s.after (mapNode x.nidx _)).after (setMac _) = t
  have hmac : t.mac = { s.mac with cache := insertKey s.mac.cache x.nidx (n.guarded (s.predict n x.wake n.misses).2.toNat)
                                   watches := s.mac.watches ++ [s.openedWatch n x] } := by
    rw [← ht, mac_setMac, hmap]
  obtain ⟨u, humac, -, h | ⟨l, h⟩⟩ := after_macWindow t n.port n.chan n.mode
    ((s.predict n x.wake n.misses).1 - (s.predict n x.wake n.misses).2 - s.tSfd n.mode)
    (2 * (s.predict n x.wake n.misses).2.toNat + s.tSfd n.mode) (giveLane (s.openedWatch n x))
  · rw [h, humac, hmac]
    exact ⟨⟨_, List.mem_append_right _ (List.mem_singleton_self _), rfl, rfl, he, hg', halt', rfl⟩, find_insertKey_self _ _ _⟩
  · rw [h, giveLane, mac_setMac, humac, hmac]
    refine ⟨⟨{ s.openedWatch n x with lane := some l }, List.mem_map.2 ⟨s.openedWatch n x,
      List.mem_append_right _ (List.mem_singleton_self _), if_pos rfl⟩, rfl, rfl, he, hg', halt', rfl⟩, find_insertKey_self _ _ _⟩

/-! ### What only MAC's working state shows -/

section
variable {α : Type} {g : Mac → α}

theorem skipsTraffic_mac (g : Mac → α) : SkipsTraffic fun s => g s.mac := by constructor <;> intros <;> rfl

theorem keeps_count_mac (g : Mac → α) (c : Fld) : Keeps (fun s => g s.mac) (count c) := fun _ => rfl

theorem keeps_fire_mac (g : Mac → α) {n : Nat} (hn : n < 96) (arg : Nat) : Keeps (fun s => g s.mac) (fire n arg) :=
  (skipsTraffic_mac g).keeps_fire hn arg

theorem keeps_fireFirst_mac (g : Mac → α) (a cause : Nat) {n : Nat} (hn : n < 96) (arg : Nat) :
    Keeps (fun s => g s.mac) (fireFirst a cause n arg) :=
  keeps_ask fun _ => keeps_ite (keeps_nothing _) (keeps_seq_cons (fun _ => rfl) (keeps_seq_cons (keeps_fire_mac g hn arg)
    (keeps_seq_nil _)))

theorem keeps_putBytes_mac (g : Mac → α) (a : Nat) (l : List Nat) : Keeps (fun s => g s.mac) (putBytes a l) :=
  keeps_putBytes (fun _ _ _ => rfl) a l

theorem keeps_freeChain_mac (g : Mac → α) (b : Nat) : Keeps (fun s => g s.mac) (freeChain b) :=
  (skipsTraffic_mac g).keeps_freeChain b

theorem keeps_beaconSkip_mac (g : Mac → α) (p chan : Nat) : Keeps (fun s => g s.mac) (beaconSkip p chan) :=
  keeps_seq_cons (keeps_count_mac g _) (keeps_seq_cons (keeps_fireFirst_mac g _ _ (by decide) _) (keeps_seq_nil _))

theorem keeps_withFree {f : State → α} (hdraw : ∀ t : State, f (t.apply .draw) = f t) {w : Nat} {e : Nat → Effect}
    (h : ∀ v, Keeps f (e v)) : Keeps f (withFree w e) :=
  keeps_ask fun _ => keeps_seq_cons (fun s => hdraw s) (keeps_seq_cons (h _) (keeps_seq_nil f))

theorem keeps_sliceInc_mac (g : Mac → α) (x : Slice) : Keeps (fun s => g s.mac) (sliceInc x) :=
  keeps_withFree (fun _ => rfl) fun _ => keeps_ask fun _ => keeps_seq_cons (fun _ => rfl) (keeps_seq_cons (fun _ => rfl)
    (keeps_seq_cons (keeps_count_mac g _) (keeps_seq_cons (keeps_when (keeps_seq_cons (keeps_count_mac g _) (keeps_seq_cons
      (keeps_fire_mac g (by decide) _) (keeps_seq_nil _)))) (keeps_seq_nil _))))

theorem keeps_yieldUnit_mac (g : Mac → α) (c u : Nat) : Keeps (fun s => g s.mac) (yieldUnit c u) := keeps_ask fun _ => by
  split
  · exact keeps_seq_cons (keeps_sliceInc_mac g _) (keeps_seq_cons (keeps_count_mac g _) (keeps_seq_cons (fun _ => rfl) (keeps_seq_nil _)))
  · exact keeps_nothing _

/-! ### A frame of MAC's own, sealed and staged (R210, R334, R361) -/

theorem keeps_startCeiling_mac (g : Mac → α) (k : Nat) : Keeps (fun s => g s.mac) (startCeiling k) :=
  keeps_ask fun _ => keeps_when (keeps_seq_cons (fun _ => rfl) (keeps_seq_cons (fun _ => rfl) (keeps_seq_nil _)))

theorem keeps_ceilingDone_mac (g : Mac → α) (k : Nat) : Keeps (fun s => g s.mac) (ceilingDone k) := keeps_ask fun _ => by
  split
  · exact keeps_seq_cons (fun _ => rfl) (keeps_seq_cons (keeps_ask fun _ => keeps_seq_cons (keeps_putBytes_mac g _ _)
      (keeps_seq_cons (fun _ => rfl) (keeps_seq_nil _))) (keeps_seq_nil _))
  · exact keeps_nothing _

theorem keeps_drawNow_mac {k : Nat} {exhausted : Effect} {ok : Nat → Effect} (hex : Keeps (fun s => g s.mac) exhausted)
    (hok : ∀ v, Keeps (fun s => g s.mac) (ok v)) : Keeps (fun s => g s.mac) (drawNow k exhausted ok) :=
  keeps_seq_cons (keeps_ask fun _ => keeps_when (keeps_seq_cons (keeps_startCeiling_mac g k) (keeps_seq_cons
    (keeps_ceilingDone_mac g k) (keeps_seq_nil _)))) (keeps_seq_cons (keeps_ask fun _ => keeps_ite
      (keeps_seq_cons (keeps_count_mac g _) (keeps_seq_cons (keeps_when (keeps_seq_cons (fun _ => rfl) (keeps_seq_cons
        (keeps_fire_mac g (by decide) _) (keeps_seq_nil _)))) (keeps_seq_cons hex (keeps_seq_nil _))))
      (keeps_seq_cons (fun _ => rfl) (keeps_seq_cons (keeps_when (keeps_seq_cons (fun _ => rfl) (keeps_seq_cons
        (keeps_fire_mac g (by decide) _) (keeps_seq_nil _)))) (keeps_seq_cons (keeps_when (keeps_startCeiling_mac g k))
        (keeps_seq_cons (hok _) (keeps_seq_nil _)))))) (keeps_seq_nil _))

/-- A reference that names no node finds a stored key or a refusal. -/
theorem findKey_ne_miss {r : Word} (hr : refNode r = none) (s : State) (i k : Nat) : s.findKey r ≠ .miss i k := by
  rw [State.findKey, hr]
  dsimp only
  split_ifs <;> exact Found.noConfusion

theorem keeps_loadNow_mac {r : Word} (hr : refNode r = none) {refused : Nat → Effect} {ok : KeyMat → Effect}
    (href : ∀ c, Keeps (fun s => g s.mac) (refused c)) (hok : ∀ m, Keeps (fun s => g s.mac) (ok m)) :
    Keeps (fun s => g s.mac) (loadNow r refused ok) := keeps_ask fun s => by
  cases h : s.findKey r with
  | refused st =>
    exact keeps_seq_cons (keeps_seq_cons (keeps_when (keeps_count_mac g _)) (keeps_seq_cons (keeps_when (keeps_count_mac g _))
      (keeps_seq_nil _))) (keeps_seq_cons (href st) (keeps_seq_nil _))
  | key m =>
    have htouch : touchCache (refNode r) = nothing := by rw [hr]; rfl
    have hplain : withEui r m ok = ok m := by rw [withEui, hr]
    dsimp only
    rw [htouch, hplain]
    exact keeps_seq_cons (keeps_nothing _) (keeps_seq_cons (hok m) (keeps_seq_nil _))
  | miss i k => exact absurd h (findKey_ne_miss hr s i k)

variable (hcharge : ∀ m l, g { m with charges := l } = g m)
include hcharge

theorem keeps_stage_mac {r : TxReq} {refused : Nat → Effect} {ok : Nat → Nat → Effect}
    (href : ∀ c, Keeps (fun s => g s.mac) (refused c)) (hok : ∀ v c, Keeps (fun s => g s.mac) (ok v c)) :
    Keeps (fun s => g s.mac) (stage r refused ok) := by
  have hair : ∀ p e dwell, Keeps (fun s => g s.mac) (airtimeRefused p e dwell) := fun p e dwell =>
    keeps_seq_cons (keeps_ite (keeps_count_mac g _) (keeps_count_mac g _)) (keeps_seq_cons
      (keeps_fireFirst_mac g _ _ (by decide) _) (keeps_seq_nil _))
  refine keeps_ask fun s => keeps_ite (href _) (keeps_ite (href _) ?_)
  split
  · exact href _
  · split
    · exact href _
    · refine keeps_seq_cons (keeps_when (keeps_seq_cons (keeps_count_mac g _) (keeps_seq_cons
        (keeps_fireFirst_mac g _ _ (by decide) _) (keeps_seq_nil _)))) (keeps_seq_cons ?_ (keeps_seq_nil _))
      split
      · exact href _
      · exact keeps_ite (keeps_seq_cons (hair _ _ _) (keeps_seq_cons (href _) (keeps_seq_nil _)))
          (keeps_ite (keeps_seq_cons (hair _ _ _) (keeps_seq_cons (href _) (keeps_seq_nil _)))
          (keeps_ite (keeps_seq_cons (keeps_count_mac g _) (keeps_seq_cons (href _) (keeps_seq_nil _)))
          (keeps_seq_cons (keeps_yieldUnit_mac g _ _) (keeps_seq_cons (fun _ => rfl) (keeps_seq_cons (fun s => hcharge s.mac _)
            (keeps_seq_cons (fun _ => rfl) (keeps_seq_cons (hok _ _) (keeps_seq_nil _))))))))

/-- A staged transmission ended takes its charge back; MAC's working state shows nothing else of it. -/
theorem keeps_endTx_mac (x : Staged) (status : Nat) : Keeps (fun s => g s.mac) (endTx x status) := by
  have hjob : ∀ id, Keeps (fun s => g s.mac) (jobCheck id) := fun id => keeps_ask fun _ => by
    split
    · exact keeps_nothing _
    · refine keeps_when ?_
      split
      · exact keeps_seq_cons (fun _ => rfl) (keeps_seq_cons ((skipsTraffic_mac g).keeps_complete _ _ _ _) (keeps_seq_nil _))
      · exact keeps_seq_cons (fun _ => rfl) (keeps_seq_cons (keeps_freeChain_mac g _) (keeps_seq_nil _))
  refine keeps_seq_cons (fun _ => rfl) (keeps_seq_cons (fun _ => rfl) (keeps_seq_cons (keeps_when fun s => hcharge s.mac _)
    (keeps_seq_cons (keeps_when (keeps_count_mac g _)) (keeps_seq_cons ?_ (keeps_seq_nil _)))))
  have hown : Keeps (fun s => g s.mac) (seq [freeChain x.buf,
      when (decide (status = 0)) (if x.owner = .beacon then count (MAC.CNT_HI 3) else count (MAC.CNT_LO 6)),
      when (decide (status = 2) || decide (status = 4) || decide (status = 5)) (beaconSkip x.port x.chan)]) :=
    keeps_seq_cons (keeps_freeChain_mac g _) (keeps_seq_cons (keeps_when (keeps_ite (keeps_count_mac g _) (keeps_count_mac g _)))
      (keeps_seq_cons (keeps_when (keeps_beaconSkip_mac g _ _)) (keeps_seq_nil _)))
  split
  · exact keeps_withFree (fun _ => rfl) fun _ => (skipsTraffic_mac g).keeps_complete _ _ _ _
  · exact keeps_seq_cons (keeps_ite (keeps_count_mac g _) (keeps_count_mac g _)) (keeps_seq_cons (fun _ => rfl)
      (keeps_seq_cons (hjob _) (keeps_seq_nil _)))
  · exact hown
  · exact hown
  · exact fun _ => rfl

theorem keeps_submitJob_mac {j : CryJob} {owner : TxOwner} {ident : Nat} (hj : j.owner = .mac owner ident) :
    Keeps (fun s => g s.mac) (submitJob j) := keeps_ask fun _ => by
  rw [tellOwner, hj]
  refine keeps_ite (keeps_ite (keeps_nothing _) (keeps_ask fun _ => ?_)) fun _ => rfl
  split
  · exact keeps_endTx_mac hcharge _ _
  · exact keeps_nothing _

theorem keeps_stageSealed_mac {owner : TxOwner} {ident b a level ref : Nat} {l : List Nat} {q : TxReq} {refused : Nat → Effect}
    {ok : Nat → Nat → Effect} (hr : refNode (BitVec.ofNat 32 ref) = none) (href : ∀ c, Keeps (fun s => g s.mac) (refused c))
    (hok : ∀ v c, Keeps (fun s => g s.mac) (ok v c)) :
    Keeps (fun s => g s.mac) (stageSealed owner ident b l a level ref q refused ok) := by
  have hno : ∀ c, Keeps (fun s => g s.mac) (seq [freeChain b, refused c]) := fun c =>
    keeps_seq_cons (keeps_freeChain_mac g b) (keeps_seq_cons (href c) (keeps_seq_nil _))
  exact keeps_ask fun _ => keeps_ite (hno _) (keeps_seq_cons (keeps_putBytes_mac g _ _) (keeps_seq_cons
    (keeps_loadNow_mac hr (fun _ => hno _) fun _ => keeps_ask fun _ => keeps_drawNow_mac (hno _) fun _ =>
      keeps_stage_mac hcharge hno fun v c => keeps_seq_cons (keeps_submitJob_mac hcharge rfl) (keeps_seq_cons (hok v c)
        (keeps_seq_nil _))) (keeps_seq_nil _)))

omit hcharge in
theorem keeps_withMacBuf_mac {refused : Effect} {ok : Nat → Effect} (href : Keeps (fun s => g s.mac) refused)
    (hok : ∀ b, Keeps (fun s => g s.mac) (ok b)) : Keeps (fun s => g s.mac) (withMacBuf refused ok) := by
  have hcnt : ∀ c, Keeps (fun s => g s.mac) (allocRefused c) := fun c => by
    unfold allocRefused
    split <;> exact keeps_seq_cons (keeps_count_mac g _) (keeps_seq_cons (keeps_fireFirst_mac g _ _ (by decide) _) (keeps_seq_nil _))
  have htake : ∀ b c, Keeps (fun s => g s.mac) (takeBuf b c) := fun b c => keeps_ask fun _ => keeps_seq_cons (fun _ => rfl)
    (keeps_seq_cons (keeps_putBytes_mac g _ _) (keeps_seq_cons (keeps_when (keeps_count_mac g _)) (keeps_seq_cons
      (keeps_setFree (skipsTraffic_mac g).skipsEvents (fun _ _ => rfl) _) (keeps_seq_nil _))))
  have hbuf : ∀ c {no : Effect}, Keeps (fun s => g s.mac) no → Keeps (fun s => g s.mac) (withBuf c no ok) := fun c no hno =>
    keeps_ask fun _ => keeps_ite (by
      split
      · exact keeps_seq_cons (htake _ _) (keeps_seq_cons (hok _) (keeps_seq_nil _))
      · exact keeps_seq_cons (hcnt _) (keeps_seq_cons hno (keeps_seq_nil _)))
      (keeps_seq_cons (hcnt _) (keeps_seq_cons hno (keeps_seq_nil _)))
  exact hbuf 1 (hbuf 2 href)

/-! ### Beacons (R243) -/

omit hcharge in
/-- The key of MAC's beacons is a stored one. -/
theorem refNode_beaconKey (s : State) : refNode (BitVec.ofNat 32 (s.fld MAC.BCN_CFG_KEY)) = none := by
  have hlt : s.fld MAC.BCN_CFG_KEY < 2 ^ 31 := lt_of_lt_of_le (bits_lt (s.regN MAC.BCN_CFG) 27 16) (by decide)
  rw [refNode, if_neg]
  rw [bit, BitVec.toNat_ofNat, decide_eq_true_eq]
  omega

variable (hbsn : ∀ m l, g { m with bsn := l } = g m)
include hbsn

theorem keeps_sendBeacon_mac {p chan mode t interval : Nat} {power : Int} {recovery : Bool} {ok : Effect}
    (hok : Keeps (fun s => g s.mac) ok) : Keeps (fun s => g s.mac) (sendBeacon p chan mode power t interval recovery ok) :=
  keeps_ask fun s => keeps_withMacBuf_mac (keeps_beaconSkip_mac g _ _) fun _ => keeps_seq_cons (fun s => hbsn s.mac _)
    (keeps_seq_cons (keeps_stageSealed_mac hcharge (refNode_beaconKey s) (fun _ => keeps_when (keeps_beaconSkip_mac g _ _))
      fun _ _ => hok) (keeps_seq_nil _))

theorem keeps_beaconsAt_mac (p t : Nat) : Keeps (fun s => g s.mac) (beaconsAt p t) :=
  keeps_ask fun _ => keeps_when (keeps_forEach fun _ _ => keeps_when (keeps_sendBeacon_mac hcharge hbsn (keeps_nothing _)))

end

/-! ### A slot processed (R237, R239) -/

/-- The slot that is processed, with its entries off the wheel. -/
def takeSlot (k : Nat) : Effect := setMac fun m => { m with
  slot := k + 1, calendar := m.calendar.filter fun e => !(e.slot = k && !e.overflow) }

theorem mac_takeSlot (s : State) (k : Nat) : (s.after (takeSlot k)).mac = { s.mac with
    slot := k + 1, calendar := s.mac.calendar.filter fun e => !(e.slot = k && !e.overflow) } := rfl

section
variable {s : State} (hon : s.on 2 = true) (hen : s.flag MAC.MAC_CTL_EN = true)
  (hlead : s.mac.slot ≤ s.ns / 250000 + s.fld MAC.MAC_CTL_LEAD_SLOTS)
include hon hen hlead

theorem answers_slotProcess {P : State → Prop} (h : ∀ t : State,
      (∀ {α : Type} {g : Mac → α}, (∀ m l, g { m with charges := l } = g m) → (∀ m l, g { m with bsn := l } = g m) →
        g t.mac = g ((s.after (takeSlot s.mac.slot)).after
          (forEach (s.mac.calendar.filter fun e => e.slot = s.mac.slot && !e.overflow) openWake)).mac) → P t) :
    Answers .slotProcess s P := by
  refine answers_inDomain hon rfl ?_
  rw [after_ask, after_when, if_pos (by rw [hen, decide_eq_true hlead]; rfl)]
  dsimp only
  iterate 3 rw [after_seq_cons]
  rw [after_seq_nil]
  exact h _ fun hcharge hbsn => keeps_forEach (fun p _ => keeps_beaconsAt_mac hcharge hbsn p _) _

theorem slotProcess_opens : Answers .slotProcess s (fun t => t.mac.slot = s.mac.slot + 1 ∧
    (∀ e ∈ t.mac.calendar, (e.slot = s.mac.slot && !e.overflow) = false ∧ e ∈ s.mac.calendar) ∧
    ∀ x n, s.mac.calendar.filter (fun e => e.slot = s.mac.slot && !e.overflow) = [x] → x.alt = false →
      find s.mac.cache x.nidx = some n → n.state = 2 →
      (∃ w ∈ t.mac.watches, w.nidx = x.nidx ∧ w.wake = x.wake ∧ w.e = (s.predict n x.wake n.misses).1.toNat ∧
        w.g = (s.predict n x.wake n.misses).2.toNat ∧ w.alt = false ∧ w.heard = false) ∧
      find t.mac.cache x.nidx = some (n.guarded (s.predict n x.wake n.misses).2.toNat)) := by
  refine answers_slotProcess hon hen hlead fun t ht => ?_
  have hopen := opening_openWakes (s.after (takeSlot s.mac.slot)) (s.mac.calendar.filter fun e => e.slot = s.mac.slot && !e.overflow)
  have hslot := ht (g := Mac.slot) (fun _ _ => rfl) fun _ _ => rfl
  have hcal := ht (g := Mac.calendar) (fun _ _ => rfl) fun _ _ => rfl
  have hwatches := ht (g := Mac.watches) (fun _ _ => rfl) fun _ _ => rfl
  have hcache := ht (g := Mac.cache) (fun _ _ => rfl) fun _ _ => rfl
  refine ⟨hslot.trans hopen.slot, fun e he => ?_, fun x n hdue halt hn hstate => ?_⟩
  · rw [hcal] at he
    obtain ⟨hmem, hnot⟩ := List.mem_filter.1 (hopen.calendar e he)
    exact ⟨by simpa [imp_iff_not_or] using hnot, hmem⟩
  · rw [hwatches, hcache, hdue, after_forEach_cons, after_forEach_nil]
    exact openWake_watches (s := s.after (takeSlot s.mac.slot)) hn hstate halt

end

/-! ### The overflow list moved onto the wheel (R237) -/

/-- Filing a list of entries adds as many, those it leaves on the overflow list beyond the horizon alone. -/
theorem placeEntries {now : Nat} (l : List CalEntry) (s : State) (hnow : s.ns / 250000 = now) :
    (s.after (forEach l placeEntry)).mac = { s.mac with calendar := (s.after (forEach l placeEntry)).mac.calendar } ∧
    (s.after (forEach l placeEntry)).mac.calendar.length = s.mac.calendar.length + l.length ∧
    ((∀ e ∈ s.mac.calendar, e.overflow = true → now + (2 ^ 20 - 2 ^ 16) ≤ e.slot) →
      ∀ e ∈ (s.after (forEach l placeEntry)).mac.calendar, e.overflow = true → now + (2 ^ 20 - 2 ^ 16) ≤ e.slot) := by
  induction l generalizing s with
  | nil => exact ⟨rfl, rfl, id⟩
  | cons x l ih =>
    obtain ⟨k, o, ho, hmac⟩ := mac_placeEntry s x
    have hns : (s.after (placeEntry x)).ns = s.ns := ns_of_macRegs (keeps_placeEntry_macRegs (ks := [6]) (by decide) x s)
    obtain ⟨hrest, hlength, hover⟩ := ih (s.after (placeEntry x)) (by rw [hns, hnow])
    rw [after_forEach_cons]
    refine ⟨?_, ?_, fun h => ?_⟩
    · rw [hrest, hmac]
    · rw [hlength, hmac, List.length_append, List.length_singleton, List.length_cons]
      omega
    · refine hover fun e he hoverflow => ?_
      rw [hmac] at he
      rcases List.mem_append.1 he with he | he
      · exact h e he hoverflow
      · obtain rfl := List.mem_singleton.1 he
        rw [← hnow]
        exact ho hoverflow

section
variable {s : State} (hon : s.on 2 = true) (hen : s.flag MAC.MAC_CTL_EN = true)
include hon hen

theorem overflowMigrate_files (hmigrated : s.mac.migrated ≠ s.ns / 250000 / 2 ^ 16) : Answers .overflowMigrate s (fun t =>
    t.mac.migrated = s.ns / 250000 / 2 ^ 16 ∧ t.mac.calendar.length = s.mac.calendar.length ∧
    ∀ e ∈ t.mac.calendar, e.overflow = true → s.ns / 250000 + 2 ^ 20 - 2 ^ 16 ≤ e.slot) := by
  refine answers_inDomain hon rfl ?_
  rw [after_ask, after_when, if_pos (by rw [hen, decide_eq_true hmigrated]; rfl), after_seq_cons, after_seq_cons, after_seq_nil]
  obtain ⟨hmac, hlength, hover⟩ := placeEntries (now := s.ns / 250000) (s.mac.calendar.filter fun e => e.overflow && decide (e.slot < s.ns / 250000 + 2 ^ 20 - 2 ^ 16))
    (s.after (setMac fun m => { m with
      migrated := s.ns / 250000 / 2 ^ 16
      calendar := m.calendar.filter fun e => !(e.overflow && decide (e.slot < s.ns / 250000 + 2 ^ 20 - 2 ^ 16)) })) rfl
  refine ⟨by rw [hmac, mac_setMac], ?_, fun e he hoverflow => ?_⟩
  · rw [hlength, mac_setMac]
    have hsplit := List.length_eq_length_filter_add (l := s.mac.calendar)
      fun e => e.overflow && decide (e.slot < s.ns / 250000 + 2 ^ 20 - 2 ^ 16)
    rw [Nat.add_comm]
    exact hsplit.symm
  · have hbeyond := hover (fun e he hoverflow => ?_) e he hoverflow
    · exact le_trans (by omega) hbeyond
    · have hstays := (List.mem_filter.1 he).2
      rw [hoverflow, Bool.true_and, Bool.not_eq_true', decide_eq_false_iff_not] at hstays
      exact le_trans (by omega) (not_lt.1 hstays)

end

/-! ### MAC disabled (R251) -/

/-- A watch withdrawn at a disable: it ends, and its entry goes back to the calendar unless it was heard. -/
def withdrawWatch (x : Watch) : Effect := seq [endWatch x,
  when (!x.heard) (setMac fun m => { m with calendar := m.calendar ++ [⟨x.nidx, (x.e - x.g) / 250000, x.wake, x.alt, false⟩] })]

theorem withdrawWatch_ends (s : State) (x : Watch) : (s.after (withdrawWatch x)).mac.watches = s.mac.watches.erase x ∧
    (s.after (withdrawWatch x)).mac.downlink = s.mac.downlink ∧ (s.after (withdrawWatch x)).macRegs [7] = s.macRegs [7] := by
  have hend : (s.after (endWatch x)).mac.watches = s.mac.watches.erase x ∧ (s.after (endWatch x)).mac.downlink = s.mac.downlink ∧
      (s.after (endWatch x)).macRegs [7] = s.macRegs [7] := by
    rw [endWatch, ← eraseWatch, after_seq_cons, after_seq_cons, after_seq_nil]
    cases x.lane with
    | none => exact ⟨rfl, rfl, rfl⟩
    | some l =>
      dsimp only
      obtain ⟨u, n, ⟨⟨c, cal, se, sy, hmac, -⟩, hregs⟩, h⟩ := after_withNode_upkeep (s.after (eraseWatch x)) x.nidx
        fun n => ask fun s => dropWindow l (BitVec.ofInt 64 (s.watchFrom n x))
      have hdrop := keeps_dropWindow_macSide l (BitVec.ofInt 64 (u.watchFrom n x)) u
      rw [h, after_ask, mac_of_macSide hdrop, macRegs_of_macSide hdrop, hmac, hregs]
      exact ⟨rfl, rfl, rfl⟩
  obtain ⟨hwatches, hdownlink, hregs⟩ := hend
  rw [withdrawWatch, after_seq_cons, after_seq_cons, after_seq_nil, after_when]
  split
  · exact ⟨hwatches, hdownlink, hregs⟩
  · exact ⟨hwatches, hdownlink, hregs⟩

theorem withdrawWatches (l : List Watch) (s : State) : (s.after (forEach l withdrawWatch)).mac.watches = s.mac.watches.diff l ∧
    (s.after (forEach l withdrawWatch)).mac.downlink = s.mac.downlink ∧
    (s.after (forEach l withdrawWatch)).macRegs [7] = s.macRegs [7] := by
  induction l generalizing s with
  | nil => exact ⟨(List.diff_nil _).symm, rfl, rfl⟩
  | cons x l ih =>
    obtain ⟨hwatches, hdownlink, hregs⟩ := withdrawWatch_ends s x
    obtain ⟨hwatches', hdownlink', hregs'⟩ := ih (s.after (withdrawWatch x))
    rw [after_forEach_cons, List.diff_cons, ← hwatches]
    exact ⟨hwatches', hdownlink'.trans hdownlink, hregs'.trans hregs⟩

theorem diff_self {α : Type} [DecidableEq α] (l : List α) : l.diff l = [] := by
  have h := diff_filter (fun _ => true) l
  rwa [List.filter_true, List.filter_eq_nil_iff.2 fun _ _ => by decide] at h

/-- MAC's own windows leave the lanes. -/
def dropOwnWindows : Effect := ask fun s => forEach (allBelow 96 (fun n => (s.lane n).windows.any (fun w => !w.byListen)))
  (fun n => ask fun s => forEach ((s.lane n).windows.filter (fun w => !w.byListen)) (fun w => dropWindow n w.from_))

theorem keeps_dropOwnWindows (l : List Nat) : Keeps State.macSide (forEach l fun n => ask fun s =>
    forEach ((s.lane n).windows.filter (fun w => !w.byListen)) (fun w => dropWindow n w.from_)) :=
  keeps_forEach fun _ _ => keeps_ask fun _ => keeps_forEach fun _ _ => keeps_dropWindow_macSide _ _

/-- A transmission of MAC's own cancelled before its time leaves MAC_CTL alone. -/
theorem macCtl_endTx {x : Staged} (hprogram : x.owner ≠ .program) (hflood : x.owner ≠ .flood) :
    Keeps (State.reg · MAC.MAC_CTL) (endTx x 0x0C) := by
  have hown : ∀ e : Effect, Keeps (State.reg · MAC.MAC_CTL) (seq [freeChain x.buf, when (decide ((0x0C : Nat) = 0)) e,
      when (decide ((0x0C : Nat) = 2) || decide ((0x0C : Nat) = 4) || decide ((0x0C : Nat) = 5)) (beaconSkip x.port x.chan)]) := fun _ =>
    keeps_seq_cons (fun s => reg_of_macSide (keeps_freeChain_macSide x.buf s) rfl) (keeps_seq_cons (fun _ => rfl)
      (keeps_seq_cons (fun _ => rfl) (keeps_seq_nil _)))
  refine keeps_seq_cons (fun _ => rfl) (keeps_seq_cons (fun _ => rfl) (keeps_seq_cons (fun _ => rfl)
    (keeps_seq_cons (fun _ => rfl) (keeps_seq_cons ?_ (keeps_seq_nil _)))))
  split
  · next h => exact absurd h hprogram
  · next h => exact absurd h hflood
  · exact hown _
  · exact hown _
  · exact fun _ => rfl

/-- Draining leaves MAC's enable and the staged transmissions alone. -/
theorem macDrain_enable (s : State) : (s.after macDrain).flag MAC.MAC_CTL_EN = s.flag MAC.MAC_CTL_EN ∧
    (s.after macDrain).bb.staged = s.bb.staged := by
  rw [macDrain, after_ask, after_when]
  split
  · rw [after_seq_cons, after_seq_cons, after_seq_nil]
    have hfire := keeps_fire_macSide (n := 51) (by decide) 0 (s.after (setFld MAC.MAC_CTL_DRAINED 1))
    rw [flag_of_macSide hfire rfl, staged_of_macSide hfire]
    exact ⟨flag_setFld_bit s MAC.MAC_CTL 2 0 1 (by decide), rfl⟩
  · exact ⟨rfl, rfl⟩

/-- Whether a staged transmission is MAC's own and not yet on the air. -/
def Staged.withdrawable (x : Staged) : Bool := x.owner ≠ .program && x.owner ≠ .flood && x.phase ≠ .onAir

/-- MAC's own transmissions that are not on the air are cancelled, and nothing else MAC has changes. -/
theorem cancelOwn (s : State) (l : List Staged) (hl : l = s.bb.staged.filter Staged.withdrawable) :
    (s.after (forEach l fun x => endTx x 0x0C)).flag MAC.MAC_CTL_EN = s.flag MAC.MAC_CTL_EN ∧
    (s.after (forEach l fun x => endTx x 0x0C)).mac.watches = s.mac.watches ∧
    (s.after (forEach l fun x => endTx x 0x0C)).mac.downlink = s.mac.downlink ∧
    ∀ y ∈ (s.after (forEach l fun x => endTx x 0x0C)).bb.staged, y.owner = .program ∨ y.owner = .flood ∨ y.phase = .onAir := by
  have hreg : Keeps (State.reg · MAC.MAC_CTL) (forEach l fun x => endTx x 0x0C) := keeps_forEach fun x hx => by
    rw [hl] at hx
    have hown := (List.mem_filter.1 hx).2
    simp only [Staged.withdrawable, Bool.and_eq_true, decide_eq_true_eq] at hown
    exact macCtl_endTx hown.1.1 hown.1.2
  refine ⟨flag_eq_of_reg (hreg s), keeps_forEach (f := fun s : State => s.mac.watches)
    (fun x _ => keeps_endTx_mac (g := Mac.watches) (fun _ _ => rfl) x _) s,
    keeps_forEach (f := fun s : State => s.mac.downlink)
    (fun x _ => keeps_endTx_mac (g := Mac.downlink) (fun _ _ => rfl) x _) s, fun y hy => ?_⟩
  obtain ⟨hmem, hnot⟩ := staged_forEach_end (fun x u => staged_endTx u x 0x0C) l s y hy
  by_contra hown
  refine hnot ?_
  rw [hl]
  refine List.mem_filter.2 ⟨hmem, ?_⟩
  simp only [Staged.withdrawable, Bool.and_eq_true, decide_eq_true_eq]
  tauto

section
variable {s : State} (hon : s.on 2 = true)
include hon

theorem macDisable_withdraws (hen : s.flag MAC.MAC_CTL_EN = true) : Answers .macDisable s (fun t =>
    t.flag MAC.MAC_CTL_EN = false ∧ t.mac.watches = [] ∧ t.mac.downlink = s.mac.downlink ∧
    ∀ y ∈ t.bb.staged, y.owner = .program ∨ y.owner = .flood ∨ y.phase = .onAir) := by
  refine answers_inDomain hon rfl ?_
  rw [macDisable, after_ask, after_when, if_pos hen]
  iterate 5 rw [after_seq_cons]
  rw [after_seq_nil]
  obtain ⟨hwatches, hdownlink, hregs⟩ := withdrawWatches s.mac.watches (s.after (setFld MAC.MAC_CTL_EN 0))
  have hdrop := keeps_dropOwnWindows (allBelow 96 fun n => (s.lane n).windows.any fun w => !w.byListen)
    ((s.after (setFld MAC.MAC_CTL_EN 0)).after (forEach s.mac.watches withdrawWatch))
  have hfold : ∀ u : State, u.after (forEach s.mac.watches fun x => seq [endWatch x, when (!x.heard) (setMac fun m => { m with
      calendar := m.calendar ++ [⟨x.nidx, (x.e - x.g) / 250000, x.wake, x.alt, false⟩] })]) = u.after (forEach s.mac.watches withdrawWatch) :=
    fun _ => rfl
  rw [hfold]
  generalize ((s.after (setFld MAC.MAC_CTL_EN 0)).after (forEach s.mac.watches withdrawWatch)).after (forEach _ _) = u at hdrop ⊢
  have hstaged : u.bb.staged = s.bb.staged := (staged_of_macSide hdrop).trans ((staged_of_macRegs hregs).trans rfl)
  have hflag : u.flag MAC.MAC_CTL_EN = false := by
    rw [flag_of_macSide hdrop rfl, flag_of_macRegs hregs rfl rfl]
    exact flag_setFld_self s MAC.MAC_CTL 0 0 (by decide)
  obtain ⟨hen', hwatches', hdownlink', hown⟩ := cancelOwn u _ (congrArg (List.filter Staged.withdrawable) hstaged.symm)
  obtain ⟨hdrainEn, hdrainStaged⟩ := macDrain_enable (u.after (forEach (s.bb.staged.filter Staged.withdrawable) fun x => endTx x 0x0C))
  have hdrainMac := (macDrain_keeps (u.after (forEach (s.bb.staged.filter Staged.withdrawable) fun x => endTx x 0x0C))).1
  refine ⟨hdrainEn.trans (hen'.trans hflag), ?_, ?_, fun y hy => hown y ?_⟩
  · refine (congrArg Mac.watches hdrainMac).trans (hwatches'.trans ?_)
    rw [mac_of_macSide hdrop, hwatches, mac_setFld]
    exact diff_self _
  · refine (congrArg Mac.downlink hdrainMac).trans (hdownlink'.trans ?_)
    rw [mac_of_macSide hdrop, hdownlink, mac_setFld]
  · rw [← hdrainStaged]
    exact hy

theorem macEnable_starts (hen : s.flag MAC.MAC_CTL_EN = false) : Answers .macEnable s (fun t =>
    t.flag MAC.MAC_CTL_EN = true ∧ t.mac.slot = s.ns / 250000 ∧ t.flag MAC.MAC_CTL_DRAINED = false) := by
  refine answers_inDomain hon rfl ?_
  rw [macEnable, after_ask, after_when, if_pos (by rw [hen]; rfl)]
  dsimp only
  iterate 4 rw [after_seq_cons]
  rw [after_seq_nil]
  generalize hu : ((s.after (setFld MAC.MAC_CTL_EN 1)).after (setFld MAC.MAC_CTL_DRAINED 0)).after (setMac _) = u
  have hopen := opening_openWakes u (s.mac.calendar.filter fun e => !e.overflow && decide (e.slot < s.ns / 250000))
  have hmac : u.mac.slot = s.ns / 250000 := by
    rw [← hu, mac_setMac]
  have hreg : u.macRegs [] = ((s.after (setFld MAC.MAC_CTL_EN 1)).after (setFld MAC.MAC_CTL_DRAINED 0)).macRegs [] := by
    rw [← hu]
    exact keeps_setMac_macRegs _ _ _
  rw [flag_of_macRegs hopen.regs rfl rfl, flag_of_macRegs hopen.regs (g := MAC.MAC_CTL_DRAINED) rfl rfl,
    flag_of_macRegs hreg rfl rfl, flag_of_macRegs hreg (g := MAC.MAC_CTL_DRAINED) rfl rfl]
  refine ⟨?_, hopen.slot.trans hmac, flag_setFld_self _ MAC.MAC_CTL 2 0 (by decide)⟩
  exact (flag_setFld_bit _ MAC.MAC_CTL 2 0 0 (by decide)).trans (flag_setFld_self s MAC.MAC_CTL 0 1 (by decide))

end

theorem predict_zero (s : State) (n : Node) (w : Nat) : (s.predict n w 0).2 = (s.fld MAC.GUARD_CFG_G_BASE * 1000 : Nat) +
    Int.tdiv (Int.tdiv ((w : Int) - n.anchor) 1000 * (s.fld MAC.GUARD_CFG_K_DEV * n.dev + s.fld MAC.GUARD_CFG2_U_FLOOR : Nat)) 1000000 := by
  rw [State.predict]
  dsimp only
  rw [if_neg (lt_irrefl 0)]

/-- Settles O30: a slot by what its wakes open and its beacons leave, the overflow list entry by entry, a disable by what
each of its withdrawals leaves. -/
theorem calendar : Obligations.Calendar := by
  intro s hon now
  refine ⟨fun hen => ⟨?_, fun hmigrated => ?_, ?_⟩, fun hen => ?_⟩
  · intro k due hlead
    obtain ⟨t, hexec, hslot, hcal, hwake⟩ := slotProcess_opens hon hen hlead
    refine ⟨t, hexec, hslot, hcal, fun x n hdue halt hn hstate hmisses => ?_⟩
    obtain ⟨⟨w, hw, hnidx, hat, he, hg, hwalt, hheard⟩, hnode⟩ := hwake x n hdue halt hn hstate
    rw [hmisses, predict_zero] at hg hnode
    rw [hmisses] at he
    exact ⟨⟨w, hw, hnidx, hat, he, hg, hwalt, hheard⟩, _, hnode, rfl, hstate⟩
  · exact overflowMigrate_files hon hen hmigrated
  · exact macDisable_withdraws hon hen
  · exact macEnable_starts hon hen

end Sys2Proof.Machine
end

section
/-!
PROOFS: recovery beacons against an armed region switch to a far profile slot (O33 fails).
-/
namespace Sys2Proof.Machine

open Sys2Proof

/-! ### A state whose armed profile lies in the last buffer -/

/-- The slot of an armed region switch whose profile record ends with the last buffer of Flacon. -/
abbrev farSlot : Nat := 0x81FB7

/-- The bytes of that record: port 2 and its channel 0 permitted, sub-band entry 12 valid with one channel and a duty window. -/
def farByte (o : Nat) : Byte := match o with
  | 0x10 => 4#8
  | 0x40 | 0x113 | 0x114 => 1#8
  | 0x116 => 100#8
  | _ => 0#8

/-- A counter ceiling of 100 for slot 0, the far profile's record, and every buffer but the last one taken. -/
def scarceMem : List Host.Cell := [(0xC000, 100#8), (0xC001, 0#8), (0xC002, 0#8), (0xC003, 0#8)] ++
  (List.range 512).map (fun o => (0x103FFE00 + o, farByte o)) ++ (List.range 16383).map (fun b => (metaAddr b + 3, 0x80#8))

/-- MAC enabled on a port 2 that is ready, recovery beacons always wanted there every second, the switch armed, a key in
slot 0, and 10 µs left to the beacon's instant. -/
def scarceState : State := { State.reset.after (seq [setDomain 2 2, setDomain 16 2, setFld MAC.MAC_CTL_EN 1, setFld MAC.MAC_CTL_RV_ALWAYS 1,
    setFld MAC.MISS_CFG_RV_PERIOD 1, setFld (MAC.RV_CFG_EN 2) 1, setFld (FE.PORT_CTL_EN 2) 1, setFld (FE.PORT_STATUS_READY 2) 1,
    setFld CRY.CRY_CTL_EN 1, setFld KEY.KEY_CTL_EN 1]) with
  mem := scarceMem
  acc := { ltb := 999990000, atb := 999990000 * 2 ^ 48 }
  fe := { armed := some (farSlot, 0#64) }
  key := { slots := [(0, { level := 1 })] }
  nv := { lcs := 1 }
  cry := { live := [(0, 0)] } }

/-- The beacon's request. -/
def scarceReq : TxReq := { port := 2, chan := 0, mode := 0, request := scarceState.fldI (MAC.RV_CFG_POWER 2), fcs := true, cca := false, buf := 0
                           len := 53 + micLen 1, tag := 0#32, cring := 0, owner := .recovery, ident := 256
                           trig := tplus (BitVec.ofNat 64 1000000000) (-200) }

theorem scarceState_regs : scarceState.on 2 = true ∧ scarceState.on 16 = true ∧ scarceState.flag MAC.MAC_CTL_EN = true ∧
    scarceState.flag (MAC.RV_CFG_EN 2) = true ∧ scarceState.flag MAC.MAC_CTL_RV_ALWAYS = true ∧ scarceState.flag CRY.CRY_CTL_EN = true ∧
    scarceState.fld MAC.MISS_CFG_RV_PERIOD = 1 ∧ scarceState.fld (MAC.RV_CFG_CHAN 2) = 0 ∧ scarceState.fld (MAC.RV_CFG_MODE 2) = 0 ∧
    scarceState.fld MAC.BCN_CFG_LEVEL = 1 ∧ scarceState.fld MAC.BCN_CFG_KEY = 0 ∧ scarceState.fld MAC.MAC_CTL_LEAD_SLOTS = 8 ∧
    scarceState.fld TM.POOL_STATUS_FREE = 16384 := by decide +kernel

theorem scarceState_key : scarceState.findKey 0#32 = .key ⟨[], [(0, 0)], 0, none⟩ ∧ scarceState.live 0 + 17 < scarceState.ceil 0 := by
  decide +kernel

theorem scarceState_time : scarceState.ns = 999990000 ∧ getD scarceState.mac.recov 2 0 = 0 := by decide +kernel

theorem scarceState_port : scarceState.flag (FE.PORT_CTL_EN 2) = true ∧ scarceState.flag (FE.PORT_STATUS_READY 2) = true ∧
    2000 ≤ tdiff scarceReq.trig scarceState.now ∧ scarceState.voiceFor 2 0 (tplus scarceReq.trig 200)
      (tplus (tplus scarceReq.trig 200) (scarceState.airtime 0 (53 + micLen 1) + 10000)) = some 8 := by decide +kernel

theorem scarceState_profile : scarceState.reserved 2 (tplus scarceReq.trig 200) (scarceState.airtime 0 (53 + micLen 1)) = false ∧
    scarceState.permits (scarceState.profileAt (tplus scarceReq.trig 200)) 2 0 = some (farSlot, 12) ∧
    scarceState.resolve farSlot 12 2 scarceReq.request = some 0 ∧ scarceState.assess farSlot 12 false = none ∧
    scarceState.dutyBreach farSlot 12 (tplus scarceReq.trig 200).toNat (scarceState.airtime 0 (53 + micLen 1)) = false ∧
    scarceState.dwellBreach farSlot 12 2 0 (tplus scarceReq.trig 200).toNat (scarceState.airtime 0 (53 + micLen 1)) = false := by
  decide +kernel

theorem scarceState_stageable : scarceState.stageable scarceReq 8 0 := by
  obtain ⟨hen, hready, htime, hvoice⟩ := scarceState_port
  obtain ⟨hreserved, hpermits, hresolve, hassess, hduty, hdwell⟩ := scarceState_profile
  exact ⟨hen, hready, hreserved, htime, rfl, hvoice, farSlot, 12, hpermits, hresolve, hassess, hduty, hdwell⟩

/-! ### The one free buffer -/

theorem find_append {α : Type} (a b : List (Nat × α)) (k : Nat) : find (a ++ b) k = (find a k).or (find b k) := by
  induction a with
  | nil => rfl
  | cons e a ih =>
    rw [List.cons_append, find, find]
    split
    · rfl
    · exact ih

theorem find_map_const {α : Type} (l : List Nat) (f : Nat → Nat) (v : α) (k : Nat) :
    find (l.map fun b => (f b, v)) k = if k ∈ l.map f then some v else none := by
  induction l with
  | nil => rfl
  | cons b l ih =>
    rw [List.map_cons, find, List.map_cons, ih]
    by_cases h : f b = k
    · rw [if_pos h, if_pos (by rw [h]; exact List.mem_cons_self ..)]
    · rw [if_neg h]
      congr 1
      rw [List.mem_cons, eq_iff_iff]
      exact ⟨.inr, fun h' => h'.resolve_left (Ne.symm h)⟩

/-- Among the buffers' metadata the listed bytes are those of the taken buffers. -/
theorem find_scarceMem {a : Nat} (ha : 0x10A40000 ≤ a) : find scarceMem a =
    if a ∈ (List.range 16383).map (fun b => metaAddr b + 3) then some 0x80#8 else none := by
  have hrecord : ∀ l : List Nat, (∀ o ∈ l, o < 512) → find (l.map fun o => (0x103FFE00 + o, farByte o)) a = none := fun l hl => by
    refine find_eq_none fun e he => ?_
    obtain ⟨o, ho, rfl⟩ := List.mem_map.1 he
    have := hl o ho
    simp only
    omega
  have hceil : find [(0xC000, 100#8), (0xC001, 0#8), (0xC002, 0#8), (0xC003, 0#8)] a = none := find_eq_none fun e he => by
    simp only [List.mem_cons, List.not_mem_nil, or_false] at he
    rcases he with rfl | rfl | rfl | rfl <;> simp only <;> omega
  rw [scarceMem, find_append, find_append, hceil, hrecord _ fun o ho => List.mem_range.1 ho, find_map_const,
    Option.none_or, Option.none_or]

theorem byte_scarce {a : Nat} (ha : 0x10A40000 ≤ a) : scarceState.byte a =
    if a ∈ (List.range 16383).map (fun b => metaAddr b + 3) then 0x80 else (memDefault a).toNat := by
  have hmem : scarceState.mem = scarceMem := rfl
  rw [State.byte, hmem, getD, find_scarceMem ha]
  split <;> rfl

theorem holder_of_byte (s : State) (b : Nat) : s.holder b = s.byte (metaAddr b + 3) / 2 := by
  have h0 := byte_lt s (metaAddr b)
  have h1 := byte_lt s (metaAddr b + 1)
  have h2 := byte_lt s (metaAddr b + 2)
  have h3 := byte_lt s (metaAddr b + 3)
  rw [State.holder, State.meta, mem'_four, bits]
  omega

/-- The last buffer is the only one that is free. -/
theorem scarce_free {b : Nat} (hb : b < 16384) : scarceState.isFree b = decide (b = 16383) := by
  rw [State.isFree, holder_of_byte, byte_scarce (by simp only [metaAddr]; omega)]
  by_cases h : b = 16383
  · subst h
    rw [if_neg]
    · decide
    · intro hmem
      obtain ⟨x, hx, heq⟩ := List.mem_map.1 hmem
      have := List.mem_range.1 hx
      simp only [metaAddr] at heq
      omega
  · rw [if_pos (List.mem_map.2 ⟨b, List.mem_range.2 (by omega), rfl⟩), decide_eq_false h]
    decide

/-! ### A channel barred by the beacon's own bytes (R140, R168) -/

/-- Nothing is staged, the far switch is armed, and no sub-band entry of its port 2 is valid. -/
def Barred (s : State) : Prop :=
  s.bb.staged = [] ∧ s.fe.armed = some (farSlot, 0#64) ∧ ∀ j < 6, s.byte (0x103FFF13 + 16 * j) % 2 = 0

theorem Barred.subOf {s : State} (h : Barred s) (n : Nat) : s.subOf farSlot 2 n = none := by
  obtain ⟨-, -, hbytes⟩ := h
  rw [State.subOf, List.find?_eq_none]
  intro e he
  obtain ⟨j, hj, rfl⟩ := List.mem_map.1 he
  have hzero := hbytes j (List.mem_range.1 hj)
  have haddr : profAddr farSlot + (0x50 + 16 * (6 * 2 + j) + 3) = 0x103FFF13 + 16 * j := by
    simp only [profAddr, farSlot]
    omega
  have hbit : bit (s.prof farSlot (0x50 + 16 * (6 * 2 + j) + 3) 1) 0 = false := by
    rw [State.prof, mem'_one, haddr, bit, Nat.pow_zero, Nat.div_one, hzero]
    rfl
  dsimp only
  rw [hbit, Bool.false_and]
  decide

/-- A staging of port 2 from then on is refused. -/
theorem Barred.stage {s : State} (h : Barred s) {r : TxReq} (hport : r.port = 2) (hl : 0 ≤ tdiff (tplus r.trig 200) 0#64)
    (refused : Nat → Effect) (ok : Nat → Nat → Effect) : ∃ c, s.after (stage r refused ok) = s.after (refused c) := by
  have hpermits : s.permits (s.profileAt (tplus r.trig 200)) r.port r.chan = none := by
    rw [State.profileAt, h.2.1]
    dsimp only
    rw [if_pos hl, State.permits, hport, h.subOf]
    split <;> rfl
  rw [Machine.stage, after_ask]
  dsimp only
  rw [hpermits]
  split
  · exact ⟨_, rfl⟩
  · split
    · exact ⟨_, rfl⟩
    · exact ⟨_, rfl⟩

/-- What bars the channel, memory as a whole. -/
def State.barView (s : State) : List Staged × Option (Nat × Instant) × List Host.Cell := (s.bb.staged, s.fe.armed, s.mem)

theorem skipsEvents_barView : SkipsEvents State.barView := ⟨fun _ _ _ _ => rfl, fun _ _ => rfl, fun _ _ => rfl⟩

theorem Barred.of_bytes {s t : State} (h : Barred s) (hstaged : t.bb.staged = s.bb.staged) (harmed : t.fe.armed = s.fe.armed)
    (hbytes : ∀ j < 6, t.byte (0x103FFF13 + 16 * j) = s.byte (0x103FFF13 + 16 * j)) : Barred t :=
  ⟨hstaged.trans h.1, harmed.trans h.2.1, fun j hj => by rw [hbytes j hj]; exact h.2.2 j hj⟩

theorem preserves_barred {e : Effect} (h : Keeps State.barView e) : Preserves Barred e := fun s hs => by
  have hview := h s
  simp only [State.barView, Prod.mk.injEq] at hview
  obtain ⟨hstaged, harmed, hmem⟩ := hview
  exact hs.of_bytes hstaged harmed fun j _ => byte_eq_of_mem hmem _

/-- A write of a counter ceiling is far from the profile's record. -/
theorem preserves_barred_mramWrite {a : Nat} {l : List Nat} (ha : a + l.length ≤ 0x103FFF13) : Preserves Barred (mramWrite a l) := by
  refine preserves_ask fun _ => preserves_seq_cons (fun s hs => ?_) (preserves_seq_cons (preserves_barred fun _ => rfl)
    (preserves_seq_nil _))
  refine hs.of_bytes ?_ ?_ fun j _ => byte_putBytes_ne s a l _ (.inr (by omega))
  · rw [after_putBytes]
  · rw [after_putBytes]

/-! ### A sealed frame of a barred channel is not staged -/

/-- From a barred state an effect ends with nothing staged. -/
def EndsUnstaged (e : Effect) : Prop := ∀ s, Barred s → (s.after e).bb.staged = []

theorem endsUnstaged_of_keeps {e : Effect} (h : Keeps (fun s => s.bb.staged) e) : EndsUnstaged e := fun s hs => (h s).trans hs.1

theorem endsUnstaged_ask {g : State → Effect} (h : ∀ s, EndsUnstaged (g s)) : EndsUnstaged (ask g) := fun s => h s s

theorem endsUnstaged_ite {p : Prop} [Decidable p] {a b : Effect} (ha : EndsUnstaged a) (hb : EndsUnstaged b) :
    EndsUnstaged (if p then a else b) := by
  split
  · exact ha
  · exact hb

theorem endsUnstaged_cons {e : Effect} {es : List Effect} (he : Preserves Barred e) (hes : EndsUnstaged (seq es)) :
    EndsUnstaged (seq (e :: es)) := fun s hs => by
  rw [after_seq_cons]
  exact hes _ (he s hs)

theorem endsUnstaged_single {e : Effect} (h : EndsUnstaged e) : EndsUnstaged (seq [e]) := fun s hs => by
  rw [after_seq_cons, after_seq_nil]
  exact h s hs

theorem endsUnstaged_loadNow {r : Word} (hr : refNode r = none) {refused : Nat → Effect} {ok : KeyMat → Effect}
    (href : ∀ c, EndsUnstaged (refused c)) (hok : ∀ m, EndsUnstaged (ok m)) : EndsUnstaged (loadNow r refused ok) :=
  endsUnstaged_ask fun s => by
    cases h : s.findKey r with
    | refused st =>
      exact endsUnstaged_cons (preserves_barred (keeps_seq_cons (keeps_when fun _ => rfl) (keeps_seq_cons (keeps_when fun _ => rfl)
        (keeps_seq_nil _)))) (endsUnstaged_single (href st))
    | key m =>
      have htouch : touchCache (refNode r) = nothing := by rw [hr]; rfl
      have hplain : withEui r m ok = ok m := by rw [withEui, hr]
      dsimp only
      rw [htouch, hplain]
      exact endsUnstaged_cons (preserves_nothing _) (endsUnstaged_single (hok m))
    | miss i k => exact absurd h (findKey_ne_miss hr s i k)

theorem keeps_startCeiling_barView (k : Nat) : Keeps State.barView (startCeiling k) :=
  keeps_ask fun _ => keeps_when (keeps_seq_cons (fun _ => rfl) (keeps_seq_cons (fun _ => rfl) (keeps_seq_nil _)))

theorem preserves_barred_ceilingDone {k : Nat} (hk : k < 4096) : Preserves Barred (ceilingDone k) := preserves_ask fun _ => by
  split
  · exact preserves_seq_cons (preserves_barred fun _ => rfl) (preserves_seq_cons (preserves_barred_mramWrite (by
      rw [leBytes_length, ceilAddr]
      omega)) (preserves_seq_nil _))
  · exact preserves_nothing _

theorem endsUnstaged_drawNow {k : Nat} (hk : k < 4096) {exhausted : Effect} {ok : Nat → Effect} (hex : EndsUnstaged exhausted)
    (hok : ∀ v, EndsUnstaged (ok v)) : EndsUnstaged (drawNow k exhausted ok) := by
  have hfire : ∀ {n : Nat}, n < 96 → ∀ a (f : Cry → Cry), Keeps State.barView (seq [setCry f, fire n a]) := fun hn a f =>
    keeps_seq_cons (fun _ => rfl) (keeps_seq_cons (keeps_fire skipsEvents_barView hn a) (keeps_seq_nil _))
  refine endsUnstaged_cons (preserves_ask fun _ => preserves_when (preserves_seq_cons
    (preserves_barred (keeps_startCeiling_barView k)) (preserves_seq_cons (preserves_barred_ceilingDone hk) (preserves_seq_nil _))))
    (endsUnstaged_single (endsUnstaged_ask fun s => ?_))
  exact endsUnstaged_ite
    (endsUnstaged_cons (preserves_barred fun _ => rfl) (endsUnstaged_cons (preserves_when (preserves_barred (hfire (by decide) _ _)))
      (endsUnstaged_single hex)))
    (endsUnstaged_cons (preserves_barred fun _ => rfl) (endsUnstaged_cons (preserves_when (preserves_barred (hfire (by decide) _ _)))
      (endsUnstaged_cons (preserves_when (preserves_barred (keeps_startCeiling_barView k))) (endsUnstaged_single (hok _)))))

/-- Once its bytes have barred the channel, a beacon of port 2 is refused. -/
theorem stageSealed_unstaged {s : State} {owner : TxOwner} {ident b a level ref : Nat} {l : List Nat} {q : TxReq}
    {refused : Nat → Effect} {ok : Nat → Nat → Effect} (hr : refNode (BitVec.ofNat 32 ref) = none) (hport : q.port = 2)
    (hl : 0 ≤ tdiff (tplus q.trig 200) 0#64) (href : ∀ c, Keeps (fun s => s.bb.staged) (refused c)) (hstaged : s.bb.staged = [])
    (hbarred : Barred (s.after (putBytes (bufAddr b) l))) :
    (s.after (stageSealed owner ident b l a level ref q refused ok)).bb.staged = [] := by
  have hno : ∀ c, Keeps (fun s => s.bb.staged) (seq [freeChain b, refused c]) := fun c =>
    keeps_seq_cons (beside_staged.keeps_freeChain b) (keeps_seq_cons (href c) (keeps_seq_nil _))
  have hslot : ∀ s : State, s.refSlot (BitVec.ofNat 32 ref) < 4096 := fun s => by
    rw [State.refSlot, hr]
    exact bits_lt ..
  rw [stageSealed, after_ask, after_ite]
  split
  · exact (hno _ s).trans hstaged
  · rw [after_seq_cons, after_seq_cons, after_seq_nil]
    refine endsUnstaged_loadNow hr (fun _ => endsUnstaged_of_keeps (hno _)) (fun _ => endsUnstaged_ask fun t =>
      endsUnstaged_drawNow (hslot t) (endsUnstaged_of_keeps (hno _)) fun _ u hu => ?_) _ hbarred
    obtain ⟨c, hc⟩ := hu.stage hport hl (fun c => seq [freeChain b, refused c]) _
    rw [hc]
    exact (hno c u).trans hu.1

/-! ### The beacon's bytes over the sub-band entries -/

/-- A beacon's bytes before its MIC (Tables 06.1 and 06.5). -/
def State.beaconBytes (s : State) (p bsn level time interval : Nat) (recovery : Bool) : List Nat :=
  leBytes 0x9008 2 ++ [bsn % 256] ++ leBytes (s.fld MAC.ADDR_PAN_ID) 2 ++ leBytes (s.fld MAC.ADDR_SHORT_ADDR) 2
    ++ [level + 8, 0, 0, 0, 0, 0] ++ [0xFF, 0xFF, 0, 0] ++ s.beaconBody p bsn time interval recovery

theorem beaconBytes_at (s : State) (p bsn level time interval : Nat) (recovery : Bool) :
    (s.beaconBytes p bsn level time interval recovery).getD 19 0 = bsn % 256 ∧
    (s.beaconBytes p bsn level time interval recovery).getD 35 0 = s.taExt p := ⟨rfl, rfl⟩

theorem beaconBytes_length (s : State) {k : Nat} {a : Instant} (h : s.fe.armed = some (k, a)) (p bsn level time interval : Nat) :
    (s.beaconBytes p bsn level time interval true).length = 51 := by
  rw [State.beaconBytes, State.beaconBody, h]
  simp only [List.length_append, leBytes_length, List.length_cons, List.length_nil, if_true]

theorem mem_setMac (s : State) (f : Mac → Mac) : (s.after (setMac f)).mem = s.mem := rfl

theorem taExt_none {s : State} (h : s.flag FE.PROF_STATE_NONE = true) (p : Nat) : s.taExt p = 0 := by
  rw [State.taExt, State.activeSlot, if_pos h]

theorem scarceState_record : scarceState.flag FE.PROF_STATE_NONE = true ∧ ∀ j < 6, 2 ≤ j → scarceState.byte (0x103FFF13 + 16 * j) % 2 = 0 := by
  decide +kernel

/-- In the last buffer the beacon's number and turnaround stand where the profile's valid sub-band entries stood. -/
theorem scarce_barred {s : State} (hmem : s.mem = scarceState.mem) (hregs : s.regs = scarceState.regs) (hfe : s.fe = scarceState.fe)
    (hstaged : s.bb.staged = []) (level time interval : Nat) (f : Mac → Mac) :
    Barred (((s.after (takeBuf 16383 1)).after (setMac f)).after
      (putBytes (bufAddr 16383) (s.beaconBytes 2 0 level time interval true))) := by
  have harmed : s.fe.armed = some (farSlot, 0#64) := by rw [hfe]; rfl
  have hlength := beaconBytes_length s harmed 2 0 level time interval
  obtain ⟨hnumber, hturn⟩ := beaconBytes_at s 2 0 level time interval true
  obtain ⟨hext, hrecord⟩ := scarceState_record
  have htake := keeps_takeBuf (cls := 1) (f := fun t : State => (t.bb.staged, t.fe.armed)) ⟨fun _ _ _ _ => rfl, fun _ _ => rfl, fun _ _ => rfl⟩
    (fun _ _ _ => rfl) (fun _ _ _ => rfl) (fun _ => rfl) 16383 (by decide) s
  have hext' : s.taExt 2 = 0 := taExt_none (by rw [State.flag, fld_of_regs hregs]; exact hext) 2
  refine ⟨?_, ?_, fun j hj => ?_⟩
  · rw [after_putBytes]
    exact (congrArg Prod.fst htake).trans hstaged
  · rw [after_putBytes]
    exact (congrArg Prod.snd htake).trans harmed
  · rcases Nat.lt_or_ge j 2 with hj2 | hj2
    · have hbyte := byte_putBytes ((s.after (takeBuf 16383 1)).after (setMac f)) (bufAddr 16383)
        (s.beaconBytes 2 0 level time interval true) (19 + 16 * j) (by rw [hlength]; omega)
      have haddr : bufAddr 16383 + (19 + 16 * j) = 0x103FFF13 + 16 * j := by
        simp only [bufAddr]
        omega
      rw [haddr] at hbyte
      rw [hbyte]
      interval_cases j
      · rw [hnumber]
      · rw [hturn, hext']
    · rw [byte_putBytes_ne _ _ _ _ (.inr (by rw [hlength]; simp only [bufAddr]; omega))]
      have hkept := memOnly_takeBuf (cls := 1) s 16383 (by decide) (0x103FFF13 + 16 * j) (.inl (by simp only [metaAddr]; omega))
      rw [byte_eq_of_mem (mem_setMac (s.after (takeBuf 16383 1)) f), hkept, byte_eq_of_mem hmem]
      exact hrecord j hj hj2

/-! ### The refutation -/

/-- The recovery beacon's instant is noted. -/
def noteBeacon (p t : Nat) : Effect := setMac fun m => { m with recov := insertKey m.recov p t }

theorem noteBeacon_keeps (s : State) (p t : Nat) : (s.after (noteBeacon p t)).mem = s.mem ∧ (s.after (noteBeacon p t)).regs = s.regs ∧
    (s.after (noteBeacon p t)).fe = s.fe ∧ (s.after (noteBeacon p t)).bb = s.bb ∧ (s.after (noteBeacon p t)).mac.bsn = s.mac.bsn :=
  ⟨rfl, rfl, rfl, rfl, rfl⟩

theorem scarceState_idle : scarceState.bb.staged = [] ∧ getD scarceState.mac.bsn 2 0 = 0 := by decide +kernel

theorem isFree_of_mem {s t : State} (h : t.mem = s.mem) (b : Nat) : t.isFree b = s.isFree b := by
  rw [State.isFree, State.isFree, State.holder, State.holder, State.meta, State.meta, State.mem', State.mem', bytes_eq_of_mem h]

/-- A beacon of port 2 sent with the last buffer alone free is not staged. -/
theorem sendBeacon_unstaged {s : State} (hmem : s.mem = scarceState.mem) (hregs : s.regs = scarceState.regs)
    (hfe : s.fe = scarceState.fe) (hstaged : s.bb.staged = []) (hbsn : getD s.mac.bsn 2 0 = 0) {chan mode t interval : Nat} {power : Int}
    {ok : Effect} (htime : 0 ≤ tdiff (tplus (tplus (BitVec.ofNat 64 t) (-200)) 200) 0#64) :
    (s.after (sendBeacon 2 chan mode power t interval true ok)).bb.staged = [] := by
  have hfree : s.fld TM.POOL_STATUS_FREE = 16384 := by
    obtain ⟨-, -, -, -, -, -, -, -, -, -, -, -, hfree⟩ := scarceState_regs
    rw [fld_of_regs hregs]
    exact hfree
  have hone : ∀ {b : Nat}, b < 16384 → s.isFree b = decide (b = 16383) := fun hb => by rw [isFree_of_mem hmem, scarce_free hb]
  obtain ⟨b, hb, hbfree, hbuf⟩ := after_withBuf (s := s) (cls := 1) (withBuf 2 (beaconSkip 2 chan) _) _
    (by rw [hfree]; exact (by decide : 64 < 16384)) ⟨16383, by decide, (hone (by decide)).trans (by decide)⟩
  obtain rfl : b = 16383 := of_decide_eq_true ((hone hb).symm.trans hbfree)
  rw [sendBeacon, after_ask]
  refine (congrArg (fun t : State => t.bb.staged) hbuf).trans ?_
  rw [after_seq_cons, after_seq_cons, after_seq_nil]
  refine stageSealed_unstaged (refNode_beaconKey s) rfl htime (fun _ => keeps_when (beside_staged.keeps_beaconSkip 2 chan)) ?_ ?_
  · exact (keeps_takeBuf (cls := 1) (f := fun t : State => t.bb.staged) ⟨fun _ _ _ _ => rfl, fun _ _ => rfl, fun _ _ => rfl⟩
      (fun _ _ _ => rfl) (fun _ _ _ => rfl) (fun _ => rfl) 16383 (by decide) s).trans hstaged
  · rw [hbsn]
    exact scarce_barred hmem hregs hfe hstaged _ _ _ _

theorem scarceState_unstaged : ∃ t, exec (.recoveryBeacon 2) scarceState = .next t ∧ t.bb.staged = [] := by
  obtain ⟨hon, hon16, hen, hrv, halways, hcry, hperiod, hchan, hmode, hlevel, hkey, hlead, hfree⟩ := scarceState_regs
  obtain ⟨hns, hrecov⟩ := scarceState_time
  have h2 : ((2 : Fin 3) : Nat) = 2 := rfl
  refine answers_inDomain (P := fun t => t.bb.staged = []) hon rfl ?_
  rw [after_ask]
  dsimp only
  rw [h2, hperiod, hchan, hmode, hlevel, hlead, hns, hrecov, hen, hrv, halways, after_when, if_pos (by decide), after_seq_cons,
    after_seq_cons, after_seq_nil]
  have hinstant : (999990000 + 1 * 1000000000 - 1) / (1 * 1000000000) * (1 * 1000000000) = 1000000000 := by norm_num
  obtain ⟨hstaged, hbsn⟩ := scarceState_idle
  obtain ⟨hmem, hregs, hfe, hbb, hnumbers⟩ := noteBeacon_keeps scarceState 2 1000000000
  rw [hinstant, ← noteBeacon]
  rw [← hbb] at hstaged
  rw [← hnumbers] at hbsn
  exact sendBeacon_unstaged hmem hregs hfe hstaged hbsn (by decide)

/-- Refutes O33: the armed switch's profile record lies in the only free buffer, and the beacon written there takes away the
sub-band that permitted it before it is staged. The statement bounds the armed switch's slot by nothing; no profile slot of
the region reaches the buffers. -/
theorem not_recoveryAndParent : ¬ Obligations.RecoveryAndParent := by
  unfold Obligations.RecoveryAndParent
  intro h
  obtain ⟨hon, hon16, hen, hrv, halways, hcry, hperiod, hchan, hmode, hlevel, hkey, hlead, hfree⟩ := scarceState_regs
  obtain ⟨hfind, hlive⟩ := scarceState_key
  obtain ⟨hns, hrecov⟩ := scarceState_time
  obtain ⟨t, ht, hstaged⟩ := scarceState_unstaged
  have hbeacon := (h scarceState hon hen).1 2 ⟨[], [(0, 0)], 0, none⟩ 8 0
  dsimp only at hbeacon
  have h2 : ((2 : Fin 3) : Nat) = 2 := rfl
  rw [h2, hperiod, hchan, hmode, hlevel, hkey, hlead, hfree, hns, hrecov] at hbeacon
  obtain ⟨u, hu, -, ⟨y, hy, -⟩, -⟩ := hbeacon hrv halways (by decide) (by decide) (by decide)
    ⟨16383, by decide, (scarce_free (by decide)).trans (by decide)⟩ hcry hon16 hfind hlive scarceState_stageable
  obtain rfl : t = u := by
    rw [ht] at hu
    injection hu
  rw [hstaged] at hy
  exact List.not_mem_nil hy

end Sys2Proof.Machine
end

section
/-!
PROOFS: the hypotheses of O29 to O32 are met, each shown at a boundary value, and what the statements then give.
-/
namespace Sys2Proof.Machine

open Sys2Proof

/-- PD_MAC and the DRAM ON and READY, MAC enabled, at `ns` of ATB, with MAC's working state `m` and registers set. -/
def macState (ns : Nat) (m : Mac) (e : Effect) : State :=
  { State.reset.after (seq [setDomain 2 2, setDomain 17 2, setFld DDR.DDR_STATUS_STATE 2, setFld MAC.MAC_CTL_EN 1, e]) with
    acc := timeAt ns, mac := m }

/-! ### O29 -/

/-- The last node cached in state `st`, its node table at the DRAM's base. -/
def lastNode (st : Nat) : State := macState 0 { cache := [(131071, { state := st })] } (setFld MAC.DRAM_BASE_HI_ADDR 1)

theorem lastNode_allocated : Answers (.nodeAlloc 131071) (lastNode 0) (fun t => t.fld MAC.NODE_OP_RESULT = 0) := by
  obtain ⟨hfree, -⟩ := nodeOperations 131071 { state := 0 } (lastNode 0) (by decide +kernel) (by decide +kernel)
  obtain ⟨⟨t, ht, ⟨hresult, -⟩, -⟩, -⟩ := hfree rfl
  exact ⟨t, ht, hresult⟩

/-- State 1, IDLE, is the first that is not FREE. -/
theorem lastNode_inUse : Answers (.nodeAlloc 131071) (lastNode 1) (fun t => t.fld MAC.NODE_OP_RESULT = 2) := by
  obtain ⟨-, hused, -⟩ := nodeOperations 131071 { state := 1 } (lastNode 1) (by decide +kernel) (by decide +kernel)
  obtain ⟨⟨t, ht, ⟨hresult, -⟩, -⟩, -⟩ := hused (by decide)
  exact ⟨t, ht, hresult⟩

theorem lastNode_addr : (lastNode 1).nodeAddr 131071 = 0x101FFFF00 := by decide +kernel

theorem lastNode_flushed : Answers (.nodeFlush 131071) (lastNode 1) (fun t =>
    t.bytes 0x101FFFF00 128 = (nodeBytes { state := 1 }).map (· % 256)) := by
  obtain ⟨-, hused, -⟩ := nodeOperations 131071 { state := 1 } (lastNode 1) (by decide +kernel) (by decide +kernel)
  obtain ⟨-, -, hflush⟩ := hused (by decide)
  obtain ⟨t, ht, -, hbytes, -⟩ := hflush (by decide +kernel) (by decide +kernel) (by decide +kernel)
  have haddr : (lastNode 1).nodeAddr ((131071 : Fin 131072) : Nat) = 0x101FFFF00 := lastNode_addr
  exact ⟨t, ht, haddr ▸ hbytes⟩

/-! ### O30 -/

/-- Slot 8 due from slot 0 on, with one wake of a SCHEDULED node in it, 8 ms after the node's anchor. -/
def dueWake : State := macState 0 { slot := 8, calendar := [⟨131071, 8, 2000000, false, false⟩]
                                    cache := [(131071, { state := 2 })] } (setFld MAC.MAC_CTL_LEAD_SLOTS 8)

/-- The lead reaches the slot exactly. -/
theorem dueWake_watched : Answers .slotProcess dueWake (fun t => t.mac.slot = 9 ∧
    ∃ w ∈ t.mac.watches, w.nidx = 131071 ∧ w.wake = 2000000) := by
  obtain ⟨hen, -⟩ := calendar dueWake (by decide +kernel)
  obtain ⟨hslot, -⟩ := hen (by decide +kernel)
  obtain ⟨t, ht, hnext, -, hwatch⟩ := hslot (by decide +kernel)
  obtain ⟨⟨w, hw, hnidx, hwake, -⟩, -⟩ := hwatch ⟨131071, 8, 2000000, false, false⟩ { state := 2 } (by decide +kernel) rfl
    (by decide +kernel) rfl rfl
  exact ⟨t, ht, hnext, w, hw, hnidx, hwake⟩

/-- The first slot of the second period of 16.384 s. -/
theorem laterPeriod_migrates : Answers .overflowMigrate (macState 16384000000 {} (seq [])) (fun t => t.mac.migrated = 1) := by
  obtain ⟨hen, -⟩ := calendar (macState 16384000000 {} (seq [])) (by decide +kernel)
  obtain ⟨-, hmigrate, -⟩ := hen (by decide +kernel)
  obtain ⟨t, ht, hmoved, -⟩ := hmigrate (by decide +kernel)
  exact ⟨t, ht, hmoved⟩

theorem disabledMac_enables : Answers .macEnable (macState 250000 {} (setFld MAC.MAC_CTL_EN 0)) (fun t => t.mac.slot = 1) := by
  obtain ⟨-, hoff⟩ := calendar (macState 250000 {} (setFld MAC.MAC_CTL_EN 0)) (by decide +kernel)
  obtain ⟨t, ht, -, hslot, -⟩ := hoff (by decide +kernel)
  exact ⟨t, ht, hslot⟩

/-! ### O31 -/

/-- An uplink frame of the least bytes of its form, of the last node, 1 s and 1 µs in. -/
def uplinkFrame : MacFrame := { nidx := 131071, buf := 0, sfd := 1000001000, psdu := 0x49 :: 0xD8 :: List.replicate 21 0
                                record := [], port := 0, chan := 0, mode := 0 }

/-- The record of a node that missed two wakes (state 3). -/
def missedNode : Node := { state := 3, misses := 2 }

/-- A wake exactly 1 s after the anchor, whose guard of 1 µs ends with the frame's SFD instant. -/
def secondWake : Watch := ⟨131071, 1000000000, 1000000000, 1000, 1000100000, false, none, false⟩

/-- The frame awaits MAC, the tag holding the node's anchor. -/
def framedNode : State :=
  macState 1000002000 { inbox := [uplinkFrame], cache := [(131071, missedNode)], synced := [(131071, true)], watches := [secondWake] } (seq [])

/-- The node is SCHEDULED again, with its first rate sample. -/
theorem framedNode_sampled : Answers .authFrame framedNode (fun t => t.mac.inbox = [] ∧
    ∃ m, find t.mac.cache 131071 = some m ∧ m.state = 2 ∧ m.misses = 0 ∧ m.flagBit 0 = true) := by
  obtain ⟨hframe, -⟩ := framesAndWakes framedNode (by decide +kernel) (by decide +kernel)
  obtain ⟨t, ht, hinbox, -, -, m, hm, -, -, hmisses, hstate, -, -, -, hwake⟩ := hframe uplinkFrame []
    ⟨.uplink, 21, 0, some (0, 0), some (1, 0), 0⟩ missedNode rfl (by decide +kernel) (by decide +kernel) (by decide)
  obtain ⟨-, hsample⟩ := hwake secondWake rfl rfl rfl (by decide +kernel) (by decide +kernel)
  obtain ⟨hfirst, -⟩ := hsample rfl (by decide) (by decide +kernel) (by decide +kernel) (by decide +kernel) (by decide +kernel)
  obtain ⟨-, hvalid⟩ := hfirst (by decide +kernel)
  exact ⟨t, ht, hinbox, m, hm, hstate, hmisses, hvalid⟩

/-- A wake of the last node at its decision instant, with MISS_LIMIT 1. -/
def decidedWake (misses : Nat) (heard alt : Bool) : State :=
  macState 1000000 { watches := [⟨131071, 500000, 500000, 1000, 1000000, alt, none, heard⟩]
                     cache := [(131071, { state := 2, misses := misses, interval := 4 })] } (setFld MAC.MISS_CFG_MISS_LIMIT 1)

/-- The last miss that the limit allows. -/
theorem decidedWake_missed : Answers (.wakeDecision 131071) (decidedWake 0 false false) (fun t =>
    ∃ m, find t.mac.cache 131071 = some m ∧ m.state = 3 ∧ m.misses = 1) := by
  obtain ⟨-, hwake⟩ := framesAndWakes (decidedWake 0 false false) (by decide +kernel) (by decide +kernel)
  obtain ⟨hmain, -⟩ := hwake 131071 ⟨131071, 500000, 500000, 1000, 1000000, false, none, false⟩
    { state := 2, misses := 0, interval := 4 } (by decide +kernel) (by decide +kernel)
  obtain ⟨-, -, hmissed⟩ := hmain (by decide +kernel)
  obtain ⟨t, ht, -, -, m, hm, hmisses, -, -, -, hstate, -⟩ := hmissed (by decide +kernel) (by decide) rfl
  exact ⟨t, ht, m, hm, hstate, hmisses⟩

/-- One miss more. -/
theorem decidedWake_lost : Answers (.wakeDecision 131071) (decidedWake 1 false false) (fun t =>
    131071 ∈ t.mac.search ∧ t.raised 41 (131071 + 2 * 2 ^ 20)) := by
  obtain ⟨-, hwake⟩ := framesAndWakes (decidedWake 1 false false) (by decide +kernel) (by decide +kernel)
  obtain ⟨hmain, -⟩ := hwake 131071 ⟨131071, 500000, 500000, 1000, 1000000, false, none, false⟩
    { state := 2, misses := 1, interval := 4 } (by decide +kernel) (by decide +kernel)
  obtain ⟨-, hlost, -⟩ := hmain (by decide +kernel)
  obtain ⟨t, ht, hraised, -, m, -, -, -, -, -, -, -, hsearch, -⟩ := hlost (by decide +kernel) (by decide) rfl
  exact ⟨t, ht, hsearch, hraised⟩

theorem decidedWake_heard : Answers (.wakeDecision 131071) (decidedWake 1 true false) (fun t => t.mac.watches = []) := by
  obtain ⟨-, hwake⟩ := framesAndWakes (decidedWake 1 true false) (by decide +kernel) (by decide +kernel)
  obtain ⟨hmain, -⟩ := hwake 131071 ⟨131071, 500000, 500000, 1000, 1000000, false, none, true⟩
    { state := 2, misses := 1, interval := 4 } (by decide +kernel) (by decide +kernel)
  obtain ⟨hheard, -⟩ := hmain (by decide +kernel)
  obtain ⟨t, ht, hless, -⟩ := hheard rfl
  exact ⟨t, ht, List.length_eq_zero_iff.mp (Nat.lt_one_iff.mp hless)⟩

theorem decidedWake_withdrawn : Answers (.altWakeExpire 131071) (decidedWake 1 false true) (fun t =>
    ∀ y ∈ t.mac.watches, ¬(y.nidx = 131071 ∧ y.alt = true)) := by
  obtain ⟨-, hwake⟩ := framesAndWakes (decidedWake 1 false true) (by decide +kernel) (by decide +kernel)
  obtain ⟨-, halt⟩ := hwake 131071 ⟨131071, 500000, 500000, 1000, 1000000, true, none, false⟩
    { state := 2, misses := 1, interval := 4 } (by decide +kernel) (by decide +kernel)
  obtain ⟨t, ht, -, -, hgone, -⟩ := halt (by decide +kernel)
  exact ⟨t, ht, hgone⟩

/-! ### O32 -/

/-- An acknowledgement of the last node, whose record is IDLE, that ended with `status`. -/
def endedAck (status : Nat) : State :=
  { macState 0 { cache := [(131071, { state := 1 })], acks := [(131071, ⟨2000, 4000, false, 1000, 3000, false, 2, 0⟩)] } (seq []) with
    bb := { done := [⟨.ack, 131071, status, 0, 0, 0, 0, 0#64⟩] } }

theorem endedAck_anchors : Answers .ackCompletion (endedAck 0) (fun t =>
    ∃ m, find t.mac.cache 131071 = some m ∧ m.anchor = 2000 ∧ m.state = 2) := by
  obtain ⟨hack, -⟩ := acksAndDownlink (endedAck 0) (by decide +kernel)
  obtain ⟨hsent, -⟩ := hack ⟨.ack, 131071, 0, 0, 0, 0, 0, 0#64⟩ ⟨2000, 4000, false, 1000, 3000, false, 2, 0⟩ { state := 1 }
    (by decide +kernel) (by decide +kernel) (by decide +kernel) (by decide)
  obtain ⟨t, ht, -, -, -, hm⟩ := hsent rfl rfl rfl
  exact ⟨t, ht, _, hm, rfl, rfl⟩

theorem endedAck_restores : Answers .ackCompletion (endedAck 1) (fun t =>
    ∃ m, find t.mac.cache 131071 = some m ∧ m.anchor = 1000 ∧ m.wake = 3000) := by
  obtain ⟨hack, -⟩ := acksAndDownlink (endedAck 1) (by decide +kernel)
  obtain ⟨-, hfailed⟩ := hack ⟨.ack, 131071, 1, 0, 0, 0, 0, 0#64⟩ ⟨2000, 4000, false, 1000, 3000, false, 2, 0⟩ { state := 1 }
    (by decide +kernel) (by decide +kernel) (by decide +kernel) (by decide)
  obtain ⟨t, ht, -, -, m, hm, hanchor, hwake, -⟩ := hfailed (by decide) (by decide)
  exact ⟨t, ht, m, hm, hanchor, hwake⟩

/-- A downlink frame, to be acknowledged by its tag or not (W2.3). -/
def ringFrame (acked : Bool) : DlFrame := { d := ⟨0#32, 0#32, if acked then 0#32 else 8#32, 0#32⟩, seq := 7 }

/-- A burst to the last node on port 0, its ring of one frame, tried `tries` times before; DL_RETRIES is 2. -/
def burstState (tries : Nat) (acked : Bool) (await_ : Option (Nat × Nat)) (acks : List MacFrame) (done : List TxDone) : State :=
  { macState 1000000 { cache := [(131071, { state := 2, dlRetry := tries })], downlink := [(131071, [ringFrame acked])], tagAcks := acks
                       bursts := [(131071, { port := 0, chan := 0, mode := 0, sent := 1, await_ := await_ })] }
      (seq [setFld MAC.DL_CFG_DL_RETRIES 2, setFld MAC.DL_CFG_DL_ACKTOL 100]) with bb := { done := done } }

/-- A tag acknowledgement at the last instant awaited. -/
def lateAck (sq : Nat) : MacFrame := { nidx := 131071, buf := 0, sfd := 600000, psdu := [2, 0, sq], record := [], port := 0, chan := 0, mode := 0 }

theorem burstState_delivered : Answers .tagAck (burstState 0 true (some (7, 500000)) [lateAck 7] []) (fun t => t.dlRing 131071 = []) := by
  obtain ⟨-, hdown, -⟩ := acksAndDownlink (burstState 0 true (some (7, 500000)) [lateAck 7] []) (by decide +kernel)
  obtain ⟨hack, -⟩ := hdown 131071 { state := 2 } { port := 0, chan := 0, mode := 0, sent := 1, await_ := some (7, 500000) }
    (ringFrame true) [] [] (by decide +kernel) (by decide +kernel) (by decide +kernel)
  obtain ⟨hmatch, -⟩ := hack (lateAck 7) 7 500000 rfl rfl rfl rfl (by decide +kernel)
  obtain ⟨t, ht, -, -, hring, -⟩ := hmatch rfl rfl
  exact ⟨t, ht, hring⟩

/-- The second try is the last. -/
theorem burstState_timedOut : Answers (.dlAckTimeout 131071) (burstState 1 true (some (7, 500000)) [] []) (fun t => t.dlRing 131071 = []) := by
  obtain ⟨-, hdown, -⟩ := acksAndDownlink (burstState 1 true (some (7, 500000)) [] []) (by decide +kernel)
  obtain ⟨-, htimeout, -⟩ := hdown 131071 { state := 2, dlRetry := 1 }
    { port := 0, chan := 0, mode := 0, sent := 1, await_ := some (7, 500000) } (ringFrame true) [] [] (by decide +kernel)
    (by decide +kernel) (by decide +kernel)
  obtain ⟨t, ht⟩ := htimeout 7 500000 rfl rfl (by decide +kernel)
  beta_reduce at ht
  rw [if_pos (by decide +kernel)] at ht
  obtain ⟨hstep, -, hring, -⟩ := ht
  exact ⟨t, hstep, hring⟩

/-- The frame's end at the try before the last. -/
theorem burstState_failed : Answers .dlFrameCompletion (burstState 0 true none [] [⟨.downlink, 131071, 5, 0, 0, 0, 0, 0#64⟩]) (fun t =>
    find t.mac.cache 131071 = some { state := 2, dlRetry := 1 }) := by
  obtain ⟨-, hdown, -⟩ := acksAndDownlink (burstState 0 true none [] [⟨.downlink, 131071, 5, 0, 0, 0, 0, 0#64⟩]) (by decide +kernel)
  obtain ⟨-, -, hends⟩ := hdown 131071 { state := 2 } { port := 0, chan := 0, mode := 0, sent := 1 } (ringFrame true) [] []
    (by decide +kernel) (by decide +kernel) (by decide +kernel)
  obtain ⟨-, -, hfailed⟩ := hends ⟨.downlink, 131071, 5, 0, 0, 0, 0, 0#64⟩ (by decide +kernel) rfl rfl
  obtain ⟨t, ht⟩ := hfailed (by decide)
  beta_reduce at ht
  rw [if_neg (by decide +kernel)] at ht
  obtain ⟨hstep, -, -, hnode⟩ := ht
  exact ⟨t, hstep, hnode⟩

theorem emptyCache_searches : Answers (.recordError 131071) (macState 0 {} (seq [])) (fun t => 131071 ∈ t.mac.search) := by
  obtain ⟨-, -, herror⟩ := acksAndDownlink (macState 0 {} (seq [])) (by decide +kernel)
  obtain ⟨t, ht, -, hsearch, -⟩ := herror 131071 (by decide +kernel)
  exact ⟨t, ht, hsearch⟩

end Sys2Proof.Machine
end
